-- ==== Sys2Proof/Word.lean ====
section
/-! DEFINITION. The word types of the model: a byte, and a string of bytes in the order in which they travel. -/
namespace Sys2Proof

/-- One byte of an object value, a frame or a message. -/
abbrev Byte := BitVec 8

/-- A string of bytes, first byte first. -/
abbrev Bytes := List Byte

end Sys2Proof
end

