-- ==== Sys2Proof/Syntax.lean ====
section
/-! DEFINITION. The commands: one constructor for each row of spec/opcode_table.json, in its order, with the operands that
the row's rule gives the happening, and the sub-structures of those operands. -/
namespace Sys2Proof

/-- Where a host request comes from: a UDP datagram (MAC port, source IP address and UDP port, SEQ), a mailbox slot, or a
complete CAN FD SDO exchange on a server channel (Table 2.5). -/
inductive Via where
  | udp (mac : Fin 2) (ip : BitVec 32) (port seq : BitVec 16)
  | mailbox (slot : Fin 4)
  | can (controller : Fin 2) (channel : Fin 4)
deriving DecidableEq, Repr, Inhabited

/-- The fields of an OD message of Table 2.7 other than SERVICE and SEQ; `payload` is all that follows the 20-byte header. -/
structure OdMsg where
  version : BitVec 8 := 1
  index : BitVec 16
  sub : BitVec 8
  flags : BitVec 8 := 0
  offset : BitVec 32 := 0
  total : BitVec 32 := 0
  plen : BitVec 16 := 0
  payload : Bytes := []
deriving DecidableEq, Repr, Inhabited

/-- An SDO upload request of CiA 1301: initiate, or the next segment with its toggle bit. -/
inductive SdoUp where
  | initiate (index : BitVec 16) (sub : BitVec 8)
  | segment (toggle : Bool)
deriving DecidableEq, Repr, Inhabited

/-- An SDO download request: expedited, the start of a segmented transfer, or a segment. -/
inductive SdoDown where
  | expedited (index : BitVec 16) (sub : BitVec 8) (data : Bytes)
  | initiate (index : BitVec 16) (sub : BitVec 8) (total : BitVec 32)
  | segment (toggle last : Bool) (data : Bytes)
deriving DecidableEq, Repr, Inhabited

/-- What AON sees of the wake inputs (Table 6.5): the levels of WAKE0 to WAKE3 and the voltage of TRL_DET in mV, how many µs they have
been so, and the conditions of sources 6 to 10 that hold, each at its bit. -/
structure WakeSeen where
  pins : BitVec 4
  trl : BitVec 16
  held : BitVec 16
  others : BitVec 16
deriving DecidableEq, Repr, Inhabited

/-- A host's request to a domain: a write to DOMAIN_STATE. -/
structure DomainAsk where
  via : Via
  domain : Fin 8
  state : BitVec 8
deriving DecidableEq, Repr, Inhabited

/-- What AON takes in in the same cycle of 1 µs as the command that carries it (R25, R100, R138): wake inputs, requests of hosts, a due
step of a group, idle times that expire, rails whose loss is confirmed. -/
structure AonCycle where
  seen : Option WakeSeen := none
  asks : List DomainAsk := []
  step : Bool := false
  idle : List (Fin 8) := []
  lost : List (Fin 9) := []
deriving DecidableEq, Repr, Inhabited

/-- An NMT command: on a CAN FD bus with its node-ID (0 for all nodes), or by 0x2002:03 (R45). -/
inductive NmtSrc where
  | bus (controller : Fin 2) (node : BitVec 8)
  | host (via : Via)
deriving DecidableEq, Repr, Inhabited

/-- Where a PDO arrives: a CAN FD controller with the COB-ID, or a MAC with the payload of EtherType 0x88B5 as its data. -/
inductive PdoSrc where
  | can (controller : Fin 2) (cobId : BitVec 32)
  | eth (mac : Fin 2)
deriving DecidableEq, Repr, Inhabited

/-- Phase comparisons of a synthesiser's detector, oldest first, in runs: how many, with which phase error in ps (R171). -/
abbrev PhaseRuns := List (Nat × Int)

/-- What the supervisor of CASLOCK finds: comparisons of the detector and the pin in mV, or the advance of the carrier phase
counter in the present period, in counts of R177 (R173, R181). -/
inductive CasSupervision where
  | pin (runs : PhaseRuns) (mv : BitVec 16)
  | advance (counted : Nat)
deriving DecidableEq, Repr, Inhabited

/-- What the header of a PTP message says: MAC port, transport (true UDP), domain, sourcePortIdentity, sequenceId. -/
structure PtpHead where
  mac : Fin 2
  udp : Bool
  domain : BitVec 8
  source : BitVec 80
  seq : BitVec 16
deriving DecidableEq, Repr, Inhabited

/-- What an Announce says of its grandmaster (R190). -/
structure AnnounceBody where
  gm : BitVec 64
  priority1 : BitVec 8
  clockClass : BitVec 8
  accuracy : BitVec 8
  variance : BitVec 16
  priority2 : BitVec 8
  steps : BitVec 16
  utcOffset : Int
  logAnnounce : Int
  logSync : Int
deriving DecidableEq, Repr, Inhabited

/-- A message of a cell node in an acyclic slot of the frame in flight on the active path of a ring (Table 11.1); its MTYPE is the
row's. -/
structure CellMsg where
  ring : Fin 8
  position : Fin 16
  slot : Fin 4
  kind : BitVec 2 := 0
  retry : Bool := false
  echo : Bool := false
  tag : BitVec 8 := 0
  epoch : BitVec 8 := 0
  grant : BitVec 16 := 0
  body : Bytes
deriving DecidableEq, Repr, Inhabited

/-- Factors of one converter that a calibration finds: O_g and K_g per gain (R374). -/
structure CalFactors where
  offsets : List Int
  gains : List Nat
deriving DecidableEq, Repr, Inhabited

/-- The commands of the block. -/
inductive Instr where
  /-- OD_READ (R35). -/
  | odRead (via : Via) (m : OdMsg)
  /-- OD_WRITE (R41). -/
  | odWrite (via : Via) (m : OdMsg)
  /-- SDO_UPLOAD (R41). -/
  | sdoUpload (controller : Fin 2) (channel : Fin 4) (step : SdoUp)
  /-- SDO_DOWNLOAD (R41). -/
  | sdoDownload (controller : Fin 2) (channel : Fin 4) (step : SdoDown)
  /-- KEEPALIVE (R47). -/
  | keepalive (via : Via)
  /-- CLOSE (R40). -/
  | close (via : Via)
  /-- MAILBOX_OWNER_SET (R50). -/
  | mailboxOwnerSet (slot : Fin 4) (msgLen : BitVec 11) (message : Bytes)
  /-- UDP_SESSION_IDLE_TIMEOUT (R40). -/
  | udpSessionIdleTimeout (session : Fin 64)
  /-- TRANSFER_TIMEOUT (R43). -/
  | transferTimeout (session : Fin 64)
  /-- NMT_START (R45). -/
  | nmtStart (src : NmtSrc)
  /-- NMT_STOP (R45). -/
  | nmtStop (src : NmtSrc)
  /-- NMT_ENTER_PREOPERATIONAL (R45). -/
  | nmtEnterPreoperational (src : NmtSrc)
  /-- NMT_RESET_NODE (R45). -/
  | nmtResetNode (src : NmtSrc)
  /-- NMT_RESET_COMMUNICATION (R45). -/
  | nmtResetCommunication (src : NmtSrc)
  /-- RPDO_RECEIVED (R53). -/
  | rpdoReceived (src : PdoSrc) (data : Bytes)
  /-- RPDO_TIMEOUT (R53). -/
  | rpdoTimeout (n : Fin 32)
  /-- TPDO_CHANGE_TRANSMIT (R52). -/
  | tpdoChangeTransmit (n : Fin 32)
  /-- TPDO_EVENT_TIMER (R52). -/
  | tpdoEventTimer (n : Fin 32)
  /-- EMCY_SEND (R46). -/
  | emcySend
  /-- STORE_SAVE (R39). -/
  | storeSave (via : Via) (group : Fin 4)
  /-- RESTORE_LOAD (R39). -/
  | restoreLoad (via : Via) (group : Fin 4)
  /-- CONFIG_STORE_COMPLETE (R39). -/
  | configStoreComplete (ok : Bool)
  /-- SEQUENCER_WINDOW_CLOSE (R67). -/
  | sequencerWindowClose
  /-- CREDIT_BREACH (R63). -/
  | creditBreach (cell : Fin 128)
  /-- LEDGER_UNACCOUNTED_SECOND (R74). -/
  | ledgerUnaccountedSecond (account : Fin 133)
  /-- LEDGER_CHECKPOINT_INTERVAL (R75). -/
  | ledgerCheckpointInterval
  /-- CHECKPOINT_NOW (R75). -/
  | checkpointNow (via : Via)
  /-- LEDGER_CHECKPOINT_DONE (R75). -/
  | ledgerCheckpointDone
  /-- ACCOUNT_RESET (R77). -/
  | accountReset (via : Via) (selector : BitVec 16)
  /-- VAON_POWER_ON (R99). -/
  | vaonPowerOn
  /-- SUPPLY_LOST (R100). -/
  | supplyLost (rail : Fin 9) (cycle : AonCycle := {})
  /-- SUPPLY_RESTORED (R101). -/
  | supplyRestored (rail : Fin 9)
  /-- SEQUENCE_VIOLATION (R98). -/
  | sequenceViolation (rail follows : Fin 9)
  /-- LOCK_FILTER_CHECK_DONE (R93). -/
  | lockFilterCheckDone (tauTb tauCas : BitVec 32)
  /-- PORST_N_ASSERT (R106). -/
  | porstNAssert
  /-- PORST_N_RELEASE (R106). -/
  | porstNRelease
  /-- RESET_N_ASSERT (R106). -/
  | resetNAssert
  /-- RESET_N_RELEASE (R106). -/
  | resetNRelease
  /-- RESET_N_LIMIT_EXPIRY (R110). -/
  | resetNLimitExpiry (rises : Bool := false)
  /-- RESET_N_REARMED (R110). -/
  | resetNRearmed
  /-- WATCHDOG (R113). -/
  | watchdog (core : Fin 4)
  /-- DEVICE_RESET (R104). -/
  | deviceReset (via : Via)
  /-- DEBUG_RESET (R104). -/
  | debugReset
  /-- WARM_RESET_RELEASE (R104). -/
  | warmResetRelease
  /-- SEQUENCER_DOMAIN_REQUEST (R118). -/
  | sequencerDomainRequest
  /-- BOOT_DOMAIN_FAILED (R118). -/
  | bootDomainFailed
  /-- TBLOCK_DECLARE_TIMEOUT (R119). -/
  | tblockDeclareTimeout
  /-- BOOT_CONFIRM (R116). -/
  | bootConfirm (via : Via)
  /-- DOMAIN_STATE_WRITE (R130). -/
  | domainStateWrite (via : Via) (domain : Fin 8) (state : BitVec 8) (cycle : AonCycle := {})
  /-- GROUP_REQUEST (R132). -/
  | groupRequest (via : Via) (value : BitVec 16)
  /-- GROUP_STEP (R132). -/
  | groupStep (cycle : AonCycle := {})
  /-- IDLE_TIME_EXPIRY (R134). -/
  | idleTimeExpiry (domain : Fin 8) (cycle : AonCycle := {})
  /-- WAKE (R136). -/
  | wake (seen : WakeSeen) (cycle : AonCycle := {})
  /-- RTC_ALARM (R135). -/
  | rtcAlarm
  /-- DOMAIN_TRANSITION_COMPLETE (R140). -/
  | domainTransitionComplete (domain : Fin 8) (readings : List Int) (selfTest : BitVec 16) (sectionBad : Bool)
  /-- LIFECYCLE_LOCK (R147). -/
  | lifecycleLock (via : Via) (cellA cellB : Bool)
  /-- LIFECYCLE_SEAL (R147). -/
  | lifecycleSeal (via : Via) (cellA cellB : Bool)
  /-- KEY_WRITE (R149). -/
  | keyWrite (via : Via) (slot : Fin 3) (key : Bytes)
  /-- DEBUG_ATTACH (R153). -/
  | debugAttach
  /-- DBG_CHALLENGE_CAPTURE (R159). -/
  | dbgChallengeCapture
  /-- DBG_RESPONSE_UPDATE (R159). -/
  | dbgResponseUpdate (response : Bytes)
  /-- DEBUG_NONCE_EXPIRY (R159). -/
  | debugNonceExpiry
  /-- DEBUG_LOCKOUT_END (R159). -/
  | debugLockoutEnd
  /-- TAP_RESET (R152). -/
  | tapReset
  /-- SCAN_TAKEOVER_START (R157). -/
  | scanTakeoverStart (instruction : BitVec 8)
  /-- SCAN_TAKEOVER_END (R157). -/
  | scanTakeoverEnd (instruction : BitVec 8)
  /-- COMM_CHALLENGE (R160). -/
  | commChallenge (via : Via)
  /-- COMM_RESPONSE (R161). -/
  | commResponse (via : Via) (nonce mac : Bytes)
  /-- COMM_END (R162). -/
  | commEnd (via : Via)
  /-- COMM_STATUS (R161). -/
  | commStatus (via : Via)
  /-- COMM_TIMEOUT (R162). -/
  | commTimeout
  /-- COMM_NONCE_EXPIRY (R160). -/
  | commNonceExpiry (session : Fin 64)
  /-- COMM_LOCKOUT_END (R161). -/
  | commLockoutEnd
  /-- LOAD_BEGIN (R164). -/
  | loadBegin (via : Via)
  /-- LOAD_DATA (R164). -/
  | loadData (via : Via) (chunk : Bytes)
  /-- LOAD_COMMIT (R164). -/
  | loadCommit (via : Via)
  /-- SEC_VERSION_RAISE (R165). -/
  | secVersionRaise (via : Via)
  /-- TBLOCK_DECLARED (R173). -/
  | tblockDeclared (mv : BitVec 16) (runs : PhaseRuns := [])
  /-- TBLOCK_LOST (R174). -/
  | tblockLost (mv : BitVec 16) (runs : PhaseRuns)
  /-- CASLOCK_DECLARED (R173). -/
  | caslockDeclared (mv : BitVec 16) (runs : PhaseRuns := [])
  /-- CASLOCK_LOST (R174). -/
  | caslockLost (found : CasSupervision)
  /-- TIMEBASE_CHECK_WINDOW (R21). -/
  | timebaseCheckWindow (deviation : Int)
  /-- CONTROL_PERIOD_WRITE (R175). -/
  | controlPeriodWrite (via : Via) (value : BitVec 32)
  /-- PERIOD_START (R175). -/
  | periodStart
  /-- PROFILE_RUN_START (R182). -/
  | profileRunStart (via : Via) (profile : BitVec 8)
  /-- PROFILE_RUN_HOLD (R182). -/
  | profileRunHold (via : Via)
  /-- PTP_SYNC (R187). -/
  | ptpSync (p : PtpHead) (logInterval : Int) (twoStep : Bool) (origin : BitVec 80) (correction : Int)
  /-- PTP_FOLLOW_UP (R187). -/
  | ptpFollowUp (p : PtpHead) (origin : BitVec 80) (correction : Int)
  /-- PTP_DELAY_RESP (R187). -/
  | ptpDelayResp (p : PtpHead) (received sent : BitVec 80) (correction : Int)
  /-- PTP_DELAY_REQ_TIMER (R186). -/
  | ptpDelayReqTimer
  /-- PDELAY_REQ_RECEIVED (R186). -/
  | pdelayReqReceived (p : PtpHead)
  /-- PTP_ANNOUNCE (R190). -/
  | ptpAnnounce (p : PtpHead) (a : AnnounceBody)
  /-- PTP_MASTER_LOST (R190). -/
  | ptpMasterLost (announce : Bool)
  /-- TIME_STEP_NOW (R184). -/
  | timeStepNow (via : Via)
  /-- RATE_SLEW_STEP (R188). -/
  | rateSlewStep
  /-- MANUAL_RATE_WRITE (R187). -/
  | manualRateWrite (via : Via) (value : BitVec 32)
  /-- ETH_LINK_CHANGE (R190). -/
  | ethLinkChange (mac : Fin 2) (up : Bool)
  /-- ARP_RECEIVED (R191). -/
  | arpReceived (mac : Fin 2) (reply : Bool) (senderIp : BitVec 32) (senderMac : BitVec 48) (targetIp : BitVec 32)
  /-- ICMP_ECHO (R191). -/
  | icmpEcho (mac : Fin 2) (source target : BitVec 32) (body : Bytes)
  /-- FRAME_BUILD_CUTOFF (R207). -/
  | frameBuildCutoff
  /-- CYCLIC_FRAME_RETURN (R214). -/
  | cyclicFrameReturn (ring : Fin 8) (path : Fin 2) (frame : Bytes) (rttPs : Nat)
  /-- STANDBY_FRAME_RETURN (R215). -/
  | standbyFrameReturn (ring : Fin 8) (path : Fin 2) (frame : Bytes) (rttPs : Nat)
  /-- RETURN_DEADLINE (R214). -/
  | returnDeadline (ring : Fin 8) (path : Fin 2)
  /-- SWITCH_SUPPRESS_CLEAR (R218). -/
  | switchSuppressClear (ring : Fin 8)
  /-- DELAY_FRAME_LAUNCH (R210). -/
  | delayFrameLaunch (ring : Fin 8)
  /-- DELAY_FRAME_RETURN (R211). -/
  | delayFrameReturn (ring : Fin 8) (frameA frameB : Bytes) (rttA rttB : Nat)
  /-- LANE_SYNC_LOST (R195). -/
  | laneSyncLost (ring : Fin 8) (path : Fin 2)
  /-- LANE_SYNC_GAINED (R195). -/
  | laneSyncGained (ring : Fin 8) (path : Fin 2)
  /-- FAULT_ORDERED_SET (R196). -/
  | faultOrderedSet (ring : Fin 8) (path : Fin 2)
  /-- RING_START (R215). -/
  | ringStart (via : Via) (ring : Fin 8)
  /-- RING_STOP (R215). -/
  | ringStop (via : Via) (ring : Fin 8)
  /-- PATH_SWAP (R221). -/
  | pathSwap (via : Via) (ring : Fin 8)
  /-- DISCOVER_INTERVAL (R231). -/
  | discoverInterval
  /-- HELLO (R232). -/
  | hello (m : CellMsg)
  /-- CHALLENGE_RESP (R233). -/
  | challengeResp (m : CellMsg)
  /-- ADMIT_TIMEOUT (R234). -/
  | admitTimeout (cell : Fin 128)
  /-- ADMIT_BACKOFF_END (R234). -/
  | admitBackoffEnd (cell : Fin 128)
  /-- LOCK_REPORT (R237). -/
  | lockReport (m : CellMsg)
  /-- LOCK_TIMEOUT (R237). -/
  | lockTimeout (cell : Fin 128)
  /-- PARAM_ACK (R239). -/
  | paramAck (m : CellMsg)
  /-- COMMIT_ACK (R239). -/
  | commitAck (m : CellMsg)
  /-- CAL_DATA (R239). -/
  | calData (m : CellMsg)
  /-- ARM_ACK (R239). -/
  | armAck (m : CellMsg)
  /-- PARAM_TIMEOUT (R240). -/
  | paramTimeout (cell : Fin 128)
  /-- RESYNC_TIMEOUT (R244). -/
  | resyncTimeout (cell : Fin 128)
  /-- CELL_RSYN (R244). -/
  | cellRsyn (via : Via) (cell : Fin 128)
  /-- CELL_LEAV (R245). -/
  | cellLeav (via : Via) (cell : Fin 128)
  /-- LEAVE_REQ (R245). -/
  | leaveReq (m : CellMsg)
  /-- NAK_STATE_RECEIVED (R229). -/
  | nakStateReceived (m : CellMsg)
  /-- HOLD_PRESUMPTION (R243). -/
  | holdPresumption (ring : Fin 8)
  /-- EVENT_REPORT (R252). -/
  | eventReport (m : CellMsg)
  /-- CELL_CREDIT_RECEIVED (R255). -/
  | cellCreditReceived (m : CellMsg)
  /-- ERRANT_CLEAR (R267). -/
  | errantClear (via : Via) (cell : Fin 128)
  /-- REQ_TIMEOUT (R261). -/
  | reqTimeout (cell : Fin 128)
  /-- REQUEST_LAUNCH_TIMEOUT (R263). -/
  | requestLaunchTimeout (cell : Fin 128)
  /-- NAK_RETRY_DELAY (R262). -/
  | nakRetryDelay (cell : Fin 128)
  /-- GRANT_HOLD_EXPIRY (R255). -/
  | grantHoldExpiry (cell : Fin 128)
  /-- RECONCILE_LIMIT (R265). -/
  | reconcileLimit (ring : Fin 8)
  /-- STACK_STRT (R275). -/
  | stackStrt (via : Via)
  /-- STACK_CONN (R275). -/
  | stackConn (via : Via)
  /-- STACK_STOP (R281). -/
  | stackStop (via : Via)
  /-- STACK_PARK (R275). -/
  | stackPark (via : Via)
  /-- PRECHARGE_TIMEOUT (R277). -/
  | prechargeTimeout
  /-- SYNC_TIMEOUT (R279). -/
  | syncTimeout
  /-- CONNECT_TIMEOUT (R280). -/
  | connectTimeout
  /-- STOP_RAMP_END (R281). -/
  | stopRampEnd
  /-- STACK_UPDATE_COMPLETE (R298). -/
  | stackUpdateComplete
  /-- CLEAR_IMPLAUSIBLE (R306). -/
  | clearImplausible (via : Via) (cell : BitVec 8)
  /-- BYPASS_CELL (R324). -/
  | bypassCell (via : Via) (cell : BitVec 8)
  /-- REINSERT_CELL (R326). -/
  | reinsertCell (via : Via) (cell : BitVec 8)
  /-- REINSERT_TIMEOUT (R327). -/
  | reinsertTimeout (cell : Fin 128)
  /-- LINE_RIDE_THROUGH_EXPIRY (R328). -/
  | lineRideThroughExpiry
  /-- HEADROOM_TIME_EXPIRY (R325). -/
  | headroomTimeExpiry (group : Fin 4)
  /-- TRIP_COMMAND_TRIP (R330). -/
  | tripCommandTrip (via : Via)
  /-- TRIP_COMMAND_RLSE (R333). -/
  | tripCommandRlse (via : Via)
  /-- CE_TRIGGER (R349). -/
  | ceTrigger (n : Fin 16)
  /-- CE_COMPUTE_DONE (R341). -/
  | ceComputeDone (n : Fin 16)
  /-- CE_CUTOFF (R351). -/
  | ceCutoff (n : Fin 16)
  /-- CE_ENAB (R359). -/
  | ceEnab (via : Via) (n : Fin 16)
  /-- CE_DISA (R359). -/
  | ceDisa (via : Via) (n : Fin 16)
  /-- CE_RSET (R359). -/
  | ceRset (via : Via) (n : Fin 16)
  /-- CE_RSUM (R359). -/
  | ceRsum (via : Via) (n : Fin 16)
  /-- CE_COMMIT (R360). -/
  | ceCommit (via : Via) (n : Fin 16)
  /-- CE_DIMENSION_WRITE (R342). -/
  | ceDimensionWrite (via : Via) (n : Fin 16) (which : Fin 3) (value : BitVec 8)
  /-- ADC_TRIGGER (R368). -/
  | adcTrigger (n : Fin 8)
  /-- ADC_ENTRY_RESULT (R370). -/
  | adcEntryResult (n : Fin 8) (samples : List Int)
  /-- SW_TRIGGER (R368). -/
  | swTrigger (via : Via) (n : Fin 8)
  /-- ADC_ENABLE (R371). -/
  | adcEnable (via : Via) (n : Fin 8)
  /-- ADC_DISABLE (R371). -/
  | adcDisable (via : Via) (n : Fin 8)
  /-- CAL_START (R373). -/
  | calStart (via : Via) (mask : BitVec 8)
  /-- ADC_CAL_COMPLETE (R373). -/
  | adcCalComplete (factors : List CalFactors)
  /-- COMPARATOR_CROSSING (R376). -/
  | comparatorCrossing (n : Fin 32) (outside : Bool)
  /-- CMP_THRESHOLD_WRITE (R377). -/
  | cmpThresholdWrite (via : Via) (n : Fin 32) (value : BitVec 32)
  /-- CMP_SETTLE_END (R377). -/
  | cmpSettleEnd (n : Fin 32) (outside : Bool)
  /-- TEMPERATURE_CYCLE (R380). -/
  | temperatureCycle (readings : List Int)
  /-- THERMAL_RELEASE (R383). -/
  | thermalRelease (die : Fin 3)
  /-- TS_CLEAR (R380). -/
  | tsClear (via : Via) (sensor : BitVec 8)
  /-- CAPTURE_INSTANT (R386). -/
  | captureInstant (a : Fin 4)
  /-- ARMS (R390). -/
  | arms (via : Via) (a : Fin 4)
  /-- STREAM_ENABLE (R394). -/
  | streamEnable (via : Via) (s : Fin 32)
  /-- STREAM_DISABLE (R404). -/
  | streamDisable (via : Via) (s : Fin 32)
  /-- TAIL_WRITE (R399). -/
  | tailWrite (s : Fin 32) (value : BitVec 32)
  /-- DESCRIPTOR_FETCH_COMPLETE (R402). -/
  | descriptorFetchComplete (s : Fin 32) (descriptor : Bytes)
  /-- RECORD_TO_BUFFER (R400). -/
  | recordToBuffer (s : Fin 32)
  /-- FLUSH_TIMEOUT (R401). -/
  | flushTimeout (s : Fin 32)
  /-- IRQ_TIME_EXPIRY (R403). -/
  | irqTimeExpiry (s : Fin 32)
  /-- MSIX_UNMASK (R403). -/
  | msixUnmask (vector : Fin 36)
  /-- BAR_TIME_LO_READ (R397). -/
  | barTimeLoRead
  /-- PCIE_PERST_N_ASSERT (R396). -/
  | pciePerstNAssert
  /-- PCIE_LINK_DOWN (R396). -/
  | pcieLinkDown
  /-- PCIE_LINK_UP (R395). -/
  | pcieLinkUp (speed : Fin 4) (width : Fin 3)
  /-- PCIE_D3HOT (R396). -/
  | pcieD3hot
  /-- BUS_MASTER_CLEAR (R396). -/
  | busMasterClear
  /-- PAIR_ENAB (R418). -/
  | pairEnab (via : Via) (q : Fin 20)
  /-- PAIR_DISA (R418). -/
  | pairDisa (via : Via) (q : Fin 20)
  /-- PWM_COMMIT (R416). -/
  | pwmCommit (via : Via) (q : Fin 20)
  /-- PWM_CUTOFF (R416). -/
  | pwmCutoff (q : Fin 20)
  /-- PWM_PERIOD_START (R409). -/
  | pwmPeriodStart (q : Fin 20) (seen : Option (Bool × Bool) := none)
  /-- FAULT_PIN_EDGE (R420). -/
  | faultPinEdge (n : Fin 16)
  /-- ASC_DELAY_EXPIRY (R422). -/
  | ascDelayExpiry (g : Fin 10)
  /-- GROUP_RELEASE (R426). -/
  | groupRelease (via : Via) (g : Fin 10)
  /-- AUTO_RELEASE (R427). -/
  | autoRelease (g : Fin 10)
  /-- BRIDGE_FAULT (R438). -/
  | bridgeFault (k : Fin 6) (kinds : BitVec 4)
  /-- RETRY_WAIT_EXPIRY (R440). -/
  | retryWaitExpiry (k : Fin 6)
  /-- BRIDGE_CLRF (R441). -/
  | bridgeClrf (via : Via) (k : Fin 6)
  /-- BRIDGE_TEST (R444). -/
  | bridgeTest (via : Via) (k : Fin 6)
  /-- SELFTEST_DONE (R444). -/
  | selftestDone (k : Fin 6) (result : BitVec 8)
  /-- SUPPLY_HOLD_RELEASE (R443). -/
  | supplyHoldRelease
  /-- AXIS_ENAB (R447). -/
  | axisEnab (via : Via) (n : Fin 6)
  /-- AXIS_ECAT (R447). -/
  | axisEcat (via : Via) (n : Fin 6)
  /-- AXIS_DISA (R447). -/
  | axisDisa (via : Via) (n : Fin 6)
  /-- AXIS_DECL (R460). -/
  | axisDecl (via : Via) (n : Fin 6)
  /-- AXIS_CLRF (R459). -/
  | axisClrf (via : Via) (n : Fin 6)
  /-- AXIS_LOOP_SAMPLE (R450). -/
  | axisLoopSample (n : Fin 6)
  /-- START_RETRY_DELAY_EXPIRY (R456). -/
  | startRetryDelayExpiry (n : Fin 6)
  /-- START_TIMEOUT (R456). -/
  | startTimeout (n : Fin 6)
  /-- RECATCH_DELAY_EXPIRY (R459). -/
  | recatchDelayExpiry (n : Fin 6)
  /-- RECATCH_TIMEOUT (R459). -/
  | recatchTimeout (n : Fin 6)
  /-- DECEL_STOP_COMPLETE (R460). -/
  | decelStopComplete (n : Fin 6)
  /-- CHOP_ENAB (R462). -/
  | chopEnab (via : Via)
  /-- CHOP_DISA (R462). -/
  | chopDisa (via : Via)
  /-- CHOP_CLRF (R463). -/
  | chopClrf (via : Via)
  /-- LADDER_STALE (R468). -/
  | ladderStale
  /-- MECH_HOLD_EXPIRY (R466). -/
  | mechHoldExpiry
  /-- SAFETY_COPY_ARRIVAL (R481). -/
  | safetyCopyArrival (eth : Bool) (port : Fin 2) (cobId : BitVec 32) (mac : Bytes) (pdu : Bytes)
  /-- STATUS_PDU_SEND (R483). -/
  | statusPduSend (c : Fin 32)
  /-- COMPARE_WINDOW_EXPIRY (R481). -/
  | compareWindowExpiry (c : Fin 32)
  /-- CONN_TIMEOUT (R482). -/
  | connTimeout (c : Fin 32)
  /-- SPEED_WINDOW_END (R485). -/
  | speedWindowEnd (n : Fin 4) (samples : List (Int × Int))
  /-- SS1_TIME_LIMIT (R485). -/
  | ss1TimeLimit (n : Fin 4)
  /-- FEEDBACK_CHECK (R475). -/
  | feedbackCheck (fbA fbB : BitVec 4)
  /-- TEST_PULSE_START (R477). -/
  | testPulseStart (n : Fin 4) (b : Bool)
  /-- TEST_PULSE_END (R477). -/
  | testPulseEnd (n : Fin 4) (b : Bool)
  /-- PAIR_CLRF (R475). -/
  | pairClrf (via : Via) (n : Fin 4)
  /-- CCV_CONFIRMED_WRITE (R490). -/
  | ccvConfirmedWrite (via : Via) (value : BitVec 32)
  /-- CCV_UPDATE (R489). -/
  | ccvUpdate
  /-- HEARTBEAT_PRODUCER_TIMER (R45). -/
  | heartbeatProducerTimer
  /-- PCIE_PERST_N_RELEASE (R120). -/
  | pciePerstNRelease
  /-- PCIE_CONFIG_REQUEST (R120). -/
  | pcieConfigRequest (write : Bool) (register : BitVec 12) (value : BitVec 32)
  /-- STREAM_REGISTER_WRITE (R398). -/
  | streamRegisterWrite (s : Fin 32) (offset : BitVec 7) (value : BitVec 32)
  /-- BOUNDARY_SCAN_UPDATE_DR (R86). -/
  | boundaryScanUpdateDr (data : Bytes)
  /-- FAULT_PIN_INACTIVE (R427). -/
  | faultPinInactive (n : Fin 16)
deriving DecidableEq, Repr

end Sys2Proof
end

