-- ==== Sys2Proof/Config.lean ====
section
/-! DEFINITION. What an implementation fixes, and the free values: constants without a body, so that no proof can
see them. A function of a Nat is applied to the free-value counter of the state (log entry 1). -/
namespace Sys2Proof.Config

/-- SERIAL, the 64-bit unique serial number (0x2000:07). -/
opaque serial : BitVec 64

/-- Revisions of the logic, AMS and HV dies (0x2000:02 to :04), by die 0 to 2. -/
opaque dieRev : Nat → BitVec 16

/-- Bytes 4 to 7 of a GUARANTEE_YIELD whose causing event has no number yet (R59, R67). -/
opaque yieldCause : Nat → BitVec 32

/-- The rounding of the device's arithmetic in a sine (0), an angle (1) and a square root (2), by the argument: an open integer, of
which `rounded` takes a bounded part (log entry 205). -/
opaque rounding : Nat → Rat → Int

/-- The angle (turns) of a vector of length 0, which has none. -/
opaque noAngle : Rat

/-- Estimates of an axis engine that R453 to R456 give in words but not in computable form: angle of the injection
tracking loop (turns) and its electrical speed (turns per second), magnitude of the rotor flux estimate, angle and electrical
speed of the observer, and the inductance that an injection cycle measures. -/
opaque hfiAngle : Nat → Rat
opaque hfiSpeed : Nat → Rat
opaque obsFlux : Nat → Rat
opaque obsAngle : Nat → Rat
opaque obsSpeed : Nat → Rat
opaque polarityL : Nat → Rat

/-- The injected d-axis waveform at sample `k` of `HFI_DIV`, as a fraction of HFI_AMPL (R453). -/
opaque hfiWave : Nat → Nat → Rat

/-- The integral term of a PI controller after a sample: previous term, gain, error, loop period in s (R451 names the gains only). -/
opaque piIntegral : Rat → Rat → Rat → Rat → Rat

/-- Duty of a phase when the bus voltage reads 0, where 0.5 + v / V_bus has no value (R451). -/
opaque dutyNoBus : Nat → Rat

/-- Current reference where the divisor of R452 is 0. -/
opaque iqNoTorque : Nat → Rat

/-- The value of 1 / R_GRID where R_GRID is at its default 0 (R463, R465). -/
opaque noGrid : Nat → Rat

/-- 16 and 32 random bytes of the root of trust's HMAC_DRBG (R159, R160, R232). -/
opaque random16 : Nat → BitVec 128
opaque random32 : Nat → BitVec 256

/-- The period number k that f(k) of a command slot takes outside a run: R178 counts k from the start of a run. -/
opaque idlePeriod : Nat → Nat

/-- Ticks from a write of SW_TRIGGER to the hold, of which Table 16.3 says only that it falls within 2 µs. -/
opaque hostHold : Nat → Nat

/-- The voltage of a lock pin (0 TBLOCK, 1 CASLOCK) in mV, in a ms of AON time in which no command gives it (0x2402:01, :02). -/
opaque lockPinMv : Nat → Nat → BitVec 16

/-- Proportional gain (1/s) and integral gain (1/s²) of the grid PLL as functions of PLL_BANDWIDTH (Hz): R285 gives them through the
bandwidth and the damping 0.707 and no formula (log entry 206). -/
opaque pllKp : Rat → Rat
opaque pllKi : Rat → Rat

/-- Registers of the PCIe configuration space whose layout the spec does not give (R395). -/
opaque pcieConfig : Nat → BitVec 32

/-- Whether an ECDSA P-256 signature (r then s) over a SHA-256 digest verifies against the vendor verification key, whose value the
spec does not give (R114, R163). -/
opaque signatureValid : Bytes → Bytes → Bool

/-- The error register 0x1001, whose bits the spec does not give a meaning on this device. -/
opaque errorRegister : Nat → BitVec 8

/-- The revision number 0x1018:03. -/
opaque revision : BitVec 32

/-- FW_VERSION and FW_IMAGE_ACTIVE in boot hold, where no image runs. -/
opaque holdVersion : BitVec 32
opaque holdImage : BitVec 8

/-- Whether a wake condition of a quarter of WAKE_FILTER or more, but shorter than it, is accepted (R106, R135: it may or may not be). -/
opaque wakeFilter : Nat → Bool

/-- The BSDL description of the boundary register (0x2350:01). -/
opaque bsdlText : Bytes

/-- What the boundary register holds for an output (0 low, 1 high, else high-impedance), by the output's number in `scanPins`; and the
register that the scan cells capture, from the outputs' levels in the same code and a number that tells one capture's input levels
from another's. The order of the cells stands in the BSDL text alone (0x2350:01). -/
opaque scanCell : Bytes → Nat → BitVec 2
opaque scanRegister : List Nat → Nat → Bytes

/-- What a TPDO carries for a mapped object whose domain is not ON; `k` is the place of the entry. -/
opaque absentValue : Nat → Nat → Nat

/-- The code ffff of a PDO as the owning function of its transport object (0 to 31 RPDOs, 32 to 63 TPDOs), which no chapter gives. -/
opaque pdoFunction : Nat → BitVec 16

/-- The response in a mailbox slot that the host overwrote while OWNER read 1 (R50), and how long it is. -/
opaque mailboxLength : Nat → BitVec 11
opaque mailboxResponse : Nat → BitVec 8352

end Sys2Proof.Config
end

