-- ==== Sys2Proof/Machine/Bits.lean ====
section
/-! DEFINITION. Plain arithmetic helpers: byte order, bit fields, signed readings, saturating counters,
the checksums and the hash that the spec names. No machine state is touched here. -/
namespace Sys2Proof.Machine

/-- Value of a byte string, least significant byte first (every multi-byte object value, R3). -/
def leNat : Bytes → Nat
  | [] => 0
  | b :: bs => b.toNat + 256 * leNat bs

/-- `n` bytes of `v`, least significant byte first. -/
def toLE : Nat → Nat → Bytes
  | 0, _ => []
  | n + 1, v => BitVec.ofNat 8 v :: toLE n (v / 256)

/-- Value of a byte string, most significant byte first (fields in network order). -/
def beNat (bs : Bytes) : Nat := leNat bs.reverse

/-- `n` bytes of `v`, most significant byte first. -/
def toBE (n v : Nat) : Bytes := (toLE n v).reverse

/-- `len` bytes of `bs` from `off`. -/
def slice (bs : Bytes) (off len : Nat) : Bytes := (bs.drop off).take len

/-- The unsigned little-endian field of `len` bytes at `off`. -/
def leAt (bs : Bytes) (off len : Nat) : Nat := leNat (slice bs off len)

/-- `bs` cut or filled with zero bytes to exactly `n` bytes. -/
def padTo (n : Nat) (bs : Bytes) : Bytes := (bs ++ List.replicate n 0).take n

/-- Bits `[lo + w - 1 : lo]` of `v`. -/
def bitField (v lo w : Nat) : Nat := v / 2 ^ lo % 2 ^ w

/-- A condition as a bit in place `i`. -/
def bitIf (i : Nat) (c : Bool) : Nat := if c then 2 ^ i else 0

/-- The word whose bit `i` is `f i`, for the bits below `n`. -/
def bitsOf : Nat → (Nat → Bool) → Nat
  | 0, _ => 0
  | n + 1, f => bitsOf n f + bitIf n (f n)

/-- The numbers below `n` whose bit is set in `v`, ascending. -/
def setBits (n v : Nat) : List Nat := (List.range n).filter (fun i => v.testBit i)

/-- `v` with bit `i` set. -/
def setBit (v i : Nat) : Nat := v ||| 2 ^ i

/-- `v` with bit `i` cleared. -/
def clrBit (v i : Nat) : Nat := if v.testBit i then v - 2 ^ i else v

/-- Two's-complement reading of a `w`-bit value. -/
def toSigned (w v : Nat) : Int :=
  if v % 2 ^ w < 2 ^ (w - 1) then (v % 2 ^ w : Nat) else (v % 2 ^ w : Nat) - (2 ^ w : Nat)

/-- Two's-complement encoding of an integer in `w` bits. -/
def ofSigned (w : Nat) (i : Int) : Nat := (i % (2 ^ w : Nat)).toNat

/-- A counter of `w` bits that stops at its greatest value ("saturating"). -/
def satAdd (w a b : Nat) : Nat := if a + b < 2 ^ w then a + b else 2 ^ w - 1

/-- A 32-bit saturating count, one up. -/
def satInc (a : Nat) : Nat := satAdd 32 a 1

/-- A 32-bit wrapping count, one up. -/
def wrapInc (a : Nat) : Nat := (a + 1) % 2 ^ 32

/-- Integer clamp. -/
def clampI (lo hi x : Int) : Int := if x < lo then lo else if hi < x then hi else x

/-- Rational clamp. -/
def clampQ (lo hi x : Rat) : Rat := if x < lo then lo else if hi < x then hi else x

/-- Rounding of a rational to the nearest integer, halves away from zero. -/
def roundQ (x : Rat) : Int := if 0 ≤ x then ⌊x + 1/2⌋ else ⌈x - 1/2⌉

/-- Rounding to the nearest integer, halves to even. -/
def roundEvenQ (x : Rat) : Int :=
  let f := ⌊x⌋
  let d := x - f
  if d < 1/2 then f else if 1/2 < d then f + 1 else if f % 2 = 0 then f else f + 1

/-- Serial-number order modulo 2³²: `a` is earlier than `b` (R69). -/
def serialBefore (a b : Nat) : Bool := let d := (b + 2 ^ 32 - a) % 2 ^ 32; 1 ≤ d && d < 2 ^ 31

/-- Replaces the entry of a list at `i`, where there is one. -/
def setAt {α : Type} (l : List α) (i : Nat) (a : α) : List α := l.set i a

/-- Insertion before the first element that `before` puts after `a`: stable for equal keys. -/
def insertBy {α : Type} (before : α → α → Bool) (a : α) : List α → List α
  | [] => [a]
  | b :: bs => if before a b then a :: b :: bs else b :: insertBy before a bs

/-- Stable insertion sort. -/
def sortBy {α : Type} (before : α → α → Bool) (l : List α) : List α :=
  l.foldl (fun acc a => insertBy before a acc) []

/-! ### REAL32 -/

/-- Value of an IEEE 754 binary32 pattern that is neither NaN nor infinite. -/
def f32Val (v : Nat) : Rat :=
  let e := bitField v 23 8
  let m := bitField v 0 23
  let mag : Rat := if e = 0 then (m : Rat) / 2 ^ 149
    else if e < 150 then ((2 ^ 23 + m : Nat) : Rat) / 2 ^ (150 - e) else ((2 ^ 23 + m) * 2 ^ (e - 150) : Nat)
  if v.testBit 31 then -mag else mag

/-- A NaN or infinity pattern, refused in every REAL32 object (Table 2.2). -/
def f32Special (v : Nat) : Bool := bitField v 23 8 == 255

/-- Greatest `k` with `2 ^ k ≤ n`, for `n > 0`. -/
def log2Nat (n : Nat) : Nat := Nat.log2 n

/-- binary32 pattern of a rational, rounded to nearest, ties to even; the greatest finite value beyond the range. -/
def f32Of (x : Rat) : Nat :=
  if x = 0 then 0 else
    let a := if x < 0 then -x else x
    let sgn := if x < 0 then 2 ^ 31 else 0
    let e0 : Int := (log2Nat a.num.toNat : Int) - (log2Nat a.den : Int)
    let pow (k : Int) : Rat := if 0 ≤ k then (2 : Rat) ^ k.toNat else 1 / (2 : Rat) ^ (-k).toNat
    let e1 := if a < pow e0 then e0 - 1 else e0
    let e := if e1 < -126 then -126 else e1
    let m := (roundEvenQ (a * pow (23 - e))).toNat
    let body := if m < 2 ^ 23 then m else ((e + 126).toNat) * 2 ^ 23 + m
    sgn + (if body < 0x7F800000 then body else 0x7F7FFFFF)

/-! ### Sine, angle and square root (R287, R285) -/

/-- π to fifteen digits. -/
def piQ : Rat := 314159265358979 / 100000000000000

/-- A value with the rounding of the device's arithmetic: at most 2⁻²⁰ of `unit` (log entry 205). -/
def rounded (kind : Nat) (x unit value : Rat) : Rat :=
  value + unit * ((Config.rounding kind x % 257 - 128 : Int) : Rat) / 134217728

/-- Fraction of a turn, in [0, 1). -/
def fracQ (x : Rat) : Rat := x - ⌊x⌋

/-- Sine of an angle of at most a quarter turn, by its series to the 13th power. -/
def sinQuarter (x : Rat) : Rat :=
  let y := 2 * piQ * x
  y * (List.range 6).foldr (fun k acc => 1 - y * y / ((2 * k + 2) * (2 * k + 3) : Nat) * acc) 1

/-- Sine of an angle in turns before the rounding. -/
def sinSeries (x : Rat) : Rat :=
  let f := fracQ x
  if f ≤ 1 / 4 then sinQuarter f
  else if f ≤ 1 / 2 then sinQuarter (1 / 2 - f)
  else if f ≤ 3 / 4 then - sinQuarter (f - 1 / 2)
  else - sinQuarter (1 - f)

/-- Sine and cosine of an angle in turns. -/
def sinTurn (x : Rat) : Rat := rounded 0 x 1 (sinSeries x)
def cosTurn (x : Rat) : Rat := sinTurn (x + 1 / 4)

/-- Angle in turns of a slope of at most √2 − 1 by its series to the 23rd power. -/
def atanSeries (x : Rat) : Rat :=
  x * (List.range 12).foldr (fun k acc => 1 / ((2 * k + 1 : Nat) : Rat) - x * x * acc) 0 / (2 * piQ)

/-- Angle in turns of a slope in [0, 1]. -/
def atanUnit (x : Rat) : Rat := if x ≤ 2 / 5 then atanSeries x else 1 / 8 + atanSeries ((x - 1) / (x + 1))

/-- Angle in turns of the vector with sine part `y` and cosine part `x`, above −1/2 and at most 1/2. -/
def atan2Turn (y x : Rat) : Rat :=
  if y = 0 ∧ x = 0 then Config.noAngle
  else
    let ax := if x < 0 then -x else x
    let ay := if y < 0 then -y else y
    let first := if ay ≤ ax then atanUnit (ay / ax) else 1 / 4 - atanUnit (ax / ay)
    let upper := if x < 0 then 1 / 2 - first else first
    rounded 1 (y / (ax + ay)) 1 (if y < 0 then -upper else upper)

/-- Square root of a rational that is not negative. -/
def sqrtQ (x : Rat) : Rat :=
  let r : Rat := ((Nat.sqrt ⌊x * 2 ^ 64⌋.toNat : Nat) : Rat) / 2 ^ 32
  rounded 2 x r r

/-! ### Checksums -/

/-- One bit step of a reflected 32-bit CRC. -/
def crcBit (poly c : Nat) : Nat := if c % 2 = 1 then (c / 2) ^^^ poly else c / 2

/-- One byte of a reflected 32-bit CRC. -/
def crcByte (poly c : Nat) (b : Byte) : Nat :=
  (List.range 8).foldl (fun c _ => crcBit poly c) (c ^^^ b.toNat)

/-- A reflected 32-bit CRC with initial value and final exclusive-or of all ones. -/
def crcOf (poly : Nat) (bs : Bytes) : Nat := (bs.foldl (crcByte poly) 0xFFFFFFFF) ^^^ 0xFFFFFFFF

/-- CRC-32 of IEEE 802.3. -/
def crc32 (bs : Bytes) : Nat := crcOf 0xEDB88320 bs

/-- CRC-32C (Castagnoli). -/
def crc32c (bs : Bytes) : Nat := crcOf 0x82F63B78 bs

/-! ### SHA-256 and HMAC-SHA-256 -/

/-- The `e`-th root of `x` rounded down, for a root below 2³⁶, bit by bit from the top. -/
def natRoot (e x : Nat) : Nat :=
  (List.range 36).foldr (fun i r => if (r + 2 ^ i) ^ e ≤ x then r + 2 ^ i else r) 0

/-- The first 64 primes. -/
def shaPrimes : List Nat :=
  (List.range 312).filter (fun n => 2 ≤ n && (List.range 18).all (fun q => q < 2 || n ≤ q || n % q != 0))

/-- The first 32 bits of the fraction of the `e`-th root of `p`. -/
def rootFraction (e p : Nat) : BitVec 32 := BitVec.ofNat 32 (natRoot e (p * 2 ^ (32 * e)))

/-- Round constants of SHA-256 (FIPS 180-4): of the cube roots of the first 64 primes. -/
def shaK : List (BitVec 32) := shaPrimes.map (rootFraction 3)

/-- Initial hash value of SHA-256: of the square roots of the first 8 primes. -/
def shaInit : List (BitVec 32) := (shaPrimes.take 8).map (rootFraction 2)

/-- The sixteen big-endian words of a block, followed by the 48 expanded ones, newest first. -/
def shaSchedule (blk : Bytes) : List (BitVec 32) :=
  let first := (List.range 16).foldl (fun acc i => BitVec.ofNat 32 (beNat (slice blk (4 * i) 4)) :: acc) []
  (List.range 48).foldl (fun w _ =>
    let g (i : Nat) := w.getD (i - 1) 0
    let x15 := g 15
    let x2 := g 2
    let s0 := x15.rotateRight 7 ^^^ x15.rotateRight 18 ^^^ (x15 >>> 3)
    let s1 := x2.rotateRight 17 ^^^ x2.rotateRight 19 ^^^ (x2 >>> 10)
    (g 16 + s0 + g 7 + s1) :: w) first

/-- One round of the compression function. -/
def shaRound (h : List (BitVec 32)) (kw : BitVec 32 × BitVec 32) : List (BitVec 32) :=
  match h with
  | [a, b, c, d, e, f, g, hh] =>
    let s1 := e.rotateRight 6 ^^^ e.rotateRight 11 ^^^ e.rotateRight 25
    let ch := (e &&& f) ^^^ ((~~~e) &&& g)
    let t1 := hh + s1 + ch + kw.1 + kw.2
    let s0 := a.rotateRight 2 ^^^ a.rotateRight 13 ^^^ a.rotateRight 22
    let mj := (a &&& b) ^^^ (a &&& c) ^^^ (b &&& c)
    [t1 + (s0 + mj), a, b, c, d + t1, e, f, g]
  | other => other

/-- Compression of one 64-byte block. -/
def shaBlock (h : List (BitVec 32)) (blk : Bytes) : List (BitVec 32) :=
  List.zipWith (· + ·) h ((shaK.zip (shaSchedule blk).reverse).foldl shaRound h)

/-- The padded message of SHA-256. -/
def shaPad (m : Bytes) : Bytes :=
  m ++ (0x80 : Byte) :: List.replicate ((119 - m.length % 64) % 64) 0 ++ toBE 8 (8 * m.length)

/-- SHA-256 (FIPS 180-4). -/
def sha256 (m : Bytes) : Bytes :=
  let p := shaPad m
  let h := (List.range (p.length / 64)).foldl (fun h i => shaBlock h (slice p (64 * i) 64)) shaInit
  h.flatMap (fun w => toBE 4 w.toNat)

/-- HMAC-SHA-256 (RFC 2104) with a key of at most 64 bytes. -/
def hmac (key msg : Bytes) : Bytes :=
  let k := padTo 64 key
  let x (c : Byte) := k.map (· ^^^ c)
  sha256 (x 0x5C ++ sha256 (x 0x36 ++ msg))

/-- The bytes of an ASCII text. -/
def ascii (cs : List Char) : Bytes := cs.map (fun c => BitVec.ofNat 8 c.toNat)

end Sys2Proof.Machine
end

