-- ==== Sys2Proof/Machine/Objects.lean ====
section
/-! DEFINITION. The object tables of the spec as data: one row per object or run of like objects, with its type,
access code, default, persistence, mapping permission and value check. The rows of 0x1000-0x1A1F are laid out as
CiA 1301 does (R45, R51; log entry 3). -/
namespace Sys2Proof.Machine

/-- Data types of Table 2.2: the number is the size in bytes. -/
inductive OdType where
  | bool
  | u (n : Nat)
  | i (n : Nat)
  | f32
  | oct (n : Nat)
  | dom
deriving DecidableEq, Repr

/-- Access codes of Table 2.3. -/
inductive OdAccess where
  | ro | rw | wo | const | rwC | rwS
deriving DecidableEq, Repr

/-- Default of an object: a little-endian number, bytes, zero bytes, or one that depends on the object (R9). -/
inductive OdDefault where
  | num (v : Nat)
  | bytes (b : Bytes)
  | zeros (n : Nat)
  | special
deriving DecidableEq, Repr

/-- Value check of R35 step 5. `sig` is a signature (other values 0x0800_0020), `dyn` a check that reads other objects. -/
inductive OdCheck where
  | any
  | rng (lo hi : Int)
  | zrng (lo hi : Int)
  | codes (l : List Nat)
  | codesUpTo (n : Nat)
  | mask (m : Nat)
  | zeroOnly
  | sig (l : List Nat)
  | entry
  | frng (lo hi : Rat)
  | fzrng (lo hi : Rat)
  | fge0
  | fle0
  | len (lo hi step : Nat)
  | dyn
deriving DecidableEq, Repr

/-- One row of an object table: indices `lo, lo + stride, …` (`count` of them), subindices `s0` to `s1`. -/
structure OdRow where
  lo : Nat
  count : Nat
  stride : Nat
  s0 : Nat
  s1 : Nat
  ty : OdType
  acc : OdAccess
  dflt : OdDefault
  persistent : Bool
  mappable : Bool
  check : OdCheck
deriving DecidableEq, Repr

/-- Rows of spec/02_object_dictionary.md. -/
def odRows02a : List OdRow := [
  ⟨0x1000, 1, 1, 0x00, 0x00, .u 4, .const, .num 0, false, false, .any⟩ /- device type -/,
  ⟨0x1001, 1, 1, 0x00, 0x00, .u 1, .ro, .num 0, false, false, .any⟩ /- error register -/,
  ⟨0x1017, 1, 1, 0x00, 0x00, .u 2, .rw, .num 0, true, false, .any⟩ /- producer heartbeat time, ms -/,
  ⟨0x1018, 1, 1, 0x00, 0x00, .u 1, .const, .num 4, false, false, .any⟩ /- identity, highest subindex -/,
  ⟨0x1018, 1, 1, 0x01, 0x01, .u 4, .const, .num 0x000005A7, false, false, .any⟩ /- vendor-ID -/,
  ⟨0x1018, 1, 1, 0x02, 0x02, .u 4, .const, .num 0x00088128, false, false, .any⟩ /- product code -/,
  ⟨0x1018, 1, 1, 0x03, 0x04, .u 4, .const, .num 0, false, false, .any⟩ /- revision, serial number -/,
  ⟨0x1200, 8, 1, 0x01, 0x02, .u 4, .rw, .special, true, false, .any⟩ /- SDO server COB-IDs -/,
  ⟨0x1400, 32, 1, 0x01, 0x01, .u 4, .rw, .num 0x80000000, true, false, .any⟩ /- RPDO COB-ID -/,
  ⟨0x1400, 32, 1, 0x02, 0x02, .u 1, .rw, .num 0xFE, true, false, .dyn⟩ /- RPDO transmission type -/,
  ⟨0x1400, 32, 1, 0x05, 0x05, .u 2, .rw, .num 0, true, false, .any⟩ /- RPDO event timer, ms -/,
  ⟨0x1600, 32, 1, 0x00, 0x00, .u 1, .rw, .num 0, true, false, .rng 0 64⟩ /- RPDO mapping count -/,
  ⟨0x1600, 32, 1, 0x01, 0x40, .u 4, .rw, .num 0, true, false, .dyn⟩ /- RPDO mapping entry -/,
  ⟨0x1800, 32, 1, 0x01, 0x01, .u 4, .rw, .num 0x80000000, true, false, .any⟩ /- TPDO COB-ID -/,
  ⟨0x1800, 32, 1, 0x02, 0x02, .u 1, .rw, .num 0xFE, true, false, .dyn⟩ /- TPDO transmission type -/,
  ⟨0x1800, 32, 1, 0x03, 0x03, .u 2, .rw, .num 0, true, false, .any⟩ /- TPDO inhibit time, 100 us -/,
  ⟨0x1800, 32, 1, 0x05, 0x05, .u 2, .rw, .num 0, true, false, .any⟩ /- TPDO event timer, ms -/,
  ⟨0x1A00, 32, 1, 0x00, 0x00, .u 1, .rw, .num 0, true, false, .rng 0 64⟩ /- TPDO mapping count -/,
  ⟨0x1A00, 32, 1, 0x01, 0x40, .u 4, .rw, .num 0, true, false, .dyn⟩ /- TPDO mapping entry -/,
  ⟨0x1010, 1, 1, 0x00, 0x00, .u 1, .const, .num 4, false, false, .any⟩ /- STORE_PARAMETERS -/,
  ⟨0x1010, 1, 1, 0x01, 0x01, .u 4, .rw, .num 1, false, false, .sig [0x65766173]⟩ /- STORE_ALL -/,
  ⟨0x1010, 1, 1, 0x02, 0x02, .u 4, .rw, .num 1, false, false, .sig [0x65766173]⟩ /- STORE_COMM -/,
  ⟨0x1010, 1, 1, 0x03, 0x03, .u 4, .rw, .num 1, false, false, .sig [0x65766173]⟩ /- STORE_APPLICATION -/,
  ⟨0x1010, 1, 1, 0x04, 0x04, .u 4, .rwC, .num 1, false, false, .sig [0x65766173]⟩ /- STORE_SAFETY -/,
  ⟨0x1011, 1, 1, 0x00, 0x00, .u 1, .const, .num 4, false, false, .any⟩ /- RESTORE_DEFAULTS -/,
  ⟨0x1011, 1, 1, 0x01, 0x03, .u 4, .rw, .num 1, false, false, .sig [0x64616F6C]⟩ /- RESTORE_ALL, _COMM, _APPLICATION, _SAFETY -/,
  ⟨0x1011, 1, 1, 0x04, 0x04, .u 4, .rwC, .num 1, false, false, .sig [0x64616F6C]⟩ /- RESTORE_ALL, _COMM, _APPLICATION, _SAFETY -/,
  ⟨0x1FE0, 1, 1, 0x01, 0x20, .u 1, .rwS, .num 0, true, false, .codes [0,1,0x10,0x11,0x12]⟩ /- RPDO_TRANSPORT -/,
  ⟨0x1FE1, 1, 1, 0x01, 0x20, .u 1, .rwS, .num 0, true, false, .codes [0,1,0x10,0x11,0x12]⟩ /- TPDO_TRANSPORT -/,
  ⟨0x1FE2, 1, 1, 0x01, 0x01, .oct 6, .rw, .bytes [0x01,0x1B,0x19,0,0,0], true, false, .any⟩ /- ETH_PDO_DEST -/,
  ⟨0x1FE3, 1, 1, 0x01, 0x20, .u 2, .rw, .num 0, false, false, .zeroOnly⟩ /- RPDO_STATUS -/,
  ⟨0x1FE4, 1, 1, 0x01, 0x01, .u 8, .rw, .num 0, true, false, .mask 0xf0300010003003e⟩ /- EMCY_CLASS_MASK -/,
  ⟨0x1FE4, 1, 1, 0x02, 0x02, .u 1, .rw, .num 1, true, false, .mask 3⟩ /- EMCY_CONTROLLERS -/,
  ⟨0x2000, 1, 1, 0x00, 0x00, .u 1, .const, .num 8, false, false, .any⟩ /- IDENTITY -/,
  ⟨0x2000, 1, 1, 0x01, 0x01, .u 4, .const, .num 557352, false, false, .any⟩ /- PRODUCT_CODE -/,
  ⟨0x2000, 1, 1, 0x02, 0x02, .u 2, .const, .num 0, false, false, .any⟩ /- LOGIC_DIE_REV -/,
  ⟨0x2000, 1, 1, 0x03, 0x03, .u 2, .const, .num 0, false, false, .any⟩ /- AMS_DIE_REV -/,
  ⟨0x2000, 1, 1, 0x04, 0x04, .u 2, .const, .num 0, false, false, .any⟩ /- HV_DIE_REV -/,
  ⟨0x2000, 1, 1, 0x05, 0x05, .u 4, .ro, .num 0, false, false, .any⟩ /- FW_VERSION -/,
  ⟨0x2000, 1, 1, 0x06, 0x06, .u 1, .ro, .num 0, false, false, .any⟩ /- FW_IMAGE_ACTIVE -/]

/-- Rows of spec/02_object_dictionary.md. -/
def odRows02b : List OdRow := [
  ⟨0x2000, 1, 1, 0x07, 0x07, .u 8, .const, .num 0, false, false, .any⟩ /- SERIAL -/,
  ⟨0x2000, 1, 1, 0x08, 0x08, .u 1, .const, .num 1, false, false, .any⟩ /- OD_PROTOCOL -/,
  ⟨0x2001, 1, 1, 0x00, 0x00, .u 4, .ro, .num 0, false, false, .any⟩ /- DEVICE_STATUS -/,
  ⟨0x2002, 1, 1, 0x01, 0x01, .u 1, .rw, .num 32, true, false, .rng 1 127⟩ /- CAN_NODE_ID -/,
  ⟨0x2002, 1, 1, 0x02, 0x02, .u 2, .rw, .num 40100, true, false, .rng 1 65535⟩ /- UDP_PORT -/,
  ⟨0x2002, 1, 1, 0x03, 0x03, .u 1, .wo, .num 0, false, false, .codes [1,2,0x80,0x81,0x82]⟩ /- NMT_COMMAND -/,
  ⟨0x2002, 1, 1, 0x04, 0x04, .bool, .rw, .num 0, true, false, .any⟩ /- AUTO_OPERATIONAL -/,
  ⟨0x2003, 1, 1, 0x01, 0x40, .u 4, .ro, .num 0, false, false, .any⟩ /- SESSION_INFO -/,
  ⟨0x2010, 1, 1, 0x00, 0x00, .u 1, .const, .num 4, false, false, .any⟩ /- LAST_ABORT_DETAIL -/,
  ⟨0x2010, 1, 1, 0x01, 0x01, .u 4, .ro, .num 0, false, false, .any⟩ /- DETAIL -/,
  ⟨0x2010, 1, 1, 0x02, 0x02, .u 4, .ro, .num 0, false, false, .any⟩ /- ABORT_CODE -/,
  ⟨0x2010, 1, 1, 0x03, 0x03, .u 4, .ro, .num 0, false, false, .any⟩ /- OBJECT -/,
  ⟨0x2010, 1, 1, 0x04, 0x04, .u 8, .ro, .num 0, false, false, .any⟩ /- TIME -/]

/-- Rows of spec/03_guarantees.md. -/
def odRows03a : List OdRow := [
  ⟨0x2500, 1, 1, 0x00, 0x00, .u 1, .const, .num 6, false, false, .any⟩ /- GUARANTEE_STATUS -/,
  ⟨0x2500, 1, 1, 0x01, 0x01, .u 4, .rw, .num 0, false, false, .zeroOnly⟩ /- BREACH_SUMMARY -/,
  ⟨0x2500, 1, 1, 0x02, 0x02, .u 4, .ro, .num 0, false, false, .any⟩ /- YIELD_COUNT -/,
  ⟨0x2500, 1, 1, 0x03, 0x03, .u 4, .ro, .num 0, false, false, .any⟩ /- CREDIT_BREACH_COUNT -/,
  ⟨0x2500, 1, 1, 0x04, 0x04, .u 4, .ro, .num 0, false, false, .any⟩ /- DESCRIPTOR_BREACH_COUNT -/,
  ⟨0x2500, 1, 1, 0x05, 0x05, .u 4, .ro, .num 0, false, false, .any⟩ /- LEDGER_BREACH_COUNT -/,
  ⟨0x2500, 1, 1, 0x06, 0x06, .u 4, .ro, .num 4294967295, false, false, .any⟩ /- LAST_BREACH_SEQ -/,
  ⟨0x2501, 1, 1, 0x01, 0x01, .u 4, .ro, .num 0, false, false, .any⟩ /- NEXT_SEQ -/,
  ⟨0x2501, 1, 1, 0x02, 0x02, .u 4, .ro, .num 0, false, false, .any⟩ /- EPOCH -/,
  ⟨0x2501, 1, 1, 0x03, 0x03, .u 4, .ro, .num 0, false, false, .any⟩ /- OLDEST_SEQ -/,
  ⟨0x2501, 1, 1, 0x04, 0x04, .u 4, .ro, .num 0, false, false, .any⟩ /- LATE_COUNT -/,
  ⟨0x2501, 1, 1, 0x05, 0x05, .u 4, .ro, .num 0, false, false, .any⟩ /- AON_DISCARDED -/,
  ⟨0x2502, 1, 1, 0x01, 0x01, .u 4, .rw, .num 0, false, false, .any⟩ /- LOG_READ_FROM -/,
  ⟨0x2502, 1, 1, 0x02, 0x02, .dom, .ro, .zeros 0, false, false, .any⟩ /- LOG_RECORDS -/,
  ⟨0x2503, 1, 1, 0x01, 0x01, .u 8, .rw, .num 38, true, false, .mask 0xf0300010003003e⟩ /- PERSIST_CLASS_MASK -/,
  ⟨0x2503, 1, 1, 0x02, 0x02, .u 4, .rw, .num 0, false, false, .any⟩ /- PERSIST_READ_FROM -/,
  ⟨0x2503, 1, 1, 0x03, 0x03, .dom, .ro, .zeros 0, false, false, .any⟩ /- PERSIST_RECORDS -/,
  ⟨0x2503, 1, 1, 0x04, 0x04, .u 4, .rw, .num 0, false, false, .any⟩ /- PERSIST_EPOCH -/,
  ⟨0x2503, 1, 1, 0x05, 0x05, .u 8, .ro, .num 0, false, false, .any⟩ /- PERSIST_OLDEST -/,
  ⟨0x2540, 1, 1, 0x01, 0x01, .u 4, .rw, .num 60, true, false, .rng 1 3600⟩ /- CHECKPOINT_INTERVAL -/,
  ⟨0x2540, 1, 1, 0x02, 0x02, .u 1, .wo, .num 0, false, false, .codes [1]⟩ /- CHECKPOINT_NOW -/,
  ⟨0x2540, 1, 1, 0x03, 0x03, .u 8, .ro, .num 0, false, false, .any⟩ /- LAST_CHECKPOINT -/,
  ⟨0x2541, 1, 1, 0x01, 0x01, .u 2, .rw, .num 0, false, false, .dyn⟩ /- ACCOUNT_SELECT -/,
  ⟨0x2541, 1, 1, 0x02, 0x02, .dom, .ro, .zeros 0, false, false, .any⟩ /- ACCOUNT -/,
  ⟨0x2541, 1, 1, 0x03, 0x03, .u 2, .rwC, .num 0, false, false, .dyn⟩ /- ACCOUNT_RESET -/]

/-- Rows of spec/05_reset_boot_startup.md. -/
def odRows05a : List OdRow := [
  ⟨0x2200, 1, 1, 0x00, 0x00, .u 1, .const, .num 6, false, false, .any⟩ /- RESET_RECORD -/,
  ⟨0x2200, 1, 1, 0x01, 0x01, .u 2, .ro, .num 1, false, false, .any⟩ /- RESET_CAUSE -/,
  ⟨0x2200, 1, 1, 0x02, 0x02, .u 2, .ro, .num 0, false, false, .any⟩ /- PREV_CAUSE -/,
  ⟨0x2200, 1, 1, 0x03, 0x03, .u 4, .ro, .num 1, false, false, .any⟩ /- RESET_COUNT -/,
  ⟨0x2200, 1, 1, 0x04, 0x04, .u 8, .ro, .num 0, false, false, .any⟩ /- RESET_TIME -/,
  ⟨0x2200, 1, 1, 0x05, 0x05, .u 2, .rw, .num 0, false, false, .zeroOnly⟩ /- RESET_FLAGS -/,
  ⟨0x2200, 1, 1, 0x06, 0x06, .u 2, .ro, .num 0, false, false, .any⟩ /- COINCIDENT_CAUSES -/,
  ⟨0x2201, 1, 1, 0x01, 0x01, .u 1, .rw, .num 255, true, false, .dyn⟩ /- BOOT_DOMAINS -/,
  ⟨0x2201, 1, 1, 0x02, 0x02, .bool, .rw, .num 1, true, false, .any⟩ /- BOOT_ADC_CAL -/,
  ⟨0x2201, 1, 1, 0x03, 0x03, .u 1, .rw, .num 0, true, false, .codes [0,1]⟩ /- RESET_N_MODE -/,
  ⟨0x2201, 1, 1, 0x04, 0x04, .u 2, .rw, .num 8000, true, false, .rng 1000 30000⟩ /- RESET_N_LIMIT -/,
  ⟨0x2201, 1, 1, 0x05, 0x05, .u 2, .rw, .num 100, true, false, .rng 10 1000⟩ /- RESET_N_REARM -/,
  ⟨0x2202, 1, 1, 0x01, 0x01, .u 4, .wo, .num 0, false, false, .sig [0x74657372]⟩ /- DEVICE_RESET -/,
  ⟨0x2210, 1, 1, 0x01, 0x01, .u 1, .ro, .num 0, false, false, .any⟩ /- PREFERRED_IMAGE -/,
  ⟨0x2210, 1, 1, 0x02, 0x02, .u 1, .ro, .num 0, false, false, .any⟩ /- TRIAL -/,
  ⟨0x2210, 1, 1, 0x03, 0x03, .u 4, .wo, .num 0, false, false, .sig [0x6E6F6366]⟩ /- BOOT_CONFIRM -/,
  ⟨0x2210, 1, 1, 0x04, 0x04, .u 1, .ro, .num 5, false, false, .any⟩ /- IMAGE_A_STATUS -/,
  ⟨0x2210, 1, 1, 0x05, 0x05, .u 1, .ro, .num 5, false, false, .any⟩ /- IMAGE_B_STATUS -/,
  ⟨0x2210, 1, 1, 0x06, 0x06, .u 4, .ro, .num 0, false, false, .any⟩ /- IMAGE_A_VERSION -/,
  ⟨0x2210, 1, 1, 0x07, 0x07, .u 4, .ro, .num 0, false, false, .any⟩ /- IMAGE_B_VERSION -/,
  ⟨0x2210, 1, 1, 0x08, 0x08, .u 4, .ro, .num 4294967295, false, false, .any⟩ /- BOOT_TIME -/,
  ⟨0x2220, 1, 1, 0x01, 0x01, .u 2, .ro, .num 0, false, false, .any⟩ /- STARTUP_STATUS -/]

/-- Rows of spec/06_power_domains.md. -/
def odRows06a : List OdRow := [
  ⟨0x2100, 1, 1, 0x00, 0x00, .u 1, .const, .num 8, false, false, .any⟩ /- DOMAIN_STATE -/,
  ⟨0x2100, 1, 1, 0x01, 0x01, .u 1, .ro, .num 2, false, false, .any⟩ /- STATE_AON -/,
  ⟨0x2100, 1, 1, 0x02, 0x08, .u 1, .rw, .num 0, false, false, .codes [0,1,2]⟩ /- STATE_SEC to STATE_SAFE -/,
  ⟨0x2101, 1, 1, 0x01, 0x01, .u 2, .wo, .num 0, false, false, .dyn⟩ /- GROUP_REQUEST -/,
  ⟨0x2101, 1, 1, 0x02, 0x02, .u 4, .ro, .num 0, false, false, .any⟩ /- GROUP_STATUS -/,
  ⟨0x2103, 1, 1, 0x01, 0x01, .u 2, .rw, .num 0, true, false, .dyn⟩ /- WAKE_ENABLE -/,
  ⟨0x2103, 1, 1, 0x02, 0x02, .u 2, .ro, .num 0, false, false, .any⟩ /- WAKE_PENDING -/,
  ⟨0x2104, 1, 1, 0x01, 0x0A, .u 1, .rw, .num 255, true, false, .dyn⟩ /- WAKE_ROUTE -/,
  ⟨0x2104, 1, 1, 0x0B, 0x0B, .u 1, .const, .num 2, false, false, .any⟩ /- WAKE_ROUTE -/,
  ⟨0x2105, 1, 1, 0x01, 0x04, .u 1, .rw, .num 0, true, false, .mask 3⟩ /- WAKE_PIN_CONFIG -/,
  ⟨0x2105, 1, 1, 0x05, 0x05, .u 2, .rw, .num 1000, true, false, .rng 10 10000⟩ /- WAKE_FILTER -/,
  ⟨0x2105, 1, 1, 0x06, 0x06, .u 2, .rw, .num 1500, true, false, .dyn⟩ /- TRL_THRESHOLD -/,
  ⟨0x2106, 1, 1, 0x01, 0x01, .bool, .rw, .num 0, true, false, .any⟩ /- RTC_ENABLE -/,
  ⟨0x2106, 1, 1, 0x02, 0x02, .u 8, .ro, .num 0, false, false, .any⟩ /- RTC_COUNT -/,
  ⟨0x2106, 1, 1, 0x03, 0x03, .u 8, .rw, .num 0, false, false, .any⟩ /- RTC_ALARM -/,
  ⟨0x2107, 1, 1, 0x01, 0x01, .u 2, .ro, .num 0, false, false, .any⟩ /- LAST_WAKE_SOURCES -/,
  ⟨0x2107, 1, 1, 0x02, 0x02, .u 8, .ro, .num 0, false, false, .any⟩ /- LAST_WAKE_TIME -/,
  ⟨0x2107, 1, 1, 0x03, 0x03, .u 1, .ro, .num 0, false, false, .any⟩ /- LAST_WAKE_FLAGS -/,
  ⟨0x2107, 1, 1, 0x04, 0x04, .u 4, .ro, .num 0, false, false, .any⟩ /- WAKE_COUNT -/,
  ⟨0x2111, 7, 1, 0x01, 0x01, .u 1, .rw, .num 0, true, false, .dyn⟩ /- IDLE_POLICY -/,
  ⟨0x2111, 7, 1, 0x02, 0x02, .u 4, .rw, .num 60000, true, false, .rng 10 3600000⟩ /- IDLE_TIME -/]

/-- Rows of spec/07_security_debug.md. -/
def odRows07a : List OdRow := [
  ⟨0x2300, 1, 1, 0x00, 0x00, .u 1, .const, .num 6, false, false, .any⟩ /- SECURITY_STATE -/,
  ⟨0x2300, 1, 1, 0x01, 0x01, .u 1, .ro, .num 0, false, false, .any⟩ /- LIFECYCLE -/,
  ⟨0x2300, 1, 1, 0x02, 0x02, .u 4, .wo, .num 0, false, false, .sig [0x6B636F6C,0x6C616573]⟩ /- LIFECYCLE_ADVANCE -/,
  ⟨0x2300, 1, 1, 0x03, 0x03, .u 1, .ro, .num 0, false, false, .any⟩ /- DEBUG_STATE -/,
  ⟨0x2300, 1, 1, 0x04, 0x04, .bool, .ro, .num 0, false, false, .any⟩ /- KEYS_HIDDEN -/,
  ⟨0x2300, 1, 1, 0x05, 0x05, .u 1, .ro, .num 0, false, false, .any⟩ /- DEBUG_FAIL_COUNT -/,
  ⟨0x2300, 1, 1, 0x06, 0x06, .u 2, .ro, .num 0, false, false, .any⟩ /- FUSE_STATUS -/,
  ⟨0x2320, 1, 1, 0x00, 0x00, .u 1, .const, .num 6, false, false, .any⟩ /- COMMISSIONING -/,
  ⟨0x2320, 1, 1, 0x01, 0x01, .oct 24, .ro, .num 0, false, false, .any⟩ /- COMM_CHALLENGE -/,
  ⟨0x2320, 1, 1, 0x02, 0x02, .oct 48, .wo, .num 0, false, false, .any⟩ /- COMM_RESPONSE -/,
  ⟨0x2320, 1, 1, 0x03, 0x03, .oct 32, .ro, .num 0, false, false, .any⟩ /- COMM_PROOF -/,
  ⟨0x2320, 1, 1, 0x04, 0x04, .u 1, .wo, .num 0, false, false, .codes [1]⟩ /- COMM_END -/,
  ⟨0x2320, 1, 1, 0x05, 0x05, .u 2, .ro, .num 0, false, false, .any⟩ /- COMM_STATUS -/,
  ⟨0x2320, 1, 1, 0x06, 0x06, .u 2, .rwC, .num 300, true, false, .rng 10 3600⟩ /- COMM_TIMEOUT -/,
  ⟨0x2330, 1, 1, 0x01, 0x01, .u 1, .ro, .num 0, false, false, .any⟩ /- KEY_STATUS -/,
  ⟨0x2330, 1, 1, 0x02, 0x04, .oct 32, .wo, .num 0, false, false, .any⟩ /- CK_WRITE, IK_WRITE, DK_WRITE -/,
  ⟨0x2330, 1, 1, 0x05, 0x07, .u 4, .ro, .num 0, false, false, .any⟩ /- CK_KCV, IK_KCV, DK_KCV -/,
  ⟨0x2340, 1, 1, 0x01, 0x01, .u 4, .wo, .num 0, false, false, .sig [0x6E65706F]⟩ /- LOAD_BEGIN -/,
  ⟨0x2340, 1, 1, 0x02, 0x02, .dom, .wo, .zeros 0, false, false, .len 1 65536 1⟩ /- LOAD_DATA -/,
  ⟨0x2340, 1, 1, 0x03, 0x03, .u 4, .ro, .num 0, false, false, .any⟩ /- LOAD_OFFSET -/,
  ⟨0x2340, 1, 1, 0x04, 0x04, .u 4, .wo, .num 0, false, false, .sig [0x74696D63]⟩ /- LOAD_COMMIT -/,
  ⟨0x2340, 1, 1, 0x05, 0x05, .u 2, .ro, .num 65280, false, false, .any⟩ /- LOAD_STATUS -/,
  ⟨0x2340, 1, 1, 0x06, 0x06, .u 1, .rwC, .num 0, true, false, .codes [0,1]⟩ /- LOAD_POLICY -/,
  ⟨0x2340, 1, 1, 0x07, 0x07, .u 4, .wo, .num 0, false, false, .sig [0x73696172]⟩ /- SEC_VERSION_RAISE -/,
  ⟨0x2350, 1, 1, 0x01, 0x01, .dom, .ro, .zeros 0, false, false, .any⟩ /- BSDL_TEXT -/]

/-- Rows of spec/08_time_and_synthesisers.md. -/
def odRows08a : List OdRow := [
  ⟨0x2400, 1, 1, 0x00, 0x00, .u 1, .const, .num 6, false, false, .any⟩ /- TIME_STATE -/,
  ⟨0x2400, 1, 1, 0x01, 0x01, .u 8, .ro, .num 0, false, false, .any⟩ /- DEVICE_TIME -/,
  ⟨0x2400, 1, 1, 0x02, 0x02, .u 2, .ro, .num 0, false, false, .any⟩ /- TIME_STATUS -/,
  ⟨0x2400, 1, 1, 0x03, 0x03, .i 2, .ro, .num 0, false, false, .any⟩ /- UTC_OFFSET -/,
  ⟨0x2400, 1, 1, 0x04, 0x04, .u 1, .rw, .num 0, true, false, .codes [0,1]⟩ /- STEP_POLICY -/,
  ⟨0x2400, 1, 1, 0x05, 0x05, .u 4, .wo, .num 0, false, false, .sig [0x70657473]⟩ /- TIME_STEP_NOW -/,
  ⟨0x2400, 1, 1, 0x06, 0x06, .u 8, .ro, .num 0, false, false, .any⟩ /- PENDING_STEP -/,
  ⟨0x2401, 1, 1, 0x01, 0x01, .i 4, .ro, .num 0, false, false, .any⟩ /- RATE_APPLIED -/,
  ⟨0x2401, 1, 1, 0x02, 0x02, .i 4, .ro, .num 0, false, false, .any⟩ /- HOLDOVER_RATE -/,
  ⟨0x2401, 1, 1, 0x03, 0x03, .i 4, .rw, .num 0, true, false, .rng (-250000000) 250000000⟩ /- MANUAL_RATE -/,
  ⟨0x2402, 1, 1, 0x01, 0x01, .u 2, .ro, .num 0, false, false, .any⟩ /- TBLOCK_MV -/,
  ⟨0x2402, 1, 1, 0x02, 0x02, .u 2, .ro, .num 0, false, false, .any⟩ /- CASLOCK_MV -/,
  ⟨0x2402, 1, 1, 0x03, 0x03, .u 4, .ro, .num 0, false, false, .any⟩ /- TBLOCK_TAU -/,
  ⟨0x2402, 1, 1, 0x04, 0x04, .u 4, .ro, .num 0, false, false, .any⟩ /- CASLOCK_TAU -/,
  ⟨0x2402, 1, 1, 0x05, 0x05, .u 4, .ro, .num 0, false, false, .any⟩ /- TB_LOSS_COUNT -/,
  ⟨0x2402, 1, 1, 0x06, 0x06, .u 4, .ro, .num 0, false, false, .any⟩ /- CAS_LOSS_COUNT -/,
  ⟨0x2410, 1, 1, 0x01, 0x01, .u 4, .rwS, .num 20000000, true, false, .rng 5000000 50000000⟩ /- CAS_START_FREQ -/,
  ⟨0x2410, 1, 1, 0x02, 0x02, .u 4, .ro, .num 0, false, false, .any⟩ /- CAS_RAMP_FREQ -/,
  ⟨0x2410, 1, 1, 0x03, 0x03, .u 4, .ro, .num 0, false, false, .any⟩ /- CAS_FREQ -/,
  ⟨0x2410, 1, 1, 0x04, 0x04, .u 4, .ro, .num 0, false, false, .any⟩ /- CARRIER_PHASE -/,
  ⟨0x2411, 1, 1, 0x01, 0x01, .u 1, .rwS, .num 0, true, false, .codes [0,1,2]⟩ /- SPREAD_MODE -/,
  ⟨0x2411, 1, 1, 0x02, 0x02, .u 2, .rwS, .num 0, true, false, .rng 0 200⟩ /- SPREAD_DEPTH -/,
  ⟨0x2411, 1, 1, 0x03, 0x03, .u 2, .rwS, .num 16, true, false, .dyn⟩ /- SPREAD_PERIOD -/,
  ⟨0x2412, 1, 1, 0x01, 0x01, .u 1, .rw, .num 255, false, false, .codes [0,1,2,3,0xFF]⟩ /- PROFILE_RUN -/,
  ⟨0x2412, 1, 1, 0x02, 0x02, .u 2, .ro, .num 65280, false, false, .any⟩ /- PROFILE_STATUS -/,
  ⟨0x2413, 1, 1, 0x01, 0x01, .u 4, .rwS, .num 20000, true, false, .rng 10000 160000⟩ /- CONTROL_PERIOD -/,
  ⟨0x2413, 1, 1, 0x02, 0x02, .u 4, .ro, .num 0, false, false, .any⟩ /- PERIOD_COUNT -/,
  ⟨0x2413, 1, 1, 0x03, 0x03, .u 8, .ro, .num 0, false, false, .any⟩ /- PERIOD_ORIGIN -/,
  ⟨0x2420, 4, 1, 0x01, 0x01, .u 1, .ro, .num 0, false, false, .any⟩ /- SEGMENT_COUNT -/,
  ⟨0x2420, 4, 1, 0x02, 0x02, .dom, .rw, .zeros 0, true, false, .dyn⟩ /- SEGMENTS -/,
  ⟨0x2420, 4, 1, 0x03, 0x03, .u 1, .rw, .num 0, true, false, .codes [0,1]⟩ /- END_ACTION -/,
  ⟨0x2440, 1, 1, 0x01, 0x01, .u 1, .rw, .num 0, true, false, .codes [0,1,2]⟩ /- PTP_MODE -/,
  ⟨0x2440, 1, 1, 0x02, 0x02, .u 1, .rwS, .num 0, true, false, .codes [0,1]⟩ /- PTP_MAC -/,
  ⟨0x2440, 1, 1, 0x03, 0x03, .u 1, .rwS, .num 0, true, false, .codes [0,1]⟩ /- PTP_TRANSPORT -/,
  ⟨0x2440, 1, 1, 0x04, 0x04, .u 1, .rwS, .num 0, true, false, .rng 0 127⟩ /- PTP_DOMAIN -/,
  ⟨0x2440, 1, 1, 0x05, 0x05, .i 1, .rwS, .num 0, true, false, .rng (-3) 4⟩ /- LOG_DELAY_INTERVAL -/,
  ⟨0x2440, 1, 1, 0x06, 0x06, .u 1, .rwS, .num 3, true, false, .rng 2 10⟩ /- ANNOUNCE_TIMEOUT -/,
  ⟨0x2440, 1, 1, 0x07, 0x07, .u 1, .rwS, .num 3, true, false, .rng 2 10⟩ /- SYNC_TIMEOUT -/,
  ⟨0x2441, 1, 1, 0x01, 0x01, .f32, .rw, .num 0x3F333333, true, false, .frng (0) (2)⟩ /- SERVO_KP -/,
  ⟨0x2441, 1, 1, 0x02, 0x02, .f32, .rw, .num 0x3E99999A, true, false, .frng (0) (1)⟩ /- SERVO_KI -/]

/-- Rows of spec/08_time_and_synthesisers.md. -/
def odRows08b : List OdRow := [
  ⟨0x2441, 1, 1, 0x03, 0x03, .u 4, .rw, .num 250000000, true, false, .rng 1000000 250000000⟩ /- RATE_LIMIT -/,
  ⟨0x2441, 1, 1, 0x04, 0x04, .u 4, .rw, .num 100, true, false, .dyn⟩ /- LOCK_THRESHOLD -/,
  ⟨0x2441, 1, 1, 0x05, 0x05, .u 1, .rw, .num 8, true, false, .rng 1 255⟩ /- LOCK_COUNT -/,
  ⟨0x2441, 1, 1, 0x06, 0x06, .u 4, .rw, .num 1000, true, false, .dyn⟩ /- UNLOCK_THRESHOLD -/,
  ⟨0x2441, 1, 1, 0x07, 0x07, .u 4, .rw, .num 1000000, true, false, .rng 10000 1000000000⟩ /- STEP_THRESHOLD -/,
  ⟨0x2442, 1, 1, 0x01, 0x01, .u 1, .ro, .num 3, false, false, .any⟩ /- PORT_STATE -/,
  ⟨0x2442, 1, 1, 0x02, 0x02, .oct 8, .ro, .num 0, false, false, .any⟩ /- GM_IDENTITY -/,
  ⟨0x2442, 1, 1, 0x03, 0x03, .oct 10, .ro, .num 0, false, false, .any⟩ /- PARENT_PORT -/,
  ⟨0x2442, 1, 1, 0x04, 0x04, .i 8, .ro, .num 0, false, false, .any⟩ /- OFFSET -/,
  ⟨0x2442, 1, 1, 0x05, 0x05, .i 8, .ro, .num 0, false, false, .any⟩ /- PATH_DELAY -/,
  ⟨0x2442, 1, 1, 0x06, 0x06, .u 4, .ro, .num 0, false, false, .any⟩ /- SYNC_COUNT -/,
  ⟨0x2443, 1, 1, 0x01, 0x04, .i 4, .rw, .num 0, true, false, .rng 0 1000000⟩ /- ETH0_TX, ETH0_RX, ETH1_TX, ETH1_RX PHY_DELAY -/,
  ⟨0x2450, 2, 1, 0x01, 0x01, .oct 6, .rw, .special, true, false, .dyn⟩ /- MAC_ADDRESS -/,
  ⟨0x2450, 2, 1, 0x02, 0x02, .oct 4, .rw, .special, true, false, .any⟩ /- IPV4_ADDRESS -/,
  ⟨0x2450, 2, 1, 0x03, 0x03, .u 1, .rw, .num 24, true, false, .rng 8 30⟩ /- PREFIX_LENGTH -/,
  ⟨0x2450, 2, 1, 0x04, 0x04, .oct 4, .rw, .num 0, true, false, .any⟩ /- GATEWAY -/,
  ⟨0x2450, 2, 1, 0x05, 0x05, .u 2, .rw, .num 0, true, false, .dyn⟩ /- VLAN -/,
  ⟨0x2450, 2, 1, 0x06, 0x06, .u 1, .ro, .num 0, false, false, .any⟩ /- LINK_STATUS -/]

/-- Rows of spec/09_lcl_physical_and_rings.md. -/
def odRows09a : List OdRow := [
  ⟨0x3180, 8, 1, 0x00, 0x00, .u 1, .const, .num 8, false, false, .any⟩ /- RING -/,
  ⟨0x3180, 8, 1, 0x01, 0x01, .u 1, .rwS, .num 0, true, false, .codes [0,1,2,3]⟩ /- RING_PATHS -/,
  ⟨0x3180, 8, 1, 0x02, 0x02, .u 1, .rwS, .num 0, true, false, .dyn⟩ /- RING_CELLS -/,
  ⟨0x3180, 8, 1, 0x03, 0x03, .u 1, .rwS, .num 0, true, false, .codes [0,1]⟩ /- PREFERRED_PATH -/,
  ⟨0x3180, 8, 1, 0x04, 0x04, .u 4, .wo, .num 0, false, false, .sig [0x74727473,0x706F7473]⟩ /- RING_CONTROL -/,
  ⟨0x3180, 8, 1, 0x05, 0x05, .u 1, .ro, .num 255, false, false, .any⟩ /- ACTIVE_PATH -/,
  ⟨0x3180, 8, 1, 0x06, 0x06, .u 4, .wo, .num 0, false, false, .sig [0x70617773]⟩ /- PATH_SWAP -/,
  ⟨0x3180, 8, 1, 0x07, 0x07, .u 2, .ro, .num 0, false, false, .any⟩ /- RING_STATUS -/,
  ⟨0x3180, 8, 1, 0x08, 0x08, .u 4, .ro, .num 0, false, false, .any⟩ /- SWITCH_COUNT -/,
  ⟨0x3190, 16, 1, 0x00, 0x00, .u 1, .const, .num 10, false, false, .any⟩ /- PATH -/,
  ⟨0x3190, 16, 1, 0x01, 0x01, .u 1, .ro, .num 0, false, false, .any⟩ /- PATH_STATE -/,
  ⟨0x3190, 16, 1, 0x02, 0x02, .u 4, .ro, .num 0, false, false, .any⟩ /- RTT_REF -/,
  ⟨0x3190, 16, 1, 0x03, 0x03, .u 4, .ro, .num 0, false, false, .any⟩ /- RTT_LAST -/,
  ⟨0x3190, 16, 1, 0x04, 0x04, .u 4, .ro, .num 0, false, false, .any⟩ /- FRAMES_OK -/,
  ⟨0x3190, 16, 1, 0x05, 0x05, .u 4, .ro, .num 0, false, false, .any⟩ /- CRC_ERRORS -/,
  ⟨0x3190, 16, 1, 0x06, 0x06, .u 4, .ro, .num 0, false, false, .any⟩ /- STOMPED -/,
  ⟨0x3190, 16, 1, 0x07, 0x07, .u 4, .ro, .num 0, false, false, .any⟩ /- MISSED -/,
  ⟨0x3190, 16, 1, 0x08, 0x08, .u 4, .ro, .num 0, false, false, .any⟩ /- HEADER_ERRORS -/,
  ⟨0x3190, 16, 1, 0x09, 0x09, .u 4, .ro, .num 0, false, false, .any⟩ /- SYNC_LOSSES -/,
  ⟨0x3190, 16, 1, 0x0A, 0x0A, .dom, .ro, .zeros 0, false, false, .any⟩ /- CELL_DELAY -/,
  ⟨0x31A0, 8, 1, 0x01, 0x01, .dom, .rwS, .zeros 34, true, false, .len 34 34 1⟩ /- SPAN_TABLE -/,
  ⟨0x31F0, 1, 1, 0x00, 0x00, .u 1, .const, .num 7, false, false, .any⟩ /- RING_TIMING -/,
  ⟨0x31F0, 1, 1, 0x01, 0x01, .u 1, .rwS, .num 0, true, false, .codes [0,1]⟩ /- APPLY_MODE -/,
  ⟨0x31F0, 1, 1, 0x02, 0x02, .u 4, .rwS, .num 9600, true, false, .rng 800 159600⟩ /- APPLY_OFFSET_MANUAL -/,
  ⟨0x31F0, 1, 1, 0x03, 0x03, .u 4, .ro, .num 0, false, false, .any⟩ /- APPLY_OFFSET -/,
  ⟨0x31F0, 1, 1, 0x04, 0x04, .u 2, .rw, .num 4000, true, false, .rng 100 65535⟩ /- DELAY_INTERVAL -/,
  ⟨0x31F0, 1, 1, 0x05, 0x05, .u 2, .rw, .num 64, true, false, .rng 8 4096⟩ /- STANDBY_OK_COUNT -/,
  ⟨0x31F0, 1, 1, 0x06, 0x06, .u 1, .rw, .num 1, true, false, .rng 1 3⟩ /- MISS_LIMIT -/,
  ⟨0x31F0, 1, 1, 0x07, 0x07, .u 1, .rw, .num 4, true, false, .rng 1 16⟩ /- SWITCH_BUDGET -/]

/-- Rows of spec/10_lcl_sessions.md. -/
def odRows10a : List OdRow := [
  ⟨0x3100, 128, 1, 0x00, 0x00, .u 1, .const, .num 15, false, false, .any⟩ /- CELL -/,
  ⟨0x3100, 128, 1, 0x01, 0x01, .u 1, .ro, .num 0, false, false, .any⟩ /- SESSION_STATE -/,
  ⟨0x3100, 128, 1, 0x02, 0x02, .u 2, .ro, .num 0, false, false, .any⟩ /- CELL_VDC -/,
  ⟨0x3100, 128, 1, 0x03, 0x03, .oct 16, .ro, .num 0, false, false, .any⟩ /- CELL_ID -/,
  ⟨0x3100, 128, 1, 0x04, 0x04, .oct 16, .rwC, .num 0, true, false, .any⟩ /- EXPECTED_ID -/,
  ⟨0x3100, 128, 1, 0x05, 0x05, .u 4, .wo, .num 0, false, false, .sig [0x6E797372,0x7661656C]⟩ /- CELL_CONTROL -/,
  ⟨0x3100, 128, 1, 0x06, 0x06, .u 1, .rwS, .num 0, true, false, .rng 0 3⟩ /- PARAM_SET -/,
  ⟨0x3100, 128, 1, 0x07, 0x07, .dom, .ro, .zeros 0, false, false, .any⟩ /- CAL_DATA -/,
  ⟨0x3100, 128, 1, 0x08, 0x08, .oct 8, .ro, .num 0, false, false, .any⟩ /- CELL_INFO -/,
  ⟨0x3100, 128, 1, 0x09, 0x09, .u 2, .ro, .num 0, false, false, .any⟩ /- LAST_REASON -/,
  ⟨0x3100, 128, 1, 0x0A, 0x0A, .u 4, .ro, .num 0, false, false, .any⟩ /- NAK_SENT -/,
  ⟨0x3100, 128, 1, 0x0B, 0x0B, .u 4, .ro, .num 0, false, false, .any⟩ /- NAK_RECEIVED -/,
  ⟨0x3100, 128, 1, 0x0C, 0x0C, .u 4, .ro, .num 0, false, false, .any⟩ /- ADMIT_FAILS -/,
  ⟨0x3100, 128, 1, 0x0D, 0x0D, .u 4, .ro, .num 0, false, false, .any⟩ /- HOLD_COUNT -/,
  ⟨0x3100, 128, 1, 0x0E, 0x0E, .u 2, .ro, .num 0, false, false, .any⟩ /- LOCK_MAX_ERR -/,
  ⟨0x3100, 128, 1, 0x0F, 0x0F, .u 8, .ro, .num 0, false, false, .any⟩ /- STATE_TIME -/,
  ⟨0x3400, 1, 1, 0x01, 0x01, .u 2, .rw, .num 16, true, false, .rng 1 1024⟩ /- DISCOVER_INTERVAL -/,
  ⟨0x3400, 1, 1, 0x02, 0x02, .u 2, .rw, .num 64, true, false, .rng 8 4096⟩ /- ADMIT_TIMEOUT -/,
  ⟨0x3400, 1, 1, 0x03, 0x03, .u 1, .rw, .num 3, true, false, .rng 1 16⟩ /- ADMIT_RETRIES -/,
  ⟨0x3400, 1, 1, 0x04, 0x04, .u 2, .rw, .num 1000, true, false, .rng 10 60000⟩ /- ADMIT_BACKOFF -/,
  ⟨0x3400, 1, 1, 0x05, 0x05, .u 2, .rw, .num 64, true, false, .rng 16 1024⟩ /- LOCK_WINDOW -/,
  ⟨0x3400, 1, 1, 0x06, 0x06, .u 2, .rw, .num 1000, true, false, .dyn⟩ /- LOCK_LIMIT -/,
  ⟨0x3400, 1, 1, 0x07, 0x07, .u 2, .rw, .num 1500, true, false, .dyn⟩ /- UNLOCK_LIMIT -/,
  ⟨0x3400, 1, 1, 0x08, 0x08, .u 2, .rw, .num 8000, true, false, .rng 256 65535⟩ /- LOCK_TIMEOUT -/,
  ⟨0x3400, 1, 1, 0x09, 0x09, .u 2, .rw, .num 400, true, false, .rng 10 10000⟩ /- PARAM_TIMEOUT -/,
  ⟨0x3400, 1, 1, 0x0A, 0x0A, .u 1, .rw, .num 2, true, false, .rng 0 8⟩ /- PARAM_RETRIES -/,
  ⟨0x3400, 1, 1, 0x0B, 0x0B, .u 2, .rw, .num 8000, true, false, .rng 256 65535⟩ /- RESYNC_TIMEOUT -/,
  ⟨0x3400, 1, 1, 0x0C, 0x0C, .u 1, .rw, .num 3, true, false, .rng 2 16⟩ /- DISAGREE_LIMIT -/,
  ⟨0x3410, 4, 1, 0x01, 0x01, .dom, .rwS, .zeros 0, true, false, .len 0 2048 1⟩ /- PARAM_BLOCK -/,
  ⟨0x3410, 4, 1, 0x02, 0x02, .u 4, .ro, .num 0, false, false, .any⟩ /- PARAM_CRC -/]

/-- Rows of spec/11_lcl_transactions.md. -/
def odRows11a : List OdRow := [
  ⟨0x3401, 1, 1, 0x00, 0x00, .u 1, .const, .num 9, false, false, .any⟩ /- TRANSACTION -/,
  ⟨0x3401, 1, 1, 0x01, 0x01, .u 1, .rw, .num 8, true, false, .rng 2 64⟩ /- REQ_TIMEOUT -/,
  ⟨0x3401, 1, 1, 0x02, 0x02, .u 1, .rw, .num 3, true, false, .rng 0 7⟩ /- REQ_RETRIES -/,
  ⟨0x3401, 1, 1, 0x03, 0x03, .u 1, .rw, .num 16, true, false, .rng 2 32⟩ /- DEV_POOL -/,
  ⟨0x3401, 1, 1, 0x04, 0x04, .u 1, .rw, .num 8, true, false, .rng 4 64⟩ /- RECONCILE_LIMIT -/,
  ⟨0x3401, 1, 1, 0x05, 0x05, .u 2, .rw, .num 16, true, false, .rng 1 1000⟩ /- ERRANT_LIMIT -/,
  ⟨0x3401, 1, 1, 0x06, 0x06, .u 2, .rw, .num 1000, true, false, .rng 100 65535⟩ /- ERRANT_WINDOW -/,
  ⟨0x3401, 1, 1, 0x07, 0x07, .u 1, .rw, .num 2, true, false, .rng 1 8⟩ /- NAK_RETRY_DELAY -/,
  ⟨0x3401, 1, 1, 0x08, 0x08, .u 1, .rw, .num 4, true, false, .rng 1 16⟩ /- GRANT_HOLD -/,
  ⟨0x3401, 1, 1, 0x09, 0x09, .u 1, .ro, .num 0, false, false, .any⟩ /- REQ_IN_FLIGHT -/,
  ⟨0x3480, 128, 1, 0x00, 0x00, .u 1, .const, .num 20, false, false, .any⟩ /- TRANSACTIONS -/,
  ⟨0x3480, 128, 1, 0x01, 0x01, .u 2, .rw, .num 0, false, false, .zeroOnly⟩ /- TXN_STATUS -/,
  ⟨0x3480, 128, 1, 0x02, 0x02, .u 2, .ro, .num 0, false, false, .any⟩ /- EPOCH_NO -/,
  ⟨0x3480, 128, 1, 0x03, 0x03, .u 4, .ro, .num 0, false, false, .any⟩ /- RX_TERMS -/,
  ⟨0x3480, 128, 1, 0x04, 0x04, .u 4, .ro, .num 0, false, false, .any⟩ /- TX_VIEW -/,
  ⟨0x3480, 128, 1, 0x05, 0x05, .u 4, .ro, .num 0, false, false, .any⟩ /- RETRIES -/,
  ⟨0x3480, 128, 1, 0x06, 0x06, .u 4, .ro, .num 0, false, false, .any⟩ /- REQ_FAILED -/,
  ⟨0x3480, 128, 1, 0x07, 0x07, .u 4, .ro, .num 0, false, false, .any⟩ /- COPIES -/,
  ⟨0x3480, 128, 1, 0x08, 0x08, .u 4, .ro, .num 0, false, false, .any⟩ /- CLOSED_EPOCH -/,
  ⟨0x3480, 128, 1, 0x09, 0x09, .u 4, .ro, .num 0, false, false, .any⟩ /- PARTNER_ERRORS -/,
  ⟨0x3480, 128, 1, 0x0A, 0x14, .u 4, .ro, .num 0, false, false, .any⟩ /- ERROR_COUNT -/]

/-- Rows of spec/12_stack_topology_modulation.md. -/
def odRows12a : List OdRow := [
  ⟨0x3000, 1, 1, 0x00, 0x00, .u 1, .const, .num 4, false, false, .any⟩ /- ARRANGEMENT -/,
  ⟨0x3000, 1, 1, 0x01, 0x01, .u 1, .rwS, .num 0, true, false, .dyn⟩ /- ARRANGEMENT_CODE -/,
  ⟨0x3000, 1, 1, 0x02, 0x02, .u 1, .rwS, .num 0, true, false, .rng 0 4⟩ /- STACK_COUNT -/,
  ⟨0x3000, 1, 1, 0x03, 0x03, .u 4, .rwS, .num 0, true, false, .rng 100 40000⟩ /- MV_NOMINAL -/,
  ⟨0x3000, 1, 1, 0x04, 0x04, .u 2, .ro, .num 511, false, false, .any⟩ /- ARR_STATUS -/,
  ⟨0x3001, 4, 1, 0x00, 0x00, .u 1, .const, .num 7, false, false, .any⟩ /- STACK -/,
  ⟨0x3001, 4, 1, 0x01, 0x01, .u 1, .rwS, .num 0, true, false, .rng 0 127⟩ /- FIRST_CELL -/,
  ⟨0x3001, 4, 1, 0x02, 0x02, .u 1, .rwS, .num 0, true, false, .rng 0 64⟩ /- CELL_COUNT -/,
  ⟨0x3001, 4, 1, 0x03, 0x03, .u 1, .rwS, .num 1, true, false, .rng 1 64⟩ /- MIN_ACTIVE -/,
  ⟨0x3001, 4, 1, 0x04, 0x04, .u 2, .rwS, .num 0, true, false, .zrng 1000 65000⟩ /- VDC_NOMINAL -/,
  ⟨0x3001, 4, 1, 0x05, 0x05, .u 2, .rwS, .num 0, true, false, .any⟩ /- PRECHARGE_MIN -/,
  ⟨0x3001, 4, 1, 0x06, 0x06, .u 4, .rwS, .num 0, true, false, .any⟩ /- CARRIER_OFFSET -/,
  ⟨0x3001, 4, 1, 0x07, 0x07, .u 1, .ro, .num 0, false, false, .any⟩ /- ACTIVE_CELLS -/,
  ⟨0x3010, 1, 1, 0x00, 0x00, .u 1, .const, .num 11, false, false, .any⟩ /- STACK_CONTROL -/,
  ⟨0x3010, 1, 1, 0x01, 0x01, .u 4, .wo, .num 0, false, false, .sig [0x74727473,0x6E6E6F63,0x706F7473,0x6B726170]⟩ /- STACK_COMMAND -/,
  ⟨0x3010, 1, 1, 0x02, 0x02, .u 1, .ro, .num 0, false, false, .any⟩ /- STACK_STATE -/,
  ⟨0x3010, 1, 1, 0x03, 0x03, .u 2, .ro, .num 0, false, false, .any⟩ /- STACK_FLAGS -/,
  ⟨0x3010, 1, 1, 0x04, 0x04, .u 1, .rwS, .num 0, true, false, .codes [0,1]⟩ /- PRECHARGE_MODE -/,
  ⟨0x3010, 1, 1, 0x05, 0x05, .u 2, .rw, .num 2000, true, false, .rng 100 20000⟩ /- PRECHARGE_RATE -/,
  ⟨0x3010, 1, 1, 0x06, 0x06, .u 2, .rw, .num 2000, true, false, .rng 100 60000⟩ /- PRECHARGE_TIMEOUT -/,
  ⟨0x3010, 1, 1, 0x07, 0x07, .u 2, .rw, .num 20, true, false, .rng 1 10000⟩ /- SYNC_RAMP -/,
  ⟨0x3010, 1, 1, 0x08, 0x08, .u 2, .rw, .num 5000, true, false, .rng 100 60000⟩ /- CONNECT_TIMEOUT -/,
  ⟨0x3010, 1, 1, 0x09, 0x09, .u 2, .rw, .num 100, true, false, .rng 0 10000⟩ /- STOP_RAMP -/,
  ⟨0x3010, 1, 1, 0x0A, 0x0A, .u 4, .ro, .num 0, false, false, .any⟩ /- DEADLINE_MISS_COUNT -/,
  ⟨0x3010, 1, 1, 0x0B, 0x0B, .u 2, .rw, .num 200, true, false, .rng 1 4000⟩ /- PRE_GAIN -/,
  ⟨0x3020, 1, 1, 0x01, 0x01, .u 1, .rwS, .num 255, true, false, .entry⟩ /- LINE_V_ENTRY_1 -/,
  ⟨0x3020, 1, 1, 0x02, 0x02, .u 1, .rwS, .num 255, true, false, .entry⟩ /- LINE_V_ENTRY_2 -/,
  ⟨0x3020, 1, 1, 0x03, 0x03, .f32, .rwS, .num 0x00000000, true, false, .any⟩ /- LINE_V_SCALE -/,
  ⟨0x3020, 1, 1, 0x04, 0x04, .u 1, .rwS, .num 255, true, false, .entry⟩ /- BUS_V_ENTRY -/,
  ⟨0x3020, 1, 1, 0x05, 0x05, .f32, .rwS, .num 0x00000000, true, false, .any⟩ /- BUS_V_SCALE -/,
  ⟨0x3020, 1, 1, 0x06, 0x06, .f32, .ro, .num 0x00000000, false, false, .any⟩ /- LINE_VOLTAGE -/,
  ⟨0x3020, 1, 1, 0x07, 0x07, .f32, .ro, .num 0x00000000, false, false, .any⟩ /- BUS_VOLTAGE -/,
  ⟨0x3021, 1, 1, 0x01, 0x01, .f32, .rw, .num 0x41A00000, true, false, .frng (1) (200)⟩ /- PLL_BANDWIDTH -/,
  ⟨0x3021, 1, 1, 0x02, 0x02, .u 4, .rw, .num 45000, true, false, .dyn⟩ /- PLL_FREQ_MIN -/,
  ⟨0x3021, 1, 1, 0x03, 0x03, .u 4, .rw, .num 65000, true, false, .dyn⟩ /- PLL_FREQ_MAX -/,
  ⟨0x3021, 1, 1, 0x04, 0x04, .u 2, .rw, .num 400, true, false, .rng 10 65535⟩ /- PLL_LOCK_COUNT -/,
  ⟨0x3021, 1, 1, 0x05, 0x05, .u 4, .ro, .num 0, false, false, .any⟩ /- GRID_FREQ -/,
  ⟨0x3021, 1, 1, 0x06, 0x06, .u 4, .ro, .num 0, false, false, .any⟩ /- GRID_ANGLE -/,
  ⟨0x3021, 1, 1, 0x07, 0x07, .i 2, .ro, .num 0, false, false, .any⟩ /- PHASE_ERROR -/,
  ⟨0x3030, 1, 1, 0x01, 0x01, .u 2, .rwS, .num 32604, true, false, .rng 16384 32767⟩ /- MOD_LIMIT -/]

/-- Rows of spec/12_stack_topology_modulation.md. -/
def odRows12b : List OdRow := [
  ⟨0x3030, 1, 1, 0x02, 0x02, .u 1, .rwS, .num 1, true, false, .dyn⟩ /- ZERO_SEQ -/,
  ⟨0x3030, 1, 1, 0x03, 0x03, .u 4, .rw, .num 4194304, true, false, .rng 65536 2147483648⟩ /- INTERLEAVE_SLEW -/,
  ⟨0x3030, 1, 1, 0x04, 0x04, .u 2, .rw, .num 100, true, false, .rng 10 1000⟩ /- MATCH_TOLERANCE -/,
  ⟨0x3030, 1, 1, 0x05, 0x05, .u 2, .rw, .num 40, true, false, .rng 1 4096⟩ /- MATCH_COUNT -/,
  ⟨0x3030, 1, 1, 0x06, 0x06, .f32, .rwS, .num 0x3F800000, true, false, .frng (1/10) 50⟩ /- DAB_RATIO -/,
  ⟨0x3030, 1, 1, 0x07, 0x07, .f32, .rwS, .num 0x00000000, true, false, .fzrng (1/10000000) (8589935/8589934592)⟩ /- DAB_L -/,
  ⟨0x3030, 1, 1, 0x08, 0x08, .u 2, .rwS, .num 12288, true, false, .rng 1024 16384⟩ /- DAB_SHIFT_MAX -/,
  ⟨0x3030, 1, 1, 0x09, 0x09, .dom, .ro, .zeros 0, false, false, .any⟩ /- COMMANDS -/,
  ⟨0x3030, 1, 1, 0x0A, 0x0A, .dom, .ro, .zeros 0, false, false, .any⟩ /- OFFSETS -/]

/-- Rows of spec/13_stack_balancing_power_flow.md. -/
def odRows13a : List OdRow := [
  ⟨0x3200, 1, 1, 0x00, 0x00, .u 1, .const, .num 14, false, false, .any⟩ /- REGULATION -/,
  ⟨0x3200, 1, 1, 0x01, 0x01, .u 1, .rwS, .num 0, true, false, .codes [0,1]⟩ /- BUS_MODE -/,
  ⟨0x3200, 1, 1, 0x02, 0x02, .u 1, .rwS, .num 255, true, false, .dyn⟩ /- BUS_INSTANCE -/,
  ⟨0x3200, 1, 1, 0x03, 0x03, .f32, .rw, .num 0x00000000, true, true, .fzrng 10 1500⟩ /- BUS_V_REF -/,
  ⟨0x3200, 1, 1, 0x04, 0x04, .f32, .rw, .num 0x00000000, false, true, .any⟩ /- POWER_REF -/,
  ⟨0x3200, 1, 1, 0x05, 0x05, .f32, .rwS, .num 0x49742400, true, false, .frng (1000) (10000000)⟩ /- P_BASE -/,
  ⟨0x3200, 1, 1, 0x06, 0x06, .f32, .rwS, .num 0x447A0000, true, false, .frng (10) (1500)⟩ /- BUS_V_BASE -/,
  ⟨0x3200, 1, 1, 0x07, 0x07, .u 1, .rwS, .num 255, true, false, .entry⟩ /- BUS_I_ENTRY -/,
  ⟨0x3200, 1, 1, 0x08, 0x08, .f32, .rwS, .num 0x00000000, true, false, .any⟩ /- BUS_I_SCALE -/,
  ⟨0x3200, 1, 1, 0x09, 0x09, .f32, .rw, .num 0x00000000, true, false, .dyn⟩ /- P_IMPORT_LIMIT -/,
  ⟨0x3200, 1, 1, 0x0A, 0x0A, .f32, .rw, .num 0x00000000, true, false, .dyn⟩ /- P_EXPORT_LIMIT -/,
  ⟨0x3200, 1, 1, 0x0B, 0x0B, .f32, .ro, .num 0x00000000, false, true, .any⟩ /- P_BUS -/,
  ⟨0x3200, 1, 1, 0x0C, 0x0C, .f32, .ro, .num 0x00000000, false, false, .any⟩ /- P_AXES -/,
  ⟨0x3200, 1, 1, 0x0D, 0x0D, .f32, .rw, .num 0x42480000, true, false, .frng (0) (10000)⟩ /- ENERGY_KP -/,
  ⟨0x3200, 1, 1, 0x0E, 0x0E, .f32, .rw, .num 0x43FA0000, true, false, .frng (0) (1000000)⟩ /- ENERGY_KI -/,
  ⟨0x3201, 4, 1, 0x00, 0x00, .u 1, .const, .num 8, false, false, .any⟩ /- GROUP -/,
  ⟨0x3201, 4, 1, 0x01, 0x01, .u 1, .rwS, .num 255, true, false, .dyn⟩ /- GROUP_INSTANCE -/,
  ⟨0x3201, 4, 1, 0x02, 0x02, .u 1, .rwS, .num 255, true, false, .entry⟩ /- STACK_I_ENTRY -/,
  ⟨0x3201, 4, 1, 0x03, 0x03, .f32, .rwS, .num 0x00000000, true, false, .any⟩ /- STACK_I_SCALE -/,
  ⟨0x3201, 4, 1, 0x04, 0x04, .f32, .rwS, .num 0x00000000, true, false, .fzrng 1 10000⟩ /- I_BASE -/,
  ⟨0x3201, 4, 1, 0x05, 0x05, .f32, .rw, .num 0x3F800000, true, false, .frng (1/10) 10⟩ /- STACK_WEIGHT -/,
  ⟨0x3201, 4, 1, 0x06, 0x06, .f32, .rw, .num 0x00000000, true, true, .any⟩ /- Q_REF -/,
  ⟨0x3201, 4, 1, 0x07, 0x07, .f32, .ro, .num 0x00000000, false, false, .any⟩ /- P_MV -/,
  ⟨0x3201, 4, 1, 0x08, 0x08, .u 2, .ro, .num 0, false, false, .any⟩ /- V_TARGET -/,
  ⟨0x3208, 1, 1, 0x00, 0x00, .u 1, .const, .num 7, false, false, .any⟩ /- BALANCING -/,
  ⟨0x3208, 1, 1, 0x01, 0x01, .u 1, .rw, .num 1, true, false, .codes [0,1,2]⟩ /- BAL_MODE -/,
  ⟨0x3208, 1, 1, 0x02, 0x02, .u 4, .rw, .num 5000, true, false, .rng 500 1000000⟩ /- T_BAL -/,
  ⟨0x3208, 1, 1, 0x03, 0x03, .f32, .rw, .num 0x43FA0000, true, false, .frng (0) (100000)⟩ /- BAL_P_MAX -/,
  ⟨0x3208, 1, 1, 0x04, 0x04, .f32, .rw, .num 0x00000000, true, false, .frng (0) (10)⟩ /- BAL_MV_GAIN -/,
  ⟨0x3208, 1, 1, 0x05, 0x05, .u 2, .rw, .num 500, true, false, .rng 0 2000⟩ /- BAL_LIMIT -/,
  ⟨0x3208, 1, 1, 0x06, 0x06, .u 1, .ro, .num 0, false, false, .any⟩ /- BAL_STATUS -/,
  ⟨0x3208, 1, 1, 0x07, 0x07, .dom, .ro, .zeros 0, false, false, .any⟩ /- VDC_SPREAD -/,
  ⟨0x3209, 1, 1, 0x00, 0x00, .u 1, .const, .num 6, false, false, .any⟩ /- CHECK -/,
  ⟨0x3209, 1, 1, 0x01, 0x01, .u 2, .rw, .num 100, true, false, .rng 10 10000⟩ /- CHECK_ABS -/,
  ⟨0x3209, 1, 1, 0x02, 0x02, .u 2, .rw, .num 100, true, false, .rng 0 1000⟩ /- CHECK_REL -/,
  ⟨0x3209, 1, 1, 0x03, 0x03, .u 2, .rw, .num 0, true, false, .rng 0 10000⟩ /- I_LOSS -/,
  ⟨0x3209, 1, 1, 0x04, 0x04, .u 1, .rw, .num 3, true, false, .rng 1 64⟩ /- CHECK_STRIKES -/,
  ⟨0x3209, 1, 1, 0x05, 0x05, .oct 16, .ro, .num 0, false, false, .any⟩ /- IMPLAUSIBLE -/,
  ⟨0x3209, 1, 1, 0x06, 0x06, .u 1, .wo, .num 0, false, false, .codesUpTo 127⟩ /- CLEAR_IMPLAUSIBLE -/,
  ⟨0x3210, 1, 1, 0x01, 0x01, .dom, .rwS, .zeros 256, true, false, .len 256 256 1⟩ /- CELL_CAP -/]

/-- Rows of spec/13_stack_balancing_power_flow.md. -/
def odRows13b : List OdRow := [
  ⟨0x3210, 1, 1, 0x02, 0x02, .dom, .ro, .zeros 0, false, false, .any⟩ /- RESIDUAL -/,
  ⟨0x3210, 1, 1, 0x03, 0x03, .dom, .ro, .zeros 0, false, false, .any⟩ /- CHECK_FAILS -/,
  ⟨0x3210, 1, 1, 0x04, 0x04, .dom, .ro, .zeros 0, false, false, .any⟩ /- CELL_POWER -/,
  ⟨0x3210, 1, 1, 0x05, 0x05, .dom, .ro, .zeros 0, false, false, .any⟩ /- Q_PRED -/,
  ⟨0x3220, 1, 1, 0x00, 0x00, .u 1, .const, .num 6, false, false, .any⟩ /- AGILITY -/,
  ⟨0x3220, 1, 1, 0x01, 0x01, .u 4, .rw, .num 5000000, true, false, .dyn⟩ /- AGILE_F_MIN -/,
  ⟨0x3220, 1, 1, 0x02, 0x02, .u 4, .rw, .num 50000000, true, false, .dyn⟩ /- AGILE_F_MAX -/,
  ⟨0x3220, 1, 1, 0x03, 0x03, .u 2, .rw, .num 900, true, false, .rng 500 1000⟩ /- REACH_MARGIN -/,
  ⟨0x3220, 1, 1, 0x04, 0x04, .bool, .rw, .num 1, true, false, .any⟩ /- GUARD_ENABLE -/,
  ⟨0x3220, 1, 1, 0x05, 0x05, .u 4, .ro, .num 0, false, false, .any⟩ /- GUARD_COUNT -/,
  ⟨0x3220, 1, 1, 0x06, 0x06, .u 1, .ro, .num 0, false, false, .any⟩ /- ZVS_LOST_CELLS -/]

/-- Rows of spec/14_stack_protection_faults.md. -/
def odRows14a : List OdRow := [
  ⟨0x3300, 1, 1, 0x00, 0x00, .u 1, .const, .num 14, false, false, .any⟩ /- PROTECTION -/,
  ⟨0x3300, 1, 1, 0x01, 0x01, .u 4, .wo, .num 0, false, false, .sig [0x70697274,0x65736C72]⟩ /- TRIP_COMMAND -/,
  ⟨0x3300, 1, 1, 0x02, 0x02, .u 2, .ro, .num 0, false, false, .any⟩ /- TRIP_CAUSES -/,
  ⟨0x3300, 1, 1, 0x03, 0x03, .u 1, .ro, .num 0, false, false, .any⟩ /- TRIP_REQUESTERS -/,
  ⟨0x3300, 1, 1, 0x04, 0x04, .u 8, .ro, .num 0, false, false, .any⟩ /- TRIP_TIME -/,
  ⟨0x3300, 1, 1, 0x05, 0x05, .u 4, .ro, .num 4294967295, false, false, .any⟩ /- FIRST_FAULT -/,
  ⟨0x3300, 1, 1, 0x06, 0x06, .u 4, .ro, .num 0, false, false, .any⟩ /- TRIP_COUNT -/,
  ⟨0x3300, 1, 1, 0x07, 0x07, .u 4, .rw, .num 0, true, false, .any⟩ /- STACK_TRIP_CMP_MASK -/,
  ⟨0x3300, 1, 1, 0x08, 0x08, .u 2, .rw, .num 200, true, false, .rng 100 1000⟩ /- I_TRIP -/,
  ⟨0x3300, 1, 1, 0x09, 0x09, .u 2, .rw, .num 1200, true, false, .rng 1000 2000⟩ /- VDC_TRIP -/,
  ⟨0x3300, 1, 1, 0x0A, 0x0A, .u 2, .rw, .num 1150, true, false, .rng 1000 1500⟩ /- LINE_V_MAX -/,
  ⟨0x3300, 1, 1, 0x0B, 0x0B, .u 2, .rw, .num 100, true, false, .rng 0 10000⟩ /- LINE_RIDE_THROUGH -/,
  ⟨0x3300, 1, 1, 0x0C, 0x0C, .u 2, .rw, .num 1000, true, false, .rng 0 60000⟩ /- HEADROOM_TIME -/,
  ⟨0x3300, 1, 1, 0x0D, 0x0D, .u 1, .rw, .num 4, true, false, .rng 1 255⟩ /- DEADLINE_TRIP -/,
  ⟨0x3300, 1, 1, 0x0E, 0x0E, .u 1, .ro, .num 0, false, false, .any⟩ /- PROT_STATUS -/,
  ⟨0x3308, 1, 1, 0x00, 0x00, .u 1, .const, .num 14, false, false, .any⟩ /- CELL_PROTECTION -/,
  ⟨0x3308, 1, 1, 0x01, 0x01, .oct 16, .rw, .bytes [1,0,1,1,2,1,1,1,1,0,2,0,0,2,0,0], true, false, .dyn⟩ /- FAULT_ACTION -/,
  ⟨0x3308, 1, 1, 0x02, 0x02, .u 1, .rw, .num 8, true, false, .rng 2 64⟩ /- TLM_LOSS_LIMIT -/,
  ⟨0x3308, 1, 1, 0x03, 0x03, .u 1, .rw, .num 16, true, false, .rng 4 255⟩ /- FROZEN_LIMIT -/,
  ⟨0x3308, 1, 1, 0x04, 0x04, .f32, .rw, .num 0x447A0000, true, false, .frng (0) (100000)⟩ /- FROZEN_P_MIN -/,
  ⟨0x3308, 1, 1, 0x05, 0x05, .u 1, .rw, .num 1, true, false, .codes [1,2]⟩ /- TLM_ACTION -/,
  ⟨0x3308, 1, 1, 0x06, 0x06, .u 1, .rw, .num 1, true, false, .codes [0,1,2]⟩ /- IMPLAUSIBLE_ACTION -/,
  ⟨0x3308, 1, 1, 0x07, 0x07, .u 1, .rw, .num 0, true, false, .codes [0,1,2]⟩ /- ERRANT_ACTION -/,
  ⟨0x3308, 1, 1, 0x08, 0x08, .u 1, .rw, .num 1, true, false, .codes [1,2]⟩ /- BLOCKED_ACTION -/,
  ⟨0x3308, 1, 1, 0x09, 0x09, .oct 16, .ro, .num 0, false, false, .any⟩ /- BYPASSED_CELLS -/,
  ⟨0x3308, 1, 1, 0x0A, 0x0A, .u 1, .wo, .num 0, false, false, .dyn⟩ /- BYPASS_CELL -/,
  ⟨0x3308, 1, 1, 0x0B, 0x0B, .u 1, .wo, .num 0, false, false, .dyn⟩ /- REINSERT_CELL -/,
  ⟨0x3308, 1, 1, 0x0C, 0x0C, .u 2, .rw, .num 2000, true, false, .rng 100 60000⟩ /- REINSERT_TIMEOUT -/,
  ⟨0x3308, 1, 1, 0x0D, 0x0D, .oct 16, .ro, .num 0, false, false, .any⟩ /- REINSERTING -/,
  ⟨0x3308, 1, 1, 0x0E, 0x0E, .dom, .ro, .zeros 0, false, false, .any⟩ /- CELL_FAULTS -/,
  ⟨0x3310, 1, 1, 0x00, 0x00, .u 1, .const, .num 4, false, false, .any⟩ /- EXPORT -/,
  ⟨0x3310, 1, 1, 0x01, 0x01, .f32, .ro, .num 0x00000000, false, true, .any⟩ /- EXPORT_CAPACITY -/,
  ⟨0x3310, 1, 1, 0x02, 0x02, .f32, .ro, .num 0x00000000, false, true, .any⟩ /- EXPORT_DEMAND -/,
  ⟨0x3310, 1, 1, 0x03, 0x03, .f32, .rw, .num 0x00000000, true, false, .dyn⟩ /- EXPORT_V_TAPER -/,
  ⟨0x3310, 1, 1, 0x04, 0x04, .f32, .rw, .num 0x00000000, true, false, .dyn⟩ /- EXPORT_V_MAX -/]

/-- Rows of spec/15_control_engine.md. -/
def odRows15a : List OdRow := [
  ⟨0x2800, 1, 1, 0x00, 0x00, .u 1, .const, .num 4, false, false, .any⟩ /- ENGINE -/,
  ⟨0x2800, 1, 1, 0x01, 0x01, .u 2, .ro, .num 0, false, false, .any⟩ /- ENABLED -/,
  ⟨0x2800, 1, 1, 0x02, 0x02, .u 2, .ro, .num 0, false, false, .any⟩ /- HOLDING -/,
  ⟨0x2800, 1, 1, 0x03, 0x03, .u 4, .ro, .num 0, false, false, .any⟩ /- BUDGET -/,
  ⟨0x2800, 1, 1, 0x04, 0x04, .u 4, .ro, .num 0, false, false, .any⟩ /- MISS_TOTAL -/,
  ⟨0x2810, 16, 1, 0x00, 0x00, .u 1, .const, .num 53, false, false, .any⟩ /- INSTANCE -/,
  ⟨0x2810, 16, 1, 0x01, 0x01, .u 4, .wo, .num 0, false, false, .dyn⟩ /- CONTROL -/,
  ⟨0x2810, 16, 1, 0x02, 0x02, .u 2, .ro, .num 0, false, false, .any⟩ /- STATUS -/,
  ⟨0x2810, 16, 1, 0x03, 0x03, .u 1, .rwS, .num 1, true, false, .rng 1 12⟩ /- N_STATES -/,
  ⟨0x2810, 16, 1, 0x04, 0x04, .u 1, .rwS, .num 1, true, false, .rng 1 6⟩ /- N_OUTPUTS -/,
  ⟨0x2810, 16, 1, 0x05, 0x05, .u 1, .rwS, .num 1, true, false, .rng 1 12⟩ /- N_MEAS -/,
  ⟨0x2810, 16, 1, 0x06, 0x06, .u 1, .rwS, .num 1, true, false, .rng 1 255⟩ /- DIVIDER -/,
  ⟨0x2810, 16, 1, 0x07, 0x07, .u 4, .rwS, .num 1600, true, false, .rng 800 159200⟩ /- OUT_OFFSET -/,
  ⟨0x2810, 16, 1, 0x08, 0x08, .dom, .rwS, .zeros 0, true, false, .dyn⟩ /- Y_SOURCE -/,
  ⟨0x2810, 16, 1, 0x09, 0x09, .dom, .rw, .zeros 0, true, false, .dyn⟩ /- Y_GAIN -/,
  ⟨0x2810, 16, 1, 0x0A, 0x0A, .dom, .rw, .zeros 0, true, false, .dyn⟩ /- U_LIMITS -/,
  ⟨0x2810, 16, 1, 0x0B, 0x0B, .dom, .rw, .zeros 0, true, false, .dyn⟩ /- SAFE_OUT -/,
  ⟨0x2810, 16, 1, 0x0C, 0x0C, .i 4, .rw, .num 524288, true, false, .rng 1 0x7FFFFFFF⟩ /- SAFE_RAMP -/,
  ⟨0x2810, 16, 1, 0x0D, 0x0D, .dom, .rw, .zeros 0, true, false, .dyn⟩ /- X0 -/,
  ⟨0x2810, 16, 1, 0x0E, 0x0E, .u 2, .rw, .num 0, true, false, .dyn⟩ /- MONITOR -/,
  ⟨0x2810, 16, 1, 0x0F, 0x0F, .u 1, .rw, .num 4, true, false, .rng 0 64⟩ /- PREDICT_LIMIT -/,
  ⟨0x2810, 16, 1, 0x10, 0x10, .u 1, .rw, .num 8, true, false, .rng 2 255⟩ /- FROZEN_COUNT -/,
  ⟨0x2810, 16, 1, 0x11, 0x11, .i 4, .rw, .num 1048576, true, false, .rng 1 0x7FFFFFFF⟩ /- FROZEN_DELTA -/,
  ⟨0x2810, 16, 1, 0x12, 0x12, .u 2, .rw, .num 0, true, false, .dyn⟩ /- AW_MASK -/,
  ⟨0x2810, 16, 1, 0x13, 0x13, .dom, .rw, .zeros 0, true, false, .dyn⟩ /- SHADOW_BANK -/,
  ⟨0x2810, 16, 1, 0x14, 0x14, .u 4, .rw, .num 0, true, false, .any⟩ /- SHADOW_CRC -/,
  ⟨0x2810, 16, 1, 0x15, 0x15, .u 4, .wo, .num 0, false, false, .sig [0x74696D63]⟩ /- COMMIT -/,
  ⟨0x2810, 16, 1, 0x16, 0x16, .u 1, .rw, .num 0, true, false, .codes [0,1]⟩ /- COMMIT_MODE -/,
  ⟨0x2810, 16, 1, 0x17, 0x17, .dom, .ro, .zeros 0, false, false, .any⟩ /- ACTIVE_BANK -/,
  ⟨0x2810, 16, 1, 0x18, 0x18, .u 2, .rw, .num 0, false, false, .zeroOnly⟩ /- FLAGS -/,
  ⟨0x2810, 16, 1, 0x19, 0x19, .u 4, .ro, .num 0, false, false, .any⟩ /- DEADLINE_MISSES -/,
  ⟨0x2810, 16, 1, 0x1A, 0x1A, .u 4, .ro, .num 0, false, false, .any⟩ /- SKIPPED -/,
  ⟨0x2810, 16, 1, 0x1B, 0x1B, .u 4, .ro, .num 0, false, false, .any⟩ /- PREDICTED -/,
  ⟨0x2810, 16, 1, 0x1C, 0x1C, .dom, .ro, .zeros 0, false, false, .any⟩ /- X_BAR -/,
  ⟨0x2810, 16, 1, 0x1D, 0x1D, .u 4, .ro, .num 0, false, false, .any⟩ /- WORST_TIME -/,
  ⟨0x2810, 16, 1, 0x20, 0x2B, .i 4, .rw, .num 0, false, true, .any⟩ /- Y_HOST -/,
  ⟨0x2810, 16, 1, 0x30, 0x35, .i 4, .ro, .num 0, false, true, .any⟩ /- U_OUT -/]

/-- Rows of spec/16_measurement.md. -/
def odRows16a : List OdRow := [
  ⟨0x2601, 8, 1, 0x00, 0x00, .u 1, .const, .num 14, false, false, .any⟩ /- ADC -/,
  ⟨0x2601, 8, 1, 0x01, 0x01, .bool, .rw, .num 0, true, false, .any⟩ /- ENABLE -/,
  ⟨0x2601, 8, 1, 0x02, 0x02, .u 1, .rwS, .num 1, true, false, .dyn⟩ /- TRIGGER -/,
  ⟨0x2601, 8, 1, 0x03, 0x03, .u 1, .rwS, .num 1, true, false, .dyn⟩ /- TRIG_ARG -/,
  ⟨0x2601, 8, 1, 0x04, 0x04, .u 4, .rwS, .num 20000, true, false, .rng 160 160000⟩ /- TRIG_PERIOD -/,
  ⟨0x2601, 8, 1, 0x05, 0x05, .u 4, .rwS, .num 0, true, false, .rng 0 159999⟩ /- TRIG_PHASE -/,
  ⟨0x2601, 8, 1, 0x06, 0x06, .bool, .rwS, .num 0, true, false, .any⟩ /- LOW_POWER -/,
  ⟨0x2601, 8, 1, 0x07, 0x07, .u 1, .ro, .num 0, false, false, .any⟩ /- SEQ_LENGTH -/,
  ⟨0x2601, 8, 1, 0x08, 0x08, .dom, .rwS, .zeros 0, true, false, .dyn⟩ /- SEQUENCE -/,
  ⟨0x2601, 8, 1, 0x09, 0x09, .u 4, .ro, .num 0, false, false, .any⟩ /- SEQ_COUNT -/,
  ⟨0x2601, 8, 1, 0x0A, 0x0A, .u 8, .ro, .num 0, false, false, .any⟩ /- SEQ_TIME -/,
  ⟨0x2601, 8, 1, 0x0B, 0x0B, .u 4, .ro, .num 0, false, false, .any⟩ /- OVERRUNS -/,
  ⟨0x2601, 8, 1, 0x0C, 0x0C, .u 1, .rw, .num 0, false, false, .zeroOnly⟩ /- ADC_FLAGS -/,
  ⟨0x2601, 8, 1, 0x0D, 0x0D, .u 1, .wo, .num 0, false, false, .codes [1]⟩ /- SW_TRIGGER -/,
  ⟨0x2601, 8, 1, 0x0E, 0x0E, .dom, .ro, .zeros 0, false, false, .any⟩ /- ENTRY_TIMES -/,
  ⟨0x2610, 1, 1, 0x01, 0x01, .u 1, .wo, .num 0, false, false, .any⟩ /- CAL_START -/,
  ⟨0x2611, 8, 1, 0x01, 0x10, .i 2, .ro, .num 0, false, true, .any⟩ /- RESULT -/,
  ⟨0x2620, 8, 1, 0x01, 0x01, .u 1, .ro, .num 0, false, false, .any⟩ /- CAL_STATE -/,
  ⟨0x2620, 8, 1, 0x02, 0x02, .dom, .ro, .zeros 10, true, false, .any⟩ /- CAL_OFFSETS -/,
  ⟨0x2620, 8, 1, 0x03, 0x03, .dom, .ro, .special, true, false, .any⟩ /- CAL_GAINS -/,
  ⟨0x2630, 32, 1, 0x01, 0x01, .u 1, .rwS, .num 0, true, false, .rng 0 39⟩ /- CMP_INPUT -/,
  ⟨0x2630, 32, 1, 0x02, 0x02, .u 1, .rwS, .num 0, true, false, .dyn⟩ /- CMP_MODE -/,
  ⟨0x2630, 32, 1, 0x03, 0x03, .u 4, .rw, .num 67043328, true, false, .dyn⟩ /- CMP_THRESHOLDS -/,
  ⟨0x2630, 32, 1, 0x04, 0x04, .u 1, .rw, .num 2, true, false, .rng 0 15⟩ /- CMP_HYST -/,
  ⟨0x2630, 32, 1, 0x05, 0x05, .u 1, .rw, .num 0, true, false, .dyn⟩ /- CMP_FILTER -/,
  ⟨0x2650, 1, 1, 0x01, 0x01, .u 4, .ro, .num 0, false, false, .any⟩ /- CMP_STATE -/,
  ⟨0x2650, 1, 1, 0x02, 0x02, .u 4, .rw, .num 0, true, false, .any⟩ /- CMP_EVENT_MASK -/,
  ⟨0x2660, 1, 1, 0x01, 0x0C, .i 2, .ro, .num 0, false, true, .any⟩ /- TS_READING -/,
  ⟨0x2661, 1, 1, 0x01, 0x01, .u 2, .ro, .num 4095, false, false, .any⟩ /- TS_HEALTH -/,
  ⟨0x2661, 1, 1, 0x02, 0x02, .u 1, .wo, .num 0, false, false, .codesUpTo 11⟩ /- TS_CLEAR -/,
  ⟨0x2662, 1, 1, 0x01, 0x03, .i 2, .ro, .num 0, false, true, .any⟩ /- DIE_TEMP -/,
  ⟨0x2662, 1, 1, 0x04, 0x04, .u 1, .ro, .num 0, false, false, .any⟩ /- THERMAL_LATCH -/]

/-- Rows of spec/17_acquisition_streaming.md. -/
def odRows17a : List OdRow := [
  ⟨0x2710, 4, 1, 0x00, 0x00, .u 1, .const, .num 14, false, false, .any⟩ /- CAPTURE_SET -/,
  ⟨0x2710, 4, 1, 0x01, 0x01, .u 1, .rwS, .num 1, true, false, .rng 1 64⟩ /- CH_COUNT -/,
  ⟨0x2710, 4, 1, 0x02, 0x02, .dom, .rwS, .zeros 0, true, false, .dyn⟩ /- CHANNELS -/,
  ⟨0x2710, 4, 1, 0x03, 0x03, .u 4, .rwS, .num 20000, true, false, .rng 160 80000000⟩ /- ACQ_PERIOD -/,
  ⟨0x2710, 4, 1, 0x04, 0x04, .u 4, .rwS, .num 0, true, false, .dyn⟩ /- ACQ_PHASE -/,
  ⟨0x2710, 4, 1, 0x05, 0x05, .u 1, .rw, .num 0, true, false, .codes [0,1,2]⟩ /- TRIG_MODE -/,
  ⟨0x2710, 4, 1, 0x06, 0x06, .dom, .rw, .zeros 0, true, false, .dyn⟩ /- TRIG_PATTERN -/,
  ⟨0x2710, 4, 1, 0x07, 0x07, .u 2, .rw, .num 0, true, false, .rng 0 65535⟩ /- TRIG_HOLDOFF -/,
  ⟨0x2710, 4, 1, 0x08, 0x08, .u 1, .rwS, .num 0, true, false, .codes [0,1]⟩ /- GATE -/,
  ⟨0x2710, 4, 1, 0x09, 0x09, .u 2, .rwS, .num 0, true, false, .any⟩ /- GATE_PRE -/,
  ⟨0x2710, 4, 1, 0x0A, 0x0A, .u 2, .rwS, .num 1, true, false, .rng 1 65535⟩ /- GATE_POST -/,
  ⟨0x2710, 4, 1, 0x0B, 0x0B, .u 4, .wo, .num 0, false, false, .sig [0x736D7261]⟩ /- ARM -/,
  ⟨0x2710, 4, 1, 0x0C, 0x0C, .u 1, .ro, .num 0, false, false, .any⟩ /- TRIG_STATUS -/,
  ⟨0x2710, 4, 1, 0x0D, 0x0D, .u 4, .ro, .num 0, false, false, .any⟩ /- TRIG_COUNT -/,
  ⟨0x2710, 4, 1, 0x0E, 0x0E, .u 4, .ro, .num 0, false, false, .any⟩ /- CAPTURE_NO -/,
  ⟨0x2740, 32, 1, 0x00, 0x00, .u 1, .const, .num 11, false, false, .any⟩ /- STREAM -/,
  ⟨0x2740, 32, 1, 0x01, 0x01, .bool, .rw, .num 0, false, false, .any⟩ /- STREAM_ENABLE -/,
  ⟨0x2740, 32, 1, 0x02, 0x02, .u 2, .rwS, .num 0, true, false, .dyn⟩ /- STREAM_SOURCE -/,
  ⟨0x2740, 32, 1, 0x03, 0x03, .u 8, .rwS, .num 0, true, false, .dyn⟩ /- SOURCE_OPTION -/,
  ⟨0x2740, 32, 1, 0x04, 0x04, .u 2, .rwS, .num 64, true, false, .rng 64 4096⟩ /- STAGING_SIZE -/,
  ⟨0x2740, 32, 1, 0x05, 0x05, .u 4, .rw, .num 10000, true, false, .zrng 10 1000000⟩ /- FLUSH_TIMEOUT -/,
  ⟨0x2740, 32, 1, 0x06, 0x06, .u 4, .ro, .num 0, false, false, .any⟩ /- RATE_WORST -/,
  ⟨0x2740, 32, 1, 0x07, 0x07, .u 4, .ro, .num 0, false, false, .any⟩ /- GAPS -/,
  ⟨0x2740, 32, 1, 0x08, 0x08, .u 4, .ro, .num 0, false, false, .any⟩ /- RECORDS_LOST -/,
  ⟨0x2740, 32, 1, 0x09, 0x09, .u 4, .ro, .num 0, false, false, .any⟩ /- BAD_DESCRIPTORS -/,
  ⟨0x2740, 32, 1, 0x0A, 0x0A, .u 4, .ro, .num 0, false, false, .any⟩ /- RSEQ_NEXT -/,
  ⟨0x2740, 32, 1, 0x0B, 0x0B, .u 4, .ro, .num 0, false, false, .any⟩ /- COMPLETED_TOTAL -/,
  ⟨0x2770, 1, 1, 0x01, 0x01, .u 4, .ro, .num 0, false, false, .any⟩ /- BUDGET_USED -/,
  ⟨0x2770, 1, 1, 0x02, 0x02, .u 2, .ro, .num 0, false, false, .any⟩ /- PCIE_LINK -/]

/-- Rows of spec/18_pwm_pronghorn.md. -/
def odRows18a : List OdRow := [
  ⟨0x4000, 20, 1, 0x00, 0x00, .u 1, .const, .num 15, false, false, .any⟩ /- PAIR -/,
  ⟨0x4000, 20, 1, 0x01, 0x01, .u 4, .wo, .num 0, false, false, .sig [0x62616E65,0x61736964]⟩ /- PAIR_CONTROL -/,
  ⟨0x4000, 20, 1, 0x02, 0x02, .u 2, .ro, .num 0, false, false, .any⟩ /- PAIR_STATUS -/,
  ⟨0x4000, 20, 1, 0x03, 0x03, .u 1, .ro, .num 0, false, false, .any⟩ /- OWNER -/,
  ⟨0x4000, 20, 1, 0x04, 0x04, .u 1, .rwS, .num 0, true, false, .codes [0,1]⟩ /- MODE -/,
  ⟨0x4000, 20, 1, 0x05, 0x05, .u 1, .rwS, .num 0, true, false, .dyn⟩ /- SYNC -/,
  ⟨0x4000, 20, 1, 0x06, 0x06, .u 4, .rwS, .num 0, true, false, .rng 0 1999999⟩ /- PHASE -/,
  ⟨0x4000, 20, 1, 0x07, 0x07, .u 4, .rwS, .num 160, true, false, .rng 160 2000000⟩ /- PERIOD_MIN -/,
  ⟨0x4000, 20, 1, 0x08, 0x08, .u 2, .rwS, .num 0, true, false, .rng 0 4000⟩ /- DEAD_RISE -/,
  ⟨0x4000, 20, 1, 0x09, 0x09, .u 2, .rwS, .num 0, true, false, .rng 0 4000⟩ /- DEAD_FALL -/,
  ⟨0x4000, 20, 1, 0x0A, 0x0A, .bool, .rw, .num 0, true, false, .any⟩ /- DITHER -/,
  ⟨0x4000, 20, 1, 0x0B, 0x0B, .u 1, .rwS, .num 1, true, false, .dyn⟩ /- GUARD -/,
  ⟨0x4000, 20, 1, 0x0C, 0x0C, .u 4, .rw, .num 20000, false, true, .rng 160 2000000⟩ /- SHADOW_PERIOD -/,
  ⟨0x4000, 20, 1, 0x0D, 0x0D, .u 4, .wo, .num 0, false, true, .sig [0x74696D63]⟩ /- COMMIT -/,
  ⟨0x4000, 20, 1, 0x0E, 0x0E, .u 4, .ro, .num 0, false, false, .any⟩ /- PERIOD_ACTIVE -/,
  ⟨0x4000, 20, 1, 0x0F, 0x0F, .u 1, .rw, .num 0, false, false, .zeroOnly⟩ /- PAIR_FLAGS -/,
  ⟨0x4020, 40, 1, 0x00, 0x00, .u 1, .const, .num 7, false, false, .any⟩ /- CHANNEL -/,
  ⟨0x4020, 40, 1, 0x01, 0x01, .u 4, .rw, .num 0, false, true, .any⟩ /- SHADOW_RISE -/,
  ⟨0x4020, 40, 1, 0x02, 0x02, .u 4, .rw, .num 0, false, true, .any⟩ /- SHADOW_FALL -/,
  ⟨0x4020, 40, 1, 0x03, 0x03, .u 2, .rwS, .num 0, true, false, .rng 0 4000⟩ /- MIN_PULSE -/,
  ⟨0x4020, 40, 1, 0x04, 0x04, .u 1, .rwS, .num 0, true, false, .codes [0,1]⟩ /- PULSE_POLICY -/,
  ⟨0x4020, 40, 1, 0x05, 0x05, .u 4, .rw, .num 0, true, false, .rng 0 1999999⟩ /- TRIG_POINT -/,
  ⟨0x4020, 40, 1, 0x06, 0x06, .u 8, .ro, .num 0, false, false, .any⟩ /- EDGES_ACTIVE -/,
  ⟨0x4020, 40, 1, 0x07, 0x07, .u 4, .ro, .num 0, false, false, .any⟩ /- PULSES_FILTERED -/,
  ⟨0x4100, 56, 1, 0x01, 0x01, .u 2, .rwS, .special, true, false, .mask 0x3FF⟩ /- GROUP_MASK -/,
  ⟨0x4100, 56, 1, 0x02, 0x02, .u 1, .rwS, .num 0, true, false, .dyn⟩ /- SRC_CONFIG -/,
  ⟨0x4100, 56, 1, 0x03, 0x03, .bool, .ro, .num 0, false, false, .any⟩ /- SRC_RAISED -/,
  ⟨0x4180, 10, 1, 0x01, 0x01, .u 8, .rwS, .special, true, false, .mask 0xFFFFFFFFFF⟩ /- GROUP_CHANNELS -/,
  ⟨0x4180, 10, 1, 0x02, 0x02, .u 1, .rwS, .num 0, true, false, .dyn⟩ /- SAFE_STATE -/,
  ⟨0x4180, 10, 1, 0x03, 0x03, .u 1, .rwS, .num 20, true, false, .rng 1 50⟩ /- ASC_DELAY -/,
  ⟨0x4180, 10, 1, 0x04, 0x04, .u 1, .rw, .num 0, true, false, .codes [0,1]⟩ /- RELEASE_MODE -/,
  ⟨0x4180, 10, 1, 0x05, 0x05, .u 2, .rw, .num 100, true, false, .rng 1 10000⟩ /- AUTO_DELAY -/,
  ⟨0x4180, 10, 1, 0x06, 0x06, .u 1, .rw, .num 3, true, false, .rng 1 16⟩ /- AUTO_LIMIT -/,
  ⟨0x4180, 10, 1, 0x07, 0x07, .u 2, .rw, .num 60, true, false, .rng 1 3600⟩ /- AUTO_WINDOW -/,
  ⟨0x4180, 10, 1, 0x08, 0x08, .u 4, .wo, .num 0, false, false, .sig [0x65736C72]⟩ /- GROUP_RELEASE -/,
  ⟨0x4180, 10, 1, 0x09, 0x09, .u 2, .ro, .num 0, false, false, .any⟩ /- GROUP_STATUS -/,
  ⟨0x4180, 10, 1, 0x0A, 0x0A, .u 1, .ro, .num 255, false, false, .any⟩ /- FIRST_SOURCE -/,
  ⟨0x4180, 10, 1, 0x0B, 0x0B, .u 8, .ro, .num 0, false, false, .any⟩ /- FORCE_TIME -/,
  ⟨0x4180, 10, 1, 0x0C, 0x0C, .u 4, .ro, .num 0, false, false, .any⟩ /- FORCE_COUNT -/,
  ⟨0x41F0, 1, 1, 0x01, 0x01, .u 2, .rw, .num 0, true, false, .mask 0x3FF⟩ /- TRIP_OUT_MASK -/]

/-- Rows of spec/18_pwm_pronghorn.md. -/
def odRows18b : List OdRow := [
  ⟨0x41F0, 1, 1, 0x02, 0x02, .u 2, .ro, .num 0, false, false, .any⟩ /- FORCED_GROUPS -/,
  ⟨0x41F0, 1, 1, 0x03, 0x03, .u 8, .ro, .num 0, false, false, .any⟩ /- SOURCES_RAISED -/]

/-- Rows of spec/19_pre_drivers.md. -/
def odRows19a : List OdRow := [
  ⟨0x4200, 6, 1, 0x00, 0x00, .u 1, .const, .num 20, false, false, .any⟩ /- BRIDGE -/,
  ⟨0x4200, 6, 1, 0x01, 0x01, .u 4, .wo, .num 0, false, false, .sig [0x66726C63,0x74736574]⟩ /- BRIDGE_CONTROL -/,
  ⟨0x4200, 6, 1, 0x02, 0x02, .u 1, .ro, .num 0, false, false, .any⟩ /- BRIDGE_STATE -/,
  ⟨0x4200, 6, 1, 0x03, 0x03, .u 1, .ro, .num 0, false, false, .any⟩ /- BRIDGE_STATUS -/,
  ⟨0x4200, 6, 1, 0x04, 0x04, .u 1, .rw, .num 0, false, false, .zeroOnly⟩ /- BRIDGE_FLAGS -/,
  ⟨0x4200, 6, 1, 0x05, 0x05, .u 1, .rwS, .num 16, true, false, .zrng 2 64⟩ /- REFRESH_N -/,
  ⟨0x4200, 6, 1, 0x06, 0x06, .u 2, .rwS, .num 1200, true, false, .rng 80 4000⟩ /- REFRESH_WIDTH -/,
  ⟨0x4200, 6, 1, 0x07, 0x07, .u 2, .rwS, .num 500, true, false, .dyn⟩ /- OC_THRESHOLD -/,
  ⟨0x4200, 6, 1, 0x08, 0x08, .u 2, .rwS, .num 160, true, false, .rng 0 800⟩ /- OC_FILTER -/,
  ⟨0x4200, 6, 1, 0x09, 0x09, .u 2, .rwS, .num 4000, true, false, .dyn⟩ /- DESAT_THRESHOLD -/,
  ⟨0x4200, 6, 1, 0x0A, 0x0A, .u 2, .rwS, .num 800, true, false, .rng 200 4000⟩ /- DESAT_BLANK -/,
  ⟨0x4200, 6, 1, 0x0B, 0x0B, .u 1, .rwS, .num 0, true, false, .zrng 5 70⟩ /- HS_DESAT_LEVEL -/,
  ⟨0x4200, 6, 1, 0x0C, 0x0C, .u 2, .rw, .num 100, true, false, .rng 1 10000⟩ /- RETRY_WAIT -/,
  ⟨0x4200, 6, 1, 0x0D, 0x0D, .u 1, .rw, .num 3, true, false, .rng 0 15⟩ /- RETRY_LIMIT -/,
  ⟨0x4200, 6, 1, 0x0E, 0x0E, .u 2, .rw, .num 60, true, false, .rng 1 3600⟩ /- RETRY_WINDOW -/,
  ⟨0x4200, 6, 1, 0x0F, 0x0F, .u 1, .rw, .num 7, true, false, .mask 0xF⟩ /- SOURCE_FAULTS -/,
  ⟨0x4200, 6, 1, 0x10, 0x10, .u 1, .ro, .num 3, false, false, .any⟩ /- RETRIES_LEFT -/,
  ⟨0x4200, 6, 1, 0x11, 0x11, .u 1, .ro, .num 0, false, false, .any⟩ /- LAST_FAULT -/,
  ⟨0x4200, 6, 1, 0x12, 0x12, .u 4, .ro, .num 0, false, false, .any⟩ /- FAULT_COUNT -/,
  ⟨0x4200, 6, 1, 0x13, 0x13, .u 4, .ro, .num 0, false, false, .any⟩ /- REFRESH_COUNT -/,
  ⟨0x4200, 6, 1, 0x14, 0x14, .u 2, .ro, .num 0, false, false, .any⟩ /- SELFTEST_RESULT -/,
  ⟨0x4210, 1, 1, 0x01, 0x01, .u 4, .ro, .num 0, false, false, .any⟩ /- BRIDGE_SUMMARY -/]

/-- Rows of spec/20_traction_axes_chopper.md. -/
def odRows20a : List OdRow := [
  ⟨0x4400, 6, 64, 0x00, 0x00, .u 1, .const, .num 45, false, false, .any⟩ /- AXIS -/,
  ⟨0x4400, 6, 64, 0x01, 0x01, .u 4, .wo, .num 0, false, false, .sig [0x62616E65,0x74616365,0x61736964,0x6C636564,0x66726C63]⟩ /- AXIS_CONTROL -/,
  ⟨0x4400, 6, 64, 0x02, 0x02, .u 1, .ro, .num 0, false, false, .any⟩ /- AXIS_STATE -/,
  ⟨0x4400, 6, 64, 0x03, 0x03, .u 1, .rw, .num 0, false, false, .zeroOnly⟩ /- AXIS_FLAGS -/,
  ⟨0x4400, 6, 64, 0x04, 0x04, .u 4, .rwS, .num 50000, true, false, .rng 20000 80000⟩ /- LOOP_PERIOD -/,
  ⟨0x4400, 6, 64, 0x05, 0x07, .u 1, .rwS, .num 255, true, false, .entry⟩ /- I_ENTRY_U, I_ENTRY_V, VBUS_ENTRY -/,
  ⟨0x4400, 6, 64, 0x08, 0x08, .f32, .rwS, .num 0x00000000, true, false, .any⟩ /- I_SCALE -/,
  ⟨0x4400, 6, 64, 0x09, 0x09, .f32, .rwS, .num 0x00000000, true, false, .any⟩ /- VBUS_SCALE -/,
  ⟨0x4400, 6, 64, 0x0A, 0x0A, .u 1, .rwS, .num 0, true, false, .rng 1 32⟩ /- POLE_PAIRS -/,
  ⟨0x4400, 6, 64, 0x0B, 0x0E, .f32, .rwS, .num 0x00000000, true, false, .fge0⟩ /- RS, LD, LQ, PSI -/,
  ⟨0x4400, 6, 64, 0x0F, 0x0F, .f32, .rwS, .num 0x43FA0000, true, false, .frng (50) (2000)⟩ /- I_BANDWIDTH -/,
  ⟨0x4400, 6, 64, 0x10, 0x10, .f32, .rwS, .num 0x00000000, true, false, .frng (0) (5000)⟩ /- I_MAX -/,
  ⟨0x4400, 6, 64, 0x11, 0x11, .u 2, .rwS, .num 31130, true, false, .rng 16384 32604⟩ /- MOD_MAX -/,
  ⟨0x4400, 6, 64, 0x12, 0x12, .f32, .rw, .num 0x00000000, false, true, .any⟩ /- TORQUE_REF -/,
  ⟨0x4400, 6, 64, 0x13, 0x13, .f32, .rw, .num 0x00000000, false, true, .fle0⟩ /- ID_REF -/,
  ⟨0x4400, 6, 64, 0x14, 0x14, .u 1, .rwS, .num 16, true, false, .rng 8 80⟩ /- HFI_DIV -/,
  ⟨0x4400, 6, 64, 0x15, 0x15, .f32, .rwS, .num 0x41A00000, true, false, .frng (1) (200)⟩ /- HFI_AMPL -/,
  ⟨0x4400, 6, 64, 0x16, 0x16, .f32, .rwS, .num 0x42480000, true, false, .frng (5) (500)⟩ /- OBS_BANDWIDTH -/,
  ⟨0x4400, 6, 64, 0x17, 0x17, .f32, .rw, .num 0x42C80000, true, false, .dyn⟩ /- BLEND_LOW -/,
  ⟨0x4400, 6, 64, 0x18, 0x18, .f32, .rw, .num 0x43480000, true, false, .dyn⟩ /- BLEND_HIGH -/,
  ⟨0x4400, 6, 64, 0x19, 0x19, .u 2, .rw, .num 500, true, false, .rng 10 9000⟩ /- ROLLBACK_MAX -/,
  ⟨0x4400, 6, 64, 0x1A, 0x1A, .u 2, .rw, .num 2000, true, false, .rng 100 30000⟩ /- START_TIMEOUT -/,
  ⟨0x4400, 6, 64, 0x1B, 0x1B, .u 1, .rw, .num 3, true, false, .rng 0 8⟩ /- START_RETRIES -/,
  ⟨0x4400, 6, 64, 0x1C, 0x1C, .u 2, .rw, .num 250, true, false, .rng 50 900⟩ /- LOS_FLUX_TOL -/,
  ⟨0x4400, 6, 64, 0x1D, 0x1D, .u 2, .rw, .num 3000, true, false, .rng 500 9000⟩ /- LOS_ANGLE_TOL -/,
  ⟨0x4400, 6, 64, 0x1E, 0x1E, .f32, .rw, .num 0x469C4000, true, false, .frng (100) (1000000)⟩ /- LOS_ACCEL -/,
  ⟨0x4400, 6, 64, 0x1F, 0x1F, .u 1, .rw, .num 4, true, false, .rng 1 64⟩ /- LOS_COUNT -/,
  ⟨0x4400, 6, 64, 0x20, 0x20, .f32, .rw, .num 0x447A0000, true, false, .frng (0) (20000)⟩ /- ASC_SPEED -/,
  ⟨0x4400, 6, 64, 0x21, 0x21, .u 1, .rw, .num 0, true, false, .codes [0,1]⟩ /- LOS_ACTION -/,
  ⟨0x4400, 6, 64, 0x22, 0x22, .u 2, .rw, .num 50, true, false, .rng 1 10000⟩ /- RECATCH_DELAY -/,
  ⟨0x4400, 6, 64, 0x23, 0x23, .u 1, .rw, .num 3, true, false, .rng 1 16⟩ /- RECATCH_LIMIT -/,
  ⟨0x4400, 6, 64, 0x24, 0x24, .f32, .rw, .num 0x00000000, true, false, .fge0⟩ /- DECEL_TORQUE -/,
  ⟨0x4400, 6, 64, 0x25, 0x25, .f32, .rw, .num 0x41200000, true, false, .frng (0) (1000)⟩ /- STOP_SPEED -/,
  ⟨0x4400, 6, 64, 0x26, 0x26, .f32, .ro, .num 0x00000000, false, true, .any⟩ /- SPEED -/,
  ⟨0x4400, 6, 64, 0x27, 0x27, .f32, .ro, .num 0x00000000, false, true, .any⟩ /- TORQUE_EST -/,
  ⟨0x4400, 6, 64, 0x28, 0x28, .f32, .ro, .num 0x00000000, false, false, .any⟩ /- I_D -/,
  ⟨0x4400, 6, 64, 0x29, 0x29, .f32, .ro, .num 0x00000000, false, false, .any⟩ /- I_Q -/,
  ⟨0x4400, 6, 64, 0x2A, 0x2A, .f32, .ro, .num 0x00000000, false, true, .any⟩ /- P_ELEC -/,
  ⟨0x4400, 6, 64, 0x2B, 0x2B, .f32, .ro, .num 0x00000000, false, false, .any⟩ /- REGEN_ALLOWED -/,
  ⟨0x4400, 6, 64, 0x2C, 0x2C, .u 1, .ro, .num 0, false, false, .any⟩ /- LAST_CAUSE -/]

/-- Rows of spec/20_traction_axes_chopper.md. -/
def odRows20b : List OdRow := [
  ⟨0x4400, 6, 64, 0x2D, 0x2D, .u 4, .ro, .num 0, false, false, .any⟩ /- DEADLINE_MISSES -/,
  ⟨0x4600, 1, 1, 0x00, 0x00, .u 1, .const, .num 11, false, false, .any⟩ /- CHOPPER -/,
  ⟨0x4600, 1, 1, 0x01, 0x01, .u 4, .wo, .num 0, false, false, .sig [0x62616E65,0x61736964,0x66726C63]⟩ /- CHOP_CONTROL -/,
  ⟨0x4600, 1, 1, 0x02, 0x02, .u 1, .ro, .num 0, false, false, .any⟩ /- CHOP_STATE -/,
  ⟨0x4600, 1, 1, 0x03, 0x04, .u 1, .rwS, .num 255, true, false, .entry⟩ /- CHOP_I_ENTRY_0, _1 -/,
  ⟨0x4600, 1, 1, 0x05, 0x05, .f32, .rwS, .num 0x00000000, true, false, .any⟩ /- CHOP_I_SCALE -/,
  ⟨0x4600, 1, 1, 0x06, 0x06, .f32, .rwS, .num 0x00000000, true, false, .frng (1/20) 100⟩ /- R_GRID -/,
  ⟨0x4600, 1, 1, 0x07, 0x07, .u 4, .rwS, .num 80000, true, false, .dyn⟩ /- CHOP_PERIOD -/,
  ⟨0x4600, 1, 1, 0x08, 0x08, .f32, .rwS, .num 0x00000000, true, false, .any⟩ /- V_CHOP_ON -/,
  ⟨0x4600, 1, 1, 0x09, 0x09, .f32, .rwS, .num 0x00000000, true, false, .any⟩ /- V_CHOP_FULL -/,
  ⟨0x4600, 1, 1, 0x0A, 0x0A, .u 2, .rw, .num 250, true, false, .rng 50 900⟩ /- CHOP_FAULT_TOL -/,
  ⟨0x4600, 1, 1, 0x0B, 0x0B, .u 1, .rw, .num 4, true, false, .rng 1 64⟩ /- CHOP_FAULT_COUNT -/,
  ⟨0x4610, 1, 1, 0x01, 0x01, .u 1, .rwS, .num 255, true, false, .entry⟩ /- LADDER_V_ENTRY -/,
  ⟨0x4610, 1, 1, 0x02, 0x02, .f32, .rwS, .num 0x00000000, true, false, .any⟩ /- LADDER_V_SCALE -/,
  ⟨0x4610, 1, 1, 0x03, 0x05, .f32, .rwS, .num 0x00000000, true, false, .any⟩ /- V_DERATE, V_MECH, V_HARD -/,
  ⟨0x4610, 1, 1, 0x06, 0x06, .f32, .rwS, .num 0x41200000, true, false, .frng (1) (100)⟩ /- LADDER_HYST -/,
  ⟨0x4610, 1, 1, 0x07, 0x07, .f32, .rwS, .num 0x00000000, true, false, .frng (0) (10000000)⟩ /- REGEN_MAX -/,
  ⟨0x4610, 1, 1, 0x08, 0x08, .u 1, .rwS, .num 63, true, false, .mask 0x3F⟩ /- HARD_ACTION -/,
  ⟨0x4610, 1, 1, 0x09, 0x09, .u 2, .rw, .num 500, true, false, .rng 0 60000⟩ /- MECH_HOLD -/,
  ⟨0x4610, 1, 1, 0x0A, 0x0A, .u 1, .ro, .num 0, false, false, .any⟩ /- LADDER_STEP -/,
  ⟨0x4610, 1, 1, 0x0B, 0x0B, .f32, .ro, .num 0x00000000, false, true, .any⟩ /- REGEN_LIMIT -/,
  ⟨0x4610, 1, 1, 0x0C, 0x0C, .u 1, .ro, .num 0, false, false, .any⟩ /- LADDER_STATUS -/,
  ⟨0x4610, 1, 1, 0x0D, 0x0D, .f32, .ro, .num 0x00000000, false, true, .any⟩ /- BUS_V -/]

/-- Rows of spec/21_safety.md. -/
def odRows21a : List OdRow := [
  ⟨0x5000, 1, 1, 0x00, 0x00, .u 1, .const, .num 8, false, false, .any⟩ /- SAFETY -/,
  ⟨0x5000, 1, 1, 0x01, 0x01, .u 1, .ro, .num 0, false, false, .any⟩ /- SAFE_STATE -/,
  ⟨0x5000, 1, 1, 0x02, 0x02, .u 4, .ro, .num 0, false, false, .any⟩ /- CCV_COMPUTED -/,
  ⟨0x5000, 1, 1, 0x03, 0x03, .u 4, .rwC, .num 0, true, false, .any⟩ /- CCV_CONFIRMED -/,
  ⟨0x5000, 1, 1, 0x04, 0x04, .u 2, .ro, .num 0, false, false, .any⟩ /- HELD_CAUSES -/,
  ⟨0x5000, 1, 1, 0x05, 0x05, .u 2, .ro, .num 0, false, false, .any⟩ /- SELFTEST_RESULT -/,
  ⟨0x5000, 1, 1, 0x06, 0x06, .u 2, .rwC, .num 1000, true, false, .rng 100 10000⟩ /- TP_INTERVAL -/,
  ⟨0x5000, 1, 1, 0x07, 0x07, .u 2, .rwC, .num 300, true, false, .dyn⟩ /- TP_WIDTH -/,
  ⟨0x5000, 1, 1, 0x08, 0x08, .u 2, .rwC, .num 150, true, false, .dyn⟩ /- FB_DELAY -/,
  ⟨0x5010, 4, 1, 0x00, 0x00, .u 1, .const, .num 7, false, false, .any⟩ /- STO_PAIR -/,
  ⟨0x5010, 4, 1, 0x01, 0x01, .u 1, .ro, .num 0, false, false, .any⟩ /- STO_STATE -/,
  ⟨0x5010, 4, 1, 0x02, 0x02, .u 2, .ro, .num 4096, false, false, .any⟩ /- STO_CAUSES -/,
  ⟨0x5010, 4, 1, 0x03, 0x03, .u 4, .wo, .num 0, false, false, .sig [0x66726C63]⟩ /- PAIR_CONTROL -/,
  ⟨0x5010, 4, 1, 0x04, 0x04, .u 4, .ro, .num 0, false, false, .any⟩ /- TESTS_PASSED -/,
  ⟨0x5010, 4, 1, 0x05, 0x05, .u 4, .ro, .num 0, false, false, .any⟩ /- TESTS_DISCARDED -/,
  ⟨0x5010, 4, 1, 0x06, 0x06, .u 1, .ro, .num 0, false, false, .any⟩ /- LAST_FAULT -/,
  ⟨0x5010, 4, 1, 0x07, 0x07, .bool, .rwC, .num 0, true, false, .any⟩ /- ENABLE -/,
  ⟨0x2080, 4, 1, 0x01, 0x01, .f32, .ro, .num 0x00000000, false, true, .any⟩ /- SAFE_SPEED -/,
  ⟨0x2080, 4, 1, 0x02, 0x02, .bool, .ro, .num 0, false, false, .any⟩ /- SAFE_SPEED_VALID -/,
  ⟨0x2080, 4, 1, 0x03, 0x03, .f32, .ro, .num 0x00000000, false, false, .any⟩ /- SAFE_CURRENT -/,
  ⟨0x5020, 4, 1, 0x01, 0x01, .u 1, .rwC, .num 1, true, false, .rng 1 32⟩ /- POLE_PAIRS -/,
  ⟨0x5020, 4, 1, 0x02, 0x02, .f32, .rwC, .num 0x00000000, true, false, .any⟩ /- CS_SCALE -/,
  ⟨0x5020, 4, 1, 0x03, 0x03, .f32, .rwC, .num 0x00000000, true, false, .frng (0) (5000)⟩ /- I_SPEED_MIN -/,
  ⟨0x5020, 4, 1, 0x04, 0x04, .f32, .rwC, .num 0x00000000, true, false, .any⟩ /- SS1_DECEL -/,
  ⟨0x5020, 4, 1, 0x05, 0x05, .f32, .rwC, .num 0x00000000, true, false, .any⟩ /- SS1_MARGIN -/,
  ⟨0x5020, 4, 1, 0x06, 0x06, .f32, .rwC, .num 0x00000000, true, false, .any⟩ /- SS1_STOP_SPEED -/,
  ⟨0x5020, 4, 1, 0x07, 0x07, .u 2, .rwC, .num 5000, true, false, .rng 100 60000⟩ /- SS1_TIME_MAX -/,
  ⟨0x5020, 4, 1, 0x08, 0x08, .u 1, .ro, .num 0, false, false, .any⟩ /- SS1_STATE -/,
  ⟨0x5800, 32, 1, 0x00, 0x00, .u 1, .const, .num 15, false, false, .any⟩ /- SAFETY_CONN -/,
  ⟨0x5800, 32, 1, 0x01, 0x01, .bool, .rwC, .num 0, true, false, .any⟩ /- CONN_ENABLE -/,
  ⟨0x5800, 32, 1, 0x02, 0x02, .u 1, .rwC, .num 0, true, false, .mask 0xF⟩ /- AXIS_MASK -/,
  ⟨0x5800, 32, 1, 0x03, 0x03, .u 4, .rwC, .num 0, true, false, .any⟩ /- SOURCE_ADDR -/,
  ⟨0x5800, 32, 1, 0x04, 0x04, .u 4, .rwC, .num 0, true, false, .mask 0x107FF⟩ /- CAN_COB_ID -/,
  ⟨0x5800, 32, 1, 0x05, 0x05, .u 1, .rwC, .num 0, true, false, .codes [0,1]⟩ /- ETH_MAC -/,
  ⟨0x5800, 32, 1, 0x06, 0x06, .u 2, .rwC, .num 2000, true, false, .rng 100 20000⟩ /- COMPARE_WINDOW -/,
  ⟨0x5800, 32, 1, 0x07, 0x07, .u 2, .rwC, .num 50, true, false, .rng 5 1000⟩ /- CONN_TIMEOUT -/,
  ⟨0x5800, 32, 1, 0x08, 0x08, .u 1, .rwC, .num 0, true, false, .codes [0,1]⟩ /- FAIL_ACTION -/,
  ⟨0x5800, 32, 1, 0x09, 0x09, .u 1, .rwC, .num 4, true, false, .rng 1 64⟩ /- SEQ_MAX_STEP -/,
  ⟨0x5800, 32, 1, 0x0A, 0x0A, .u 1, .ro, .num 0, false, false, .any⟩ /- CONN_STATE -/,
  ⟨0x5800, 32, 1, 0x0B, 0x0B, .u 2, .ro, .num 0, false, false, .any⟩ /- LAST_SEQ -/,
  ⟨0x5800, 32, 1, 0x0C, 0x0E, .u 4, .ro, .num 0, false, false, .any⟩ /- LONE_COPIES, CRC_ERRORS, STALE_FRAMES -/]

/-- Rows of spec/21_safety.md. -/
def odRows21b : List OdRow := [
  ⟨0x5800, 32, 1, 0x0F, 0x0F, .u 4, .rwC, .num 0, true, false, .mask 0x107FF⟩ /- STATUS_COB_ID -/]

/-- All object rows, by ascending chapter. -/
def odRows : List OdRow :=
  odRows02a ++
  odRows02b ++
  odRows03a ++
  odRows05a ++
  odRows06a ++
  odRows07a ++
  odRows08a ++
  odRows08b ++
  odRows09a ++
  odRows10a ++
  odRows11a ++
  odRows12a ++
  odRows12b ++
  odRows13a ++
  odRows13b ++
  odRows14a ++
  odRows15a ++
  odRows16a ++
  odRows17a ++
  odRows18a ++
  odRows18b ++
  odRows19a ++
  odRows20a ++
  odRows20b ++
  odRows21a ++
  odRows21b

end Sys2Proof.Machine
end

