-- ==== Sys2Proof/Machine/State.lean ====
section
/-! DEFINITION. What the machine holds, as plain data, group by group, and the machine right after reset. -/
namespace Sys2Proof.Machine

/-- Stored object values: keys (index × 256 + subindex) strictly rising, defaults not listed. -/
abbrev Od := List (Nat × Bytes)

/-! ### Clocks, domains, events (chapters 1, 3, 6, 8) -/

/-- The power domains of Table 1.5, in its order. -/
inductive Domain where
  | aon | sec | net | link | ctrl | drv | meas | safe
deriving DecidableEq, Repr, Inhabited

/-- States of a power domain (R126). -/
inductive DomState where
  | off | retention | on | transition
deriving DecidableEq, Repr, Inhabited

/-- The counters that advance with time, in ticks of 1.25 ns (R10, R143, log entry 2). -/
structure Clock where
  /-- Ticks since VAON came into range: AON time and safety-island time, and the interval measure of R44. -/
  run : Nat := 0
  /-- Device time (64 bits, R167). -/
  dt : Nat := 0
  /-- The timebase counts: device time advances (R44, R119). -/
  counting : Bool := false
  /-- RTC count at 32,768 Hz (R143), 62 bits. -/
  rtc : Nat := 0
  /-- Fraction of an RTC count, in units of 1/800,000,000. -/
  rtcFrac : Nat := 0
  /-- The RTC is advanced by its crystal; else by the AON oscillator (TIME[62], R143). -/
  rtcXtal : Bool := false
  /-- How often the RTC was not carried on by its crystal, and how often the timebase stopped (R76): bookkeeping. -/
  rtcBreaks : Nat := 0
  dtBreaks : Nat := 0
deriving DecidableEq, Repr, Inhabited

/-- An event before it is numbered: TIME, CODE, SOURCE[14:0], DATA (Table 3.3). -/
structure Event where
  time : Nat
  code : Nat
  source : Nat
  data : Bytes
deriving DecidableEq, Repr, Inhabited

/-- A numbered record (Table 3.3). -/
structure Record where
  ev : Event
  seq : Nat
  late : Bool
deriving DecidableEq, Repr, Inhabited

/-- A record of the persistent log: its epoch beside it (R505). -/
structure PersistRecord where
  epoch : Nat
  record : Record
deriving DecidableEq, Repr, Inhabited

/-- The event sequencer and log in SEC, and what AON keeps while SEC is not ON (R67 to R72). -/
structure Sequencer where
  held : List Event := []
  next : Nat := 0
  log : List Record := []
  late : Nat := 0
  /-- EPOCH and the stored last number, in MRAM (R70). -/
  epoch : Nat := 0
  lastStored : Option Nat := none
  persist : List PersistRecord := []
  /-- Unnumbered records of AON, with the RTC stamp at which each was made (R71). -/
  aon : List (Event × Nat) := []
  aonDiscards : Nat := 0
  aonFirst : Nat := 0
  aonLast : Nat := 0
  aonTotal : Nat := 0
  /-- Records waiting to be sent as EMCY, oldest first (R46). -/
  emcy : List Record := []
deriving DecidableEq, Repr, Inhabited

/-- The breach objects of 0x2500. -/
structure Breach where
  summary : Nat := 0
  yields : Nat := 0
  credit : Nat := 0
  descriptor : Nat := 0
  ledger : Nat := 0
  lastSeq : Nat := 0xFFFFFFFF
deriving DecidableEq, Repr, Inhabited

/-- What leaves the device, oldest first: a log of the model's own, that no rule reads (log entry 4). -/
inductive Output where
  /-- An OD response datagram on UDP. -/
  | datagram (mac ip port : Nat) (message : Bytes)
  /-- A response placed in a mailbox slot. -/
  | mailbox (slot : Nat) (message : Bytes)
  /-- An SDO response on a server channel: aborted or done, and its data. -/
  | sdo (session : Nat) (index sub : Nat) (abort : Option (Nat × Nat)) (data : Bytes)
  /-- A CAN FD frame other than SDO. -/
  | can (controller cobId : Nat) (data : Bytes)
  /-- An Ethernet frame of EtherType 0x88B5: MAC port, destination, payload. -/
  | eth (mac : Nat) (dest : Bytes) (payload : Bytes)
  /-- An LCL frame launched on a ring path (0 A, 1 B) at a device time. -/
  | lcl (ring path launch : Nat) (frame : Bytes)
  /-- An ordered set or idle condition on a path, by name of its rule's use. -/
  | lane (ring path kind : Nat)
  /-- A PTP message: MAC port, messageType, body. -/
  | ptp (mac messageType : Nat) (body : Bytes)
  /-- An ARP message: operation, sender's MAC and IPv4 address, target's. -/
  | arp (mac : Nat) (body : Bytes)
  /-- An ICMP echo reply: destination and data. -/
  | icmp (mac : Nat) (body : Bytes)
  /-- A PCIe memory write by the device, a memory read it issues, an MSI-X message, a completion to the host. -/
  | dmaWrite (address : Nat) (data : Bytes)
  | dmaRead (address length : Nat)
  | msix (vector : Nat)
  | pcieCompletion (crs : Bool) (value : Nat)
  /-- Data captured into the JTAG data register. -/
  | tapCapture (data : Bytes)
deriving DecidableEq, Repr, Inhabited

/-! ### Sessions, transports, PDOs (chapter 2) -/

/-- Last abort of a session (R56). -/
structure AbortRecord where
  detail : Nat := 0
  code : Nat := 0
  object : Nat := 0
  time : Nat := 0
deriving DecidableEq, Repr, Inhabited

/-- A segmented transfer in progress (R43, R47). -/
structure Transfer where
  write : Bool
  ix : Nat
  sub : Nat
  total : Nat
  /-- Bytes received so far, or the snapshot being read. -/
  data : Bytes
  /-- Offset at which the next segment must start. -/
  pos : Nat
  /-- Toggle bit expected next (CAN FD). -/
  toggle : Bool
  /-- Interval clock at the last segment. -/
  last : Nat
deriving DecidableEq, Repr, Inhabited

/-- Kinds of 0x2003. -/
inductive SessionKind where
  | free | can | mailbox | udp
deriving DecidableEq, Repr, Inhabited

/-- One client session context (R40, R41). -/
structure Session where
  kind : SessionKind := .free
  mac : Nat := 0
  ip : Nat := 0
  port : Nat := 0
  /-- Last SEQ served, and the response to it (R49). -/
  lastSeq : Option Nat := none
  lastResponse : Bytes := []
  transfer : Option Transfer := none
  abort : AbortRecord := {}
  /-- Interval clock at the last request (R40, R44). -/
  lastRequest : Nat := 0
  /-- A response is owed (a store, R39), and responses that must follow it (R48). -/
  owed : Bool := false
  behind : List Output := []
  /-- CLOSE has been served: the session closes after its response (R40, R48). -/
  closing : Bool := false
deriving DecidableEq, Repr, Inhabited

/-- A mailbox slot (Table 2.9). -/
structure Slot where
  owner : Bool := false
  msgLen : Nat := 0
  message : Bytes := []
  /-- The host wrote the slot while OWNER read 1: the response's content is undefined (R50). -/
  torn : Bool := false
deriving DecidableEq, Repr, Inhabited

/-- Run state of an RPDO (R52, R53). -/
structure Rpdo where
  /-- Received and waiting for the period start. -/
  held : Option Bytes := none
  lastReceived : Nat := 0
  status : Nat := 0
deriving DecidableEq, Repr, Inhabited

/-- Run state of a TPDO (R52, R54). -/
structure Tpdo where
  lastData : Bytes := []
  lastSent : Nat := 0
  /-- Ethernet transmit count. -/
  count : Nat := 0
  /-- Period starts since the last synchronous transmission. -/
  periods : Nat := 0
deriving DecidableEq, Repr, Inhabited

/-- NMT states (R45). -/
inductive NmtState where
  | preOperational | operational | stopped
deriving DecidableEq, Repr, Inhabited

/-- A store or restore in progress (R39). -/
structure StoreOp where
  /-- Bank being written. -/
  bank : Nat
  counter : Nat
  contents : List (Nat × Bytes)
  session : Nat
  ix : Nat
  sub : Nat
  /-- SEQ and OFFSET of the request whose response is owed. -/
  seq : Nat := 0
  offset : Nat := 0
deriving DecidableEq, Repr, Inhabited

/-- The communication state of NET. -/
structure Com where
  nmt : NmtState := .preOperational
  sessions : Vector Session 64 := Vector.replicate 64 {}
  slots : Vector Slot 4 := Vector.replicate 4 {}
  rpdos : Vector Rpdo 32 := Vector.replicate 32 {}
  tpdos : Vector Tpdo 32 := Vector.replicate 32 {}
  /-- Node-ID and UDP port in effect (0x2002:01, :02). -/
  nodeId : Nat := 0x20
  udpPort : Nat := 40100
  /-- Interface objects 0x2450 and 0x2451 in force, defaults not listed (R191). -/
  iface : Od := []
  heartbeatLast : Nat := 0
  store : Option StoreOp := none
deriving DecidableEq, Repr, Inhabited

/-! ### Lintin Cell Link (chapters 9 to 11) -/

/-- Path states (0x3190:01). -/
inductive PathState where
  | disabled | failed | repairing | standby | active
deriving DecidableEq, Repr, Inhabited

/-- Cell session states (Table 10.1). -/
inductive SessState where
  | absent | discover | admitting | fawn | locked | param | armed | run | hold | resync | blocked | bypassed | fault
deriving DecidableEq, Repr, Inhabited

/-- A message of an acyclic slot (Table 11.1); KIND 0 control, 1 request, 2 response, 3 credit. -/
structure LclMsg where
  mtype : Nat
  kind : Nat := 0
  retry : Bool := false
  echo : Bool := false
  tag : Nat := 0
  epoch : Nat := 0
  grant : Nat := 0
  body : Bytes := []
  /-- BLEN as received is longer than a slot holds. -/
  overlong : Bool := false
deriving DecidableEq, Repr, Inhabited

/-- A request of the device in a session's queue or outstanding (R255 to R264). Periods count period starts. -/
structure LclReq where
  mtype : Nat
  body : Bytes
  /-- Place in the queue order of its ring (R258). -/
  ord : Nat
  tag : Nat := 0
  /-- First frame for which it was due at the head of its queue (R263). -/
  due : Option Nat := none
  first : Nat := 0
  launched : Nat := 0
  attempts : Nat := 0
  retries : Nat := 0
  /-- The last attempt failed: send again with RETRY (R261). -/
  resend : Bool := false
  /-- Cause of the last failure: 1 no response, 2 NAK_STATE. -/
  cause : Nat := 1
  /-- After a NAK_STATE: not before this period, with a new tag (R262). -/
  notBefore : Nat := 0
  /-- Periods of its timeout that a reconciliation suspended (R265). -/
  suspended : Nat := 0
deriving DecidableEq, Repr, Inhabited

/-- What an acyclic slot of a launched frame holds. -/
inductive SlotUse where
  | empty
  /-- OWNER 0x4p. -/
  | reserved (pos : Nat)
  /-- OWNER 0x0p, the message, and for a request its tag. -/
  | message (pos : Nat) (m : LclMsg)
deriving DecidableEq, Repr, Inhabited

/-- A command slot (Table 9.4). -/
structure CmdSlot where
  cmd : Nat := 0
  flags : Nat := 0
  mv : Int := 0
  phase : Nat := 0
  dab : Int := 0
  freq : Nat := 0
deriving DecidableEq, Repr, Inhabited

/-- A frame on a path: type, period, launch, what its slots were, and the cause of an invalid return. -/
structure Flight where
  ftype : Nat
  period : Nat
  launch : Nat
  frame : Bytes
  slots : List SlotUse := []
  cause : Nat := 1
  hops : Nat := 0
  /-- A copy of R220. -/
  copy : Bool := false
  /-- Its miss has been counted already (R195, R196). -/
  counted : Bool := false
  /-- It cannot return valid: discarded at a loss of sync, or lost at the pins of a scan (R157, R195). -/
  lost : Bool := false
  /-- Slots whose message was already taken. -/
  taken : List Nat := []
deriving DecidableEq, Repr, Inhabited

/-- One ring path (Table 9.10). -/
structure Path where
  state : PathState := .disabled
  sync : Bool := false
  rttRef : Nat := 0
  rttLast : Nat := 0
  ok : Nat := 0
  crc : Nat := 0
  stomped : Nat := 0
  missed : Nat := 0
  header : Nat := 0
  syncLosses : Nat := 0
  /-- Consecutive valid frames in REPAIRING, and consecutive misses in ACTIVE. -/
  okRun : Nat := 0
  missRun : Nat := 0
  /-- Causes seen since the last frame: /F/ or loss of sync. -/
  fault : Option Nat := none
  flights : List Flight := []
  /-- Delays of the last DELAY_RESULT, ps per position. -/
  delays : List Nat := []
  /-- Launch of the last valid frame. -/
  lastValid : Nat := 0
deriving DecidableEq, Repr, Inhabited

/-- The frame built at a cut-off for one ring: commands per position, slots, what its header says (BLOCK_ALL, TIME_UNCERTAIN, P,
APPLY_OFFSET), whether STANDBY frames go with it, and the positions served in the two rotations (R207, R220, R228, R258). -/
structure Build where
  period : Nat
  cmds : List CmdSlot
  slots : List SlotUse
  blockAll : Bool
  uncertain : Bool := false
  length : Nat := 0
  apply : Nat := 0
  standby : Bool := true
  served : Option Nat := none
  opened : Option Nat := none
deriving DecidableEq, Repr, Inhabited

/-- The telemetry of a copy of R220, kept until the frame on the active path has returned or missed. -/
structure CopyTlm where
  period : Nat
  launch : Nat
  slots : Bytes
deriving DecidableEq, Repr, Inhabited

/-- One ring (Tables 9.7 and 9.9). -/
structure Ring where
  /-- Started by "strt" and not stopped; `launching` once a CYCLIC frame has left (R23). -/
  started : Bool := false
  launching : Bool := false
  activePath : Nat := 0xFF
  lost : Bool := false
  /-- Cause of the last failure of the active path (Table 9.13). -/
  failCause : Nat := 0
  copy : Option CopyTlm := none
  delayValid : Bool := false
  swap : Bool := false
  switchCount : Nat := 0
  /-- Device times of failure-driven switch-overs, and the last suppressed one. -/
  switches : List Nat := []
  suppressed : Option Nat := none
  build : Option Build := none
  /-- A switch decided for the next launch: reason, SWAP_DROPPED. -/
  pendingSwitch : Option (Nat × Bool) := none
  /-- DELAY launches left of 16, periods since the last, one due in the present period, and one owed in the next. -/
  delayLeft : Nat := 0
  delaySince : Nat := 0
  delayDue : Bool := false
  delayOwed : Bool := false
  /-- A DELAY measurement in progress: its period, and the round trips once returned. -/
  delayPeriod : Option Nat := none
  delayBroken : Bool := false
  resultDue : Bool := false
  /-- Launch time of the last CYCLIC frame that returned valid (R243). -/
  lc : Nat := 0
  /-- Period of the last CYCLIC frame that returned or missed, and the last whose telemetry was taken, plus 1. -/
  lastDone : Nat := 0
  took : Nat := 0
  ord : Nat := 0
  /-- Positions last served with a waiting slot, and by slot 3. -/
  rotateWait : Nat := 15
  rotateOpen : Nat := 15
  /-- Reconciliation: period of the miss, period of the SWITCHED launch, CREDITs still to send, sessions answered, ended
  by limit, requests completed late. -/
  recon : Option (Nat × Nat) := none
  reconAnswered : Nat := 0
  reconLimit : Nat := 0
  reconLate : Nat := 0
deriving DecidableEq, Repr, Inhabited

/-- Steps of the parameter exchange (R239). -/
inductive ExStep where
  | idle | write | commit | cal | arm
deriving DecidableEq, Repr, Inhabited

/-- The transaction half of a session (chapter 11). -/
structure Txn where
  isOpen : Bool := false
  epoch : Nat := 0
  /-- Direction into the device: B and its four terms (R61, R257). -/
  pool : Nat := 0
  free : Nat := 0
  granted : Nat := 0
  inFlight : Nat := 0
  held : Nat := 0
  /-- Own cumulative GRANT, the value last carried, and the period of its change. -/
  grant : Nat := 0
  carried : Nat := 0
  changedAt : Nat := 0
  /-- The cell node's pool, its GRANT last accepted, and the new requests launched in the epoch. -/
  cellPool : Nat := 0
  peerGrant : Nat := 0
  newReqs : Nat := 0
  /-- New requests of the cell node accepted in the epoch. -/
  cellReqs : Nat := 0
  tagNext : Nat := 0
  high : Nat := 0xFF
  /-- Tags accepted, newest first, of the last 128 (R256). -/
  seen : List Nat := []
  queue : List LclReq := []
  out : List LclReq := []
  napping : List LclReq := []
  /-- Responses due (order, answered) and responses kept with their tags, newest first. -/
  respDue : List (Nat × LclMsg) := []
  kept : List (Nat × LclMsg) := []
  /-- Tags of requests completed, newest first, of the last 32. -/
  completed : List Nat := []
  creditDue : Bool := false
  creditEcho : Bool := false
  /-- A CREDIT with ECHO has left, and a slot for its answer is owed (R265). -/
  echoSent : Bool := false
  reconciling : Bool := false
  retries : Nat := 0
  failed : Nat := 0
  copies : Nat := 0
  closedEpoch : Nat := 0
  errors : Nat := 0
  kinds : Vector Nat 11 := Vector.replicate 11 0
  /-- Periods of recent partner errors, ERRANT, and kinds already recorded in this state residence. -/
  window : List Nat := []
  errant : Bool := false
  lastKind : Nat := 0
  kindsSeen : List Nat := []
deriving DecidableEq, Repr, Inhabited

/-- What the ledger is to post for a cell at the next period end (Table 13.3). -/
inductive LedgerMark where
  | counted (qIn qOut : Nat)
  | unaccounted (cause : Nat)
deriving DecidableEq, Repr, Inhabited

/-- One cell: its session (chapter 10), its telemetry and checks (chapters 9, 13, 14). -/
structure Cell where
  state : SessState := .absent
  reason : Nat := 0
  prev : Nat := 0
  since : Nat := 0
  /-- Period count at entry to the state. -/
  sincePeriod : Nat := 0
  id : Bytes := List.replicate 16 0
  calLen : Nat := 0
  calData : Bytes := []
  info : Bytes := List.replicate 8 0
  nakSent : Nat := 0
  nakReceived : Nat := 0
  nakSentSeen : Bool := false
  nakReceivedSeen : Bool := false
  admitFails : Nat := 0
  fails : Nat := 0
  backoffFrom : Option Nat := none
  holdCount : Nat := 0
  lockMaxErr : Nat := 0
  /-- LOCK_WINDOW as its admission took it (R237). -/
  lockWindow : Nat := 0
  /-- A credit breach owes RESYNC_BEGIN (R63). -/
  resyncOwed : Bool := false
  nonceC : Bytes := []
  nonceD : Bytes := []
  /-- Control messages waiting, the one launched last, and the period of CHALLENGE or ADMIT_ACCEPT (R233, R234). -/
  control : List LclMsg := []
  waitSince : Option Nat := none
  awaitAnswer : Bool := false
  lastOffer : Nat := 0
  /-- FAWN entered and not yet seen in telemetry. -/
  fawnUnseen : Bool := false
  /-- The exchange of R239: step, retries used, resends of one offset, CRCs last agreed. -/
  ex : ExStep := .idle
  exRetries : Nat := 0
  /-- Offsets resent in this residence (R264). -/
  exResends : List Nat := []
  block : Bytes := []
  paramCrc : Nat := 0
  calCrc : Nat := 0
  txn : Txn := {}
  /-- STATE differs: slots observed (R248). -/
  differ : Nat := 0
  /-- Base of TLM_SEQ: PERIOD_NO and sequence (R268). -/
  seqBase : Option (Nat × Nat) := none
  /-- Slots of the last accepted telemetry: VDC, Q_IN, Q_OUT, T_SWITCH, T_LINK. -/
  vdc : Nat := 0
  everVdc : Bool := false
  lastSlot : Option Bytes := none
  /-- Interval of the last slot accepted for R305, and its VDC in 10 mV. -/
  prevV : Option (Nat × Nat) := none
  vUsed : Nat := 0
  dq : Int := 0
  residual : Option Int := none
  checkFails : Nat := 0
  strikes : Nat := 0
  implausible : Bool := false
  faultBits : Nat := 0
  events : List (Nat × Nat) := []
  eventPending : Bool := false
  eventAck : Bool := false
  lossRun : Nat := 0
  lossSeen : Bool := false
  frozenRun : Nat := 0
  /-- Frozen slots of the run that the ledger has counted. -/
  frozenCounted : Nat := 0
  /-- p(c) of the last three frames launched, newest first (R320). -/
  pHist : List Rat := []
  mark : Option LedgerMark := none
  /-- The last command launched in its slot. -/
  cmd : CmdSlot := {}
deriving DecidableEq, Repr, Inhabited

/-- The link: rings, paths, cells and the values all rings share. -/
structure Lcl where
  rings : Vector Ring 8 := Vector.replicate 8 {}
  paths : Vector Path 16 := Vector.replicate 16 {}
  cells : Vector Cell 128 := Vector.replicate 128 {}
  /-- APPLY_OFFSET in force (R206). -/
  applyOffset : Nat := 0
  /-- BLOCK to every cell in ARMED, RUN or HOLD because SAFE was lost (R26). -/
  block : Bool := false
  /-- Frames have been launched for the period whose cut-off has passed. -/
  cutDone : Option Nat := none
deriving DecidableEq, Repr, Inhabited

/-! ### Stack controller, regulation, protection (chapters 12 to 14) -/

/-- STACK_STATE (Table 12.3). -/
inductive StackState where
  | stopped | precharge | syncing | ready | running | stopping | tripped
deriving DecidableEq, Repr, Inhabited

/-- Stack commands of R275 waiting for the frame-build cut-off. -/
inductive StackCmd where
  | strt | conn | stop
deriving DecidableEq, Repr, Inhabited

/-- A reinsertion in progress (R327). -/
structure Reinsert where
  cell : Nat
  start : Nat
  v0 : Nat
  good : Nat := 0
deriving DecidableEq, Repr, Inhabited

/-- Regulation of one interleave group (chapters 12 and 13). -/
structure StackGroup where
  integ : Rat := 0
  pMv : Rat := 0
  vTarget : Rat := 0
  /-- Samples in a row above I_TRIP, and periods in a row with the line above LINE_V_MAX. -/
  ocRun : Nat := 0
  ovRun : Nat := 0
  headroomLimited : Bool := false
  limited : Bool := false
  /-- N of the last frame built in the run. -/
  lastN : Option Nat := none
  moving : Bool := false
  /-- Short of voltage since (R325). -/
  shortSince : Option Nat := none
  /-- Highest minus lowest V(c), 10 mV. -/
  spread : Nat := 0
deriving DecidableEq, Repr, Inhabited

/-- The stack controller. -/
structure Stack where
  state : StackState := .stopped
  arr : Nat := 0x01FF
  /-- Active set, bit per cell (R276). -/
  active : Nat := 0
  cmd : Option StackCmd := none
  /-- "park": BLOCK is owed to the cells in ARMED. -/
  park : Bool := false
  /-- An internal transition due at the next cut-off: target, cause of STACK_STATE_CHANGED, failure cause and unit. -/
  due : Option (StackState × Nat × Option (Nat × Nat)) := none
  /-- The transition fixed at the last cut-off, made at the launch: target and cause. -/
  next : Option (StackState × Nat) := none
  /-- Device time of the launch that entered the state, and of period 0 of the run. -/
  since : Nat := 0
  t0 : Nat := 0
  /-- Consecutive periods in which the precharge condition held, and in which the line matched. -/
  cond : Nat := 0
  matchRun : Nat := 0
  lineMatched : Bool := false
  /-- The chain has handed over in this period (R295). -/
  handed : Bool := false
  missed : Bool := false
  missRun : Nat := 0
  misses : Nat := 0
  dabLimited : Bool := false
  /-- PLL and line (R284 to R286). -/
  locked : Bool := false
  lockRun : Nat := 0
  phaseRun : Nat := 0
  amp : Rat := 0
  theta : Rat := 0
  freq : Rat := 0
  phaseErr : Rat := 0
  /-- v_ab and v_bc of the last sample (R284), and the integral term of the PLL in Hz. -/
  vab : Rat := 0
  vbc : Rat := 0
  pllInteg : Rat := 0
  lineSamples : List Rat := []
  lineV : Rat := 0
  busV : Rat := 0
  /-- P_BUS and P_AXES. -/
  pBus : Rat := 0
  pAxes : Rat := 0
  /-- Acceptance of "stop" and P_bus then (R299); the yield of R338 is recorded. -/
  stopFrom : Nat := 0
  stopP : Rat := 0
  stopYield : Bool := false
  groups : Vector StackGroup 4 := Vector.replicate 4 {}
  power : Vector Rat 128 := Vector.replicate 128 0
  share : Vector Rat 128 := Vector.replicate 128 0
  qPred : Vector Rat 128 := Vector.replicate 128 0
  offsets : Vector Nat 128 := Vector.replicate 128 0
  zvs : Nat := 0
  guards : Nat := 0
  /-- Slots of the last frame built, cells 0 to 127 (0x3030:09). -/
  commands : Vector CmdSlot 128 := Vector.replicate 128 {}
  reinserting : List Reinsert := []
  /-- BYPASS owed at the next launch: cell, trigger, fault bit. -/
  bypass : List (Nat × Nat × Nat) := []
  /-- Writes to arrangement objects accepted after a "strt": they serve from the next one (R272). Index, subindex, value; oldest first. -/
  later : List (Nat × Nat × Bytes) := []
deriving DecidableEq, Repr, Inhabited

/-- Stack protection (chapter 14). -/
structure Prot where
  /-- TRIP_REQUESTERS (R330) and TRIP_CAUSES (Table 14.2). -/
  requesters : Nat := 0
  causes : Nat := 0
  /-- TRIP_TIME. -/
  time : Nat := 0
  firstFault : Nat := 0xFFFFFFFF
  count : Nat := 0
  lineLostAt : Option Nat := none
  exportForced : Bool := false
  exportCapacity : Rat := 0
  exportDemand : Rat := 0
deriving DecidableEq, Repr, Inhabited

/-! ### Ledger (chapter 3) -/

/-- One Rowan account (Table 3.6) with its open unaccounted interval: start, cause, length so far, whole seconds recorded. -/
structure Account where
  qIn : Nat := 0
  qOut : Nat := 0
  counted : Nat := 0
  unaccounted : Nat := 0
  intervals : Nat := 0
  unknown : Bool := false
  opened : Nat := 0
  gap : Option (Nat × Nat × Nat × Nat) := none
  /-- Whether each of the last 255 periods was counted, newest first (R320). -/
  recent : List Bool := []
deriving DecidableEq, Repr, Inhabited

/-- A checkpoint (R75): store counter, validity, period end, accounts, and what R76 needs of that period end: the RTC stamp,
and how often the RTC and the timebase had been interrupted. -/
structure Checkpoint where
  counter : Nat := 0
  valid : Bool := false
  periodEnd : Nat := 0
  rtc : Nat := 0
  rtcBreaks : Nat := 0
  dtBreaks : Nat := 0
  accounts : Vector Account 133 := Vector.replicate 133 {}
deriving DecidableEq, Repr, Inhabited

/-- How the ledger takes up its work at the first period it processes (R75, R76, R78). -/
inductive LedgerResume where
  /-- It runs. -/
  | no
  /-- The time since the last period is one interval: of cause 0x03 where CTRL was away, of cause 0x01 where CTRL stayed ON and the
  timebase stopped. -/
  | away (cause : Nat)
  /-- No valid checkpoint: the accounts open. -/
  | fresh
deriving DecidableEq, Repr, Inhabited

/-- The ledger in CTRL. -/
structure Ledger where
  accounts : Vector Account 133 := Vector.replicate 133 {}
  /-- End of the last period processed, and the RTC stamp and interruptions then. -/
  last : Nat := 0
  lastRtc : Nat := 0
  lastRtcBreaks : Nat := 0
  lastDtBreaks : Nat := 0
  resume : LedgerResume := .fresh
  /-- Start of the checkpoint interval, checkpoint being written and its slot, LAST_CHECKPOINT. -/
  timer : Nat := 0
  writing : Option (Checkpoint × Nat) := none
  lastCheckpoint : Nat := 0
  /-- Bus account: charge of the present period by sign, in µC, with its remainders; last sample time (R307). -/
  busIn : Rat := 0
  busOut : Rat := 0
  busAt : Option Nat := none
deriving DecidableEq, Repr, Inhabited

/-! ### Control engine (chapter 15): raw Q4.27 values as integers -/

/-- States of an instance (0x2810:02). -/
inductive CeState where
  | disabled | running | predicting | hold
deriving DecidableEq, Repr, Inhabited

/-- What takes effect at the next trigger (R359). -/
inductive CePending where
  | enab | rset | rsum
deriving DecidableEq, Repr, Inhabited

/-- Run state of one measurement (R347, R355, R356). -/
structure CeMeas where
  /-- Last value taken. -/
  value : Int := 0
  /-- Written or handed over since the last trigger, the value (kinds 0x02 and 0x03), and the cut-off of a handover. -/
  arrived : Option Int := none
  arrivedAt : Nat := 0
  /-- Fresh in the sample being processed. -/
  fresh : Bool := false
  /-- Last fresh value, and ŷ of the samples in a row fresh and identical to it, newest first, at most FROZEN_COUNT of them. -/
  last : Option Int := none
  yhats : List Int := []
  frozen : Bool := false
deriving DecidableEq, Repr, Inhabited

/-- One instance (R341 to R361). -/
structure CeInst where
  state : CeState := .disabled
  pending : Option CePending := none
  /-- The active bank, the bank of the computation in progress, and a commit waiting: bank and COMMIT_MODE. -/
  bank : Bytes := []
  work : Bytes := []
  commit : Option (Bytes × Nat) := none
  xbar : List Int := []
  xhat : List Int := []
  meas : Vector CeMeas 12 := Vector.replicate 12 {}
  /-- Measurement vector handed over by the stack controller (role instances). -/
  role : List Int := []
  roleReady : Bool := false
  uOut : Vector Int 6 := Vector.replicate 6 0
  y : List Int := []
  u : List Int := []
  clampHit : Bool := false
  /-- Trigger instant of the sample, its cut-off while it is still to come. -/
  trig : Option Nat := none
  cut : Option Nat := none
  /-- A sample waits for its computation, its freshness has been judged, the computation is complete. -/
  sampled : Bool := false
  judged : Bool := false
  done : Bool := false
  resumed : Bool := false
  /-- The cut-off passed before the computation was complete. -/
  late : Bool := false
  /-- DEADLINE_MISS in the last sample. -/
  miss : Bool := false
  flags : Nat := 0
  misses : Nat := 0
  skipped : Nat := 0
  predicted : Nat := 0
  missRun : Nat := 0
  skipRun : Nat := 0
  predictRun : Nat := 0
  /-- "disa" owes SAFE_OUT at the next cut-off. -/
  safeOwed : Bool := false
deriving DecidableEq, Repr, Inhabited

/-- The engine. -/
structure Engine where
  inst : Vector CeInst 16 := Vector.replicate 16 {}
  missTotal : Nat := 0
deriving DecidableEq, Repr, Inhabited

/-! ### Measurement (chapter 16) -/

/-- Latest result of a sequence entry: value, hold instant of its first sample, and the trigger instant of its sequence. -/
structure AdcEntry where
  value : Nat := 0
  time : Nat := 0
  trig : Option Nat := none
deriving DecidableEq, Repr, Inhabited

/-- Calibration states (0x2620:01). -/
inductive CalState where
  | none | calibrated | persisted | calibrating | failed
deriving DecidableEq, Repr, Inhabited

/-- A sequence in progress: trigger instant, first hold, next entry to complete, holds of the entries (R366). -/
structure AdcRun where
  trig : Nat
  first : Nat
  entry : Nat := 0
deriving DecidableEq, Repr, Inhabited

/-- One converter (R363 to R374). -/
structure Adc where
  entries : Vector AdcEntry 16 := Vector.replicate 16 {}
  run : Option AdcRun := none
  /-- Last trigger instant taken or skipped, and completion of the last sequence. -/
  lastTrig : Option Nat := none
  completion : Option Nat := none
  seqCount : Nat := 0
  seqTime : Nat := 0
  times : List Nat := []
  overruns : Nat := 0
  skipRun : Nat := 0
  flags : Nat := 0
  cal : CalState := .none
  /-- Start of the calibration in progress. -/
  calFrom : Nat := 0
deriving DecidableEq, Repr, Inhabited

/-- One comparator (R375 to R378): end of the settle hold, last CMP_WINDOW record, changes not recorded since. -/
structure Cmp where
  settle : Option Nat := none
  lastRecord : Option Nat := none
  unrecorded : Nat := 0
deriving DecidableEq, Repr, Inhabited

/-- One temperature sensor (R379, R380): last reading, healthy, consecutive cycles out of range or deviating. -/
structure Sensor where
  reading : Int := 0
  healthy : Bool := true
  bad : Nat := 0
deriving DecidableEq, Repr, Inhabited

/-- Thermal supervision of a die (R381 to R383). -/
structure Die where
  temp : Int := 0
  /-- Consecutive cycles at or above 165.0 °C. -/
  hot : Nat := 0
  latched : Bool := false
  /-- All healthy sensors at or below 145.0 °C since (device time); the declaration in AON time (AMS die). -/
  coolSince : Option Nat := none
  declared : Nat := 0
  /-- Domains that the shutdown took OFF. -/
  taken : List Domain := []
  disagree : Bool := false
deriving DecidableEq, Repr, Inhabited

/-- MEAS. -/
structure Meas where
  adcs : Vector Adc 8 := Vector.replicate 8 {}
  /-- The calibration in progress was the boot calibration of R121; converters calibrated and failed so far. -/
  calBoot : Bool := false
  cmpOut : Nat := 0
  cmps : Vector Cmp 32 := Vector.replicate 32 {}
  sensors : Vector Sensor 12 := Vector.replicate 12 {}
  dies : Vector Die 3 := Vector.replicate 3 {}
  lastCycle : Nat := 0
deriving DecidableEq, Repr, Inhabited


/-! ### Acquisition, streams, PCIe (chapter 17) -/

/-- What a capture channel holds: its latest result and, of its interval, the least and greatest (R388). -/
structure ChanAcc where
  last : Int := 0
  lo : Option Int := none
  hi : Option Int := none
deriving DecidableEq, Repr, Inhabited

/-- A capture that waits for the gate (R390): its number, instant, STALE, values, and the TRIG_COUNT of its mark. -/
structure WaitCap where
  no : Nat
  time : Nat
  stale : Bool
  values : Bytes
  mark : Option Nat := none
deriving DecidableEq, Repr, Inhabited

/-- A capture set (R386 to R390). -/
structure CaptureSet where
  t0 : Nat := 0
  /-- Index j of the next capture. -/
  j : Nat := 0
  chans : List ChanAcc := []
  /-- LAST values at the previous capture. -/
  prev : Option (List Int) := none
  armed : Bool := false
  /-- Captures still to be ignored after a trigger. -/
  holdoff : Nat := 0
  count : Nat := 0
  no : Nat := 0
  lastEvent : Option Nat := none
  waiting : List WaitCap := []
  /-- Captures still to be streamed after a trigger. -/
  post : Nat := 0
deriving DecidableEq, Repr, Inhabited

/-- A record in staging: type, TIME and bytes. -/
structure Staged where
  rtype : Nat
  time : Nat
  bytes : Bytes
deriving DecidableEq, Repr, Inhabited

/-- A gap in progress (R393). -/
structure Gap where
  time : Nat
  lost : Nat := 0
  first : Nat
  last : Nat
  triggers : Nat := 0
  cause : Nat := 1
deriving DecidableEq, Repr, Inhabited

/-- A fetched descriptor that is not completed (Table 17.8). -/
structure Descriptor where
  index : Nat
  addr : Nat
  len : Nat
deriving DecidableEq, Repr, Inhabited

/-- The buffer being filled: bytes written, instant of its oldest record, TIME of its last record, CFLAGS so far. -/
structure Fill where
  written : Nat := 0
  oldest : Nat := 0
  lastTime : Nat := 0
  flags : Nat := 0
deriving DecidableEq, Repr, Inhabited

/-- A DMA stream: its registers (Table 17.7), descriptors, staging and counts. -/
structure Stream where
  enabled : Bool := false
  ringBase : Nat := 0
  ringSize : Nat := 0
  tail : Nat := 0
  posted : Nat := 0
  fetched : Nat := 0
  completed : Nat := 0
  irqCount : Nat := 1
  irqTime : Nat := 0
  ignored : Nat := 0
  ignoredNoted : Bool := false
  /-- The link was down (R396): descriptors abandoned, until the restart. -/
  down : Bool := false
  abandoned : Option Nat := none
  paused : Bool := false
  held : List Descriptor := []
  /-- Descriptors completed since the enabling, newest first, at most RING_SIZE of them: what a breach of R66 is found by. -/
  ended : List Nat := []
  /-- Descriptor reads issued and not completed (Table 17.5). -/
  reading : Nat := 0
  fill : Option Fill := none
  staging : List Staged := []
  gap : Option Gap := none
  /-- Completions not yet signalled, and the instant of the first of them. -/
  unsignalled : Nat := 0
  signalFrom : Option Nat := none
  rateWorst : Nat := 0
  gaps : Nat := 0
  lost : Nat := 0
  bad : Nat := 0
  rseq : Nat := 0
  total : Nat := 0
  /-- The next event number an event stream looks at. -/
  nextSeq : Nat := 0
deriving DecidableEq, Repr, Inhabited

/-- A host access to the BARs: a TAIL register, another stream register, TIME_LO, a mailbox slot passed over, a vector unmasked. -/
inductive BarAccess where
  | tail (stream : Nat) (value : Nat)
  | register (stream offset value : Nat)
  | timeLo
  | mailbox (slot msgLen : Nat) (message : Bytes)
  | unmask (vector : Nat)
deriving DecidableEq, Repr, Inhabited

/-- The PCIe endpoint. -/
structure Pcie where
  /-- Accesses that wait for NET to reach ON, in the order of their arrival (R139). -/
  parked : List BarAccess := []
  /-- PCIE_PERST_N is asserted. -/
  perst : Bool := true
  up : Bool := false
  speed : Nat := 0
  width : Nat := 0
  busMaster : Bool := false
  memory : Bool := false
  d3hot : Bool := false
  bar : Nat := 0
  timeHi : Nat := 0
  /-- MSI-X vectors masked, and pending. -/
  masked : Nat := 0xFFFFFFFFF
  pending : Nat := 0
deriving DecidableEq, Repr, Inhabited

/-- Acquisition and streaming. -/
structure Acq where
  sets : Vector CaptureSet 4 := Vector.replicate 4 {}
  streams : Vector Stream 32 := Vector.replicate 32 {}
  pcie : Pcie := {}
deriving DecidableEq, Repr, Inhabited
/-! ### PWM generator and Pronghorn (chapter 18) -/

/-- The function that writes a pair's values (R408). -/
inductive PairOwner where
  | host
  | axis (n : Nat)
  | chopper
deriving DecidableEq, Repr, Inhabited

/-- A set of PWM values, each present where it was written: PERIOD in ticks, edges in 1/16 tick (R410, R416). -/
structure PwmSet where
  period : Option Nat := none
  riseH : Option Nat := none
  fallH : Option Nat := none
  riseL : Option Nat := none
  fallL : Option Nat := none
deriving DecidableEq, Repr, Inhabited

/-- Values in force. -/
structure PwmVals where
  period : Nat := 0
  riseH : Nat := 0
  fallH : Nat := 0
  riseL : Nat := 0
  fallL : Nat := 0
deriving DecidableEq, Repr, Inhabited

/-- One output pulse: on from `on` (inclusive) to `off` (exclusive), in device time. -/
structure Pulse where
  high : Bool
  on : Nat
  off : Nat
deriving DecidableEq, Repr, Inhabited

/-- One PWM pair (R408 to R419). -/
structure Pair where
  enabled : Bool := false
  active : Bool := false
  owner : PairOwner := .host
  /-- Start of the present period, and of the next where it is known: a follower's is set by its master (R409). -/
  start : Nat := 0
  next : Option Nat := none
  /-- Periods since the enable. -/
  j : Nat := 0
  force : PwmVals := {}
  shadow : PwmVals := { period := 20000 }
  dirty : PwmSet := {}
  /-- Commit sets with the device time at which each was complete, oldest first. -/
  sets : List (Nat × PwmSet) := []
  /-- Values taken at a cut-off that wait for the period start, and the start whose cut-off has passed. -/
  fixed : PwmSet := {}
  cutDone : Option Nat := none
  /-- A partial set held under GUARD 0x01. -/
  heldSet : Option PwmSet := none
  flags : Nat := 0
  /-- The outputs follow the edges: false from a forcing until the resume of R428. -/
  live : Bool := false
  /-- Earliest instant of a resume under R428. -/
  resumeFrom : Nat := 0
  /-- Command of the complementary pair at the end of the period (true: high). -/
  cmdHigh : Option Bool := none
  /-- Turn-on instants of output pulses whose turn-off is not yet taken. -/
  openH : Option Nat := none
  openL : Option Nat := none
  /-- Earliest next turn-on of each output after a stretched pulse of the other (R414). -/
  notBeforeH : Nat := 0
  notBeforeL : Nat := 0
  pulses : List Pulse := []
  /-- Start of a run in which the interlock holds both outputs off (R413). -/
  shootFrom : Option Nat := none
  /-- Periods since one with a low on-time of REFRESH_WIDTH, and a refresh owed to a resume (R434, R440). -/
  sinceRefresh : Nat := 0
  refreshOwed : Bool := false
deriving DecidableEq, Repr, Inhabited

/-- Per-channel counts of R414 and R430. -/
structure Channel where
  filtered : Nat := 0
  lastRecord : Option Nat := none
  unrecorded : Nat := 0
deriving DecidableEq, Repr, Inhabited

/-- One Pronghorn output group (R422 to R428). -/
structure Group where
  forced : Bool := false
  /-- FIRST_SOURCE: 0x80 SAFE not ON, 0x81 VIO33 lost, 0xFF none. -/
  first : Nat := 0xFF
  time : Nat := 0
  count : Nat := 0
  /-- The on channels of SAFE_STATE 0x01 or 0x02 are held on (ASC_DELAY has passed). -/
  ascOn : Bool := false
  /-- Source 55 took part in this latch (R427). -/
  island : Bool := false
  /-- Device time since which every source of the map has been low. -/
  lowSince : Option Nat := none
  /-- Device times of automatic releases. -/
  autos : List Nat := []
  exhausted : Bool := false
deriving DecidableEq, Repr, Inhabited

/-- Pairs, channels, sources and groups. -/
structure Pwm where
  pairs : Vector Pair 20 := Vector.replicate 20 {}
  chans : Vector Channel 40 := Vector.replicate 40 {}
  groups : Vector Group 10 := Vector.replicate 10 {}
  /-- Levels of FLT_IN0 to FLT_IN15 after their filters. -/
  fltLevels : Nat := 0xFFFF
  /-- Sources raised when last evaluated. -/
  raised : Nat := 0
deriving DecidableEq, Repr, Inhabited

/-! ### Pre-drivers (chapter 19) -/

/-- States of Table 19.3. -/
inductive BridgeState where
  | off | run | retryWait | lockout | selfTest | supplyHold
deriving DecidableEq, Repr, Inhabited

/-- One half-bridge (R431 to R445). -/
structure Bridge where
  state : BridgeState := .off
  flags : Nat := 0
  /-- Times at which retries were consumed (RETRY_WINDOW). -/
  retries : List Nat := []
  lastFault : Nat := 0
  faultCount : Nat := 0
  refreshCount : Nat := 0
  selfTest : Nat := 0
  /-- Instant and kind of the fault behind RETRY_WAIT. -/
  faultTime : Nat := 0
  faultKind : Nat := 0
  /-- SUPPLY_HOLD was entered from LOCKOUT (R443). -/
  wasLockout : Bool := false
  /-- A resume is owed: first period start at or after this instant. -/
  resumeFrom : Option Nat := none
  /-- Since when both inputs command on and the HV die's interlock holds both outputs off (R433). -/
  shootFrom : Option Nat := none
deriving DecidableEq, Repr, Inhabited

/-! ### Axes, chopper, ladder (chapter 20) -/

/-- States of Table 20.1. -/
inductive AxisState where
  | disabled | starting | running | decel | asc | blocked | recatch | fault
deriving DecidableEq, Repr, Inhabited

/-- The axis inhibit (R449). -/
inductive Inhibit where
  | none | block | short
deriving DecidableEq, Repr, Inhabited

/-- Steps of a start attempt (R456). -/
inductive StartPhase where
  /-- Polarity: loop samples since the attempt began. -/
  | polarity (samples : Nat)
  /-- Torque: mechanical angle at the start in turns, device time of the first torque. -/
  | torque (theta0 : Rat) (first : Option Nat)
  /-- The 50 ms block after a failed attempt, and its start. -/
  | wait (since : Nat)
deriving DecidableEq, Repr, Inhabited

/-- One axis engine (R447 to R461). -/
structure Axis where
  state : AxisState := .disabled
  inhibit : Inhibit := .none
  /-- Instant of the inhibit, and its low channels held on after ASC_DELAY. -/
  inhibitAt : Nat := 0
  cause : Nat := 0
  flags : Nat := 0
  /-- Device time of entry to the state. -/
  since : Nat := 0
  /-- Last sample: currents, applied voltages, angle in turns, speeds. -/
  iD : Rat := 0
  iQ : Rat := 0
  intD : Rat := 0
  intQ : Rat := 0
  theta : Rat := 0
  thetaMech : Rat := 0
  speed : Rat := 0
  torqueEst : Rat := 0
  pElec : Rat := 0
  torqueReq : Rat := 0
  regenAllowed : Rat := 0
  vLim : Rat := 0
  omegaObs : Rat := 0
  misses : Nat := 0
  missRun : Nat := 0
  regenRun : Bool := false
  overRun : Bool := false
  start : StartPhase := .polarity 0
  attempts : Nat := 0
  rollback : Rat := 0
  /-- Inductances measured in the two polarity cycles. -/
  lPlus : Rat := 0
  lMinus : Rat := 0
  implausible : Nat := 0
  plausible : Nat := 0
  /-- Speed of the last plausible sample (R458). -/
  goodSpeed : Rat := 0
  /-- Device times of re-catch attempts (R459). -/
  recatches : List Nat := []
  /-- The torque reference rises from this instant over 10 ms after a re-catch. -/
  rampFrom : Option Nat := none
  /-- |SPEED| at or below STOP_SPEED since (R460). -/
  slowSince : Option Nat := none
  /-- Held by the ladder's hard action, by STO, by a forcing. -/
  hardHeld : Bool := false
  stoHeld : Bool := false
  forcedHeld : Bool := false
  /-- RECATCH_DELAY runs from here. -/
  delayFrom : Option Nat := none
  /-- SS1 request line of the island. -/
  ss1Line : Bool := false
  /-- P_ELEC samples of the present stack control period: sum and count; mean of the last one (R461). -/
  pSum : Rat := 0
  pCount : Nat := 0
  pMean : Rat := 0
deriving DecidableEq, Repr, Inhabited

/-- States of a chopper leg (0x4600:02). -/
inductive LegState where
  | off | ready | fault
deriving DecidableEq, Repr, Inhabited

/-- One chopper leg (R462, R463). -/
structure Leg where
  state : LegState := .off
  openRun : Nat := 0
  highRun : Nat := 0
  duty : Rat := 0
  pSum : Rat := 0
  pCount : Nat := 0
  pMean : Rat := 0
deriving DecidableEq, Repr, Inhabited

/-- The chopper and the bus-overvoltage ladder (R462 to R468). -/
structure Ladder where
  enabled : Bool := false
  legs : Vector Leg 2 := Vector.replicate 2 {}
  step : Nat := 0
  regenLimit : Rat := 0
  busV : Rat := 0
  /-- Consecutive results at or above V_HARD. -/
  hardRun : Nat := 0
  lastResult : Nat := 0
  stale : Bool := false
  mech : Bool := false
  /-- Since when no request condition has held. -/
  mechClear : Option Nat := none
  exportDemand : Rat := 0
deriving DecidableEq, Repr, Inhabited

/-! ### Safety island (chapter 21) -/

/-- SAFE_STATE (0x5000:01). -/
inductive IslandState where
  | selftest | failed | notConfirmed | operational
deriving DecidableEq, Repr, Inhabited

/-- States of an STO pair (R474). -/
inductive StoState where
  | off | permit | fault
deriving DecidableEq, Repr, Inhabited

/-- States of a safety connection (R482). -/
inductive ConnState where
  | disabled | waiting | run | fault
deriving DecidableEq, Repr, Inhabited

/-- One output of an STO pair and its read-back (R475, R477). -/
structure StoOut where
  level : Bool := false
  changed : Nat := 0
  unequal : Nat := 0
  /-- A test pulse: its start and, once over, its end. -/
  pulse : Option (Nat × Option Nat) := none
  /-- Test pulses begun since the entry to PERIOD `t_r`. -/
  pulses : Nat := 0
deriving DecidableEq, Repr, Inhabited

/-- One STO pair. -/
structure StoPair where
  state : StoState := .off
  causes : Nat := 0x1000
  a : StoOut := {}
  b : StoOut := {}
  permitAt : Nat := 0
  passed : Nat := 0
  discarded : Nat := 0
  lastFault : Nat := 0
  /-- Instant and cause of the last demand (R488). -/
  demand : Option (Nat × Nat) := none
deriving DecidableEq, Repr, Inhabited

/-- Speed monitor and SS1 of one axis (R484, R485). -/
structure SpeedMon where
  speed : Rat := 0
  valid : Bool := false
  current : Rat := 0
  lastPhi : Option Rat := none
  /-- Last valid speed and its instant. -/
  lastValid : Option (Nat × Rat) := none
  /-- SS1 running: start and reference speed. -/
  ss1 : Option (Nat × Option Rat) := none
deriving DecidableEq, Repr, Inhabited

/-- A copy held for comparison: network (true Ethernet), arrival, sender's MAC address, bytes (R481). -/
structure HeldCopy where
  eth : Bool
  at_ : Nat
  mac : Bytes
  pdu : Bytes
deriving DecidableEq, Repr, Inhabited

/-- One safety connection. -/
structure Conn where
  state : ConnState := .disabled
  lastSeq : Nat := 0
  held : List HeldCopy := []
  lone : Nat := 0
  crcErrors : Nat := 0
  stale : Nat := 0
  /-- COMMAND of the last accepted pair, where there is one. -/
  command : Option Nat := none
  lastAccept : Nat := 0
  /-- Cause of the present FAULT (0x04 or 0x05). -/
  faultCause : Nat := 0
  /-- A status PDU is owed: the SEQ to echo and the Ethernet address to answer (R483). -/
  statusDue : Option (Nat × Bytes) := none
deriving DecidableEq, Repr, Inhabited

/-- The safety island in SAFE. -/
structure Island where
  state : IslandState := .selftest
  result : Nat := 0
  ccv : Nat := 0
  pairs : Vector StoPair 4 := Vector.replicate 4 {}
  speed : Vector SpeedMon 4 := Vector.replicate 4 {}
  conns : Vector Conn 32 := Vector.replicate 32 {}
  /-- AON time at which the running window of R21 began. -/
  windowAt : Nat := 0
  /-- Device-wide held causes 0x08 (with windows still to pass), 0x09, 0x0A, 0x0B, 0x0C. -/
  timebaseHold : Nat := 0
  debugHold : Bool := false
  scanHold : Bool := false
  vio33Hold : Bool := false
  failHold : Bool := false
  /-- CCV_COMPUTED equalled CCV_CONFIRMED when CCV_STATE was last judged (R490). -/
  ccvSame : Bool := false
deriving DecidableEq, Repr, Inhabited

/-! ### Device time, synthesisers, network time (chapter 8) -/

/-- A phase detector: what it reports, and the comparisons in a row within ±0.5 ns and beyond ±2 ns (R171). -/
structure Detector where
  locked : Bool := false
  good : Nat := 0
  bad : Nat := 0
deriving DecidableEq, Repr, Inhabited

/-- Supervision of one synthesiser (R171 to R174, R93). -/
structure Synth where
  declared : Bool := false
  /-- The detector of R171. -/
  det : Detector := {}
  /-- Pin voltage last given, mV, and the ms of AON time it was given in; measured time constant, µs. -/
  mv : Nat := 0
  mvAt : Nat := 0
  tau : Nat := 0
  /-- The lock-filter check of this power-on of MEAS is over; it marked the synthesiser as not locked. -/
  checked : Bool := false
  marked : Bool := false
  losses : Nat := 0
deriving DecidableEq, Repr, Inhabited

/-- A running profile: number, segment, periods done in the segment, f_a (R179); the last segment is over. -/
structure Profile where
  n : Nat := 0
  seg : Nat := 0
  j : Nat := 0
  fa : Nat := 0
  done : Bool := false
deriving DecidableEq, Repr, Inhabited

/-- The carrier of one period (R177 to R180): index k of the run, ramp(k), f(k), the apply instant f(k) holds from, CAS cycles
sampled there, the sample and frequency of the period before (R288), and CAS cycles counted up to a device time. -/
structure Carrier where
  k : Nat := 0
  ramp : Nat := 0
  freq : Nat := 0
  apply : Nat := 0
  sample : Rat := 0
  prevSample : Rat := 0
  prevFreq : Nat := 0
  cycles : Rat := 0
  upTo : Nat := 0
  profile : Option Profile := none
deriving DecidableEq, Repr, Inhabited

/-- What an Announce says of a grandmaster, in the order of the data set comparison, with its sender (R190). -/
structure Master where
  parent : Nat := 0
  gm : Nat := 0
  priority1 : Nat := 0
  clockClass : Nat := 0
  accuracy : Nat := 0
  variance : Nat := 0
  priority2 : Nat := 0
  steps : Nat := 0
  utcOffset : Int := 0
  logAnnounce : Int := 0
  logSync : Int := 0
  /-- Device time of the last Announce and the last Sync. -/
  announceAt : Nat := 0
  syncAt : Nat := 0
  /-- A Sync of this master has been accepted. -/
  synced : Bool := false
deriving DecidableEq, Repr, Inhabited

/-- A two-step Sync waiting for its Follow_Up, and the values of the last Sync: t1, t2 in ns, correction. -/
structure SyncTimes where
  seq : Nat := 0
  t2 : Rat := 0
  correction : Rat := 0
deriving DecidableEq, Repr, Inhabited

/-- Time: synthesisers, carrier, servo, PTP port, MACs. -/
structure Time where
  tb : Synth := {}
  cas : Synth := {}
  uncertain : Bool := false
  timeLocked : Bool := false
  tai : Bool := false
  holdover : Bool := false
  backwardRefused : Bool := false
  stepDeferred : Bool := false
  /-- Grandmaster that device time was last aligned to. -/
  alignedTo : Option Nat := none
  stepNow : Bool := false
  pending : Nat := 0
  /-- RATE_APPLIED, the called-for rate (ppt), the instant of the last step of a slew in progress, integ (ppb). -/
  rate : Int := 0
  rateTarget : Int := 0
  rateAt : Nat := 0
  integ : Rat := 0
  lockRun : Nat := 0
  master : Option Master := none
  lastGm : Nat := 0
  offset : Rat := 0
  pathDelay : Rat := 0
  syncCount : Nat := 0
  /-- A two-step Sync waiting for its Follow_Up; origin minus receipt of the last Sync (t2 − t1 − correction). -/
  twoStep : Option SyncTimes := none
  lastDiff : Option Rat := none
  updateAt : Option Nat := none
  /-- Last Delay_Req or Pdelay_Req: sequence number and transmit time in ns. -/
  delaySeq : Nat := 0
  delaySent : Option Rat := none
  delayAt : Nat := 0
  /-- Link of each MAC. -/
  links : Nat := 0
  /-- ARP table: MAC port, IPv4 address, MAC address. -/
  arp : List (Nat × Nat × Nat) := []
  /-- BLOCK is owed because CASLOCK was lost while a stack ran (R174). -/
  casBlock : Bool := false
  /-- A run of the carrier: the carrier of the present period and of the next, once its cut-off has passed. -/
  carrier : Option Carrier := none
  next : Option Carrier := none
  /-- Profile events due at the next period start. -/
  notes : List (Nat × Bytes) := []
  /-- PROFILE_RUN waiting for the next cut-off: a profile, or the hold. -/
  want : Option (Option Nat) := none
  /-- PROFILE_RUN as it reads. -/
  profileRun : Nat := 0xFF
  /-- Last device time SEC received in the previous time base, and the RTC stamp of its end (R78). -/
  prevEnd : Option Nat := none
  prevRtc : Nat := 0
  hadBase : Bool := false
deriving DecidableEq, Repr, Inhabited

/-- The schedule of period starts (R175). -/
structure Sched where
  running : Bool := false
  origin : Nat := 0
  /-- Period starts so far (PERIOD_COUNT + 1, R175) and the index since the origin of the next start. -/
  count : Nat := 0
  j : Nat := 0
  /-- Device time of the latest period start. -/
  last : Nat := 0
deriving DecidableEq, Repr, Inhabited


/-! ### Supplies, reset, boot, domains, wake (chapters 4 to 6) -/

/-- One power domain: its state; for a TRANSITION the state left, the target and the cause (R126, Table 6.8); AON time of
the last change; since when it has been idle (R134). -/
structure DomainCtl where
  state : DomState := .off
  left : DomState := .off
  target : DomState := .off
  cause : Nat := 0
  since : Nat := 0
  idle : Option Nat := none
deriving DecidableEq, Repr, Inhabited

/-- The rails by their identifier in Table 4.5: in range; lost by a confirmed loss; those that rose early with the rail each
must follow (R98); AON time since which VDRV has been in range. -/
structure Rails where
  ok : Vector Bool 9 := Vector.replicate 9 false
  lost : Vector Bool 9 := Vector.replicate 9 false
  early : List (Nat × Nat) := []
  vdrvSince : Nat := 0
deriving DecidableEq, Repr, Inhabited

/-- Scope of a reset (Table 5.1). -/
inductive ResetScope where
  | none | warm | whole
deriving DecidableEq, Repr, Inhabited

/-- The reset supervisor and its record (R104 to R112). -/
structure ResetCtl where
  scope : ResetScope := .none
  /-- The pins as accepted: held low. -/
  porst : Bool := false
  resetN : Bool := false
  /-- RESET_N keeps the device in reset. -/
  byPin : Bool := false
  /-- A reset without a pin is not over before this instant; it also waits for both core rails. -/
  pinless : Option Nat := none
  /-- Causes accepted during the present or last reset, bit (code − 1). -/
  causes : Nat := 0
  cause : Nat := 0
  prev : Nat := 0
  count : Nat := 0
  time : Nat := 0
  stuck : Bool := false
  masked : Bool := false
  /-- AON time of the last accepted change of RESET_N; RESET_N_LIMIT has been acted on in this low. -/
  pinSince : Nat := 0
  limitDone : Bool := false
  supEn : Bool := false
  /-- RST_OUT_N is high. -/
  rstOut : Bool := false
  /-- SEC has been ON since VAON rose. -/
  secSeen : Bool := false
  /-- RTC_ENABLE has taken its persisted value since VAON rose (R142). -/
  rtcLoaded : Bool := false
deriving DecidableEq, Repr, Inhabited

/-- The sequence in progress: boot (R118) or wake (R136). -/
structure SeqCtl where
  boot : Bool
  todo : List Domain
  /-- Every domain of the sequence so far. -/
  mask : Nat
  /-- Domains whose place in the boot order has been passed. -/
  passed : Nat := 0
  /-- A boot sequence has taken up BOOT_DOMAINS (after its step for SEC); the sequence waits for the switched rails. -/
  taken : Bool := true
  waitRails : Bool := false
  current : Option Domain := none
  requested : Nat := 0
deriving DecidableEq, Repr, Inhabited

/-- A group request in progress (R132, R133). -/
structure GroupCtl where
  retention : Bool
  mask : Nat
  todo : List Domain
  current : Option Domain := none
  done : Nat := 0
deriving DecidableEq, Repr, Inhabited

/-- The AON sequencer, the boot state and the wake record. -/
structure Aon where
  reset : ResetCtl := {}
  seq : Option SeqCtl := none
  group : Option GroupCtl := none
  groupStatus : Nat := 0
  /-- "From" point of R124, BOOT_TIME, READY_FOR_STACK, the boot calibration ran despite BOOT_ADC_CAL, BOOT_COMPLETE. -/
  bootFrom : Option Nat := none
  bootTime : Nat := 0xFFFFFFFF
  ready : Bool := false
  calForced : Bool := false
  /-- The boot calibration of this power-on of MEAS has been decided (R121). -/
  calChecked : Bool := false
  /-- MEAS or SAFE came up with defaults because no persisted values could be had (R38). -/
  late : List Domain := []
  /-- Persisted values of MEAS and SAFE kept by AON, where valid (R38). -/
  shadow : Option Od := none
  /-- The values of the shadow came from a configuration bank. -/
  shadowBank : Bool := false
  wakeSources : Nat := 0
  wakeTime : Nat := 0
  wakeFlags : Nat := 0
  wakeCount : Nat := 0
  /-- AON time of the last accepted wake. -/
  wakeAt : Option Nat := none
  /-- Conditions of the wake sources 5 to 10 that hold. -/
  wakePending : Nat := 0
  /-- Levels of WAKE0 to WAKE3 and voltage of TRL_DET in mV, as the filter passed them (R135). -/
  wakeLevels : Nat := 0
  wakeTrl : Nat := 0
  /-- Sources whose present condition has been accepted; instants from which the filtered sources count after their enabling. -/
  woken : Nat := 0
  wakeFrom : Vector Nat 5 := Vector.replicate 5 0
  /-- Within an AON cycle only: a wake has been accepted, domains lost with a rail. -/
  waking : Bool := false
  lostNow : Nat := 0
  /-- BOOT_COMPLETE is still to be recorded for the boot sequence since the last reset (R119). -/
  bootOpen : Bool := false
  /-- RTC count at entry of MEAS to RETENTION (R128). -/
  retainRtc : Nat := 0
  /-- DEBUG_FAIL_COUNT, end of the debug lockout; commissioning failures, end of the lockout (AON time). -/
  debugFails : Nat := 0
  debugLockout : Option Nat := none
  authFails : Nat := 0
  authLockout : Option Nat := none
deriving DecidableEq, Repr, Inhabited

/-! ### Security and non-volatile storage (chapters 2, 5, 7) -/

/-- A configuration bank of MRAM: store counter, whether its CRC-32C matches, the persisted objects (R37). -/
structure Bank where
  counter : Nat := 0
  valid : Bool := false
  contents : Od := []
deriving DecidableEq, Repr, Inhabited

/-- A firmware image in MRAM, with the status that the boot block marks it with (R114, R164). -/
structure Image where
  data : Bytes := []
  mark : Option Nat := none
deriving DecidableEq, Repr, Inhabited

/-- A copy of the boot block: preferred image, trial, attempts left, with its store counter and whether its CRC-32C checks (R115). -/
structure BootCopy where
  counter : Nat := 0
  valid : Bool := false
  preferred : Nat := 0
  trial : Bool := false
  attempts : Nat := 0
deriving DecidableEq, Repr, Inhabited

/-- Boot block, images, configuration banks, fuses and key store: what no reset and no loss of power changes. -/
structure Nv where
  banks : Vector Bank 2 := Vector.replicate 2 {}
  images : Vector Image 2 := Vector.replicate 2 {}
  /-- The boot block, two copies (R115). -/
  boots : Vector BootCopy 2 := Vector.replicate 2 {}
  /-- The two cells of LCS_LOCK and of DBG_DIS, and the blown steps of the security-version counter. -/
  lockA : Bool := false
  lockB : Bool := false
  disA : Bool := false
  disB : Bool := false
  minVersion : Nat := 0
  /-- CK, IK, DK. -/
  keys : Vector (Option Bytes) 3 := Vector.replicate 3 none
deriving DecidableEq, Repr, Inhabited

/-- Debug states (R152). -/
inductive DebugState where
  | detached | challenge | attached | lockout
deriving DecidableEq, Repr, Inhabited

/-- An IK that the root of trust keeps for an admission in progress: the cell, its NONCE_D, the key (R150). -/
structure AdmissionKey where
  cell : Nat
  nonce : Bytes
  key : Bytes
deriving DecidableEq, Repr, Inhabited

/-- SEC: lifecycle as sensed, debug, test access port, commissioning, images and load. -/
structure Sec where
  /-- 0 OPEN, 1 LOCKED, 2 SEALED. -/
  lifecycle : Nat := 0
  mismatch : Nat := 0
  debug : DebugState := .detached
  keysHidden : Bool := false
  /-- The live debug nonce, the instant of its capture, and the DK present then (R150). -/
  nonce : Option (Bytes × Nat × Option Bytes) := none
  /-- TAP instruction in force, scan takeover in progress, boundary register as updated. -/
  instr : Nat := 0x01
  scan : Bool := false
  boundary : Bytes := []
  /-- Session holding commissioning, its PROOF, the nonces of the sessions, their instants and the CK present then (R150). -/
  holder : Option Nat := none
  proof : Bytes := []
  nonces : Vector (Option (Bytes × Nat × Option Bytes)) 64 := Vector.replicate 64 none
  /-- IKs kept for admissions that began before the present one was written (R150). -/
  iksKept : List AdmissionKey := []
  /-- The image that runs, a fallback, boot hold, the status of both images. -/
  running : Option Nat := none
  fallback : Bool := false
  hold : Bool := false
  status : Vector Nat 2 := Vector.replicate 2 5
  /-- Image load in progress: target; code of the last commit. -/
  load : Option Nat := none
  loadTarget : Nat := 0
  loadCode : Nat := 0xFF
  /-- Current configuration bank. -/
  bank : Option Nat := none
deriving DecidableEq, Repr, Inhabited

/-- Everything but the host's configuration and the queue. -/
structure Dev where
  clk : Clock := {}
  doms : Vector DomainCtl 8 := Vector.replicate 8 {}
  rails : Rails := {}
  aon : Aon := {}
  sched : Sched := {}
  seqr : Sequencer := {}
  breach : Breach := {}
  meas : Meas := {}
  time : Time := {}
  sec : Sec := {}
  nv : Nv := {}
  prot : Prot := { requesters := 0x24 }
  lcl : Lcl := {}
  stack : Stack := {}
  ledger : Ledger := {}
  /-- The 16 checkpoint slots of MRAM (R75). -/
  mram : Vector Checkpoint 16 := Vector.replicate 16 {}
  engine : Engine := {}
  acq : Acq := {}
  pwm : Pwm := {}
  bridges : Vector Bridge 6 := Vector.replicate 6 {}
  axes : Vector Axis 6 := Vector.replicate 6 {}
  ladder : Ladder := {}
  isl : Island := {}
  /-- The HV die is latched at thermal shutdown (R382). -/
  hvLatched : Bool := false
  com : Com := {}
  out : List Output := []
  /-- Counter that free values are applied to: the model's own (log entry 1). -/
  free : Nat := 0
deriving DecidableEq, Repr, Inhabited

/-- The machine: the host's object values, the device, and the commands that wait, first in first out. -/
structure State where
  od : Od := []
  dev : Dev := {}
  pending : List Instr := []
deriving DecidableEq, Repr, Inhabited

/-- Why a step stops with a fault. No rule of this hardware stops it: the type is empty. -/
inductive Fault where
deriving DecidableEq, Repr

/-- Why the model refuses a command. -/
inductive Refusal where
  /-- Answered by `exec` alone for a command without a meaning; safe, since the run stops. -/
  | notModelled (mnemonic : String)
deriving DecidableEq, Repr

/-- The device right after its first power-on: VAON has just come into range, PORST_N is held low and RESET_N is high (R96,
R99, R109; log entry 5). -/
def State.reset : State := {
  od := []
  dev := {
    rails := { ok := Vector.ofFn (fun i => i.val == 0) }
    aon := { reset := { scope := .whole, porst := true, causes := 1, cause := 1, count := 1, time := 2 ^ 63 + 2 ^ 62 } }
    seqr := { aon := [({ time := 2 ^ 63 + 2 ^ 62, code := 0x0201, source := 0, data := [1, 0, 0, 0, 1, 0, 0, 0, 0, 0, 0, 0, 0, 0, 0, 0] }, 2 ^ 47)] } }
  pending := [] }

end Sys2Proof.Machine
end

