-- ==== Sys2Proof/Machine/Ops.lean ====
section
/-! DEFINITION. The named operations over the state that every family shares: vectors, object values, domains,
time, events and their numbering. -/
namespace Sys2Proof.Machine

/-! ### Vectors by number -/

/-- Entry `i`, or a default beyond the end. -/
def vget {α : Type} {n : Nat} [Inhabited α] (v : Vector α n) (i : Nat) : α := (v[i]?).getD default

/-- Entry `i` replaced, where there is one. -/
def vset {α : Type} {n : Nat} (v : Vector α n) (i : Nat) (a : α) : Vector α n := v.setIfInBounds i a

/-- Entry `i` changed by `f`, where there is one. -/
def vmod {α : Type} {n : Nat} [Inhabited α] (v : Vector α n) (i : Nat) (f : α → α) : Vector α n := vset v i (f (vget v i))

/-! ### Ticks -/

/-- Ticks of 1.25 ns in `n` µs, ms and s (R10). -/
def usT (n : Nat) : Nat := 800 * n
def msT (n : Nat) : Nat := 800000 * n
def secT (n : Nat) : Nat := 800000000 * n

/-! ### Object values -/

/-- The row of the object tables that lists index `ix`, subindex `sub`. -/
def odRow (ix sub : Nat) : Option OdRow :=
  odRows.find? (fun r => r.lo ≤ ix && ix < r.lo + r.count * r.stride && (ix - r.lo) % r.stride == 0
    && r.s0 ≤ sub && sub ≤ r.s1)

/-- Size in bytes of a fixed-size type. -/
def OdType.size : OdType → Nat
  | .bool => 1
  | .u n => n
  | .i n => n
  | .f32 => 4
  | .oct n => n
  | .dom => 0

/-- The default of an object as bytes (R9); a `special` default is the empty string here and expanded by the reader. -/
def odDefault (ix sub : Nat) : Bytes :=
  match odRow ix sub with
  | none => []
  | some r => match r.dflt with
    | .num v => toLE r.ty.size v
    | .bytes b => b
    | .zeros n => List.replicate n 0
    | .special => []

/-- Key of an object in the stored list. -/
def odKey (ix sub : Nat) : Nat := ix * 256 + sub

/-- Look up a key in an ascending list of objects. -/
def odFind (k : Nat) : Od → Option Bytes
  | [] => none
  | (k', b) :: rest => if k' == k then some b else odFind k rest

/-- Put an entry into its place in the ascending list, replacing one of the same key. -/
def odInsert (k : Nat) (b : Bytes) : Od → Od
  | [] => [(k, b)]
  | (k', b') :: rest =>
    if k < k' then (k, b) :: (k', b') :: rest
    else if k = k' then (k, b) :: rest
    else (k', b') :: odInsert k b rest

/-- Remove the entry of a key. -/
def odErase (k : Nat) (o : Od) : Od := o.filter (fun p => p.1 != k)

/-- Put a value under a key, keeping the canonical form: a value equal to the object's default is not listed. -/
def odPutKey (k : Nat) (b : Bytes) (o : Od) : Od :=
  if b = odDefault (k / 256) (k % 256) then odErase k o else odInsert k b o

/-- Set an object. -/
def odSet (o : Od) (ix sub : Nat) (b : Bytes) : Od := odPutKey (odKey ix sub) b o

/-- The canonical form: keys strictly rising, and no entry equal to its object's default. -/
def Od.wf (o : Od) : Bool :=
  (o.map (·.1)).Pairwise (· < ·) && o.all (fun p => p.2 != odDefault (p.1 / 256) (p.1 % 256))

/-- Defaults that depend on the object, by the chapters that own them. -/
def odSpecial (ix sub : Nat) : Bytes :=
  if 0x4100 ≤ ix ∧ ix ≤ 0x4137 ∧ sub = 1 then
    let i := ix - 0x4100
    toLE 2 (if 48 ≤ i ∧ i ≤ 50 then 0x040 else if 51 ≤ i ∧ i ≤ 53 then 0x080 else if i = 55 then 0x00F else 0)
  else if 0x4180 ≤ ix ∧ ix ≤ 0x4189 ∧ sub = 1 then
    let g := ix - 0x4180
    toLE 8 (if g ≤ 3 then 0x3F * 2 ^ (6 * g) else if g = 4 then 3 * 2 ^ 24 else if g = 5 then 3 * 2 ^ 26
      else if g = 6 then 0x3F * 2 ^ 28 else if g = 7 then 0x3F * 2 ^ 34 else 0)
  else if 0x2450 ≤ ix ∧ ix ≤ 0x2451 ∧ sub = 1 then
    let m := ix - 0x2450
    let s (i : Nat) := BitVec.ofNat 8 (Config.serial.toNat / 256 ^ i)
    [0x02, 0x57, s 3, s 2, s 1, BitVec.ofNat 8 ((s 0).toNat / 2 * 2 + m)]
  else if 0x2450 ≤ ix ∧ ix ≤ 0x2451 ∧ sub = 2 then [192, 168, BitVec.ofNat 8 (ix - 0x2450), 32]
  else if 0x2620 ≤ ix ∧ ix ≤ 0x2627 ∧ sub = 3 then (List.replicate 5 (toLE 2 32768)).flatten
  else []

/-- The bytes of an object: its listed value, else its default. -/
def odGet (o : Od) (ix sub : Nat) : Bytes :=
  match odFind (odKey ix sub) o with
  | some b => b
  | none => match odDefault ix sub with
    | [] => odSpecial ix sub
    | b => b

/-- An object read as an unsigned number. -/
def odU (o : Od) (ix sub : Nat) : Nat := leNat (odGet o ix sub)

/-- An object of `w` bits read as a signed number. -/
def odI (o : Od) (w ix sub : Nat) : Int := toSigned w (odU o ix sub)

/-- A REAL32 object as its exact value. -/
def odF (o : Od) (ix sub : Nat) : Rat := f32Val (odU o ix sub)

/-! ### Domains -/

/-- Domain numbers of Table 1.5. -/
def Domain.num : Domain → Nat
  | .aon => 0 | .sec => 1 | .net => 2 | .link => 3 | .ctrl => 4 | .drv => 5 | .meas => 6 | .safe => 7

/-- State of a domain; AON is ON whenever the device runs at all (Table 1.5). -/
def Dev.domState (d : Dev) (m : Domain) : DomState :=
  match m with
  | .aon => if vget d.rails.ok 0 then .on else .off
  | _ => (vget d.doms m.num).state

/-- The domain is ON. -/
def Dev.isOn (d : Dev) (m : Domain) : Bool := d.domState m == .on

/-! ### Event sources (Table 3.3) -/

def srcCell (c : Nat) : Nat := 0x1000 + c
def srcPath (ring path : Nat) : Nat := 0x2000 + 2 * ring + path
def srcAxis (n : Nat) : Nat := 0x3000 + n
def srcStack (n : Nat) : Nat := 0x4000 + n
def srcDomain (n : Nat) : Nat := 0x5000 + n
def srcSession (n : Nat) : Nat := 0x6000 + n

/-! ### Time -/

/-- The RTC stamp of Table 3.3: [63] set, [62] AON_SOURCE, [61:0] the count. -/
def Clock.rtcStamp (c : Clock) : Nat := 2 ^ 63 + (if c.rtcXtal then 0 else 2 ^ 62) + c.rtc % 2 ^ 62

/-- The stamp of a happening now: device time while the timebase runs, else the RTC form (Table 3.3). -/
def Clock.stamp (c : Clock) : Nat := if c.counting then c.dt % 2 ^ 63 else c.rtcStamp

/-- The 48-bit stamp of R71: [47] AON_SOURCE, [46:0] RTC count. -/
def Clock.stamp48 (c : Clock) : Nat := (if c.rtcXtal then 0 else 2 ^ 47) + c.rtc % 2 ^ 47

/-- CONTROL_PERIOD in ticks. -/
def period (o : Od) : Nat := odU o 0x2413 1

/-! ### Events and their numbering (R67 to R72, R505) -/

/-- The bit of the class masks that selects a class (0x1FE4:01). -/
def classBit (cls : Nat) : Nat :=
  if cls = 0x40 then 56 else if cls = 0x46 then 57 else if cls = 0x50 then 58 else if cls = 0x60 then 59 else cls

/-- The class of an event is selected by a mask. -/
def classSelected (mask code : Nat) : Bool := mask.testBit (classBit (code / 256))

/-- Order of events released at one instant (R67): stamp, CODE, SOURCE[14:0]; RTC-stamped events after (R68). -/
def Event.before (a b : Event) : Bool :=
  a.time < b.time || (a.time == b.time && (a.code < b.code || (a.code == b.code && a.source < b.source)))

/-- The newest `n` entries of a list that grows at its end. -/
def newest {α : Type} (n : Nat) (l : List α) : List α := l.drop (l.length - n)

/-- Breach and yield events, whose number 0x2500:06 shows. -/
def isBreachCode (c : Nat) : Bool := c == 0x0501 || c == 0x0510 || c == 0x0511 || c == 0x0514

/-- Assign the next sequence number to an event (R69) and copy the record to the log (R72), the persistent log (R505)
and the EMCY queue (R46). -/
def number (o : Od) (late : Bool) (e : Event) (d : Dev) : Dev :=
  let q := d.seqr
  let r : Record := { ev := e, seq := q.next, late := late }
  let pm := odU o 0x2503 1
  let em := odU o 0x1FE4 1
  { d with
    seqr := { q with
      next := wrapInc q.next
      log := newest 32768 (q.log ++ [r])
      late := if late then satInc q.late else q.late
      persist := if classSelected pm e.code then newest 12288 (q.persist ++ [⟨q.epoch, r⟩]) else q.persist
      emcy := if classSelected em e.code then q.emcy ++ [r] else q.emcy }
    breach := if isBreachCode e.code then { d.breach with lastSeq := r.seq } else d.breach }

/-- Release the events whose stamp plus two periods has been reached (R67). -/
def releaseDue (o : Od) (d : Dev) : Dev :=
  let due (e : Event) : Bool := e.time + 2 * period o ≤ d.clk.dt
  let go := d.seqr.held.filter due
  let stay := d.seqr.held.filter (fun e => !due e)
  go.foldl (fun d e => number o false e d) { d with seqr := { d.seqr with held := stay } }

/-- An event reaches the sequencer (R67, R68). One with an RTC stamp is numbered at once, after the events whose window closes at that
instant. -/
def arrive (o : Od) (e : Event) (d : Dev) : Dev :=
  if !d.sched.running then number o false e d
  else if 2 ^ 63 ≤ e.time then number o false e (releaseDue o d)
  else
    let due := e.time + 2 * period o
    if d.clk.dt < due then { d with seqr := { d.seqr with held := insertBy Event.before e d.seqr.held } }
    else number o (decide (due < d.clk.dt)) e d

/-- Classes whose events AON keeps while SEC is not ON: those of AON, MEAS and SAFE, and the two records that a loss
of SEC causes (R71); with them the yield of a thermal shutdown, which AON carries out and which takes SEC OFF (Table 3.2; DEDUCED, log
entry 199). -/
def aonKeeps (code : Nat) : Bool :=
  let cls := code / 256
  cls == 0x01 || cls == 0x02 || cls == 0x04 || cls == 0x50 || cls == 0x60 || code == 0x0302 || code == 0x030C || code == 0x0501

/-- AON keeps an unnumbered record, or counts it as discarded beyond 64 (R71). -/
def aonKeep (e : Event) (d : Dev) : Dev :=
  let q := d.seqr
  let s := d.clk.stamp48
  if q.aon.length < 64 then { d with seqr := { q with aon := q.aon ++ [(e, s)] } }
  else { d with seqr := { q with
    aonDiscards := satInc q.aonDiscards
    aonTotal := satInc q.aonTotal
    aonFirst := if q.aonDiscards = 0 then s else q.aonFirst
    aonLast := s } }

/-- Record an event with a given TIME. -/
def recordAt (o : Od) (time code source : Nat) (data : Bytes) (d : Dev) : Dev :=
  let e : Event := { time := time, code := code, source := source, data := padTo 16 data }
  if d.isOn .sec then arrive o e d
  else if aonKeeps code then aonKeep e d
  else d

/-- Record an event that happens now. -/
def record (o : Od) (code source : Nat) (data : Bytes) (d : Dev) : Dev := recordAt o d.clk.stamp code source data d

/-- Release every event the sequencer holds, in the order of R67 (R68, R70, R78). -/
def releaseAll (o : Od) (d : Dev) : Dev :=
  d.seqr.held.foldl (fun d e => number o false e d) { d with seqr := { d.seqr with held := [] } }

/-! ### Yields (R59) -/

/-- The sequence number of the newest record of a code and source: what a yield cites as its cause. Where that event is
not numbered yet (R67 still holds it) the spec gives no number, and the field is a free value (log entry 1). -/
def causeSeq (code source : Nat) (d : Dev) : Nat :=
  match d.seqr.log.reverse.find? (fun r => r.ev.code == code && r.ev.source == source && r.ev.time == d.clk.stamp) with
  | some r => r.seq
  | none => (Config.yieldCause d.free).toNat

/-- The record of a GUARANTEE_YIELD, citing the causing event (R59). -/
def yieldEvent (o : Od) (winner loser ident code source : Nat) (d : Dev) : Dev :=
  let n := causeSeq code source d
  record o 0x0501 0 ([BitVec.ofNat 8 winner, BitVec.ofNat 8 loser] ++ toLE 2 ident ++ toLE 4 n) { d with free := d.free + 1 }

/-- GUARANTEE_YIELD (R59): the loser's rank bit, the count, and the record. -/
def yieldTo (o : Od) (winner loser ident code source : Nat) (d : Dev) : Dev :=
  yieldEvent o winner loser ident code source
    { d with breach := { d.breach with summary := setBit d.breach.summary (loser - 1), yields := satInc d.breach.yields } }

/-- The conservation bit of BREACH_SUMMARY (R63, R66, R76). -/
def breachConservation (d : Dev) : Dev := { d with breach := { d.breach with summary := setBit d.breach.summary 2 } }

/-- A byte. -/
def b8 (n : Nat) : Byte := BitVec.ofNat 8 n

/-- The next free value index, and the counter advanced (log entry 1). -/
def Dev.fresh (d : Dev) : Dev := { d with free := d.free + 1 }

/-- The CAN FD pads are supplied; the SGMII serialisers and the PHYs' pads are (R100, Table 4.5). -/
def canLine (d : Dev) : Bool := vget d.rails.ok 5
def ethLine (d : Dev) : Bool := vget d.rails.ok 3 && vget d.rails.ok 4

/-- What of the frames sent reaches its network. -/
def wired (l : List Output) (d : Dev) : List Output := l.filter (fun x => match x with
  | .can _ _ _ | .sdo _ _ _ _ _ => canLine d
  | .eth _ _ _ | .datagram _ _ _ _ => ethLine d
  | _ => true)

/-- Apply `f` to each number of a list in turn. -/
def forEach {α : Type} (l : List α) (f : α → Dev → Dev) (d : Dev) : Dev := l.foldl (fun d a => f a d) d

/-- The requesters of R330 that are set. -/
def tripRequesters (d : Dev) : Nat := d.prot.requesters

end Sys2Proof.Machine
end

