-- ==== Sys2Proof/Machine/PwmOps.lean ====
section
/-! DEFINITION. Operations of the PWM generator, the Pronghorn path, the bridges and the axis states that other
families reach: sources, forcing, release, enabling and disabling pairs, placing a period's edges (chapters 18 to 20). -/
namespace Sys2Proof.Machine

/-! ### Configuration of pairs and groups -/

def pairMode (o : Od) (q : Nat) : Nat := odU o (0x4000 + q) 4
def pairSync (o : Od) (q : Nat) : Nat := odU o (0x4000 + q) 5
def pairPhase (o : Od) (q : Nat) : Nat := odU o (0x4000 + q) 6
def deadRise (o : Od) (q : Nat) : Nat := odU o (0x4000 + q) 8
def deadFall (o : Od) (q : Nat) : Nat := odU o (0x4000 + q) 9
def minPulse (o : Od) (c : Nat) : Nat := odU o (0x4020 + c) 3
def pulseStretch (o : Od) (c : Nat) : Bool := odU o (0x4020 + c) 4 == 1
def groupChannels (o : Od) (g : Nat) : Nat := odU o (0x4180 + g) 1

/-- The master of a follower pair (SYNC 0x80 + m, R409). -/
def masterOf (o : Od) (q : Nat) : Option Nat := let s := pairSync o q; if 0x80 ≤ s then some (s - 0x80) else none

/-- The group that holds a channel, where one does (R422). -/
def groupOfChannel (o : Od) (c : Nat) : Option Nat := (List.range 10).find? (fun g => (groupChannels o g).testBit c)

/-- Pairs whose channels a group holds; only whole pairs are held (R422). -/
def groupPairs (o : Od) (g : Nat) : List Nat := (List.range 20).filter (fun q => (groupChannels o g).testBit (2 * q))

/-- First pair and first high channel h(n) of axis n (R447). -/
def axisPair (n : Nat) : Nat := if n ≤ 3 then 3 * n else if n = 4 then 14 else 17
def axisPairs (n : Nat) : List Nat := [axisPair n, axisPair n + 1, axisPair n + 2]
def axisH (n : Nat) : Nat := 2 * axisPair n

/-- Any PWM channel is active (R23, R418). -/
def pwmActive (d : Dev) : Bool := d.pwm.pairs.any (·.active)

/-! ### Sources (Table 18.2) -/

/-- The conditions of R442 on bridge k. -/
def bridgeRaises (o : Od) (d : Dev) (k : Nat) : Bool :=
  let b := vget d.bridges k
  match b.state with
  | .retryWait => b.faultKind != 0 && (odU o (0x4200 + k) 0x0F).testBit (b.faultKind - 1)
  | .lockout => true
  | .supplyHold => true
  | _ => d.hvLatched

/-- Source 55: any enabled STO pair is OFF or in FAULT (R476). -/
def islandRaises (o : Od) (d : Dev) : Bool :=
  (List.range 4).any (fun n => odU o (0x5010 + n) 7 == 1 && (vget d.isl.pairs n).state != .permit)

/-- Source i is raised (Table 18.2). -/
def sourceNow (o : Od) (d : Dev) (i : Nat) : Bool :=
  if i < 16 then d.pwm.fltLevels.testBit i == (odU o (0x4100 + i) 2).testBit 0
  else if i < 48 then d.meas.cmpOut.testBit (i - 16)
  else if i < 54 then bridgeRaises o d (i - 48)
  else if i = 54 then tripRequesters d != 0
  else islandRaises o d

/-- All sources raised now, bit i for source i. -/
def sourcesNow (o : Od) (d : Dev) : Nat := bitsOf 56 (sourceNow o d)

/-- The device forcing of R423, as its first-source code. -/
def deviceForcing (d : Dev) : Option Nat :=
  if !d.isOn .safe then some 0x80 else if !vget d.rails.ok 5 then some 0x81 else none

/-- SAFE_STATE in effect for a group: 0 while a device forcing applies (R423). -/
def safeStateOf (o : Od) (d : Dev) (g : Nat) : Nat :=
  if (deviceForcing d).isSome then 0 else odU o (0x4180 + g) 2

/-- Raised sources whose map holds group g. -/
def groupSources (o : Od) (d : Dev) (g : Nat) : List Nat :=
  (setBits 56 d.pwm.raised).filter (fun i => (odU o (0x4100 + i) 1).testBit g)

/-- Automatic releases of a group still inside AUTO_WINDOW (R427). -/
def autosInWindow (o : Od) (d : Dev) (g : Nat) : List Nat :=
  (vget d.pwm.groups g).autos.filter (fun t => d.clk.dt < t + secT (odU o (0x4180 + g) 7))

/-- Automatic releases left in the window (0x4180:09 [15:8]). -/
def autosLeft (o : Od) (d : Dev) (g : Nat) : Nat := odU o (0x4180 + g) 6 - (autosInWindow o d g).length

/-! ### Axis states (R448) -/

/-- A signed 32-bit value of a rational, for event data (log entry 24: nearest). -/
def s32 (x : Rat) : Bytes := toLE 4 (ofSigned 32 (clampI (-2147483648) 2147483647 (roundQ x)))

/-- An unsigned 32-bit value of a rational, saturating. -/
def u32 (x : Rat) : Bytes := toLE 4 (clampI 0 4294967295 (roundQ x)).toNat

def AxisState.code : AxisState → Nat
  | .disabled => 0 | .starting => 1 | .running => 2 | .decel => 3 | .asc => 4 | .blocked => 5 | .recatch => 6 | .fault => 7

/-- Enter an axis state with an inhibit and record AXIS_STATE with its cause (R448, R470). -/
def axisEnter (o : Od) (n : Nat) (st : AxisState) (inh : Inhibit) (cause : Nat) (d : Dev) : Dev :=
  let a := vget d.axes n
  let d1 := { d with axes := vset d.axes n { a with
    state := st, cause := cause, since := d.clk.dt, inhibit := inh,
    inhibitAt := if inh == a.inhibit then a.inhibitAt else d.clk.dt,
    implausible := 0, plausible := 0, slowSince := none, delayFrom := none,
    pElec := if st == .disabled || st == .asc || st == .blocked then 0 else a.pElec } }
  record o 0x4001 (srcAxis n) ([b8 a.state.code, b8 st.code, b8 cause, 0] ++ s32 a.speed) d1

/-- What a forcing of its group does to an axis (R460, R469): BLOCKED with cause FORCED, unless DISABLED, FAULT or
held by STO. -/
def axisForced (o : Od) (n : Nat) (d : Dev) : Dev :=
  let a := vget d.axes n
  if a.state == .disabled then d
  else
    let d1 := { d with axes := vmod d.axes n (fun a => { a with forcedHeld := true }) }
    if a.state == .fault || (a.state == .blocked && (a.stoHeld || a.forcedHeld)) then d1
    else axisEnter o n .blocked .block 0x09 d1

/-- What STO does to a traction axis: BLOCKED with cause STO, from any state except DISABLED (R460). -/
def axisSto (o : Od) (n : Nat) (d : Dev) : Dev :=
  let a := vget d.axes n
  if a.state == .disabled || a.stoHeld then d
  else axisEnter o n .blocked .block 0x07 { d with axes := vset d.axes n { a with stoHeld := true } }

/-! ### Analogue entries (0x3020:01 format) -/

/-- A sequence entry is assigned. -/
def entrySet (e : Nat) : Bool := e != 0xFF

/-- Converter of an entry, and its place in the sequence. -/
def entryAdc (e : Nat) : Nat := e / 32
def entryPos (e : Nat) : Nat := e % 16

/-- The last result of an entry, in LSB. -/
def adcResult (d : Dev) (e : Nat) : Int := toSigned 16 (vget (vget d.meas.adcs (entryAdc e)).entries (entryPos e)).value

/-- An entry assigned to the object (ix, sub), scaled by the REAL32 object (sx, ss). -/
def scaled (o : Od) (d : Dev) (e : Nat) (sx ss : Nat) : Rat := if entrySet e then (adcResult d e : Rat) * odF o sx ss else 0

/-- 1 / R_GRID. -/
def gridSiemens (o : Od) (d : Dev) : Rat := if odF o 0x4600 6 = 0 then Config.noGrid d.free else 1 / odF o 0x4600 6

/-- The last current sample of a chopper leg. -/
def legCurrent (o : Od) (d : Dev) (leg : Nat) : Rat := scaled o d (odU o 0x4600 (3 + leg)) 0x4600 5

/-- Declare a chopper fault, with the expected and the measured current (R463, R470). -/
def chopFault (o : Od) (leg kind : Nat) (d : Dev) : Dev :=
  record o 0x4601 (0x460 + leg)
    ([b8 leg, b8 kind, 0, 0] ++ (u32 (d.ladder.busV * gridSiemens o d)).take 2 ++ (u32 (legCurrent o d leg)).take 2)
    { d with ladder := { d.ladder with legs := vmod d.ladder.legs leg (fun l => { l with state := .fault, duty := 0, openRun := 0, highRun := 0 }) } }

/-! ### Forcing and release -/

/-- Take a pair's outputs off at `t`: pulses end there and the pair waits for a resume. -/
def pairStop (t : Nat) (p : Pair) : Pair :=
  let cut (x : Pulse) : Pulse := { x with off := if t < x.off then t else x.off }
  let opened : List Pulse := (match p.openH with | some s => if s < t then [⟨true, s, t⟩] else [] | none => [])
    ++ (match p.openL with | some s => if s < t then [⟨false, s, t⟩] else [] | none => [])
  { p with
    live := false, cmdHigh := none, openH := none, openL := none, notBeforeH := 0, notBeforeL := 0
    pulses := (p.pulses.filter (fun x => x.on < t)).map cut ++ opened, shootFrom := none }

/-- Force group g: latch, event GROUP_FORCED, its pairs off, its axes BLOCKED, its chopper legs in FAULT (R423, R430). -/
def forceGroup (o : Od) (g first : Nat) (d : Dev) : Dev :=
  let gr := vget d.pwm.groups g
  if gr.forced then d
  else
    let n := satInc gr.count
    let prs := groupPairs o g
    let pairs := prs.foldl (fun v q => vmod v q (pairStop d.clk.dt)) d.pwm.pairs
    let d1 := { d with pwm := { d.pwm with
      pairs := pairs
      groups := vset d.pwm.groups g { gr with
        forced := true, first := first, time := d.clk.dt, count := n, ascOn := false
        island := false, lowSince := none } } }
    let d2 := record o 0x3001 (0x320 + g)
      ([b8 g, b8 first, b8 (safeStateOf o d g), 0] ++ toLE 4 n ++ toLE 8 d.pwm.raised) d1
    let d3 := forEach ((List.range 6).filter (fun a => prs.any (fun q => (axisPairs a).contains q))) (axisForced o) d2
    forEach ((List.range 2).filter (fun l => prs.contains (12 + l) && (vget d.ladder.legs l).state == .ready))
      (fun l d => chopFault o l 3 d) d3

/-- Account for the sources of one group: force it where one is raised or a device forcing applies, and keep the time
since which all are low (R423, R427, R429). -/
def groupEvaluate (o : Od) (g : Nat) (d : Dev) : Dev :=
  let srcs := groupSources o d g
  let d1 := match deviceForcing d with
    | some c => forceGroup o g c d
    | none => match srcs with
      | [] => d
      | i :: _ => forceGroup o g i d
  { d1 with pwm := { d1.pwm with groups := vmod d1.pwm.groups g (fun gr => { gr with
      ascOn := gr.ascOn && (deviceForcing d).isNone
      island := gr.island || (gr.forced && srcs.contains 55)
      lowSince := if srcs.isEmpty then some (gr.lowSince.getD d.clk.dt) else none }) } }

/-- Pronghorn looks at its 56 sources (R420, R423). It acts only while DRV is ON. -/
def pronghorn (o : Od) (d : Dev) : Dev :=
  if !d.isOn .drv then d
  else
    let d1 := { d with pwm := { d.pwm with raised := sourcesNow o d } }
    let d2 := forEach (List.range 10) (groupEvaluate o) d1
    -- a bridge or leg that the forcing reached may change a source; its group is then evaluated in the same instant
    { d2 with pwm := { d2.pwm with raised := sourcesNow o d2 } }

/-- Pronghorn looks again where its sources have changed. -/
def pronghornAgain (o : Od) (d : Dev) : Dev := if sourcesNow o d = d.pwm.raised then d else pronghorn o d

/-- Release group g (R428, R430): every channel off, active pairs resume at their first period start at least 800 ticks on. -/
def releaseGroup (o : Od) (g how : Nat) (d : Dev) : Dev :=
  let gr := vget d.pwm.groups g
  let pairs := (groupPairs o g).foldl
    (fun v q => vmod v q (fun p => { pairStop d.clk.dt p with resumeFrom := if p.active then d.clk.dt + 800 else 0 })) d.pwm.pairs
  let autos := if how = 2 then gr.autos ++ [d.clk.dt] else gr.autos
  let d1 := { d with pwm := { d.pwm with
    pairs := pairs
    groups := vset d.pwm.groups g { gr with
      forced := false, ascOn := false, island := false, autos := autos
      exhausted := if how = 1 then false else gr.exhausted } } }
  record o 0x3002 (0x320 + g) ([b8 g, b8 how, b8 (autosLeft o d1 g), 0, 0, 0, 0, 0] ++ toLE 8 (d.clk.dt - gr.time)) d1

/-! ### Bridges as their pairs come and go (R439) -/

/-- Bridge of a pair, for pairs 14 to 19. -/
def bridgeOf (q : Nat) : Option Nat := if 14 ≤ q ∧ q ≤ 19 then some (q - 14) else none

/-- Sticky bit of BRIDGE_FLAGS for a fault kind of Table 19.2. -/
def kindFlag (kind : Nat) : Nat := if kind = 6 then 5 else if kind = 7 then 6 else kind

/-- A bridge enters SUPPLY_HOLD with kind 0x06 or 0x07, from any state (R439, R443). -/
def bridgeHold (kind : Nat) (b : Bridge) : Bridge :=
  { b with
    state := .supplyHold, lastFault := kind, resumeFrom := none
    faultCount := if b.state == .supplyHold then b.faultCount else satInc b.faultCount
    flags := setBit b.flags (kindFlag kind)
    wasLockout := b.state == .lockout || (b.state == .supplyHold && b.wasLockout)
    selfTest := if b.state == .selfTest then 0x8000 else b.selfTest }

/-- The pair becomes active: OFF goes to RUN, or to SUPPLY_HOLD without VDRV or with the HV die latched (R439, R445). -/
def bridgeActive (q : Nat) (d : Dev) : Dev :=
  match bridgeOf q with
  | none => d
  | some k => { d with bridges := vmod d.bridges k (fun b =>
      if b.state != .off then b
      else if !vget d.rails.ok 8 then bridgeHold 6 b
      else if d.hvLatched then bridgeHold 7 b
      else { b with state := .run, resumeFrom := none }) }

/-- The pair becomes inactive: RUN, RETRY_WAIT and a bridge that waits for its resume go to OFF (R439, R441, R443, R445). -/
def bridgeInactive (q : Nat) (d : Dev) : Dev :=
  match bridgeOf q with
  | none => d
  | some k => { d with bridges := vmod d.bridges k (fun b =>
      if b.state == .run || b.state == .retryWait || b.resumeFrom.isSome then { b with state := .off, resumeFrom := none } else b) }

/-! ### The interlock of the HV die (R433) -/

/-- SHOOT_THROUGH_CMD of bridge k at `t`: the run starts. -/
def interlockStarts (o : Od) (k t : Nat) (d : Dev) : Dev :=
  recordAt o t 0x3105 (0x380 + k) [b8 k, 1, 0, 0, 0, 0, 0, 0]
    { d with bridges := vmod d.bridges k (fun b => { b with shootFrom := some t, flags := setBit b.flags 0 }) }

/-- The run that began at `a` ends at `t`. -/
def interlockEnds (o : Od) (k a t : Nat) (d : Dev) : Dev :=
  recordAt o t 0x3105 (0x380 + k) ([b8 k, 0, 0, 0] ++ toLE 4 (t - a))
    { d with bridges := vmod d.bridges k (fun b => { b with shootFrom := none }) }

/-- The interlock sees the inputs of bridge k at `t`. It acts in RUN, changes no state and consumes no retry. -/
def interlock (o : Od) (k t : Nat) (inputs : Bool × Bool) (d : Dev) : Dev :=
  let b := vget d.bridges k
  let both := b.state == .run && inputs.1 && inputs.2
  match b.shootFrom with
  | none => if both then interlockStarts o k t d else d
  | some a => if both then d else interlockEnds o k a t d

/-- Runs end now at every bridge that has left RUN. -/
def interlocksLeave (o : Od) (d : Dev) : Dev :=
  forEach (List.range 6) (fun k d => if (vget d.bridges k).state == .run then d else interlock o k d.clk.dt (false, false) d) d

/-- A gate output of a bridge in RUN: on while its own input alone commands on and the opposite gate is sensed off. -/
def gateOn (own opposite oppositeOff : Bool) : Bool := own && !opposite && oppositeOff

/-- GH and GL of a bridge for its inputs, as levels of a tick: the opposite gate has followed its own input (log entry 159). -/
def gatesOf (run : Bool) (inputs : Bool × Bool) : Bool × Bool :=
  (run && gateOn inputs.1 inputs.2 (!inputs.2), run && gateOn inputs.2 inputs.1 (!inputs.1))

/-! ### Enabling and disabling pairs (R409, R418) -/

/-- First instant at or after `t` that is a whole µs of device time. -/
def roundUpUs (t : Nat) : Nat := (t + 799) / 800 * 800

/-- Why a pair cannot be enabled, as a detail code (R418, R444). `byEngine` excuses the owner check of R418; `also` lists the
pairs enabled at the same point. -/
def pairEnableRefusal (o : Od) (d : Dev) (also : List Nat) (byEngine : Bool) (q : Nat) : Option Nat :=
  let p := vget d.pwm.pairs q
  if !d.isOn .safe then some 0x30050000
  else if p.owner != .host && !byEngine then some (0x30010000 + q)
  else if (match masterOf o q with
      | some m => !(vget d.pwm.pairs m).enabled && !also.contains m
      | none => false) then some (0x30020000 + q)
  else match bridgeOf q with
    | some k => if (vget d.bridges k).state == .selfTest then some (0x31040000 + k) else none
    | none => none

/-- Enable a pair for an owner: its first period is scheduled (R409). -/
def pairEnable (o : Od) (owner : PairOwner) (q : Nat) (d : Dev) : Dev :=
  let p := vget d.pwm.pairs q
  let next := match masterOf o q with
    | none => some (roundUpUs d.clk.dt + pairPhase o q)
    | some m =>
      let pm := vget d.pwm.pairs m
      if pm.active && d.clk.dt < pm.start + pairPhase o q then some (pm.start + pairPhase o q) else none
  { d with pwm := { d.pwm with pairs := vset d.pwm.pairs q { p with
      enabled := true, active := false, owner := owner, next := next, j := 0, live := true, resumeFrom := 0,
      cmdHigh := none, openH := none, openL := none, notBeforeH := 0, notBeforeL := 0, pulses := [], shootFrom := none,
      fixed := {}, cutDone := none, heldSet := none, sinceRefresh := 0, refreshOwed := false } } }

/-- Disable one pair: outputs off at the next tick, partial set discarded, counter stopped, ownership back to the host (R418). -/
def pairOff (q : Nat) (d : Dev) : Dev :=
  bridgeInactive q { d with pwm := { d.pwm with pairs := vmod d.pwm.pairs q (fun p =>
    { pairStop (d.clk.dt + 1) p with
      enabled := false, active := false, owner := .host, next := none, heldSet := none
      live := false, refreshOwed := false }) } }

/-- Enabled followers whose master is not enabled. -/
def orphans (o : Od) (d : Dev) : List Nat :=
  (List.range 20).filter (fun r => (vget d.pwm.pairs r).enabled && (match masterOf o r with
    | some m => !(vget d.pwm.pairs m).enabled
    | none => false))

/-- Disable a pair, the followers that stop with it, and theirs (R409). -/
def pairDisable (o : Od) (q : Nat) (d : Dev) : Dev :=
  interlocksLeave o (pronghornAgain o ((List.range 20).foldl (fun d _ => forEach (orphans o d) pairOff d) (pairOff q d)))

/-! ### Taking values at a cut-off (R416, R417) -/

/-- Fields of `b` win over those of `a`. -/
def PwmSet.union (a b : PwmSet) : PwmSet :=
  { period := b.period.or a.period, riseH := b.riseH.or a.riseH, fallH := b.fallH.or a.fallH,
    riseL := b.riseL.or a.riseL, fallL := b.fallL.or a.fallL }

/-- A set that contains PERIOD but lacks an edge that its mode needs (R417). -/
def PwmSet.partial_ (s : PwmSet) (mode : Nat) : Bool :=
  s.period.isSome && (s.riseH.isNone || s.fallH.isNone || (mode == 1 && (s.riseL.isNone || s.fallL.isNone)))

/-- Put a set over the values in force. -/
def PwmSet.onto (s : PwmSet) (v : PwmVals) : PwmVals :=
  { period := s.period.getD v.period, riseH := s.riseH.getD v.riseH, fallH := s.fallH.getD v.fallH,
    riseL := s.riseL.getD v.riseL, fallL := s.fallL.getD v.fallL }

/-- Events and values of one cut-off. -/
structure CutoffResult where
  take : PwmSet
  held : Option PwmSet
  rest : List (Nat × PwmSet)
  /-- A SPLIT_UPDATE to record: its byte 1 and the PERIOD written. -/
  split : Option (Nat × Nat)

/-- The cut-off of a period start at `t`: sets complete strictly before `t - 160` are taken (R416, R417). -/
def cutoffOf (mode guard t : Nat) (p : Pair) : CutoffResult :=
  let due := p.sets.filter (fun s => s.1 + 160 < t)
  let rest := p.sets.filter (fun s => !(s.1 + 160 < t))
  let new := due.foldl (fun a s => a.union s.2) {}
  match p.heldSet with
  | none =>
    if new.partial_ mode then
      if guard = 1 then { take := {}, held := some new, rest := rest, split := none }
      else { take := new, held := none, rest := rest, split := some (2, new.period.getD 0) }
    else { take := new, held := none, rest := rest, split := none }
  | some h =>
    let u := h.union new
    if !u.partial_ mode then { take := u, held := none, rest := rest, split := none }
    else
      let lost := some (1, h.period.getD 0)
      if new.partial_ mode then { take := {}, held := some new, rest := rest, split := lost }
      else { take := new, held := none, rest := rest, split := lost }

/-- Clamping of R410: the values, and the clamps made as (kind, value written). -/
def clampVals (periodMin : Nat) (v : PwmVals) : PwmVals × List (Nat × Nat) :=
  let per := if v.period < periodMin then periodMin else if 2000000 < v.period then 2000000 else v.period
  let f (x : Nat) := if 16 * per < x then 16 * per else x
  let fh := f v.fallH
  let fl := f v.fallL
  let rh := if fh < v.riseH then fh else v.riseH
  let rl := if fl < v.riseL then fl else v.riseL
  ({ period := per, riseH := rh, fallH := fh, riseL := rl, fallL := fl },
   (if per = v.period then [] else [(1, v.period)]) ++ (if fh = v.fallH then [] else [(2, v.fallH)]) ++
   (if fl = v.fallL then [] else [(2, v.fallL)]) ++ (if rh = v.riseH then [] else [(3, v.riseH)]) ++
   (if rl = v.riseL then [] else [(3, v.riseL)]))

/-! ### Placing a period's edges (R411 to R414) -/

/-- The four bits of j reversed (R411). -/
def rev4 (j : Nat) : Nat := j % 2 * 8 + j / 2 % 2 * 4 + j / 4 % 2 * 2 + j / 8 % 2

/-- Tick of an edge in period j (R411). -/
def edgeTick (dither : Bool) (j e : Nat) : Nat := e / 16 + (if dither && decide (rev4 (j % 16) < e % 16) then 1 else 0)

/-- One pulse the filter of R414 acted on: channel high or low, turn-on, width, byte 1 of PULSE_FILTERED. -/
structure Filtered where
  high : Bool
  on : Nat
  width : Nat
  how : Nat

/-- What the placing of edges needs of the configuration. -/
structure PlaceCfg where
  cut : Nat
  deadH : Nat
  deadL : Nat
  minH : Nat
  minL : Nat
  stretchH : Bool
  stretchL : Bool

/-- The pair while its edges are placed, with what is to be recorded. -/
structure Placing where
  p : Pair
  filtered : List Filtered := []
  /-- Interlock marks: time, started, ticks held off. -/
  shoot : List (Nat × Bool × Nat) := []

/-- End the open pulse of an output commanded off at `t`, under the filter of R414; a stretched pulse delays the other
output in complementary mode. -/
def closePulse (c : PlaceCfg) (complementary high : Bool) (t : Nat) (s : Placing) : Placing :=
  match if high then s.p.openH else s.p.openL with
  | none => s
  | some on =>
    let p := if high then { s.p with openH := none } else { s.p with openL := none }
    if t ≤ on then { s with p := p }
    else
      let w := t - on
      let m := if high then c.minH else c.minL
      let stretch := if high then c.stretchH else c.stretchL
      let done (off : Nat) (p : Pair) : Pair := { p with pulses := p.pulses ++ [⟨high, on, off⟩] }
      let delay (off : Nat) (p : Pair) : Pair :=
        if !complementary then p
        else if high then { p with notBeforeL := off + c.deadL } else { p with notBeforeH := off + c.deadH }
      if m = 0 ∨ m ≤ w then { s with p := done t p }
      else if stretch then
        { s with p := delay (on + m) (done (on + m) p), filtered := s.filtered ++ [⟨high, on, w, 2⟩] }
      else if c.cut < on then { s with p := p, filtered := s.filtered ++ [⟨high, on, w, 1⟩] }
      else
        { s with
          p := { delay (on + m) (done (on + m) p) with flags := setBit p.flags 3 }
          filtered := s.filtered ++ [⟨high, on, w, 3⟩] }

/-- The command of a complementary pair becomes `hi` at `t` (R412). -/
def commandTo (c : PlaceCfg) (t : Nat) (hi : Bool) (s : Placing) : Placing :=
  if s.p.cmdHigh = some hi then s
  else
    let s1 := closePulse c true (!hi) t s
    let p := s1.p
    let latest (a b : Nat) := if a < b then b else a
    if hi then { s1 with p := { p with cmdHigh := some true, openH := some (latest (t + c.deadH) p.notBeforeH) } }
    else { s1 with p := { p with cmdHigh := some false, openL := some (latest (t + c.deadL) p.notBeforeL) } }

/-- Edges of a complementary period from `t` to `e` with commanded rise `r` and fall `f` (absolute ticks). -/
def placeComplementary (c : PlaceCfg) (t e r f : Nat) (p : Pair) : Placing :=
  let s0 : Placing := { p := p }
  if f ≤ r then commandTo c t false s0
  else
    let s1 := if r ≤ t then commandTo c t true s0 else commandTo c r true (commandTo c t false s0)
    if f < e then commandTo c f false s1 else s1

/-- Set both outputs of an independent pair from `t` on (R413). -/
def levelsTo (c : PlaceCfg) (t : Nat) (h l : Bool) (s : Placing) : Placing :=
  let both := h && l
  let oh := h && !l
  let ol := l && !h
  let s1 := if oh then (if s.p.openH.isNone then { s with p := { s.p with openH := some t } } else s) else closePulse c false true t s
  let s2 := if ol then (if s1.p.openL.isNone then { s1 with p := { s1.p with openL := some t } } else s1) else closePulse c false false t s1
  match s2.p.shootFrom with
  | none => if both then { s2 with p := { s2.p with shootFrom := some t, flags := setBit s2.p.flags 0 }, shoot := s2.shoot ++ [(t, true, 0)] } else s2
  | some a => if both then s2 else { s2 with p := { s2.p with shootFrom := none }, shoot := s2.shoot ++ [(t, false, t - a)] }

/-- Edges of an independent period: the commanded windows are [rh, fh) and [rl, fl). -/
def placeIndependent (c : PlaceCfg) (t e rh fh rl fl : Nat) (p : Pair) : Placing :=
  let pts := sortBy (fun a b => decide (a < b)) ([t, rh, fh, rl, fl].filter (fun x => t ≤ x && x < e))
  pts.foldl (fun s x => levelsTo c x (decide (rh ≤ x ∧ x < fh)) (decide (rl ≤ x ∧ x < fl)) s) { p := p }

/-- Longest stretch of low output within [a, b), from pulses and an open pulse (R434). -/
def longestLow (p : Pair) (a b : Nat) : Nat :=
  let clip (s e : Nat) : Nat := (if b < e then b else e) - (if s < a then a else s)
  let closed := (p.pulses.filter (fun x => !x.high)).map (fun x => clip x.on x.off)
  let opened := match p.openL with | some s => [clip s b] | none => []
  (closed ++ opened).foldl (fun m x => if m < x then x else m) 0

/-- PULSE_FILTERED, at most once per 1 ms and channel (R430). -/
def recordFiltered (o : Od) (q : Nat) (f : Filtered) (d : Dev) : Dev :=
  let c := if f.high then 2 * q else 2 * q + 1
  let ch := vget d.pwm.chans c
  let quiet := match ch.lastRecord with | some t => decide (f.on < t + msT 1) | none => false
  let ch1 := { ch with filtered := satInc ch.filtered }
  if quiet then
    { d with pwm := { d.pwm with chans := vset d.pwm.chans c { ch1 with unrecorded := satAdd 8 ch.unrecorded 1 } } }
  else
    recordAt o f.on 0x3006 (0x340 + c) ([b8 c, b8 f.how, b8 ch.unrecorded, 0] ++ toLE 4 f.width)
      { d with pwm := { d.pwm with chans := vset d.pwm.chans c { ch1 with unrecorded := 0, lastRecord := some f.on } } }

/-! ### Levels at the pins -/

/-- The level a channel's edges give at device time `t`, before forcing and inhibit. -/
def channelLevel (p : Pair) (high : Bool) (t : Nat) : Bool :=
  p.active && p.live &&
    ((p.pulses.any (fun x => x.high == high && x.on ≤ t && t < x.off)) ||
     (match if high then p.openH else p.openL with | some s => decide (s ≤ t) | none => false))

/-- ASC_DELAY of the group that holds a channel in ticks, or 2 µs where none does (R449). -/
def ascDelayOf (o : Od) (c : Nat) : Nat :=
  match groupOfChannel o c with
  | some g => 80 * odU o (0x4180 + g) 3
  | none => 1600

/-- Level of channel c at its pin or pre-driver input now: forcing over inhibit over edges (R20, R422, R423, R449). -/
def pwmPin (o : Od) (d : Dev) (c : Nat) : Bool :=
  let q := c / 2
  let high := c % 2 == 0
  let p := vget d.pwm.pairs q
  if !d.isOn .drv || !p.active then false
  else match groupOfChannel o c with
    | some g =>
      if (vget d.pwm.groups g).forced then
        let on := (vget d.pwm.groups g).ascOn
        match safeStateOf o d g with
        | 1 => !high && on
        | 2 => high && on
        | _ => false
      else inhibited q high p
    | none => inhibited q high p
where
  inhibited (q : Nat) (high : Bool) (p : Pair) : Bool :=
    match p.owner with
    | .axis n =>
      let a := vget d.axes n
      match a.inhibit with
      | .none => channelLevel p high d.clk.dt
      | .block => false
      | .short => !high && decide (a.inhibitAt + ascDelayOf o (2 * q) ≤ d.clk.dt)
    | _ => channelLevel p high d.clk.dt

/-- TRIP_OUT_N is driven low while source 54 is raised or a group of TRIP_OUT_MASK is forced (R425). -/
def tripOutLow (o : Od) (d : Dev) : Bool :=
  tripRequesters d != 0 || (List.range 10).any (fun g => (odU o 0x41F0 1).testBit g && (vget d.pwm.groups g).forced)

end Sys2Proof.Machine
end

