-- ==== Sys2Proof/Machine/AxisOps.lean ====
section
/-! DEFINITION. The axis engines, the brake chopper and the bus-overvoltage ladder (chapter 20). -/
namespace Sys2Proof.Machine

/-! ### Axis settings -/

/-- The entry's converter is triggered by the trigger point of a PWM channel (Table 16.3, TRIGGER 0x02). -/
def triggeredBy (o : Od) (e c : Nat) : Bool :=
  entrySet e && odU o (0x2601 + entryAdc e) 2 == 2 && odU o (0x2601 + entryAdc e) 3 == c

def axisIx (n : Nat) : Nat := 0x4400 + 0x40 * n
def loopPeriod (o : Od) (n : Nat) : Nat := odU o (axisIx n) 4
def polePairs (o : Od) (n : Nat) : Nat := odU o (axisIx n) 0x0A

/-- π as the nearest binary32 value (R451 computes in binary32). -/
def piF : Rat := f32Val 0x40490FDB

/-- Square root of three, likewise. -/
def sqrt3F : Rat := f32Val 0x3FDDB3D7

/-- Loop period in seconds. -/
def loopSeconds (o : Od) (n : Nat) : Rat := (loopPeriod o n : Rat) / 800000000

/-- Mechanical angular speed in rad/s of a speed in min⁻¹. -/
def radPerS (rpm : Rat) : Rat := rpm * (2 * piF) / 60

/-- Magnitude and sign. -/
def absQ (x : Rat) : Rat := if x < 0 then -x else x
def signQ (x : Rat) : Rat := if x < 0 then -1 else if 0 < x then 1 else 0

/-- Wrap an angle in turns to −½ to ½ (R455). -/
def wrapTurn (x : Rat) : Rat := x - ⌊x + 1/2⌋

/-- Blend weight of R455 as a function of |speed|. -/
def blend (o : Od) (n : Nat) (speed : Rat) : Rat :=
  let lo := odF o (axisIx n) 0x17
  let hi := odF o (axisIx n) 0x18
  let v := absQ speed
  if v ≤ lo then 0 else if hi ≤ v then 1 else (v - lo) / (hi - lo)

/-- An axis is enabled. -/
def axisOn (a : Axis) : Bool := a.state != .disabled

/-- The ladder runs while any axis or the chopper is enabled (R464). -/
def ladderRuns (d : Dev) : Bool := d.ladder.enabled || d.axes.any axisOn

/-- Sticky flag of AXIS_FLAGS. -/
def axisFlag (n i : Nat) (d : Dev) : Dev := { d with axes := vmod d.axes n (fun a => { a with flags := setBit a.flags i }) }

/-! ### The bus-overvoltage ladder (R464 to R468) -/

/-- Sum of the requests of R465. -/
def regenRequests (d : Dev) : Rat := d.axes.toList.foldl (fun s a => if axisOn a then s + a.torqueReq else s) 0

/-- REGEN_ALLOWED_n (R465). -/
def regenShare (d : Dev) (n : Nat) : Rat :=
  let total := regenRequests d
  let req := (vget d.axes n).torqueReq
  if total ≤ d.ladder.regenLimit then req else d.ladder.regenLimit * req / total

/-- EXPORT_DEMAND of a result (R465). -/
def exportDemandOf (o : Od) (d : Dev) (v : Rat) : Rat :=
  let back := d.axes.toList.foldl (fun s a => if axisOn a && decide (a.pElec < 0) then s - a.pElec else s) 0
  let sink := (List.range 2).foldl (fun s l =>
    if (vget d.ladder.legs l).state == .ready then s + v * v * gridSiemens o d else s) 0
  if 0 < back - sink then back - sink else 0

/-- Step of Table 20.2 after a result: the highest step whose entry condition holds, or the step in force until its exit. -/
def ladderStepOf (o : Od) (step hardRun : Nat) (v : Rat) : Nat :=
  let on := odF o 0x4600 8
  let derate := odF o 0x4610 3
  let mech := odF o 0x4610 4
  let hyst := odF o 0x4610 6
  let enter := if 2 ≤ hardRun then 4 else if mech ≤ v then 3 else if derate ≤ v then 2 else if on ≤ v then 1 else 0
  let exit := match step with
    | 1 => decide (v < on - hyst)
    | 2 => decide (v < derate - hyst)
    | 3 => decide (v < mech - hyst)
    | 4 => decide (v < derate - hyst)
    | _ => true
  if step ≤ enter || exit then enter else step

/-- REGEN_LIMIT of a step (Table 20.2). -/
def regenLimitOf (o : Od) (step : Nat) (v : Rat) : Rat :=
  let mx := odF o 0x4610 7
  match step with
  | 0 => mx
  | 1 => mx
  | 2 =>
    let derate := odF o 0x4610 3
    let mech := odF o 0x4610 4
    clampQ 0 mx (mx * (mech - v) / (mech - derate))
  | _ => 0

/-- The condition and cause of MECH_BRAKE_REQ, where one holds (R466). -/
def mechCause (d : Dev) : Option Nat :=
  if !ladderRuns d then none
  else if d.ladder.stale then some 3
  else if 3 ≤ d.ladder.step then some 1
  else if d.axes.any (fun a => axisOn a && a.regenRun)
      && (!d.ladder.enabled || d.ladder.legs.any (fun l => l.state == .fault)) then some 2
  else none

/-- Drive MECH_BRAKE_REQ as R466 says; it falls only by `mechHoldExpiry`, or at once when nothing is enabled. -/
def mechEvaluate (o : Od) (d : Dev) : Dev :=
  match mechCause d with
  | some c =>
    if d.ladder.mech then { d with ladder := { d.ladder with mechClear := none } }
    else record o 0x4604 0x462 [1, b8 c] { d with ladder := { d.ladder with mech := true, mechClear := none } }
  | none =>
    if !d.ladder.mech then d
    else if !ladderRuns d then
      record o 0x4604 0x462 [0, 0] { d with ladder := { d.ladder with mech := false, mechClear := none } }
    else { d with ladder := { d.ladder with mechClear := some (d.ladder.mechClear.getD d.clk.dt) } }

/-- Take the hard action on the axes that can take it (R467, R469). -/
def hardAction (o : Od) (v : Rat) (d : Dev) : Dev :=
  let act := odU o 0x4610 8
  let able (n : Nat) : Bool := let a := vget d.axes n; axisOn a && !a.stoHeld && !a.forcedHeld && a.state != .fault
  let ns := (List.range 6).filter able
  let sto := (List.range 6).filter (fun n => axisOn (vget d.axes n) && (vget d.axes n).stoHeld)
  let d1 := forEach ns (fun n d =>
    let short := act.testBit n
    axisEnter o n (if short then .asc else .blocked) (if short then .short else .block) 0x0B
      { d with axes := vmod d.axes n (fun a => { a with hardHeld := true }) }) d
  let mask (l : List Nat) : Nat := l.foldl (fun m n => m + 2 ^ n) 0
  let d2 := record o 0x4606 0x462
    ([b8 (mask (ns.filter (fun n => act.testBit n))), b8 (mask (ns.filter (fun n => !act.testBit n))), b8 (mask sto), 0]
      ++ u32 (v * 1000)) d1
  if sto.isEmpty then d2 else yieldTo o 1 2 0x0002 0x4606 0x462 d2

/-- The ladder leaves step 4: the axes it held re-catch (R459, R467). -/
def hardClear (d : Dev) : Dev :=
  forEach (List.range 6) (fun n d =>
    let a := vget d.axes n
    if !a.hardHeld then d
    else { d with axes := vset d.axes n { a with
      hardHeld := false
      delayFrom := if a.state == .blocked && !a.stoHeld && !a.forcedHeld then some d.clk.dt else a.delayFrom } }) d

/-- Put the ladder into a step with its limits and event (R464). -/
def ladderTo (o : Od) (step : Nat) (v : Rat) (d : Dev) : Dev :=
  let old := d.ladder.step
  let d1 := { d with ladder := { d.ladder with step := step, regenLimit := regenLimitOf o step v } }
  if old = step then d1
  else
    let d2 := record o 0x4603 0x462 ([b8 old, b8 step, 0, 0] ++ u32 (v * 1000)) d1
    if step = 4 then hardAction o v d2 else if old = 4 then hardClear d2 else d2

/-- A result of LADDER_V_ENTRY (R464, R465, R468). -/
def ladderResult (o : Od) (d : Dev) : Dev :=
  if !ladderRuns d then d
  else
    let v := scaled o d (odU o 0x4610 1) 0x4610 2
    let hardRun := if odF o 0x4610 5 ≤ v then d.ladder.hardRun + 1 else 0
    let d1 := if d.ladder.stale then record o 0x4605 0x462 [0] { d with ladder := { d.ladder with stale := false } } else d
    let step := ladderStepOf o d.ladder.step hardRun v
    let d2 := { d1 with ladder := { d1.ladder with busV := v, hardRun := hardRun, lastResult := d.clk.dt } }
    let d3 := ladderTo o step v d2
    let d4 := { d3 with
      axes := (List.range 6).foldl (fun v n => vmod v n (fun a => { a with regenAllowed := if axisOn a then regenShare d3 n else 0 })) d3.axes
      ladder := { d3.ladder with exportDemand := exportDemandOf o d3 v } }
    mechEvaluate o d4

/-! ### The brake chopper (R462, R463) -/

/-- Duty of R462 at the ladder's voltage in force; 0 while stale. -/
def chopDuty (o : Od) (d : Dev) : Rat :=
  let on := odF o 0x4600 8
  let full := odF o 0x4600 9
  if d.ladder.stale then 0 else clampQ 0 1 ((d.ladder.busV - on) / (full - on))

/-- Centred edges of R451 for a duty and a period, as a complete set. -/
def centredSet (per : Nat) (duty : Rat) : PwmSet :=
  let h := (roundQ (duty * (8 * per : Nat))).toNat
  { period := some per, riseH := some (8 * per - h), fallH := some (8 * per + h) }

/-- The set the chopper hands over at a cut-off of its pair. -/
def chopSet (o : Od) (d : Dev) (q : Nat) : PwmSet :=
  let l := vget d.ladder.legs (q - 12)
  centredSet (odU o 0x4600 7) (if l.state == .ready then chopDuty o d else 0)

/-- A leg's current sample: the OPEN and HIGH counts of R463, and the power term of R461. -/
def legSample (o : Od) (leg : Nat) (d : Dev) : Dev :=
  let l := vget d.ladder.legs leg
  let forced := match groupOfChannel o (24 + 2 * leg) with | some g => (vget d.pwm.groups g).forced | none => false
  let i := legCurrent o d leg
  let iExp := d.ladder.busV * gridSiemens o d
  let tol : Rat := (odU o 0x4600 0x0A : Rat) / 1000
  let lim := odU o 0x4600 0x0B
  let put (l : Leg) (d : Dev) : Dev := { d with ladder := { d.ladder with legs := vset d.ladder.legs leg l } }
  let l0 := { l with pSum := l.pSum + l.duty * d.ladder.busV * i, pCount := l.pCount + 1 }
  if l.state != .ready || forced || decide (l.duty < 1/10) then put l0 d
  else
    let open_ := decide (i < (1 - tol) * iExp)
    let high := decide ((1 + tol) * iExp < i)
    let l1 := { l0 with openRun := if open_ then l.openRun + 1 else 0, highRun := if high then l.highRun + 1 else 0 }
    if lim ≤ l1.openRun then chopFault o leg 1 (put l1 d)
    else if lim ≤ l1.highRun then chopFault o leg 2 (put l1 d)
    else put l1 d

/-! ### Entering re-catch, failing, disabling (R456, R458, R459) -/

/-- Enter RECATCH, or FAULT once more than RECATCH_LIMIT attempts fall within 10 s (R459). -/
def enterRecatch (o : Od) (n cause : Nat) (d : Dev) : Dev :=
  let a := vget d.axes n
  let times := a.recatches.filter (fun t => d.clk.dt < t + secT 10) ++ [d.clk.dt]
  let d1 := { d with axes := vset d.axes n { a with recatches := times } }
  if odU o (axisIx n) 0x23 < times.length then axisEnter o n .fault a.inhibit 0x06 d1
  else axisEnter o n .recatch .none cause d1

/-- Cause of the re-catch of an axis that was held with a cause: 0x0A after a forcing, 0x0D after the ladder's hard action. -/
def recatchCause (cause : Nat) : Nat := if cause = 0x09 then 0x0A else if cause = 0x0B then 0x0D else cause

/-- Return to BLOCKED with the RECATCH_DELAY running (R459). -/
def blockAndWait (o : Od) (n cause : Nat) (d : Dev) : Dev :=
  let d1 := axisEnter o n .blocked .block cause d
  { d1 with axes := vmod d1.axes n (fun a => { a with delayFrom := some d.clk.dt }) }

/-- Events at the start and the end of a run (R452). -/
def runEdges (o : Od) (n : Nat) (regen fast : Bool) (d : Dev) : Dev :=
  let a := vget d.axes n
  let d1 := { d with axes := vset d.axes n { a with regenRun := regen, overRun := fast } }
  let d2 := if regen == a.regenRun then d1
    else record o 0x4005 (srcAxis n) ([if regen then 1 else 0, 0, 0, 0] ++ u32 a.regenAllowed) d1
  if fast == a.overRun then d2 else record o 0x4006 (srcAxis n) [if fast then 1 else 0] d2

/-- The run of missed deadlines ends (R450). -/
def missEnds (o : Od) (n : Nat) (d : Dev) : Dev :=
  let a := vget d.axes n
  if a.missRun = 0 then d
  else record o 0x4004 (srcAxis n) ([0, 0, 0, 0] ++ toLE 4 a.missRun) { d with axes := vset d.axes n { a with missRun := 0 } }

/-- Take an axis's pairs from it and leave it DISABLED (R447, R460). -/
def axisDisable (o : Od) (n cause : Nat) (d : Dev) : Dev :=
  let d1 := axisEnter o n .disabled .none cause (forEach (axisPairs n) (pairDisable o) (missEnds o n (runEdges o n false false d)))
  let d2 := { d1 with axes := vmod d1.axes n (fun a => { a with
    hardHeld := false, stoHeld := false, forcedHeld := false, torqueReq := 0, regenAllowed := 0, rampFrom := none }) }
  mechEvaluate o d2

/-- A start attempt fails for a reason: 50 ms block and a new attempt, or FAULT (R456). -/
def startFailed (o : Od) (n reason : Nat) (d : Dev) : Dev :=
  let a := vget d.axes n
  let k := a.attempts + 1
  let d1 := { d with axes := vset d.axes n { a with attempts := k } }
  if odU o (axisIx n) 0x1B < k then axisEnter o n .fault .block 0x03 (axisFlag n 1 d1)
  else
    record o 0x4003 (srcAxis n) ([b8 k, b8 reason, 0, 0] ++ u32 (a.rollback * 36000))
      { d1 with axes := vmod d1.axes n (fun a => { a with
        start := .wait d.clk.dt, inhibit := .block, inhibitAt := d.clk.dt, rollback := 0 }) }

/-- Loss of synchronism (R458, R469). -/
def declareLos (o : Od) (n tests : Nat) (d : Dev) : Dev :=
  let a := vget d.axes n
  let block := odU o (axisIx n) 0x21 == 1 || decide (absQ a.goodSpeed < odF o (axisIx n) 0x20)
  let d1 := record o 0x4002 (srcAxis n) ([b8 tests, if block || a.state == .recatch then 0 else 1, 0, 0] ++ s32 a.goodSpeed) (axisFlag n 2 d)
  if a.state == .recatch then blockAndWait o n 0x06 d1
  else if block then blockAndWait o n 0x04 d1
  else axisEnter o n .asc .short 0x04 d1

/-! ### One current-loop sample (R450 to R461) -/

/-- Torque reference of the state in force, before the limits (R452, R456, R459, R460). -/
def torqueRef (o : Od) (n : Nat) (d : Dev) : Rat :=
  let a := vget d.axes n
  let t := odF o (axisIx n) 0x12
  match a.state with
  | .running =>
    (match a.rampFrom with
     | some s => if d.clk.dt < s + msT 10 then t * ((d.clk.dt - s : Nat) : Rat) / ((msT 10 : Nat) : Rat) else t
     | none => t)
  | .decel => - signQ a.speed * odF o (axisIx n) 0x24
  | .starting => (match a.start with | .torque _ _ => t | _ => 0)
  | _ => 0

/-- Values of the limits and of the control step, before they go into the state. -/
structure LoopStep where
  axis : Axis
  regen : Bool
  fast : Bool
  duties : List Rat

/-- Estimates, current references, PI control, voltage limit and duties of a sample (R451 to R455, R461). -/
def loopStep (o : Od) (n : Nat) (d : Dev) : LoopStep :=
  let a := vget d.axes n
  let ix := axisIx n
  let fr := d.free
  let iu := scaled o d (odU o ix 5) ix 8
  let iv := scaled o d (odU o ix 6) ix 8
  let vbus := scaled o d (odU o ix 7) ix 9
  -- rotor position and speed
  let w := if a.state == .asc || a.state == .blocked then 1 else blend o n a.speed
  let thH := Config.hfiAngle fr
  let thO := Config.obsAngle fr
  let theta := thH + w * wrapTurn (thO - thH)
  let fe := Config.hfiSpeed fr + w * (Config.obsSpeed fr - Config.hfiSpeed fr)
  let pp : Rat := polePairs o n
  let speed := 60 * fe / pp
  let omegaE := 2 * piF * fe
  let omegaM := radPerS speed
  -- currents
  let ib := (iu + 2 * iv) / sqrt3F
  let c := cosTurn theta
  let s := sinTurn theta
  let iD := c * iu + s * ib
  let iQ := c * ib - s * iu
  -- references (R452)
  let ld := odF o ix 0x0C
  let lq := odF o ix 0x0D
  let psi := odF o ix 0x0E
  let iMax := odF o ix 0x10
  let tRef := torqueRef o n d
  let req := if 0 < - tRef * omegaM then - tRef * omegaM else 0
  let fast := decide (1200 < absQ fe)
  let regen := decide (tRef * omegaM < 0) && decide (a.regenAllowed < absQ (tRef * omegaM))
  let t1 := if regen then signQ tRef * (a.regenAllowed / absQ omegaM) else tRef
  let t2 := if fast && decide (0 < t1 * omegaM) then 0 else t1
  let idRef0 := match a.state, a.start with
    | .starting, .polarity k =>
      let cyc := odU o ix 0x14
      if k < 16 * cyc then 0 else if k < 17 * cyc then iMax / 4 else - iMax / 4
    | .recatch, _ => 0
    | _, _ => odF o ix 0x13
  let idRef := clampQ (-iMax) iMax idRef0
  let flux := psi + (ld - lq) * idRef
  let iqRef0 := if flux = 0 then Config.iqNoTorque fr else t2 / ((3/2) * pp * flux)
  let room := sqrtQ (iMax * iMax - idRef * idRef)
  let limited := decide (iMax * iMax < idRef * idRef + iqRef0 * iqRef0) || decide (idRef ≠ idRef0)
  let iqRef := if iMax * iMax < idRef * idRef + iqRef0 * iqRef0 then signQ iqRef0 * room else iqRef0
  -- PI control (R451)
  let fc := odF o ix 0x0F
  let rs := odF o ix 0x0B
  let ki := 2 * piF * fc * rs
  let eD := idRef - iD
  let eQ := iqRef - iQ
  let inj := if w < 1 then odF o ix 0x15 * Config.hfiWave fr (odU o ix 0x14) else 0
  let intD := Config.piIntegral a.intD ki eD (loopSeconds o n)
  let intQ := Config.piIntegral a.intQ ki eQ (loopSeconds o n)
  let vD0 := 2 * piF * fc * ld * eD + intD - omegaE * lq * iQ + inj
  let vQ0 := 2 * piF * fc * lq * eQ + intQ + omegaE * (ld * iD + psi)
  let vLim := (odU o ix 0x11 : Rat) / 32768 * vbus / sqrt3F
  let sat := decide (vLim * vLim < vD0 * vD0 + vQ0 * vQ0)
  let vD := if sat then clampQ (-vLim) vLim vD0 else vD0
  let vQ := if sat then signQ vQ0 * sqrtQ (vLim * vLim - vD * vD) else vQ0
  -- duties
  let va := c * vD - s * vQ
  let vb := s * vD + c * vQ
  let p1 := va
  let p2 := - va / 2 + sqrt3F / 2 * vb
  let p3 := - va / 2 - sqrt3F / 2 * vb
  let mx (x y : Rat) := if x < y then y else x
  let mn (x y : Rat) := if x < y then x else y
  let z := - (mx p1 (mx p2 p3) + mn p1 (mn p2 p3)) / 2
  let duty (v : Rat) : Rat := clampQ 0 1 (if vbus = 0 then Config.dutyNoBus fr else 1/2 + (v + z) / vbus)
  let inhibited := a.state == .asc || a.state == .blocked || a.inhibit != .none
  let pE := if inhibited then 0 else (3/2) * (vD * iD + vQ * iQ)
  { axis := { a with
      iD := iD, iQ := iQ
      intD := if sat then a.intD else intD, intQ := if sat then a.intQ else intQ
      theta := theta, thetaMech := a.thetaMech + speed / 60 * loopSeconds o n, speed := speed
      torqueEst := (3/2) * pp * (psi + (ld - lq) * iD) * iQ
      pElec := pE, torqueReq := req, vLim := vLim
      flags := a.flags ||| bitIf 4 sat ||| bitIf 3 limited ||| bitIf 5 regen ||| bitIf 7 fast
      pSum := a.pSum + pE, pCount := a.pCount + 1 }
    regen := regen
    fast := fast
    duties := [duty p1, duty p2, duty p3] }

/-- Failed tests of R457 in a sample, as its bit mask. -/
def losTests (o : Od) (n : Nat) (d : Dev) (w : Rat) : Nat :=
  let ix := axisIx n
  let a := vget d.axes n
  let psi := odF o ix 0x0E
  let tol : Rat := (odU o ix 0x1C : Rat) / 1000
  let flux := Config.obsFlux d.free
  let t0 := decide (flux < psi * (1 - tol)) || decide (psi * (1 + tol) < flux)
  let step : Rat := odF o ix 0x1E * loopSeconds o n / 60 * (polePairs o n : Rat)
  let t1 := decide (step < absQ (Config.obsSpeed d.free - a.omegaObs))
  let t2 := decide (0 < w) && decide (w < 1) &&
    decide ((odU o ix 0x1D : Rat) / 36000 < absQ (wrapTurn (Config.obsAngle d.free - Config.hfiAngle d.free)))
  bitIf 0 t0 + bitIf 1 t1 + bitIf 2 t2

/-- Loss-of-synchronism and re-catch supervision after a sample (R457, R459). -/
def superviseAxis (o : Od) (n : Nat) (tests : Nat) (evaluated : Bool) (d : Dev) : Dev :=
  let a := vget d.axes n
  let cnt := odU o (axisIx n) 0x1F
  let bad := evaluated && tests != 0
  let a1 := { a with
    implausible := if !evaluated then a.implausible else if bad then a.implausible + 1 else 0
    plausible := if !evaluated then a.plausible else if bad then 0 else a.plausible + 1
    goodSpeed := if bad then a.goodSpeed else a.speed }
  let d1 := { d with axes := vset d.axes n a1 }
  let los := cnt ≤ a1.implausible
  match a.state with
  | .running => if los then declareLos o n tests d1 else d1
  | .decel => if los then declareLos o n tests d1 else d1
  | .recatch =>
    if los then declareLos o n tests d1
    else if 4 * cnt ≤ a1.plausible then
      let d2 := axisEnter o n .running .none 0x05 d1
      { d2 with axes := vmod d2.axes n (fun a => { a with rampFrom := some d.clk.dt }) }
    else d1
  | .asc =>
    if 4 * cnt ≤ a1.plausible && !a.hardHeld
        && decide (2 * piF * absQ (Config.obsSpeed d.free) * odF o (axisIx n) 0x0E ≤ (9/10) * a.vLim) then enterRecatch o n (recatchCause a.cause) d1
    else d1
  | _ => d1

/-- Start-from-rest supervision after a sample (R456). -/
def superviseStart (o : Od) (n : Nat) (d : Dev) : Dev :=
  let a := vget d.axes n
  let ix := axisIx n
  let cyc := odU o ix 0x14
  let put (a : Axis) : Dev := { d with axes := vset d.axes n a }
  match a.start with
  | .polarity k =>
    let a1 := if k + 1 = 17 * cyc then { a with lPlus := Config.polarityL d.free }
      else if k + 1 = 18 * cyc then { a with lMinus := Config.polarityL d.free } else a
    if k + 1 < 18 * cyc then put { a1 with start := .polarity (k + 1) }
    else
      let big := if absQ a1.lPlus < absQ a1.lMinus then absQ a1.lMinus else absQ a1.lPlus
      if absQ (a1.lPlus - a1.lMinus) < (3/100) * big then startFailed o n 1 (put a1)
      else put { a1 with start := .torque a1.thetaMech none, rollback := 0 }
  | .torque th0 first =>
    let t := odF o ix 0x12
    let first1 := match first with | some f => some f | none => if t = 0 then none else some d.clk.dt
    let move := signQ t * (a.thetaMech - th0)
    let rb := if a.rollback < - move then - move else a.rollback
    let lim : Rat := (odU o ix 0x19 : Rat) / 36000
    let d1 := put { a with start := .torque th0 first1, rollback := rb }
    if first1.isSome && decide (lim ≤ move) then axisEnter o n .running .none 0x02 d1
    else if lim < rb then startFailed o n 2 d1
    else d1
  | .wait _ => d

/-- |SPEED| at or below STOP_SPEED in DECEL, since when (R460). -/
def trackStop (o : Od) (n : Nat) (d : Dev) : Dev :=
  { d with axes := vmod d.axes n (fun a =>
    if a.state == .decel && decide (absQ a.speed ≤ odF o (axisIx n) 0x25)
    then { a with slowSince := some (a.slowSince.getD d.clk.dt) } else { a with slowSince := none }) }

/-- Hand the three pairs' edges over, or account for a missed deadline (R450, R19). -/
def handOver (o : Od) (n : Nat) (duties : List Rat) (d : Dev) : Dev :=
  let u := vget d.pwm.pairs (axisPair n)
  let late := match u.next with | some t => decide (t ≤ d.clk.dt + 160) | none => false
  let a := vget d.axes n
  if late then
    let d1 := { d with axes := vset d.axes n { a with
      flags := setBit a.flags 6, misses := satInc a.misses, missRun := a.missRun + 1 } }
    if a.missRun = 0 then record o 0x4004 (srcAxis n) ([1, 0, 0, 0] ++ toLE 4 1) d1 else d1
  else
    let pairs := (List.range 3).foldl (fun v i => vmod v (axisPair n + i) (fun p =>
      { p with sets := p.sets ++ [(d.clk.dt, centredSet (loopPeriod o n) (duties.getD i (1/2)))] })) d.pwm.pairs
    missEnds o n { d with pwm := { d.pwm with pairs := pairs } }

/-- One current-loop sample of axis n (R450). -/
def loopSample (o : Od) (n : Nat) (d : Dev) : Dev :=
  let a := vget d.axes n
  if !axisOn a || !(vget d.pwm.pairs (axisPair n)).active then d
  else
    let w := if a.state == .asc then 1 else blend o n a.speed
    let tests := losTests o n d w
    let st := loopStep o n d
    let d1 := { d with axes := vset d.axes n { st.axis with omegaObs := Config.obsSpeed d.free }, free := d.free + 1 }
    let d2 := runEdges o n st.regen st.fast d1
    let d3 := handOver o n st.duties d2
    -- the estimates of this sample, not of the next, decide the supervision
    let back (x : Dev) : Dev := { x with free := d.free }
    let d4 := if a.state == .starting then superviseStart o n (back d3)
      else superviseAxis o n tests (decide (0 < w)) (back d3)
    -- a raised SS1 request line holds RUNNING off (R460)
    let d5 := if (vget d4.axes n).ss1Line && (vget d4.axes n).state == .running then axisEnter o n .decel .none 0x08 d4 else d4
    mechEvaluate o (trackStop o n { d5 with free := d5.free + 1 })

/-! ### Enabling an axis (R447) -/

/-- First pair of the axis that is not configured for it. -/
def axisPairBad (o : Od) (n : Nat) : Option Nat :=
  let u := axisPair n
  (axisPairs n).find? (fun q => pairMode o q != 0 ||
    (if q = u then pairSync o q != 0 else pairSync o q != 0x80 + u || pairPhase o q != 0) ||
    decide (loopPeriod o n < odU o (0x4000 + q) 7))

/-- First check of R447 that fails, as its detail code. -/
def axisEnableRefusal (o : Od) (d : Dev) (n : Nat) (ecat : Bool) : Option Nat :=
  let a := vget d.axes n
  let ix := axisIx n
  let permitted := a.state == .disabled || (ecat && a.state == .blocked && a.stoHeld)
  let hfi : Rat := 800000000 / (((loopPeriod o n) * odU o ix 0x14 : Nat) : Rat)
  if !permitted then some (0x40050000 + a.state.code)
  else match axisPairBad o n with
    | some q => some (0x40010000 + q)
    | none =>
      if polePairs o n = 0 ∨ odF o ix 0x0C = 0 ∨ odF o ix 0x0D = 0 ∨ odF o ix 0x0E = 0 ∨ odF o ix 0x10 = 0
          ∨ hfi < 500 ∨ 2000 < hfi then some (0x40040000 + n)
      else if !([5, 6, 7].all (fun s => triggeredBy o (odU o ix s) (axisH n))) then some (0x40020000 + n)
      else if n ≤ 3 && (vget d.isl.pairs n).state != .permit then some (0x40030000 + n)
      else if a.state == .blocked then none
      else (axisPairs n).findSome? (pairEnableRefusal o d (axisPairs n) false)

/-- Take the pairs and start: STARTING for "enab", RECATCH for "ecat" (R447, R456, R459). -/
def axisEnable (o : Od) (n : Nat) (ecat : Bool) (d : Dev) : Dev :=
  let a := vget d.axes n
  let d0 := if a.state == .blocked then d
    else
      let d1 := forEach (axisPairs n) (pairEnable o (.axis n)) d
      -- the engine holds the period at LOOP_PERIOD; until its first set the edges are those of zero voltage (log entry 26)
      let pairs := (axisPairs n).foldl (fun v q => vmod v q (fun p =>
        { p with force := (centredSet (loopPeriod o n) (1/2)).onto p.force, sets := [] })) d1.pwm.pairs
      { d1 with pwm := { d1.pwm with pairs := pairs } }
  let d2 := { d0 with axes := vmod d0.axes n (fun a => { a with
    start := .polarity 0, attempts := 0, rollback := 0, intD := 0, intQ := 0, missRun := 0, rampFrom := none
    stoHeld := false, hardHeld := false
    forcedHeld := (axisPairs n).any (fun q => match groupOfChannel o (2 * q) with
      | some g => (vget d.pwm.groups g).forced | none => false) }) }
  let d3 := if ecat then enterRecatch o n 0x01 d2 else axisEnter o n .starting .none 0x01 d2
  if (vget d3.axes n).forcedHeld then axisEnter o n .blocked .block 0x09 d3 else d3

/-- An SS1 request or "decl" puts a RUNNING axis into DECEL (R460). -/
def axisDecel (o : Od) (n cause : Nat) (d : Dev) : Dev :=
  if (vget d.axes n).state == .running then axisEnter o n .decel .none cause d else d

/-- The mean of R461 over the stack control period that ends: taken at a period start. -/
def closePowerMeans (d : Dev) : Dev :=
  let mean (s : Rat) (c : Nat) : Rat := if c = 0 then 0 else s / c
  { d with
    axes := d.axes.map (fun (a : Axis) => { a with pMean := if axisOn a then mean a.pSum a.pCount else 0, pSum := 0, pCount := 0 })
    ladder := { d.ladder with
      legs := d.ladder.legs.map (fun (l : Leg) => { l with pMean := mean l.pSum l.pCount, pSum := 0, pCount := 0 }) } }

/-- P_AXES (R461). -/
def pAxes (d : Dev) : Rat :=
  d.axes.toList.foldl (fun s a => s + a.pMean) 0 + d.ladder.legs.toList.foldl (fun s l => s + l.pMean) 0

end Sys2Proof.Machine
end

