-- ==== Sys2Proof/Machine/ProtOps.lean ====
section
/-! DEFINITION. The stack arrangement, the stack-trip source, and what protection asks of a cell (chapters 12 and 14). -/
namespace Sys2Proof.Machine

/-! ### The period schedule as seen by the link (R175) -/

/-- Device time of the next period start. -/
def nextStart (o : Od) (d : Dev) : Nat := d.sched.origin + d.sched.j * period o

/-- PERIOD_NO of a period count. -/
def pno (k : Nat) : Nat := k % 2 ^ 32

/-! ### Arrangement (R270, R275, R276) -/

def arrCode (o : Od) : Nat := odU o 0x3000 1
def stackCount (o : Od) : Nat := odU o 0x3000 2
def firstCell (o : Od) (s : Nat) : Nat := odU o (0x3001 + s) 1
def cellCount (o : Od) (s : Nat) : Nat := odU o (0x3001 + s) 2
def minActive (o : Od) (s : Nat) : Nat := odU o (0x3001 + s) 3

/-- VDC_NOMINAL in V. -/
def vdcNominal (o : Od) (s : Nat) : Rat := (odU o (0x3001 + s) 4 : Rat) / 100

/-- Cells of stack s. -/
def stackCells (o : Od) (s : Nat) : List Nat := (List.range (cellCount o s)).map (firstCell o s + ·)

/-- Stacks of the arrangement. -/
def stacksOf (o : Od) : List Nat := if arrCode o = 0 then [] else List.range (min (stackCount o) 4)

/-- The stack of a cell. -/
def stackOfCell (o : Od) (c : Nat) : Option Nat :=
  (stacksOf o).find? (fun s => firstCell o s ≤ c && c < firstCell o s + cellCount o s)

/-- Cells of every stack. -/
def allStackCells (o : Od) : List Nat := (stacksOf o).flatMap (stackCells o)

/-- Interleave groups as their stacks (Table 12.1): one per stack, one for a whole DC string. -/
def groupsOf (o : Od) : List (List Nat) :=
  if arrCode o = 3 then (if (stacksOf o).isEmpty then [] else [stacksOf o]) else (stacksOf o).map (fun s => [s])

/-- Number of the group that holds stack s. -/
def groupOfStack (o : Od) (s : Nat) : Nat := if arrCode o = 3 then 0 else s

/-- A stack runs (R274). -/
def StackState.runs : StackState → Bool
  | .stopped => false
  | .tripped => false
  | _ => true

def StackState.code : StackState → Nat
  | .stopped => 0 | .precharge => 1 | .syncing => 2 | .ready => 3 | .running => 4 | .stopping => 5 | .tripped => 6

/-- RUNNING or STOPPING. -/
def StackState.regulates : StackState → Bool
  | .running => true
  | .stopping => true
  | _ => false

/-- The cell is in the active set (R276). -/
def isActive (d : Dev) (c : Nat) : Bool := d.stack.active.testBit c

/-- Session in ARMED, RUN or HOLD. -/
def SessState.inService : SessState → Bool
  | .armed => true
  | .run => true
  | .hold => true
  | _ => false

/-- Active cells of a stack. -/
def activeCells (o : Od) (d : Dev) (s : Nat) : List Nat := (stackCells o s).filter (isActive d)

/-- ACTIVE_CELLS: active cells in ARMED, RUN or HOLD. -/
def countActive (o : Od) (d : Dev) (s : Nat) : Nat :=
  ((activeCells o d s).filter (fun c => (vget d.lcl.cells c).state.inService)).length

/-! ### The stack-trip source (R329 to R333) -/

/-- PERIOD_NO of the first launch at least 160 ticks after now (R331). -/
def firstBlockLaunch (o : Od) (d : Dev) : Nat :=
  pno (if d.clk.dt + 160 ≤ nextStart o d then d.sched.count else d.sched.count + 1)

/-- Set requesters and causes; a rise of the source is recorded and reaches Pronghorn (R330, R331). While CTRL, which holds the
source, is not ON, only the conditions are noted: the source takes them up when CTRL reaches ON. -/
def tripSet (o : Od) (requesters causes : Nat) (d : Dev) : Dev :=
  let req := (if causes = 0 then clrBit requesters 0 else setBit requesters 0)
  let was := d.prot.requesters
  let d1 := { d with prot := { d.prot with requesters := req, causes := causes } }
  if !d.isOn .ctrl then pronghornAgain o d1
  else if was = 0 ∧ req ≠ 0 then
    pronghorn o (record o 0x2020 0 ([b8 req, 0] ++ toLE 2 causes ++ toLE 4 (firstBlockLaunch o d))
      { d1 with prot := { d1.prot with time := d.clk.dt, count := satInc d.prot.count, firstFault := 0xFFFFFFFF } })
  else if (was = 0) = (req = 0) then d1
  else pronghorn o d1

/-- A requester's condition begins to hold. -/
def requesterSet (o : Od) (bit : Nat) (d : Dev) : Dev := tripSet o (setBit d.prot.requesters bit) d.prot.causes d

/-- A requester's condition ends. -/
def requesterClear (o : Od) (bit : Nat) (d : Dev) : Dev := tripSet o (clrBit d.prot.requesters bit) d.prot.causes d

/-- Stack protection latches a trip cause of Table 14.2. -/
def tripCause (o : Od) (bit : Nat) (d : Dev) : Dev := tripSet o d.prot.requesters (setBit d.prot.causes bit) d

/-! ### Reactions concerning one cell (R315 to R322) -/

/-- Active cells a stack would have after the bypasses already due (R322). -/
def activeAfterBypass (o : Od) (d : Dev) (s : Nat) : Nat :=
  ((activeCells o d s).filter (fun c => !d.stack.bypass.any (fun b => b.1 == c))).length

/-- An internal stop is due at the next cut-off. -/
def stopDue (d : Dev) : Bool :=
  d.stack.state != .stopping && (match d.stack.due with | some (_, 2, none) => true | _ => false)

/-- An automatic bypass of an active cell, or the trip MIN_ACTIVE in its place (R315, R322). An automatic trigger takes the
place of a host trigger (R339). -/
def bypassCell (o : Od) (c trigger bit : Nat) (d : Dev) : Dev :=
  if d.stack.bypass.any (fun b => b.1 == c) then
    { d with stack := { d.stack with bypass := d.stack.bypass.map (fun b => if b.1 == c && b.2.1 == 7 then (c, trigger, bit) else b) } }
  else match stackOfCell o c with
    | none => d
    | some s =>
      if !d.stack.state.runs || !isActive d c || stopDue d then d
      else if activeAfterBypass o d s ≤ minActive o s then tripCause o 6 d
      else { d with stack := { d.stack with
        bypass := d.stack.bypass ++ [(c, trigger, bit)]
        reinserting := d.stack.reinserting.filter (fun r => r.cell != c) } }

/-- An action code of R317 or R321 applied to a cell: 0 record, 1 bypass, 2 trip with CELL_ACTION. -/
def cellAction (o : Od) (action c trigger bit : Nat) (d : Dev) : Dev :=
  if action = 1 then bypassCell o c trigger bit d
  else if action = 2 then tripCause o 5 d
  else d

/-- An active cell reaches FAULT or BLOCKED (R318); `presumed` is reason 0x0D. -/
def cellFell (o : Od) (c : Nat) (st : SessState) (presumed : Bool) (d : Dev) : Dev :=
  if !d.stack.state.regulates then d
  else match st with
    | .fault => tripCause o 4 d
    | .blocked =>
      if presumed then tripCause o 7 d
      else if d.prot.requesters != 0 then d
      else cellAction o (odU o 0x3308 8) c 6 0xFF d
    | _ => d

/-- A cell leaves the active set (R276); a stack below MIN_ACTIVE fails the start, or trips (R283). -/
def leaveActive (o : Od) (c : Nat) (d : Dev) : Dev :=
  if !isActive d c then d
  else
    let d1 := { d with stack := { d.stack with active := clrBit d.stack.active c } }
    match stackOfCell o c with
    | none => d1
    | some s =>
      if minActive o s ≤ (activeCells o d1 s).length then d1
      else if d1.stack.state.regulates then (if d1.prot.requesters != 0 then d1 else tripCause o 6 d1)
      else if d1.stack.state.runs then
        { d1 with stack := { d1.stack with due := some (d1.stack.due.getD (.stopped, 3, some (4, s))) } }
      else d1

/-- LINK sends BLOCK to every cell in ARMED, RUN or HOLD: while debug hides the keys, after a loss of SAFE, while TBLOCK is not
declared, and after a loss of CASLOCK with a stack running (R26, R153, R174). -/
def linkBlocks (d : Dev) : Bool :=
  d.sec.keysHidden || d.lcl.block || !d.time.tb.declared || d.time.casBlock

end Sys2Proof.Machine
end

