-- ==== Sys2Proof/Machine/LclOps.lean ====
section
/-! DEFINITION. Cell sessions and acyclic transactions: transitions, credit epochs, queues, the parameter exchange, and
what a received message does (chapters 10 and 11). -/
namespace Sys2Proof.Machine

/-! ### Names and configuration -/

def SessState.code : SessState → Nat
  | .absent => 0 | .discover => 1 | .admitting => 2 | .fawn => 3 | .locked => 4 | .param => 5 | .armed => 6 | .run => 7
  | .hold => 8 | .resync => 9 | .blocked => 10 | .bypassed => 11 | .fault => 12

/-- The state that a STATE code names (Table 10.1). -/
def SessState.ofCode (n : Nat) : Option SessState :=
  [SessState.absent, .discover, .admitting, .fawn, .locked, .param, .armed, .run, .hold, .resync, .blocked, .bypassed, .fault][n]?

/-- States whose telemetry is used whole (Table 10.1). -/
def SessState.allFields : SessState → Bool
  | .armed => true | .run => true | .hold => true | .blocked => true | .bypassed => true | .fault => true
  | _ => false

/-- FAWN to RESYNC in the order of Table 10.1. -/
def SessState.fawnToResync (s : SessState) : Bool := 3 ≤ s.code && s.code ≤ 9

def ringPaths (o : Od) (r : Nat) : Nat := odU o (0x3180 + r) 1
def ringCells (o : Od) (r : Nat) : Nat := if ringPaths o r = 0 then 0 else odU o (0x3180 + r) 2
def dualRing (o : Od) (r : Nat) : Bool := ringPaths o r == 3
def pathIx (r p : Nat) : Nat := 2 * r + p
def lclPar (o : Od) (sub : Nat) : Nat := odU o 0x3400 sub
def txnPar (o : Od) (sub : Nat) : Nat := odU o 0x3401 sub
def ringOf (c : Nat) : Nat := c / 16
def posOf (c : Nat) : Nat := c % 16
def getCell (d : Dev) (c : Nat) : Cell := vget d.lcl.cells c
def getRing (d : Dev) (r : Nat) : Ring := vget d.lcl.rings r
def getPath (d : Dev) (r p : Nat) : Path := vget d.lcl.paths (pathIx r p)
def setCell (c : Nat) (x : Cell) (d : Dev) : Dev := { d with lcl := { d.lcl with cells := vset d.lcl.cells c x } }
def modCell (c : Nat) (f : Cell → Cell) (d : Dev) : Dev := { d with lcl := { d.lcl with cells := vmod d.lcl.cells c f } }
def modTxn (c : Nat) (f : Txn → Txn) (d : Dev) : Dev := modCell c (fun x => { x with txn := f x.txn }) d
def modRing (r : Nat) (f : Ring → Ring) (d : Dev) : Dev := { d with lcl := { d.lcl with rings := vmod d.lcl.rings r f } }
def modPath (r p : Nat) (f : Path → Path) (d : Dev) : Dev := { d with lcl := { d.lcl with paths := vmod d.lcl.paths (pathIx r p) f } }

/-- Cells of a ring by position. -/
def ringCellList (o : Od) (r : Nat) : List Nat := (List.range (ringCells o r)).map (16 * r + ·)

/-- Bit c of the first 16 bytes: a mask of cells as an OCTET_STRING (0x3209:05, 0x3308:09). -/
def cellMask (p : Nat → Bool) : Bytes := toLE 16 (bitsOf 128 p)

/-! ### Credit epochs (R61 to R63, R252, R254) -/

/-- Credit left to the device in the direction into the cell (R255). -/
def Txn.credit (t : Txn) : Nat := (t.peerGrant + 65536 - t.newReqs % 65536) % 65536

/-- The eight bytes of terms of CREDIT_EPOCH_CLOSE (Table 3.9); the direction into the cell is the device's view (log entry 31). -/
def Txn.terms (t : Txn) : Bytes :=
  [b8 t.free, b8 t.granted, b8 t.inFlight, b8 t.held,
   b8 (t.cellPool - t.credit - t.out.length), b8 (min t.credit 255), b8 t.out.length, 0]

/-- Retire the pool and every message of the epoch (R62, R264). -/
def Txn.retire (t : Txn) : Txn :=
  { t with
    isOpen := false, pool := 0, free := 0, granted := 0, inFlight := 0, held := 0, queue := [], out := []
    napping := [], respDue := [], kept := [], completed := [], creditDue := false, creditEcho := false, echoSent := false, reconciling := false }

/-- Close an open epoch (R62). -/
def closeEpoch (o : Od) (c : Nat) (d : Dev) : Dev :=
  let t := (getCell d c).txn
  if !t.isOpen then d
  else modTxn c Txn.retire (record o 0x0502 (srcCell c) (t.terms ++ toLE 2 t.epoch) d)

/-- The number of the next epoch: the low byte 0x00 is skipped (R252). -/
def nextEpoch (e : Nat) : Nat := let n := (e + 1) % 65536; if n % 256 = 0 then n + 1 else n

/-- Open an epoch: both pools at their initial grants, tags and records empty (R226, R254). -/
def openEpoch (o : Od) (c k : Nat) (d : Dev) : Dev :=
  let b := txnPar o 3
  modTxn c (fun t => { t.retire with
    isOpen := true, epoch := nextEpoch t.epoch, pool := b, free := b - b / 2, granted := b / 2
    grant := b / 2, carried := b / 2, changedAt := k, peerGrant := t.cellPool / 2, newReqs := 0, cellReqs := 0
    tagNext := 0, high := 0xFF, seen := [] }) d

/-! ### Session transitions (R247, R250) -/

/-- States in which a RESYNC_BEGIN that a credit breach owes still waits for its launch (R63). -/
def SessState.awaitsResync (s : SessState) : Bool := (3 ≤ s.code && s.code ≤ 8) || s == .blocked

/-- Enter a session state: SESSION_STATE, the epoch it closes or opens, and what leaves the active set (R62, R226, R247, R276,
R318). `k` is the period count of the launch or return concerned. -/
def sessEnter (o : Od) (c : Nat) (st : SessState) (reason k : Nat) (d : Dev) : Dev :=
  let x := getCell d c
  let owed := x.resyncOwed && st.awaitsResync
  let d1 := setCell c { x with
    state := st, reason := reason, prev := x.state.code, since := d.clk.dt, sincePeriod := k, resyncOwed := owed
    nakSentSeen := false, nakReceivedSeen := false, control := if owed then [{ mtype := 0x09 }] else [], waitSince := none, awaitAnswer := false
    differ := 0, fawnUnseen := false
    holdCount := if st == .hold then satInc x.holdCount else x.holdCount
    ex := .idle, exRetries := 0, exResends := []
    seqBase := if st.allFields then x.seqBase else none
    prevV := if st.allFields then x.prevV else none
    lastSlot := if st.allFields then x.lastSlot else none
    lossRun := if st.allFields then x.lossRun else 0
    txn := { x.txn with kindsSeen := [] } } d
  let d2 := record o 0x1001 (srcCell c) ([b8 x.state.code, b8 st.code, b8 reason, 0] ++ toLE 4 (pno k)) d1
  let d3 := match st with
    | .fawn => openEpoch o c k d2
    | .resync => openEpoch o c k (closeEpoch o c d2)
    | .absent => closeEpoch o c d2
    | .discover => closeEpoch o c d2
    | .admitting => closeEpoch o c d2
    | .blocked => closeEpoch o c d2
    | .fault => closeEpoch o c d2
    | _ => d2
  let d4 := if isActive d c then cellFell o c st (reason == 0x0D) d3 else d3
  match st with
  | .blocked => leaveActive o c d4
  | .bypassed => leaveActive o c d4
  | .fault => leaveActive o c d4
  | .absent => leaveActive o c d4
  | _ => d4

/-! ### Queues -/

/-- The next place in the queue order of a cell's ring. -/
def nextOrd (c : Nat) (d : Dev) : Nat × Dev :=
  let r := ringOf c
  ((getRing d r).ord, modRing r (fun g => { g with ord := g.ord + 1 }) d)

/-- Queue a request of the device (R255). -/
def queueReq (c mtype : Nat) (body : Bytes) (d : Dev) : Dev :=
  let (n, d1) := nextOrd c d
  modTxn c (fun t => { t with queue := t.queue ++ [{ mtype := mtype, body := body, ord := n }] }) d1

/-- Queue a control message. -/
def queueControl (c mtype : Nat) (body : Bytes) (d : Dev) : Dev :=
  modCell c (fun x => { x with control := x.control ++ [{ mtype := mtype, body := body }] }) d

/-- Queue a response to a request of the cell node, and keep it for copies (R256). -/
def queueResp (c tag mtype : Nat) (body : Bytes) (d : Dev) : Dev :=
  let (n, d1) := nextOrd c d
  let m : LclMsg := { mtype := mtype, kind := 2, tag := tag, body := body }
  modTxn c (fun t => { t with respDue := t.respDue ++ [(n, m)], kept := ((tag, m) :: t.kept).take 32 }) d1

/-! ### NAK_STATE and partner errors (R229, R266, R267) -/

/-- Count a partner error; ERRANT at the limit (R266, R267). -/
def partnerError (o : Od) (c kind mtype tag grant k : Nat) (d : Dev) : Dev :=
  let x := getCell d c
  let t := x.txn
  let n := satInc (vget t.kinds (kind - 1))
  let win := (t.window ++ [k]).filter (fun p => k < p + txnPar o 6)
  let d1 := setCell c { x with txn := { t with
    errors := satInc t.errors, kinds := vset t.kinds (kind - 1) n, window := win, lastKind := kind
    kindsSeen := if t.kindsSeen.contains kind then t.kindsSeen else kind :: t.kindsSeen } } d
  let d2 := if t.kindsSeen.contains kind then d1
    else record o 0x1011 (srcCell c) ([b8 kind, b8 mtype, b8 tag, b8 x.state.code] ++ toLE 4 n ++ toLE 2 grant) d1
  if txnPar o 5 ≤ win.length ∧ !t.errant then
    cellAction o (if isActive d2 c then odU o 0x3308 7 else 0) c 5 0xFF
      (record o 0x1012 (srcCell c) ([1, b8 kind] ++ toLE 2 win.length) (modTxn c (fun t => { t with errant := true }) d2))
  else d2

/-- Answer a message that is not legal in the device's state (R229). -/
def nakState (o : Od) (c mtype : Nat) (request : Option Nat) (d : Dev) : Dev :=
  let x := getCell d c
  let n := satInc x.nakSent
  let d1 := setCell c { x with nakSent := n, nakSentSeen := true } d
  let d2 := if x.nakSentSeen then d1
    else record o 0x1003 (srcCell c) ([b8 mtype, b8 x.state.code, 0, 0] ++ toLE 4 n) d1
  match request with
  | some tag => queueResp c tag 0x0B [b8 mtype, b8 x.state.code] d2
  | none => queueControl c 0x0B [b8 mtype, b8 x.state.code] d2

/-! ### Admission failures (R234) -/

/-- An admission failure: recorded, back to DISCOVER, and the backoff after ADMIT_RETRIES, in which no DISCOVER is sent. -/
def admitFail (o : Od) (c reason k : Nat) (id : Bytes) (d : Dev) : Dev :=
  let x := getCell d c
  let n := x.fails + 1
  let back := decide (lclPar o 3 ≤ n)
  let d1 := setCell c { x with
    admitFails := satInc x.admitFails, fails := n, backoffFrom := if back then some d.clk.dt else x.backoffFrom
    awaitAnswer := false, control := if back then x.control.filter (fun m => m.mtype != 0x01) else x.control } d
  let d2 := record o 0x1002 (srcCell c) ([b8 reason, b8 n, if back then 1 else 0, 0, 0, 0, 0, 0] ++ id.take 8) d1
  if x.state == .discover then d2 else sessEnter o c .discover 0x12 k d2

/-! ### The parameter exchange (R239, R240, R244) -/

/-- Offsets of chunks of up to 44 bytes from `off` below `len`. -/
def chunkOffsets (off len : Nat) : List Nat :=
  (List.range ((len - off + 43) / 44)).map (fun i => off + 44 * i)

/-- Body of PARAM_WRITE for the chunk at `off`. -/
def writeBody (block : Bytes) (off : Nat) : Bytes :=
  let data := slice block off (min 44 (block.length - off))
  toLE 2 off ++ [b8 data.length, 0] ++ data

/-- Enter a step of the exchange and queue its requests; empty steps are passed over. -/
def exEnter (c : Nat) (st : ExStep) (d : Dev) : Dev :=
  let x := getCell d c
  let st1 : ExStep := if st == .write && x.block.isEmpty then .cal else st
  let st2 : ExStep := if st1 == .cal && x.calLen == 0 then .arm else st1
  match st2 with
  | .write => (chunkOffsets 0 x.block.length).foldl (fun d off => queueReq c 0x05 (writeBody x.block off) d)
      (setCell c { x with ex := .write } d)
  | .commit => queueReq c 0x06 (toLE 2 x.block.length ++ [0, 0] ++ toLE 4 (crc32c x.block)) (setCell c { x with ex := .commit } d)
  | .cal => (chunkOffsets 0 x.calLen).foldl (fun d off => queueReq c 0x07 (toLE 2 off ++ [b8 (min 44 (x.calLen - off))]) d)
      (setCell c { x with ex := .cal, calData := [] } d)
  | .arm =>
    let p := crc32c x.block
    let q := crc32c x.calData
    queueReq c 0x08 (toLE 4 p ++ toLE 4 q) (setCell c { x with ex := .arm } d)
  | .idle => d

/-- Enter PARAM and take up the exchange at a step, with the retries already used (R239, R240). -/
def enterParam (o : Od) (c k : Nat) (st : ExStep) (used : Nat) (d : Dev) : Dev :=
  let d1 := sessEnter o c .param 0x05 k d
  let d2 := modCell c (fun x => { x with exRetries := used, block := odGet o (0x3410 + odU o (0x3100 + c) 6) 1 }) d1
  exEnter c st d2

/-- Requests of a type still queued, outstanding or waiting after a NAK_STATE. -/
def Txn.pendingOf (t : Txn) (mtype : Nat) : Bool :=
  t.queue.any (·.mtype == mtype) || t.out.any (·.mtype == mtype) || t.napping.any (·.mtype == mtype)

/-- A verification failed: repeat from a step, or FAULT with reason 0x14 (R240). -/
def verifyFailed (o : Od) (c k code : Nat) (again : ExStep) (expected reported : Nat) (d : Dev) : Dev :=
  let x := getCell d c
  let used := if x.state == .param then x.exRetries else 0
  let d1 := record o 0x1006 (srcCell c)
    ([b8 code, b8 (lclPar o 0x0A - used), 0, 0] ++ toLE 4 expected ++ toLE 4 reported) d
  if used < lclPar o 0x0A then
    if x.state == .param then exEnter c again (modCell c (fun x => { x with exRetries := used + 1 }) d1)
    else enterParam o c k again (used + 1) d1
  else sessEnter o c .fault 0x14 k d1

/-- REQUEST_FAILED, and the failure of the exchange the request belongs to (R264). -/
def requestFailed (o : Od) (c k : Nat) (r : LclReq) (cause : Nat) (d : Dev) : Dev :=
  let d1 := modTxn c (fun t => { t with failed := satInc t.failed }) d
  let d2 := record o 0x1010 (srcCell c)
    ([b8 r.mtype, b8 r.tag, b8 cause, b8 r.attempts] ++ toLE 4 (pno (if cause = 3 then r.due.getD k else r.first))) d1
  let st := (getCell d2 c).state
  if st == .param || st == .resync then sessEnter o c .fault 0x15 k d2 else d2

/-- End an outstanding request: its tag is completed; without a response its reservation moves granted to free (R257). -/
def endRequest (c tag : Nat) (freed : Bool) (d : Dev) : Dev :=
  modTxn c (fun t => { t with
    out := t.out.filter (fun r => r.tag != tag)
    completed := (tag :: t.completed).take 32
    granted := if freed then t.granted - 1 else t.granted
    inFlight := if freed && t.granted == 0 then t.inFlight - 1 else t.inFlight
    free := if freed && 0 < t.granted + t.inFlight then t.free + 1 else t.free }) d

/-- An attempt of an outstanding request failed: retry in the next frame, or the request ends (R261, R264). -/
def attemptFailed (o : Od) (c k tag : Nat) (d : Dev) : Dev :=
  match (getCell d c).txn.out.find? (fun r => r.tag == tag) with
  | none => d
  | some r =>
    if r.retries < txnPar o 2 then
      modTxn c (fun t => { t with out := t.out.map (fun q => if q.tag == tag then { q with resend := true, retries := q.retries + 1, cause := 1 } else q) }) d
    else requestFailed o c k r 1 (endRequest c tag true d)

/-! ### Responses to the device's requests (R239, R256, R260) -/

/-- Replace bytes of a buffer from an offset, growing it as needed. -/
def splice (buf : Bytes) (off : Nat) (data : Bytes) : Bytes :=
  padTo off buf ++ data ++ buf.drop (off + data.length)

/-- The response type that answers a request. -/
def answerType (req : Nat) : Nat := req + 0x3F

/-- Whether a matched response echoes its request; one that does not is malformed (R266). -/
def answerOk (r : LclReq) (m : LclMsg) : Bool :=
  if m.mtype != answerType r.mtype then m.mtype == 0x4B
  else if m.mtype = 0x44 then m.body.drop 2 == [0] || (m.body.take 2 == r.body.take 2 && m.body.drop 2 == slice r.body 2 1)
  else if m.mtype = 0x46 then m.body.take 2 == r.body.take 2 && slice m.body 2 1 == slice r.body 2 1
  else true

/-- PARAM_ACK with LEN 0: every outstanding PARAM_WRITE is completed and the block sent again from the cell's offset; the
(REQ_RETRIES + 1)th resend of one offset fails the exchange (R260, R264). -/
def resendFrom (o : Od) (c k off : Nat) (r : LclReq) (d : Dev) : Dev :=
  let x := getCell d c
  let n := (x.exResends.filter (· == off)).length + 1
  let tags := (x.txn.out.filter (·.mtype == 0x05)).map (·.tag)
  let d1 := tags.foldl (fun d t => endRequest c t true d) d
  let d2 := modCell c (fun x => { x with
    exResends := off :: x.exResends
    txn := { x.txn with
      queue := x.txn.queue.filter (fun q => q.mtype != 0x05)
      napping := x.txn.napping.filter (fun q => q.mtype != 0x05) } }) d1
  if txnPar o 2 < n then requestFailed o c k r 4 d2
  else (chunkOffsets off x.block.length).foldl (fun d f => queueReq c 0x05 (writeBody x.block f) d) d2

/-- Act on a response to an outstanding request that has been completed (R239, R240, R244). -/
def onAnswer (o : Od) (c k : Nat) (r : LclReq) (m : LclMsg) (d : Dev) : Dev :=
  let x := getCell d c
  match m.mtype with
  | 0x44 =>
    if m.body.drop 2 == [0] then (if x.state == .param then resendFrom o c k (leAt m.body 0 2) r d else d)
    else if x.state == .param && x.ex == .write && !x.txn.pendingOf 0x05 then exEnter c .commit d else d
  | 0x45 =>
    if x.state != .param then d
    else if m.body.take 2 == r.body.take 2 && leAt m.body 4 4 == leAt r.body 4 4 then exEnter c .cal d
    else verifyFailed o c k 0x10 .write (leAt r.body 4 4) (leAt m.body 4 4) d
  | 0x46 =>
    let d1 := modCell c (fun x => { x with calData := splice x.calData (leAt m.body 0 2) (m.body.drop 4) }) d
    if x.state == .param && x.ex == .cal && !x.txn.pendingOf 0x07 then exEnter c .arm d1 else d1
  | 0x47 =>
    let res := leAt m.body 0 1
    if !(x.state == .param || x.state == .resync) then d
    else if res = 0 then
      sessEnter o c .armed 0x06 k (modCell c (fun x => { x with paramCrc := leAt r.body 0 4, calCrc := leAt r.body 4 4 }) d)
    else verifyFailed o c k res (if res = 2 then .cal else .write) (if res = 2 then leAt r.body 4 4 else leAt r.body 0 4) 0 d
  | _ => d

/-! ### NAK_STATE received (R229, R231, R262) -/

/-- Types legal in a receiver state (Table 10.2, Table 11.2), for messages of the device. -/
def legalForCell (mtype : Nat) (s : SessState) : Bool :=
  match mtype with
  | 0x01 => s != .bypassed
  | 0x02 => s == .discover
  | 0x03 => s == .admitting
  | 0x05 => s == .locked || s == .param || s == .resync
  | 0x06 => s == .param
  | 0x07 => s == .locked || s == .param || s == .resync
  | 0x08 => s == .param || s == .resync
  | 0x09 => s == .blocked
  | 0x0A => s != .absent
  | _ => false

/-- Requests and control messages of a cell node that are legal in the device's state. -/
def legalFromCell (mtype : Nat) (s : SessState) : Bool :=
  match mtype with
  | 0x41 => s == .discover
  | 0x42 => s == .admitting
  | 0x43 => s == .fawn || s == .resync
  | 0x48 => s == .fawn || s == .locked || s == .param || s == .resync || s == .blocked || s == .bypassed || s == .fault
  | 0x4C => s == .fawn || s == .locked || s == .param || s == .armed || s == .run || s == .hold || s == .resync || s == .bypassed
  | _ => false

/-- Count a received NAK_STATE; a cell node in BYPASSED that answers DISCOVER takes the session there (R229, R231). -/
def nakReceived (o : Od) (c k : Nat) (m : LclMsg) (d : Dev) : Dev :=
  let x := getCell d c
  let d1 := setCell c { x with nakReceived := satInc x.nakReceived, nakReceivedSeen := true, awaitAnswer := false } d
  let d2 := if x.nakReceivedSeen then d1 else record o 0x1004 (srcCell c) (m.body.take 2) d1
  let ty := leAt m.body 0 1
  let st := leAt m.body 1 1
  let d3 := if (st == x.state.code && legalForCell ty x.state) || ty == 0x04 || ty == 0x0B || ty == 0x0C || ty == 0x0D then
      partnerError o c 9 0x4B m.tag 0 k d2 else d2
  if ty == 0x01 && st == 0x0B && x.state == .discover then sessEnter o c .bypassed 0x0C k d3
  else d3

/-- A NAK_STATE that answers a request ends the attempt; it may be sent anew after NAK_RETRY_DELAY (R262, R264). -/
def nakRequest (o : Od) (c k : Nat) (r : LclReq) (d : Dev) : Dev :=
  if r.retries < txnPar o 2 then
    modTxn c (fun t => { t with napping := t.napping ++ [{ r with retries := r.retries + 1, notBefore := k + txnPar o 7, cause := 2, resend := false, suspended := 0 }] }) d
  else requestFailed o c k r 2 d

/-! ### Credit of the direction into the cell (R255, R266) -/

/-- Take the GRANT that a message carries: over-grant and regression are ignored and counted. -/
def takeGrant (o : Od) (c k : Nat) (m : LclMsg) (d : Dev) : Dev :=
  let t := (getCell d c).txn
  let ahead := (m.grant + 65536 - t.newReqs % 65536) % 65536
  let fwd := (m.grant + 65536 - t.peerGrant) % 65536
  if 32768 ≤ fwd then partnerError o c 5 m.mtype m.tag m.grant k d
  else if t.cellPool < ahead then partnerError o c 4 m.mtype m.tag m.grant k d
  else modTxn c (fun t => { t with peerGrant := m.grant }) d

/-! ### Requests of the cell node (R229, R237, R244, R245, R252, R256) -/

/-- CRC-32C of the block of the session's set, and of CAL_DATA: what a RESYNC compares (R244). -/
def resyncArm (c : Nat) (d : Dev) : Dev :=
  let x := getCell d c
  queueReq c 0x08 (toLE 4 x.paramCrc ++ toLE 4 x.calCrc) d

/-- LOCK_REPORT (R237): the result, the state it leads to, the answer. -/
def lockReport (o : Od) (c k tag : Nat) (body : Bytes) (d : Dev) : Dev :=
  let x := getCell d c
  let maxErr := leAt body 0 2
  let frames := leAt body 2 2
  let res := if lclPar o 6 < maxErr || frames < x.lockWindow then 1
    else if !(getRing d (ringOf c)).delayValid then 2
    else if d.time.uncertain then 3 else 0
  if res = 0 then
    let d1 := modCell c (fun x => { x with lockMaxErr := maxErr }) d
    let d2 := if x.state == .fawn then sessEnter o c .locked 0x04 k d1 else resyncArm c d1
    queueResp c tag 0x04 [0] d2
  else
    queueResp c tag 0x04 [b8 res] (record o 0x1007 (srcCell c) ([b8 res, 0, 0, 0] ++ toLE 2 maxErr ++ toLE 2 frames) d)

/-- Low bytes of stack-class events that a cell may report (R319). -/
def cellEventCode (e : Nat) : Bool := (0x40 ≤ e && e ≤ 0x4D) || (0x60 ≤ e && e ≤ 0x6D) || (0x80 ≤ e && e ≤ 0xFF)

/-- A cell event by either route, once (R203, R252, R319). -/
def cellEvent (o : Od) (c k e time mtype tag : Nat) (data : Bytes) (d : Dev) : Dev :=
  let x := getCell d c
  if e = 0 then d
  else if !cellEventCode e then partnerError o c 7 mtype tag 0 k d
  else if x.events.contains (e, time) then d
  else recordAt o time (0x2000 + e) (srcCell c) data (setCell c { x with events := (e, time) :: x.events } d)

/-- Execute an accepted legal request. -/
def onRequest (o : Od) (c k : Nat) (m : LclMsg) (d : Dev) : Dev :=
  match m.mtype with
  | 0x43 => lockReport o c k m.tag m.body d
  | 0x48 => queueControl c 0x0A [0x10] d
  | 0x4C => queueResp c m.tag 0x0C [] (cellEvent o c k (leAt m.body 0 1) (leAt m.body 4 8) 0x4C m.tag (slice m.body 12 16) d)
  | _ => d

/-- A request's tag is one already accepted: a copy (R256). -/
def Txn.isCopy (t : Txn) (tag : Nat) : Bool :=
  let ahead := (tag + 256 - t.high) % 256
  !(1 ≤ ahead && ahead ≤ 128) && t.seen.contains tag

/-- The outstanding request of a tag. -/
def Txn.outstanding (t : Txn) (tag : Nat) : Option LclReq := t.out.find? (fun r => r.tag == tag)

/-- Credited messages that are discarded whole, their GRANT with them: an uncredited request, a response that matches no request and
is no copy, and one that does not echo its request (R256, R266). -/
def Txn.discards (t : Txn) (m : LclMsg) : Bool :=
  if m.kind = 1 then !t.isCopy m.tag && t.cellReqs % 65536 == t.grant % 65536
  else if m.kind = 2 then
    match t.outstanding m.tag with
    | some r => !answerOk r m
    | none => !(m.retry && t.completed.contains m.tag)
  else false

/-- A request of the cell node: classed by its tag, charged against credit, executed or answered NAK_STATE (R229, R256,
R266). -/
def rxRequest (o : Od) (c k : Nat) (m : LclMsg) (d : Dev) : Dev :=
  let t := (getCell d c).txn
  let ahead := (m.tag + 256 - t.high) % 256
  let isNew := 1 ≤ ahead && ahead ≤ 128
  if t.isCopy m.tag then
    let d1 := modTxn c (fun t => { t with copies := satInc t.copies }) d
    let d2 := if m.retry then d1 else partnerError o c 1 m.mtype m.tag 0 k d1
    match t.kept.find? (fun p => p.1 == m.tag) with
    | some (_, resp) =>
      if t.respDue.any (fun q => q.2.tag == m.tag) then d2
      else
        let (n, d3) := nextOrd c d2
        modTxn c (fun t => { t with respDue := t.respDue ++ [(n, { resp with retry := true })] }) d3
    | none => d2
  else if t.cellReqs % 65536 == t.grant % 65536 then partnerError o c 6 m.mtype m.tag 0 k d
  else
    let high := if isNew then m.tag else t.high
    let d1 := modTxn c (fun t => { t with
      high := high
      seen := (m.tag :: t.seen).filter (fun x => (high + 256 - x) % 256 ≤ 127)
      cellReqs := t.cellReqs + 1
      -- held, then released at once and granted again (R255, R257)
      grant := (t.grant + 1) % 65536
      changedAt := if t.grant == t.carried then k else t.changedAt }) d
    let d2 := if isNew || m.retry then d1 else partnerError o c 2 m.mtype m.tag 0 k d1
    if legalFromCell m.mtype (getCell d2 c).state then onRequest o c k m d2
    else nakState o c m.mtype (some m.tag) d2

/-- A response: matched by tag, or a copy, or a stale tag (R256, R266). The result says whether it was the awaited one. -/
def rxResponse (o : Od) (c k : Nat) (m : LclMsg) (d : Dev) : Bool × Dev :=
  let t := (getCell d c).txn
  match t.outstanding m.tag with
  | some r =>
    if m.mtype = 0x4B then (true, nakRequest o c k r (nakReceived o c k m (endRequest c m.tag false d)))
    else if !answerOk r m then (false, partnerError o c 7 m.mtype m.tag 0 k d)
    else
      let late := k > r.launched + txnPar o 1 && (r.suspended != 0 || t.reconciling)
      let d1 := if late then modRing (ringOf c) (fun g => { g with reconLate := g.reconLate + 1 }) d else d
      (true, onAnswer o c k r m (endRequest c m.tag false d1))
  | none =>
    if m.retry && t.completed.contains m.tag then (false, modTxn c (fun t => { t with copies := satInc t.copies }) d)
    else (false, partnerError o c 3 m.mtype m.tag 0 k d)

/-! ### Control messages of the cell node (R232, R233, R245) -/

/-- The inputs SERIAL ‖ RING ‖ POS ‖ CELL_ID of both proofs. -/
def proofHead (label : List Char) (c : Nat) (x : Cell) : Bytes :=
  ascii label ++ toLE 8 Config.serial.toNat ++ [b8 (ringOf c), b8 (posOf c)] ++ x.id

/-- The IK of the admission of a cell: the one that the root of trust keeps for it, else the one present (R150). -/
def admissionKey (d : Dev) (c : Nat) : Bytes :=
  match d.sec.iksKept.find? (fun k => k.cell == c && k.nonce == (getCell d c).nonceD) with
  | some k => k.key
  | none => (vget d.nv.keys 1).getD []

/-- MAC_C and MAC_D (R233) with the IK of the admission. -/
def macC (ik : Bytes) (c : Nat) (x : Cell) : Bytes := (hmac ik (proofHead ['L', 'C', 'A', '1'] c x ++ x.nonceC ++ x.nonceD)).take 16
def macD (ik : Bytes) (c : Nat) (x : Cell) (limits : Bytes) : Bytes :=
  (hmac ik (proofHead ['L', 'C', 'A', '2'] c x ++ x.nonceD ++ x.nonceC ++ limits)).take 16

/-- The three limits of ADMIT_ACCEPT. -/
def lockLimits (o : Od) : Bytes := toLE 2 (lclPar o 5) ++ toLE 2 (lclPar o 6) ++ toLE 2 (lclPar o 7)

/-- The check of R232 that refuses a HELLO, as the reason of ADMIT_FAILED. -/
def helloRefusal (o : Od) (ik : Option Bytes) (c : Nat) (b : Bytes) (d : Dev) : Option Nat :=
  let id := slice b 0 16
  let want := odGet o (0x3100 + c) 4
  let zero : Bytes := List.replicate 16 0
  if leAt b 33 1 != 1 then some 6
  else if leAt b 32 1 % 128 != 16 * ringOf c + posOf c then some 7
  else if id == zero then some 3
  else if want != zero && id != want then some 3
  else if (List.range 128).any (fun q => q != c && 2 ≤ (getCell d q).state.code && (getCell d q).id == id) then some 4
  else if d.sec.keysHidden || ik.isNone then some 5
  else none

/-- A HELLO (R232, R234): refused and counted, or the session enters ADMIT and CHALLENGE is sent. -/
def onHello (o : Od) (ik : Option Bytes) (c k : Nat) (b : Bytes) (d : Dev) : Dev :=
  match helloRefusal o ik c b d with
  | some reason => admitFail o c reason k (slice b 0 16) d
  | none =>
    let caps := slice b 36 4
    let pool := leAt caps 0 1
    let d1 := sessEnter o c .admitting 0x02 k d
    let nonce := toLE 16 (Config.random16 d1.free).toNat
    let d2 := modCell c (fun x => { x with
      id := slice b 0 16, nonceC := slice b 16 16, nonceD := nonce, calLen := leAt b 34 2
      info := slice b 36 8, txn := { x.txn with cellPool := if pool < 2 then 2 else if 32 < pool then 32 else pool } }) d1.fresh
    let d3 := if pool < 2 || 32 < pool then partnerError o c 7 0x41 0 0 k d2 else d2
    queueControl c 0x02 nonce d3

/-- A CHALLENGE_RESP (R233, R234): ADMIT_ACCEPT is prepared where MAC_C is valid. -/
def onChallengeResp (o : Od) (c k : Nat) (b : Bytes) (d : Dev) : Dev :=
  let x := getCell d c
  if x.control.any (·.mtype == 0x03) then d
  else if (match x.waitSince with
      | some w => decide (w + lclPar o 2 < k)
      | none => false) then admitFail o c 1 k x.id d
  else if d.sec.keysHidden then admitFail o c 5 k x.id d
  else
    let ik := admissionKey d c
    if b != macC ik c x then admitFail o c 2 k x.id d
    else
      let lim := lockLimits o
      queueControl c 0x03 (macD ik c x lim ++ lim)
        (modCell c (fun x => { x with waitSince := none, awaitAnswer := false, lockWindow := lclPar o 5 }) d)

/-- A control message (R227, R229). -/
def rxControl (o : Od) (ik : Option Bytes) (c k : Nat) (m : LclMsg) (d : Dev) : Dev :=
  let st := (getCell d c).state
  if m.mtype = 0x4B then nakReceived o c k m d
  else if !legalFromCell m.mtype st then nakState o c m.mtype none d
  else if m.mtype = 0x41 then onHello o ik c k m.body d
  else if m.mtype = 0x42 then onChallengeResp o c k m.body d
  else if m.mtype = 0x48 then onRequest o c k m d
  else d

/-! ### CREDIT (R255, R265) -/

/-- Record RECONCILE_DONE and its yield where every session of the ring has ended reconciliation (R265). -/
def reconcileDone (o : Od) (r : Nat) (d : Dev) : Dev :=
  let g := getRing d r
  match g.recon with
  | none => d
  | some (kMiss, kSwitch) =>
    if (ringCellList o r).any (fun c => (getCell d c).txn.reconciling) then d
    else
      let longest := if g.reconAnswered + g.reconLimit = 0 then 0 else d.sched.count - kMiss
      let d1 := modRing r (fun g => { g with recon := none, reconAnswered := 0, reconLimit := 0, reconLate := 0 }) d
      let d2 := record o 0x1013 (srcPath r g.activePath)
        ([b8 g.reconAnswered, b8 g.reconLimit, b8 longest, b8 g.reconLate] ++ toLE 4 (pno kSwitch)) d1
      if g.reconLate = 0 then d2 else yieldTo o 3 4 0x0007 0x1013 (srcPath r g.activePath) d2

/-- The timeouts of a session resume from the count at which they stopped (R265). -/
def reconcileEnd (o : Od) (c : Nat) (answered : Bool) (d : Dev) : Dev :=
  let r := ringOf c
  match (getRing d r).recon with
  | none => d
  | some (kMiss, _) =>
    if !(getCell d c).txn.reconciling then d
    else
      let now := d.sched.count
      let d1 := modTxn c (fun t => { t with
        reconciling := false
        out := t.out.map (fun q => { q with suspended := q.suspended + (now - max kMiss q.launched) }) }) d
      let d2 := modRing r (fun g => if answered then { g with reconAnswered := g.reconAnswered + 1 } else { g with reconLimit := g.reconLimit + 1 }) d1
      reconcileDone o r d2

/-- A CREDIT of the cell node: ECHO is answered, and it ends a reconciliation (R255, R265). -/
def rxCredit (o : Od) (c : Nat) (m : LclMsg) (d : Dev) : Dev :=
  let d1 := if m.echo then modTxn c (fun t => { t with creditDue := true }) d else d
  reconcileEnd o c true d1

/-! ### One received message (R227, R251, R253, R266) -/

/-- Body length and kinds of the types a cell node may send (Tables 10.2 and 11.2); LEAVE_REQ is credited while an epoch is open
(R227, R252). -/
def cellMsgOk (opened : Bool) (m : LclMsg) : Bool :=
  let n := m.body.length
  !m.overlong && match m.mtype with
  | 0x41 => m.kind == 0 && n == 44
  | 0x42 => m.kind == 0 && n == 16
  | 0x43 => m.kind == 1 && n == 8
  | 0x44 => m.kind == 2 && n == 3
  | 0x45 => m.kind == 2 && n == 8
  | 0x46 => m.kind == 2 && 4 ≤ n && n == 4 + leAt m.body 2 1
  | 0x47 => m.kind == 2 && n == 1
  | 0x48 => m.kind == (if opened then 1 else 0) && n == 1
  | 0x4B => (m.kind == 0 || m.kind == 2) && n == 2
  | 0x4C => m.kind == 1 && n == 28
  | 0x4D => m.kind == 3 && n == 20 && 2 ≤ leAt m.body 0 1 && leAt m.body 0 1 ≤ 32
  | _ => false

/-- The buffer of a slot that a request or response arrived in becomes held (R257). -/
def slotHeld (c : Nat) (d : Dev) : Dev :=
  modTxn c (fun t => if t.inFlight = 0 then t else { t with inFlight := t.inFlight - 1, held := t.held + 1 }) d

/-- It is released after processing: to free, or back to granted where GRANT advanced or nothing was consumed (R255, R257). -/
def slotReleased (c : Nat) (toFree : Bool) (d : Dev) : Dev :=
  modTxn c (fun t => if t.held = 0 then t else { t with
    held := t.held - 1
    free := if toFree then t.free + 1 else t.free
    granted := if toFree then t.granted else t.granted + 1 }) d

/-- The buffer of a slot that brought neither goes back to granted (R257). -/
def slotBack (c : Nat) (d : Dev) : Dev :=
  modTxn c (fun t => if t.inFlight = 0 then t else { t with inFlight := t.inFlight - 1, granted := t.granted + 1 }) d

/-- A message of the cell node that arrived in a valid frame of period `k`, in a slot offered to it. -/
def rxMessage (o : Od) (ik : Option Bytes) (c k : Nat) (m : LclMsg) (d : Dev) : Dev :=
  let t := (getCell d c).txn
  if m.kind ≠ 0 ∧ (!t.isOpen || t.epoch % 256 != m.epoch) then
    slotBack c (modTxn c (fun t => { t with closedEpoch := satInc t.closedEpoch }) d)
  else if !cellMsgOk t.isOpen m then slotBack c (partnerError o c 7 m.mtype m.tag 0 k d)
  else if m.kind = 0 then rxControl o ik c k m (slotBack c d)
  else
    let d1 := if t.discards m then d else takeGrant o c k m d
    if m.kind = 1 then slotReleased c false (rxRequest o c k m (slotHeld c d1))
    else if m.kind = 2 then
      let (ours, d2) := rxResponse o c k m (slotHeld c d1)
      slotReleased c ours d2
    else rxCredit o c m (slotBack c d1)

end Sys2Proof.Machine
end

