-- ==== Sys2Proof/Machine/CellOps.lean ====
section
/-! DEFINITION. What a telemetry slot does: agreement of the two ends, sequence, conservation check, fault actions, loss and
freezing, reinsertion; and the ledger's accounts (chapters 3, 9, 10, 11, 13, 14). -/
namespace Sys2Proof.Machine

/-! ### Telemetry slot (Table 9.5) -/

/-- The fields of a telemetry slot. -/
structure Tlm where
  state : Nat
  status : Nat
  vdc : Nat
  qIn : Nat
  qOut : Nat
  temps : Bytes
  fault : Nat
  event : Nat
  seq : Nat
  time : Nat

/-- Read a slot of 24 bytes; reserved bits of FAULT are ignored (R7). -/
def Tlm.of (b : Bytes) : Tlm :=
  { state := leAt b 0 1, status := leAt b 1 1, vdc := leAt b 2 2, qIn := leAt b 4 4, qOut := leAt b 8 4
    temps := slice b 12 4, fault := leAt b 16 2 % 2 ^ 14, event := leAt b 18 1, seq := leAt b 19 1, time := leAt b 20 4 }

def Tlm.valid (t : Tlm) : Bool := t.status.testBit 7

/-! ### Agreement of the two ends (R243, R248) -/

/-- Table 10.6: what a persistent difference does. -/
inductive Resolve where
  | enter (s : SessState) (reason : Nat)
  | admission

/-- The first row of Table 10.6 that matches. -/
def resolve (d : SessState) (code : Nat) : Resolve :=
  if code = 12 ∧ d != .absent ∧ d != .fault then .enter .fault 0x0C
  else if code = 11 ∧ d != .absent ∧ d != .fault ∧ d != .bypassed then .enter .bypassed 0x0C
  else if code = 10 ∧ d.fawnToResync then .enter .blocked 0x0C
  else if code ≤ 2 ∧ 3 ≤ d.code then .enter .absent 0x11
  else if code ≤ 1 ∧ d == .admitting then .admission
  else .enter .fault 0x16

/-- Compare the two states, and act on a difference that persists (R248). DESIGN CHOICE (log entry 33): in DISCOVER a cell node that
has not reached FAWN is no difference, or the retries of R234 could not follow. -/
def agree (o : Od) (c k code : Nat) (d : Dev) : Dev :=
  let x := getCell d c
  if code == x.state.code || x.state == .absent || (x.state == .discover && code ≤ 2) then
    setCell c { x with differ := 0 } d
  else if x.differ + 1 < lclPar o 0x0C then setCell c { x with differ := x.differ + 1 } d
  else
    let d1 := record o 0x1005 (srcCell c) [b8 x.state.code, b8 code, b8 (x.differ + 1)] (setCell c { x with differ := 0 } d)
    match resolve x.state code with
    | .admission => admitFail o c 1 k x.id d1
    | .enter st reason =>
      let d2 := sessEnter o c st reason k d1
      if st == .bypassed && isActive d c then
        record o 0x2023 (srcCell c) ([9, 0xFF, b8 (match stackOfCell o c with
          | some s => countActive o d2 s
          | none => 0), 0] ++ toLE 4 (pno k)) d2
      else d2

/-! ### The conservation check (R305, R306) -/

/-- CELL_CAP of a cell, µF. -/
def cellCap (o : Od) (c : Nat) : Nat := leAt (odGet o 0x3210 1) (2 * c) 2

/-- The residual r in µC: V in 10 mV, I_LOSS in mA, T in ticks. -/
def residualOf (o : Od) (c : Nat) (t : Tlm) (v0 : Nat) : Rat :=
  ((t.qIn : Int) - t.qOut : Int) - (cellCap o c : Rat) * (((t.vdc : Int) - v0 : Int) : Rat) / 100
    - (odU o 0x3209 3 : Rat) * period o * (1 / 800000)

/-- The bound of the check, µC. -/
def residualBound (o : Od) (t : Tlm) : Rat :=
  (odU o 0x3209 1 : Rat) + (odU o 0x3209 2 : Rat) * (t.qIn + t.qOut) / 10000

/-- The check on an accepted slot and its outcome (Table 13.3). -/
def conserve (o : Od) (c k : Nat) (t : Tlm) (d : Dev) : Dev :=
  let x := getCell d c
  let y := { x with prevV := some (k, t.vdc) }
  if cellCap o c = 0 then
    setCell c { y with vUsed := t.vdc, dq := 0, residual := none, mark := some (.unaccounted 2) } d
  else match x.prevV with
    | some (k0, v0) =>
      if k0 + 1 = k then
        let r := residualOf o c t v0
        let b := residualBound o t
        let ri := clampI (-2147483647) 2147483647 (roundQ r)
        if -b ≤ r ∧ r ≤ b then
          setCell c { y with
            vUsed := t.vdc, dq := (t.qIn : Int) - t.qOut, residual := some ri, strikes := 0
            mark := some (.counted t.qIn t.qOut) } d
        else
          let n := x.strikes + 1
          let set := decide (odU o 0x3209 4 ≤ n) && !x.implausible
          let d1 := setCell c { y with
            dq := 0, checkFails := satInc x.checkFails, strikes := n, residual := some ri
            mark := some (.unaccounted 2), implausible := x.implausible || set } d
          let d2 := partnerError o c 0x0B 0 0 0 k d1
          if set then
            cellAction o (if isActive d2 c then odU o 0x3308 6 else 0) c 4 0xFF
              (record o 0x2010 (srcCell c) ([1, b8 n, 0, 0] ++ toLE 4 (ofSigned 32 ri) ++ toLE 4 (pno k)) d2)
          else d2
      else setCell c { y with vUsed := t.vdc, dq := 0, residual := none, mark := some (.unaccounted 1) } d
    | none => setCell c { y with vUsed := t.vdc, dq := 0, residual := none, mark := some (.unaccounted 1) } d

/-! ### The ledger (R73, R74, R76, R320) -/

/-- Number of an account's selector: cells 0 to 127, stacks 128 to 131, the bus 132. -/
def accountIx (sel : Nat) : Option Nat :=
  if sel < 128 then some sel else if 0x100 ≤ sel ∧ sel ≤ 0x103 then some (128 + sel - 0x100)
  else if sel = 0x200 then some 132 else none
def accountSel (i : Nat) : Nat := if i < 128 then i else if i < 132 then 0x100 + i - 128 else 0x200

/-- SOURCE of an account's events (R506). -/
def accountSrc (i : Nat) : Nat := if i < 128 then srcCell i else if i < 132 then srcStack (i - 128) else 0x100

/-- LEDGER_UNACCOUNTED of an interval (R74). -/
def gapEvent (o : Od) (i start cause len : Nat) (d : Dev) : Dev :=
  recordAt o start 0x0520 (accountSrc i) (toLE 2 (accountSel i) ++ [b8 cause, 0, 0, 0, 0, 0] ++ toLE 8 len) d

def setAccount (i : Nat) (a : Account) (d : Dev) : Dev :=
  { d with ledger := { d.ledger with accounts := vset d.ledger.accounts i a } }

/-- End an account's open interval, recording it. -/
def gapEnd (o : Od) (i : Nat) (d : Dev) : Dev :=
  let a := vget d.ledger.accounts i
  match a.gap with
  | none => d
  | some (start, cause, len, secs) =>
    gapEvent o i start cause len (setAccount i { a with gap := none, intervals := if secs = 0 then satInc a.intervals else a.intervals } d)

/-- One period of an account, counted with its charges (R73). -/
def ledgerCount (o : Od) (i qIn qOut len : Nat) (d : Dev) : Dev :=
  let d1 := gapEnd o i d
  let a := vget d1.ledger.accounts i
  setAccount i { a with qIn := a.qIn + qIn, qOut := a.qOut + qOut, counted := a.counted + len, recent := (true :: a.recent).take 255 } d1

/-- One period of an account, unaccounted with a cause: it joins an open interval of the same cause (R74). -/
def ledgerMiss (o : Od) (i cause start len : Nat) (d : Dev) : Dev :=
  let a := vget d.ledger.accounts i
  let same := match a.gap with
    | some (_, c, _, _) => c == cause
    | none => false
  let d1 := if same then d else gapEnd o i d
  let a1 := vget d1.ledger.accounts i
  let g := match a1.gap with
    | some (s, c, l, n) => (s, c, l + len, n)
    | none => (start, cause, len, 0)
  setAccount i { a1 with unaccounted := a1.unaccounted + len, gap := some g, recent := (false :: a1.recent).take 255 } d1

/-- The runs of counted periods in a list of periods, newest first: how many periods back each begins, and its length. -/
def countedRuns : Nat → List Bool → List (Nat × Nat)
  | _, [] => []
  | i, false :: rest => countedRuns (i + 1) rest
  | i, true :: rest => match countedRuns (i + 1) rest with
    | (j, n) :: more => if j = i + 1 then (i, n + 1) :: more else (i, 1) :: (j, n) :: more
    | [] => [(i, 1)]

/-- A run of counted periods becomes unaccounted with cause 0x01: one that reaches the present is the open interval, an older one is
recorded as it stands (R74, R320). -/
def recastRun (o : Od) (i : Nat) (run : Nat × Nat) (d : Dev) : Dev :=
  let p := period o
  let a := vget d.ledger.accounts i
  let len := run.2 * p
  let start := d.ledger.last - (run.1 + run.2) * p
  let a1 : Account := { a with counted := a.counted - len, unaccounted := a.unaccounted + len }
  if run.1 = 0 ∧ a.gap.isNone then setAccount i { a1 with gap := some (start, 1, len, 0) } d
  else gapEvent o i start 1 len (setAccount i { a1 with intervals := satInc a.intervals } d)

/-- The counted periods among the last `lim` of an account are recorded again as unaccounted, oldest first, and `n` periods' charges
leave it. -/
def recast (o : Od) (i lim n qIn qOut : Nat) (d : Dev) : Dev :=
  let a := vget d.ledger.accounts i
  let d1 := forEach (countedRuns 0 (a.recent.take lim)).reverse (recastRun o i) d
  let b := vget d1.ledger.accounts i
  setAccount i { b with
    qIn := b.qIn - n * qIn, qOut := b.qOut - n * qOut
    recent := (b.recent.take lim).map (fun _ => false) ++ b.recent.drop lim } d1

/-- The `lim` frozen slots before the first loss period, `n` of them counted, are recorded again as unaccounted, in the cell's account
and its stack's (R320). -/
def ledgerRefreeze (o : Od) (c lim n qIn qOut : Nat) (d : Dev) : Dev :=
  let d1 := recast o c lim n qIn qOut d
  match stackOfCell o c with
  | none => d1
  | some s => recast o (128 + s) lim n qIn qOut d1

/-! ### One slot of a valid frame (R203, R268, R317, R320, R321, R327) -/

/-- R268: whether TLM_SEQ is as expected; the slot becomes the new base. -/
def seqOk (x : Cell) (k seq : Nat) : Bool :=
  match x.seqBase with
  | none => true
  | some (k0, s0) => if k < k0 + 1 || k0 + 255 < k then true else seq == (s0 + (k - k0)) % 256

/-- Actions on fault bits newly set (R317). -/
def faultActions (o : Od) (c fault old : Nat) (d : Dev) : Dev :=
  if !isActive d c then d
  else
    let act := odGet o 0x3308 1
    forEach ((setBits 16 fault).filter (fun b => !old.testBit b)) (fun b d => cellAction o (leAt act b 1) c 1 b d) d

/-- Loss periods of an active cell in RUN or HOLD (R320, R321). -/
def lossPeriod (o : Od) (c : Nat) (usable frozen : Bool) (d : Dev) : Dev :=
  let x := getCell d c
  if usable then
    if x.lossRun = 0 then d
    else
      let d1 := setCell c { x with lossRun := 0, lossSeen := false } d
      if x.lossSeen then record o 0x2025 (srcCell c) [0, b8 (min x.lossRun 255)] d1 else d1
  else if !isActive d c || !(x.state == .run || x.state == .hold) then d
  else
    let n := x.lossRun + 1
    let d1 := setCell c { x with lossRun := n, lossSeen := x.lossSeen || decide (odU o 0x3308 2 ≤ n) } d
    if n = odU o 0x3308 2 then
      cellAction o (odU o 0x3308 5) c (if frozen then 3 else 2) 0xFF
        (record o 0x2025 (srcCell c) [if frozen then 2 else 1, b8 n] d1)
    else d1

/-- A reinserting cell joins after 10 periods within 2 % of the target (R327). -/
def reinsertSlot (o : Od) (c k : Nat) (v : Nat) (d : Dev) : Dev :=
  match d.stack.reinserting.find? (fun r => r.cell == c), stackOfCell o c with
  | some r, some s =>
    let vt := (vget d.stack.groups (groupOfStack o s)).vTarget
    let vv : Rat := (v : Rat) / 100
    let good := if vt * 98 / 100 ≤ vv ∧ vv ≤ vt * 102 / 100 then r.good + 1 else 0
    if 10 ≤ good then
      record o 0x2024 (srcCell c) ([2, 0, 0, 0] ++ toLE 4 (pno k))
        { d with stack := { d.stack with
          active := setBit d.stack.active c
          reinserting := d.stack.reinserting.filter (fun q => q.cell != c) } }
    else { d with stack := { d.stack with
      reinserting := d.stack.reinserting.map (fun q => if q.cell == c then { q with good := good } else q) } }
  | _, _ => d

/-- VDC of an active cell above VDC_TRIP of its VDC_NOMINAL (Table 14.2). -/
def vdcTrip (o : Od) (c v : Nat) (d : Dev) : Dev :=
  match stackOfCell o c with
  | some s =>
    if isActive d c ∧ odU o (0x3001 + s) 4 ≠ 0 ∧ odU o (0x3001 + s) 4 * odU o 0x3300 9 < v * 1000 then tripCause o 2 d else d
  | none => d

/-- Everything that follows from a slot in a state whose telemetry is used whole. -/
def slotUsed (o : Od) (c k : Nat) (t : Tlm) (d : Dev) : Dev :=
  let x := getCell d c
  let inSeq := seqOk x k t.seq
  let ok := inSeq && t.valid
  let d1 := setCell c { x with seqBase := some (k, t.seq), eventPending := if t.valid then t.status.testBit 4 else x.eventPending, eventAck := t.event != 0, faultBits := t.fault } d
  let d2 := if inSeq then d1 else partnerError o c 0x0A 0 0 0 k d1
  let now := d.clk.dt
  let d3 := cellEvent o c k t.event (now - (now + 2 ^ 32 - t.time) % 2 ^ 32) 0 0 [] d2
  let key := toLE 2 t.vdc ++ toLE 4 t.qIn ++ toLE 4 t.qOut ++ t.temps
  let p := x.pHist.getD 2 0
  let pMin := odF o 0x3308 4
  let advanced := match x.seqBase with
    | some (_, s0) => t.seq != s0
    | none => false
  let frozenNow := ok && advanced && x.lastSlot == some key && (pMin ≤ p || p ≤ -pMin)
  let run := if frozenNow then x.frozenRun + 1 else 0
  let lim := odU o 0x3308 3
  let loss := frozenNow && lim < run
  let d4 := modCell c (fun y => { y with
    lastSlot := if ok then some key else y.lastSlot, frozenRun := run, frozenCounted := if frozenNow then y.frozenCounted else 0 }) d3
  let d5 :=
    if loss then
      let d5 := if run = lim + 1 then ledgerRefreeze o c lim x.frozenCounted t.qIn t.qOut d4 else d4
      modCell c (fun y => { y with mark := some (.unaccounted 1), prevV := some (k, t.vdc) }) d5
    else if ok then
      let d5 := conserve o c k t (modCell c (fun y => { y with vdc := t.vdc, everVdc := true }) d4)
      let counted := match (getCell d5 c).mark with
        | some (.counted _ _) => true
        | _ => false
      modCell c (fun y => { y with frozenCounted := if frozenNow && counted then y.frozenCounted + 1 else y.frozenCounted }) d5
    else modCell c (fun y => { y with mark := some (.unaccounted 1), prevV := none }) d4
  let d6 := lossPeriod o c (ok && !loss) loss d5
  let d7 := faultActions o c t.fault x.faultBits d6
  if ok then reinsertSlot o c k t.vdc (vdcTrip o c t.vdc d7) else d7

/-- A slot of a valid CYCLIC frame of period `k`. -/
def telemetry (o : Od) (c k : Nat) (b : Bytes) (d : Dev) : Dev :=
  let t := Tlm.of b
  let x := getCell d c
  let d1 :=
    if x.state == .run && t.state == 8 then sessEnter o c .hold 0x08 k d
    else if x.state == .hold && t.state == 7 then sessEnter o c .run 0x09 k d
    else if x.state == .fawn && x.fawnUnseen && t.state == 3 then setCell c { x with fawnUnseen := false, fails := 0 } d
    else d
  let d2 := agree o c k t.state d1
  if (getCell d2 c).state.allFields then slotUsed o c k t d2 else modCell c (fun y => { y with eventAck := false }) d2

end Sys2Proof.Machine
end

