-- ==== Sys2Proof/Machine/RingOps.lean ====
section
/-! DEFINITION. Rings and paths: building a frame, launching it, its return or miss, switch-overs and swaps, delay measurement
(chapters 9 and 11). -/
namespace Sys2Proof.Machine

/-! ### Frames (R198 to R204) -/

def cyclicLen (n : Nat) : Nat := 292 + 36 * n

/-- Length of a frame by type and cells (Table 9.3). -/
def frameLen (ftype n : Nat) : Nat :=
  if ftype = 1 then cyclicLen n else if ftype = 2 then 36 else if ftype = 3 ∨ ftype = 4 then 36 + 8 * n else 0

/-- Append the CRC (R200). -/
def withCrc (b : Bytes) : Bytes := b ++ toLE 4 (crc32 b)

/-- The header (Table 9.2), with the control period in ticks. -/
def header (per ftype r p n k launch apply flags : Nat) : Bytes :=
  [b8 ftype, 1, b8 (8 * p + r), b8 n] ++ toLE 4 (pno k) ++ toLE 8 launch ++ toLE 8 apply ++ toLE 4 per
    ++ toLE 2 flags ++ [0, 0]

/-- FTYPE, VERSION, RING_PATH and PERIOD_NO match those launched (R214); reserved bits are ignored (R7). -/
def sameHeader (b f : Bytes) : Bool :=
  b.take 2 == f.take 2 && leAt b 2 1 % 16 == leAt f 2 1 % 16 && slice b 4 4 == slice f 4 4

/-- A command slot (Table 9.4). -/
def CmdSlot.bytes (c : CmdSlot) : Bytes :=
  [b8 c.cmd, b8 c.flags] ++ toLE 2 (ofSigned 16 c.mv) ++ toLE 2 c.phase ++ toLE 2 (ofSigned 16 c.dab) ++ toLE 4 c.freq

/-- An acyclic slot (Tables 9.6 and 11.1). -/
def SlotUse.bytes : SlotUse → Bytes
  | .empty => padTo 64 [0xFF]
  | .reserved p => padTo 64 [b8 (0x40 + p)]
  | .message p m => padTo 64 ([b8 p, b8 m.mtype, b8 (m.kind + 4 * (if m.retry then 1 else 0) + 8 * (if m.echo then 1 else 0)),
      b8 m.tag, b8 m.epoch, b8 m.body.length] ++ toLE 2 m.grant ++ List.replicate 8 0 ++ m.body)

/-- The position a slot is reserved for. -/
def SlotUse.reservedFor : SlotUse → Option Nat
  | .reserved p => some p
  | _ => none

/-- Read the message of a slot (Table 11.1). -/
def LclMsg.of (b : Bytes) : LclMsg :=
  let f := leAt b 2 1
  { mtype := leAt b 1 1, kind := f % 4, retry := f.testBit 2, echo := f.testBit 3, tag := leAt b 3 1, epoch := leAt b 4 1
    grant := leAt b 6 2, body := slice b 16 (leAt b 5 1), overlong := 48 < leAt b 5 1 }

/-- Classes of a returning CRC (R200). -/
inductive CrcClass where
  | valid | stomped | error
deriving DecidableEq

/-- Class of a frame's CRC. -/
def crcClass (b : Bytes) : CrcClass :=
  let n := b.length - 4
  let want := crc32 (b.take n)
  let got := leAt b n 4
  if got = want then .valid else if got = want ^^^ 0xFFFFFFFF then .stomped else .error

/-! ### Acyclic slots of the next frame (R228, R252, R258, R263) -/

/-- EPOCH and GRANT of a message, and the tag of a new request (R252, R255). -/
def fillMsg (o : Od) (t : Txn) (m : LclMsg) : LclMsg :=
  if m.kind = 0 then
    (if m.mtype = 0x03 ∨ m.mtype = 0x09 then { m with epoch := nextEpoch t.epoch % 256, grant := txnPar o 3 / 2 } else m)
  else { m with epoch := t.epoch % 256, grant := t.grant }

/-- The CREDIT message of a session (Table 11.2). -/
def creditMsg (t : Txn) : LclMsg :=
  { mtype := 0x0D, kind := 3, echo := t.creditEcho
    body := [b8 t.pool, b8 t.high, 0, 0] ++ toLE 16 (bitsOf 128 (fun i => t.seen.contains ((t.high + 256 - i) % 256))) }

/-- Positions of a ring in rotation, beginning after `last`. -/
def rotate (n last : Nat) : List Nat := (List.range n).map (fun i => (last + 1 + i) % n)

/-- Merge by queue order. -/
def byOrd (l : List (Nat × SlotUse)) : List SlotUse :=
  (sortBy (fun a b => a.1 < b.1) l).map (·.2)

/-- A session waits for a reserved slot of R228. -/
def waitsSlot (o : Od) (k : Nat) (x : Cell) : Bool :=
  x.awaitAnswer || (!x.txn.isOpen && x.lastOffer + lclPar o 1 ≤ k)

/-- New requests of a session that may be launched in this frame: within credit, buffers and 64 outstanding, and not past their
launch timeout (R255, R263). -/
def newReqs (o : Od) (k : Nat) (t : Txn) : List LclReq :=
  let ready := t.queue.filter (fun q => k < q.due.getD k + txnPar o 1)
  ready.take (min t.credit (min t.free (64 - t.out.length)))

/-- Positions of a ring that wait for a slot of R228, in rotation. -/
def waitingAt (o : Od) (r k : Nat) (d : Dev) : List Nat :=
  (rotate (ringCells o r) (getRing d r).rotateWait).filter (fun p => waitsSlot o k (getCell d (16 * r + p)))

/-- New requests in the frames built and not yet launched: they count towards the 128 (R263). -/
def builtNews (d : Dev) : Nat :=
  ((List.range 8).map (fun r => match (getRing d r).build with
    | none => 0
    | some b => (b.slots.filter (fun u => match u with | .message _ m => m.kind == 1 && !m.retry | _ => false)).length)).sum

/-- The slots that steps 1 to 6 of R258 offer, in order; the slots that R265 reserves for the answers to CREDITs with ECHO come before
the next CREDITs. -/
def slotOffers (o : Od) (r k : Nat) (d : Dev) : List SlotUse :=
  let n := ringCells o r
  let cells := (List.range n).map (fun p => (p, getCell d (16 * r + p)))
  let msg (p : Nat) (x : Cell) (m : LclMsg) : SlotUse := .message p (fillMsg o x.txn m)
  let controls := cells.filterMap (fun (p, x) => x.control.head?.map (msg p x))
  let waits := (waitingAt o r k d).map SlotUse.reserved
  let responses := byOrd (cells.flatMap (fun (p, x) => x.txn.respDue.map (fun (i, m) => (i, msg p x m))))
  let retries := byOrd (cells.flatMap (fun (p, x) => (x.txn.out.filter (·.resend)).map (fun q =>
    (q.ord, msg p x { mtype := q.mtype, kind := 1, retry := true, tag := q.tag, body := q.body }))))
  let credits := (cells.filter (fun (_, x) => x.txn.creditDue)).map (fun (p, x) => msg p x (creditMsg x.txn))
  let echoes := (cells.filter (fun (_, x) => x.txn.echoSent)).map (fun (p, _) => SlotUse.reserved p)
  let total := ((List.range 128).map (fun c => (getCell d c).txn.out.length)).sum + builtNews d
  let news := (byOrd (cells.flatMap (fun (p, x) => (newReqs o k x.txn).zipIdx.map (fun (q, i) =>
    (q.ord, msg p x { mtype := q.mtype, kind := 1, tag := (x.txn.tagNext + i) % 256, body := q.body }))))).take (128 - total)
  let owing := byOrd ((cells.filter (fun (_, x) => x.txn.out.any (fun q => !q.resend))).map (fun (p, x) =>
    ((x.txn.out.map (·.ord)).foldl min (2 ^ 64), SlotUse.reserved p)))
  let pending := (cells.filter (fun (_, x) => x.eventPending && x.state.allFields)).map (fun (p, _) => SlotUse.reserved p)
  let res := waits ++ owing ++ pending
  let uniq := res.foldl (fun acc u => if acc.contains u then acc else acc ++ [u]) ([] : List SlotUse)
  let early := waits ++ echoes.filter (fun u => !waits.contains u)
  controls ++ waits ++ responses ++ retries ++ early.drop waits.length ++ credits ++ news ++ uniq.filter (fun u => !early.contains u)

/-- The position that slot 3 is reserved for: in rotation, while any session of the ring has an open epoch (R258). -/
def openTurn (o : Od) (r : Nat) (d : Dev) : Option Nat :=
  (rotate (ringCells o r) (getRing d r).rotateOpen).find? (fun p => (getCell d (16 * r + p)).txn.isOpen)

/-- The slots left to the steps of R258. -/
def stepSlots (o : Od) (r k : Nat) (d : Dev) : List SlotUse :=
  let room := if (openTurn o r d).isSome then 3 else 4
  (slotOffers o r k d ++ List.replicate room SlotUse.empty).take room

/-- The four slots of the next frame. -/
def chooseSlots (o : Od) (r k : Nat) (d : Dev) : List SlotUse :=
  stepSlots o r k d ++ (openTurn o r d).toList.map SlotUse.reserved

/-- The last position in the rotation of R228 that these slots serve. -/
def lastServed (o : Od) (r k : Nat) (slots : List SlotUse) (d : Dev) : Option Nat :=
  ((waitingAt o r k d).filter (fun p => slots.contains (.reserved p))).getLast?

/-! ### Command slots (R202, R241, R322, R331) -/

/-- The state a session will have once its control message of this frame has left. -/
def stateAtLaunch (slots : List SlotUse) (c : Nat) (x : Cell) : SessState :=
  if slots.any (fun u => match u with
      | .message p m => p == posOf c && m.kind == 0 && m.mtype == 0x03
      | _ => false) then .fawn
  else if slots.any (fun u => match u with
      | .message p m => p == posOf c && m.kind == 0 && m.mtype == 0x09
      | _ => false) then .resync
  else if slots.any (fun u => match u with
      | .message p m => p == posOf c && m.kind == 0 && m.mtype == 0x0A
      | _ => false) then .absent
  else x.state

/-- The command for a cell: what its session state gives, or what the stack controller wants where it is in service (Table
10.3, R153, R26). -/
def commandFor (d : Dev) (want : Nat → CmdSlot) (freq : Nat) (slots : List SlotUse) (c : Nat) : CmdSlot :=
  let x := getCell d c
  let st := stateAtLaunch slots c x
  let bare (cmd : Nat) : CmdSlot := { cmd := cmd }
  let s : CmdSlot :=
    if st.inService && linkBlocks d then bare 2
    else if d.stack.bypass.any (fun b => b.1 == c) && 6 ≤ st.code && st.code ≤ 10 then bare 3
    else match st with
      | .blocked => bare 2
      | .fault => bare 2
      | .bypassed => bare 3
      | .armed => want c
      | .run => want c
      | .hold => want c
      | _ => bare 0
  { s with flags := if x.eventAck then 1 else 0, freq := freq }

/-- The override of R331: BYPASS for BYPASSED, IDLE for ABSENT to ADMIT, BLOCK otherwise. -/
def overrideCommand (d : Dev) (slots : List SlotUse) (c : Nat) (s : CmdSlot) : CmdSlot :=
  let st := stateAtLaunch slots c (getCell d c)
  { s with cmd := if st == .bypassed then 3 else if st.code ≤ 2 then 0 else 2, mv := 0, phase := 0, dab := 0 }

/-- Build the frame of a ring for launch `k` (R207). -/
def buildRing (o : Od) (r k : Nat) (want : Nat → CmdSlot) (freq : Nat) (d : Dev) : Dev :=
  if !(getRing d r).started then d
  else
    -- the request at the head of each queue becomes due (R263)
    let d1 := forEach (ringCellList o r) (fun c d => modTxn c (fun t => { t with
      queue := match t.queue with
        | q :: rest => { q with due := some (q.due.getD k) } :: rest
        | [] => [] }) d) d
    let slots := chooseSlots o r k d1
    let cmds := (ringCellList o r).map (commandFor d1 want freq slots)
    -- a swap waits for a launch whose cut-off follows it (R221)
    let g := getRing d1 r
    let other := getPath d1 r (1 - g.activePath)
    let swapNow := g.swap && g.pendingSwitch.isNone && other.state == .standby && d1.isOn .safe
    modRing r (fun g => { g with
      build := some {
        period := k, cmds := cmds, slots := slots, blockAll := cmds.all (fun c => c.cmd == 2), uncertain := d1.time.uncertain
        length := period o, apply := d1.lcl.applyOffset, standby := d1.isOn .safe
        served := lastServed o r k (stepSlots o r k d1) d1, opened := openTurn o r d1 }
      pendingSwitch := if swapNow then some (2, false) else g.pendingSwitch
      swap := if g.swap && g.pendingSwitch.isNone && d1.isOn .safe then false else g.swap }) d1

/-! ### Launch (R205, R212, R216, R220, R241, R257) -/

/-- What the launch of a slot's message does to its session. -/
def slotLaunched (o : Od) (r k : Nat) (u : SlotUse) (d : Dev) : Dev :=
  let offer (p : Nat) (d : Dev) : Dev := modCell (16 * r + p) (fun x => { x with
    lastOffer := k
    txn := let x := { x with txn := { x.txn with echoSent := false } }
      if x.txn.isOpen && 0 < x.txn.granted then { x.txn with granted := x.txn.granted - 1, inFlight := x.txn.inFlight + 1 } else x.txn }) d
  match u with
  | .empty => d
  | .reserved p => offer p d
  | .message p m =>
    let c := 16 * r + p
    let x := getCell d c
    let owe (d : Dev) : Dev := modRing r (fun g => { g with delayOwed := true }) d
    let d1 :=
      if m.kind = 0 then
        if x.control.head?.map (·.mtype) != some m.mtype then d
        else
          let d1 := setCell c { x with control := x.control.tail } d
          match m.mtype with
          | 0x01 => modCell c (fun x => { x with awaitAnswer := true }) d1
          | 0x02 => modCell c (fun x => { x with awaitAnswer := true, waitSince := some k }) d1
          | 0x03 => owe (modCell c (fun x => { x with waitSince := some k, fawnUnseen := true }) (sessEnter o c .fawn 0x03 k d1))
          | 0x09 => owe (sessEnter o c .resync 0x0E k d1)
          | 0x0A => if x.state == .absent then d1 else sessEnter o c .absent 0x10 k d1
          | _ => d1
      else if m.kind = 1 then
        if m.retry then modTxn c (fun t => { t with
          retries := satInc t.retries
          out := t.out.map (fun q => if q.tag == m.tag then { q with resend := false, launched := k, attempts := q.attempts + 1, suspended := 0 } else q) }) d
        else modTxn c (fun t => match t.queue.find? (fun q => q.mtype == m.mtype && q.body == m.body) with
          | none => t
          | some q => { t with
              queue := t.queue.erase q
              out := t.out ++ [{ q with tag := m.tag, launched := k, suspended := 0, first := if q.attempts = 0 then k else q.first, attempts := q.attempts + 1 }]
              newReqs := t.newReqs + 1, tagNext := (m.tag + 1) % 256, free := t.free - 1, granted := t.granted + 1 }) d
      else if m.kind = 2 then modTxn c (fun t => match t.respDue.find? (fun q => q.2.tag == m.tag && q.2.mtype == m.mtype) with
          | none => t
          | some q => { t with respDue := t.respDue.erase q }) d
      else modTxn c (fun t => { t with creditDue := false, creditEcho := false, echoSent := m.echo }) d
    let d2 := if m.kind = 0 then d1 else modTxn c (fun t => { t with carried := m.grant }) d1
    let echo := (getCell d2 c).txn.echoSent
    modTxn c (fun t => { t with echoSent := echo }) (offer p d2)

/-- What the launch of a command does to its session (Table 10.4). -/
def commandLaunched (o : Od) (k c : Nat) (s : CmdSlot) (d : Dev) : Dev :=
  let x := getCell d c
  let d1 := setCell c { x with cmd := s, pHist := ((vget d.stack.power c) :: x.pHist).take 3 } d
  if s.cmd = 2 ∧ x.state.fawnToResync then sessEnter o c .blocked 0x0B k d1
  else if s.cmd = 3 ∧ 6 ≤ x.state.code ∧ x.state.code ≤ 10 then
    let d2 := sessEnter o c .bypassed 0x0F k d1
    match d.stack.bypass.find? (fun b => b.1 == c) with
    | none => d2
    | some (_, trigger, bit) =>
      let d3 := { d2 with stack := { d2.stack with bypass := d2.stack.bypass.filter (fun b => b.1 != c) } }
      let d4 := if trigger = 8 then record o 0x2024 (srcCell c) ([3, 0, 0, 0] ++ toLE 4 (pno k)) d3 else d3
      record o 0x2023 (srcCell c) ([b8 trigger, b8 bit, b8 (match stackOfCell o c with
        | some s => countActive o d4 s
        | none => 0), 0] ++ toLE 4 (pno k)) d4
  else if s.cmd = 1 ∧ x.state == .armed then
    let d2 := sessEnter o c .run 0x07 k d1
    if d.stack.reinserting.any (fun r => r.cell == c) then record o 0x2024 (srcCell c) ([1, 0, 0, 0] ++ toLE 4 (pno k)) d2 else d2
  else if s.cmd = 0 ∧ (x.state == .run || x.state == .hold) then sessEnter o c .armed 0x0A k d1
  else d1

/-- A frame leaves by the pins of a path; during a scan takeover it is lost there (R157). -/
def putLane (r p launch : Nat) (frame : Bytes) (d : Dev) : Dev :=
  if d.sec.scan then d else { d with out := d.out ++ [.lcl r p launch frame] }

/-- Put a frame on a path. -/
def sendFrame (r p : Nat) (f : Flight) (d : Dev) : Dev :=
  putLane r p f.launch f.frame (modPath r p (fun q => { q with flights := q.flights ++ [{ f with lost := d.sec.scan }] }) d)

/-- Flags of a header. -/
def frameFlags (uncertain switched late blockAll : Bool) : Nat :=
  bitIf 4 switched + bitIf 3 late + bitIf 2 uncertain + bitIf 1 blockAll

/-- The CYCLIC frame of a build. -/
def cyclicFrame (r p n k launch nominal : Nat) (b : Build) (switched late copy : Bool) : Bytes :=
  withCrc (header b.length 1 r p n k launch (nominal + b.apply) (frameFlags b.uncertain switched late b.blockAll)
    ++ b.cmds.flatMap CmdSlot.bytes ++ List.replicate (24 * n) 0
    ++ (if copy then List.replicate 4 SlotUse.empty else b.slots).flatMap SlotUse.bytes)

/-- A switch takes effect at a launch (R216, R221): the new active path, the event, the DELAY launches of R210, the start of the
CREDITs of R265. A swap pending beside a failure is dropped (R222). -/
def switchNow (o : Od) (r k launch reason : Nat) (late dropped : Bool) (d : Dev) : Dev :=
  let g := getRing d r
  let old := g.activePath
  let new := 1 - old
  let dropped := dropped || (reason == 1 && g.swap)
  let ticks := launch - (getPath d r old).lastValid
  let d1 := modPath r new (fun p => { p with state := .active, missRun := 0 })
    (modPath r old (fun p => if reason = 2 then { p with state := .standby } else p) d)
  let d2 := modRing r (fun g => { g with
    activePath := new, pendingSwitch := none, delayLeft := 16, lost := false, delayBroken := true
    swap := g.swap && reason != 1
    switchCount := if reason = 1 then satInc g.switchCount else g.switchCount
    recon := g.recon.map (fun q => (q.1, k)) }) d1
  record o 0x1102 (srcPath r new) ([b8 reason, if late then 1 else 0, if dropped then 1 else 0, 0] ++ toLE 4 (pno k) ++ toLE 8 ticks) d2

/-- Mark the sessions under reconciliation as owing a CREDIT with ECHO (R265). -/
def creditEchoAll (o : Od) (r : Nat) (d : Dev) : Dev :=
  forEach (ringCellList o r) (fun c d => modTxn c (fun t =>
    if t.isOpen && t.reconciling then { t with creditDue := true, creditEcho := true } else t) d) d

/-- Launch the frames of one ring at launch instant `t` of period `k` (R205, R220). `trip` is the override of R331. -/
def launchRing (o : Od) (r k t : Nat) (trip : Bool) (d : Dev) : Dev :=
  let g0 := getRing d r
  match g0.build with
  | none => d
  | some b0 =>
    if !g0.started then d
    else
      let n := ringCells o r
      let b : Build := if trip then
          let cmds := b0.cmds.zipIdx.map (fun (s, p) => overrideCommand d b0.slots (16 * r + p) s)
          { b0 with cmds := cmds, blockAll := cmds.all (fun c => c.cmd == 2) }
        else b0
      let d1 := match g0.pendingSwitch with
        | some (reason, dropped) => if d.isOn .safe then switchNow o r k t reason false dropped d else d
        | none => d
      let g := getRing d1 r
      let switched := g0.pendingSwitch.isSome && d.isOn .safe
      let main : Flight := { ftype := 1, period := k, launch := t, slots := b.slots
                             frame := cyclicFrame r g.activePath n k t t b switched false false }
      let d2 := sendFrame r g.activePath main d1
      let other := 1 - g.activePath
      let d3 := if (getPath d2 r other).state == .disabled then d2
        else if b.standby && d2.isOn .safe then
          sendFrame r other { ftype := 2, period := k, launch := t,
                              frame := withCrc (header b.length 2 r other n k t 0 (frameFlags b.uncertain false false false)) } d2
        else sendFrame r other { ftype := 1, period := k, launch := t, copy := true
                                 frame := cyclicFrame r other n k t t b false false true } d2
      let d4 := modRing r (fun g => { g with
        launching := true, build := none, lc := if g.launching then g.lc else t
        rotateOpen := b.opened.getD g.rotateOpen
        rotateWait := b.served.getD g.rotateWait }) d3
      let d5 := forEach b.slots (slotLaunched o r k) d4
      let d6 := forEach (b.cmds.zipIdx) (fun (s, p) d => commandLaunched o k (16 * r + p) s d) d5
      -- no session of the ring is under reconciliation, or none is left: R265 step 4
      let ended := match (getRing d6 r).recon with
        | some (_, kSwitch) => (getRing d6 r).pendingSwitch.isNone && decide (kSwitch ≤ k)
        | none => false
      if ended then reconcileDone o r d6 else d6

/-! ### Deadlines (R214) -/

/-- Deadline of a frame's return in ps of device time; before the first accepted measurement, APPLY_OFFSET - 500 ns (R214,
log entry 34). -/
def deadlinePs (o : Od) (d : Dev) (r p : Nat) (f : Flight) : Nat :=
  let ref := (getPath d r p).rttRef
  let groups := frameLen f.ftype (ringCells o r) + 2
  if ref = 0 then f.launch * 1250 + d.lcl.applyOffset * 1250 - 500000
  else f.launch * 1250 + ref + 4000 * groups + 500000

/-- Device time in ps at which /T/ of a frame of `len` bytes arrives, from its round trip (R214). -/
def arrivalPs (f : Flight) (rttPs len : Nat) : Nat := f.launch * 1250 + rttPs + 4000 * (len + 2)

/-- /T/ arrives after the deadline, or the deadline has been let pass. -/
def tooLate (o : Od) (r p : Nat) (f : Flight) (rttPs len : Nat) (d : Dev) : Bool :=
  deadlinePs o d r p f < arrivalPs f rttPs len || deadlinePs o d r p f / 1250 + 1 < d.clk.dt

/-- The round trip and the time of the frame itself exceed APPLY_OFFSET − 500 ns (R214). -/
def beyondApply (o : Od) (d : Dev) (r : Nat) (f : Flight) (rttPs : Nat) : Bool :=
  d.lcl.applyOffset * 1250 < rttPs + 4000 * (frameLen f.ftype (ringCells o r) + 2) + 500000

/-- A frame can return on a path: the receiver is in sync, no scan takeover holds the pins, and the frame was not discarded (R157, R195). -/
def canReturn (d : Dev) (r p : Nat) (f : Flight) : Bool := (getPath d r p).sync && !d.sec.scan && !f.lost

/-! ### Delay measurement (R210 to R212, R235) -/

/-- The paths of a ring that are enabled. -/
def enabledPaths (d : Dev) (r : Nat) : List Nat := (List.range 2).filter (fun p => (getPath d r p).state != .disabled)

/-- A DELAY frame owed by the period that has ended falls due in the one that starts; what its launch owes waits for the next
(R235). A miss or a switch of the ended period no longer counts where no measurement goes on (R222). -/
def delayClaim (r : Nat) (d : Dev) : Dev :=
  modRing r (fun g => { g with
    delayDue := g.delayOwed, delayOwed := false, delayBroken := g.delayBroken && g.delayPeriod.isSome }) d

/-- Whether a DELAY frame is due in the period that starts, and the count of periods since the last (R210). -/
def delayTick (o : Od) (r : Nat) (d : Dev) : Dev :=
  modRing r (fun g =>
    if !g.launching then g
    else
      { g with
        delayDue := 0 < g.delayLeft || g.delayDue || odU o 0x31F0 4 ≤ g.delaySince + 1
        delayLeft := g.delayLeft - 1
        delaySince := g.delaySince + 1 }) d

/-- A DELAY frame of a path is no longer awaited. -/
def dropDelay (p r : Nat) (d : Dev) : Dev := modPath r p (fun q => { q with flights := q.flights.filter (fun f => f.ftype != 3) }) d

/-- Launch the DELAY frames of a ring 4,000 ns after the launch instant; a frame of an older measurement is awaited no more. -/
def delayLaunch (o : Od) (r : Nat) (d : Dev) : Dev :=
  let g := getRing d r
  let n := ringCells o r
  let k := d.sched.count - 1
  let t := d.sched.last + 3200
  if !g.launching || !g.delayDue then d
  else
    let d1 := forEach (enabledPaths d r) (fun p d => sendFrame r p
      { ftype := 3, period := k, launch := t
        frame := withCrc (header (period o) 3 r p n k t 0 (frameFlags d.time.uncertain false false false)
          ++ List.replicate (8 * n) 0xFF) } (dropDelay p r d)) d
    modRing r (fun g => { g with delayDue := false, delaySince := 0, delayPeriod := some k }) d1

/-- Ticks from a launch instant to the DELAY_RESULT of its period: behind the DELAY frame of 4,000 ns and 4 /I/ (R195).
DESIGN CHOICE (log entry 203): R212 names the period only. -/
def resultDelay (n : Nat) : Nat := 3200 + ((frameLen 3 n + 10) * 16 + 4) / 5

/-- DELAY_RESULT on the paths, in the period after an accepted measurement (R212). -/
def delayResult (o : Od) (r k t : Nat) (d : Dev) : Dev :=
  let g := getRing d r
  if !g.resultDue || !g.launching then d
  else
    let n := ringCells o r
    let entry (p i : Nat) : Bytes := toLE 4 ((getPath d r p).delays.getD i 0)
    let at' := t + resultDelay n
    let d1 := forEach (enabledPaths d r) (fun p d => putLane r p at'
      (withCrc (header (period o) 4 r p n k at' 0 (frameFlags d.time.uncertain false false false)
        ++ (List.range n).flatMap (fun i => entry 0 i ++ entry 1 i))) d) d
    modRing r (fun g => { g with resultDue := false, delayValid := true }) d1

/-- Span table entry in ps. -/
def spanPs (o : Od) (r s : Nat) : Int := 10 * toSigned 16 (leAt (odGet o (0x31A0 + r) 1) (2 * s) 2)

/-- Sum of `f` from `a` to `b` inclusive. -/
def sumFrom (f : Nat → Int) (a b : Nat) : Int := ((List.range (b + 1 - a)).map (fun i => f (a + i))).sum

/-- An entry of the measurement: RES_A, RES_B in ps and DELTA, merged from both frames; none where it still reads all 0xFF. -/
def delayEntry (fa fb : Bytes) (p : Nat) : Option (Int × Int × Int) :=
  let read (b : Bytes) : Option Bytes := let e := slice b (32 + 8 * p) 8; if e == List.replicate 8 0xFF then none else some e
  let conv (e : Bytes) : Int × Int × Int := ((10 * leAt e 0 2 : Nat), (10 * leAt e 2 2 : Nat), toSigned 32 (leAt e 4 4))
  match read fa with
  | some e => some (conv e)
  | none => (read fb).map conv

/-- The device's delays from two round trips (R211): per position on A and B, and the predicted RTT_B. -/
def solveDelays (o : Od) (r n : Nat) (rttA : Nat) (e : List (Int × Int × Int)) : List (Int × Int) × Int :=
  let resA (p : Nat) : Int := (e.getD p (0, 0, 0)).1
  let resB (p : Nat) : Int := (e.getD p (0, 0, 0)).2.1
  let delta (p : Nat) : Int := (e.getD p (0, 0, 0)).2.2
  let alpha := spanPs o r
  let s (p : Nat) : Int := (rttA : Int) + sumFrom alpha (p + 1) n - ((List.range (n - p)).map (fun i => resA (p + i))).sum
    + ((List.range (n - 1 - p)).map (fun i => resB (p + 1 + i))).sum
  let pred : Int := (rttA : Int) + sumFrom alpha 0 n - ((List.range n).map resA).sum + ((List.range n).map resB).sum
  ((List.range n).map (fun p => ((s p - delta p).tdiv 2, (s p + delta p).tdiv 2)), pred)

/-- The delays of a single-path ring: the span table stretched to the measured round trip (R212). -/
def singleDelays (o : Od) (r n : Nat) (path rtt : Nat) (e : List (Int × Int × Int)) : List Int :=
  let res (p : Nat) : Int := if path = 0 then (e.getD p (0, 0, 0)).1 else (e.getD p (0, 0, 0)).2.1
  let span := spanPs o r
  let total := sumFrom span 0 n
  let resAll := ((List.range n).map res).sum
  let diff := (rtt : Int) - total - resAll
  let adj (s : Nat) : Int := if total = 0 then diff.tdiv (n + 1) else span s + (diff * span s).tdiv total
  (List.range n).map (fun p =>
    if path = 0 then sumFrom adj 0 p + ((List.range p).map res).sum
    else sumFrom adj (p + 1) n + ((List.range (n - 1 - p)).map (fun i => res (p + 1 + i))).sum)

/-- A DELAY frame as returned is valid for its flight (R195, R199, R214). -/
def delayFrameOk (o : Od) (d : Dev) (r p : Nat) (f : Flight) (b : Bytes) (rttPs : Nat) : Bool :=
  let n := ringCells o r
  canReturn d r p f && crcClass b == .valid && b.length == frameLen 3 n && sameHeader b f.frame && leAt b 30 1 == n
    && !tooLate o r p f rttPs b.length d && !beyondApply o d r f rttPs

/-- Put delays in force: RTT_REF, CELL_DELAY, DELAY_CHANGED (R211). -/
def takeDelays (o : Od) (r : Nat) (rtt : List (Nat × Nat)) (delays : List (Nat × List Nat)) (d : Dev) : Dev :=
  let changes := delays.flatMap (fun (p, l) =>
    let old := (getPath d r p).delays
    l.zipIdx.map (fun (v, i) => (((v : Int) - (old.getD i 0 : Nat)), i, p)))
  let worst := changes.foldl (fun (acc : Int × Nat × Nat) x => if acc.1.natAbs < x.1.natAbs then x else acc) (0, 0, 0)
  let had := delays.any (fun (p, _) => (getPath d r p).delays != [])
  let d1 := forEach rtt (fun (p, v) d => modPath r p (fun q => { q with rttRef := v }) d) d
  let d2 := forEach delays (fun (p, l) d => modPath r p (fun q => { q with delays := l }) d) d1
  let d3 := modRing r (fun g => { g with resultDue := true, delayPeriod := none }) d2
  if had && 2000 < worst.1.natAbs then
    record o 0x1107 (srcPath r (getRing d r).activePath) ([b8 worst.2.1, b8 worst.2.2, 0, 0] ++ toLE 4 (ofSigned 32 worst.1)) d3
  else d3

/-- A measurement is rejected: nothing changes, and it is repeated in the next period (R211). -/
def delayReject (r : Nat) (d : Dev) : Dev :=
  modRing r (fun g => { g with delayPeriod := none, delayOwed := true }) (forEach [0, 1] (fun p d => dropDelay p r d) d)

/-- Both DELAY frames have returned: solve, accept or reject (R211, R222). -/
def delayReturn (o : Od) (r : Nat) (fa fb : Bytes) (rttA rttB : Nat) (d : Dev) : Dev :=
  let g := getRing d r
  let n := ringCells o r
  let flightOf (p : Nat) : Option Flight := (getPath d r p).flights.find? (fun f => f.ftype == 3)
  let drop (d : Dev) : Dev := forEach [0, 1] (fun p d => dropDelay p r d) d
  let reject := delayReject r
  if g.delayPeriod.isNone || !g.launching then d
  else
    let ok (p : Nat) (b : Bytes) : Bool := match flightOf p with
      | some f => delayFrameOk o d r p f b (if p = 0 then rttA else rttB)
      | none => false
    if dualRing o r then
      let entries := (List.range n).map (delayEntry fa fb)
      if !ok 0 fa || !ok 1 fb || g.delayBroken || entries.any Option.isNone then reject d
      else
        let (ds, pred) := solveDelays o r n rttA (entries.map (fun e => e.getD (0, 0, 0)))
        let err := (rttB : Int) - pred
        if 2000 < err.natAbs then
          record o 0x1108 (srcPath r g.activePath) ([0, 0, 0, 0] ++ toLE 4 (ofSigned 32 err)) (reject d)
        else takeDelays o r [(0, rttA), (1, rttB)] [(0, ds.map (fun x => x.1.toNat)), (1, ds.map (fun x => x.2.toNat))] (drop d)
    else
      let p := if ringPaths o r = 2 then 1 else 0
      let b := if p = 0 then fa else fb
      let rtt := if p = 0 then rttA else rttB
      let entries := (List.range n).map (delayEntry b b)
      if !ok p b || g.delayBroken || entries.any Option.isNone then reject d
      else takeDelays o r [(p, rtt)] [(p, (singleDelays o r n p rtt (entries.map (fun e => e.getD (0, 0, 0)))).map Int.toNat)] (drop d)

/-! ### Misses and switch-overs (R215 to R222, R243) -/

/-- Failure-driven switch-overs of a ring within the last second (R218). -/
def recentSwitches (d : Dev) (r : Nat) : List Nat := (getRing d r).switches.filter (fun t => d.clk.dt < t + secT 1)

/-- Start of a reconciliation: the timeouts of every session with an open epoch stop (R265). -/
def reconcileStart (o : Od) (r k : Nat) (d : Dev) : Dev :=
  let d1 := modRing r (fun g => { g with recon := some (k, k + 1), reconAnswered := 0, reconLimit := 0, reconLate := 0 }) d
  forEach (ringCellList o r) (fun c d => modTxn c (fun t => { t with reconciling := t.isOpen }) d) d1

/-- The frame of the running period leaves on the new path at once, with LATE_LAUNCH (R216, R219). -/
def lateLaunch (o : Od) (r : Nat) (dropped : Bool) (d : Dev) : Dev :=
  let g := getRing d r
  let k := d.sched.count - 1
  match (getPath d r g.activePath).flights.find? (fun f => f.ftype == 1 && f.period == k) with
  | none => modRing r (fun g => { g with pendingSwitch := some (1, dropped) }) d
  | some f =>
    let t := d.clk.dt
    let d1 := creditEchoAll o r (switchNow o r k t 1 true dropped d)
    let p := (getRing d1 r).activePath
    let body := f.frame.take (f.frame.length - 4)
    let flags := (leAt body 28 2 ||| 16) ||| 8
    let b := withCrc (body.take 2 ++ [b8 (8 * p + r)] ++ slice body 3 5 ++ toLE 8 t ++ slice body 16 12 ++ toLE 2 flags ++ body.drop 30)
    sendFrame r p { f with launch := t, frame := b } d1

/-- A failure of the active path: switch-over, suppression or loss of the ring (R215, R216, R218, R222). -/
def activeFailed (o : Od) (r k cause hops : Nat) (d : Dev) : Dev :=
  let g := getRing d r
  let a := g.activePath
  let was := (getPath d r a).state
  let d1 := modRing r (fun g => { g with failCause := cause }) (modPath r a (fun p => { p with state := .failed, missRun := 0 }) d)
  let first := was == .active
  let d2 := if first then record o 0x1101 (srcPath r a) ([b8 cause, b8 hops, 0, 0] ++ toLE 4 (pno k)) d1 else d1
  let standby := dualRing o r && (getPath d r (1 - a)).state == .standby
  let blocked := match g.suppressed with
    | some t => decide (d.clk.dt < t + secT 1) && !first
    | none => false
  let n := (recentSwitches d r).length
  let spent := decide (odU o 0x31F0 7 ≤ n)
  let lose (d : Dev) : Dev :=
    if !first then d
    else
      let d3 := record o 0x1105 (srcPath r a) ([b8 cause, 0, 0, 0] ++ toLE 4 (pno k)) (modRing r (fun g => { g with lost := true }) d)
      if (ringCellList o r).any (isActive d3) then tripCause o 7 d3 else d3
  if !standby || blocked || g.pendingSwitch.any (fun q => q.1 == 1) then lose d2
  else if spent then
    lose (record o 0x1106 (srcPath r a) [b8 n] (modRing r (fun g => { g with suppressed := some d.clk.dt }) d2))
  else
    let dropped := g.swap || g.pendingSwitch.isSome
    let d3 := reconcileStart o r k (modRing r (fun g => { g with
      swap := false, switches := recentSwitches d r ++ [d.clk.dt], delayBroken := true }) d2)
    let d4 := forEach (ringCellList o r) (fun c d => modCell c (fun x => { x with mark := some (.unaccounted 5) }) d) d3
    if k + 1 < d.sched.count && d.clk.dt ≤ d.sched.last + 2400 then lateLaunch o r dropped d4
    else creditEchoAll o r (modRing r (fun g => { g with pendingSwitch := some (1, dropped) }) d4)

/-- Chamois takes a miss of a path (Table 9.7). -/
def pathMiss (o : Od) (r p k cause hops : Nat) (d : Dev) : Dev :=
  if !d.isOn .safe then d
  else
    let g := getRing d r
    let q := getPath d r p
    let d1 := modRing r (fun g => { g with delayBroken := true }) d
    if p = g.activePath then
      let n := q.missRun + 1
      if odU o 0x31F0 6 ≤ n then activeFailed o r k cause hops d1
      else modPath r p (fun q => { q with missRun := n }) d1
    else match q.state with
      | .standby =>
        let d2 := record o 0x1101 (srcPath r p) ([b8 cause, b8 hops, 0, 0] ++ toLE 4 (pno k)) (modPath r p (fun q => { q with state := .failed }) d1)
        -- both paths missed in the same period: no switch is made (R222)
        if (getRing d2 r).pendingSwitch.any (fun s => s.1 == 1) then
          let d3 := record o 0x1105 (srcPath r g.activePath) ([b8 g.failCause, 0, 0, 0] ++ toLE 4 (pno k))
            (modRing r (fun g => { g with pendingSwitch := none, recon := none, lost := true, switches := g.switches.dropLast })
              (forEach (ringCellList o r) (fun c d => modTxn c (fun t => { t with reconciling := false, creditEcho := false }) d) d2))
          if (ringCellList o r).any (isActive d3) then tripCause o 7 d3 else d3
        else d2
      | .repairing => modPath r p (fun q => { q with state := .failed, okRun := 0 }) d1
      | _ => d1

/-- The ring's CYCLIC frame of a period did not return valid: RUN goes to HOLD, the slots offered go back (R243, R257). -/
def cyclicLost (o : Od) (r k : Nat) (slots : List SlotUse) (d : Dev) : Dev :=
  let d1 := forEach (ringCellList o r) (fun c d =>
    let d1 := if (getCell d c).state == .run then sessEnter o c .hold 0x08 k d else d
    modCell c (fun x => { x with mark := some (x.mark.getD (.unaccounted 1)) }) d1) d
  let d2 := forEach slots (fun u d => match u with
    | .empty => d
    | .reserved p => slotBack (16 * r + p) d
    | .message p _ => slotBack (16 * r + p) d) d1
  modRing r (fun g => { g with lastDone := k }) d2

/-- The telemetry of a valid CYCLIC frame of period `k`, launched at `launch`, is taken into use (R203, R243). -/
def takeTelemetry (o : Od) (r k launch : Nat) (slots : Bytes) (d : Dev) : Dev :=
  forEach (List.range (ringCells o r)) (fun i d => telemetry o (16 * r + i) k (slice slots (24 * i) 24) d)
    (modRing r (fun g => { g with took := k + 1, lc := launch, lastDone := k, copy := none }) d)

/-- Whether the ring's telemetry of a period has been taken. -/
def tookPeriod (d : Dev) (r k : Nat) : Bool := (getRing d r).took == k + 1

/-- The frame on the active path has missed: a copy that has returned serves in its place (R220). -/
def useCopy (o : Od) (r k : Nat) (d : Dev) : Dev :=
  match (getRing d r).copy with
  | some c => if c.period = k && !tookPeriod d r k then takeTelemetry o r k c.launch c.slots d else d
  | none => d

/-- A DELAY frame whose deadline has passed has not returned: its measurement is rejected (R211). -/
def delayDeadline (o : Od) (r p : Nat) (d : Dev) : Dev :=
  match (getPath d r p).flights.find? (fun f => f.ftype == 3) with
  | some f => if d.clk.dt * 1250 ≤ deadlinePs o d r p f || (getRing d r).delayPeriod.isNone then d else delayReject r d
  | none => d

/-- A path's return deadline passes without a valid frame (R214, R215). -/
def returnDeadline (o : Od) (r p : Nat) (d : Dev) : Dev :=
  let q := getPath d r p
  match q.flights.find? (fun f => f.ftype != 3) with
  | none => delayDeadline o r p d
  | some f =>
    if d.clk.dt * 1250 ≤ deadlinePs o d r p f then d
    else
      let d1 := modPath r p (fun q => { q with flights := q.flights.erase f, missed := satInc q.missed, fault := none }) d
      let cause := q.fault.getD f.cause
      let d2 := if f.counted then d1 else pathMiss o r p f.period cause f.hops d1
      let d3 := if f.ftype = 1 ∧ !f.copy then useCopy o r f.period d2 else d2
      delayDeadline o r p (if f.ftype = 1 ∧ !f.copy ∧ !tookPeriod d3 r f.period then cyclicLost o r f.period f.slots d3 else d3)

/-! ### Valid returns (R200, R214, R215) -/

/-- Check a returning CYCLIC or STANDBY frame: none where it is valid, else the cause (Table 9.13). -/
def frameFault (o : Od) (d : Dev) (r _p : Nat) (f : Flight) (b : Bytes) (rttPs : Nat) : Option Nat :=
  let n := ringCells o r
  match crcClass b with
  | .error => some 2
  | .stomped => some 3
  | .valid =>
    if b.length ≠ frameLen f.ftype n ∨ !sameHeader b f.frame then some 8
    else if leAt b 30 1 ≠ n then some 4
    else if beyondApply o d r f rttPs then some 7
    else none

/-- A valid frame on a path (Table 9.7). -/
def pathGood (o : Od) (r p k : Nat) (d : Dev) : Dev :=
  if !d.isOn .safe then d
  else
    let g := getRing d r
    let q := getPath d r p
    if p = g.activePath then
      let d1 := modRing r (fun g => { g with lost := false }) (modPath r p (fun q => { q with missRun := 0, state := .active }) d)
      if q.state == .failed then record o 0x1103 (srcPath r p) ([0, 0, 0, 0] ++ toLE 4 (pno k)) d1 else d1
    else match q.state with
      | .failed => record o 0x1103 (srcPath r p) ([0, 0, 0, 0] ++ toLE 4 (pno k)) (modPath r p (fun q => { q with state := .repairing, okRun := 1 }) d)
      | .repairing =>
        if odU o 0x31F0 5 ≤ q.okRun + 1 then
          record o 0x1104 (srcPath r p) ([0, 0, 0, 0] ++ toLE 4 (pno k))
            (modRing r (fun g => { g with delayLeft := 16 }) (modPath r p (fun q => { q with state := .standby, okRun := 0 }) d))
        else modPath r p (fun q => { q with okRun := q.okRun + 1 }) d
      | _ => d

/-- Count an invalid frame and remember its cause; the miss follows at the deadline. -/
def invalidReturn (r p cause : Nat) (f : Flight) (hops : Nat) (d : Dev) : Dev :=
  modPath r p (fun q => { q with
    crc := if cause = 2 then satInc q.crc else q.crc
    stomped := if cause = 3 then satInc q.stomped else q.stomped
    header := if cause = 4 ∨ cause = 8 then satInc q.header else q.header
    flights := q.flights.map (fun x => if x == f then { x with cause := cause, hops := hops } else x) }) d

/-- A valid frame leaves the path's flights and updates its counters (R210, Table 9.10). -/
def validReturn (r p rttPs : Nat) (f : Flight) (d : Dev) : Dev :=
  let q := getPath d r p
  let off := q.rttRef != 0 && (1000 < (if q.rttRef ≤ rttPs then rttPs - q.rttRef else q.rttRef - rttPs))
  let d1 := modPath r p (fun q => { q with
    flights := q.flights.erase f, ok := wrapInc q.ok, rttLast := rttPs, lastValid := f.launch, fault := none }) d
  if off then modRing r (fun g => { g with delayOwed := true }) d1 else d1

/-- The acyclic slots of a valid frame (R204, R257, R261, R266). -/
def takeSlots (o : Od) (ik : Option Bytes) (r k : Nat) (seg : Bytes) (f : Flight) (d : Dev) : Dev :=
  let recon := (getRing d r).recon.isSome
  let n := ringCells o r
  forEach (f.slots.zipIdx) (fun (u, i) d =>
    let b := slice seg (64 * i) 64
    let owner := leAt b 0 1
    let from_ := owner - 0x80
    let misuse (d : Dev) : Dev := if from_ < n then partnerError o (16 * r + from_) 8 (leAt b 1 1) (leAt b 3 1) 0 k d else d
    let isMsg := 0x80 ≤ owner && owner ≤ 0x8F
    if f.taken.contains i then d
    else match u with
      | .empty => if isMsg then misuse d else d
      | .reserved p =>
        if isMsg && from_ == p then rxMessage o ik (16 * r + p) k (LclMsg.of b) d
        else let d1 := slotBack (16 * r + p) d; if isMsg then misuse d1 else d1
      | .message p m =>
        let c := 16 * r + p
        if isMsg && from_ == p then rxMessage o ik c k (LclMsg.of b) d
        else
          let d1 := slotBack c d
          if isMsg then
            let d2 := misuse d1
            if m.kind = 1 then attemptFailed o c k m.tag d2 else d2
          else if owner = p ∧ m.kind = 1 ∧ !recon then attemptFailed o c k m.tag d1
          else d1) d

/-- Lc + 4P has come: the ring's sessions in ARMED, RUN, HOLD and RESYNC are presumed blocked (R243). -/
def holdPresumption (r : Nat) (o : Od) (d : Dev) : Dev :=
  let g := getRing d r
  let presumed (st : SessState) : Bool := st.inService || st == .resync
  if !g.launching || decide (d.clk.dt < g.lc + 4 * period o) then d
  else forEach (ringCellList o r) (fun c d =>
    if presumed (getCell d c).state then sessEnter o c .blocked 0x0D (d.sched.count - 1) d else d) d

/-- A CYCLIC frame returns (R214): validated, then its telemetry and acyclic slots are taken into use. A copy of R220 is kept until
the frame on the active path has missed. The presumption of R243 comes first where its instant has come (R249). -/
def cyclicReturn (o : Od) (ik : Option Bytes) (r p : Nat) (b : Bytes) (rttPs : Nat) (d : Dev) : Dev :=
  match (getPath d r p).flights.find? (fun f => f.ftype == 1) with
  | none => d
  | some f =>
    if !canReturn d r p f || !(getRing d r).launching || tooLate o r p f rttPs b.length d then d
    else match frameFault o d r p f b rttPs with
      | some cause => invalidReturn r p cause f (leAt b 30 1) d
      | none =>
        let k := f.period
        let n := ringCells o r
        let d1 := validReturn r p rttPs f d
        let slots := slice b (32 + 12 * n) (24 * n)
        if f.copy then
          let waits := (getPath d1 r (1 - p)).flights.any (fun x => x.ftype == 1 && x.period == k)
          if tookPeriod d1 r k then d1
          else if waits then modRing r (fun g => { g with copy := some { period := k, launch := f.launch, slots := slots } }) d1
          else takeTelemetry o r k f.launch slots (holdPresumption r o d1)
        else
          let d2 := pathGood o r p k d1
          if tookPeriod d2 r k then d2
          else takeSlots o ik r k (slice b (32 + 36 * n) 256) f (takeTelemetry o r k f.launch slots (holdPresumption r o d2))

/-- A STANDBY frame returns (R214, R215). -/
def standbyReturn (o : Od) (r p : Nat) (b : Bytes) (rttPs : Nat) (d : Dev) : Dev :=
  match (getPath d r p).flights.find? (fun f => f.ftype == 2) with
  | none => d
  | some f =>
    if !canReturn d r p f || tooLate o r p f rttPs b.length d then d
    else match frameFault o d r p f b rttPs with
      | some cause => invalidReturn r p cause f (leAt b 30 1) d
      | none => pathGood o r p f.period (validReturn r p rttPs f d)

/-- One message of a cell node that arrives in a slot of the CYCLIC frame in flight on the active path: the same as its slot of
the returned frame, ahead of the frame's own return (log entry 35). -/
def messageArrives (o : Od) (ik : Option Bytes) (r p i : Nat) (m : LclMsg) (d : Dev) : Dev :=
  let g := getRing d r
  match (getPath d r g.activePath).flights.find? (fun f => f.ftype == 1) with
  | none => d
  | some f =>
    if f.taken.contains i || ringCells o r ≤ p || d.sec.scan || f.lost then d
    else
      let d1 := modPath r g.activePath (fun q => { q with flights := q.flights.map (fun x => if x == f then { x with taken := i :: x.taken } else x) }) d
      let c := 16 * r + p
      let offered := match f.slots[i]? with
        | some (.reserved q) => q == p
        | some (.message q _) => q == p
        | _ => false
      if offered then rxMessage o ik c f.period m d1
      else
        let d2 := partnerError o c 8 m.mtype m.tag 0 f.period d1
        match f.slots[i]? with
        | some (.reserved q) => slotBack (16 * r + q) d2
        | some (.message q w) =>
          let d3 := slotBack (16 * r + q) d2
          if w.kind = 1 then attemptFailed o (16 * r + q) f.period w.tag d3 else d3
        | _ => d2

/-! ### Lane events (R195, R196) -/

/-- A fault of a path ends the frame in flight as a miss at once (R215). -/
def pathFaultNow (o : Od) (r p cause : Nat) (d : Dev) : Dev :=
  let q := getPath d r p
  if q.state == .disabled then d
  else match q.flights.find? (fun f => f.ftype != 3 && !f.counted) with
    | some f =>
      pathMiss o r p f.period cause 0 (modPath r p (fun q => { q with
        flights := q.flights.map (fun x => if x == f then { x with counted := true, cause := cause } else x) }) d)
    | none => if cause = 6 then pathMiss o r p (d.sched.count - 1) 6 0 d else modPath r p (fun q => { q with fault := some cause }) d

/-- A receiver loses sync; the frames in progress are discarded (R195). -/
def syncLost (o : Od) (r p : Nat) (d : Dev) : Dev :=
  let q := getPath d r p
  if !q.sync then d
  else pathFaultNow o r p 5 (modPath r p (fun q => { q with
      sync := false, syncLosses := satInc q.syncLosses, flights := q.flights.map (fun f => { f with lost := true }) }) d)

/-! ### Start, stop, swap (R206, R215, R221, R225) -/

/-- APPLY_OFFSET in ticks (R206). -/
def applyOffsetOf (o : Od) : Nat :=
  if odU o 0x31F0 1 = 1 then odU o 0x31F0 2
  else
    let ns (n : Nat) : Nat := n * 150 + (n + 1) * 250 + (cyclicLen n + 2) * 4
    let worst := ((List.range 8).filter (fun r => ringPaths o r != 0)).foldl (fun a r => max a (ns (ringCells o r))) 0
    ((worst + 999) / 1000 + 1) * 800

/-- Why a ring cannot start, as a detail code. -/
def ringStartRefusal (o : Od) (r : Nat) : Option Nat :=
  if ringPaths o r = 0 ∨ ringCells o r = 0 then some 0
  else if period o - 400 < applyOffsetOf o then some 0x11030000
  else none

/-- A swap is written and not yet made (R221). -/
def swapPending (g : Ring) : Bool := g.swap || g.pendingSwitch.any (fun q => q.1 == 2)

/-- A ring starts (R215); the budget of R218 runs on. A ring already started is left as it is. -/
def ringStart (o : Od) (r : Nat) (d : Dev) : Dev :=
  if (getRing d r).started then d
  else
    let paths := ringPaths o r
    let a := if paths = 3 then odU o (0x3180 + r) 3 else if paths = 2 then 1 else 0
    let off := applyOffsetOf o
    let d1 := { d with lcl := { d.lcl with applyOffset := off } }
    let d2 := modRing r (fun g => { (default : Ring) with
      started := true, activePath := a, delayLeft := 16, lc := d.clk.dt, switchCount := g.switchCount
      switches := g.switches, suppressed := g.suppressed, ord := g.ord }) d1
    let fresh (s : PathState) (p : Nat) (d : Dev) : Dev := modPath r p (fun q => { q with
      state := s, okRun := 0, missRun := 0, fault := none, flights := [], rttRef := 0, delays := [] }) d
    let d3 := record o 0x1109 (srcPath r a) ([b8 a, 0, 0, 0] ++ toLE 4 off) (fresh .active a d2)
    if paths = 3 then record o 0x1103 (srcPath r (1 - a)) ([0, 0, 0, 0] ++ toLE 4 (pno d.sched.count)) (fresh .repairing (1 - a) d3) else d3

/-- A ring stops: paths DISABLED, sessions ABSENT (R215, R225). -/
def ringStop (o : Od) (r : Nat) (d : Dev) : Dev :=
  let g := getRing d r
  if !g.started then d
  else
    let k := d.sched.count - 1
    let d1 := record o 0x110A (srcPath r g.activePath) ([0, 0, 0, 0] ++ toLE 4 (pno k)) d
    let d2 := forEach [0, 1] (fun p d => modPath r p (fun q => { q with state := .disabled, flights := [], okRun := 0, missRun := 0, fault := none }) d) d1
    let d3 := forEach ((List.range 16).map (16 * r + ·)) (fun c d =>
      if (getCell d c).state == .absent then d else sessEnter o c .absent 0x17 k d) d2
    modRing r (fun g => { (default : Ring) with
      switchCount := g.switchCount, switches := g.switches, suppressed := g.suppressed, ord := g.ord }) d3

end Sys2Proof.Machine
end

