-- ==== Sys2Proof/Machine/TimeOps.lean ====
section
/-! DEFINITION. Synthesisers, device time, period schedule, carrier, PTP servo and the Ethernet helpers (chapter 8). -/
namespace Sys2Proof.Machine

/-- Change of the time block. -/
def onTime (f : Time → Time) (d : Dev) : Dev := { d with time := f d.time }

/-! ### Spread and profiles (R179, R180, R508) -/

/-- spread(r, k) of R180 in mHz. -/
def spreadOf (o : Od) (r k : Nat) : Int :=
  let h := odU o 0x2411 3 / 2
  let dep := odU o 0x2411 2
  let p := k % (2 * h)
  let t : Int := if p ≤ h then p else 2 * h - p
  let off : Int := match odU o 0x2411 1 with
    | 1 => -(((r : Int) * dep * t).tdiv (10000 * h))
    | 2 => ((r : Int) * dep * (2 * t - h)).tdiv (20000 * h)
    | _ => 0
  r + off

/-- f(k) for a ramp value. -/
def freqOf (o : Od) (r k : Nat) : Nat := (spreadOf o r k).toNat

/-- Segments of a SEGMENTS value: target, duration, reserved field (Table 8.3). -/
def segmentsOf (b : Bytes) : List (Nat × Nat × Nat) :=
  (List.range (b.length / 8)).map (fun i => (leAt b (8 * i) 4, leAt b (8 * i + 4) 2, leAt b (8 * i + 6) 2))

/-- Segments of profile `n`. -/
def profileSegs (o : Od) (n : Nat) : List (Nat × Nat × Nat) := segmentsOf (odGet o (0x2420 + n) 2)

/-- A segment is legal from f_a (R179). -/
def segLegal (fa : Nat) (s : Nat × Nat × Nat) : Bool :=
  5000000 ≤ s.1 && s.1 ≤ 50000000
    && decide (((s.1 : Int) - fa).natAbs ≤ s.2.1 * min fa s.1 / 2000)

/-- The spread envelope stays within its bounds for a ramp value (R180). -/
def envelopeAt (o : Od) (r : Nat) : Bool :=
  (List.range (odU o 0x2411 3)).all (fun k => decide (5000000 ≤ spreadOf o r k ∧ spreadOf o r k ≤ 50000000))

/-- R508 over CAS_START_FREQ and every target held. -/
def envelopeOk (o : Od) : Bool :=
  envelopeAt o (odU o 0x2410 1)
    && (List.range 4).all (fun n => (profileSegs o n).all (fun s => envelopeAt o s.1))

/-- The first segment from 1 onward that breaks the slope condition (R508). -/
def slopeBreak (segs : List (Nat × Nat × Nat)) : Option Nat :=
  (List.range segs.length).find? (fun i => i != 0 && !segLegal (segs.getD (i - 1) (0, 0, 0)).1 (segs.getD i (0, 0, 0)))

/-- Whether profile `n` may start from f_a: segment 0, also from the last target where the profile repeats (R179). -/
def profileLegal (o : Od) (n fa : Nat) : Bool :=
  match profileSegs o n with
  | [] => false
  | s :: rest => segLegal fa s && (odU o (0x2420 + n) 3 != 1 || segLegal ((s :: rest).getLastD s).1 s)

/-- PROFILE_ENDED (R193). -/
def profileEnded (n reason ramp : Nat) : Nat × Bytes := (0x0431, [b8 n, b8 reason, 0, 0] ++ toLE 4 ramp)

/-- One period of a profile: its ramp value and its state after it (R179). -/
def profileStep (o : Od) (p : Profile) : Nat × Profile :=
  let segs := profileSegs o p.n
  let s := segs.getD p.seg (p.fa, 1, 0)
  let j := p.j + 1
  let v := (p.fa : Int) + (((s.1 : Int) - p.fa) * j).tdiv s.2.1
  if j < s.2.1 then (v.toNat, { p with j := j })
  else if p.seg + 1 < segs.length then (v.toNat, { p with seg := p.seg + 1, j := 0, fa := s.1 })
  else if odU o (0x2420 + p.n) 3 = 1 then (v.toNat, { p with seg := 0, j := 0, fa := s.1 })
  else (v.toNat, { p with j := j, done := true })

/-- APPLY instant of the next period start. -/
def nextApply (o : Od) (d : Dev) : Nat := nextStart o d + d.lcl.applyOffset

/-- CAS cycles in `t` ticks at a frequency in mHz: 4,096 per carrier cycle (Table 8.1). -/
def casCycles (freq t : Nat) : Rat := (4096 * freq * t : Nat) / 800000000000

/-- CAS cycles at a device time, with the counter running or stopped since the last time counted: f(k−1) up to the apply
instant, f(k) from it on (R177). -/
def Carrier.cyclesAt (running : Bool) (t : Nat) (c : Carrier) : Rat :=
  if running then c.cycles + casCycles c.prevFreq (min t c.apply - c.upTo) + casCycles c.freq (t - max c.upTo c.apply) else c.cycles

/-- The counter counted up to a device time, and sampled where the apply instant lies on the way (R177). -/
def Carrier.countTo (running : Bool) (t : Nat) (c : Carrier) : Carrier :=
  { c with
    sample := if c.upTo ≤ c.apply ∧ c.apply ≤ t then c.cyclesAt running c.apply else c.sample
    cycles := c.cyclesAt running t
    upTo := max c.upTo t }

/-- The first carrier of a run: ramp(0) is CAS_START_FREQ, and the counter holds 0 at APPLY_TIME (R178, R274). -/
def carrierFirst (o : Od) (d : Dev) : Carrier :=
  let r := odU o 0x2410 1
  { k := 0, ramp := r, freq := freqOf o r 0, apply := nextApply o d, upTo := nextApply o d }

/-- The carrier of the next period with what a PROFILE_RUN write asked for, and the events of its start (R178 to R182). -/
def carrierCandidate (o : Od) (d : Dev) (c : Carrier) : Carrier × List (Nat × Bytes) :=
  let k := c.k + 1
  let mk (r : Nat) (p : Option Profile) : Carrier :=
    { k := k, ramp := r, freq := freqOf o r k, apply := nextApply o d, prevFreq := c.freq, profile := p }
  let ended : List (Nat × Bytes) := match c.profile with
    | none => []
    | some p => if d.time.want.isSome then [profileEnded p.n 1 c.ramp] else if p.done then [profileEnded p.n 0 c.ramp] else []
  match d.time.want with
  | some (some n) =>
    if (profileSegs o n).isEmpty then (mk c.ramp none, ended)
    else
      let (r, p) := profileStep o { n := n, fa := c.ramp }
      (mk r (some p), ended ++ [(0x0430, [b8 n, 0, 0, 0] ++ toLE 4 c.ramp)])
  | some none => (mk c.ramp none, ended)
  | none => match c.profile with
    | some p => if p.done then (mk c.ramp none, ended) else let (r, p') := profileStep o p; (mk r (some p'), ended)
    | none => (mk c.ramp none, ended)

/-- The guard of R313 holds the ramp: the profile of the candidate ends with the ramp of the present period. -/
def carrierHold (o : Od) (c cand : Carrier) (notes : List (Nat × Bytes)) : Carrier × List (Nat × Bytes) :=
  match cand.profile with
  | none => (cand, notes)
  | some p => ({ cand with ramp := c.ramp, freq := freqOf o c.ramp cand.k, profile := none }, notes ++ [profileEnded p.n 1 c.ramp])

/-- A carrier takes over the counter of the one before it, counted up to a device time. -/
def Carrier.follow (running : Bool) (t : Nat) (before : Option Carrier) (c : Carrier) : Carrier :=
  match before with
  | none => c
  | some b =>
    let b := b.countTo running t
    { c with sample := b.sample, prevSample := b.sample, cycles := b.cycles, upTo := b.upTo }

/-- The carrier fixed at the cut-off comes into force at the period start; `runs` is whether a stack runs from here on. -/
def carrierStart (o : Od) (runs : Bool) (d : Dev) : Dev :=
  let t := d.time
  if runs then
    let d1 := onTime (fun t => { t with
      carrier := t.next.map (Carrier.follow t.cas.declared d.clk.dt t.carrier), next := none, notes := [] }) d
    forEach t.notes (fun n => record o n.1 1 n.2) d1
  else
    let d1 := onTime (fun t => { t with carrier := none, next := none, notes := [], want := none, profileRun := 0xFF }) d
    match t.carrier.bind (·.profile) with
    | none => d1
    | some p => let (code, data) := profileEnded p.n (if p.done then 0 else 2) ((t.carrier.map (·.ramp)).getD 0); record o code 1 data d1

/-- Why a PROFILE_RUN of `n` is refused (R182, in the order of R35 step 9). -/
def profileRefusal (o : Od) (d : Dev) (n : Nat) : Option Nat :=
  match d.time.carrier with
  | none => some 0x04080000
  | some c =>
    let fa := match d.time.next with | some c' => c'.ramp | none => c.ramp
    if !d.stack.state.runs then some 0x04080000
    else if !d.time.cas.declared then some 0x04050000
    else if !profileLegal o n fa then some 0x04040000
    else none

/-- PROFILE_RUN written: a start, or the hold of 0xFF (R182). -/
def profileWrite (n : Option Nat) (d : Dev) : Dev :=
  onTime (fun t => { t with want := some n, profileRun := n.getD 0xFF }) d

/-- The profile that runs, its last period included, or starts in a frame already built. -/
def profileRunning (d : Dev) (n : Nat) : Bool :=
  let isN (c : Option Carrier) : Bool := match c.bind (·.profile) with | some p => p.n == n | none => false
  isN d.time.carrier || isN d.time.next

/-- Carrier counter as 32 bits (R177): 2^20 per CAS cycle. -/
def phaseOf (cycles : Rat) : Nat := (⌊cycles⌋.toNat * 2 ^ 20) % 2 ^ 32

/-- adv(f) of R288. -/
def phaseAdvance (o : Od) (f : Nat) : Nat := f * period o * 2 ^ 32 / 800000000000

/-- phi(k) of R288 for the frame of the period after the present one. -/
def phiNext (o : Od) (d : Dev) : Nat :=
  match d.time.carrier with
  | none => 0
  | some c =>
    if c.k = 0 then phaseAdvance o c.freq % 2 ^ 32
    else (phaseOf c.prevSample + phaseAdvance o c.prevFreq + phaseAdvance o c.freq) % 2 ^ 32

/-- CARRIER_PHASE (0x2410:04): the counter at the last apply instant. -/
def carrierPhase (d : Dev) : Nat :=
  match d.time.carrier with
  | none => 0
  | some c => phaseOf (c.countTo d.time.cas.declared d.clk.dt).sample

/-! ### Schedule (R175) -/

/-- The first whole µs of device time at or after `t`. -/
def wholeUs (t : Nat) : Nat := (t + 799) / 800 * 800

/-- PERIOD_ORIGIN is taken afresh; the numbering goes on. -/
def newOrigin (d : Dev) : Dev :=
  if d.sched.running then
    { d with
      sched := { d.sched with origin := wholeUs d.clk.dt, j := 0 }
      lcl := { d.lcl with cutDone := none } }
  else d

/-! ### Rate of the TBS (R168, R188) -/

/-- The rate limited to ±RATE_LIMIT. -/
def limitRate (o : Od) (r : Int) : Int := clampI (-(odU o 0x2441 3 : Int)) (odU o 0x2441 3) r

/-- The next step of at most 250 ppm towards the called-for rate. -/
def slewStep (d : Dev) : Dev :=
  onTime (fun t => { t with
    rate := t.rate + clampI (-250000000) 250000000 (t.rateTarget - t.rate)
    rateAt := d.clk.dt }) d

/-- A change of the applied rate is called for (R188). -/
def callRate (o : Od) (r : Int) (d : Dev) : Dev :=
  let slewing := d.time.rate != d.time.rateTarget
  let d1 := onTime (fun t => { t with rateTarget := limitRate o r }) d
  if slewing && decide (d.clk.dt < d.time.rateAt + msT 1) then d1 else slewStep d1

/-- The servo calls for a rate: while TBLOCK is not declared it keeps the applied rate, and the call waits (R174). -/
def servoRate (o : Od) (r : Int) (d : Dev) : Dev :=
  if d.time.tb.declared then callRate o r d else onTime (fun t => { t with rateTarget := limitRate o r }) d

/-- The rate that the device applies by itself when MEAS reaches ON: integ starts at MANUAL_RATE, which is applied while
PTP_MODE is off (R187). -/
def rateStarts (o : Od) (d : Dev) : Dev :=
  let manual := odI o 32 0x2401 3
  let d1 := onTime (fun t => { t with integ := (manual : Rat) / 1000 }) d
  if odU o 0x2440 1 = 0 then callRate o manual d1 else d1

/-- ppb as whole ppt. -/
def pptOf (ppb : Rat) : Int := let x := ppb * 1000; if 0 ≤ x then ⌊x⌋ else ⌈x⌉

/-- integ as INTEGER32 ppt (0x2401:02). -/
def holdoverRate (d : Dev) : Int := clampI (-2147483648) 2147483647 (pptOf d.time.integ)

/-! ### Lock of the synthesisers (R171 to R174) -/

/-- A run of `n` comparisons with one phase error in ps: locked from 4,096 in a row within ±0.5 ns on, unlocked from the fourth in a
row beyond ±2 ns on (R171). -/
def Detector.compare (x : Detector) (n : Nat) (err : Int) : Detector :=
  if n = 0 then x
  else
    let good := if err.natAbs ≤ 500 then min 4096 (x.good + n) else 0
    let bad := if 2000 < err.natAbs then min 4 (x.bad + n) else 0
    { locked := good = 4096 || (x.locked && bad != 4), good := good, bad := bad }

/-- The detector after several runs of comparisons. -/
def Detector.after (x : Detector) (runs : PhaseRuns) : Detector := runs.foldl (fun x r => x.compare r.1 r.2) x

/-- Comparisons of a synthesiser; the detectors work while MEAS is ON. -/
def Synth.compared (on : Bool) (runs : PhaseRuns) (y : Synth) : Synth := if on then { y with det := y.det.after runs } else y

/-- The current a lock pin sources into its network, in µA, negative where it sinks; none while the synthesiser is unpowered (R172). -/
def lockPin (d : Dev) (y : Synth) : Option Int :=
  let meas := vget d.doms Domain.meas.num
  match if meas.state == .transition then meas.left else meas.state with
  | .retention => some 33
  | .on => some (if y.det.locked then 33 else -1000)
  | _ => none

/-- A ms of AON time. -/
def aonMs (d : Dev) : Nat := d.clk.run / 800000

/-- The voltage of a lock pin as 0x2402 reads it, updated every 1 ms: as given in this ms, else a free value, which a declared lock
bounds below (R173, R192). -/
def lockPinMv (pin : Nat) (d : Dev) (y : Synth) : Nat :=
  if y.mvAt = aonMs d then y.mv
  else
    let x := (Config.lockPinMv pin (aonMs d)).toNat
    if y.declared then max 700 x else x

/-- A rational truncated towards zero, as whole ns. -/
def truncQ (x : Rat) : Int := if 0 ≤ x then ⌊x⌋ else ⌈x⌉

/-- TIME_LOCKED clears, and TIME_UNLOCKED is recorded where it was set (R189). -/
def timeUnlock (o : Od) (cause : Nat) (d : Dev) : Dev :=
  let d1 := onTime (fun t => { t with timeLocked := false, lockRun := 0 }) d
  if d.time.timeLocked then
    record o 0x0423 2 ([b8 cause] ++ List.replicate 7 0 ++ toLE 8 (ofSigned 64 (truncQ d.time.offset))) d1
  else d1

/-- CASLOCK is lost (R174): 1 detector, 2 pin, 3 frequency check, 4 TBLOCK lost. -/
def casLost (o : Od) (cause : Nat) (d : Dev) : Dev :=
  if !d.time.cas.declared then d
  else
    let c := d.time.carrier
    let d1 := record o 0x0404 1 ([b8 cause, 0, 0, 0] ++ toLE 4 ((c.map (·.freq)).getD 0))
      (onTime (fun t => { t with
        cas := { t.cas with declared := false, losses := satInc t.cas.losses }
        carrier := c.map (fun c => { c.countTo true d.clk.dt with profile := none })
        next := t.next.map (fun n => { n with profile := none })
        notes := []
        want := none
        profileRun := 0xFF }) d)
    let d2 := match c.bind (·.profile) with
      | none => d1
      | some p => let (code, data) := profileEnded p.n 3 ((c.map (·.ramp)).getD 0); record o code 1 data d1
    if d.stack.state.runs then requesterSet o 3 (onTime (fun t => { t with casBlock := true }) d2) else d2

/-- TBLOCK is lost (R174): 1 detector, 2 pin below 700 mV, 3 MEAS left ON. -/
def tbLost (o : Od) (cause mv : Nat) (d : Dev) : Dev :=
  if !d.time.tb.declared then d
  else
    let d1 := record o 0x0402 0 ([b8 cause, 0, 0, 0] ++ toLE 2 mv)
      (onTime (fun t => { t with
        tb := { t.tb with declared := false, mv := mv, mvAt := aonMs d, losses := satInc t.tb.losses }
        uncertain := true
        twoStep := none }) d)
    casLost o 4 (requesterSet o 2 (timeUnlock o 3 d1))

/-- The time base starts or resumes with the first declaration of TBLOCK: the schedule runs, and a new time base is
recorded while SEC is ON (R119, R175, R78). -/
def timebaseStarts (o : Od) (d : Dev) : Dev :=
  if d.clk.counting then d
  else
    let t := d.time
    let d1 := { d with
      clk := { d.clk with counting := true }
      sched := { d.sched with running := true, origin := wholeUs d.clk.dt, j := 0 }
      lcl := { d.lcl with cutDone := none } }
    if t.hadBase then d1
    else
      let d2 := onTime (fun t => { t with hadBase := true, prevEnd := none }) d1
      if d.isOn .sec then
        record o 0x0427 2 (toLE 8 (t.prevEnd.getD (2 ^ 64 - 1)) ++ toLE 8 (if t.prevEnd.isSome then t.prevRtc else 2 ^ 64 - 1)) d2
      else d2

/-- Comparisons of the TBS detector. -/
def tbCompared (runs : PhaseRuns) (d : Dev) : Dev := onTime (fun t => { t with tb := t.tb.compared (d.isOn .meas) runs }) d

/-- Comparisons of the CAS detector. -/
def casCompared (runs : PhaseRuns) (d : Dev) : Dev := onTime (fun t => { t with cas := t.cas.compared (d.isOn .meas) runs }) d

/-- The supervisor finds the TBLOCK pin at `mv`: below 700 mV a declared lock is lost (R173). -/
def tbSupervised (o : Od) (mv : Nat) (d : Dev) : Dev :=
  if 700 ≤ mv then d else tbLost o (if d.time.tb.det.locked then 2 else 1) mv d

/-- The frequency check of R181: the counter's advance of the present period against 2³² · f(k) · P, within 0.1 %. -/
def advanceOff (o : Od) (d : Dev) (counted : Nat) : Bool :=
  match d.time.carrier with
  | none => false
  | some c =>
    let want : Rat := (2 ^ 32 * c.freq * period o : Nat) / 800000000000
    d.time.cas.declared && decide (want / 1000 < counted - want ∨ want / 1000 < want - counted)

/-- The supervisor looks at CASLOCK (R173, R181). -/
def casSupervised (o : Od) (found : CasSupervision) (d : Dev) : Dev :=
  match found with
  | .pin runs mv =>
    let d1 := casCompared runs d
    if 700 ≤ mv.toNat then d1
    else
      let d2 := casLost o (if d1.time.cas.det.locked then 2 else 1) d1
      if d.time.cas.declared then onTime (fun t => { t with cas := { t.cas with mv := mv.toNat, mvAt := aonMs d } }) d2 else d2
  | .advance counted => if advanceOff o d counted then casLost o 3 d else d

/-- TBLOCK is declared with the pin at `mv` (R173). -/
def tbDeclared (o : Od) (mv : Nat) (d : Dev) : Dev :=
  let t := d.time
  if !d.isOn .meas || t.tb.declared || !t.tb.checked || t.tb.marked || !t.tb.det.locked || mv < 1000 then d
  else
    let d1 := timebaseStarts o (onTime (fun t => { t with tb := { t.tb with declared := true, mv := mv, mvAt := aonMs d }, uncertain := false }) d)
    requesterClear o 2 (record o 0x0401 0 ([0, 0, 0, 0] ++ toLE 2 mv) d1)

/-- CASLOCK is declared with the pin at `mv` (R173). -/
def casDeclared (o : Od) (mv : Nat) (d : Dev) : Dev :=
  let t := d.time
  if !d.isOn .meas || !t.tb.declared || t.cas.declared || !t.cas.checked || t.cas.marked || !t.cas.det.locked || mv < 1000 then d
  else
    let d1 := onTime (fun t => { t with
      cas := { t.cas with declared := true, mv := mv, mvAt := aonMs d }
      casBlock := false
      carrier := t.carrier.map (·.countTo false d.clk.dt) }) d
    requesterClear o 3 (record o 0x0403 1 ([0, 0, 0, 0] ++ toLE 2 mv) d1)

/-- The lock-filter check of R93 is over: the measured time constants in µs. -/
def filterCheck (o : Od) (tauTb tauCas : Nat) (d : Dev) : Dev :=
  if !d.isOn .meas || d.time.tb.checked then d
  else
    let bad (tau : Nat) : Bool := decide (tau < 3000 ∨ 7000 < tau)
    let d1 := onTime (fun t => { t with
      tb := { t.tb with checked := true, tau := tauTb, marked := bad tauTb }
      cas := { t.cas with checked := true, tau := tauCas, marked := bad tauCas } }) d
    let note (pin tau : Nat) (d : Dev) : Dev :=
      if bad tau then record o 0x0410 pin ([b8 pin, 0, 0, 0] ++ toLE 4 tau) d else d
    note 1 tauCas (note 0 tauTb d1)

/-! ### Steps (R183, R184) -/

/-- A ring is active in the sense of R23: started and launching CYCLIC frames. -/
def ringActive (d : Dev) (r : Nat) : Bool := (vget d.lcl.rings r).launching

/-- Some ring is active. -/
def anyRing (d : Dev) : Bool := (List.range 8).any (ringActive d)

/-- Why a forward step is not permitted: 1 ring, 2 PWM channel, 3 STEP_POLICY (Table 8.9). -/
def stepBar (o : Od) (d : Dev) : Option Nat :=
  if anyRing d then some 1
  else if pwmActive d then some 2
  else if odU o 0x2400 4 != 0 && !d.time.stepNow then some 3
  else none

/-- A forward step of Δ ticks (R184). -/
def timeStep (o : Od) (delta : Nat) (d : Dev) : Dev :=
  let before := d.clk.dt
  let dt := (before + delta) % 2 ^ 64
  let led := { d.ledger with
    accounts := d.ledger.accounts.map (fun a => { a with opened := (a.opened + delta) % 2 ^ 64 })
    last := d.ledger.last + delta
    lastCheckpoint := (d.ledger.lastCheckpoint + delta) % 2 ^ 64 }
  let d1 := timeUnlock o 4 d
  let d2 := newOrigin { d1 with clk := { d1.clk with dt := dt }, ledger := led }
  let d3 := releaseDue o (onTime (fun t => { t with
    pending := 0
    stepDeferred := false
    backwardRefused := false
    stepNow := false
    lockRun := 0
    lastDiff := none
    delaySent := none
    twoStep := none
    rateAt := t.rateAt + delta
    delayAt := t.delayAt + delta
    updateAt := t.updateAt.map (· + delta)
    master := t.master.map (fun m => { m with announceAt := m.announceAt + delta, syncAt := m.syncAt + delta }) }) d2)
  record o 0x0424 2 (toLE 8 before ++ toLE 8 delta) (servoRate o (pptOf d3.time.integ) d3)

/-! ### Servo (R187 to R190) -/

/-- 2 to a signed power. -/
def pow2 (e : Int) : Rat := if 0 ≤ e then (2 : Rat) ^ e.toNat else 1 / (2 : Rat) ^ (-e).toNat

/-- An interval of 2^e s in ticks. -/
def logTicks (e : Int) : Nat := ⌊pow2 e * 800000000⌋.toNat

/-- Device time as ns. -/
def nsOf (t : Nat) : Rat := (t : Rat) * 5 / 4

/-- Receive and transmit points of a MAC in ns, the PHY delay taken off or added (Table 8.4). -/
def rxNs (o : Od) (mac : Nat) (d : Dev) : Rat := nsOf d.clk.dt - (odI o 32 0x2443 (2 * mac + 2) : Rat) / 1000
def txNs (o : Od) (mac : Nat) (d : Dev) : Rat := nsOf d.clk.dt + (odI o 32 0x2443 (2 * mac + 1) : Rat) / 1000

/-- The device takes part in PTP on MAC `mac`: mode on, the port's MAC, its link up, NET and MEAS ON (R186). -/
def ptpPort (o : Od) (mac : Nat) (d : Dev) : Bool :=
  odU o 0x2440 1 != 0 && odU o 0x2440 2 == mac && d.isOn .net && d.isOn .meas && d.clk.counting && d.time.links.testBit mac

/-- A message reaches the PTP clock: its port, transport and domain (R186, Table 8.5). -/
def ptpTakes (o : Od) (mac : Nat) (udp : Bool) (domain : Nat) (d : Dev) : Bool :=
  ptpPort o mac d && (odU o 0x2440 3 == 1) == udp && odU o 0x2440 4 == domain

/-- The master is lost: holdover at the integral rate (R190). 1 Sync timeout, 2 Announce timeout, 3 link down. -/
def masterLost (o : Od) (cause : Nat) (d : Dev) : Dev :=
  match d.time.master with
  | none => d
  | some _ =>
    let mac := odU o 0x2440 2
    let d1 := onTime (fun t => { t with master := none, holdover := true, twoStep := none, lastDiff := none, delaySent := none }) d
    let d2 := servoRate o (pptOf d.time.integ) d1
    timeUnlock o 2 (record o 0x0421 (0x10 + mac) ([b8 cause, 0, 0, 0] ++ toLE 4 (ofSigned 32 (holdoverRate d))) d2)

/-- The servo update of R187 with an offset in ns, `t` seconds after the last accepted Sync. -/
def servo (o : Od) (off : Rat) (t : Rat) (d : Dev) : Dev :=
  let kp := odF o 0x2441 1
  let ki := odF o 0x2441 2
  let integ := d.time.integ - ki * off / t
  servoRate o (pptOf (integ - kp * off / t)) (onTime (fun x => { x with integ := integ }) d)

/-- TIME_LOCKED after an offset (R189). -/
def lockCheck (o : Od) (off : Rat) (d : Dev) : Dev :=
  let near := decide (-(odU o 0x2441 4 : Rat) ≤ off ∧ off ≤ odU o 0x2441 4)
  let far := decide ((odU o 0x2441 6 : Rat) < off ∨ off < -(odU o 0x2441 6 : Rat))
  if far then timeUnlock o 1 d
  else
    let run := if near then d.time.lockRun + 1 else 0
    let d1 := onTime (fun t => { t with lockRun := run }) d
    if !d.time.timeLocked && d.time.tb.declared && d.time.tai && decide (odU o 0x2441 5 ≤ run) then
      record o 0x0422 2 (toLE 4 (ofSigned 32 (truncQ off)) ++ toLE 4 (ofSigned 32 d1.time.rate))
        (onTime (fun t => { t with timeLocked := true }) d1)
    else d1

/-- An offset beyond STEP_THRESHOLD (R183). Where a step is taken, the offset itself is discarded (R184); else it counts for
TIME_LOCKED as any other (R189). -/
def beyondThreshold (o : Od) (off : Rat) (gm : Nat) (d : Dev) : Dev :=
  let d1 := if d.time.alignedTo.isSome && d.time.alignedTo != some gm then onTime (fun t => { t with tai := false }) d else d
  let hold := servoRate o (pptOf d1.time.integ)
  if off < 0 then
    let delta := ⌊(-off) * 4 / 5⌋.toNat
    match stepBar o d1 with
    | none => onTime (fun t => { t with tai := true, alignedTo := some gm }) (timeStep o delta d1)
    | some why =>
      record o 0x0425 2 ([b8 why] ++ List.replicate 7 0 ++ toLE 8 delta)
        (hold (onTime (fun t => { t with stepDeferred := true, pending := delta }) (lockCheck o off d1)))
  else
    record o 0x0426 2 (List.replicate 8 0 ++ toLE 8 (ofSigned 64 (truncQ off)))
      (hold (onTime (fun t => { t with backwardRefused := true }) (lockCheck o off d1)))

/-- Device time of a receive point (`rxNs` the other way round). -/
def rxTick (o : Od) (mac : Nat) (ns : Rat) : Nat := ⌊(ns + (odI o 32 0x2443 (2 * mac + 2) : Rat) / 1000) * 4 / 5⌋.toNat

/-- A complete Sync from the selected master, received at `t2` ns: its offset and what follows (R183, R187). T runs from the
receipt of the previous accepted Sync; a Sync that comes without TBLOCK, or too soon after it, is not accepted. -/
def syncComplete (o : Od) (m : Master) (t2 : Rat) (originNs correction : Rat) (d : Dev) : Dev :=
  let diff := t2 - originNs - correction
  let off := diff - d.time.pathDelay
  let now := rxTick o (odU o 0x2440 2) t2
  let last := if m.synced then d.time.updateAt else none
  let d1 := onTime (fun t => { t with lastDiff := some diff, master := some { m with syncAt := now } }) d
  if !d.time.tb.declared then d1
  else if match d.time.updateAt with | some u => decide (now < u + usT 31250) | none => false then d1
  else
    let t : Rat := match last with | some u => ((now - u : Nat) : Rat) / 800000000 | none => pow2 m.logSync
    let d2 := onTime (fun x => { x with
      offset := off, syncCount := wrapInc x.syncCount, holdover := false, updateAt := some now
      master := some { m with syncAt := now, synced := true } }) d1
    let lim : Rat := odU o 0x2441 7
    if off < -lim ∨ lim < off then beyondThreshold o off m.gm d2
    else
      let d3 := onTime (fun x => { x with
        tai := true, alignedTo := some m.gm, stepDeferred := false, backwardRefused := false, pending := 0, stepNow := false }) d2
      lockCheck o off (if t = 0 then d3 else servo o off t d3)

/-- A Sync is received (R187): one-step ones are complete, two-step ones wait for their Follow_Up. -/
def ptpSync (o : Od) (mac : Nat) (udp : Bool) (domain parent seq : Nat) (logSync : Int) (twoStep : Bool) (originNs : Nat)
    (correction : Rat) (d : Dev) : Dev :=
  if !ptpTakes o mac udp domain d then d
  else match d.time.master with
    | none => d
    | some m =>
      if m.parent != parent || logSync < -5 || 4 < logSync then d
      else
        let m1 := { m with logSync := logSync }
        let t2 := rxNs o mac d
        if twoStep then
          onTime (fun t => { t with
            twoStep := some { seq := seq, t2 := t2, correction := correction }
            master := some { m1 with syncAt := d.clk.dt } }) d
        else syncComplete o m1 t2 originNs correction d

/-- A Follow_Up is received (R187). -/
def ptpFollowUp (o : Od) (mac : Nat) (udp : Bool) (domain parent seq : Nat) (originNs : Nat) (correction : Rat) (d : Dev) : Dev :=
  if !ptpTakes o mac udp domain d then d
  else match d.time.master, d.time.twoStep with
    | some m, some s =>
      if m.parent != parent || s.seq != seq then d
      else syncComplete o m s.t2 originNs (s.correction + correction) (onTime (fun t => { t with twoStep := none }) d)
    | _, _ => d

/-- A Delay_Resp of the selected master, or a Pdelay_Resp with its Follow_Up: `t2` the peer's receipt of the request, `t3` its
response's origin (equal for Delay_Resp), both in ns (R187). -/
def ptpDelayResp (o : Od) (mac : Nat) (udp : Bool) (domain source seq : Nat) (t2 t3 : Nat) (correction : Rat) (d : Dev) : Dev :=
  if !ptpTakes o mac udp domain d || d.time.delaySeq != seq then d
  else match d.time.delaySent with
    | none => d
    | some sent =>
      if odU o 0x2440 1 = 2 then
        onTime (fun t => { t with
          pathDelay := ((rxNs o mac d - sent) - ((t3 : Rat) - t2) - correction) / 2
          delaySent := none }) d
      else match d.time.lastDiff, d.time.master with
        | some diff, some m => if m.parent != source then d else onTime (fun t => { t with pathDelay := (diff + ((t2 : Rat) - sent) - correction) / 2, delaySent := none }) d
        | _, _ => d

/-- LOG_DELAY_INTERVAL passes: a Delay_Req or Pdelay_Req is sent (R186). -/
def ptpDelayTimer (o : Od) (d : Dev) : Dev :=
  let mac := odU o 0x2440 2
  let p2p := odU o 0x2440 1 == 2
  if !ptpPort o mac d || (!p2p && d.time.master.isNone)
    || decide (d.clk.dt < d.time.delayAt + logTicks (odI o 8 0x2440 5)) then d
  else
    let seq := (d.time.delaySeq + 1) % 65536
    { onTime (fun t => { t with delaySeq := seq, delaySent := some (txNs o mac d), delayAt := d.clk.dt }) d with
      out := d.out ++ [.ptp mac (if p2p then 2 else 1) (toBE 2 seq)] }

/-- A Pdelay_Req is answered under 802.1AS (R186): Pdelay_Resp and Pdelay_Resp_Follow_Up. -/
def pdelayReq (o : Od) (mac domain requester seq : Nat) (d : Dev) : Dev :=
  if !ptpTakes o mac false domain d || odU o 0x2440 1 != 2 then d
  else
    let who := toBE 2 seq ++ toBE 10 requester
    { d with out := d.out ++ [
      .ptp mac 3 (who ++ toBE 10 ⌊rxNs o mac d⌋.toNat),
      .ptp mac 0x0A (who ++ toBE 10 ⌊txNs o mac d⌋.toNat)] }

/-- Default data set comparison: `a` is better than `b`. -/
def Master.better (a b : Master) : Bool :=
  let key (m : Master) : List Nat := [m.priority1, m.clockClass, m.accuracy, m.variance, m.priority2, m.gm, m.steps, m.parent]
  decide (key a < key b)

/-- An Announce is received: it refreshes the selected master, or selects a better one (R190). -/
def ptpAnnounce (o : Od) (mac : Nat) (udp : Bool) (domain : Nat) (a : Master) (d : Dev) : Dev :=
  if !ptpTakes o mac udp domain d then d
  else
    let now := d.clk.dt
    let fresh : Master := { a with announceAt := now, syncAt := now, synced := false }
    let another := d.time.master.isSome
    let select (d : Dev) : Dev :=
      let d1 := onTime (fun t => { t with
        master := some fresh, lastGm := a.gm, holdover := t.holdover || another, twoStep := none, lastDiff := none, delaySent := none }) d
      let d2 := record o 0x0420 (0x10 + mac) (toBE 8 a.gm ++ toBE 8 d.time.lastGm) (if another then servoRate o (pptOf d.time.integ) d1 else d1)
      timeUnlock o 2 d2
    match d.time.master with
    | none => select d
    | some m =>
      if m.parent = a.parent then
        if m.gm = a.gm then
          onTime (fun t => { t with master := some { a with
            announceAt := now, syncAt := m.syncAt, synced := m.synced, logSync := m.logSync } }) d
        else select d
      else if a.better m then select d else d

/-- When a timeout of R190 runs out: 1 Sync, 2 Announce. -/
def masterDue (o : Od) (cause : Nat) (m : Master) : Nat :=
  if cause = 1 then m.syncAt + odU o 0x2440 7 * logTicks m.logSync else m.announceAt + odU o 0x2440 6 * logTicks m.logAnnounce

/-- The timeouts of R190. -/
def masterTimeout (o : Od) (cause : Nat) (d : Dev) : Dev :=
  match d.time.master with
  | none => d
  | some m => if d.clk.dt < masterDue o cause m then d else masterLost o cause d

/-- A step of a slew in progress is due (R188); none is taken while TBLOCK is lost (R174). -/
def rateSlewStep (d : Dev) : Dev :=
  if !d.time.tb.declared || d.time.rate = d.time.rateTarget || decide (d.clk.dt < d.time.rateAt + msT 1) then d else slewStep d

/-- PTP_MODE changes: off applies MANUAL_RATE and gives up the master; on starts from the present rate (R187, R188). -/
def ptpModeChanged (o : Od) (d : Dev) : Dev :=
  if odU o 0x2440 1 = 0 then
    let had := d.time.master.isSome
    let d1 := onTime (fun t => { t with
      master := none, holdover := false, twoStep := none, lastDiff := none, delaySent := none
      stepDeferred := false, pending := 0, stepNow := false, backwardRefused := false }) d
    callRate o (odI o 32 0x2401 3) (if had then timeUnlock o 2 d1 else d1)
  else d

/-! ### Ethernet (R190, R191) -/

/-- The link of a MAC goes up or down. -/
def linkChange (o : Od) (mac : Nat) (up : Bool) (d : Dev) : Dev :=
  if !d.isOn .net || d.time.links.testBit mac == up || (up && !ethLine d) then d
  else
    let d1 := onTime (fun t => { t with links := if up then setBit t.links mac else clrBit t.links mac }) d
    if !up && odU o 0x2440 2 == mac then masterLost o 3 d1 else d1

/-- The address on the link that a datagram of MAC `mac` goes to: its own where it is of the subnet, else the gateway (R191). -/
def nextHop (mac ip : Nat) (d : Dev) : Nat :=
  let at' (sub : Nat) : Bytes := odGet d.com.iface (0x2450 + mac) sub
  let own := beNat (at' 2)
  let host := 2 ^ (32 - leNat (at' 3))
  let gateway := beNat (at' 4)
  if own / host = ip / host || gateway = 0 then ip else gateway

/-- An ARP request for the gateway or an OD client whose MAC address is not known, before a datagram to it (RFC 826, R191).
DESIGN CHOICE (log entry 202): the datagram follows the request without a wait for the reply. -/
def arpAsk (mac ip : Nat) (d : Dev) : Dev :=
  let hop := nextHop mac ip d
  if d.time.arp.any (fun e => e.1 == mac && e.2.1 == hop) then d
  else { d with out := d.out ++ [.arp mac (toBE 2 1 ++ odGet d.com.iface (0x2450 + mac) 1
    ++ toBE 4 (beNat (odGet d.com.iface (0x2450 + mac) 2)) ++ toBE 6 0 ++ toBE 4 hop)] }

/-- An ARP message: a request for the own address is answered, a reply for the gateway or an OD client is taken. -/
def arpReceived (mac : Nat) (reply : Bool) (senderIp senderMac targetIp : Nat) (d : Dev) : Dev :=
  let own := beNat (odGet d.com.iface (0x2450 + mac) 2)
  if !d.isOn .net || !d.time.links.testBit mac || targetIp != own then d
  else if reply then
    let client := d.com.sessions.toList.any (fun s => s.kind == .udp && s.mac == mac && s.ip == senderIp)
    if beNat (odGet d.com.iface (0x2450 + mac) 4) = senderIp || client then
      let before (a b : Nat × Nat × Nat) : Bool := decide (a.1 * 2 ^ 32 + a.2.1 < b.1 * 2 ^ 32 + b.2.1)
      let rest := d.time.arp.filter (fun e => !(e.1 == mac && e.2.1 == senderIp))
      onTime (fun t => { t with arp := insertBy before (mac, senderIp, senderMac) rest }) d
    else d
  else { d with out := d.out ++ [.arp mac (toBE 2 2 ++ odGet d.com.iface (0x2450 + mac) 1 ++ toBE 4 own ++ toBE 6 senderMac ++ toBE 4 senderIp)] }

/-- An ICMP echo request to the own address is answered with its data. -/
def icmpEcho (mac sourceIp targetIp : Nat) (body : Bytes) (d : Dev) : Dev :=
  if !d.isOn .net || !d.time.links.testBit mac || targetIp != beNat (odGet d.com.iface (0x2450 + mac) 2) then d
  else { d with out := d.out ++ [.icmp mac (toBE 4 sourceIp ++ body)] }

/-- TIME_STATUS (0x2400:02). -/
def timeStatus (d : Dev) : Nat :=
  let t := d.time
  bitIf 7 t.stepDeferred + bitIf 6 t.backwardRefused + bitIf 5 t.holdover + bitIf 4 t.tai + bitIf 3 t.timeLocked
    + bitIf 2 t.cas.declared + bitIf 1 t.tb.declared + bitIf 0 t.uncertain

/-- PORT_STATE (0x2442:01). -/
def portState (o : Od) (d : Dev) : Nat :=
  if odU o 0x2440 1 = 0 || !d.isOn .net then 3
  else if !d.time.links.testBit (odU o 0x2440 2) then 2
  else match d.time.master with
    | none => 4
    | some m => if m.synced then 9 else 8

end Sys2Proof.Machine
end

