-- ==== Sys2Proof/Machine/StackOps.lean ====
section
/-! DEFINITION. The stack controller: arrangement checks, commands, line and PLL, regulation chain, balancing, command slots,
the frame-build cut-off (chapters 12 to 14). -/
namespace Sys2Proof.Machine

/-- Change of the stack controller. -/
def onStack (f : Stack → Stack) (d : Dev) : Dev := { d with stack := f d.stack }

/-- Change of one group. -/
def onGroup (g : Nat) (f : StackGroup → StackGroup) (d : Dev) : Dev :=
  onStack (fun s => { s with groups := vmod s.groups g f }) d

/-! ### Arrangement (R270 to R272) -/

/-- √2 as binary32. -/
def sqrt2F : Rat := f32Val 0x3FB504F3

def mvNominal (o : Od) : Rat := odU o 0x3000 3

/-- V_req of Table 12.1. -/
def vReq (o : Od) : Rat :=
  match arrCode o with
  | 1 => sqrt2F / sqrt3F * mvNominal o
  | 2 => sqrt2F * mvNominal o
  | 3 => mvNominal o
  | _ => 0

/-- k_z of R275. -/
def kZ (o : Od) : Rat := if arrCode o = 1 ∧ odU o 0x3030 2 = 1 then 2 / sqrt3F else 1

/-- The entry is named and triggered by the period start: PERIOD with divider 1 (R284, R368). -/
def entryAssigned (o : Od) (e : Nat) : Bool :=
  entrySet e && odU o (0x2601 + entryAdc e) 2 == 1 && odU o (0x2601 + entryAdc e) 3 == 1

/-- Stacks of the arrangement under check. -/
def checkStacks (o : Od) : List Nat := List.range (stackCount o)

/-- Rings that hold a cell of any stack. -/
def stackRings (o : Od) : List Nat :=
  (List.range 8).filter (fun r => (checkStacks o).any (fun s => (stackCells o s).any (fun c => ringOf c == r)))

/-- Check 0x03 of Table 12.2: the first stack that fails. -/
def badStack (o : Od) : Option Nat :=
  (checkStacks o).find? (fun s =>
    let n := cellCount o s
    n < 1 || 64 < n || 4 < ((List.range 8).filter (fun r => (stackCells o s).any (fun c => ringOf c == r))).length
      || 128 < firstCell o s + n
      || (decide (1 ≤ s) && decide (firstCell o s < firstCell o (s - 1) + cellCount o (s - 1))))

/-- Check 0x04: the first cell that lies on no ring position. -/
def badCell (o : Od) : Option Nat :=
  ((checkStacks o).flatMap (stackCells o)).find? (fun c => ringPaths o (ringOf c) == 0 || ringCells o (ringOf c) ≤ posOf c)

/-- Check 0x05: the first ring that is not wholly its stacks' (R28). -/
def badRing (o : Od) : Option Nat :=
  (stackRings o).find? (fun r =>
    let owners := (checkStacks o).filter (fun s => (stackCells o s).any (fun c => ringOf c == r))
    (ringCellList o r).any (fun c => !(checkStacks o).any (fun s => (stackCells o s).contains c))
      || (owners.length == 2 && ringCells o r != 16) || 3 ≤ owners.length)

/-- ARR_STATUS of the present configuration (R271). -/
def arrStatus (o : Od) : Nat :=
  let code := arrCode o
  let n := stackCount o
  let three := code = 1 ∨ code = 2
  let fail (c unit : Nat) : Nat := 256 * c + unit
  if code = 0 then fail 1 0xFF
  else if !((decide three && n == 3) || (code == 3 && 1 ≤ n && n ≤ 4)) then fail 2 0xFF
  else match badStack o with
    | some s => fail 3 s
    | none => match badCell o with
      | some c => fail 4 c
      | none => match badRing o with
        | some r => fail 5 r
        | none => match (checkStacks o).find? (fun s => decide (cellCount o s < minActive o s)) with
          | some s => fail 6 s
          | none =>
            if !entryAssigned o (odU o 0x3020 1) || !entryAssigned o (odU o 0x3020 4)
              || (decide three && !entryAssigned o (odU o 0x3020 2)) then fail 7 0xFF
            else if odU o 0x3030 7 = 0 || odU o 0x3000 3 = 0 || (checkStacks o).any (fun s => odU o (0x3001 + s) 4 == 0) then fail 8 0xFF
            else 1

/-- The checks are evaluated (R271). -/
def arrCheck (o : Od) (d : Dev) : Dev := onStack (fun s => { s with arr := arrStatus o }) d

/-- A run is due: "strt" is accepted and its launch has not come. -/
def startPending (d : Dev) : Bool := d.stack.cmd == some .strt || (!d.stack.state.runs && d.stack.next.any (fun n => n.1.runs))

/-- The configuration with the writes that wait for the next "strt". -/
def withLater (o : Od) (d : Dev) : Od := d.stack.later.foldl (fun o w => odSet o w.1 w.2.1 w.2.2) o

/-- Lowest stack of group `g`. -/
def groupHead (o : Od) (g : Nat) : Nat := ((groupsOf o).getD g []).headD 0

/-- Active cells of a group, and those in ARMED, RUN or HOLD, ascending. -/
def groupActive (o : Od) (d : Dev) (g : Nat) : List Nat := ((groupsOf o).getD g []).flatMap (activeCells o d)
def groupLive (o : Od) (d : Dev) (g : Nat) : List Nat := (groupActive o d g).filter (fun c => (getCell d c).state.inService)

/-- Numbers of the groups of the arrangement. -/
def groupNos (o : Od) : List Nat := List.range (groupsOf o).length

/-! ### Commands (R275, R276, R281) -/

/-- Why "strt" is refused in STOPPED: the detail code (R275). `ready` is READY_FOR_STACK. -/
def strtRefusal (o : Od) (ready : Bool) (d : Dev) : Option Nat :=
  let bad (pp nn : Nat) : Option Nat := some (0x20030000 + 256 * pp + nn)
  let cells := allStackCells o
  let arr := arrStatus o
  if !ready then bad 1 0xFF
  else if arr != 1 then some (0x20010000 + arr)
  else match (stackRings o).find? (fun r => !(getRing d r).launching || !(getRing d r).delayValid) with
    | some r => bad 3 r
    | none => match cells.find? (fun c => !((getCell d c).state == .armed || (getCell d c).state == .bypassed)) with
      | some c => bad 4 c
      | none =>
        let armed (s : Nat) : Nat := ((stackCells o s).filter (fun c => (getCell d c).state == .armed)).length
        match (stacksOf o).find? (fun s => decide (armed s < minActive o s)) with
        | some s => bad 5 s
        | none =>
          let av (g : List Nat) : Rat := g.foldl (fun a s => a + armed s * vdcNominal o s) 0 * odU o 0x3030 1 / 32768 * kZ o
          match (groupsOf o).find? (fun g => decide (av g < vReq o)) with
          | some g => bad 6 (g.headD 0xFF)
          | none =>
            if d.prot.requesters != 0 then bad 7 0xFF
            else if !d.time.cas.declared then bad 8 0xFF
            else if odU o 0x3010 4 = 0 ∧ ((stacksOf o).any (fun s => decide (d.stack.busV < odF o 0x3030 6 * vdcNominal o s / 2)) = true) then
              bad 9 0xFF
            else none

/-- "strt" accepted: the active set is the cells in ARMED (R276). -/
def strtAccept (o : Od) (d : Dev) : Dev :=
  onStack (fun s => { s with
    cmd := some .strt
    arr := arrStatus o
    active := bitsOf 128 (fun c => (allStackCells o).contains c && (getCell d c).state == .armed) }) d

/-- Why "conn" is refused in READY (R275, R300). -/
def connRefusal (o : Od) (d : Dev) : Option Nat :=
  if (arrCode o = 1 ∨ arrCode o = 2) ∧ d.stack.locked = false then some 0x20030AFF
  else match (groupNos o).find? (fun g => odU o (0x3201 + g) 1 == 0xFF || odU o (0x3201 + g) 2 == 0xFF || odU o (0x3201 + g) 4 == 0) with
    | some g => some (0x20060000 + g)
    | none => if odU o 0x3200 1 = 0 ∧ odU o 0x3200 2 = 0xFF then some 0x200600FF else none

/-- "conn" accepted: the energy integrators start at 0 (R301). -/
def connAccept (d : Dev) : Dev :=
  onStack (fun s => { s with cmd := some .conn, groups := s.groups.map (fun g => { g with integ := 0 }) }) d

/-- "stop" accepted (R281, R299); in STOPPING it changes nothing. -/
def stopAccept (d : Dev) : Dev :=
  if d.stack.state == .stopping then d
  else onStack (fun s => { s with cmd := some .stop, stopFrom := d.clk.dt, stopP := s.pBus, stopYield := false }) d

/-- An internal stop, as if the host had written "stop" (R315). A host command already waiting wins (R339); an automatic
bypass due in the same period is overtaken. -/
def internalStop (d : Dev) : Dev :=
  if !d.stack.state.runs || d.stack.cmd.isSome then d
  else
    let d1 := onStack (fun s => { s with bypass := s.bypass.filter (fun b => b.2.1 == 7) }) d
    match d.stack.state with
    | .stopping => d
    | .running => onStack (fun s => { s with
        due := some (.stopping, 2, none), stopFrom := d.clk.dt, stopP := s.pBus, stopYield := false }) d1
    | _ => onStack (fun s => { s with due := some (.stopped, 2, none) }) d1

/-- A start fails at the next cut-off (R277 to R280). -/
def startFails (cause : Nat) (d : Dev) : Dev := onStack (fun s => { s with due := some (.stopped, 3, some (cause, 0xFF)) }) d

/-! ### Line, PLL and their protection (R284 to R286, R325, R328, R329) -/

/-- A PLL_LOCK record (Table 12.9). -/
def pllLock (o : Od) (locked : Bool) (cause : Nat) (d : Dev) : Dev :=
  record o 0x2005 0 ([if locked then 1 else 0, b8 cause, 0, 0] ++ toLE 4 (clampI 0 4294967295 (roundQ (d.stack.freq * 1000))).toNat)
    (onStack (fun s => { s with locked := locked, lockRun := 0, phaseRun := 0 }) d)

/-- v_ab and v_bc of the sample of the last launch (R284). -/
def lineSample (o : Od) (d : Dev) : Rat × Rat :=
  (scaled o d (odU o 0x3020 1) 0x3020 3, scaled o d (odU o 0x3020 2) 0x3020 3)

/-- v_a, v_b and v_c under the assumption of zero sum (R285). -/
def phaseVolts (vab vbc : Rat) : Rat × Rat × Rat :=
  ((2 * vab + vbc) / 3, (vbc - vab) / 3, -(vab + 2 * vbc) / 3)

/-- The line voltages as a vector: V sin θ and V cos θ of phase a. -/
def lineVector (v : Rat × Rat × Rat) : Rat × Rat := (v.1, (v.2.2 - v.2.1) / sqrt3F)

/-- The difference of two angles in turns, the shorter way round: above −1/2 and at most 1/2. -/
def turnGap (a b : Rat) : Rat := let f := fracQ (a - b); if f ≤ 1 / 2 then f else f - 1

/-- One period of the PLL (R285): the angle of the last sample is carried on by the frequency, the error against the measured vector,
normalised to its amplitude, drives the PI loop, and the lock follows. -/
def pllStep (o : Od) (d : Dev) : Dev :=
  let p : Rat := (period o : Rat) / 800000000
  let (vab, vbc) := lineSample o d
  let (y, x) := lineVector (phaseVolts vab vbc)
  let amp := sqrtQ (y * y + x * x)
  let theta := fracQ (d.stack.theta + d.stack.freq * p)
  let err := 360 * turnGap (atan2Turn y x) theta
  let q := if amp = 0 then 0 else (y * cosTurn theta - x * sinTurn theta) / amp
  let bw := odF o 0x3021 1
  let integ := d.stack.pllInteg + Config.pllKi bw * q * p
  let freq := integ + Config.pllKp bw * q
  let mHz := freq * 1000
  let inRange := decide ((odU o 0x3021 2 : Rat) ≤ mHz ∧ mHz ≤ odU o 0x3021 3)
  let lockRun := if absQ err ≤ 1 ∧ inRange = true then d.stack.lockRun + 1 else 0
  let phaseRun := if 5 < absQ err then d.stack.phaseRun + 1 else 0
  let d1 := onStack (fun s => { s with
    vab := vab, vbc := vbc, theta := theta, freq := freq, pllInteg := integ, phaseErr := err, amp := amp, lineV := amp
    lockRun := lockRun, phaseRun := phaseRun }) d
  if d.stack.locked then
    if 3 ≤ phaseRun then pllLock o false 1 d1
    else if !inRange then pllLock o false 2 d1
    else if amp < sqrt2F / sqrt3F * mvNominal o / 2 then pllLock o false 3 d1
    else d1
  else if odU o 0x3021 4 ≤ lockRun then pllLock o true 0 d1
  else d1

/-- LINE_VOLTAGE of a DC string: the last 8 samples averaged (R286). -/
def dcLine (o : Od) (d : Dev) : Dev :=
  let s := newest 8 (d.stack.lineSamples ++ [scaled o d (odU o 0x3020 1) 0x3020 3])
  onStack (fun x => { x with lineSamples := s, lineV := s.sum / s.length }) d

/-- Line peak across a group (R325, R329): the phase amplitude, √3 of it across a delta stack, or LINE_VOLTAGE. -/
def linePeak (o : Od) (d : Dev) : Rat := if arrCode o = 2 then sqrt3F * d.stack.amp else d.stack.lineV

/-- The line counts as lost (R328). -/
def lineIsLost (o : Od) (d : Dev) : Bool :=
  if arrCode o = 3 then decide (d.stack.lineV < vReq o / 2) else !d.stack.locked

/-- Milliseconds between two device times. -/
def msBetween (a b : Nat) : Nat := (b - a) / 800000

/-- Loss and return of the line (R328). -/
def lineWatch (o : Od) (d : Dev) : Dev :=
  match d.prot.lineLostAt with
  | none =>
    if d.stack.state == .running && lineIsLost o d then
      record o 0x2026 0 [1] { d with prot := { d.prot with lineLostAt := some d.clk.dt } }
    else d
  | some t =>
    if !d.stack.state.regulates then { d with prot := { d.prot with lineLostAt := none } }
    else if lineIsLost o d then d
    else record o 0x2026 0 ([0, 0, 0, 0] ++ toLE 4 (msBetween t d.clk.dt)) { d with prot := { d.prot with lineLostAt := none } }

/-- V_av of a group (R325). -/
def vAvailable (o : Od) (d : Dev) (g : Nat) : Rat :=
  ((groupsOf o).getD g []).foldl (fun a s => a + countActive o d s * vdcNominal o s) 0 * odU o 0x3030 1 / 32768 * kZ o

/-- A HEADROOM_SHORT record: 1 entered, 0 left, 2 stop. -/
def headroomRecord (o : Od) (what g : Nat) (d : Dev) : Dev :=
  record o 0x2027 (srcStack (groupHead o g)) ([b8 what, 0, 0, 0] ++ u32 (vAvailable o d g) ++ u32 (linePeak o d)) d

/-- Headroom of the groups in a period (R325). -/
def headroomWatch (o : Od) (d : Dev) : Dev :=
  forEach (groupNos o) (fun g d =>
    let short := d.stack.state.runs && decide (vAvailable o d g < linePeak o d)
    match (vget d.stack.groups g).shortSince with
    | none => if short then headroomRecord o 1 g (onGroup g (fun x => { x with shortSince := some d.clk.dt }) d) else d
    | some _ => if short then d else headroomRecord o 0 g (onGroup g (fun x => { x with shortSince := none }) d)) d

/-- Stack current and line overvoltage: two samples or periods in a row (Table 14.2). -/
def overWatch (o : Od) (d : Dev) : Dev :=
  forEach (groupNos o) (fun g d =>
    let e := odU o (0x3201 + g) 2
    let base := odF o (0x3201 + g) 4
    let i := absQ (scaled o d e (0x3201 + g) 3)
    let oc := if entrySet e ∧ base ≠ 0 ∧ base * odU o 0x3300 8 / 100 < i then (vget d.stack.groups g).ocRun + 1 else 0
    let ov := if vReq o * odU o 0x3300 0x0A / 1000 < linePeak o d then (vget d.stack.groups g).ovRun + 1 else 0
    let d1 := onGroup g (fun x => { x with ocRun := oc, ovRun := ov }) d
    let d2 := if 2 ≤ oc then tripCause o 1 d1 else d1
    if 2 ≤ ov then tripCause o 3 d2 else d2) d

/-- EXPORT_CAPACITY (R336). -/
def exportCapacityOf (o : Od) (d : Dev) : Rat :=
  let lim := odF o 0x3200 0x0A
  if !d.stack.state.regulates || d.prot.requesters != 0 || d.prot.lineLostAt.isSome
    || d.stack.groups.any (fun g => g.shortSince.isSome) then 0
  else if arrCode o != 3 then lim
  else
    let lo := odF o 0x3310 3
    let hi := odF o 0x3310 4
    let v := d.stack.lineV
    if v ≤ lo then lim else if hi ≤ v then 0 else lim * (hi - v) / (hi - lo)

/-! ### Regulation (R298 to R303, R337) -/

/-- Raw Q4.27 value of a per-unit number: nearest, saturated. -/
def q427 (x : Rat) : Int := clampI (-2147483648) 2147483647 (roundQ (x * 134217728))

/-- Output u0 of an instance as a per-unit number. -/
def u0Of (d : Dev) (n : Nat) : Rat :=
  let raw : Int := vget (vget d.engine.inst n).uOut 0
  raw / 134217728

/-- The stack controller hands an instance its measurement vector (R300, R354). -/
def handVector (n : Nat) (v : List Rat) (d : Dev) : Dev :=
  if n < 16 then { d with engine := { d.engine with
    inst := vmod d.engine.inst n (fun i => { i with role := v.map q427, roleReady := true }) } }
  else d

/-- Ramp of R299. -/
def stopRamp (o : Od) (d : Dev) : Rat :=
  let ramp := max (msT (odU o 0x3010 9)) (period o)
  let t := d.clk.dt - d.stack.stopFrom
  if ramp ≤ t then 0 else d.stack.stopP * (1 - (t : Rat) / ramp)

/-- Row 1 of Table 13.1 with the floor of R337 and its record and yield (R338). The floor binds only while the ladder asks for an
export: the worked example of chapter 13 imports 3 MW with no demand. -/
def rowOne (o : Od) (d : Dev) : Dev :=
  let base :=
    if d.stack.state == .stopping then stopRamp o d
    else
      let p := if odU o 0x3200 1 = 1 then odF o 0x3200 4 else u0Of d (odU o 0x3200 2) * odF o 0x3200 5
      clampQ (-(odF o 0x3200 0x0A)) (odF o 0x3200 9) p
  let cap := exportCapacityOf o d
  let dem := d.ladder.exportDemand
  let floor := -(if dem < cap then dem else cap)
  let forced := d.stack.state.regulates && decide (0 < dem) && decide (floor < base)
  let d1 := { d with
    stack := { d.stack with pBus := if forced then floor else base }
    prot := { d.prot with exportCapacity := cap, exportDemand := dem, exportForced := forced } }
  let d2 := if forced == d.prot.exportForced then d1
    else record o 0x2028 0 ([if forced then 1 else 0, 0, 0, 0] ++ u32 dem ++ u32 cap) d1
  if forced && d.stack.state == .stopping && !d.stack.stopYield then
    yieldTo o 2 5 8 0x2028 0 (onStack (fun s => { s with stopYield := true }) d2)
  else d2

/-- V(c) in volts and CELL_CAP in µF. -/
def cellV (d : Dev) (c : Nat) : Rat := ((getCell d c).vUsed : Rat) / 100

/-- share(g) of R301. -/
def groupShare (o : Od) (d : Dev) (g : Nat) : Rat :=
  let w (g : Nat) : Rat := odF o (0x3201 + g) 5 * (groupLive o d g).length
  let total := ((groupNos o).map w).sum
  if total = 0 then 0 else w g / total

/-- Energy loop of a group (R301). -/
def energyLoop (o : Od) (g : Nat) (d : Dev) : Dev :=
  let cells := (groupActive o d g).filter (fun c => cellCap o c != 0)
  let e := cells.foldl (fun a c =>
    let cap : Rat := (cellCap o c : Rat) / 1000000
    let nom := match stackOfCell o c with | some s => vdcNominal o s | none => 0
    a + cap / 2 * (nom * nom - cellV d c * cellV d c)) 0
  let base := odF o 0x3200 5
  let ps : Rat := (period o : Rat) / 800000000
  let integ := clampQ (-base) base ((vget d.stack.groups g).integ + odF o 0x3200 0x0E * e * ps)
  let p := clampQ (-base) base (groupShare o d g * d.stack.pBus + odF o 0x3200 0x0D * e + integ)
  onGroup g (fun x => { x with integ := integ, pMv := p }) d

/-- Midpoint of the interval in which the next command applies (R287). -/
def tMid (o : Od) (d : Dev) : Nat := nextApply o d + period o / 2

/-- Angle of phase a at the midpoint, in turns: the PLL angle of the sample at the last launch instant, extrapolated (R287). -/
def thetaMid (o : Od) (d : Dev) : Rat := d.stack.theta + d.stack.freq * ((tMid o d - d.sched.last : Nat) : Rat) / 800000000

/-- Angle of stack `s` in its phase function, and its factor (R287). -/
def phaseAngle (o : Od) (d : Dev) (s : Nat) : Rat :=
  thetaMid o d - (s : Rat) / 3 + (if arrCode o = 2 then 1 / 12 else 0)
def phaseFactor (o : Od) : Rat := if arrCode o = 2 then sqrt3F else 1

/-- The reference of group `g` for an amplitude, or for a DC string that value itself. -/
def lineRef (o : Od) (d : Dev) (a : Rat) (g : Nat) : Rat :=
  if arrCode o = 3 then a else phaseFactor o * a * sinTurn (phaseAngle o d (groupHead o g))

/-- i_ref of a group at the midpoint (R302). -/
def currentRef (o : Od) (d : Dev) (g : Nat) : Rat :=
  let p := (vget d.stack.groups g).pMv
  let a := phaseFactor o * d.stack.lineV
  if d.stack.lineV < vReq o / 10 ∨ a = 0 then 0
  else if arrCode o = 3 then p / a
  else
    let th := phaseAngle o d (groupHead o g)
    2 * p / a * sinTurn th + 2 * odF o (0x3201 + g) 6 / a * cosTurn th

/-- Rows 1 to 5: the measurement vectors go to the loop instances (R298, R300). -/
def chainVectors (o : Od) (d : Dev) : Dev :=
  let pb := odF o 0x3200 5
  let vb := odF o 0x3200 6
  let d1 := rowOne o (onStack (fun s => { s with pAxes := pAxes d }) d)
  let bus (d : Dev) : Dev := handVector (odU o 0x3200 2)
    [d.stack.busV / vb, odF o 0x3200 3 / vb, scaled o d (odU o 0x3200 7) 0x3200 8 * vb / pb, d.stack.pAxes / pb] d
  if d.stack.state.regulates then
    forEach (groupNos o) (fun g d =>
      let d := energyLoop o g d
      let base := odF o (0x3201 + g) 4
      let pu (x b : Rat) : Rat := if b = 0 then 0 else x / b
      handVector (odU o (0x3201 + g) 1)
        [pu (scaled o d (odU o (0x3201 + g) 2) (0x3201 + g) 3) base, pu (currentRef o d g) base,
         pu (lineRef o d d.stack.lineV g) (vReq o)] d) (bus d1)
  else bus d1

/-- The stack controller's update of a period (STACK_UPDATE_COMPLETE). -/
def stackUpdate (o : Od) (d : Dev) : Dev :=
  if !d.isOn .ctrl || !d.sched.running || d.sched.count == 0 || d.stack.handed then d
  else
    let d0 := onStack (fun s => { s with handed := true }) d
    if arrCode o = 0 then d0
    else
      let d1 := onStack (fun s => { s with busV := scaled o d (odU o 0x3020 4) 0x3020 5 }) d0
      let d2 := if arrCode o = 3 then dcLine o d1 else pllStep o d1
      let d3 := overWatch o (headroomWatch o (lineWatch o d2))
      if d3.stack.state.runs then chainVectors o d3
      else { d3 with prot := { d3.prot with exportCapacity := exportCapacityOf o d3, exportDemand := d3.ladder.exportDemand } }

/-! ### Balancing (R303, R308, R309) -/

/-- Power and share of every cell of a group, and what of it is remembered and recorded, for the frame of period `k`. -/
def balanceGroup (o : Od) (k g : Nat) (d : Dev) : Dev :=
  let act := groupActive o d g
  let n := (groupLive o d g).length
  let nq : Rat := n
  let p0 : Rat := if n = 0 then 0 else groupShare o d g * d.stack.pBus / nq
  let mode := odU o 0x3208 1
  let cap (c : Nat) : Rat := cellCap o c
  let part := act.filter (fun c => cellCap o c != 0 && (getCell d c).everVdc)
  let sumC := (part.map cap).sum
  let vt : Rat := if sumC = 0 then 0 else (part.map (fun c => cap c * cellV d c)).sum / sumC
  let sumDq : Rat := (part.map (fun c => ((getCell d c).dq : Rat))).sum
  let qPred (c : Nat) : Rat :=
    cap c * (cellV d c - vt) + 5 * ((getCell d c).dq - cap c / sumC * sumDq) / 2
  let lim := odF o 0x3208 3
  let raw (c : Nat) : Rat := cellV d c * qPred c / odU o 0x3208 2
  let dp (c : Nat) : Rat := clampQ (-lim) lim (raw c)
  let clamped := if mode = 0 then 0 else (part.filter (fun c => decide (lim < absQ (raw c)))).length
  let mean : Rat := if part.isEmpty then 0 else (part.map dp).sum / part.length
  let isPart (c : Nat) : Bool := part.contains c
  let power (c : Nat) : Rat := if mode != 0 && isPart c then p0 + dp c - mean else p0
  let w1 (c : Nat) : Rat :=
    if mode = 2 ∧ isPart c = true ∧ vt ≠ 0 then
      let bl : Rat := (odU o 0x3208 5 : Rat) / 10000
      let t := clampQ (-bl) bl (odF o 0x3208 4 * qPred c / (cap c * vt))
      (1 - (if 0 ≤ (vget d.stack.groups g).pMv then t else -t)) / nq
    else 1 / nq
  let sumW := ((groupLive o d g).map w1).sum
  let share (c : Nat) : Rat := if sumW = 0 then 0 else w1 c / sumW
  let vs := (part.map (fun c => (getCell d c).vUsed))
  let spread := if vs.isEmpty then 0 else vs.foldl max 0 - vs.foldl min 65535
  let limited := 0 < clamped
  let was := (vget d.stack.groups g).limited
  let d1 := onGroup g (fun x => { x with vTarget := vt, spread := spread, limited := limited }) d
  let d2 := onStack (fun s => act.foldl (fun s c => { s with
    power := vset s.power c (power c)
    share := vset s.share c (share c)
    qPred := vset s.qPred c (if isPart c then qPred c else 0) }) s) d1
  if limited == was then d2
  else record o 0x2013 (srcStack (groupHead o g)) ([if limited then 1 else 0, b8 clamped, 0, 0] ++ toLE 4 (pno k)) d2

/-- v_s of the groups in RUNNING and STOPPING: the loop instances' outputs, with the zero sequence of R287. -/
def runRefs (o : Od) (d : Dev) : List Rat :=
  (groupNos o).map (fun g => u0Of d (odU o (0x3201 + g) 1) * vReq o)

/-- The zero sequence of R287. -/
def zeroSeq (o : Od) (refs : List Rat) : List Rat :=
  if arrCode o = 1 ∧ odU o 0x3030 2 = 1 then
    match refs with
    | [] => []
    | r :: rest =>
      let hi := rest.foldl (fun a b => if a < b then b else a) r
      let lo := rest.foldl (fun a b => if b < a then b else a) r
      refs.map (fun v => v - (hi + lo) / 2)
  else refs

/-! ### Command slots (R277, R279, R289 to R294, R312) -/

/-- The smallest integer whose square is at least `a`. -/
def ceilSqrt (a : Nat) : Nat := let r := Nat.sqrt a; if r * r = a then r else r + 1

/-- round((1 − √(1 − 4x)) / 2 × 32768) for 0 ≤ x ≤ 1/4, computed exactly. -/
def dabRound (x : Rat) : Nat := (32769 - ceilSqrt ⌈(1 - 4 * x) * 1073741824⌉.toNat) / 2

/-- Last valid VDC of a cell in V; the group mean where it never had one (R292). -/
def vdcOf (o : Od) (d : Dev) (g c : Nat) : Rat :=
  let v (c : Nat) : Rat := ((getCell d c).vdc : Rat) / 100
  if (getCell d c).everVdc then v c
  else
    let l := (groupActive o d g).filter (fun c => (getCell d c).everVdc)
    if l.isEmpty then 0 else (l.map v).sum / l.length

/-- MV_REF and whether it was clamped (R292). A DC link read as 0 V gives the clamp on the side of the reference. -/
def mvRef (o : Od) (v vdc : Rat) : Int × Bool :=
  let lim : Int := odU o 0x3030 1
  let r : Int := if vdc = 0 then (if 0 < v then lim + 1 else if v < 0 then -lim - 1 else 0) else roundQ (v / vdc * 32768)
  (clampI (-lim) lim r, decide (r < -lim ∨ lim < r))

/-- DAB_SHIFT and whether its clamp acted (R293). -/
def dabShift (o : Od) (d : Dev) (f : Nat) (p vdc : Rat) : Int × Bool :=
  let v2 := d.stack.busV / odF o 0x3030 6
  let v := if vdc < 10 then 10 else vdc
  let den := v * v2
  let lim : Int := odU o 0x3030 8
  let x := 2 * ((f : Rat) / 1000) * odF o 0x3030 7 * p / den
  let far := if den = 0 then decide (p ≠ 0) else decide (1 / 4 < absQ x)
  let ax := if far then 1 / 4 else absQ x
  let m : Int := dabRound ax
  let neg := if den = 0 then decide (p < 0) else decide (x < 0)
  (clampI (-lim) lim (if neg then -m else m), far)

/-- DAB_SHIFT of the precharge law (R277) towards `v` volts. -/
def preShift (o : Od) (d : Dev) (c : Nat) (v : Rat) : Int :=
  let gap := v - ((getCell d c).vdc : Rat) / 100
  let shift : Int := min (if gap ≤ 0 then 0 else ⌊(odU o 0x3010 0x0B : Rat) * gap⌋) (odU o 0x3030 8)
  Int.neg shift

/-- A carrier phase moved towards its target by at most the slew, the shorter way round (R290). -/
def slewTo (slew cur target : Nat) : Nat :=
  let up := (target + 2 ^ 32 - cur) % 2 ^ 32
  if up ≤ 2 ^ 31 then (if up ≤ slew then target else (cur + slew) % 2 ^ 32)
  else
    let down := 2 ^ 32 - up
    if down ≤ slew then target else (cur + 2 ^ 32 - slew % 2 ^ 32) % 2 ^ 32

/-- Distance of two phases, the shorter way round. -/
def phaseGap (a b : Nat) : Nat := let up := (a + 2 ^ 32 - b) % 2 ^ 32; min up (2 ^ 32 - up)

/-- Interleave of a group for the frame of period `k` (R289, R290); `first` is the first launch of a run. -/
def interleave (o : Od) (first : Bool) (k g : Nat) (d : Dev) : Dev :=
  let live := groupLive o d g
  let n := live.length
  let base := odU o (0x3001 + groupHead o g) 6
  let target (i : Nat) : Nat := (base + i * 2 ^ 31 / n) % 2 ^ 32
  let slew := odU o 0x3030 3
  let old (c : Nat) : Nat := vget d.stack.offsets c
  let prevN := (vget d.stack.groups g).lastN
  let settle := (live.zipIdx.map (fun (c, i) => (phaseGap (target i) (old c) + slew - 1) / slew)).foldl max 0
  let d1 := match prevN with
    | some m => if first || m = n then d
      else record o 0x2003 (srcStack (groupHead o g)) ([b8 m, b8 n, b8 (if settle ≤ 254 then settle else 0xFF), 0] ++ toLE 4 (pno k)) d
    | none => d
  let new (c i : Nat) : Nat := if first then target i else slewTo slew (old c) (target i)
  let out := (((groupsOf o).getD g []).flatMap (stackCells o)).filter (fun c => !live.contains c)
  let moving := live.zipIdx.any (fun (c, i) => new c i != target i)
  onGroup g (fun x => { x with lastN := some n, moving := moving })
    (onStack (fun s => { s with offsets := live.zipIdx.foldl (fun v (c, i) => vset v c (new c i)) (out.foldl (fun v c => vset v c 0) s.offsets) }) d1)

/-- Zero-voltage switching of a slot (R312). -/
def zvsHolds (o : Od) (d : Dev) (vdc : Rat) (shift : Int) : Bool :=
  let v := if vdc < 10 then 10 else vdc
  let m := d.stack.busV / odF o 0x3030 6 / v
  let e : Rat := 1 - 4 * (shift.natAbs : Rat) / 65536
  decide (m * e ≤ 1 ∧ e ≤ m)

/-- What the cells of a group receive in a frame: slot, MV clamp, DAB clamp, and whether soft switching holds (Table 12.4). -/
structure SlotPlan where
  cell : Nat
  slot : CmdSlot
  mvClamp : Bool := false
  dabClamp : Bool := false
  zvs : Bool := true

/-- The slot of an active cell in stack state `st` (Table 12.4), with `v` the group's reference, `n` its cells in service. -/
def planCell (o : Od) (d : Dev) (st : StackState) (startFrame : Bool) (launch : Nat) (phi f g n : Nat) (v : Rat) (c : Nat) : SlotPlan :=
  let ph := (phi + vget d.stack.offsets c) % 2 ^ 32 / 65536
  let vdc := vdcOf o d g c
  let lv := odU o 0x3010 4 == 0
  let nom := match stackOfCell o c with | some s => vdcNominal o s | none => 0
  let sw (m : Int) (mc : Bool) (s : Int) (dc : Bool) : SlotPlan :=
    { cell := c, slot := { cmd := 1, mv := m, phase := ph, dab := s, freq := f }, mvClamp := mc, dabClamp := dc, zvs := zvsHolds o d vdc s }
  let idle : SlotPlan := { cell := c, slot := { cmd := 0, phase := ph, freq := f } }
  match st with
  | .precharge =>
    if lv then
      let t : Rat := ((launch - (if startFrame then launch else d.stack.t0) : Nat) : Rat) / 800000000
      let ramp := (odU o 0x3010 5 : Rat) * t
      sw 0 false (preShift o d c (if ramp < nom then ramp else nom)) false
    else idle
  | .syncing => let (m, mc) := mvRef o (v / n) vdc; sw m mc (preShift o d c nom) false
  | .ready => if lv then let (m, mc) := mvRef o (v / n) vdc; sw m mc (preShift o d c nom) false else idle
  | .running =>
    let (m, mc) := mvRef o (v * vget d.stack.share c) vdc
    let (s, dc) := dabShift o d f (vget d.stack.power c) vdc
    sw m mc s dc
  | .stopping =>
    let (m, mc) := mvRef o (v * vget d.stack.share c) vdc
    let (s, dc) := dabShift o d f (vget d.stack.power c) vdc
    sw m mc s dc
  | .tripped => { cell := c, slot := { cmd := 2, freq := f } }
  | .stopped => { cell := c, slot := { cmd := 0, freq := f } }

/-- The slot of a reinserting cell (R327). -/
def planReinsert (o : Od) (d : Dev) (launch phi f : Nat) (r : Reinsert) : SlotPlan :=
  let g := match stackOfCell o r.cell with | some s => groupOfStack o s | none => 0
  let vt := (vget d.stack.groups g).vTarget
  let ramp := (r.v0 : Rat) / 100 + (odU o 0x3010 5 : Rat) * ((launch - r.start : Nat) : Rat) / 800000000
  { cell := r.cell
    slot := { cmd := 1, mv := 0, phase := phi % 2 ^ 32 / 65536, dab := preShift o d r.cell (if ramp < vt then ramp else vt), freq := f } }

/-- References of the groups for the frame being built (R279, R280, R287). -/
def planRefs (o : Od) (d : Dev) (st : StackState) (since : Nat) : List Rat :=
  let line := (groupNos o).map (lineRef o d d.stack.lineV)
  match st with
  | .syncing =>
    let ramp := msT (odU o 0x3010 7)
    let t : Rat := ((tMid o d - since : Nat) : Rat) / ramp
    let a := (if t < 1 then t else 1) * d.stack.lineV
    zeroSeq o ((groupNos o).map (lineRef o d a))
  | .ready => zeroSeq o line
  | .running => if d.stack.state == .running then zeroSeq o (runRefs o d) else zeroSeq o line
  | .stopping => zeroSeq o (runRefs o d)
  | _ => line.map (fun _ => 0)

/-- The line is matched in the frame being built (R279). -/
def lineMatches (o : Od) (d : Dev) (since : Nat) : Bool :=
  let ramp := msT (odU o 0x3010 7)
  let t : Rat := ((tMid o d - since : Nat) : Rat) / ramp
  let a := (if t < 1 then t else 1) * d.stack.lineV
  decide (absQ (a - d.stack.lineV) ≤ (odU o 0x3030 4 : Rat) / 10000 * vReq o)
    && (arrCode o == 3 || decide (absQ d.stack.phaseErr ≤ 2))

/-- HEADROOM_LIMITED of a group (R292). -/
def headroomLimit (o : Od) (k g clamps : Nat) (d : Dev) : Dev :=
  let now := decide (0 < clamps)
  let was := (vget d.stack.groups g).headroomLimited
  let d1 := onGroup g (fun x => { x with headroomLimited := now }) d
  if now == was then d1
  else record o 0x2004 (srcStack (groupHead o g)) ([if now then 1 else 0, b8 clamps, 0, 0] ++ toLE 4 (pno k)) d1

/-- ZVS_LOST_CELLS (R312). -/
def zvsCount (o : Od) (k n : Nat) (d : Dev) : Dev :=
  let was := d.stack.zvs
  let d1 := onStack (fun s => { s with zvs := n }) d
  if (was == 0) == (n == 0) then d1
  else record o 0x2012 0 ([if n = 0 then 0 else 1, b8 n, 0, 0] ++ toLE 4 (pno k)) d1

/-! ### The frame-build cut-off (R207, R273, R295, R313) -/

/-- An active cell meets the precharge condition (Table 12.3). -/
def precharged (o : Od) (d : Dev) (c : Nat) : Bool :=
  let x := getCell d c
  match stackOfCell o c with
  | none => false
  | some s =>
    let nom := odU o (0x3001 + s) 4
    x.everVdc && (if odU o 0x3010 4 = 0 then decide (nom * 98 ≤ x.vdc * 100 ∧ x.vdc * 100 ≤ nom * 102)
      else decide (odU o (0x3001 + s) 5 ≤ x.vdc))

/-- The transition that the cut-off makes, with a failure cause and unit (R273, R283). -/
def decideStack (o : Od) (d : Dev) : Option (StackState × Nat × Option (Nat × Nat)) :=
  let s := d.stack
  let host := match s.cmd, s.state with
    | some .strt, .stopped => if d.prot.requesters != 0 then none else some StackState.precharge
    | some .conn, .ready => some .running
    | some .stop, .running => some .stopping
    | some .stop, .precharge => some .stopped
    | some .stop, .syncing => some .stopped
    | some .stop, .ready => some .stopped
    | _, _ => none
  match host with
  | some t => some (t, 1, none)
  | none =>
    let before := s.state == .precharge || s.state == .syncing || s.state == .ready
    match (stacksOf o).find? (fun n => decide (countActive o d n < minActive o n)) with
    | some n => if before then some (.stopped, 3, some (4, n)) else s.due
    | none =>
      if s.state == .precharge && 10 ≤ s.cond then some (if odU o 0x3010 4 = 0 then .syncing else .ready, 2, none)
      else if s.state == .syncing && odU o 0x3030 5 ≤ s.matchRun then some (.ready, 2, none)
      else if s.state.runs then s.due else none

/-- Condition counters at the cut-off. -/
def countConditions (o : Od) (d : Dev) : Dev :=
  let act := (allStackCells o).filter (isActive d)
  let ok := d.stack.state == .precharge && !act.isEmpty && act.all (precharged o d)
  onStack (fun s => { s with cond := if ok then s.cond + 1 else 0 }) d

/-- The guard of R313 on the candidate carrier: 1 reach and the cell, 2 window. -/
def guardBars (o : Od) (d : Dev) (c cand : Carrier) : Option (Nat × Nat) :=
  if odU o 0x3220 4 = 0 || cand.profile.isNone then none
  else
    let lo := odU o 0x3220 1
    let hi := odU o 0x3220 2
    let out (r : Nat) : Nat := if r < lo then lo - r else r - hi
    if (cand.freq < lo || hi < cand.freq) && decide (out c.ramp < out cand.ramp) then some (2, 0xFF)
    else if c.freq < cand.freq then
      let v2 := d.stack.busV / odF o 0x3030 6
      let f : Rat := (cand.freq : Rat) / 1000
      let reach (x : Nat) : Rat :=
        let g := match stackOfCell o x with | some s => groupOfStack o s | none => 0
        vdcOf o d g x * v2 / (8 * f * odF o 0x3030 7)
      match ((allStackCells o).filter (isActive d)).find? (fun x =>
        decide ((odU o 0x3220 3 : Rat) / 1000 * reach x < absQ (vget d.stack.power x))) with
      | some x => some (1, x)
      | none => none
    else none

/-- The carrier of the next period is fixed (R178, R182, R313). -/
def fixCarrier (o : Od) (runs : Bool) (d : Dev) : Dev :=
  if !runs then onTime (fun t => { t with next := none, notes := [] }) d
  else match d.time.carrier with
    | none => onTime (fun t => { t with next := some (carrierFirst o d), notes := [], want := none }) d
    | some c =>
      let (cand, notes) := carrierCandidate o d c
      match guardBars o d c cand with
      | none => onTime (fun t => { t with next := some cand, notes := notes, want := none }) d
      | some (why, cell) =>
        let (cand', notes') := carrierHold o c cand notes
        let d1 := record o 0x2011 0 ([b8 why, b8 cell, 0, 0] ++ toLE 4 c.ramp ++ toLE 4 cand.freq)
          (onStack (fun s => { s with guards := satInc s.guards }) d)
        onTime (fun t => { t with next := some cand', notes := notes', want := none, profileRun := 0xFF }) d1

/-- Build the frames of every ring with the slots planned; cells of no plan receive what their session gives. -/
def buildAll (o : Od) (k f : Nat) (plan : List SlotPlan) (park : Bool) (d : Dev) : Dev :=
  let slot (c : Nat) : CmdSlot :=
    if park && (getCell d c).state == .armed && (stackOfCell o c).isSome then { cmd := 2, freq := f }
    else match plan.find? (fun p => p.cell == c) with
      | some p => p.slot
      | none => { cmd := 0, freq := f }
  forEach (List.range 8) (fun r d => buildRing o r k slot f d) d

/-- COMMANDS (0x3030:09) follow the frames built. -/
def keepCommands (d : Dev) : Dev :=
  onStack (fun s => { s with commands := (List.range 8).foldl (fun v r =>
    match (getRing d r).build with
    | none => (List.range 16).foldl (fun v p => vset v (16 * r + p) {}) v
    | some b => (List.range 16).foldl (fun v p => vset v (16 * r + p) (b.cmds.getD p {})) v) s.commands }) d

/-- A deadline missed (R295, R329). -/
def stackMiss (o : Od) (k : Nat) (d : Dev) : Dev :=
  let n := satInc d.stack.misses
  let run := d.stack.missRun + 1
  let d1 := record o 0x2006 0 ([0, 0, 0, 0] ++ toLE 4 (pno k) ++ toLE 4 n)
    (onStack (fun s => { s with missed := true, misses := n, missRun := run }) d)
  if odU o 0x3300 0x0D ≤ run then tripCause o 8 d1 else d1

/-- Powers and shares of the frame being built (row 6 of Table 13.1): balanced while the stacks regulate, zero and equal before. -/
def balanceAll (o : Od) (k : Nat) (st : StackState) (d : Dev) : Dev :=
  if d.stack.state.regulates && st.regulates then forEach (groupNos o) (balanceGroup o k) (rowOne o d)
  else forEach (groupNos o) (fun g d => onStack (fun s => (groupLive o d g).foldl (fun s c => { s with
    power := vset s.power c 0, share := vset s.share c (1 / ((groupLive o d g).length : Rat)), qPred := vset s.qPred c 0 }) s) d) d

/-- The slots of every cell in service, with the powers and shares of the frame. -/
def planAll (o : Od) (k : Nat) (st : StackState) (f : Nat) (d : Dev) : List SlotPlan × Dev :=
  let launch := nextStart o d
  let startFrame := !d.stack.state.runs
  let first := startFrame && st.runs
  let since := if st == d.stack.state then d.stack.since else launch
  let phi := if first then 0 else phiNext o d
  let d2 := forEach (groupNos o) (interleave o first k) d
  let refs := planRefs o d2 st since
  let plans := (groupNos o).map (fun g => (groupLive o d2 g).map
    (planCell o d2 st startFrame launch phi f g (groupLive o d2 g).length (refs.getD g 0)))
  let re := if st == .running then d2.stack.reinserting.map (planReinsert o d2 launch phi f) else []
  let all := plans.flatten
  let d4 := forEach (plans.zipIdx) (fun (p, g) d => headroomLimit o k g (p.filter (·.mvClamp)).length d) d2
  let d5 := zvsCount o k (all.filter (fun p => p.slot.cmd == 1 && !p.zvs)).length d4
  let matched := st == .syncing && lineMatches o d5 since
  (all ++ re, onStack (fun s => { s with
    dabLimited := all.any (·.dabClamp), missed := false, missRun := 0
    lineMatched := matched, matchRun := if matched then s.matchRun + 1 else 0 }) d5)

/-- The slots repeated after a missed handover (R295). -/
def planRepeat (o : Od) (d : Dev) (f : Nat) : List SlotPlan :=
  let phi := phiNext o d
  ((allStackCells o).filter (isActive d)).map (fun c =>
    let s := vget d.stack.commands c
    { cell := c, slot := { s with phase := (phi + vget d.stack.offsets c) % 2 ^ 32 / 65536, freq := f } })

/-- The frame-build cut-off for the next launch (R207). -/
def frameCutoff (o : Od) (d : Dev) : Dev :=
  let k := d.sched.count
  if d.lcl.cutDone == some k then d
  else
    let d0 := { d with lcl := { d.lcl with cutDone := some k } }.fresh
    let finish (plan : List SlotPlan) (f : Nat) (d : Dev) : Dev :=
      keepCommands (onStack (fun s => { s with park := false }) (buildAll o k f plan d.stack.park d))
    let freq (e : Dev) : Nat := (e.time.next.map (·.freq)).getD (freqOf o (odU o 0x2410 1) (Config.idlePeriod d.free))
    if !d.isOn .ctrl then finish [] (freq (fixCarrier o false d0)) (fixCarrier o false d0)
    else if d.stack.state.runs && !d.stack.handed then
      let d1 := fixCarrier o true (stackMiss o k d0)
      finish (planRepeat o d1 (freq d1)) (freq d1) d1
    else
      let d1 := countConditions o d0
      let dec := decideStack o d1
      let st := match dec with | some (t, _, _) => t | none => d1.stack.state
      let d2 := match dec with
        | some (_, _, some (cause, unit)) => record o 0x2002 0 [b8 d1.stack.state.code, b8 cause, b8 unit] d1
        | _ => d1
      let d3 := onStack (fun s => { s with cmd := none, due := if s.state == .tripped then s.due else none, next := dec.map (fun q => (q.1, q.2.1)) }) d2
      let d4 := fixCarrier o st.runs (if st.runs then balanceAll o k st d3 else d3)
      if st.runs then
        let (plan, d5) := planAll o k st (freq d4) d4
        finish plan (freq d4) d5
      else finish [] (freq d4) (zvsCount o k 0 (onStack (fun s => { s with missed := false, missRun := 0, dabLimited := false, lineMatched := false, matchRun := 0 }) d4))

/-! ### The launch (R273, R331) -/

/-- STACK_STATE changes at the launch of period `k` at `t`. -/
def enterStack (o : Od) (st : StackState) (cause k t : Nat) (d : Dev) : Dev :=
  let old := d.stack.state
  if old == st then d
  else
    let started := !old.runs && st.runs
    let ended := !st.runs
    let d1 := onStack (fun s => { s with
      state := st, since := t, cond := 0, matchRun := 0
      t0 := if started then t else s.t0
      offsets := if ended then Vector.replicate 128 0 else s.offsets
      power := if ended then Vector.replicate 128 0 else s.power
      qPred := if ended then Vector.replicate 128 0 else s.qPred
      share := if ended then Vector.replicate 128 0 else s.share
      pBus := if ended then 0 else s.pBus
      groups := if ended then s.groups.map (fun g => { g with
        integ := 0, pMv := 0, lastN := none, moving := false, headroomLimited := false, limited := false }) else s.groups
      bypass := if st == .tripped then [] else s.bypass
      reinserting := if st == .running then s.reinserting else [] }) d
    record o 0x2001 0 ([b8 old.code, b8 st.code, b8 cause, 0] ++ toLE 4 (pno k)) d1

/-- The state change that a launch brings: the trip of R331, the release of R333, or what the cut-off fixed. A trip in time for the
launch wins over a start whose frame is built (R283); one too late for it is taken at the next launch. -/
def launchState (o : Od) (k t : Nat) (d : Dev) : Dev :=
  let s := d.stack
  let raised := d.prot.requesters != 0 && decide (d.prot.time + 160 ≤ t)
  let d1 := onStack (fun s => { s with next := none }) d
  if raised && (s.state.runs || s.next.any (fun n => n.1.runs)) then enterStack o .tripped 4 k t (onStack (fun s => { s with cmd := none, due := none }) d1)
  else if s.state == .tripped then
    if d.prot.requesters == 0 && s.due.isSome then enterStack o .stopped 5 k t (onStack (fun s => { s with due := none }) d1) else d1
  else match s.next with
    | some (st, cause) => enterStack o st cause k t d1
    | none => d1

/-- STACK_FLAGS (0x3010:03). -/
def stackFlags (d : Dev) : Nat :=
  let s := d.stack
  bitIf 6 s.missed + bitIf 5 s.dabLimited + bitIf 4 (s.groups.any (·.moving)) + bitIf 3 (s.groups.any (·.headroomLimited))
    + bitIf 2 s.locked + bitIf 1 s.lineMatched + bitIf 0 (s.state == .ready)

/-! ### Protection writes (R306, R324, R326, R333) -/

/-- "rlse" (R333): the causes that Table 14.2 allows clear; what remains is the answer's detail, if any. -/
def tripRelease (o : Od) (cmpOutside : Bool) (d : Dev) : Option Nat × Dev :=
  let keep (b : Nat) : Bool := match b with
    | 0 => cmpOutside
    | 3 => decide (vReq o ≠ 0 ∧ vReq o * odU o 0x3300 0x0A / 1000 ≤ linePeak o d)
    | 7 => (stackRings o).any (fun r =>
        !((List.range 2).any (fun p => (getPath d r p).state == .active)))
    | _ => false
  let was := d.prot.causes
  let left := bitsOf 9 (fun b => was.testBit b && keep b)
  let d1 := tripSet o (clrBit d.prot.requesters 4) left d
  if d1.prot.requesters = 0 then
    let d2 := record o 0x2021 0 ([0, 0] ++ toLE 2 (was - left) ++ toLE 4 d1.prot.count) d1
    (none, if d2.stack.state == .tripped then onStack (fun s => { s with due := some (.stopped, 5, none) }) d2 else d2)
  else (some (0x20070000 + ((setBits 6 d1.prot.requesters).headD 0)), d1)

/-- Why a REINSERT_CELL is refused (R326). -/
def reinsertRefusal (o : Od) (c : Nat) (d : Dev) : Option Nat :=
  let x := getCell d c
  let bad (n : Nat) : Option Nat := some (0x200A0000 + n)
  if d.stack.state != .running then bad 1
  else if x.state != .armed then bad 2
  else if (stackOfCell o c).isNone || isActive d c || d.stack.reinserting.any (fun r => r.cell == c) then bad 3
  else if x.implausible || x.txn.errant then bad 4
  else if x.faultBits != 0 then bad 5
  else if cellCap o c = 0 then bad 6
  else none

/-- Why a BYPASS_CELL is refused (R324): the session's state, or MIN_ACTIVE while the stacks run. -/
def bypassRefusal (o : Od) (c : Nat) (d : Dev) : Option Nat :=
  let x := getCell d c
  if !(6 ≤ x.state.code && x.state.code ≤ 10) then some (0x20080000 + x.state.code)
  else match stackOfCell o c with
    | some s =>
      if d.stack.state.runs && isActive d c && activeAfterBypass o d s ≤ minActive o s then some (0x20090000 + s) else none
    | none => none

/-- BYPASS owed by the host (R324, R339). -/
def hostBypass (c : Nat) (d : Dev) : Dev :=
  if d.stack.bypass.any (fun b => b.1 == c) then d
  else onStack (fun s => { s with
    bypass := s.bypass ++ [(c, 7, 0xFF)], reinserting := s.reinserting.filter (fun r => r.cell != c) }) d

/-- FIRST_FAULT is set once the window of STACK_TRIP has closed (R335). -/
def firstFault (o : Od) (d : Dev) : Dev :=
  let t := d.prot.time
  let inWindow (r : Record) : Bool := r.ev.time ≤ t && t ≤ r.ev.time + 2 * period o
  if d.prot.count = 0 || d.prot.firstFault != 0xFFFFFFFF then d
  else if d.seqr.log.any (fun r => r.ev.code == 0x2020 && r.ev.time == t) then
    let l := d.seqr.log.filter (fun r => inWindow r && (r.ev.code == 0x2020 || (0x2040 ≤ r.ev.code && r.ev.code ≤ 0x204D)))
    match l with
    | [] => d
    | r :: rest => { d with prot := { d.prot with firstFault := (rest.foldl (fun a b => if serialBefore b.seq a then b.seq else a) r.seq) } }
  else d

end Sys2Proof.Machine
end

