-- ==== Sys2Proof/Machine/AcqHand.lean ====
section
/-! DEFINITION. What the capture channels of chapter 17 take from the blocks that produce their results (R387, R388). -/
namespace Sys2Proof.Machine

def getSet (d : Dev) (a : Nat) : CaptureSet := vget d.acq.sets a
def modSet (a : Nat) (f : CaptureSet → CaptureSet) (d : Dev) : Dev := { d with acq := { d.acq with sets := vmod d.acq.sets a f } }

/-- KIND, ARG and REDUCE of channel `i` of capture set `a` (0x2710 + a:02). -/
def chanOf (o : Od) (a i : Nat) : Nat × Nat × Nat :=
  let b := odGet o (0x2710 + a) 2
  (leAt b (4 * i) 1, leAt b (4 * i + 1) 1, leAt b (4 * i + 2) 1)

/-- The stream that a capture set feeds, where one is enabled (R386, Table 17.2). -/
def setStream (o : Od) (d : Dev) (a : Nat) : Option Nat :=
  (List.range 32).find? (fun s => (vget d.acq.streams s).enabled && odU o (0x2740 + s) 2 == 0x100 + a)

/-- A result of a source is handed over to every channel that takes it. Comparator groups reduce bitwise over every state held in
the interval; all other kinds compare as INTEGER16 (R388). -/
def handTo (o : Od) (kind arg : Nat) (v : Int) (d : Dev) : Dev :=
  let put (c : ChanAcc) : ChanAcc :=
    if kind = 2 then
      let bits (f : Nat → Nat → Nat) (x : Option Int) : Option Int := some (f (x.getD c.last).toNat v.toNat : Nat)
      { last := v, lo := bits (· &&& ·) c.lo, hi := bits (· ||| ·) c.hi }
    else { last := v, lo := some (min (c.lo.getD v) v), hi := some (max (c.hi.getD v) v) }
  forEach (List.range 4) (fun a d =>
    if (setStream o d a).isNone then d
    else modSet a (fun x => { x with chans := x.chans.zipIdx.map (fun (c, i) =>
      let (k, g, _) := chanOf o a i
      if k == kind && g == arg then put c else c) }) d) d

/-- The states of a comparator group as an UNSIGNED16. -/
def cmpGroup (d : Dev) (g : Nat) : Nat := bitField d.meas.cmpOut (16 * g) 16

/-- The latest result of a channel's source (R388). -/
def latestOf (d : Dev) (kind arg : Nat) : Int :=
  match kind with
  | 1 => toSigned 16 (vget (vget d.meas.adcs (arg / 32)).entries (arg % 16)).value
  | 2 => (cmpGroup d arg : Nat)
  | 3 => (vget (vget d.engine.inst (arg / 16)).uOut (arg % 16)) / 65536
  | 4 => if arg < 12 then (vget d.meas.sensors arg).reading else (vget d.meas.dies (arg - 16)).temp
  | _ => 0

end Sys2Proof.Machine
end

