-- ==== Sys2Proof/Machine/EngineOps.lean ====
section
/-! DEFINITION. The control engine: fixed-point law, measurements, triggers, cut-offs, commands (chapter 15). -/
namespace Sys2Proof.Machine

/-- Index of instance `n`, and its dimensions (R342). -/
def ceIx (n : Nat) : Nat := 0x2810 + n
def ceN (o : Od) (n : Nat) : Nat := odU o (ceIx n) 3
def ceM (o : Od) (n : Nat) : Nat := odU o (ceIx n) 4
def ceP (o : Od) (n : Nat) : Nat := odU o (ceIx n) 5

/-- Coefficients of a bank (R342). -/
def coefCount (n m p : Nat) : Nat := n * n + 2 * n * m + 3 * n * p + m * p
def ceCoefs (o : Od) (n : Nat) : Nat := coefCount (ceN o n) (ceM o n) (ceP o n)

/-- WORST_TIME (R353): 109 ns + 1.125 ns per coefficient, rounded up. -/
def worstTime (o : Od) (n : Nat) : Nat := (872 + 9 * ceCoefs o n + 7) / 8

/-- Read and change one instance. -/
def getCe (d : Dev) (n : Nat) : CeInst := vget d.engine.inst n
def modCe (n : Nat) (f : CeInst → CeInst) (d : Dev) : Dev := { d with engine := { d.engine with inst := vmod d.engine.inst n f } }

/-- Length and default of the objects whose length follows the dimensions (R342, Table 15.4). -/
def ceArray (o : Od) (n sub : Nat) : Bytes :=
  let b := odGet o (ceIx n) sub
  let fresh (len : Nat) (dflt : Bytes) : Bytes := if b.length = len then b else dflt
  match sub with
  | 0x08 => fresh (2 * ceP o n) (List.replicate (2 * ceP o n) 0)
  | 0x09 => fresh (4 * ceP o n) ((List.replicate (ceP o n) (toLE 4 0x08000000)).flatten)
  | 0x0A => fresh (8 * ceM o n) ((List.replicate (ceM o n) (toLE 4 0x80000000 ++ toLE 4 0x7FFFFFFF)).flatten)
  | 0x0B => fresh (4 * ceM o n) (List.replicate (4 * ceM o n) 0)
  | 0x0D => fresh (4 * ceN o n) (List.replicate (4 * ceN o n) 0)
  | _ => b

/-- INTEGER32 number `i` of a byte string. -/
def i32At (b : Bytes) (i : Nat) : Int := toSigned 32 (leAt b (4 * i) 4)

/-- The signed numbers of a byte string. -/
def i32s (b : Bytes) : List Int := (List.range (b.length / 4)).map (i32At b)

/-- A list of raw values as bytes. -/
def rawBytes (l : List Int) : Bytes := l.flatMap (fun x => toLE 4 (ofSigned 32 x))

/-! ### Arithmetic (R343 to R345) -/

/-- rnd of R345: to nearest, halves away from zero. -/
def rnd (a : Int) (s : Nat) : Int :=
  if 0 ≤ a then (a + 2 ^ (s - 1)) / 2 ^ s else -((-a + 2 ^ (s - 1)) / 2 ^ s)

/-- Saturation to the raw range, and whether it acted. -/
def sat32 (x : Int) : Int × Bool := (clampI (-2147483648) 2147483647 x, decide (x < -2147483648 ∨ 2147483647 < x))

/-- A Q4.27 value in the accumulator, and a product in the accumulator (R344). -/
def accOf (x : Int) : Int := x * 128
def accMul (a b : Int) : Int := rnd (a * b) 20

/-- Write-back of an accumulator (R345). -/
def writeBack (acc : Int) : Int × Bool := sat32 (rnd acc 7)

/-- Row `i` of a matrix of `cols` columns that begins at coefficient `off`, times a vector, in the accumulator. -/
def rowDot (bank : Bytes) (off cols i : Nat) (x : List Int) : Int :=
  ((List.range cols).map (fun j => accMul (i32At bank (off + i * cols + j)) (x.getD j 0))).sum

/-- Offsets of the seven matrices in a bank, in the order of R342. -/
def offB (n _m _p : Nat) : Nat := n * n
def offG (n m _p : Nat) : Nat := n * n + n * m
def offC (n m p : Nat) : Nat := n * n + n * m + n * p
def offL (n m p : Nat) : Nat := n * n + n * m + 2 * n * p
def offK (n m p : Nat) : Nat := n * n + n * m + 3 * n * p
def offD (n m p : Nat) : Nat := n * n + 2 * n * m + 3 * n * p

/-! ### Flags and roles -/

/-- Sticky bits of FLAGS; those newly set are recorded (R346). -/
def ceFlag (o : Od) (n bits : Nat) (d : Dev) : Dev :=
  let f := (getCe d n).flags
  let after := f ||| bits
  if after = f then d
  else record o 0x2035 (0x100 + n) (toLE 2 (after - f) ++ toLE 2 after) (modCe n (fun i => { i with flags := after }) d)

/-- The instance is named in a role (R300, R354). -/
def ceRole (o : Od) (n : Nat) : Bool := odU o 0x3200 2 == n || (List.range 4).any (fun g => odU o (0x3201 + g) 1 == n)

def CeState.code : CeState → Nat
  | .disabled => 0 | .running => 1 | .predicting => 2 | .hold => 3

/-- X0, SAFE_OUT and the limits of the instance. -/
def ceX0 (o : Od) (n : Nat) : List Int := i32s (ceArray o n 0x0D)
def ceSafe (o : Od) (n i : Nat) : Int := i32At (ceArray o n 0x0B) i

/-- Kind and argument of measurement `j`. -/
def ceSource (o : Od) (n j : Nat) : Nat × Nat := let b := ceArray o n 8; (leAt b (2 * j) 1, leAt b (2 * j + 1) 1)

/-- The source of measurement `j` is valid (R347). -/
def ceSourceOk (o : Od) (n j : Nat) : Bool :=
  let (k, a) := ceSource o n j
  match k with
  | 0 => true
  | 1 => entryAssigned o a
  | 2 => true
  | 3 => a / 16 != n && decide (a % 16 < ceM o (a / 16))
  | _ => false

/-- MONITOR; a role instance has none (R354). -/
def ceMonitor (o : Od) (n : Nat) : Nat := if ceRole o n then 0 else odU o (ceIx n) 0x0E

/-! ### Banks (R342, R360) -/

/-- A bank becomes active: CE_COMMIT, and X0 where COMMIT_MODE says so. -/
def ceActivate (o : Od) (n : Nat) (bank : Bytes) (mode atPower : Nat) (d : Dev) : Dev :=
  record o 0x2034 (0x100 + n) ([b8 mode, b8 atPower, 0, 0] ++ toLE 4 (crc32c bank))
    (modCe n (fun i => { i with bank := bank, commit := none, xbar := if mode = 1 then ceX0 o n else i.xbar }) d)

/-- Why "cmit" is refused (R354, R360). -/
def ceCommitRefusal (o : Od) (n : Nat) (d : Dev) : Option Nat :=
  let b := odGet o (ceIx n) 0x13
  if ceRole o n && d.stack.state.runs && odU o (ceIx n) 0x16 == 1 then some 0x20340000
  else if b.isEmpty then some 0x20350000
  else if crc32c b != odU o (ceIx n) 0x14 then some 0x20300000
  else none

/-- "cmit" accepted (R360). -/
def ceCommit (o : Od) (n : Nat) (d : Dev) : Dev :=
  let b := odGet o (ceIx n) 0x13
  let mode := odU o (ceIx n) 0x16
  if (getCe d n).state == .disabled then ceActivate o n b mode 0 d
  else modCe n (fun i => { i with commit := some (b, mode) }) d

/-- At a power-on of CTRL every shadow bank that is whole is committed (R360). -/
def cePowerOn (o : Od) (d : Dev) : Dev :=
  forEach (List.range 16) (fun n d =>
    let b := odGet o (ceIx n) 0x13
    if b.isEmpty || crc32c b != odU o (ceIx n) 0x14 then d
    else ceActivate o n b (odU o (ceIx n) 0x16) 1 d) { d with engine := {} }

/-! ### Commands (R359, R354) -/

/-- Why a CONTROL command is refused: 0 enab, 1 disa, 2 rset, 3 rsum. -/
def ceControlRefusal (o : Od) (n cmd : Nat) (d : Dev) : Option Nat :=
  let i := getCe d n
  let st := i.state
  let wrong : Option Nat := some (0x20320000 + st.code)
  match cmd with
  | 0 =>
    if st != .disabled then wrong
    else if i.bank.isEmpty then some 0x20330000
    else match (List.range (ceP o n)).find? (fun j => !ceSourceOk o n j) with
      | some j => if ceRole o n then none else some (0x20310000 + j)
      | none => none
  | 3 => if st != .hold then wrong else none
  | _ =>
    if st == .disabled then wrong
    else if ceRole o n && d.stack.state.runs then some 0x20340000
    else none

/-- "disa": the instance is disabled at once, and SAFE_OUT is owed to the next cut-off. -/
def ceDisable (o : Od) (n : Nat) (d : Dev) : Dev :=
  let held := (getCe d n).state == .hold
  let d1 := modCe n (fun i => { i with
    state := .disabled, pending := none, sampled := false, judged := false, done := false, late := false
    predictRun := 0, safeOwed := true, commit := none }) d
  let d2 := match (getCe d n).commit with
    | some (b, mode) => ceActivate o n b mode 0 d1
    | none => d1
  if held then record o 0x2033 (0x100 + n) [2] d2 else d2

/-- "enab", "rset" and "rsum" wait for the next trigger. -/
def cePend (n : Nat) (p : CePending) (d : Dev) : Dev := modCe n (fun i => { i with pending := some p }) d

/-- "conn" loads the roles: every named instance is enabled and x̄ = X0 (R300, R354); a pending commit applies first (R361). -/
def ceConn (o : Od) (d : Dev) : Dev :=
  let named := (List.range 16).filter (fun n => ceRole o n && !((getCe d n).state == .disabled && (getCe d n).bank.isEmpty))
  forEach named (fun n d => modCe n (fun i => { i with
    xbar := ceX0 o n
    uOut := if i.state == .disabled then (Vector.range 6).map (ceSafe o n) else i.uOut
    pending := if i.commit.isSome then some .rset else i.pending
    state := if i.state == .disabled then .running else i.state
    safeOwed := false }) d) d

/-- A dimension is written: banks empty, the objects of R342 at their defaults. -/
def ceDimension (n : Nat) (d : Dev) : Dev :=
  modCe n (fun i => { i with bank := [], commit := none, pending := none, xbar := [], xhat := [], uOut := Vector.replicate 6 0, u := [], y := []
                             meas := Vector.replicate 12 {} }) d

/-! ### A sample (R347 to R358) -/

/-- Cut-off of a sample triggered at `t` (R349, R354). -/
def ceCutOf (o : Od) (n : Nat) (d : Dev) (t : Nat) : Nat :=
  if ceRole o n then nextStart o d - 2400
  else t + min (odU o (ceIx n) 7) (odU o (ceIx n) 6 * period o - 800)

/-- An ADC measurement as Q4.27: Q0.15 times its Y_GAIN (R343, R345). -/
def ceAdc (o : Od) (n j : Nat) (r : Int) : Int × Bool := sat32 (rnd (r * i32At (ceArray o n 9) j) 15)

/-- The measurements of kinds 0x00, 0x02 and 0x03 are taken at the trigger. -/
def ceTake (o : Od) (n t : Nat) (d : Dev) : Dev :=
  forEach (List.range (ceP o n)) (fun j d =>
    let (k, _) := ceSource o n j
    modCe n (fun i => { i with meas := vmod i.meas j (fun m =>
      match k with
      | 0 => { m with value := 0, fresh := true, arrived := none }
      | 1 => { m with fresh := false, arrived := none }
      | _ => match m.arrived with
        | some v => if k = 3 ∧ t ≤ m.arrivedAt then { m with fresh := false, arrived := none }
          else { m with value := v, fresh := true, arrived := none }
        | none => { m with fresh := false }) }) d) d

/-- A trigger instant that takes no measurements: what arrived before it is not fresh at a later one (R347). -/
def cePass (n : Nat) (d : Dev) : Dev :=
  modCe n (fun i => { i with meas := i.meas.map (fun m => { m with arrived := none }) }) d

/-- The ADC measurements, converted at this trigger instant (R347, R370). -/
def ceTakeAdc (o : Od) (n : Nat) (d : Dev) : Dev :=
  forEach (List.range (ceP o n)) (fun j d =>
    let (k, a) := ceSource o n j
    if k != 1 then d
    else
      let e := vget (vget d.meas.adcs (entryAdc a)).entries (entryPos a)
      if e.trig.isSome && e.trig == (getCe d n).trig then
        let (v, s) := ceAdc o n j (toSigned 16 e.value)
        let d1 := modCe n (fun i => { i with meas := vmod i.meas j (fun m => { m with value := v, fresh := true }) }) d
        if s then ceFlag o n 1 d1 else d1
      else d) d

/-- ŷ = C x̄ of the computation (R341), and whether a write-back saturated. -/
def ceYhat (o : Od) (n : Nat) (i : CeInst) : List (Int × Bool) :=
  let N := ceN o n
  let m := ceM o n
  let p := ceP o n
  (List.range p).map (fun j => writeBack (rowDot i.work (offC N m p) N j i.xbar))

/-- Measurement `j` is lost in this sample (R355). -/
def ceLost (o : Od) (n : Nat) (d : Dev) (j : Nat) : Bool :=
  let (k, a) := ceSource o n j
  let src := getCe d (a / 16)
  !(vget (getCe d n).meas j).fresh
    || (k == 3 && (src.miss || src.state == .hold || src.state == .disabled))

/-- Run of identical fresh values, and freezing over the last FROZEN_COUNT samples of it (R356). -/
def ceFreeze (o : Od) (n : Nat) (yh : List Int) (j : Nat) (m : CeMeas) : CeMeas :=
  let y := yh.getD j 0
  let count := odU o (ceIx n) 0x10
  if !m.fresh then { m with yhats := [] }
  else if m.last == some m.value then
    let ys := (y :: m.yhats).take count
    { m with
      yhats := ys
      frozen := m.frozen || (decide (count ≤ ys.length) && decide ((odU o (ceIx n) 0x11 : Int) < (y - ys.getLastD y).natAbs)) }
  else { m with last := some m.value, yhats := [], frozen := false }

/-- Judge the monitored measurements of the sample: substitution, HOLD, and the records of R357 and R358. -/
def ceJudge (o : Od) (n : Nat) (d0 : Dev) : Dev :=
  let d := ceTakeAdc o n d0
  let i := getCe d n
  let mon := ceMonitor o n
  let ys := ceYhat o n i
  let yh := ys.map (·.1)
  let monitored (j : Nat) : Bool := mon.testBit j
  let d1 := modCe n (fun i => { i with
    judged := true
    meas := (List.range (ceP o n)).foldl (fun v j => if monitored j then vmod v j (ceFreeze o n yh j) else v) i.meas }) d
  let lost := bitsOf 12 (fun j => monitored j && decide (j < ceP o n) && ceLost o n d1 j)
  let frozen := bitsOf 12 (fun j => monitored j && decide (j < ceP o n) && (vget (getCe d1 n).meas j).frozen && !lost.testBit j)
  let d2 := ceFlag o n (bitIf 4 (lost != 0) + bitIf 5 (frozen != 0)) d1
  let masks := toLE 2 lost ++ toLE 2 frozen
  if lost = 0 ∧ frozen = 0 then
    let d3 := modCe n (fun i => { i with state := .running, predictRun := 0 }) d2
    if i.predictRun = 0 then d3
    else record o 0x2032 (0x100 + n) ([0, 0] ++ masks ++ [0, 0] ++ toLE 4 i.predictRun) d3
  else
    let run := i.predictRun + 1
    if odU o (ceIx n) 0x0F < run && !i.resumed then
      record o 0x2033 (0x100 + n) ([1, 0] ++ masks) (modCe n (fun i => { i with state := .hold, sampled := false }) d2)
    else
      let d3 := modCe n (fun x => { x with
        state := if i.resumed then .running else .predicting
        predictRun := run, predicted := satInc x.predicted }) d2
      if i.predictRun = 0 then record o 0x2032 (0x100 + n) ([1, 0] ++ masks ++ [0, 0] ++ toLE 4 run) d3 else d3

/-- A measurement of the sample comes from a converter and must wait for it. -/
def ceWaitsAdc (o : Od) (n : Nat) : Bool := !ceRole o n && (List.range (ceP o n)).any (fun j => (ceSource o n j).1 == 1)

/-- A trigger instant of an instance (R349 to R352). -/
def ceTrigger (o : Od) (n : Nat) (d : Dev) : Dev :=
  let i := getCe d n
  let t := d.sched.last
  let role := ceRole o n
  if !d.isOn .ctrl || !d.sched.running || d.sched.count == 0 || i.trig == some t
    || (!role && (d.sched.count - 1) % 2 ^ 32 % odU o (ceIx n) 6 != 0) then d
  else if i.state == .disabled && i.pending.isNone then
    cePass n (modCe n (fun i => { i with trig := some t, cut := if i.safeOwed then some (ceCutOf o n d t) else none }) d)
  else
    -- commits and commands take effect at the trigger
    let d1 := match i.commit with
      | some (b, mode) => ceActivate o n b mode 0 d
      | none => d
    let d2 := match i.pending with
      | none => modCe n (fun i => { i with resumed := false }) d1
      | some p =>
        let d2 := modCe n (fun x => { x with
          pending := none, state := .running, xbar := ceX0 o n, predictRun := 0, resumed := p == .rsum
          uOut := if p == .enab then (Vector.range 6).map (ceSafe o n) else x.uOut
          safeOwed := if p == .enab then false else x.safeOwed
          sampled := if i.sampled && !i.done then false else x.sampled }) d1
        if i.state == .hold then record o 0x2033 (0x100 + n) [0] d2 else d2
    let j := getCe d2 n
    if j.state == .hold then cePass n (modCe n (fun i => { i with trig := some t, cut := some (ceCutOf o n d t) }) d2)
    else if j.sampled && !j.done then
      -- the previous computation has not finished: the trigger is skipped
      let run := j.skipRun + 1
      let d3 := ceFlag o n 0x80 (cePass n (modCe n (fun i => { i with trig := some t, skipRun := run, skipped := satInc i.skipped }) d2))
      if run = 1 then record o 0x2031 (0x100 + n) ([1, 0, 0, 0] ++ toLE 4 1) d3 else d3
    else
      let d3 := ceTake o n t (modCe n (fun i => { i with
        trig := some t, cut := some (ceCutOf o n d t), sampled := true, judged := false, done := false, late := false
        work := i.bank, skipRun := 0, roleReady := false }) d2)
      let d4 := if j.skipRun = 0 then d3 else record o 0x2031 (0x100 + n) ([0, 0, 0, 0] ++ toLE 4 j.skipRun) d3
      if ceWaitsAdc o n || role then d4 else ceJudge o n d4

/-- x̄ after the cut-off: the prediction with the output in force (R341, R348). -/
def cePredict (o : Od) (n : Nat) (d : Dev) : Dev :=
  let i := getCe d n
  let N := ceN o n
  let m := ceM o n
  let p := ceP o n
  let aw := if i.clampHit then odU o (ceIx n) 0x12 else 0
  let ua := (List.range m).map (fun k => vget i.uOut k)
  let rows := (List.range N).map (fun r =>
    if aw.testBit r then (i.xhat.getD r 0, false)
    else writeBack (rowDot i.work 0 N r i.xhat + rowDot i.work (offB N m p) m r ua + rowDot i.work (offG N m p) p r i.y))
  let d1 := modCe n (fun i => { i with xbar := rows.map (·.1), sampled := false, late := false }) d
  if rows.any (·.2) then ceFlag o n 2 d1 else d1

/-- The law of R341 up to u. -/
def ceLaw (o : Od) (n : Nat) (d : Dev) : Dev :=
  let i := getCe d n
  let N := ceN o n
  let m := ceM o n
  let p := ceP o n
  let ys := ceYhat o n i
  let mon := ceMonitor o n
  let sub (j : Nat) : Bool := mon.testBit j && (ceLost o n d j || (vget i.meas j).frozen)
  let y := (List.range p).map (fun j =>
    if ceRole o n then i.role.getD j 0 else if sub j then (ys.getD j (0, false)).1 else (vget i.meas j).value)
  let e := (List.range p).map (fun j => writeBack (accOf (y.getD j 0) - accOf (ys.getD j (0, false)).1))
  let ev := e.map (·.1)
  let xh := (List.range N).map (fun r => writeBack (accOf (i.xbar.getD r 0) + rowDot i.work (offL N m p) p r ev))
  let xv := xh.map (·.1)
  let v := (List.range m).map (fun r => writeBack (rowDot i.work (offK N m p) N r xv + rowDot i.work (offD N m p) p r y))
  let lim := ceArray o n 0x0A
  let u := v.zipIdx.map (fun (x, k) => clampI (i32At lim (2 * k)) (i32At lim (2 * k + 1)) x.1)
  let clamp := v.zipIdx.any (fun (x, k) => decide (u.getD k 0 ≠ x.1))
  let bits := bitIf 0 (ys.any (·.2) || e.any (·.2)) + bitIf 1 (xh.any (·.2)) + bitIf 2 (v.any (·.2)) + bitIf 3 clamp
  ceFlag o n bits (modCe n (fun i => { i with y := y, xhat := xv, u := u, clampHit := clamp, done := true }) d)

/-- The engine completes the computation of an instance (R350, R351). -/
def ceComputeDone (o : Od) (n : Nat) (d : Dev) : Dev :=
  let i := getCe d n
  if !d.isOn .ctrl || !i.sampled || i.done || (ceRole o n && !i.roleReady) then d
  else
    let d1 := if i.judged || ceRole o n then d else ceJudge o n d
    if !(getCe d1 n).sampled then d1
    else
      let d2 := ceLaw o n d1
      if (getCe d2 n).late then cePredict o n d2 else d2

/-- An output is handed over at the cut-off `t`: it reaches the instances that measure it (R347, kind 0x03). -/
def ceHandOver (o : Od) (n t : Nat) (u : List Int) (d : Dev) : Dev :=
  let d0 := modCe n (fun i => { i with uOut := u.zipIdx.foldl (fun v (x, k) => vset v k x) i.uOut }) d
  let d1 := forEach u.zipIdx (fun (x, k) d => handTo o 3 (16 * n + k) (x / 65536) d) d0
  forEach (List.range 16) (fun q d => forEach (List.range (ceP o q)) (fun j d =>
    let (k, a) := ceSource o q j
    if k = 3 ∧ a / 16 = n ∧ a % 16 < u.length ∧ (getCe d q).trig ≠ some t then
      modCe q (fun i => { i with meas := vmod i.meas j (fun m => { m with arrived := some (u.getD (a % 16) 0), arrivedAt := t }) }) d
    else d) d) d1

/-- Whether the stack controller feeds a role instance in the stack's state: row 1 of Table 13.1 runs from PRECHARGE on, rows 3 to
5 in RUNNING and STOPPING only (R298). -/
def ceFed (o : Od) (n : Nat) (d : Dev) : Bool :=
  if odU o 0x3200 2 == n then d.stack.state.runs else d.stack.state.regulates

/-- The cut-off of an instance arrives (R349, R351, R358, R359). -/
def ceCutoff (o : Od) (n : Nat) (d : Dev) : Dev :=
  let i := getCe d n
  match i.cut with
  | none => d
  | some t =>
    if d.clk.dt < t then d
    else
      let m := ceM o n
      let d1 := modCe n (fun i => { i with cut := none }) d
      if i.safeOwed then
        ceHandOver o n t ((List.range m).map (ceSafe o n)) (modCe n (fun i => { i with safeOwed := false, miss := false }) d1)
      else if i.state == .hold then
        let ramp : Int := odU o (ceIx n) 0x0C
        let u := (List.range m).map (fun k =>
          let x := vget i.uOut k
          let s := ceSafe o n k
          x + clampI (-ramp) ramp (s - x))
        ceHandOver o n t u (modCe n (fun i => { i with miss := false }) d1)
      else if !i.sampled then d1
      else if i.done then
        let d2 := cePredict o n (ceHandOver o n t i.u (modCe n (fun i => { i with miss := false, missRun := 0 }) d1))
        if i.missRun = 0 then d2
        else record o 0x2030 (0x100 + n) ([0, b8 i.state.code, 0, 0] ++ toLE 4 i.missRun ++ toLE 8 t) d2
      else if ceRole o n && !i.roleReady && !ceFed o n d then modCe n (fun i => { i with sampled := false }) d1
      else
        let run := i.missRun + 1
        let idle := ceRole o n && !i.roleReady
        let d2 := modCe n (fun i => { i with
          miss := true, missRun := run, misses := satInc i.misses, late := !idle, sampled := !idle }) d1
        let d3 := ceFlag o n 0x40 { d2 with engine := { d2.engine with missTotal := satInc d2.engine.missTotal } }
        if run = 1 then record o 0x2030 (0x100 + n) ([1, b8 i.state.code, 0, 0] ++ toLE 4 1 ++ toLE 8 t) d3 else d3

/-- Y_HOST_j written (R347, kind 0x02). -/
def ceHostMeas (n j : Nat) (v : Int) (d : Dev) : Dev :=
  modCe n (fun i => { i with meas := vmod i.meas j (fun m => { m with arrived := some v }) }) d

/-- STATUS (:02). -/
def ceStatus (o : Od) (n : Nat) (d : Dev) : Nat :=
  let i := getCe d n
  bitIf 7 (ceRole o n) + bitIf 6 i.commit.isSome + bitIf 4 i.miss + i.state.code

end Sys2Proof.Machine
end

