-- ==== Sys2Proof/Machine/LedgerOps.lean ====
section
/-! DEFINITION. The Rowan ledger over periods: posting, resume, checkpoints, resets (R73 to R78, R307, R320). -/
namespace Sys2Proof.Machine

/-- Change of the ledger. -/
def onLedger (f : Ledger → Ledger) (d : Dev) : Dev := { d with ledger := f d.ledger }

/-- RTC counts as whole ticks. -/
def rtcTicks (n : Nat) : Nat := n * 800000000 / 32768

/-- The length of the interval since the last period processed, where one can be told (R76). -/
def awayLength (d : Dev) (t : Nat) : Option Nat :=
  let l := d.ledger
  if l.lastDtBreaks = d.clk.dtBreaks then some (t - l.last)
  else if l.lastRtcBreaks = d.clk.rtcBreaks ∧ d.clk.rtcXtal = true then some (rtcTicks (d.clk.rtc - l.lastRtc % 2 ^ 62))
  else none

/-- LEDGER_BREACH (R76): 1 unknown length, 2 no valid checkpoint slot. -/
def ledgerBreach (o : Od) (src sel cause : Nat) (d : Dev) : Dev :=
  record o 0x0514 src (toLE 2 sel ++ [b8 cause])
    (breachConservation { d with breach := { d.breach with ledger := satInc d.breach.ledger } })

/-- TIME of the interval since the last period processed, which is its start (R74): in device time where the timebase ran throughout,
else the RTC stamp of that period's end (log entry 200). -/
def awayStart (d : Dev) : Nat :=
  if d.ledger.lastDtBreaks = d.clk.dtBreaks then d.ledger.last else d.ledger.lastRtc

/-- Cause of that interval in an account (R74): the bus account without a channel keeps its own. -/
def awayCause (o : Od) (cause i : Nat) : Nat := if cause = 1 ∧ i = 132 ∧ odU o 0x3200 7 = 0xFF then 4 else cause

/-- The first period after a time away, begun at `t`: one interval per account (R75, R76, R78). OPENED and LAST_CHECKPOINT are
re-expressed wherever the timebase did not run throughout, in a time base that goes on too (log entry 192). -/
def ledgerAway (o : Od) (cause t : Nat) (d : Dev) : Dev :=
  let len := awayLength d t
  let start := awayStart d
  let g := len.getD 0
  let shift (x : Nat) : Nat :=
    if d.ledger.lastDtBreaks = d.clk.dtBreaks then x else (x + t + 2 ^ 64 - (g + d.ledger.last) % 2 ^ 64) % 2 ^ 64
  let d1 := onLedger (fun l => { l with
    accounts := l.accounts.map (fun a => { a with opened := shift a.opened })
    lastCheckpoint := shift l.lastCheckpoint }) d
  forEach (List.range 133) (fun i d =>
    let d2 := gapEnd o i d
    let a := vget d2.ledger.accounts i
    match len with
    | some n =>
      gapEvent o i start (awayCause o cause i) n (setAccount i { a with
        unaccounted := a.unaccounted + n, intervals := satInc a.intervals, recent := (false :: a.recent).take 255 } d2)
    | none =>
      ledgerBreach o (accountSrc i) (accountSel i) 1 (gapEvent o i start (awayCause o cause i) (2 ^ 64 - 1) (setAccount i { a with
        unknown := true, intervals := satInc a.intervals, recent := (false :: a.recent).take 255 } d2))) d1

/-- What a cell's mark says of its period (R73, R74, Table 13.3). A cell without a mark sent no valid telemetry. -/
def postCell (o : Od) (t len c : Nat) (d : Dev) : Dev :=
  match (getCell d c).mark with
  | some (.counted a b) => ledgerCount o c a b len d
  | some (.unaccounted cause) => ledgerMiss o c cause (t - len) len d
  | none => ledgerMiss o c 1 (t - len) len d

/-- A stack account is the sum of its cells' counted charges, and is counted when every cell of it is. DESIGN CHOICE: the account of a
stack that has no cells is unaccounted with cause 0x01 (log entry 193). -/
def postStack (o : Od) (t len s : Nat) (d : Dev) : Dev :=
  let cells := if s < stackCount o ∧ arrCode o ≠ 0 then stackCells o s else []
  let q (c : Nat) : Option (Nat × Nat) := match (getCell d c).mark with
    | some (.counted a b) => some (a, b)
    | _ => none
  let a := (cells.map (fun c => ((q c).map (·.1)).getD 0)).sum
  let b := (cells.map (fun c => ((q c).map (·.2)).getD 0)).sum
  let cause := (cells.findSome? (fun c => match (getCell d c).mark with
    | some (.counted _ _) => none
    | some (.unaccounted k) => some k
    | none => some 1)).getD 1
  if !cells.isEmpty && cells.all (fun c => (q c).isSome) then ledgerCount o (128 + s) a b len d
  else
    let d1 := ledgerMiss o (128 + s) cause (t - len) len d
    let x := vget d1.ledger.accounts (128 + s)
    setAccount (128 + s) { x with qIn := x.qIn + a, qOut := x.qOut + b } d1

/-- The bus account of a period (R307). -/
def postBus (o : Od) (t len : Nat) (d : Dev) : Dev :=
  if odU o 0x3200 7 = 0xFF then ledgerMiss o 132 4 (t - len) len (onLedger (fun l => { l with busIn := 0, busOut := 0, busAt := none }) d)
  else
    let a := ⌊d.ledger.busIn⌋.toNat
    let b := ⌊d.ledger.busOut⌋.toNat
    ledgerCount o 132 a b len (onLedger (fun l => { l with busIn := l.busIn - a, busOut := l.busOut - b }) d)

/-- A sample of the bus current, weighted by the time since the one before (R307). -/
def busSample (o : Od) (time : Nat) (d : Dev) : Dev :=
  let i := scaled o d (odU o 0x3200 7) 0x3200 8
  match d.ledger.busAt with
  | none => onLedger (fun l => { l with busAt := some time }) d
  | some t =>
    let q := i * ((time - t : Nat) : Rat) / 800
    onLedger (fun l => { l with
      busAt := some time
      busIn := if 0 < q then l.busIn + q else l.busIn
      busOut := if q < 0 then l.busOut - q else l.busOut }) d

/-- The ledger processes the period that ends at the period start `t` (R73 to R75). -/
def ledgerPeriod (o : Od) (t : Nat) (d : Dev) : Dev :=
  if !d.isOn .ctrl then d
  else
    let d1 := match d.ledger.resume with
      | .fresh => onLedger (fun l => { l with accounts := l.accounts.map (fun a => { a with opened := t }), timer := t }) d
      | .away cause => ledgerAway o cause t (onLedger (fun l => { l with timer := t }) d)
      | .no =>
        let len := t - d.ledger.last
        let d1 := forEach (List.range 128) (postCell o t len) d
        postBus o t len (forEach (List.range 4) (postStack o t len) d1)
    let d2 := onLedger (fun l => { l with
      last := t, lastRtc := d.clk.rtcStamp, lastRtcBreaks := d.clk.rtcBreaks, lastDtBreaks := d.clk.dtBreaks, resume := .no }) d1
    { d2 with lcl := { d2.lcl with cells := d2.lcl.cells.map (fun c => { c with mark := none }) } }

/-- LEDGER_UNACCOUNTED at a whole second of an open interval (R74). -/
def ledgerSecond (o : Od) (i : Nat) (d : Dev) : Dev :=
  let a := vget d.ledger.accounts i
  match a.gap with
  | none => d
  | some (start, cause, len, secs) =>
    if !d.isOn .ctrl || len < secT (secs + 1) then d
    else gapEvent o i start cause (secT (secs + 1)) (setAccount i { a with
      gap := some (start, cause, len, secs + 1), intervals := if secs = 0 then satInc a.intervals else a.intervals } d)

/-! ### Checkpoints (R75) -/

/-- The valid slot with the highest store counter. -/
def currentSlot (d : Dev) : Option Nat :=
  (List.range 16).foldl (fun best i =>
    let c := vget d.mram i
    if !c.valid then best
    else match best with
      | none => some i
      | some j => if (vget d.mram j).counter < c.counter then some i else some j) none

/-- The checkpoint of the accounts at the last period end, and the slot it goes to. -/
def checkpointNow (d : Dev) : Checkpoint × Nat :=
  let l := d.ledger
  let (n, slot) := match currentSlot d with
    | some i => ((vget d.mram i).counter + 1, (i + 1) % 16)
    | none => (0, 0)
  ({ counter := n, valid := true, periodEnd := l.last, rtc := l.lastRtc, rtcBreaks := l.lastRtcBreaks, dtBreaks := l.lastDtBreaks
     accounts := l.accounts }, slot)

/-- A checkpoint starts, unless one is being written or the ledger has processed no period yet. -/
def checkpointStart (d : Dev) : Dev :=
  if d.ledger.writing.isSome || d.ledger.resume != .no then d
  else
    let (c, slot) := checkpointNow d
    -- the slot being written is not valid until the write is complete
    onLedger (fun l => { l with writing := some (c, slot) }) { d with mram := vmod d.mram slot (fun x => { x with valid := false }) }

/-- A checkpoint is complete: its slot becomes the current one. -/
def checkpointDone (d : Dev) : Dev :=
  match d.ledger.writing with
  | none => d
  | some (c, slot) =>
    onLedger (fun l => { l with writing := none, lastCheckpoint := c.periodEnd }) { d with mram := vset d.mram slot c }

/-- CHECKPOINT_INTERVAL has passed. -/
def checkpointInterval (o : Od) (d : Dev) : Dev :=
  if !d.isOn .ctrl || d.clk.dt < d.ledger.timer + secT (odU o 0x2540 1) || d.ledger.resume != .no then d
  else checkpointStart (onLedger (fun l => { l with timer := d.clk.dt }) d)

/-- CTRL comes on from OFF: the ledger loads the current checkpoint (R75, R76). -/
def ledgerPowerOn (o : Od) (d : Dev) : Dev :=
  match currentSlot d with
  | some i =>
    let c := vget d.mram i
    { d with ledger := {
      accounts := c.accounts, last := c.periodEnd, lastRtc := c.rtc, lastRtcBreaks := c.rtcBreaks, lastDtBreaks := c.dtBreaks
      resume := .away 3, lastCheckpoint := c.periodEnd } }
  | none => ledgerBreach o 0 0xFFFF 2 { d with ledger := { resume := .fresh } }

/-- CTRL leaves ON by request: a checkpoint is written first (R75); a loss abandons one in progress (Table 3.2). -/
def ledgerLeaves (d : Dev) : Dev := checkpointDone (checkpointStart (checkpointDone d))

/-- ACCOUNT_RESET (R77). -/
def accountReset (o : Od) (sel : Nat) (d : Dev) : Dev :=
  match accountIx sel with
  | none => d
  | some i =>
    let d1 := gapEnd o i d
    let a := vget d1.ledger.accounts i
    setAccount i { opened := d1.ledger.last } (record o 0x0521 (accountSrc i) (toLE 8 a.qIn ++ toLE 8 a.qOut) d1)

/-- The 48-byte record of Table 3.6. -/
def accountBytes (a : Account) : Bytes :=
  toLE 8 a.qIn ++ toLE 8 a.qOut ++ toLE 8 a.counted ++ toLE 8 a.unaccounted ++ toLE 4 a.intervals ++ toLE 4 (bitIf 0 a.unknown) ++ toLE 8 a.opened

/-- The timebase stops: held events are released, and the periods until it runs again are one interval of the ledger (R68, R76, R78). -/
def timebaseStops (o : Od) (d : Dev) : Dev :=
  releaseAll o { d with
    clk := { d.clk with counting := false, dtBreaks := d.clk.dtBreaks + 1 }
    sched := { d.sched with running := false }
    ledger := { d.ledger with resume := if d.ledger.resume == .no then .away 1 else d.ledger.resume } }

end Sys2Proof.Machine
end

