-- ==== Sys2Proof/Machine/MeasOps.lean ====
section
/-! DEFINITION. Converters, comparators and temperature sensors (chapter 16). -/
namespace Sys2Proof.Machine

def getAdc (d : Dev) (n : Nat) : Adc := vget d.meas.adcs n
def modAdc (n : Nat) (f : Adc → Adc) (d : Dev) : Dev := { d with meas := { d.meas with adcs := vmod d.meas.adcs n f } }
def adcIx (n : Nat) : Nat := 0x2601 + n

/-! ### Sequences (R363 to R370) -/

/-- Sequence of a converter: input, gain code, samples, shift, tracking time per entry (Table 16.2). -/
structure SeqEntry where
  input : Nat
  gain : Nat
  samples : Nat
  shift : Nat
  track : Nat

def SeqEntry.of (b : Bytes) (e : Nat) : SeqEntry :=
  { input := leAt b (8 * e) 1, gain := leAt b (8 * e + 1) 1, samples := leAt b (8 * e + 2) 1 + 1
    shift := leAt b (8 * e + 3) 1, track := leAt b (8 * e + 4) 2 }

def seqBytes (o : Od) (n : Nat) : Bytes := odGet o (adcIx n) 8
def seqLen (o : Od) (n : Nat) : Nat := (seqBytes o n).length / 8
def seqEntry (o : Od) (n e : Nat) : SeqEntry := SeqEntry.of (seqBytes o n) e

/-- An entry of a SEQUENCE write is legal in the converter's power mode (Tables 16.1 and 16.2). -/
def seqEntryOk (low : Bool) (b : Bytes) (e : Nat) : Bool :=
  let s := SeqEntry.of b e
  let internal := s.input == 0x0C || s.input == 0x0D || s.input == 0x0E
  (s.input ≤ 4 || s.input == 8 || s.input == 9 || internal) && s.gain ≤ 4 && (!internal || s.gain == 0) && s.shift ≤ 8
    && (if low then 400 else 40) ≤ s.track && s.track ≤ 10240 && leAt b (8 * e + 6) 2 == 0

/-- T_CONV (R366). -/
def tConv (o : Od) (n : Nat) : Nat := if odU o (adcIx n) 6 = 1 then 1200 else 120

/-- Ticks from the first hold of a sequence to the first hold of entry `e`. -/
def holdOf (o : Od) (n : Nat) : Nat → Nat
  | 0 => 0
  | e + 1 =>
    let s := seqEntry o n e
    holdOf o n e + (s.samples - 1) * (tConv o n + s.track) + tConv o n + (seqEntry o n (e + 1)).track

/-- Ticks from the first hold to the handover of entry `e` (R370). -/
def resultOf (o : Od) (n e : Nat) : Nat :=
  let s := seqEntry o n e
  holdOf o n e + (s.samples - 1) * (tConv o n + s.track) + tConv o n

/-- Calibration factors are valid (R374). -/
def CalState.valid : CalState → Bool
  | .calibrated => true
  | .persisted => true
  | _ => false

/-- A converter can convert (R371). -/
def canConvert (d : Dev) (n : Nat) : Bool := d.isOn .meas && d.clk.counting && (getAdc d n).cal.valid

def adcEnabled (o : Od) (n : Nat) : Bool := odU o (adcIx n) 1 == 1
def adcTrigger (o : Od) (n : Nat) : Nat := odU o (adcIx n) 2
def adcArg (o : Od) (n : Nat) : Nat := odU o (adcIx n) 3

/-- The trigger instant that has arrived, where there is one not yet taken (Table 16.3). -/
def triggerInstant (o : Od) (n : Nat) (d : Dev) : Option Nat :=
  let a := getAdc d n
  let new (t : Nat) : Option Nat := match a.lastTrig with
    | some l => if l < t && t ≤ d.clk.dt then some t else none
    | none => if t ≤ d.clk.dt then some t else none
  match adcTrigger o n with
  | 1 =>
    if d.sched.count = 0 || (d.sched.count - 1) % 2 ^ 32 % (max (adcArg o n) 1) != 0 then none else new d.sched.last
  | 2 =>
    let c := adcArg o n
    let p := vget d.pwm.pairs (c / 2)
    let pt := odU o (0x4020 + c) 5
    if c < 40 ∧ p.active = true ∧ pt < p.force.period then new (p.start + pt) else none
  | 3 =>
    let base := d.sched.last + odU o (adcIx n) 5
    let per := odU o (adcIx n) 4
    if d.sched.count = 0 || d.clk.dt < base || per = 0 then none
    else
      let t := base + (d.clk.dt - base) / per * per
      if t < nextStart o d then new t else none
  | 4 => match a.run, a.completion with
    | some _, _ => none
    | none, none => some d.clk.dt
    | none, some c => some ((new c).getD d.clk.dt)
  | 6 => match (getAdc d (adcArg o n)).completion with
    | none => none
    | some c => new c
  | _ => none

/-- A trigger at instant `t`: taken, or skipped as an overrun (R366, R369). -/
def triggerAt (o : Od) (n t : Nat) (d : Dev) : Dev :=
  let a := getAdc d n
  if a.run.isSome then
    let run := a.skipRun + 1
    let d1 := modAdc n (fun a => { a with
      lastTrig := some t, skipRun := run, overruns := satInc a.overruns, flags := setBit a.flags 0 }) d
    if run = 1 then record o 0x6002 (0x10 + n) ([1, 0, 0, 0] ++ toLE 4 1) d1 else d1
  else
    let track := (seqEntry o n 0).track
    let hold := if adcTrigger o n = 5 then t + Config.hostHold d.free % 1601 else if adcTrigger o n = 4 then t + track else t
    let late := match a.completion with
      | some c => decide (t < c + track)
      | none => false
    let first := match a.completion with
      | some c => max hold (c + track)
      | none => hold
    let quiet := adcTrigger o n == 4 || adcTrigger o n == 6
    let d1 := modAdc n (fun a => { a with
      lastTrig := some t, skipRun := 0, run := some { trig := t, first := first }
      flags := if late && !quiet then setBit a.flags 1 else a.flags }) d.fresh
    if a.skipRun = 0 then d1 else record o 0x6002 (0x10 + n) ([0, 0, 0, 0] ++ toLE 4 a.skipRun) d1

/-- A trigger instant of a converter (R368). An enabled converter that cannot convert takes none (R371). -/
def adcTriggered (o : Od) (n : Nat) (d : Dev) : Dev :=
  if !adcEnabled o n || !canConvert d n then d
  else match triggerInstant o n d with
    | none => d
    | some t => triggerAt o n t d

/-- One raw sample corrected, before it is saturated (R374). -/
def corrected (o : Od) (n gain : Nat) (r : Int) : Int :=
  let off := toSigned 16 (leAt (odGet o (0x2620 + n) 2) (2 * gain) 2)
  let k : Int := leAt (odGet o (0x2620 + n) 3) (2 * gain) 2
  rnd ((r - off) * k) 15

/-- One raw sample corrected (R374). -/
def correct (o : Od) (n gain : Nat) (r : Int) : Int := clampI (-32768) 32767 (corrected o n gain r)

/-- What an entry's result is handed to, besides those who read it when they run (R370). -/
def resultConsumers (o : Od) (n e : Nat) (time : Nat) (d : Dev) : Dev :=
  let me (x : Nat) : Bool := entrySet x && entryAdc x == n && entryPos x == e
  let d1 := if me (odU o 0x3200 7) && d.isOn .ctrl then busSample o time d else d
  let d2 := if me (odU o 0x4610 1) && d.isOn .drv then ladderResult o d1 else d1
  let leg (l : Nat) (d : Dev) : Dev :=
    if me (odU o 0x4600 (3 + l)) && d.isOn .drv && d.ladder.enabled then mechEvaluate o (legSample o l d) else d
  handTo o 1 (32 * n + e) (latestOf d2 1 (32 * n + e)) (leg 1 (leg 0 d2))

/-- The result of the next entry is complete: its raw samples (R367, R370). -/
def entryResult (o : Od) (n : Nat) (samples : List Int) (d : Dev) : Dev :=
  match (getAdc d n).run with
  | none => d
  | some r =>
    let s := seqEntry o n r.entry
    if !adcEnabled o n || !canConvert d n || samples.length != s.samples || d.clk.dt < r.first + resultOf o n r.entry then d
    else
      let sum := ((samples.map (correct o n s.gain)).sum) / (2 ^ s.shift : Int)
      let v := clampI (-32768) 32767 sum
      let time := r.first + holdOf o n r.entry
      let last := r.entry + 1 = seqLen o n
      let d1 := modAdc n (fun a => { a with
        entries := vset a.entries r.entry { value := ofSigned 16 v, time := time, trig := some r.trig }
        flags := if v != sum || samples.any (fun r => corrected o n s.gain r != correct o n s.gain r) then setBit a.flags 2 else a.flags
        run := if last then none else some { r with entry := r.entry + 1 }
        completion := if last then some (r.first + resultOf o n r.entry) else a.completion
        seqCount := if last then wrapInc a.seqCount else a.seqCount
        seqTime := if last then r.first else a.seqTime
        times := if last then (List.range (seqLen o n)).map (holdOf o n) else a.times }) d
      resultConsumers o n r.entry time d1

/-! ### Enabling (R371) -/

/-- A chain of CHAIN arguments leads back to the converter. -/
def chainCycle (o : Od) (n : Nat) : Bool :=
  let next (x : Option Nat) : Option Nat := x.bind (fun i => if i < 8 ∧ adcTrigger o i = 6 then some (adcArg o i) else none)
  let rec walk : Nat → Option Nat → Bool
    | 0, _ => false
    | k + 1, x => let y := next x; y == some n || walk k y
  walk 8 (some n)

/-- Why ENABLE 0x01 is refused. -/
def adcEnableRefusal (o : Od) (d : Dev) (n : Nat) : Option Nat :=
  let arg := adcArg o n
  let argBad := match adcTrigger o n with
    | 1 => arg < 1
    | 2 => 39 < arg
    | 6 => 7 < arg
    | _ => false
  if !(getAdc d n).cal.valid || seqLen o n == 0 || chainCycle o n || argBad then some (0x60050000 + n) else none

/-- An entry of the converter is in use (R371). -/
def adcInUse (o : Od) (d : Dev) (n : Nat) : Bool :=
  let mine (e : Nat) : Bool := entrySet e && entryAdc e == n
  let stack := d.stack.state.runs && ([odU o 0x3020 1, odU o 0x3020 2, odU o 0x3020 4, odU o 0x3200 7]
    ++ (List.range 4).map (fun g => odU o (0x3201 + g) 2)).any mine
  let engine := (List.range 16).any (fun i => (getCe d i).state != .disabled
    && (List.range (ceP o i)).any (fun j => let (k, a) := ceSource o i j; k == 1 && mine a))
  let axes := (List.range 6).any (fun k => axisOn (vget d.axes k) && ([5, 6, 7].map (fun s => odU o (axisIx k) s)).any mine)
  let chop := (ladderRuns d && mine (odU o 0x4610 1)) || (d.ladder.enabled && (mine (odU o 0x4600 3) || mine (odU o 0x4600 4)))
  stack || engine || axes || chop

/-- Why SW_TRIGGER is refused. -/
def swTriggerRefusal (o : Od) (d : Dev) (n : Nat) : Option Nat :=
  if adcTrigger o n != 5 || !adcEnabled o n || !canConvert d n || (getAdc d n).run.isSome then some (0x60030000 + n) else none

/-- ENABLE changes: a converter disabled abandons its sequence; one enabled tracks afresh. -/
def adcEnableWrite (n : Nat) (on : Bool) (d : Dev) : Dev :=
  modAdc n (fun a => if on then { a with run := none, completion := none, lastTrig := some (d.clk.dt - 1) } else { a with run := none, skipRun := 0 }) d

/-! ### Calibration (R373, R374, R121) -/

/-- Why CAL_START is refused. -/
def calRefusal (o : Od) (d : Dev) (mask : Nat) : Option Nat :=
  if !d.time.tb.declared then some 0x60060000
  else match (setBits 8 mask).find? (fun n => adcEnabled o n || (getAdc d n).cal == .calibrating) with
    | some n => some (0x60010000 + n)
    | none => none

/-- Self-calibration of the converters of a mask starts. -/
def calStart (boot : Bool) (mask : Nat) (d : Dev) : Dev :=
  forEach (setBits 8 mask) (fun n d => modAdc n (fun a => { a with cal := .calibrating, calFrom := d.clk.dt, run := none }) d)
    { d with meas := { d.meas with calBoot := boot } }


/-- R374: every factor in its range. -/
def factorsOk (f : CalFactors) : Bool :=
  f.offsets.length == 5 && f.gains.length == 5 && f.offsets.all (fun x => decide (-512 ≤ x ∧ x ≤ 512))
    && f.gains.all (fun k => decide (31130 ≤ k ∧ k ≤ 34406))

/-- Converters whose calibration has run its 12 ms. -/
def calDue (d : Dev) : List Nat :=
  (List.range 8).filter (fun n => (getAdc d n).cal == .calibrating && decide ((getAdc d n).calFrom + msT 12 ≤ d.clk.dt))

/-- The calibrations that are due end: states and ADC_CAL_DONE. `ok n` says whether the factors of converter `n` are in range. -/
def calEnd (o : Od) (ok : Nat → Bool) (d : Dev) : Dev :=
  let due := calDue d
  if due.isEmpty || !d.isOn .meas then d
  else
    let good := maskOf' (due.filter ok)
    let bad := maskOf' (due.filter (fun n => !ok n))
    let d1 := forEach due (fun n d => modAdc n (fun a => { a with cal := if ok n then .calibrated else .failed }) d) d
    record o 0x6001 0x10 [b8 good, b8 bad, if d.meas.calBoot then 1 else 0, 0] { d1 with meas := { d1.meas with calBoot := false } }
where
  maskOf' (l : List Nat) : Nat := l.foldl (fun m n => m ||| 2 ^ n) 0

/-- The factors that an ended calibration replaces. -/
def calFactors (d : Dev) (fs : List CalFactors) (o : Od) : Od :=
  if !d.isOn .meas then o
  else (calDue d).foldl (fun o n =>
    let f := fs.getD n { offsets := [], gains := [] }
    if factorsOk f then odSet (odSet o (0x2620 + n) 2 (f.offsets.flatMap (fun x => toLE 2 (ofSigned 16 x)))) (0x2620 + n) 3
      (f.gains.flatMap (toLE 2)) else o) o

/-- The persisted factors of a converter are in range (R374). -/
def factorsInRange (o : Od) (n : Nat) : Bool :=
  factorsOk {
    offsets := (List.range 5).map (fun g => toSigned 16 (leAt (odGet o (0x2620 + n) 2) (2 * g) 2))
    gains := (List.range 5).map (fun g => leAt (odGet o (0x2620 + n) 3) (2 * g) 2) }

/-! ### Comparators (R375 to R378) -/

def cmpMode (o : Od) (n : Nat) : Nat := odU o (0x2630 + n) 2

/-- The output of a comparator becomes `outside`: Pronghorn, the stack trip, CMP_WINDOW (R378). -/
def cmpSet (o : Od) (n : Nat) (outside : Bool) (d : Dev) : Dev :=
  if d.meas.cmpOut.testBit n == outside then d
  else
    let d0 := { d with meas := { d.meas with cmpOut := if outside then setBit d.meas.cmpOut n else clrBit d.meas.cmpOut n } }
    let d1 := handTo o 2 (n / 16) (cmpGroup d0 (n / 16) : Nat) d0
    let d2 := pronghorn o (if outside && (odU o 0x3300 7).testBit n then tripCause o 0 d1 else d1)
    if !(odU o 0x2650 2).testBit n then d2
    else
      let c := vget d.meas.cmps n
      let modC (f : Cmp → Cmp) (d : Dev) : Dev := { d with meas := { d.meas with cmps := vmod d.meas.cmps n f } }
      if match c.lastRecord with | some t => decide (d.clk.dt < t + msT 1) | none => false then
        modC (fun c => { c with unrecorded := min (c.unrecorded + 1) 255 }) d2
      else
        record o 0x6010 (0x20 + n) [if outside then 1 else 0, b8 c.unrecorded]
          (modC (fun c => { c with lastRecord := some d.clk.dt, unrecorded := 0 }) d2)

/-- The condition of a comparator changes after its hysteresis and filter. During the settle hold nothing changes (R377). -/
def cmpCrossing (o : Od) (n : Nat) (outside : Bool) (d : Dev) : Dev :=
  if !d.isOn .meas || cmpMode o n == 0 || (vget d.meas.cmps n).settle.isSome then d else cmpSet o n outside d

/-- A threshold write holds the output for 1 µs (R377). -/
def cmpThreshold (n : Nat) (d : Dev) : Dev :=
  { d with meas := { d.meas with cmps := vmod d.meas.cmps n (fun c => { c with settle := some (d.clk.dt + usT 1) }) } }

/-- The hold ends, and the output is evaluated against the thresholds in force: `outside` is what the input then gives. -/
def cmpSettled (o : Od) (n : Nat) (outside : Bool) (d : Dev) : Dev :=
  match (vget d.meas.cmps n).settle with
  | none => d
  | some t =>
    if d.clk.dt < t then d
    else
      let d1 := { d with meas := { d.meas with cmps := vmod d.meas.cmps n (fun c => { c with settle := none }) } }
      if cmpMode o n == 0 then d1 else cmpSet o n outside d1

/-! ### Temperature (R379 to R382) -/

/-- Sensors of a die: logic 0–5, AMS 6–8, HV 9–11. -/
def dieSensors (die : Nat) : List Nat := if die = 0 then [0, 1, 2, 3, 4, 5] else if die = 1 then [6, 7, 8] else [9, 10, 11]

/-- The die of a sensor is readable: its rail is in range (R379). -/
def dieReadable (d : Dev) (die : Nat) : Bool :=
  if die = 0 then vget d.rails.ok 2 else if die = 2 then vget d.rails.ok 8 else true

def healthySet (d : Dev) (die : Nat) : List Nat := (dieSensors die).filter (fun s => (vget d.meas.sensors s).healthy)

def readingOf (d : Dev) (s : Nat) : Int := (vget d.meas.sensors s).reading

/-- Median of a list; for an even count the mean of the middle two, truncated (R380). -/
def median (l : List Int) : Int :=
  let s := sortBy (fun a b => decide (a < b)) l
  let n := s.length
  if n = 0 then 0 else if n % 2 = 1 then s.getD (n / 2) 0 else (s.getD (n / 2 - 1) 0 + s.getD (n / 2) 0).tdiv 2

/-- Median of the other members of the healthy set. -/
def medianOthers (d : Dev) (die s : Nat) : Int := median (((healthySet d die).filter (· != s)).map (readingOf d))

/-- A sensor's test in a cycle: 1 out of range, 2 deviation, 0 good. -/
def sensorTest (d : Dev) (die s : Nat) : Nat :=
  let r := readingOf d s
  if r < -550 ∨ 2000 < r then 1
  else if 3 ≤ (healthySet d die).length ∧ 200 < (r - medianOthers d die s).natAbs then 2 else 0

def modSensor (s : Nat) (f : Sensor → Sensor) (d : Dev) : Dev := { d with meas := { d.meas with sensors := vmod d.meas.sensors s f } }
def modDie (k : Nat) (f : Die → Die) (d : Dev) : Dev := { d with meas := { d.meas with dies := vmod d.meas.dies k f } }

/-- Supervision of the sensors of one die in a cycle (R380). -/
def senseDie (o : Od) (die : Nat) (d : Dev) : Dev :=
  let h := healthySet d die
  let tests := h.map (fun s => (s, sensorTest d die s))
  let d1 := forEach tests (fun (s, t) d => modSensor s (fun x => { x with bad := if t = 0 then 0 else x.bad + 1 }) d) d
  let due := tests.filter (fun (s, _) => decide (8 ≤ (vget d1.meas.sensors s).bad))
  let dev (s : Nat) : Nat := (readingOf d s - medianOthers d die s).natAbs
  match due with
  | [] =>
    match h with
    | [a, b] =>
      let far := decide (200 < (readingOf d a - readingOf d b).natAbs)
      let was := (vget d.meas.dies die).disagree
      let d2 := modDie die (fun x => { x with disagree := far }) d1
      if far && !was then
        record o 0x6021 (0x60 + die) ([b8 die, b8 a, b8 b, 0] ++ toLE 2 (ofSigned 16 (readingOf d a)) ++ toLE 2 (ofSigned 16 (readingOf d b))) d2
      else d2
    | _ => d1
  | first :: rest =>
    let (s, why) := rest.foldl (fun best x => if dev best.1 < dev x.1 then x else best) first
    let d2 := forEach (h.filter (· != s)) (fun q d => modSensor q (fun x => { x with bad := if due.any (fun y => y.1 == q) then 0 else x.bad }) d)
      (modSensor s (fun x => { x with healthy := false, bad := 0 }) d1)
    record o 0x6020 (0x40 + s) ([b8 why, b8 (h.length - 1)] ++ toLE 2 (ofSigned 16 (readingOf d s))
      ++ toLE 2 (ofSigned 16 (medianOthers d die s))) d2

/-- The temperature of a die after a cycle, and whether the shutdown is declared: 1 temperature, 2 too few sensors (R381). -/
def dieCycle (die : Nat) (d : Dev) : Option Nat × Dev :=
  let h := healthySet d die
  let temp := h.foldl (fun a s => if a < readingOf d s then readingOf d s else a) (-32768)
  let x := vget d.meas.dies die
  let hot := if 1650 ≤ temp ∧ h.isEmpty = false then x.hot + 1 else 0
  let cool := decide (2 ≤ h.length) && h.all (fun s => decide (readingOf d s ≤ 1450))
  let d1 := modDie die (fun x => { x with
    temp := if h.isEmpty then x.temp else temp
    hot := hot
    coolSince := if !cool then none else some (x.coolSince.getD d.clk.dt) }) d
  let why := if h.length < 2 then some 2 else if 2 ≤ hot then some 1 else none
  (if x.latched then none else why, d1)

/-- THERMAL_SHUTDOWN: the die is latched (R382). -/
def thermalLatch (o : Od) (die cause : Nat) (d : Dev) : Dev :=
  let h := healthySet d die
  record o 0x6023 (0x60 + die) ([b8 die, b8 cause] ++ toLE 2 (ofSigned 16 (vget d.meas.dies die).temp) ++ [b8 h.length])
    (modDie die (fun x => { x with latched := true, declared := d.clk.run, hot := 0, coolSince := none }) d)

/-- THERMAL_LATCH (0x2662:04). -/
def thermalLatches (d : Dev) : Nat := bitsOf 3 (fun k => (vget d.meas.dies k).latched)

/-- TS_CLEAR (R380). -/
def tsClear (o : Od) (s : Nat) (d : Dev) : Dev :=
  if (vget d.meas.sensors s).healthy then d
  else record o 0x6022 (0x40 + s) [b8 s] (modSensor s (fun x => { x with healthy := true, bad := 0 }) d)

end Sys2Proof.Machine
end

