-- ==== Sys2Proof/Machine/ComOps.lean ====
section
/-! DEFINITION. Sessions and their closing, commissioning, persisted values and banks: what the transports, the power domains and
security share (R37 to R47, R56, R160 to R162). -/
namespace Sys2Proof.Machine

/-! ### Owners of objects (R32, Table 2.1) -/

/-- The owning domain of an object: Table 2.1, and the subject chapters where they name another (R32). -/
def ownerOf (ix : Nat) : Domain :=
  if ix < 0x2000 then .net
  else if ix < 0x2080 then .sec
  else if ix < 0x2100 then .safe
  else if ix < 0x2210 then .aon
  else if ix < 0x2220 then .sec
  else if ix < 0x2300 then .aon
  else if ix < 0x2400 then .sec
  else if ix < 0x2440 then .meas
  else if ix < 0x2500 then .net
  else if ix < 0x2540 then .sec
  else if ix < 0x2600 then .ctrl
  else if ix < 0x2700 then .meas
  else if ix < 0x2740 then .ctrl
  else if ix < 0x2800 then .net
  else if ix < 0x3100 then .ctrl
  else if ix < 0x3200 then .link
  else if ix < 0x3400 then .ctrl
  else if ix < 0x4000 then .link
  else if ix < 0x5000 then .drv
  else .safe

/-- The domain of a number (Table 1.5). -/
def Domain.ofNum (n : Nat) : Domain :=
  [Domain.aon, .sec, .net, .link, .ctrl, .drv, .meas, .safe].getD n .aon

/-! ### Persisted values (R37, R38) -/

/-- An object is part of the stored configuration. -/
def isPersistent (ix sub : Nat) : Bool := match odRow ix sub with
  | some r => r.persistent
  | none => false

/-- Drop every listed value of the objects that `own` selects: they read as their defaults. -/
def odDrop (own : Nat → Bool) (o : Od) : Od := o.filter (fun p => !own (p.1 / 256))

/-- Put the values of a bank's objects that `own` selects. -/
def odPut (own : Nat → Bool) (from_ : Od) (o : Od) : Od :=
  from_.foldl (fun o p => if own (p.1 / 256) then odSet o (p.1 / 256) (p.1 % 256) p.2 else o) o

/-- The objects that `own` selects take their persisted values, or their defaults where there is none (R37). -/
def odReload (own : Nat → Bool) (from_ : Od) (o : Od) : Od := odPut own from_ (odDrop own o)

/-- The contents of the current bank, empty where none is current. -/
def bankContents (d : Dev) : Od := match d.sec.bank with
  | some i => (vget d.nv.banks i).contents
  | none => []

/-- Selection of the current bank at a power-on of SEC (R37). -/
def selectBank (o : Od) (d : Dev) : Dev :=
  let b0 := vget d.nv.banks 0
  let b1 := vget d.nv.banks 1
  let pick (i : Option Nat) (d : Dev) : Dev := { d with sec := { d.sec with bank := i } }
  match b0.valid, b1.valid with
  | true, true => pick (some (if b0.counter < b1.counter then 1 else 0)) d
  | true, false => record o 0x0221 0 [1] (pick (some 0) d)
  | false, true => record o 0x0221 0 [0] (pick (some 1) d)
  | false, false => record o 0x0222 0 [] (pick none d)

/-- The part of a bank that AON shadows (R38). -/
def shadowOf (contents : Od) : Od :=
  contents.filter (fun p => ownerOf (p.1 / 256) == .meas || ownerOf (p.1 / 256) == .safe)

/-- What a power-on of a domain takes its persisted values from (R37, R38): MEAS and SAFE from AON's shadow; none where no values can
be had yet. -/
def persistedFor (m : Domain) (d : Dev) : Option Od :=
  if m == .meas || m == .safe then
    match d.aon.shadow with
    | some c => some c
    | none => if d.isOn .sec then some (bankContents d) else none
  else some (bankContents d)

/-- The interface objects of an object list: they take effect at a power-on of NET and at NMT reset communication (R191). -/
def ifaceOf (o : Od) : Od := o.filter (fun p => p.1 / 256 == 0x2450 || p.1 / 256 == 0x2451)

/-! ### Sessions (R40, R56) -/

def getSession (d : Dev) (n : Nat) : Session := vget d.com.sessions n
def modSession (n : Nat) (f : Session → Session) (d : Dev) : Dev := { d with com := { d.com with sessions := vmod d.com.sessions n f } }

/-- Commissioning ends, with its reason (R162, Table 7.11). -/
def commEnd (o : Od) (reason : Nat) (d : Dev) : Dev :=
  match d.sec.holder with
  | none => d
  | some n => record o 0x0306 (srcSession n) [b8 reason] { d with sec := { d.sec with holder := none, proof := [] } }

/-- The three effects of closing a session (R40): the transfer is discarded, commissioning ends, the abort record clears. -/
def sessionEnds (o : Od) (n : Nat) (d : Dev) : Dev :=
  let d1 := if d.sec.holder = some n then commEnd o 4 d else d
  { modSession n (fun s => { s with transfer := none, abort := {} }) d1 with
    sec := { d1.sec with nonces := vset d1.sec.nonces n none } }

/-- UDP_PORT takes effect when no UDP session is open (Table 2.13). -/
def portInForce (o : Od) (d : Dev) : Dev :=
  if d.com.sessions.any (fun s => s.kind == .udp) then d else { d with com := { d.com with udpPort := odU o 0x2002 2 } }

/-- A session closes and its number is free (Table 2.5). -/
def closeSession (o : Od) (n : Nat) (d : Dev) : Dev :=
  if (getSession d n).kind == .free then d
  else portInForce o (modSession n (fun _ => {}) (sessionEnds o n d))

/-- Close every session of a list. -/
def closeSessions (o : Od) (l : List Nat) (d : Dev) : Dev := forEach l (closeSession o) d

/-- COB-IDs of an SDO server channel, request and response: channel 1 of each controller at its default unless written (CiA 301). -/
def sdoCobs (o : Od) (d : Dev) (n : Nat) : Nat × Nat :=
  let get (sub dflt : Nat) : Nat := match odFind (odKey (0x1200 + n) sub) o with
    | some b => leNat b
    | none => if n % 4 = 0 then dflt + d.com.nodeId else 0x80000000
  (get 1 0x600, get 2 0x580)

/-- A server channel is open: both COB-IDs are valid, that is, bit 31 is clear (Table 2.5). -/
def sdoOpen (o : Od) (d : Dev) (n : Nat) : Bool := let (a, b) := sdoCobs o d n; a < 2 ^ 31 && b < 2 ^ 31

/-- Sessions 0 to 7 follow their channels, 8 to 11 the PCIe link (Table 2.5). -/
def followChannels (o : Od) (d : Dev) : Dev :=
  let d1 := forEach (List.range 8) (fun n d =>
    let free := (getSession d n).kind == .free
    if sdoOpen o d n && free then modSession n (fun _ => { kind := .can }) d
    else if !sdoOpen o d n && !free then closeSession o n d else d) d
  let mail := d1.acq.pcie.up && d1.acq.pcie.busMaster
  forEach [8, 9, 10, 11] (fun n d =>
    let free := (getSession d n).kind == .free
    if mail && free then modSession n (fun _ => { kind := .mailbox }) d
    else if !mail && !free then closeSession o n d else d) d1

end Sys2Proof.Machine
end

