-- ==== Sys2Proof/Machine/AcqOps.lean ====
section
/-! DEFINITION. Capture sets, staging, DMA streams, the PCIe endpoint (chapter 17). -/
namespace Sys2Proof.Machine

def getStream (d : Dev) (s : Nat) : Stream := vget d.acq.streams s
def modStream (s : Nat) (f : Stream → Stream) (d : Dev) : Dev := { d with acq := { d.acq with streams := vmod d.acq.streams s f } }
def onPcie (f : Pcie → Pcie) (d : Dev) : Dev := { d with acq := { d.acq with pcie := f d.acq.pcie } }

def streamIx (s : Nat) : Nat := 0x2740 + s
def setIx (a : Nat) : Nat := 0x2710 + a
/-- Source kind and argument of a stream (Table 17.2). -/
def srcKind (o : Od) (s : Nat) : Nat := odU o (streamIx s) 2 / 256
def srcArg (o : Od) (s : Nat) : Nat := odU o (streamIx s) 2 % 256
def srcOption (o : Od) (s : Nat) : Nat := odU o (streamIx s) 3
def srcStream (s : Nat) : Nat := 0x200 + s
def chCount (o : Od) (a : Nat) : Nat := odU o (setIx a) 1
def acqPeriod (o : Od) (a : Nat) : Nat := odU o (setIx a) 3

/-- Some stream is enabled (R23). -/
def anyStream (d : Dev) : Bool := d.acq.streams.any (·.enabled)

/-- The device can issue PCIe requests: link up, Bus Master Enable, D0, NET ON. -/
def linkReady (d : Dev) : Bool :=
  let p := d.acq.pcie
  p.up && p.busMaster && !p.d3hot && !p.perst && d.isOn .net

/-! ### MSI-X (R403) -/

/-- A vector signals, or its pending bit is set while it is masked. -/
def raiseVector (v : Nat) (d : Dev) : Dev :=
  if !linkReady d then d
  else if d.acq.pcie.masked.testBit v then onPcie (fun p => { p with pending := setBit p.pending v }) d
  else { d with out := d.out ++ [.msix v] }

/-! ### Staging (R392, R393) -/

def stagedBytes (l : List Staged) : Nat := (l.map (fun r => r.bytes.length)).sum

/-- Bytes of a capture record (Table 17.4, R388). -/
def chanBytes (reduce : Nat) : Nat := if reduce = 3 then 4 else 2
def captureLen (o : Od) (a : Nat) : Nat :=
  let n := ((List.range (chCount o a)).map (fun i => chanBytes (chanOf o a i).2.2)).sum
  24 + (n + 7) / 8 * 8

/-- Bytes of staging that a stream's records use, the captures that wait for the gate included. -/
def usedBytes (o : Od) (d : Dev) (s : Nat) : Nat :=
  let w := if srcKind o s = 1 then (getSet d (srcArg o s)).waiting.length * captureLen o (srcArg o s) else 0
  stagedBytes (getStream d s).staging + w

def stagingCap (o : Od) (s : Nat) : Nat := 1024 * odU o (streamIx s) 4

/-- The header of Table 17.3 before a payload. -/
def recordBytes (rtype flags rseq time : Nat) (payload : Bytes) : Bytes :=
  [b8 rtype, b8 flags] ++ toLE 2 (16 + payload.length) ++ toLE 4 rseq ++ toLE 8 time ++ payload

/-- A record takes its RSEQ and its place in staging. -/
def stage (s rtype flags time : Nat) (payload : Bytes) (d : Dev) : Dev :=
  modStream s (fun x => { x with
    staging := x.staging ++ [{ rtype := rtype, time := time, bytes := recordBytes rtype flags x.rseq time payload }]
    rseq := wrapInc x.rseq }) d

/-- The GAP record of a gap that ends at the record of TIME `time` (Table 17.4), with its yield and event (R393, R405). -/
def endGap (o : Od) (s time : Nat) (g : Gap) (d : Dev) : Dev :=
  let len := (time + 2 ^ 64 - g.time) % 2 ^ 64
  let d1 := stage s 3 0 g.time (toLE 8 len ++ toLE 4 g.lost ++ toLE 4 g.first ++ toLE 4 g.last ++ toLE 2 g.triggers ++ [b8 g.cause]
    ++ List.replicate 9 0) (modStream s (fun x => { x with gap := none }) d)
  let d2 := record o 0x2051 (srcStream s) ([b8 g.cause, 0] ++ toLE 2 g.triggers ++ toLE 4 g.lost ++ toLE 8 len) d1
  if g.cause = 1 then yieldTo o 3 5 8 0x2051 (srcStream s) d2 else d2

/-- A record is lost: a gap begins or goes on (R393). -/
def loseRecord (s time ident : Nat) (mark : Bool) (d : Dev) : Dev :=
  let x := getStream d s
  let g : Gap := x.gap.getD { time := time, first := ident, last := ident, cause := if x.paused || x.down then 2 else 1 }
  modStream s (fun x => { x with
    gap := some { g with lost := satInc g.lost, last := ident, triggers := if mark then min (g.triggers + 1) 65535 else g.triggers }
    gaps := if x.gap.isSome then x.gaps else satInc x.gaps
    lost := satInc x.lost }) d

/-- A record of a stream's source enters staging where it fits with 48 bytes left, after the GAP record of a gap; else it is
lost. `own` is what the record itself already uses of the staging. -/
def place (o : Od) (s rtype flags time ident own : Nat) (payload : Bytes) (d : Dev) : Dev :=
  let x := getStream d s
  if !x.enabled then d
  else
    let need := 16 + payload.length + 48
    let used := usedBytes o d s - own
    match x.gap with
    | none => if used + need ≤ stagingCap o s then stage s rtype flags time payload d else loseRecord s time ident (rtype == 2) d
    | some g =>
      if used + 48 + need ≤ stagingCap o s then stage s rtype flags time payload (endGap o s time g d)
      else loseRecord s time ident (rtype == 2) d

/-- The 32-byte event record (Table 3.3). -/
def eventBytes (r : Record) : Bytes :=
  toLE 8 r.ev.time ++ toLE 4 r.seq ++ toLE 2 r.ev.code ++ toLE 2 (r.ev.source + (if r.late then 32768 else 0)) ++ r.ev.data

/-- An event stream takes the records of its classes that have been numbered since it last looked (R391). -/
def stageEvents (o : Od) (s : Nat) (d : Dev) : Dev :=
  let x := getStream d s
  if !x.enabled || srcKind o s != 2 then d
  else
    let new := d.seqr.log.filter (fun r => r.seq == x.nextSeq || serialBefore x.nextSeq r.seq)
    let d1 := forEach new (fun r d =>
      if classSelected (srcOption o s) r.ev.code then place o s 4 0 r.ev.time r.seq 0 (eventBytes r) d else d) d
    modStream s (fun x => { x with nextSeq := d.seqr.next }) d1

/-- Every event stream looks at the log. -/
def stageAllEvents (o : Od) (d : Dev) : Dev := forEach (List.range 32) (stageEvents o) d

/-- TELEMETRY records of a valid CYCLIC frame of a ring (R391, Table 17.4). -/
def stageTelemetry (o : Od) (r path k launch n : Nat) (slots : Bytes) (d : Dev) : Dev :=
  forEach (List.range 32) (fun s d =>
    if srcKind o s = 3 ∧ (srcArg o s).testBit r ∧ pno k % max (srcOption o s % 65536) 1 = 0 then
      place o s 5 0 launch (pno k) 0 (toLE 4 (pno k) ++ [b8 r, b8 n, b8 path, 0] ++ slots) d
    else d) d

/-- LEDGER records at a period end (R391, Table 17.4). -/
def stageLedger (o : Od) (k t : Nat) (d : Dev) : Dev :=
  forEach (List.range 32) (fun s d =>
    if srcKind o s = 4 ∧ pno k % max (srcOption o s % 65536) 1 = 0 then
      place o s 6 0 t (pno k) 0 (toLE 4 (pno k) ++ toLE 4 133 ++ d.ledger.accounts.toList.flatMap accountBytes) d
    else d) d

/-! ### Captures (R386 to R390) -/

/-- A channel is valid (R387). -/
def chanValid (o : Od) (a i : Nat) : Bool :=
  let (k, g, r) := chanOf o a i
  decide (r ≤ 3) && (match k with
  | 1 => decide (g / 32 < 8 ∧ g % 32 < seqLen o (g / 32))
  | 2 => decide (g ≤ 1)
  | 3 => decide (g % 16 < ceM o (g / 16))
  | 4 => decide (g ≤ 0x0B ∨ (0x10 ≤ g ∧ g ≤ 0x12))
  | _ => false)

/-- A condition of TRIG_PATTERN on LAST now and at the previous capture (R389). -/
def condHolds (b : Bytes) (i : Nat) (v : Int) (p : Option Int) : Bool :=
  let at_ := 8 * i
  let level := toSigned 16 (leAt b (at_ + 2) 2)
  let mask := leAt b (at_ + 4) 2
  let value := leAt b (at_ + 6) 2
  let w := ofSigned 16 v
  match leAt b at_ 1 with
  | 0 => true
  | 1 => decide (level ≤ v)
  | 2 => decide (v < level)
  | 3 => p.any (fun p => decide (p < level ∧ level ≤ v))
  | 4 => p.any (fun p => decide (level ≤ p ∧ v < level))
  | 5 => w &&& mask == value
  | 6 => w &&& mask != value
  | 7 => p.any (fun p => (w ^^^ ofSigned 16 p) &&& mask != 0)
  | _ => false

/-- The bytes that a channel writes, and whether it had no result (R388). Comparator groups always have their state. -/
def chanWrites (o : Od) (a i : Nat) (c : ChanAcc) : Bytes × Bool :=
  let (k, _, r) := chanOf o a i
  let w (x : Int) : Bytes := toLE 2 (ofSigned 16 x)
  let lo := c.lo.getD c.last
  let hi := c.hi.getD c.last
  (match r with
    | 1 => w lo
    | 2 => w hi
    | 3 => w lo ++ w hi
    | _ => w c.last, k != 2 && c.lo.isNone)

/-- A capture goes to its stream, its TRIGGER_MARK before it (R390). -/
def streamCapture (o : Od) (s : Nat) (own : Nat) (w : WaitCap) (d : Dev) : Dev :=
  let d1 := match w.mark with
    | none => d
    | some n => place o s 2 0 w.time w.no own (toLE 4 n ++ toLE 4 w.no ++ List.replicate 8 0) d
  let vals := toLE 4 w.no ++ toLE 4 0 ++ w.values
  place o s 1 (if w.stale then 1 else 0) w.time w.no own (vals ++ List.replicate ((8 - vals.length % 8) % 8) 0) d1

/-- The trigger decision of a capture (R390): whether it is a trigger, and the set after it. -/
def triggerStep (o : Od) (a : Nat) (hit : Bool) (x : CaptureSet) : Bool × CaptureSet :=
  match odU o (setIx a) 5 with
  | 1 =>
    if hit && x.armed then (true, { x with count := wrapInc x.count, armed := false, holdoff := x.holdoff - 1 })
    else (false, { x with holdoff := x.holdoff - 1 })
  | 2 =>
    if hit && x.holdoff == 0 then (true, { x with count := wrapInc x.count, holdoff := odU o (setIx a) 7 })
    else (false, { x with holdoff := x.holdoff - 1 })
  | _ => (false, { x with holdoff := x.holdoff - 1 })

/-- A set waits for a match: "arms" was accepted, or in repeat mode the holdoff is over (R390). -/
def setArmed (o : Od) (a : Nat) (d : Dev) : Bool :=
  match odU o (setIx a) 5 with
  | 1 => (getSet d a).armed
  | 2 => (setStream o d a).isSome && (getSet d a).holdoff == 0
  | _ => false

/-- A capture instant of set `a` (R386): values reduced, the pattern matched, the record staged or held for the gate. -/
def captureNow (o : Od) (a s : Nat) (d : Dev) : Dev :=
  let x := getSet d a
  let time := x.t0 + x.j * acqPeriod o a
  let no := x.j % 2 ^ 32
  let lasts := x.chans.map (·.last)
  let pattern := odGet o (setIx a) 6
  let hit := x.chans.zipIdx.all (fun (c, i) => condHolds pattern i c.last (x.prev.map (fun p => p.getD i 0)))
  let written := x.chans.zipIdx.map (fun (c, i) => chanWrites o a i c)
  let (trig, x1) := triggerStep o a hit x
  let cap : WaitCap := {
    no := no, time := time, stale := written.any (·.2), values := written.flatMap (·.1), mark := if trig then some x1.count else none }
  let x2 := { x1 with
    j := x.j + 1, prev := some lasts, no := no
    chans := x.chans.map (fun c => { c with lo := none, hi := none }) }
  let note := trig && (match x.lastEvent with | some t => decide (t + msT 1 ≤ d.clk.dt) | none => true)
  let x3 := if note then { x2 with lastEvent := some d.clk.dt } else x2
  let d1 := modSet a (fun _ => x3) d
  let d2 := if note then record o 0x2052 0 ([b8 a, 0, 0, 0] ++ toLE 4 x1.count ++ toLE 4 no) d1 else d1
  let len := captureLen o a
  if odU o (setIx a) 8 = 0 then streamCapture o s 0 cap d2
  else if trig then
    -- the captures that wait, and this one, lie in the trigger's window
    let d3 := modSet a (fun x => { x with waiting := [], post := odU o (setIx a) 0x0A }) d2
    let wait := x.waiting
    forEach (wait ++ [cap]) (fun w d => streamCapture o s 0 w d) d3
  else if x.post != 0 then streamCapture o s 0 cap (modSet a (fun x => { x with post := x.post - 1 }) d2)
  else
    let pre := odU o (setIx a) 9
    let keep := newest pre (x.waiting ++ [cap])
    -- a capture that does not fit while it waits is dropped like any other record
    if usedBytes o d2 s + len + 48 ≤ stagingCap o s || x.waiting.length = pre then modSet a (fun x => { x with waiting := keep }) d2
    else loseRecord s time no false d2

/-- The capture instant that is due, if any. -/
def captureDue (o : Od) (a : Nat) (d : Dev) : Dev :=
  match setStream o d a with
  | none => d
  | some s =>
    let x := getSet d a
    if !d.isOn .ctrl || !d.clk.counting || d.clk.dt < x.t0 + x.j * acqPeriod o a then d else captureNow o a s d

/-- A set starts with its stream (R386, R390). -/
def setStarts (o : Od) (a : Nat) (d : Dev) : Dev :=
  let first := if d.sched.running then nextStart o d else wholeUs d.clk.dt
  modSet a (fun x => { x with
    t0 := first + odU o (setIx a) 4, j := 0, prev := none, waiting := [], post := 0, holdoff := 0
    armed := false
    chans := (List.range (chCount o a)).map (fun i => { last := latestOf d (chanOf o a i).1 (chanOf o a i).2.1 }) }) d

/-- Why "arms" is refused (Table 17.11). -/
def armRefusal (o : Od) (a : Nat) (d : Dev) : Option Nat :=
  if odU o (setIx a) 5 = 1 ∧ (setStream o d a).isSome then none else some (0x20550000 + a)

/-! ### Descriptors (R399 to R404) -/

/-- Address of descriptor `i` (Table 17.8). -/
def descAddr (x : Stream) (i : Nat) : Nat := x.ringBase + 32 * (i % max x.ringSize 1)

/-- Bytes 16 to 31 of a descriptor as the completion writes them. -/
def completionBytes (written status flags lastTime : Nat) : Bytes :=
  toLE 4 written ++ [b8 status, b8 flags, 0, 0] ++ toLE 8 (if written = 0 then 0 else lastTime)

/-- A completion is issued: the posted write, the counters, the interrupt (R400, R403). -/
def completionOut (s i written status flags lastTime : Nat) (d : Dev) : Dev :=
  let x := getStream d s
  let n := x.unsignalled + 1
  let fire := decide (max x.irqCount 1 ≤ n)
  let d1 := modStream s (fun x => { x with
    completed := wrapInc x.completed, total := wrapInc x.total, ended := (i :: x.ended).take x.ringSize
    unsignalled := if fire then 0 else n
    signalFrom := if fire then none else some (x.signalFrom.getD d.clk.dt) })
    { d with out := d.out ++ [.dmaWrite (descAddr x i + 16) (completionBytes written status flags lastTime)] }
  if fire then raiseVector (4 + s) d1 else d1

/-- Descriptors posted and not completed. -/
def outstanding (x : Stream) : Nat := (x.posted + 2 ^ 32 - x.completed) % 2 ^ 32

/-- The stream is disabled: every descriptor not completed is completed as ABORTED, staging is discarded (R64, R404). With the link
down nothing can be completed, and the descriptors count as abandoned (R65). -/
def streamOff (o : Od) (s : Nat) (d : Dev) : Dev :=
  let x := getStream d s
  if !x.enabled then d
  else
    let n := outstanding x
    let left := if x.down || !linkReady d then some (x.abandoned.getD n) else none
    let abort (i written flags lastTime : Nat) (d : Dev) : Dev :=
      if (getStream d s).ended.contains i then d else completionOut s i written 3 flags lastTime d
    let d1 := if left.isSome then d
      else
        let f := x.fill.getD {}
        let d0 := forEach (x.held.take 1) (fun b d => abort b.index f.written f.flags f.lastTime d) d
        let d1 := forEach (x.held.drop 1) (fun b d => abort b.index 0 0 0 d) d0
        forEach (List.range ((x.posted + 2 ^ 32 - x.fetched) % 2 ^ 32)) (fun i d => abort ((x.fetched + i) % 2 ^ 32) 0 0 0 d) d1
    let d2 := modStream s (fun x => { x with
      enabled := false, down := false, paused := false, held := [], fill := none, staging := [], gap := none, abandoned := left
      posted := x.tail, fetched := if left.isSome then x.fetched else x.tail, reading := 0 }) d1
    let d3 := if srcKind o s = 1 then modSet (srcArg o s) (fun x => { x with armed := false, holdoff := 0, waiting := [], post := 0 }) d2 else d2
    record o 0x2050 (srcStream s) ([0, b8 (srcKind o s), 0, 0] ++ toLE 4 x.rateWorst) d3

/-- A descriptor breach: 1 completed twice, 2 its buffer written after its completion. It is recorded, BREACH_SUMMARY and the count
follow, and the stream is disabled (R66). -/
def descriptorBreach (o : Od) (s i kind : Nat) (d : Dev) : Dev :=
  let d1 := breachConservation (record o 0x0511 (srcStream s) (toLE 4 i ++ [b8 kind]) d)
  streamOff o s { d1 with breach := { d1.breach with descriptor := satInc d1.breach.descriptor } }

/-- A descriptor is completed; one that is completed already is a breach (R66). -/
def complete (o : Od) (s i written status flags lastTime : Nat) (d : Dev) : Dev :=
  if (getStream d s).ended.contains i then descriptorBreach o s i 1 d else completionOut s i written status flags lastTime d

/-- The buffer being filled is completed (R400, R401). -/
def closeBuffer (o : Od) (s status extra : Nat) (d : Dev) : Dev :=
  let x := getStream d s
  match x.held with
  | [] => d
  | b :: rest =>
    let f := x.fill.getD {}
    complete o s b.index f.written status (f.flags ||| extra) f.lastTime (modStream s (fun x => { x with held := rest, fill := none }) d)

/-- A staged record is written whole into the current buffer, which is completed first where it does not fit (R400). A buffer whose
descriptor is completed already is not written: that is a breach (R66). -/
def recordToBuffer (o : Od) (s : Nat) (d0 : Dev) : Dev :=
  let d := stageEvents o s d0
  let x := getStream d s
  if !x.enabled || x.down || x.paused || !linkReady d then d
  else match x.staging, x.held with
    | r :: rest, b :: _ =>
      let f := x.fill.getD {}
      if b.len < f.written + r.bytes.length then closeBuffer o s 1 0 d
      else if x.ended.contains b.index then descriptorBreach o s b.index 2 d
      else
        let f1 : Fill := {
          written := f.written + r.bytes.length
          oldest := if f.written = 0 then d.clk.dt else f.oldest
          lastTime := r.time
          flags := f.flags ||| (if r.rtype = 3 then 1 else if r.rtype = 2 then 2 else 0) }
        modStream s (fun x => { x with staging := rest, fill := some f1 })
          { d with out := d.out ++ [.dmaWrite (b.addr + f.written) r.bytes] }
    | _, _ => d

/-- FLUSH_TIMEOUT of the oldest record of the buffer (R401). A buffer that the next staged record does not fit into is complete as DONE. -/
def flushDue (o : Od) (s : Nat) (d : Dev) : Dev :=
  let x := getStream d s
  let limit := odU o (streamIx s) 5
  match x.fill, x.held with
  | some f, b :: _ =>
    if limit = 0 || f.written = 0 || x.down || x.paused || !linkReady d || decide (d.clk.dt < f.oldest + usT limit) then d
    else
      let full := match x.staging with
        | r :: _ => decide (b.len < f.written + r.bytes.length)
        | [] => f.written == b.len
      if full then closeBuffer o s 1 0 d else closeBuffer o s 2 4 d
  | _, _ => d

/-- IRQ_TIME of the first completion not yet signalled (R403). -/
def irqDue (s : Nat) (d : Dev) : Dev :=
  let x := getStream d s
  match x.signalFrom with
  | none => d
  | some t =>
    if x.irqTime = 0 || decide (d.clk.dt < t + usT x.irqTime) then d
    else raiseVector (4 + s) (modStream s (fun x => { x with unsignalled := 0, signalFrom := none }) d)

/-- PCIe read tags in use, over all streams (R30, Table 17.5). -/
def tagsUsed (d : Dev) : Nat := (d.acq.streams.toList.map (·.reading)).sum

/-- The device reads the descriptors it may still fetch, one to a request, with at most 128 requests outstanding over all streams (R30,
Table 17.5). -/
def fetchRequest (s : Nat) (d : Dev) : Dev :=
  let x := getStream d s
  let n := min ((x.posted + 2 ^ 32 - x.fetched) % 2 ^ 32 - x.reading) (128 - tagsUsed d)
  if n = 0 || !x.enabled || !linkReady d || x.down || x.paused then d
  else modStream s (fun x => { x with reading := x.reading + n })
    { d with out := d.out ++ (List.range n).map (fun i => .dmaRead (descAddr x (x.fetched + x.reading + i)) 32) }

/-- A read completes and frees its tag: the streams that wait for one issue their requests, in ascending order (log entry 201). -/
def tagFreed (s : Nat) (d : Dev) : Dev :=
  forEach (List.range 32) fetchRequest (modStream s (fun x => { x with reading := x.reading - 1 }) d)

/-- A TAIL write (R399). -/
def tailWrite (o : Od) (s v : Nat) (d : Dev) : Dev :=
  let x := getStream d s
  if !d.isOn .net then d
  else if !x.enabled then modStream s (fun x => { x with tail := v }) d
  else if (v + 2 ^ 32 - x.completed) % 2 ^ 32 ≤ x.ringSize ∧ (v + 2 ^ 32 - x.tail) % 2 ^ 32 ≤ x.ringSize then
    fetchRequest s (modStream s (fun x => { x with tail := v, posted := v }) d)
  else
    let d1 := modStream s (fun x => { x with ignored := satInc x.ignored, ignoredNoted := true }) d
    if x.ignoredNoted then d1
    else record o 0x2054 (srcStream s) ([0, 0, 0, 0] ++ toLE 4 v ++ toLE 4 x.completed) d1

/-- A descriptor read completes (R402). -/
def descriptorFetched (o : Od) (s : Nat) (b : Bytes) (d : Dev) : Dev :=
  let x := getStream d s
  if !x.enabled || x.down || x.paused || !linkReady d || x.fetched == x.posted || b.length != 32 then d
  else
    let addr := leAt b 0 8
    let len := leAt b 8 4
    let i := x.fetched
    let d1 := tagFreed s (modStream s (fun x => { x with fetched := wrapInc x.fetched }) d)
    if addr % 64 = 0 ∧ 8192 ≤ len ∧ len ≤ 4194304 ∧ len % 64 = 0 then
      modStream s (fun x => { x with held := x.held ++ [{ index := i, addr := addr, len := len }] }) d1
    else
      record o 0x2053 (srcStream s) ([0, 0, 0, 0] ++ toLE 4 i ++ toLE 8 addr)
        (complete o s i 0 3 8 0 (modStream s (fun x => { x with bad := satInc x.bad }) d1))

/-! ### Enabling and disabling (R394, R396, R404) -/

/-- RATE_WORST of a stream, exact (R394). -/
def rateOf (o : Od) (s : Nat) : Rat :=
  let dv : Nat := max (srcOption o s % 65536) 1
  let p : Rat := (dv * period o : Nat)
  match srcKind o s with
  | 1 => (captureLen o (srcArg o s) * 800000000 : Nat) / (max (acqPeriod o (srcArg o s)) 1 : Nat)
  | 2 => 12000000
  | 3 => (((List.range 8).filter (fun r => (srcArg o s).testBit r)).map (fun r => ((24 + 24 * ringCells o r : Nat) : Rat) * 800000000 / p)).sum
  | 4 => (6408 * 800000000 : Nat) / p
  | _ => 0

/-- RING_SIZE is valid (R398). -/
def ringValid (x : Stream) : Bool :=
  x.ringBase % 64 == 0 && [8, 16, 32, 64, 128, 256, 512, 1024, 2048, 4096].contains x.ringSize

/-- STREAM_SOURCE names a source of Table 17.2. -/
def sourceKnown (o : Od) (s : Nat) : Bool :=
  let a := srcArg o s
  match srcKind o s with
  | 1 => decide (a ≤ 3)
  | 2 => a == 0
  | 3 => true
  | 4 => a == 0
  | _ => false

/-- Two streams take one source: the same STREAM_SOURCE value (R391). -/
def sameSource (o : Od) (s q : Nat) : Bool :=
  odU o (streamIx s) 2 == odU o (streamIx q) 2

/-- Why the enabling write is refused (R394), in the order of its checks. -/
def streamRefusal (o : Od) (s : Nat) (d : Dev) : Option Nat :=
  let x := getStream d s
  let others := (List.range 32).filter (fun q => q != s && (getStream d q).enabled)
  let a := srcArg o s
  let gated := srcKind o s == 1 && odU o (setIx a) 8 == 1
  if !sourceKnown o s || others.any (sameSource o s) then some (0x20500000 + s)
  else if !ringValid x then some (0x20510000 + s)
  else if !linkReady d then some (0x20520000 + s)
  else if srcKind o s = 1 ∧ !(List.range (chCount o a)).all (chanValid o a) then some (0x20540000 + a)
  else if 4096 < ((s :: others).map (fun q => odU o (streamIx q) 4)).sum
      || (gated && decide (stagingCap o s / 2 < odU o (setIx a) 9 * captureLen o a + 48)) then some (0x20560000 + s)
  else if 330000000 < ⌊rateOf o s⌋.toNat + (others.map (fun q => (getStream d q).rateWorst)).sum then some (0x20530000 + s)
  else none

/-- The stream is enabled (R386, R391, R399). -/
def streamOn (o : Od) (s : Nat) (d : Dev) : Dev :=
  let rate := ⌊rateOf o s⌋.toNat
  let d1 := modStream s (fun x => { x with
    enabled := true, posted := x.tail, fetched := 0, completed := 0, ignored := 0, ignoredNoted := false, down := false
    paused := false, held := [], ended := [], reading := 0, fill := none, staging := [], gap := none, unsignalled := 0, signalFrom := none
    rateWorst := min rate (2 ^ 32 - 1), nextSeq := d.seqr.next, abandoned := none }) d
  let d2 := match (getStream d s).abandoned with
    | some n => record o 0x0503 (srcStream s) (toLE 4 n) d1
    | none => d1
  let d3 := if srcKind o s = 1 then setStarts o (srcArg o s) d2 else d2
  fetchRequest s (record o 0x2050 (srcStream s) ([1, b8 (srcKind o s), 0, 0] ++ toLE 4 rate) d3)

/-- A write of 0x01 to STREAM_ENABLE of an enabled stream whose link was down restarts it (R396). -/
def streamRestart (o : Od) (s : Nat) (d : Dev) : Dev :=
  let x := getStream d s
  if x.down then streamOn o s (modStream s (fun x => { x with enabled := false, abandoned := some (x.abandoned.getD (outstanding x)) }) d)
  else d

/-! ### The link (R65, R396, R405) -/

/-- Streams stop: nothing further is requested or completed (R396). -/
def streamsDown (d : Dev) : Dev :=
  { d with acq := { d.acq with streams := d.acq.streams.map (fun x =>
    if x.enabled && !x.down then { x with down := true, reading := 0, abandoned := some (outstanding x) } else x) } }

/-- The link is treated as down (R396): 1 PERST, 2 link, 3 D3hot, 4 Bus Master Enable cleared. -/
def linkDown (o : Od) (cause : Nat) (d : Dev) : Dev :=
  let p := d.acq.pcie
  if !p.up then d
  else
    let gone := cause == 1 || cause == 2
    let d1 := onPcie (fun p => if gone then { p with up := false, busMaster := false, d3hot := false, parked := [] } else p) (streamsDown d)
    followChannels o (record o 0x2055 0 [0, b8 p.speed, b8 p.width, b8 cause] d1)

/-- The link comes up (R395). -/
def linkUp (o : Od) (speed width : Nat) (d : Dev) : Dev :=
  let p := d.acq.pcie
  let supplied := vget d.rails.ok 3 && vget d.rails.ok 4
  if p.up || p.perst || !supplied || speed = 0 || width = 0 || !d.isOn .net then d
  else followChannels o (record o 0x2055 0 [1, b8 speed, b8 width, 0]
    (onPcie (fun p => { p with up := true, speed := speed, width := width }) d))

/-- NET enters or leaves RETENTION by request (R405). -/
def streamsPause (o : Od) (pause : Bool) (d : Dev) : Dev :=
  forEach (List.range 32) (fun s d =>
    let x := getStream d s
    if !x.enabled || x.paused == pause then d
    else fetchRequest s (record o 0x2050 (srcStream s) ([if pause then 2 else 3, b8 (srcKind o s), 0, 0] ++ toLE 4 x.rateWorst)
      (modStream s (fun x => { x with paused := pause }) d))) d

/-- BUDGET_USED and STREAMS_ENABLED. -/
def budgetUsed (d : Dev) : Nat := (d.acq.streams.toList.map (fun x => if x.enabled then x.rateWorst else 0)).sum
def streamsEnabled (d : Dev) : Nat := bitsOf 32 (fun s => (getStream d s).enabled)

/-- A write to RING_BASE, RING_SIZE, IRQ_COUNT or IRQ_TIME (R398, Table 17.7). -/
def streamRegister (s offset v : Nat) (d : Dev) : Dev :=
  let x := getStream d s
  let put (f : Stream → Stream) (d : Dev) : Dev := modStream s f d
  if !d.isOn .net then d
  else match offset with
    | 0x00 => if x.enabled then d else put (fun x => { x with ringBase := x.ringBase / 2 ^ 32 * 2 ^ 32 + v / 64 * 64 }) d
    | 0x04 => if x.enabled then d else put (fun x => { x with ringBase := v * 2 ^ 32 + x.ringBase % 2 ^ 32 }) d
    | 0x08 => if x.enabled then d else put (fun x => { x with ringSize := v % 8192 }) d
    | 0x18 => put (fun x => { x with irqCount := min (max (v % 512) 1) 256 }) d
    | 0x1C => put (fun x => { x with irqTime := v % 65536 }) d
    | _ => d

/-! ### Configuration space (R120, R395) -/

/-- A register of the configuration space (Table 17.5); those that the spec does not lay out have a free value. -/
def configRead (d : Dev) (reg : Nat) : Nat :=
  let p := d.acq.pcie
  match reg / 4 * 4 with
  | 0x00 => 0x81281EB7
  | 0x04 => bitIf 1 p.memory + bitIf 2 p.busMaster + 2 ^ 20
  | 0x08 => 0x118000 * 256 + (Config.pcieConfig 8).toNat % 256
  | 0x0C => let v := (Config.pcieConfig 0x0C).toNat; v / 2 ^ 24 * 2 ^ 24 + v % 65536
  | 0x10 => p.bar % 2 ^ 32 + 4
  | 0x14 => p.bar / 2 ^ 32
  | 0x18 | 0x1C | 0x20 | 0x24 | 0x30 => 0
  | 0x2C => 0x00011EB7
  | 0x3C => let v := (Config.pcieConfig 0x3C).toNat; v / 65536 * 65536 + v % 256
  | r => (Config.pcieConfig r).toNat

/-- A write to the configuration space: Command and the BAR. -/
def configWrite (o : Od) (reg v : Nat) (d : Dev) : Dev :=
  match reg / 4 * 4 with
  | 0x04 =>
    let was := d.acq.pcie.busMaster
    let now := v.testBit 2
    let d1 := onPcie (fun p => { p with memory := v.testBit 1, busMaster := now }) d
    if was && !now then
      let d2 := onPcie (fun p => { p with busMaster := was }) d1
      let d3 := if anyStream d then linkDown o 4 d2 else d2
      followChannels o (onPcie (fun p => { p with busMaster := now }) d3)
    else followChannels o d1
  | 0x10 => onPcie (fun p => { p with bar := p.bar / 2 ^ 32 * 2 ^ 32 + v % 2 ^ 32 / 65536 * 65536 }) d
  | 0x14 => onPcie (fun p => { p with bar := v % 2 ^ 32 * 2 ^ 32 + p.bar % 2 ^ 32 }) d
  | _ => d

/-- A configuration request (R120): retry status until NET is ON, else served. -/
def configRequest (o : Od) (write : Bool) (reg v : Nat) (d : Dev) : Dev :=
  let p := d.acq.pcie
  let answer (crs : Bool) (v : Nat) (d : Dev) : Dev := { d with out := d.out ++ [.pcieCompletion crs v] }
  if p.perst then d
  else if !d.isOn .net then answer true 0 d
  else if write then answer false 0 (configWrite o reg v d)
  else answer false (configRead d reg) d

/-! ### BAR accesses (R139, R395, R403) -/

/-- A vector is unmasked: it signals where it is pending (R403). -/
def msixUnmask (v : Nat) (d : Dev) : Dev :=
  if !d.isOn .net then d
  else
    let d1 := onPcie (fun p => { p with masked := clrBit p.masked v }) d
    if d.acq.pcie.pending.testBit v && linkReady d then raiseVector v (onPcie (fun p => { p with pending := clrBit p.pending v }) d1)
    else d1

/-- A read of TIME_LO latches TIME_HI (Table 17.6). -/
def timeLoRead (d : Dev) : Dev :=
  if d.isOn .net && d.acq.pcie.up && d.acq.pcie.memory && !d.acq.pcie.d3hot then
    let d1 := onPcie (fun p => { p with timeHi := d.clk.dt / 2 ^ 32 % 2 ^ 32 }) d
    { d1 with out := d1.out ++ [.pcieCompletion false (d.clk.dt % 2 ^ 32)] }
  else d

end Sys2Proof.Machine
end

