-- ==== Sys2Proof/Machine/PwmRun.lean ====
section
/-! DEFINITION. Cut-offs and period starts of the PWM pairs, with the bridges' refresh and resume, and what happens to a
bridge (chapters 18 and 19). -/
namespace Sys2Proof.Machine

/-- PWM settings a period's placing reads. -/
def placeCfg (o : Od) (q t : Nat) : PlaceCfg :=
  { cut := t - 160, deadH := deadRise o q, deadL := deadFall o q, minH := minPulse o (2 * q), minL := minPulse o (2 * q + 1)
    stretchH := pulseStretch o (2 * q), stretchL := pulseStretch o (2 * q + 1) }

/-- The cut-off of the period start at `t` of pair q, once (R416, R417, R430). The chopper hands its set over here (R462). -/
def cutoffAt (o : Od) (q t : Nat) (d : Dev) : Dev :=
  let p0 := vget d.pwm.pairs q
  if p0.cutDone = some t then d
  else
    let engine := if p0.owner == .chopper then [(t - 161, chopSet o d q)] else []
    let p := { p0 with sets := p0.sets ++ engine }
    let r := cutoffOf (pairMode o q) (odU o (0x4000 + q) 0x0B) t p
    let p1 := { p with
      fixed := p.fixed.union r.take, sets := r.rest, heldSet := r.held, cutDone := some t
      flags := if r.split.isSome then setBit p.flags 1 else p.flags }
    let legs := if p0.owner == .chopper
      then vmod d.ladder.legs (q - 12) (fun l => { l with duty := if l.state == .ready then chopDuty o d else 0 }) else d.ladder.legs
    let d1 := { d with pwm := { d.pwm with pairs := vset d.pwm.pairs q p1 }, ladder := { d.ladder with legs := legs } }
    match r.split with
    | none => d1
    | some (how, per) => record o 0x3005 (0x300 + q) ([b8 q, b8 how, 0, 0] ++ toLE 4 per) d1

/-- The group of a pair is forced. -/
def pairForced (o : Od) (d : Dev) (q : Nat) : Bool :=
  match groupOfChannel o (2 * q) with | some g => (vget d.pwm.groups g).forced | none => false

/-- Retries consumed inside RETRY_WINDOW, and retries left (R440). -/
def retriesUsed (o : Od) (d : Dev) (k : Nat) : Nat :=
  ((vget d.bridges k).retries.filter (fun t => d.clk.dt < t + secT (odU o (0x4200 + k) 0x0E))).length
def retriesLeft (o : Od) (d : Dev) (k : Nat) : Nat := odU o (0x4200 + k) 0x0D - retriesUsed o d k

/-- A bridge whose resume is due goes to RUN at the period start `t`, with a refresh period (R440, R441, R443). -/
def bridgeResume (o : Od) (q t : Nat) (d : Dev) : Dev :=
  match bridgeOf q with
  | none => d
  | some k =>
    let b := vget d.bridges k
    match b.resumeFrom with
    | some r =>
      if t < r then d
      else
        let d1 := { d with
          bridges := vset d.bridges k { b with state := .run, resumeFrom := none }
          pwm := { d.pwm with pairs := vmod d.pwm.pairs q (fun p => { p with refreshOwed := true }) } }
        if b.state == .retryWait then
          recordAt o t 0x3102 (0x380 + k) ([b8 k, b8 (retriesLeft o d k), 0, 0] ++ toLE 4 (t - b.faultTime)) d1
        else d1
    | none => d

/-- Count the period that ends towards the refresh (R434). -/
def countRefresh (o : Od) (q t : Nat) (d : Dev) : Dev :=
  match bridgeOf q with
  | none => d
  | some k =>
    let p := vget d.pwm.pairs q
    let on := (vget d.bridges k).state == .run && p.live && p.active
    let ok := on && decide (odU o (0x4200 + k) 6 ≤ longestLow p p.start t)
    let n := if !p.active then 0 else if ok then 0 else p.sinceRefresh + 1
    { d with pwm := { d.pwm with pairs := vset d.pwm.pairs q { p with sinceRefresh := n } } }

/-- The refresh that a period makes: RISE in force for it, and the count (R434). -/
def refreshRise (o : Od) (q : Nat) (d : Dev) : Option Nat :=
  match bridgeOf q with
  | none => none
  | some k =>
    let p := vget d.pwm.pairs q
    let n := odU o (0x4200 + k) 5
    let due := p.refreshOwed || (2 ≤ n && n - 1 ≤ p.sinceRefresh)
    if due && pairMode o q == 0 && (vget d.bridges k).state == .run && p.live && !pairForced o d q then
      some (16 * (deadFall o q + odU o (0x4200 + k) 6))
    else none

/-- Record what the placing of a period found. -/
def recordPlacing (o : Od) (q : Nat) (s : Placing) (d : Dev) : Dev :=
  let d1 := forEach s.filtered (fun f d => recordFiltered o q f d) d
  forEach s.shoot (fun m d => recordAt o m.1 0x3004 (0x300 + q) ([b8 q, if m.2.1 then 1 else 0, 0, 0] ++ toLE 4 m.2.2) d) d1

/-- Tell the followers of pair q that it starts a period at `t` (R409). -/
def tellFollowers (o : Od) (q t : Nat) (d : Dev) : Dev :=
  let fs := (List.range 20).filter (fun r => r != q && masterOf o r == some q && (vget d.pwm.pairs r).enabled)
  { d with pwm := { d.pwm with pairs := fs.foldl (fun v r => vmod v r (fun p => { p with next := some (t + pairPhase o r) })) d.pwm.pairs } }

/-- An axis whose forcing has been released resumes with its U pair: RECATCH after RECATCH_DELAY (R428, R460). -/
def axisResume (o : Od) (q t : Nat) (d : Dev) : Dev :=
  forEach ((List.range 6).filter (fun n => axisPair n = q)) (fun n d =>
    let a := vget d.axes n
    if a.forcedHeld && !(axisPairs n).any (pairForced o d) then
      { d with axes := vset d.axes n { a with
        forcedHeld := false
        delayFrom := if a.state == .blocked && !a.stoHeld && !a.hardHeld then some t else a.delayFrom } }
    else d) d

/-- Pair q starts a period at `t` (R409 to R414, R428, R434). -/
def periodStart (o : Od) (q t : Nat) (d0 : Dev) : Dev :=
  let d1 := bridgeResume o q t (countRefresh o q t (cutoffAt o q t d0))
  let p := vget d1.pwm.pairs q
  let first := !p.active
  -- values that take effect (R410); a follower uses its master's period
  let v0 := p.fixed.onto p.force
  let v1 := match masterOf o q with
    | some m => { v0 with period := (vget d1.pwm.pairs m).force.period }
    | none => v0
  let (v, clamps) := clampVals (if (masterOf o q).isSome then 0 else odU o (0x4000 + q) 7) v1
  let j := if first then 0 else p.j + 1
  -- resume under R428, and the forcing that still holds the outputs off
  let forced := pairForced o d1 q
  let live := !forced && (p.live || p.resumeFrom ≤ t)
  let p1 := { p with
    active := true, start := t, j := j, fixed := {}, force := v, live := live
    flags := if clamps.isEmpty then p.flags else setBit p.flags 2
    next := if (masterOf o q).isSome then none else some (t + v.period)
    pulses := p.pulses.filter (fun x => t < x.off) }
  let d2 := bridgeActive q { d1 with pwm := { d1.pwm with pairs := vset d1.pwm.pairs q p1 } }
  let d3 := forEach clamps (fun c d => recordAt o t 0x3007 (0x300 + q) ([b8 q, b8 c.1, 0, 0] ++ toLE 4 c.2) d) d2
  -- edges
  let refresh := refreshRise o q d3
  let dither := odU o (0x4000 + q) 0x0A == 1
  let tick (e : Nat) : Nat := t + edgeTick dither j e
  let rise := match refresh with | some r => if v.riseH < r then r else v.riseH | none => v.riseH
  let c := placeCfg o q t
  let e := t + v.period
  let s := if !live then { p := p1 }
    else if pairMode o q = 1 then placeIndependent c t e (tick v.riseH) (tick v.fallH) (tick v.riseL) (tick v.fallL) p1
    else placeComplementary c t e (tick rise) (tick v.fallH) p1
  let d4 := { d3 with
    pwm := { d3.pwm with pairs := vset d3.pwm.pairs q { s.p with refreshOwed := if refresh.isSome then false else s.p.refreshOwed } }
    bridges := match bridgeOf q, refresh with
      | some k, some _ => vmod d3.bridges k (fun b => { b with refreshCount := wrapInc b.refreshCount })
      | _, _ => d3.bridges }
  axisResume o q t (tellFollowers o q t (recordPlacing o q s d4))

/-- The inputs of bridge k as its pair drives them. -/
def bridgeInputs (o : Od) (d : Dev) (k : Nat) : Bool × Bool := (pwmPin o d (28 + 2 * k), pwmPin o d (29 + 2 * k))

/-- GHk and GLk, driven on (R431, R433). -/
def bridgeGates (o : Od) (d : Dev) (k : Nat) : Bool × Bool :=
  let b := vget d.bridges k
  gatesOf (b.state == .run && b.shootFrom.isNone) (bridgeInputs o d k)

/-- The interlock of the pair's bridge at its period start `t`; `seen` are the inputs where they are not what the pair drives (R433). -/
def periodInterlock (o : Od) (q t : Nat) (seen : Option (Bool × Bool)) (d : Dev) : Dev :=
  match bridgeOf q with
  | none => d
  | some k => interlock o k t (seen.getD (bridgeInputs o d k)) d

/-! ### Bridges (R437 to R444) -/

/-- A fault of kinds 0x01 to 0x04 on a bridge in RUN; `mask` has bit (kind − 1) per kind detected in the tick (R438, R440). -/
def bridgeFault (o : Od) (k mask : Nat) (d : Dev) : Dev :=
  let b := vget d.bridges k
  let kinds := setBits 4 mask
  match kinds with
  | [] => d
  | low :: _ =>
    if b.state != .run then d
    else interlocksLeave o <|
      let left := retriesLeft o d k
      let b1 := { b with
        lastFault := low + 1, faultKind := low + 1, faultTime := d.clk.dt, faultCount := satInc b.faultCount
        flags := kinds.foldl (fun f i => setBit f (kindFlag (i + 1))) b.flags }
      if left = 0 then
        let d1 := pronghorn o { d with bridges := vset d.bridges k { b1 with state := .lockout } }
        let d2 := record o 0x3101 (0x380 + k) [b8 k, b8 (low + 1), b8 mask, 0, 1] d1
        record o 0x3103 (0x380 + k) [b8 k, b8 (low + 1), b8 (retriesUsed o d k)] d2
      else
        let d1 := pronghorn o { d with bridges := vset d.bridges k { b1 with state := .retryWait, retries := b.retries ++ [d.clk.dt] } }
        record o 0x3101 (0x380 + k)
          [b8 k, b8 (low + 1), b8 mask, b8 (left - 1), if bridgeRaises o d1 k then 1 else 0] d1

/-- Put every bridge into SUPPLY_HOLD with kind 0x06 or 0x07 (R439, R443); a self-test in progress ends with ABORTED and is recorded (R444). -/
def bridgesHold (o : Od) (kind : Nat) (d : Dev) : Dev :=
  let tests := (List.range 6).filter (fun k => (vget d.bridges k).state == .selfTest)
  let d1 := pronghorn o { d with bridges := d.bridges.map (bridgeHold kind) }
  interlocksLeave o (forEach tests (fun k => record o 0x3106 (0x380 + k) [b8 k, 0, 0, 0x80]) d1)

/-- Bridges in RUN, bit k. -/
def bridgesRunning (d : Dev) : Nat := bitsOf 6 (fun k => (vget d.bridges k).state == .run)

/-- VDRV is lost (R443, R446, Table 4.5). -/
def vdrvLost (o : Od) (d : Dev) : Dev :=
  if d.isOn .drv then bridgesHold o 6 (record o 0x3107 0x386 [1, b8 (bridgesRunning d)] d) else d

/-- VDRV is in range again (R443). -/
def vdrvRestored (o : Od) (d : Dev) : Dev := if d.isOn .drv then record o 0x3107 0x386 [0, b8 (bridgesRunning d)] d else d

/-- The HV die latches at thermal shutdown (R382, R437). -/
def hvLatch (o : Od) (d : Dev) : Dev :=
  let d1 := { d with hvLatched := true }
  if d1.isOn .drv then bridgesHold o 7 d1 else d1

/-- VDRV has been in range for 1 ms and the HV die is not latched: the bridges leave SUPPLY_HOLD (R443). -/
def supplyHoldRelease (o : Od) (d : Dev) : Dev :=
  if !vget d.rails.ok 8 || d.hvLatched || decide (d.clk.run < d.rails.vdrvSince + msT 1) then d
  else
    pronghorn o { d with bridges := (List.range 6).foldl (fun v k => vmod v k (fun b =>
      if b.state != .supplyHold || b.resumeFrom.isSome then b
      else if b.wasLockout then { b with state := .lockout, wasLockout := false }
      else if !(vget d.pwm.pairs (14 + k)).active then { b with state := .off }
      else { b with resumeFrom := some (d.clk.dt + 800) })) d.bridges }

/-- BRIDGE_STATUS (0x4200:03): VDRV_UV and THERMAL; the comparator conditions end with the turn-off they cause. -/
def bridgeStatus (d : Dev) : Nat := bitIf 5 (!vget d.rails.ok 8) + bitIf 6 d.hvLatched

def BridgeState.code : BridgeState → Nat
  | .off => 0 | .run => 1 | .retryWait => 2 | .lockout => 3 | .selfTest => 4 | .supplyHold => 5

end Sys2Proof.Machine
end

