-- ==== Sys2Proof/Machine/SafetyOps.lean ====
section
/-! DEFINITION. The safety island: demands, twin frames, speed monitor, SS1, test pulses, check value (chapter 21).
Its intervals run on the island's clock, which the model takes as the tick count `clk.run` (log entry 2). -/
namespace Sys2Proof.Machine

def pairEnabled (o : Od) (n : Nat) : Bool := odU o (0x5010 + n) 7 == 1
def fbDelay (o : Od) : Nat := usT (odU o 0x5000 8)
def connIx (c : Nat) : Nat := 0x5800 + c
def connEnabled (o : Od) (c : Nat) : Bool := odU o (connIx c) 1 == 1
def connMaps (o : Od) (c n : Nat) : Bool := (odU o (connIx c) 2).testBit n

def maskOf (l : List Nat) : Nat := l.foldl (fun m n => m ||| 2 ^ n) 0

/-- Change one pair of the island. -/
def onPair (n : Nat) (f : StoPair → StoPair) (d : Dev) : Dev := { d with isl := { d.isl with pairs := vmod d.isl.pairs n f } }

/-- Change one connection of the island. -/
def onConn (c : Nat) (f : Conn → Conn) (d : Dev) : Dev := { d with isl := { d.isl with conns := vmod d.isl.conns c f } }

/-- Drive an output, noting the instant of a change. -/
def drive (t : Nat) (level : Bool) (x : StoOut) : StoOut := if x.level == level then x else { x with level := level, changed := t }

/-- A test pulse is in progress, or FB_DELAY after it has not passed (R478). -/
def pulseOpen (o : Od) (t : Nat) (x : StoOut) : Bool :=
  match x.pulse with
  | none => false
  | some (_, none) => true
  | some (_, some e) => decide (t ≤ e + fbDelay o)

/-- SS1 of axis n ends: the request line falls and SS1_ENDED is recorded (R485). -/
def ss1End (o : Od) (n how : Nat) (d : Dev) : Dev :=
  let m := vget d.isl.speed n
  match m.ss1 with
  | none => d
  | some (t, _) =>
    record o 0x5008 (srcAxis n) ([0, b8 how, 0, 0] ++ s32 m.speed ++ toLE 4 ((d.clk.run - t) / msT 1))
      { d with
        isl := { d.isl with speed := vset d.isl.speed n { m with ss1 := none } }
        axes := vmod d.axes n (fun a => { a with ss1Line := false }) }

/-- A demand (R476, R478, R488): the named enabled pairs go OFF, the cause is latched and STO_DEMAND recorded once;
SS1 on them ends, their axes are BLOCKED and source 55 rises. -/
def stoDemand (o : Od) (cause mask : Nat) (d : Dev) : Dev :=
  let ns := (setBits 4 mask).filter (pairEnabled o)
  if ns.isEmpty then d
  else
    let t := d.clk.run
    let hit (n : Nat) : Bool := let p := vget d.isl.pairs n; pulseOpen o t p.a || pulseOpen o t p.b
    let discarded := ns.filter hit
    let d1 := forEach ns (fun n => onPair n (fun p => { p with
      state := if p.state == .permit then .off else p.state
      causes := setBit p.causes (cause - 1)
      a := { drive t false p.a with pulse := none }
      b := { drive t false p.b with pulse := none }
      demand := some (t, cause)
      discarded := if hit n then satInc p.discarded else p.discarded })) d
    let d2 := record o 0x5001 0x540 [b8 (maskOf ns), b8 cause, if discarded.isEmpty then 0 else 1] d1
    let d3 := if cause = 2 ∨ cause = 3 then d2 else forEach ns (fun n => ss1End o n 4) d2
    pronghorn o (forEach ns (fun n => axisSto o n) d3)

/-- SS1 of axis n starts (R485, R460). -/
def ss1Start (o : Od) (n how : Nat) (d : Dev) : Dev :=
  let m := vget d.isl.speed n
  if m.ss1.isSome || (vget d.isl.pairs n).state != .permit then d
  else
    let v0 := match m.lastValid with
      | some (t, v) => if d.clk.run ≤ t + msT 100 then some v else none
      | none => none
    let d1 := record o 0x5007 (srcAxis n)
      ([0, b8 how, 0, 0] ++ (match v0 with | some v => s32 v | none => toLE 4 0x7FFFFFFF))
      { d with
        isl := { d.isl with speed := vset d.isl.speed n { m with ss1 := some (d.clk.run, v0) } }
        axes := vmod d.axes n (fun a => { a with ss1Line := true }) }
    axisDecel o n 0x08 d1

def ConnState.code : ConnState → Nat
  | .disabled => 0 | .waiting => 1 | .run => 2 | .fault => 3

/-- A connection changes state and CONN_STATE is recorded (R482). -/
def connTo (o : Od) (c : Nat) (st : ConnState) (cause : Nat) (d : Dev) : Dev :=
  let k := vget d.isl.conns c
  record o 0x5006 (0x520 + c) ([b8 k.state.code, b8 st.code, b8 cause, 0] ++ toLE 2 k.lastSeq)
    (onConn c (fun k => { k with state := st }) d)

/-- A connection goes to FAULT and FAIL_ACTION applies to every mapped pair in PERMIT (R482). -/
def connFault (o : Od) (c cause : Nat) (d : Dev) : Dev :=
  let k := vget d.isl.conns c
  let d1 := onConn c (fun k => { k with faultCause := cause }) (if k.state == .fault then d else connTo o c .fault cause d)
  let ns := (List.range 4).filter (fun n => connMaps o c n && (vget d.isl.pairs n).state == .permit)
  if odU o (connIx c) 8 = 0 then stoDemand o cause (maskOf ns) d1
  else forEach ns (fun n => ss1Start o n 2) d1

/-- Held causes that keep pair n OFF, ascending (Table 21.1). -/
def heldCauses (o : Od) (d : Dev) (n : Nat) : List Nat :=
  let conn (cause : Nat) : Bool := (List.range 32).any (fun c =>
    connEnabled o c && connMaps o c n && (vget d.isl.conns c).state == .fault && (vget d.isl.conns c).faultCause == cause)
  (if conn 4 then [4] else []) ++ (if conn 5 then [5] else []) ++
  (if d.isl.ccv != odU o 0x5000 3 then [6] else []) ++
  (if (vget d.isl.pairs n).state == .fault then [7] else []) ++
  (if d.isl.timebaseHold != 0 then [8] else []) ++ (if d.isl.debugHold then [9] else []) ++
  (if d.isl.scanHold then [0xA] else []) ++ (if d.isl.vio33Hold then [0xB] else []) ++ (if d.isl.failHold then [0xC] else [])

/-- HELD_CAUSES (0x5000:04). -/
def heldDeviceWide (o : Od) (d : Dev) : Nat :=
  bitIf 5 (d.isl.ccv != odU o 0x5000 3) + bitIf 7 (d.isl.timebaseHold != 0) + bitIf 8 d.isl.debugHold +
  bitIf 9 d.isl.scanHold + bitIf 10 d.isl.vio33Hold + bitIf 11 d.isl.failHold

/-- The cause of a demand on pair n in the present island cycle of 10 ns, which wins over a restart (R488). -/
def demandNow (d : Dev) (n : Nat) : List Nat :=
  match (vget d.isl.pairs n).demand with
  | some (t, cause) => if t / 8 = d.clk.run / 8 then [cause] else []
  | none => []

/-- The first condition of R486 that refuses a restart of pair n. -/
def restartRefusal (o : Od) (d : Dev) (n : Nat) : Option Nat :=
  let cs := (List.range 32).filter (fun c => connEnabled o c && connMaps o c n)
  let cmd (c : Nat) : Nat := ((vget d.isl.conns c).command).getD 0
  if cs.any (fun c => (vget d.isl.conns c).state != .run) then some 0x20
  else if cs.any (fun c => !(cmd c).testBit n || !(cmd c).testBit (4 + n)) then some 0x21
  else if !pairEnabled o n || (vget d.isl.pairs n).state != .off then some 0x22
  else match demandNow d n ++ heldCauses o d n with
    | h :: _ => some h
    | [] => if d.isl.state != .operational then some 0x23 else none

/-- Pair n enters PERMIT (R486): the only way an STO output leaves its off level. -/
def stoPermit (n : Nat) (d : Dev) : Dev :=
  onPair n (fun p => { p with
    state := .permit, causes := 0, permitAt := d.clk.run
    a := { drive d.clk.run true p.a with pulses := 0, pulse := none }
    b := { drive d.clk.run true p.b with pulses := 0, pulse := none } }) d

/-- An accepted pair of copies acts on its mapped pairs (R482, R486, R488). -/
def acceptPair (o : Od) (c : Nat) (pdu mac : Bytes) (d : Dev) : Dev :=
  let k := vget d.isl.conns c
  let seq := leAt pdu 2 2
  let cmd := leAt pdu 4 2
  let prev := k.command
  let d0 := onConn c (fun k => { k with
    lastSeq := seq, command := some cmd, lastAccept := d.clk.run, statusDue := some (seq, mac) }) d
  let d1 := if k.state == .run then d0 else connTo o c .run 1 d0
  let inPermit := (List.range 4).filter (fun n => connMaps o c n && (vget d.isl.pairs n).state == .permit)
  let stop := inPermit.filter (fun n => !cmd.testBit n)
  let slow := inPermit.filter (fun n => cmd.testBit n && !cmd.testBit (4 + n))
  let d2 := forEach slow (fun n => ss1Start o n 1) (stoDemand o 1 (maskOf stop) d1)
  let ask := (List.range 4).filter (fun n => connMaps o c n && cmd.testBit (8 + n) &&
    (match prev with | some p => !p.testBit (8 + n) | none => false))
  let bad := ask.filterMap (fun n => (restartRefusal o d2 n).map (fun r => (n, r)))
  let good := ask.filter (fun n => (restartRefusal o d2 n).isNone)
  let d3 := forEach bad (fun x => record o 0x5003 (0x500 + x.1) [b8 x.1, b8 x.2]) d2
  if good.isEmpty then d3
  else pronghorn o (record o 0x5002 0x540 [b8 (maskOf good), b8 c] (forEach good stoPermit d3))

/-- Checks 1 to 3 of R480. `via` is the controller and COB-ID, or the MAC, on which the copy came. -/
def copyChecks (o : Od) (eth : Bool) (port cobId : Nat) (pdu : Bytes) : Bool :=
  let c := leAt pdu 0 1
  pdu.length == 24 && leAt pdu 1 1 == 1 && leAt pdu 6 2 == 0 && bitField (leAt pdu 4 2) 12 4 == 0
    && leAt pdu 20 4 == crc32c (pdu.take 20)
    && decide (c < 32) && connEnabled o c
    && (if eth then odU o (connIx c) 5 == port
        else bitField (odU o (connIx c) 4) 0 11 == cobId && bitField (odU o (connIx c) 4) 16 1 == port)
    && leAt pdu 8 4 == odU o (connIx c) 3 && leAt pdu 16 4 == Config.serial.toNat % 2 ^ 32

/-- A copy of a safety PDU reaches the island (R480, R481). -/
def copyArrival (o : Od) (eth : Bool) (port cobId : Nat) (mac pdu : Bytes) (d : Dev) : Dev :=
  let c := leAt pdu 0 1
  if !copyChecks o eth port cobId pdu then
    if c < 32 then onConn c (fun k => { k with crcErrors := satInc k.crcErrors }) d else d
  else if leAt pdu 12 4 != odU o 0x5000 3 then connFault o c 5 d
  else
    let k := vget d.isl.conns c
    let seq := leAt pdu 2 2
    let t := d.clk.run
    let w := usT (odU o (connIx c) 6)
    -- copies whose window has expired are lone (R481)
    let live := k.held.filter (fun h => t ≤ h.at_ + w)
    let k1 := { k with held := live, lone := satAdd 32 k.lone (k.held.length - live.length) }
    let put (k : Conn) (d : Dev) : Dev := onConn c (fun _ => k) d
    let stale (k : Conn) : Conn := { k with stale := satInc k.stale }
    let same (h : HeldCopy) : Bool := leAt h.pdu 2 2 == seq
    if (k.state == .run && k.lastSeq == seq) || live.any (fun h => same h && h.eth == eth) then put (stale k1) d
    else match live.find? (fun h => same h && h.eth != eth) with
      | none =>
        let room := if live.length < 4 then live else live.drop 1
        put { k1 with held := room ++ [⟨eth, t, mac, pdu⟩] } d
      | some h =>
        let k2 := { k1 with held := live.filter (fun x => !(same x)) }
        if h.pdu != pdu then connFault o c 5 (put k2 d)
        else
          let step := (seq + 65536 - k.lastSeq) % 65536
          let ok := k.state != .run || (1 ≤ step && step ≤ odU o (connIx c) 9)
          if ok then acceptPair o c pdu (if eth then mac else h.mac) (put k2 d) else put (stale k2) d

/-- The status PDU of R483. -/
def statusPdu (o : Od) (d : Dev) (c seq : Nat) : Bytes :=
  let bits (f : Nat → Bool) : Nat := bitsOf 4 f
  let cmd := bits (fun n => (vget d.isl.pairs n).state == .fault) * 256
    + bits (fun n => (vget d.isl.speed n).ss1.isSome) * 16 + bits (fun n => (vget d.isl.pairs n).state == .permit)
  let body := [b8 c, 1] ++ toLE 2 seq ++ toLE 2 cmd ++ [0, 0] ++ toLE 4 (Config.serial.toNat % 2 ^ 32)
    ++ toLE 4 d.isl.ccv ++ toLE 4 (odU o (connIx c) 3)
  body ++ toLE 4 (crc32c body)

/-- Send the owed status PDU on both networks (R483). -/
def statusSend (o : Od) (c : Nat) (d : Dev) : Dev :=
  match (vget d.isl.conns c).statusDue with
  | none => d
  | some (seq, mac) =>
    let pdu := statusPdu o d c seq
    let cob := odU o (connIx c) 0x0F
    let sent : List Output := [.can (bitField cob 16 1) (bitField cob 0 11) pdu, .eth (odU o (connIx c) 5) mac ([2, 1, 0, 0] ++ pdu)]
    onConn c (fun k => { k with statusDue := none }) { d with out := d.out ++ wired sent d }

/-- Copies whose COMPARE_WINDOW has passed are discarded as lone (R481). -/
def windowExpiry (o : Od) (c : Nat) (d : Dev) : Dev :=
  onConn c (fun k =>
    let live := k.held.filter (fun h => d.clk.run ≤ h.at_ + usT (odU o (connIx c) 6))
    { k with held := live, lone := satAdd 32 k.lone (k.held.length - live.length) }) d

/-- Objects over which CCV_COMPUTED runs, ascending (R489). -/
def ccvObjects : List (Nat × Nat) :=
  let ixs := [0x5000] ++ (List.range 4).map (0x5010 + ·) ++ (List.range 4).map (0x5020 + ·) ++ (List.range 32).map (0x5800 + ·)
  ixs.flatMap (fun ix => ((List.range 16).filter (fun sub =>
    !(ix == 0x5000 && sub == 3) && (match odRow ix sub with | some r => r.acc == .rwC | none => false))).map (fun sub => (ix, sub)))

/-- CCV_COMPUTED of the present objects (R489). -/
def ccvOf (o : Od) : Nat := crc32c (ccvObjects.flatMap (fun p => toLE 2 p.1 ++ [b8 p.2] ++ odGet o p.1 p.2))

/-- SAFE_STATE from the self-test and the check value (R473, R490). -/
def islandStateOf (o : Od) (i : Island) : IslandState :=
  if i.failHold then .failed else if i.ccv = odU o 0x5000 3 then .operational else .notConfirmed

/-- CCV_STATE (R492). -/
def ccvRecord (o : Od) (ccv : Nat) (d : Dev) : Dev :=
  record o 0x5009 0x540 ([if ccv = odU o 0x5000 3 then 1 else 0, 0, 0, 0] ++ toLE 4 ccv ++ toLE 4 (odU o 0x5000 3)) d

/-- Take a new CCV_COMPUTED, or a new CCV_CONFIRMED in `o`: SAFE_STATE, CCV_STATE and cause 0x06 follow (R490). -/
def ccvTake (o : Od) (ccv : Nat) (d : Dev) : Dev :=
  let same := decide (ccv = odU o 0x5000 3)
  let i := { d.isl with ccv := ccv, ccvSame := same }
  let d1 := { d with isl := { i with state := islandStateOf o i } }
  if same == d.isl.ccvSame then d1
  else
    let d2 := ccvRecord o ccv d1
    if same then d2 else stoDemand o 6 15 d2

/-- One feedback comparison of one output (R475, R477): the new output, and a fault where it is at least the third unequal
one in a row, or falls to a test pulse. -/
def compareOut (o : Od) (t : Nat) (fb : Bool) (x : StoOut) : StoOut × Bool :=
  if t < x.changed + fbDelay o then (x, false)
  else if fb == x.level then ({ x with unequal := 0 }, false)
  else ({ x with unequal := x.unequal + 1 }, decide (3 ≤ x.unequal + 1) || pulseOpen o t x)

/-- A passed pulse: its FB_DELAY is over and no comparison failed (R477). -/
def judgePulse (o : Od) (t : Nat) (x : StoOut) : StoOut × Bool :=
  match x.pulse with
  | some (_, some e) => if e + fbDelay o ≤ t then ({ x with pulse := none }, true) else (x, false)
  | _ => (x, false)

/-- The pair goes to FAULT with cause 0x07 (R475, R477). A failed test is none that the demand discards. -/
def pairFault (o : Od) (n : Nat) (isB fb : Bool) (d : Dev) : Dev :=
  let p := vget d.isl.pairs n
  let x := if isB then p.b else p.a
  let kind := if pulseOpen o d.clk.run x then 2 else 1
  if p.state == .fault then d
  else
    let d1 := record o 0x5004 (0x500 + n)
      [b8 n, b8 kind, if isB then 1 else 0, if x.level then 1 else 0, if fb then 1 else 0]
      (onPair n (fun p => { p with
        state := .fault, lastFault := kind
        a := if isB then p.a else { p.a with pulse := none }
        b := if isB then { p.b with pulse := none } else p.b }) d)
    stoDemand o 7 (2 ^ n) d1

/-- The 10 µs comparison of every enabled pair with the feedback levels (R475, R477). -/
def feedbackCheck (o : Od) (fbA fbB : Nat) (d : Dev) : Dev :=
  forEach ((List.range 4).filter (pairEnabled o)) (fun n d =>
    let p := vget d.isl.pairs n
    let t := d.clk.run
    let (a1, fa) := compareOut o t (fbA.testBit n) p.a
    let (b1, fb) := compareOut o t (fbB.testBit n) p.b
    let d1 := onPair n (fun p => { p with a := a1, b := b1 }) d
    if fa then pairFault o n false (fbA.testBit n) d1
    else if fb then pairFault o n true (fbB.testBit n) d1
    else
      let (a2, pa) := judgePulse o t a1
      let (b2, pb) := judgePulse o t b1
      onPair n (fun p => { p with
        a := a2, b := b2, passed := (p.passed + (if pa then 1 else 0) + (if pb then 1 else 0)) % 2 ^ 32 }) d1) d

/-- Instant of the next test pulse on an output (R477): A at t_r + k·INTERVAL, B half an interval later. -/
def pulseDue (o : Od) (p : StoPair) (isB : Bool) : Nat :=
  let i := msT (odU o 0x5000 6)
  if isB then p.permitAt + (2 * (p.b.pulses + 1) + 1) * i / 2 else p.permitAt + (p.a.pulses + 1) * i

/-- A test pulse begins (R477). -/
def pulseStart (o : Od) (n : Nat) (isB : Bool) (d : Dev) : Dev :=
  let p := vget d.isl.pairs n
  let other := if isB then p.a else p.b
  if p.state != .permit || decide (d.clk.run < pulseDue o p isB) || (match other.pulse with | some (_, none) => true | _ => false) then d
  else
    let go (x : StoOut) : StoOut := { drive d.clk.run false x with pulse := some (d.clk.run, none), pulses := x.pulses + 1 }
    onPair n (fun p => if isB then { p with b := go p.b } else { p with a := go p.a }) d

/-- TP_WIDTH has elapsed: the output returns high; once FB_DELAY more has passed the pulse is judged (R477). -/
def pulseEnd (o : Od) (n : Nat) (isB : Bool) (d : Dev) : Dev :=
  let p := vget d.isl.pairs n
  let x := if isB then p.b else p.a
  match x.pulse with
  | some (s, none) =>
    if d.clk.run < s + usT (odU o 0x5000 7) then d
    else
      let go (x : StoOut) : StoOut := { drive d.clk.run true x with pulse := some (s, some d.clk.run) }
      onPair n (fun p => if isB then { p with b := go p.b } else { p with a := go p.a }) d
  | some (_, some _) =>
    let (x1, pass) := judgePulse o d.clk.run x
    onPair n (fun p =>
      let p1 := if isB then { p with b := x1 } else { p with a := x1 }
      { p1 with passed := (p1.passed + (if pass then 1 else 0)) % 2 ^ 32 }) d
  | none => d

/-- α and β of a sample pair of raw currents (R472, R484). -/
def currentVector (o : Od) (n : Nat) (uv : Int × Int) : Rat × Rat :=
  let k := odF o (0x5020 + n) 2
  let iu : Rat := uv.1 * k
  let iv : Rat := uv.2 * k
  (iu, (iu + 2 * iv) / sqrt3F)

/-- The reading of a 1 ms window: SAFE_SPEED, validity, least current, last angle (R484). -/
def speedWindow (o : Od) (n : Nat) (samples : List (Int × Int)) (m : SpeedMon) : SpeedMon :=
  let vs := samples.map (currentVector o n)
  let sq (v : Rat × Rat) : Rat := v.1 * v.1 + v.2 * v.2
  let least := match vs with | [] => 0 | v :: r => r.foldl (fun x y => if sq y < x then sq y else x) (sq v)
  let imin := odF o (0x5020 + n) 3
  let phis := vs.map (fun v => atan2Turn v.2 v.1)
  let start := match m.lastPhi, phis with | some p, _ => p | none, p :: _ => p | none, [] => 0
  let delta := (phis.foldl (fun (acc : Rat × Rat) p => (acc.1 + wrapTurn (p - acc.2), p)) (0, start)).1
  let valid := !samples.isEmpty && decide (imin * imin ≤ least)
  { m with
    valid := valid, speed := absQ delta * 60000 / (odU o (0x5020 + n) 1 : Rat), current := sqrtQ least
    lastPhi := phis.getLast? }

/-- A speed window of axis n ends and a running SS1 is evaluated (R484, R485). -/
def speedWindowEnd (o : Od) (n : Nat) (samples : List (Int × Int)) (d : Dev) : Dev :=
  let m0 := speedWindow o n samples (vget d.isl.speed n)
  let t := d.clk.run
  let m := if m0.valid then { m0 with lastValid := some (t, m0.speed) } else { m0 with speed := (vget d.isl.speed n).speed }
  let d1 := { d with isl := { d.isl with speed := vset d.isl.speed n m } }
  match m.ss1 with
  | none => d1
  | some (ts, v0) =>
    let stop := odF o (0x5020 + n) 6
    let secs : Rat := ((t - ts : Nat) : Rat) / 800000000
    let envelope := match v0 with
      | some v => let e := v + odF o (0x5020 + n) 5 - odF o (0x5020 + n) 4 * secs
                  some (if e < stop then stop else e)
      | none => none
    let violated := m.valid && (match envelope with | some e => decide (e < m.speed) | none => false)
    if violated then stoDemand o 3 (2 ^ n) (ss1End o n 3 d1)
    else if m.valid && decide (m.speed ≤ stop) then stoDemand o 2 (2 ^ n) (ss1End o n 1 d1)
    else if ts + msT (odU o (0x5020 + n) 7) ≤ t then stoDemand o 2 (2 ^ n) (ss1End o n 2 d1)
    else d1

/-- SS1_TIME_MAX has passed (R485). -/
def ss1TimeLimit (o : Od) (n : Nat) (d : Dev) : Dev :=
  match (vget d.isl.speed n).ss1 with
  | none => d
  | some (ts, _) =>
    if d.clk.run < ts + msT (odU o (0x5020 + n) 7) then d else stoDemand o 2 (2 ^ n) (ss1End o n 2 d)

/-- CONN_TIMEOUT has passed without an accepted pair (R482). -/
def connTimeout (o : Od) (c : Nat) (d : Dev) : Dev :=
  let k := vget d.isl.conns c
  if k.state != .run || decide (d.clk.run < k.lastAccept + msT (odU o (connIx c) 7)) then d
  else connFault o c 4 d

/-- Power-on of SAFE: the island starts afresh, its self-test gives `failed` (bits [4:1] of 0x5000:05) (R473, R476). -/
def islandPowerOn (o : Od) (failed : Nat) (d : Dev) : Dev :=
  let bad := bitField failed 1 4 != 0
  let result := bitField failed 1 4 * 2 + (if bad then 0 else 1)
  let i : Island := {
    result := result, failHold := bad, ccv := ccvOf o, ccvSame := decide (ccvOf o = odU o 0x5000 3)
    debugHold := d.isl.debugHold, scanHold := d.isl.scanHold, vio33Hold := !vget d.rails.ok 5
    conns := Vector.ofFn (fun (c : Fin 32) => ({ state := if connEnabled o c.val then .waiting else .disabled } : Conn)) }
  let d1 := record o 0x500A 0x540 [if bad then 0 else 1, 0, b8 result, 0] { d with isl := { i with state := islandStateOf o i } }
  let d2 := ccvRecord o i.ccv d1
  let causes : List Nat := (if i.ccvSame then [] else [6]) ++ (if i.debugHold then [9] else []) ++
    (if i.scanHold then [0xA] else []) ++ (if i.vio33Hold then [0xB] else []) ++ (if bad then [0xC] else []) ++ [0xD]
  forEach causes (fun c d => stoDemand o c 15 d) d2

/-- STO_ACTIVE (R474): any enabled pair not in PERMIT. -/
def stoActive (o : Od) (d : Dev) : Bool := islandRaises o d

/-- Any STO pair permits torque. -/
def torquePermitted (d : Dev) : Bool := d.isl.pairs.any (fun p => p.state == .permit)

end Sys2Proof.Machine
end

