-- ==== Sys2Proof/Machine/SecOps.lean ====
section
/-! DEFINITION. Fuses and lifecycle, keys, debug, the test access port, commissioning, and firmware images (chapters 5 and 7). -/
namespace Sys2Proof.Machine

def onSec (f : Sec → Sec) (d : Dev) : Dev := { d with sec := f d.sec }
def onNv (f : Nv → Nv) (d : Dev) : Dev := { d with nv := f d.nv }

/-! ### Lifecycle (R145 to R148) -/

def lockBlown (v : Nv) : Bool := v.lockA || v.lockB
def disBlown (v : Nv) : Bool := v.disA || v.disB

/-- The lifecycle state of Table 7.1: 0 OPEN, 1 LOCKED, 2 SEALED. -/
def lifecycleOf (v : Nv) : Nat := if disBlown v then 2 else if lockBlown v then 1 else 0

/-- Fuses whose two cells disagree: bit 0 LCS_LOCK, bit 1 DBG_DIS. -/
def mismatchOf (v : Nv) : Nat := bitIf 0 (v.lockA != v.lockB) + bitIf 1 (v.disA != v.disB)

/-- The fuses are sensed at a power-on of SEC (R146). -/
def senseFuses (o : Od) (d : Dev) : Dev :=
  let m := mismatchOf d.nv
  let d1 := onSec (fun s => { s with lifecycle := lifecycleOf d.nv, mismatch := m }) d
  if m = 0 then d1 else record o 0x030E 0 [b8 m] d1

def keyOf (d : Dev) (slot : Nat) : Option Bytes := vget d.nv.keys slot

/-- Why a lifecycle advance is refused (R147, checks 1 to 4). -/
def advanceRefusal (sealing : Bool) (session : Nat) (d : Dev) : Option Nat :=
  let need := if sealing then [0, 1] else [0, 1, 2]
  if d.sec.holder ≠ some session then some 0x03020000
  else if d.sec.debug != .detached then some 0x03090000
  else if d.sec.lifecycle ≠ (if sealing then 1 else 0) then some 0x03090000
  else (need.find? (fun k => (keyOf d k).isNone)).map (0x03060000 + ·)

/-- Both cells are blown and verified: a cell that fails reads intact. True where the advance completes (R147). -/
def advance (o : Od) (sealing cellA cellB : Bool) (d : Dev) : Bool × Dev :=
  let old := d.sec.lifecycle
  let d1 := onNv (fun v => if sealing then { v with disA := v.disA || cellA, disB := v.disB || cellB }
    else { v with lockA := v.lockA || cellA, lockB := v.lockB || cellB }) d
  let d2 := onSec (fun s => { s with lifecycle := lifecycleOf d1.nv }) d1
  if cellA && cellB then
    (true, record o 0x0309 0 [b8 old, b8 (lifecycleOf d2.nv)]
      (if sealing then onNv (fun v => { v with keys := vset v.keys 2 none }) d2 else d2))
  else (false, d2)

/-! ### Keys (R149, R150) -/

/-- The key check value: the first four bytes of the HMAC over "KCV0", 0 for an empty slot. -/
def kcv (k : Option Bytes) : Nat := match k with
  | some b => leNat ((hmac b (ascii ['K', 'C', 'V', '0'])).take 4)
  | none => 0

/-- Why a key write is refused. -/
def keyRefusal (slot session : Nat) (d : Dev) : Option Nat :=
  if d.sec.holder ≠ some session then some 0x03020000
  else if d.sec.keysHidden then some 0x03030000
  else if slot = 2 ∧ d.sec.lifecycle = 2 then some 0x03090000
  else none

/-- The root of trust keeps the IK in force for every admission in progress; those kept for admissions that have ended go (R150). -/
def keepIks (d : Dev) : Dev :=
  let going := (List.range 128).filter (fun c => (getCell d c).state == .admitting)
  onSec (fun s => { s with iksKept := going.map (fun c =>
    { cell := c, nonce := (getCell d c).nonceD, key := admissionKey d c }) }) d

/-- A key enters its slot. -/
def keyWrite (o : Od) (slot : Nat) (key : Bytes) (d : Dev) : Dev :=
  let d1 := if slot = 1 then keepIks d else d
  record o 0x0308 0 ([b8 slot, 0, 0, 0] ++ toLE 4 (kcv (some key))) (onNv (fun v => { v with keys := vset v.keys slot (some key) }) d1)

/-- IK as the HMAC engine gives it: refused while keys are hidden (R153). -/
def ikInForce (d : Dev) : Option Bytes := if d.sec.keysHidden then none else keyOf d 1

/-! ### Island demands of debug and scan (R153, R154, R157, R330) -/

/-- The island, while SAFE is ON, raises or withdraws the stack-trip source with its demands under R21, R153 and R157. -/
def islandRequester (o : Od) (d : Dev) : Dev :=
  if !d.isOn .safe then d
  else if d.isl.timebaseHold != 0 || d.isl.debugHold || d.isl.scanHold then requesterSet o 1 d else requesterClear o 1 d

/-- The debug strobe reaches the island. -/
def debugStrobe (o : Od) (d : Dev) : Dev :=
  let d1 := { d with isl := { d.isl with debugHold := true } }
  if d.isOn .safe then islandRequester o (stoDemand o 9 15 d1) else d1

/-- The island withdraws its debug demand when DEBUG_STATE is DETACHED and KEYS_HIDDEN is clear (R154). -/
def debugWithdraw (o : Od) (d : Dev) : Dev :=
  if d.isl.debugHold && d.sec.debug == .detached && !d.sec.keysHidden then
    islandRequester o { d with isl := { d.isl with debugHold := false } }
  else d

/-! ### Debug (R152, R153, R159) -/

/-- The debugger gains access (R153). -/
def debugAttach (o : Od) (d : Dev) : Dev :=
  let d1 := onSec (fun s => { s with keysHidden := true, debug := .attached, nonce := none }) d
  let d2 := record o 0x0301 0 [b8 d.sec.lifecycle] (debugStrobe o (commEnd o 3 d1))
  forEach (List.range 128) (fun c d =>
    let x := getCell d c
    if x.state == .admitting then admitFail o c 5 (d.sched.count - 1) x.id d else d) (yieldTo o 1 5 8 0x0301 0 d2)

/-- DEBUG_DETACH with its reason: 0 TAP reset, 1 SEC lost, 2 VIO18 lost; a live nonce lapses with it. -/
def debugDetach (o : Od) (reason : Nat) (d : Dev) : Dev :=
  let was := d.sec.debug
  let d1 := onSec (fun s => { s with debug := if was == .lockout then .lockout else .detached, nonce := none }) d
  if was == .attached then debugWithdraw o (record o 0x0302 0 [b8 reason] d1) else d1

/-- A scan takeover ends (R157). -/
def scanEnd (o : Od) (d : Dev) : Dev :=
  if !d.sec.scan then d
  else
    let d1 := onSec (fun s => { s with scan := false }) (record o 0x030C 0 [b8 d.sec.instr, 1] d)
    islandRequester o { d1 with isl := { d1.isl with scanHold := false } }

/-- A scan takeover starts (R157). -/
def scanStart (o : Od) (instr : Nat) (d : Dev) : Dev :=
  let d1 := record o 0x030C 0 [b8 instr, 0] (onSec (fun s => { s with scan := true, instr := instr }) d)
  let d2 := { d1 with isl := { d1.isl with scanHold := true } }
  if d.isOn .safe then islandRequester o (stoDemand o 0xA 15 d2) else d2

/-- The TAP works while SEC is ON and VIO18 is in range (R156). -/
def tapWorks (d : Dev) : Bool := d.isOn .sec && vget d.rails.ok 4

/-- A TAP reset, or what acts as one (R152, R156, R157). -/
def tapReset (o : Od) (reason : Nat) (d : Dev) : Dev :=
  onSec (fun s => { s with instr := 1 }) (debugDetach o reason (scanEnd o d))

/-- Instructions of the scan takeover. -/
def isScan (instr : Nat) : Bool := 3 ≤ instr && instr ≤ 5

/-- Update-IR (R152, R157, Table 7.4). -/
def updateIr (o : Od) (instr : Nat) (d : Dev) : Dev :=
  if !tapWorks d then d
  else
    let d1 := if d.sec.scan && instr ≠ d.sec.instr then scanEnd o d else d
    let d2 := if isScan instr && !d1.sec.scan then scanStart o instr d1 else onSec (fun s => { s with instr := instr }) d1
    if instr = 0x12 ∧ d2.sec.lifecycle = 0 ∧ d2.sec.debug = .detached then debugAttach o d2 else d2

/-- SERIAL as 8 bytes (R5). -/
def serialBytes : Bytes := toLE 8 Config.serial.toNat

/-- The unlock instructions act: LOCKED, no lockout, and the debugger not attached already (R159, Table 7.7). -/
def unlockOpen (d : Dev) : Bool := tapWorks d && d.sec.lifecycle == 1 && (d.sec.debug == .detached || d.sec.debug == .challenge)

/-- Capture-DR of DBG_CHALLENGE: a fresh nonce, and CHALLENGE (R159). -/
def dbgChallenge (o : Od) (d : Dev) : Dev :=
  if !unlockOpen d then d
  else
    let d1 := updateIr o 0x10 d
    let n := toLE 16 (Config.random16 d1.free).toNat
    let d2 := onSec (fun s => { s with debug := .challenge, nonce := some (n, d1.clk.run, keyOf d1 2) }) d1.fresh
    { d2 with out := d2.out ++ [.tapCapture (n ++ serialBytes)] }

/-- Update-DR of DBG_RESPONSE (R159). -/
def dbgResponse (o : Od) (response : Bytes) (d : Dev) : Dev :=
  if !unlockOpen d then d
  else
    let d1 := updateIr o 0x11 d
    let good := match d1.sec.nonce with
      | some (n, _, some dk) => response == (hmac dk (ascii ['W', 'D', 'B', '1'] ++ serialBytes ++ n)).take 16
      | _ => false
    if good then debugAttach o { d1 with aon := { d1.aon with debugFails := 0 } }
    else
      let n := d1.aon.debugFails + 1
      let d2 := record o 0x0303 0 [b8 n, if d1.sec.nonce.isSome then 0 else 1]
        (onSec (fun s => { s with debug := .detached, nonce := none }) { d1 with aon := { d1.aon with debugFails := n } })
      if n < 3 then d2
      else record o 0x0304 0 ([0, 0, 0, 0] ++ toLE 4 60000)
        (onSec (fun s => { s with debug := .lockout }) { d2 with aon := { d2.aon with debugLockout := some (d2.clk.run + secT 60) } })

/-- The nonce lapses after 10 s (R159). -/
def nonceExpiry (d : Dev) : Dev :=
  match d.sec.nonce with
  | none => d
  | some (_, t, _) =>
    if d.clk.run < t + secT 10 then d
    else onSec (fun s => { s with nonce := none, debug := if s.debug == .challenge then .detached else s.debug }) d

/-- The debug lockout ends (R159). -/
def debugLockoutEnd (o : Od) (d : Dev) : Dev :=
  match d.aon.debugLockout with
  | none => d
  | some t =>
    if d.clk.run < t then d
    else debugWithdraw o (onSec (fun s => { s with debug := if s.debug == .lockout then .detached else s.debug })
      { d with aon := { d.aon with debugLockout := none, debugFails := 0 } })

/-! ### Commissioning (R160 to R162) -/

/-- A fresh nonce for a session: what the challenge answers (R160). -/
def commChallenge (session : Nat) (d : Dev) : Bytes × Dev :=
  let n := toLE 16 (Config.random16 d.free).toNat
  (n ++ serialBytes, onSec (fun s => { s with nonces := vset s.nonces session (some (n, d.clk.run, keyOf d 0)) }) d.fresh)

/-- The key of the exchange is CK; the MAC and the PROOF under it (R160). -/
def commMac (ck : Bytes) (nonceD nonceH : Bytes) (session : Nat) : Bytes :=
  hmac ck (ascii ['W', 'C', 'M', '1'] ++ serialBytes ++ nonceD ++ nonceH ++ [b8 session])
def commProof (ck : Bytes) (nonceD nonceH : Bytes) (session : Nat) : Bytes :=
  hmac ck (ascii ['W', 'C', 'M', '2'] ++ serialBytes ++ nonceH ++ nonceD ++ [b8 session])

/-- Checks 1 to 4 of R161. -/
def commRefusal (session : Nat) (d : Dev) : Option Nat :=
  if d.aon.authLockout.isSome then some 0x03040000
  else match d.sec.holder with
    | some n => if n ≠ session then some (0x03010000 + n) else rest
    | none => rest
where
  rest : Option Nat :=
    if d.sec.keysHidden then some 0x03030000
    else if (vget d.sec.nonces session).isNone then some 0x03050000
    else none

/-- The response is judged (R161, check 5): the nonce is consumed; the abort of a mismatch, or none. -/
def commResponse (o : Od) (session : Nat) (nonceH mac : Bytes) (d : Dev) : Bool × Dev :=
  let (nonceD, ck) := match vget d.sec.nonces session with
    | some (n, _, ck) => (n, ck)
    | none => ([], keyOf d 0)
  let good := match ck with
    | some k => mac == commMac k nonceD nonceH session
    | none => d.sec.lifecycle == 0 && mac == List.replicate 32 0
  let d1 := onSec (fun s => { s with nonces := vset s.nonces session none }) d
  if good then
    let proof := match ck with
      | some k => commProof k nonceD nonceH session
      | none => List.replicate 32 0
    (true, record o 0x0305 (srcSession session) [if ck.isNone then 1 else 0]
      (onSec (fun s => { s with holder := some session, proof := proof }) { d1 with aon := { d1.aon with authFails := 0 } }))
  else
    let n := d1.aon.authFails + 1
    let d2 := { d1 with aon := { d1.aon with
      authFails := n
      authLockout := if n = 5 then some (d1.clk.run + secT 60) else d1.aon.authLockout } }
    (false, record o 0x0307 (srcSession session) [b8 n] d2)

/-- COMM_STATUS (0x2320:05). -/
def commStatus (d : Dev) : Nat :=
  bitIf 15 d.sec.holder.isSome + bitIf 14 d.aon.authLockout.isSome + (d.sec.holder.getD 0)

/-- COMM_TIMEOUT without a request of the holding session (R162). -/
def commTimeout (o : Od) (d : Dev) : Dev :=
  match d.sec.holder with
  | none => d
  | some n => if d.clk.run < (getSession d n).lastRequest + secT (odU o 0x2320 6) then d else commEnd o 2 d

/-- A session's nonce lapses after 10 s (R160). -/
def commNonceExpiry (session : Nat) (d : Dev) : Dev :=
  match vget d.sec.nonces session with
  | none => d
  | some (_, t, _) => if d.clk.run < t + secT 10 then d else onSec (fun s => { s with nonces := vset s.nonces session none }) d

/-- The authentication lockout ends (R161). -/
def commLockoutEnd (d : Dev) : Dev :=
  match d.aon.authLockout with
  | none => d
  | some t => if d.clk.run < t then d else { d with aon := { d.aon with authLockout := none, authFails := 0 } }

/-! ### Images (R114, R163 to R165) -/

/-- The copy of the boot block that a write replaces: not the valid one with the greater store counter (R115, in the manner of R37). -/
def Nv.bootTarget (v : Nv) : Fin 2 :=
  let a := vget v.boots 0
  let b := vget v.boots 1
  if a.valid && (!b.valid || decide (b.counter ≤ a.counter)) then 1 else 0

/-- The boot block in force: defaults where neither copy is valid. -/
def Nv.boot (v : Nv) : BootCopy :=
  let x := vget v.boots (1 - v.bootTarget.val)
  if x.valid then x else {}

/-- A write of the boot block: the other copy, with the next store counter. -/
def Nv.setBoot (f : BootCopy → BootCopy) (v : Nv) : Nv :=
  { v with boots := vset v.boots v.bootTarget.val { f v.boot with counter := v.boot.counter + 1, valid := true } }

def imageData (d : Dev) (i : Nat) : Bytes := (vget d.nv.images i).data
def headerU (b : Bytes) (off len : Nat) : Nat := leAt b off len

/-- The sections, in core order, tile 0x200 to IMAGE_LENGTH. -/
def sectionsTile (b : Bytes) : Bool :=
  let e := (List.range 4).foldl (fun (acc : Option Nat) n => match acc with
    | none => none
    | some at_ => if headerU b (0x20 + 8 * n) 4 = at_ then some (at_ + headerU b (0x24 + 8 * n) 4) else none) (some 0x200)
  e == some (headerU b 0x10 4)

/-- A range of the header holds zeros. -/
def zeroAt (b : Bytes) (off len : Nat) : Bool := (slice b off len).all (· == 0)

/-- The header of Table 7.6 is well formed (R163). -/
def headerOk (b : Bytes) : Bool :=
  let len := headerU b 0x10 4
  0x200 ≤ b.length && headerU b 0 4 == 0x58464257 && headerU b 4 2 == 1 && headerU b 6 2 == 0 && headerU b 0xC 1 ≤ 32
    && zeroAt b 0xD 3 && 0x200 ≤ len && len ≤ 1572864 && len ≤ b.length && zeroAt b 0x14 12 && zeroAt b 0x40 64
    && zeroAt b 0x140 192 && sectionsTile b

/-- The section of a core matches the digest that the header holds for it. -/
def sectionOk (b : Bytes) (n : Nat) : Bool :=
  sha256 (slice b (headerU b (0x20 + 8 * n) 4) (headerU b (0x24 + 8 * n) 4)) == slice b (0x80 + 32 * n) 32

/-- The check of an image's bytes: the status codes of 0x2210:04, 0 valid. -/
def checkBytes (minVersion : Nat) (b : Bytes) : Nat :=
  if !headerOk b then 2
  else if !Config.signatureValid (sha256 (b.take 0x100)) (slice b 0x100 64) then 1
  else if headerU b 0xC 1 < minVersion then 3
  else if !(List.range 4).all (sectionOk b) then 6
  else 0

/-- The check of R114, the boot block's mark first. -/
def checkImage (d : Dev) (i : Nat) : Nat :=
  let x := vget d.nv.images i
  match x.mark with
  | some m => m
  | none => if x.data.isEmpty then 4 else checkBytes d.nv.minVersion x.data

/-- FW_VERSION of an image, 0 where its header is not well formed. -/
def imageVersion (d : Dev) (i : Nat) : Nat := if headerOk (imageData d i) then headerU (imageData d i) 8 4 else 0
def imageSecVersion (d : Dev) (i : Nat) : Nat := headerU (imageData d i) 0xC 1

def setStatus (i st : Nat) (d : Dev) : Dev := onSec (fun s => { s with status := vset s.status i st }) d

/-- Selection of the image (R115), at a power-on of SEC. -/
def selectImage (o : Od) (d0 : Dev) : Dev :=
  let d := onSec (fun s => { s with running := none, fallback := false, hold := false }) d0
  let v := d.nv.boot
  let d1 := if !v.trial then d
    else if v.attempts = 0 then
      record o 0x0207 0 [b8 v.preferred, b8 (1 - v.preferred)]
        (onNv (Nv.setBoot (fun v => { v with preferred := 1 - v.preferred, trial := false })) d)
    else onNv (Nv.setBoot (fun v => { v with attempts := v.attempts - 1 })) d
  let p := d1.nv.boot.preferred
  let q := 1 - p
  let st := checkImage d1 p
  let d2 := setStatus p st d1
  let run (i : Nat) (d : Dev) : Dev :=
    record o 0x0202 0 ([b8 i, b8 d.nv.boot.attempts, 0, 0] ++ toLE 4 (imageVersion d i)) (onSec (fun s => { s with running := some i }) d)
  if st = 0 then run p d2
  else
    let d3 := record o 0x0205 0 [b8 p, b8 st, 0xFF] d2
    let sq := checkImage d3 q
    let d4 := setStatus q sq d3
    if sq = 0 then
      record o 0x0206 0 [b8 q, b8 st] (onSec (fun s => { s with fallback := true }) (onNv (Nv.setBoot (fun v => { v with trial := false })) (run q d4)))
    else
      record o 0x0208 0 [b8 (vget d4.sec.status 0), b8 (vget d4.sec.status 1)] (onSec (fun s => { s with hold := true }) d4)

/-- The running image is the preferred image on trial. -/
def trialRunning (d : Dev) : Bool := d.nv.boot.trial && d.sec.running == some d.nv.boot.preferred

/-- A write of the image load needs commissioning, but not in boot hold or under LOAD_POLICY 1 (R164). -/
def loadAllowed (o : Od) (session : Nat) (d : Dev) : Bool := d.sec.hold || odU o 0x2340 6 == 1 || d.sec.holder == some session

/-- LOAD_BEGIN (R164). -/
def loadBegin (d : Dev) : Dev :=
  let t := if d.sec.hold then d.nv.boot.preferred else match d.sec.running with
    | some r => 1 - r
    | none => d.nv.boot.preferred
  setStatus t 4 (onSec (fun s => { s with load := some t, loadTarget := t })
    (onNv (fun v => { v with images := vset v.images t { data := [], mark := some 4 } }) d))

/-- LOAD_OFFSET. -/
def loadOffset (d : Dev) : Nat := match d.sec.load with
  | some t => (imageData d t).length
  | none => 0

/-- LOAD_DATA: the chunk lands at LOAD_OFFSET. -/
def loadData (chunk : Bytes) (d : Dev) : Dev := match d.sec.load with
  | some t => onNv (fun v => { v with images := vmod v.images t (fun i => { i with data := i.data ++ chunk }) }) d
  | none => d

/-- LOAD_COMMIT: a valid target becomes preferred and is on trial (R164). -/
def loadCommit (o : Od) (d : Dev) : Dev := match d.sec.load with
  | none => d
  | some t =>
    let st := if (imageData d t).isEmpty then 4 else checkBytes d.nv.minVersion (imageData d t)
    let d1 := onSec (fun s => { s with load := none, loadCode := st }) d
    if st = 0 then
      record o 0x030A 0 ([b8 t, 0, 0, 0] ++ toLE 4 (imageVersion d1 t))
        (setStatus t 0 (onNv (fun v => { v.setBoot (fun b => { b with preferred := t, trial := true, attempts := 3 }) with
          images := vmod v.images t (fun i => { i with mark := none }) }) d1))
    else d1

/-- Conditions of SEC_VERSION_RAISE (R165). -/
def raiseAllowed (d : Dev) : Bool := match d.sec.running with
  | some r => r == d.nv.boot.preferred && !d.nv.boot.trial && decide (d.nv.minVersion < imageSecVersion d r)
  | none => false

/-- MIN_SEC_VERSION rises to the running image's SEC_VERSION, and the other image is checked again (R165). -/
def secVersionRaise (o : Od) (d : Dev) : Dev := match d.sec.running with
  | none => d
  | some r =>
    let old := d.nv.minVersion
    let new := imageSecVersion d r
    let d1 := onNv (fun v => { v with minVersion := new }) d
    let st := checkImage d1 (1 - r)
    record o 0x030B 0 [b8 old, b8 new, b8 st] (setStatus (1 - r) st d1)

/-! ### The debug access port (R155) -/

/-- What a debugger may ask of the debug access port: halting or stepping a core, the SRAM of a domain, a region of the MRAM (image,
configuration, checkpoint, persistent log), the key store, the fuse cells, the AMS die. -/
inductive DapAccess where
  | halt (core : Fin 4)
  | step (core : Fin 4)
  | sram (write : Bool) (m : Domain)
  | mram (write : Bool) (region : Fin 4)
  | keyStore
  | fuses
  | amsDie
deriving DecidableEq, Repr, Inhabited

/-- Whether the port has a path for it (R155): only while ATTACHED; no path to MRAM writes, keys, fuses or the AMS die. -/
def dapMay (d : Dev) (a : DapAccess) : Bool := d.sec.debug == .attached && match a with
  | .halt _ | .step _ => true
  | .sram _ m => m != .aon && m != .meas && m != .safe && d.isOn m
  | .mram write _ => !write
  | .keyStore | .fuses | .amsDie => false

end Sys2Proof.Machine
end

