-- ==== Sys2Proof/Machine/PowerOps.lean ====
section
/-! DEFINITION. Supplies, resets, boot, power domains and wake (chapters 1, 4, 5 and 6): requests and their checks, what a domain
does on leaving ON, what it loses, how it comes up, the sequencer, groups, resets. -/
namespace Sys2Proof.Machine

/-- Change the device under the object values as they stand. -/
def State.act (f : Od → Dev → Dev) (s : State) : State := { s with dev := f s.od s.dev }

/-! ### Domains (R22 to R24, R126, R131) -/

def DomState.code : DomState → Nat
  | .off => 0 | .retention => 1 | .on => 2 | .transition => 3

/-- A host's state code, where it is one that can be requested. -/
def DomState.ofCode : Nat → Option DomState
  | 0 => some .off | 1 => some .retention | 2 => some .on | _ => none

/-- The switched domains, in the order of Table 1.5. -/
def domainList : List Domain := [.sec, .net, .link, .ctrl, .drv, .meas, .safe]

/-- The boot order of R118, and the order of a group request (R132). -/
def bootOrder : List Domain := [.sec, .meas, .safe, .net, .ctrl, .link, .drv]
def groupOrder : List Domain := [.drv, .link, .ctrl, .net, .safe, .meas, .sec]

def getDom (d : Dev) (m : Domain) : DomainCtl := vget d.doms m.num
def modDom (m : Domain) (f : DomainCtl → DomainCtl) (d : Dev) : Dev := { d with doms := vmod d.doms m.num f }

/-- The domains of a mask, in an order. -/
def maskDomains (order : List Domain) (mask : Nat) : List Domain := order.filter (fun m => mask.testBit m.num)
def domainMask (l : List Domain) : Nat := l.foldl (fun n m => n ||| 2 ^ m.num) 0

/-- Domains ON, bit per domain number. -/
def domainsOn (d : Dev) : Nat := bitsOf 8 (fun n => d.isOn (Domain.ofNum n))

/-- The domain is in TRANSITION towards ON. -/
def goingOn (d : Dev) (m : Domain) : Bool := (getDom d m).state == .transition && (getDom d m).target == .on

/-- What a domain requires ON, besides AON, by ascending number (Table 1.5). -/
def requires (d : Dev) : Domain → List Domain
  | .net => [.sec]
  | .link => [.sec, .meas] ++ (if anyRing d then [.safe] else [])
  | .ctrl => [.sec] ++ (if anyStream d then [.net] else []) ++ [.meas]
  | .drv => [.sec, .meas] ++ (if pwmActive d then [.safe] else [])
  | _ => []

/-- Requirement `e` of domain `m` is met: NET in RETENTION serves the streams (R22). -/
def requirementMet (d : Dev) (m e : Domain) : Bool :=
  d.isOn e || (m == .ctrl && e == .net && (getDom d .net).state == .retention)

/-- The lowest-numbered requirement of `m` that is not met. -/
def unmet (d : Dev) (m : Domain) : Option Domain := (requires d m).find? (fun e => !requirementMet d m e)

/-- The lowest-numbered domain that requires `m` in the state that the request would leave (R24). -/
def neededBy (d : Dev) (m : Domain) (target : DomState) : Option Domain :=
  domainList.find? (fun u => (d.isOn u || goingOn d u) && (requires d u).contains m
    && !(m == .net && target == .retention && u == .ctrl))

/-- Dependency refusal of R24, as a detail code. -/
def dependencyRefusal (d : Dev) (m : Domain) (target : DomState) : Option Nat :=
  let e := if target == .on then unmet d m else neededBy d m target
  e.map (fun e => 0x01010000 + m.num * 256 + e.num)

/-- Dies that a thermal latch keeps a domain off for: 0 logic, 1 AMS (R383). -/
def latchedDie (d : Dev) (m : Domain) : Option Nat :=
  let latched (k : Nat) : Bool := (vget d.meas.dies k).latched
  if latched 0 && [Domain.sec, .net, .link, .ctrl, .drv].contains m then some 0
  else if latched 1 && [Domain.meas, .safe, .link, .ctrl, .drv].contains m then some 1
  else none

/-- The domain's own condition (Table 6.2, R383). -/
def ownRefusal (o : Od) (d : Dev) (m : Domain) (target : DomState) : Option Nat :=
  let leaving := d.isOn m && target != .on
  let reason (ff : Nat) : Option Nat := some (0x01020000 + m.num * 256 + ff)
  if target == .on then (latchedDie d m).map (0x60040000 + ·)
  else match m with
    | .link => if leaving && anyRing d then reason 1 else none
    | .ctrl => if leaving && d.stack.state != .stopped then reason 2 else if leaving && anyStream d then reason 3 else none
    | .net => if target == .off && anyStream d then reason 3 else none
    | .drv => if leaving && pwmActive d then reason 4 else none
    | .safe => if target == .retention then reason 9 else if leaving && torquePermitted d then reason 5 else none
    | .sec => if leaving && d.sec.holder.isSome then reason 6
        else if leaving && d.sec.debug == .attached then reason 7 else none
    | .meas => if target == .retention && odU o 0x2106 1 = 0 then reason 8 else none
    | .aon => none

/-- Checks 4 and 5 of R130. -/
def stateRefusal (o : Od) (d : Dev) (m : Domain) (target : DomState) : Option Nat :=
  match dependencyRefusal d m target with
  | some x => some x
  | none => ownRefusal o d m target

/-- DOMAIN_REFUSED (R144). -/
def domainRefused (o : Od) (m : Domain) (target : DomState) (cause detail : Nat) (d : Dev) : Dev :=
  record o 0x0102 (srcDomain m.num) ([b8 target.code, b8 cause, 0, 0] ++ toLE 4 detail) d

/-- DOMAIN_STATE_CHANGED (R144). -/
def domainChanged (o : Od) (m : Domain) (old new : DomState) (cause : Nat) (d : Dev) : Dev :=
  record o 0x0101 (srcDomain m.num) [b8 old.code, b8 new.code, b8 cause] d

/-- A sequence is in progress: it has a domain still to request, or the last one is on its way to ON (R118, R136). -/
def seqBusy (d : Dev) : Bool := match d.aon.seq with
  | some q => !q.todo.isEmpty || !q.taken || (match q.current with | some m => goingOn d m | none => false)
  | none => false

/-- The sequence in progress is that of a wake of the present AON cycle: it has requested nothing. -/
def seqFresh (d : Dev) : Bool := d.aon.waking && (match d.aon.seq with
  | some q => !q.boot && q.current.isNone && q.passed == 0
  | none => false)

/-- A group, or a sequence begun before the present AON cycle, is in progress: check 3 of R130 for a request that would leave ON. -/
def leaveBusy (d : Dev) : Bool := d.aon.group.isSome || (seqBusy d && !seqFresh d)

/-! ### Supplies (R96 to R101) -/

/-- Rails that a domain needs (Table 4.5). -/
def needRails : Domain → List Nat
  | .aon => [0]
  | .meas => [6, 7]
  | .safe => [6, 7]
  | .link => [1, 2, 3]
  | _ => [1, 2]

/-- Every rail that a domain needs is in range, and none of them rose against the order (R98). -/
def railsReady (d : Dev) (m : Domain) : Bool :=
  (needRails m).all (fun r => vget d.rails.ok r && !d.rails.early.any (fun e => e.1 == r))

/-- Every switched rail is in range; VDRV may rise at any later time (R96). -/
def switchedReady (d : Dev) : Bool := [1, 2, 3, 4, 5, 6, 7].all (fun r => vget d.rails.ok r) && d.rails.early.all (fun e => e.1 == 8)

/-- Domains lost with a rail (Table 4.5). -/
def railDomains (r : Nat) : List Domain :=
  if r = 0 then domainList
  else if r ≤ 2 then [.sec, .net, .link, .ctrl, .drv]
  else if r = 3 then [.link]
  else if r = 6 ∨ r = 7 then [.meas, .safe]
  else []

def modAon (f : Aon → Aon) (d : Dev) : Dev := { d with aon := f d.aon }
def modReset (f : ResetCtl → ResetCtl) (d : Dev) : Dev := modAon (fun a => { a with reset := f a.reset }) d

/-! ### Readiness (R121, R122, R124) -/

/-- The conditions of R122. -/
def readyHolds (d : Dev) : Bool :=
  d.sec.running.isSome && d.isOn .sec && d.isOn .safe && d.isOn .net && d.isOn .ctrl && d.isOn .link
    && d.time.tb.declared && d.time.cas.declared && d.meas.adcs.all (fun a => a.cal.valid)

/-- READY_FOR_STACK follows its conditions; BOOT_COMPLETE and BOOT_TIME at its rise (R122, R124). -/
def readyCheck (o : Od) (d : Dev) : Dev :=
  if readyHolds d == d.aon.ready then d
  else if d.aon.ready then modAon (fun a => { a with ready := false }) d
  else
    let t := if d.aon.bootTime = 0xFFFFFFFF then (match d.aon.bootFrom with
      | some b => (d.clk.run - b) / 800
      | none => 0xFFFFFFFF) else d.aon.bootTime
    record o 0x0209 0 ([1, b8 (domainsOn d), if d.aon.calForced then 1 else 0, 0] ++ toLE 4 t)
      (modAon (fun a => { a with ready := true, bootTime := t, bootOpen := false }) d)

/-- The boot calibration, once per power-on of MEAS from OFF, when TBLOCK is first declared (R121). -/
def bootCalibration (o : Od) (d : Dev) : Dev :=
  if d.aon.calChecked || !d.time.tb.declared then d
  else
    let wanted := odU o 0x2201 2 = 1
    let invalid := d.meas.adcs.any (fun a => !a.cal.valid)
    let d1 := modAon (fun a => { a with calChecked := true, calForced := !wanted && invalid }) d
    if wanted || invalid then calStart true 0xFF d1 else d1

/-! ### Wake sequences and groups (R132 to R139) -/

/-- Not-attempted domains of a group at its end: neither requested nor passed over. -/
def notAttempted (g : GroupCtl) (d : Dev) : Nat :=
  let target : DomState := if g.retention then .retention else .off
  domainMask (g.todo.filter (fun m =>
    let st := (getDom d m).state
    !(st == target || (g.retention && st == .off))))

/-- Done mask of a group, with the current step where its transition is over. -/
def groupDoneMask (g : GroupCtl) (d : Dev) : Nat :=
  match g.current with
  | some m => if (getDom d m).state == (if g.retention then .retention else .off) then g.done ||| 2 ^ m.num else g.done
  | none => g.done

/-- A group ends: GROUP_DONE and GROUP_STATUS (R133, Table 6.6). -/
def groupEnd (o : Od) (refused : Option Domain) (byWake : Bool) (d : Dev) : Dev :=
  match d.aon.group with
  | none => d
  | some g =>
    let done := groupDoneMask g d
    let na := notAttempted g d
    let status := bitIf 30 byWake + bitIf 29 refused.isSome + done * 2 ^ 16 + na * 2 ^ 8 + (match refused with | some m => m.num | none => 0)
    record o 0x0103 0 [if g.retention then 1 else 0, b8 g.mask, b8 done, b8 na,
        (match refused with | some m => b8 m.num | none => 0xFF), if byWake then 1 else 0]
      (modAon (fun a => { a with group := none, groupStatus := status }) d)

/-- GROUP_STATUS. -/
def groupStatus (d : Dev) : Nat := match d.aon.group with
  | some g => 2 ^ 31 + groupDoneMask g d * 2 ^ 16
  | none => d.aon.groupStatus

/-- A group is about to issue a step: its current transition is over and a masked domain is still to change. -/
def groupPending (d : Dev) : Bool := match d.aon.group with
  | some g => (match g.current with | some m => (getDom d m).state != .transition | none => true) && notAttempted g d != 0
  | none => false

/-- Domains added to a sequence: at their place in the boot order where it has not been passed, else after the last (R136). -/
def joinRoute (q : SeqCtl) (l : List Domain) : SeqCtl :=
  let new := l.filter (fun m => !q.todo.contains m && q.current != some m)
  let ahead := new.filter (fun m => !q.passed.testBit m.num)
  let behind := new.filter (fun m => q.passed.testBit m.num)
  let main := q.todo.filter (fun m => !q.passed.testBit m.num)
  let tail := q.todo.filter (fun m => q.passed.testBit m.num)
  { q with todo := bootOrder.filter (fun m => main.contains m || ahead.contains m) ++ tail ++ behind
           mask := q.mask ||| domainMask l }

/-- A wake is accepted for a route (R136 to R139): sources, primary source, the domains, and whether a request of the cycle loses to it. -/
def startWake (o : Od) (sources primary route : Nat) (preempts : Bool) (d : Dev) : Dev :=
  let low := !d.aon.reset.supEn
  let flags := bitIf 1 d.aon.group.isSome + bitIf 0 (preempts || groupPending d)
  let wanted := (maskDomains bootOrder route).filter (fun m => !d.isOn m)
  let d1 := groupEnd o none true d
  let busy := seqBusy d1
  let seq := match d1.aon.seq with
    | some q => if busy then joinRoute q wanted else { boot := false, todo := wanted, mask := route, waitRails := low }
    | none => { boot := false, todo := wanted, mask := route, waitRails := low }
  let d2 := modReset (fun r => { r with supEn := true }) (modAon (fun a => { a with
    seq := some seq
    wakeSources := sources, wakeTime := d.clk.rtcStamp, wakeFlags := flags
    wakeCount := if busy then a.wakeCount else satInc a.wakeCount
    wakeAt := some d.clk.run, waking := true }) d1)
  record o 0x0104 0 (toLE 2 sources ++ [b8 primary, b8 flags, b8 route, if low then 1 else 0]) d2

/-- Lowest set bit of a word of `n` bits. -/
def lowestBit (n v : Nat) : Nat := (setBits n v).headD 0xFF

/-- Wake sources whose condition can be seen now (Table 6.5); in standby only 0 to 5 (R141). -/
def wakeAvailable (o : Od) (d : Dev) (b : Nat) : Bool :=
  if b ≤ 4 then true
  else if b = 5 then odU o 0x2106 1 = 1 && odU o 0x2106 3 != 0 && decide (odU o 0x2106 3 ≤ d.clk.rtc)
  else if !d.aon.reset.supEn then false
  else if b ≤ 7 then vget d.rails.ok 5 && !d.isOn .net
  else if b = 8 then (getDom d .net).state == .retention
  else if b = 9 then vget d.rails.ok 4 && !d.isOn .net
  else if b = 10 then lifecycleOf d.nv != 2 && vget d.rails.ok 4 && !d.isOn .sec
  else false

/-- WAKE_ROUTE of a source. -/
def wakeRoute (o : Od) (b : Nat) : Nat := odU o 0x2104 (b + 1)

/-- WAKE_PIN_CONFIG: the pin's condition is a level, and the level or the side of an edge that is active. -/
def pinByLevel (o : Od) (b : Nat) : Bool := (odU o 0x2105 (b + 1)).testBit 1
def pinActive (o : Od) (b levels : Nat) : Bool := levels.testBit b == (odU o 0x2105 (b + 1)).testBit 0

/-- The condition of a source holds (Table 6.5); an edge holds at its instant only and is no such condition. -/
def wakeHolds (o : Od) (d : Dev) (b : Nat) : Bool :=
  if b ≤ 3 then pinByLevel o b && pinActive o b d.aon.wakeLevels
  else if b = 4 then decide (odU o 0x2105 6 < d.aon.wakeTrl)
  else d.aon.wakePending.testBit b

/-- WAKE_PENDING. -/
def wakePendingNow (o : Od) (d : Dev) : Nat := bitsOf 11 (wakeHolds o d)

/-- The wake inputs as AON sees them, after WAKE_FILTER (R135): edges of the pins, bit per pin, and the device that has seen them. -/
def wakeSees (o : Od) (w : WakeSeen) (d : Dev) : Nat × Dev :=
  let filter := odU o 0x2105 5
  let held := w.held.toNat
  let open_ := decide (held < filter ∧ filter ≤ 4 * held)
  let ok := decide (filter ≤ held) || (open_ && Config.wakeFilter d.free)
  let levels := if ok then w.pins.toNat else d.aon.wakeLevels
  let edges := bitsOf 4 (fun b => !pinByLevel o b && pinActive o b levels && !pinActive o b d.aon.wakeLevels)
  let d1 := modAon (fun a => { a with
    wakeLevels := levels, wakeTrl := if ok then w.trl.toNat else a.wakeTrl
    wakePending := bitsOf 11 (fun b => if b = 5 then a.wakePending.testBit 5 else 6 ≤ b && w.others.toNat.testBit b) }) d
  (edges, if open_ then d1.fresh else d1)

/-- The sources that AON accepts: enabled and available, with an edge, or with a condition that has not been accepted yet (R135). -/
def wakeSources (o : Od) (edges : Nat) (d : Dev) : List Nat :=
  (List.range 11).filter (fun b => (odU o 0x2103 1).testBit b && wakeAvailable o d b
    && (edges.testBit b || (wakeHolds o d b && !d.aon.woken.testBit b && (4 < b || decide (vget d.aon.wakeFrom b ≤ d.clk.run)))))

/-- Wake sources are accepted (R135, R136, R139), unless the device is in reset. -/
def wakeAccept (o : Od) (edges : Nat) (preempts : Bool) (d : Dev) : Dev :=
  let srcs := wakeSources o edges d
  let m := srcs.foldl (fun n b => n ||| 2 ^ b) 0
  let took (m : Nat) : Dev := modAon (fun a => { a with woken := (a.woken ||| m) &&& wakePendingNow o d }) d
  if srcs.isEmpty || d.aon.reset.scope != .none || !vget d.rails.ok 0 then took 0
  else startWake o m (lowestBit 11 m) (srcs.foldl (fun n b => n ||| wakeRoute o b) 0) preempts (took m)

/-- WAKE_ENABLE is written: a source enabled anew is accepted where its condition holds, a filtered one after the filter time (R135). -/
def wakeEnabled (o : Od) (was now : Nat) (d : Dev) : Dev :=
  wakeAccept o 0 false (modAon (fun a => { a with
    woken := a.woken &&& was &&& now
    wakeFrom := Vector.ofFn (fun (b : Fin 5) =>
      if now.testBit b && !was.testBit b then d.clk.run + usT (odU o 0x2105 5) else a.wakeFrom[b]) }) d)

/-- RTC_ALARM is written: its condition begins afresh. -/
def alarmWritten (d : Dev) : Dev :=
  modAon (fun a => { a with wakePending := clrBit a.wakePending 5, woken := clrBit a.woken 5 }) d

/-- SUP_EN goes low when every domain but AON is OFF and no sequence needs it (R109, R141). -/
def standbyCheck (d : Dev) : Dev :=
  let idle := domainList.all (fun m => (getDom d m).state == .off) && !seqBusy d && d.aon.reset.scope == .none
  if idle && d.aon.reset.supEn then
    { modReset (fun r => { r with supEn := false }) d with rails := { d.rails with lost := Vector.replicate 9 false } }
  else d

/-! ### Leaving ON: what a domain does first (R26, R62, R70, R75, R162) -/

/-- The Ethernet links go down: the port loses its master, the ARP table is dropped (R190). -/
def ethernetDown (o : Od) (d : Dev) : Dev :=
  let was := d.time.links
  let d1 := onTime (fun t => { t with links := 0, arp := [] }) d
  if was.testBit (odU o 0x2440 2) then masterLost o 3 d1 else d1

/-- The event record of the last device time that SEC received (R78). -/
def keepBaseEnd (d : Dev) : Dev :=
  if d.clk.counting then onTime (fun t => { t with prevEnd := some d.clk.dt, prevRtc := d.clk.rtcStamp }) d else d

/-- A domain leaves ON, or RETENTION for OFF; `requested` where this follows a request. Its contents are still there. -/
def leaveEffects (requested wasOn : Bool) (m : Domain) (target : DomState) (o : Od) (d : Dev) : Dev :=
  if !wasOn then (if m == .net then streamsDown d else d)
  else match m with
    | .sec => if requested then keepBaseEnd (releaseAll o (debugDetach o 1 (onSec (fun s => { s with instr := 1 }) (scanEnd o d)))) else d
    | .net =>
      let d1 := ethernetDown o (commEnd o 5 d)
      if requested && target == .retention then streamsPause o true d1 else linkDown o 2 d1
    | .link =>
      let d1 := if requested then forEach (List.range 128) (closeEpoch o) d else d
      if requested then d1 else forEach (List.range 128) (leaveActive o) d1
    | .ctrl =>
      let d1 := if requested then ledgerLeaves d else d
      forEach (List.range 16) (fun n d => modCe n (fun i => { i with trig := none, cut := none, sampled := false, judged := false }) d) d1
    | .drv => interlocksLeave o d
    | .meas =>
      let d1 := if d.isOn .sec then keepBaseEnd d else d
      let d2 := tbLost o 3 d.time.tb.mv d1
      let d3 := if d2.clk.counting then timebaseStops o d2 else d2
      { d3 with
        aon := { d3.aon with retainRtc := d3.clk.rtc }
        time := { d3.time with tai := false, alignedTo := none }
        meas := { d3.meas with adcs := d3.meas.adcs.map (fun a => { a with run := none, completion := none }) } }
    | .safe =>
      let d1 := forEach [0, 1, 2, 3] (fun n d => if (vget d.isl.pairs n).state == .permit then axisSto o n d else d) d
      let d2 := requesterSet o 5 { d1 with
        isl := { debugHold := d1.isl.debugHold, scanHold := d1.isl.scanHold }
        axes := d1.axes.map (fun (a : Axis) => { a with ss1Line := false }) }
      pronghorn o (if requested then d2 else { d2 with lcl := { d2.lcl with block := true } })
    | .aon => d

/-! ### What is lost in OFF (Table 6.1) -/

/-- The contents that a domain loses. `requested`: it left ON by request, so that SEC has stored its last number (R70). -/
def dropContents (requested : Bool) (m : Domain) (d : Dev) : Dev :=
  match m with
  | .sec =>
    let q := d.seqr
    { d with
      seqr := { q with held := [], log := [], late := 0, emcy := [], next := 0
                       lastStored := if requested then some ((q.next + 2 ^ 32 - 1) % 2 ^ 32) else none }
      breach := {}
      time := { d.time with prevEnd := none }
      sec := { d.sec with
        nonce := none, iksKept := [], instr := 1, scan := false, boundary := [], holder := none, proof := [], nonces := Vector.replicate 64 none
        running := none, fallback := false, status := if d.sec.hold then d.sec.status else Vector.replicate 2 5
        load := none, loadTarget := 0, loadCode := 0xFF, bank := none } }
  | .net =>
    { d with
      com := {}
      acq := { d.acq with pcie := { perst := d.acq.pcie.perst }, streams := Vector.replicate 32 {} }
      sec := { d.sec with nonces := Vector.replicate 64 none } }
  | .link => { d with lcl := { block := d.lcl.block } }
  | .ctrl =>
    let island := d.isl.timebaseHold != 0 || d.isl.debugHold || d.isl.scanHold
    let live := bitIf 1 island + bitIf 2 (!d.time.tb.declared) + bitIf 5 (!d.isOn .safe)
    { d with
      stack := {}, engine := {}, ledger := {}
      prot := { requesters := live }
      acq := { d.acq with
        sets := Vector.replicate 4 {}
        streams := d.acq.streams.map (fun x => { x with staging := [], gap := none }) } }
  | .drv => { d with pwm := { fltLevels := d.pwm.fltLevels }, bridges := Vector.replicate 6 {}, axes := Vector.replicate 6 {}, ladder := {} }
  | .meas =>
    let t := d.time
    { d with
      clk := { d.clk with dt := 0, counting := false }
      meas := { dies := d.meas.dies.map (fun x => { latched := x.latched, declared := x.declared, taken := x.taken }) }
      time := { links := t.links, arp := t.arp, prevEnd := t.prevEnd, prevRtc := t.prevRtc, lastGm := t.lastGm }
      sched := {} }
  | .safe => { d with isl := { debugHold := d.isl.debugHold, scanHold := d.isl.scanHold } }
  | .aon => d

/-- Descriptors abandoned by a loss of NET stay counted until the next enable of the stream (R65). -/
def keepAbandoned (before d : Dev) : Dev :=
  { d with acq := { d.acq with streams := Vector.ofFn (fun (i : Fin 32) =>
    { d.acq.streams[i] with abandoned := (before.acq.streams[i]).abandoned }) } }

/-- A domain's contents are lost, and its objects return to their defaults until it comes up again (R127). -/
def dropDomain (requested : Bool) (m : Domain) (s : State) : State :=
  let d := dropContents requested m s.dev
  { s with
    dev := if m == .net then keepAbandoned s.dev d else d
    od := odDrop (fun ix => ownerOf ix == m) s.od }

/-- Domains leave ON without request, with their cause: 6 rail loss, 7 domain fault, 8 thermal shutdown (R26). -/
def loseDomains (ms : List Domain) (cause : Nat) (s : State) : State :=
  let hit := ms.filter (fun m => (getDom s.dev m).state != .off)
  let olds := hit.map (fun m => (m, (getDom s.dev m).state, s.dev.isOn m))
  let s0 := if hit.contains .sec then s.act (fun o d => if d.sec.holder.isSome && d.isOn .sec then commEnd o 5 d else d) else s
  let s1 := { s0 with dev := forEach hit (fun m d => modDom m (fun c => { c with state := .off, since := d.clk.run, idle := none }) d) s0.dev }
  let s2 := if hit.contains .sec then s1.act (fun o d => debugDetach o 1 (scanEnd o d)) else s1
  let s3 := olds.foldl (fun s p =>
    dropDomain false p.1 (s.act (leaveEffects false p.2.2 p.1 .off))) s2
  olds.foldl (fun s p => s.act (domainChanged · p.1 p.2.1 .off cause)) s3

/-! ### Coming up (R37, R38, R70, R71, R75, R78, R114 to R121) -/

/-- A new epoch begins with EPOCH_START (R70). -/
def epochStart (o : Od) (d : Dev) : Dev :=
  let q := d.seqr
  let last := q.lastStored.getD 0xFFFFFFFF
  number o false { time := d.clk.stamp, code := 0x0504, source := 0, data := padTo 16 (toLE 4 (q.epoch + 1) ++ toLE 4 last) }
    { d with seqr := { q with epoch := (q.epoch + 1) % 2 ^ 32, next := 0, log := [], held := [], lastStored := none } }

/-- AON's records are numbered when SEC reaches ON, a discard count first (R71). -/
def numberAon (o : Od) (d : Dev) : Dev :=
  let q := d.seqr
  let d1 := if q.aonDiscards = 0 then d
    else number o false { time := d.clk.stamp, code := 0x0505, source := 0
                          data := padTo 16 (toLE 4 q.aonDiscards ++ toLE 6 q.aonFirst ++ toLE 6 q.aonLast) } d
  let d2 := q.aon.foldl (fun d e => number o true e.1 d) d1
  { d2 with seqr := { d2.seqr with aon := [], aonDiscards := 0, aonFirst := 0, aonLast := 0 } }

/-- RTC_ENABLE takes effect: the crystal carries the count, or the AON oscillator (R143). -/
def rtcSource (o : Od) (d : Dev) : Dev :=
  let on := odU o 0x2106 1 == 1
  if d.clk.rtcXtal == on then d else { d with clk := { d.clk with rtcXtal := on, rtcBreaks := d.clk.rtcBreaks + 1 } }

/-- Calibration states at a power-on of MEAS: persisted factors, where there are any, in range (R374). -/
def calPersisted (o : Od) (d : Dev) : Dev :=
  if !(if d.aon.shadow.isSome then d.aon.shadowBank else d.sec.bank.isSome) then d
  else forEach (List.range 8) (fun n d => modAdc n (fun a =>
    if a.cal == .none && factorsInRange o n then { a with cal := .persisted } else a) d) d

/-- The objects of a domain take their persisted values (R37, R38). -/
def reloadDomain (m : Domain) (s : State) : State :=
  match persistedFor m s.dev with
  | some c => { s with od := odReload (fun ix => ownerOf ix == m) c s.od }
  | none => { s with
      od := odDrop (fun ix => ownerOf ix == m) s.od
      dev := modAon (fun a => { a with late := a.late ++ [m] }) s.dev }

/-- AON's own objects take their persisted values at the first ON of SEC (R111, R142). -/
def loadAonObjects (s : State) : State :=
  let d := s.dev
  let s1 := if d.aon.reset.secSeen then s
    else { s with od := odReload (fun ix => ownerOf ix == .aon && ix != 0x2106) (bankContents d) s.od }
  let s2 := if d.aon.reset.rtcLoaded then s1
    else { s1 with od := odReload (fun ix => ix == 0x2106) (bankContents d) s1.od }
  { s2 with dev := rtcSource s2.od (modReset (fun r => { r with secSeen := true, rtcLoaded := true }) s2.dev) }

/-- SEC writes AON's shadow of the values of MEAS and SAFE (R38). -/
def writeShadow (d : Dev) : Dev :=
  modAon (fun a => { a with shadow := some (shadowOf (bankContents d)), shadowBank := d.sec.bank.isSome }) d

/-- MEAS and SAFE, where they came up without persisted values, take them when SEC first reaches ON (R38). -/
def reloadLate (s : State) : State :=
  let s1 := s.dev.aon.late.foldl (fun s m => if s.dev.isOn m then { s with od := odReload (fun ix => ownerOf ix == m) (bankContents s.dev) s.od } else s) s
  let s2 := if s.dev.aon.late.contains .meas then s1.act calPersisted else s1
  let s3 := if s.dev.aon.late.contains .safe && s.dev.isOn .safe then s2.act (fun o d => ccvTake o (ccvOf o) d) else s2
  { s3 with dev := modAon (fun a => { a with late := [] }) s3.dev }

/-- The image is selected (R115), but in boot hold, which only a reset leaves (R117): there a power-on of SEC keeps it (log entry 208). -/
def bootChoice (o : Od) (d : Dev) : Dev := if d.sec.hold then d else selectImage o d

/-- SEC reaches ON from OFF. The domain is already marked ON. -/
def secPowerOn (s : State) : State :=
  let d0 := onSec (fun x => { x with keysHidden := false, debug := if s.dev.aon.debugLockout.isSome then .lockout else .detached }) s.dev
  let bank := (selectBank s.od d0).sec.bank
  let d1 := onSec (fun x => { x with bank := bank }) d0
  let s1 := { s with dev := d1, od := odReload (fun ix => ownerOf ix == Domain.sec) (bankContents d1) s.od }
  let s2 := s1.act (fun o d => debugWithdraw o (selectBank o (bootChoice o (senseFuses o (numberAon o (epochStart o d))))))
  let s3 := loadAonObjects { s2 with dev := writeShadow s2.dev }
  reloadLate { s3 with dev := modReset (fun r => { r with rstOut := !s3.dev.sec.hold }) s3.dev }

/-- Communication comes up afresh with NET: node-ID, port, NMT state, the sessions of the channels (R45, Table 2.5). -/
def netFresh (o : Od) (d : Dev) : Dev :=
  let c : Com := { nodeId := odU o 0x2002 1, udpPort := odU o 0x2002 2, iface := ifaceOf o, heartbeatLast := d.clk.run
                   nmt := if odU o 0x2002 4 = 1 then .operational else .preOperational
                   rpdos := Vector.replicate 32 { lastReceived := d.clk.run }, tpdos := Vector.replicate 32 { lastSent := d.clk.run } }
  followChannels o { d with com := c }

/-- What a domain does when it reaches ON from OFF, after its objects are loaded. -/
def powerOnEffects (m : Domain) (failed : Nat) (o : Od) (d : Dev) : Dev :=
  match m with
  | .net => let d1 := netFresh o d; if d1.time.rateTarget = limitRate o d1.time.rateTarget then d1 else callRate o d1.time.rateTarget d1
  | .ctrl => arrCheck o (cePowerOn o (ledgerPowerOn o { d with ledger := {} }))
  | .drv => pronghorn o d
  | .meas => calPersisted o (rateStarts o (modAon (fun a => { a with calChecked := false, calForced := false }) d))
  | .safe =>
    let d1 := islandRequester o (requesterClear o 5 (islandPowerOn o failed { d with isl := { d.isl with windowAt := d.clk.run } }))
    pronghorn o { d1 with lcl := { d1.lcl with block := !vget d1.rails.ok 5 } }
  | _ => d

/-- Device time resumes after a retention of MEAS: the held count plus the interval by the RTC, in whole ticks (R128). -/
def timeResumes (d : Dev) : Dev :=
  if d.time.hadBase then
    let dt := (d.clk.dt + (d.clk.rtc - d.aon.retainRtc) * 800000000 / 32768) % 2 ^ 64
    { d with
      clk := { d.clk with dt := dt, counting := true }
      sched := { d.sched with running := true, origin := wholeUs dt, j := 0 }
      lcl := { d.lcl with cutDone := none } }
  else d

/-- Calibrations that RETENTION interrupted have failed (R373). -/
def calInterrupted (o : Od) (d : Dev) : Dev :=
  let l := (List.range 8).filter (fun n => (getAdc d n).cal == .calibrating)
  if l.isEmpty then d
  else
    let mask := b8 (l.foldl (fun n i => n ||| 2 ^ i) 0)
    record o 0x6001 0x10 [0, mask, if d.meas.calBoot then 1 else 0, mask]
      { forEach l (fun n d => modAdc n (fun a => { a with cal := .failed }) d) d with meas :=
        { (forEach l (fun n d => modAdc n (fun a => { a with cal := .failed }) d) d).meas with calBoot := false } }

/-- What a domain does when it returns from RETENTION. -/
def resumeEffects (m : Domain) (o : Od) (d : Dev) : Dev :=
  match m with
  | .sec => numberAon o (onSec (fun x => { x with debug := if d.aon.debugLockout.isSome then .lockout else .detached }) d)
  | .net => streamsPause o false d
  | .ctrl => onLedger (fun l => match l.resume with
    | .fresh => l
    | _ => { l with resume := .away 3 }) d
  | .drv => pronghorn o d
  | .meas => calInterrupted o (rateStarts o (timeResumes d))
  | _ => d

/-! ### Resets (R104 to R112) -/

/-- Winner and losers among the causes accepted: the lowest code wins (R105). -/
def winner (causes : Nat) : Nat := (setBits 9 causes).headD 0 + 1
def coincident (causes : Nat) : Nat := clrBit causes (winner causes - 1)

/-- Data of the RESET event. -/
def resetData (r : ResetCtl) : Bytes := padTo 16 (toLE 2 (winner r.causes) ++ toLE 2 (coincident r.causes) ++ toLE 4 r.count)

/-- The one RESET event of the reset in progress carries its causes (R105, R110): the last such record of AON's list. -/
def amendReset (d : Dev) : Dev :=
  let fix (l : List (Event × Nat)) : List (Event × Nat) :=
    match l.reverse.findIdx? (fun e => e.1.code == 0x0201) with
    | some i => l.mapIdx (fun j e => if j + i + 1 = l.length then ({ e.1 with data := resetData d.aon.reset }, e.2) else e)
    | none => l
  let d1 := modReset (fun r => { r with cause := winner r.causes }) d
  { d1 with seqr := { d1.seqr with aon := fix d1.seqr.aon } }

/-- What AON's logic loses with a whole-device reset besides its objects: the record of the last wake and GROUP_STATUS (R104). The reset
record, the RESET_N mask and the RTC are kept. -/
def wakeForgotten (d : Dev) : Dev := modAon (fun a => { a with
  wakeSources := 0, wakeTime := 0, wakeFlags := 0, wakeCount := 0, wakeAt := none, groupStatus := 0
  wakePending := 0, wakeLevels := 0, wakeTrl := 0, woken := 0, wakeFrom := Vector.replicate 5 0 }) d

/-- Every domain but AON stops and loses its contents (R104). With `whole`, AON's logic too. -/
def resetDomains (whole : Bool) (s : State) : State :=
  let s0 := s.act (fun o d => if d.isOn .sec then commEnd o 6 d else d)
  let olds := domainList.map (fun m => (m, s0.dev.isOn m, (getDom s0.dev m).state))
  let s1 := { s0 with dev := forEach domainList (fun m d => modDom m (fun _ => { since := d.clk.run }) d) s0.dev }
  let s2 := if olds.any (fun p => p.1 == .sec && p.2.1) then s1.act (fun o d => debugDetach o 1 (scanEnd o d)) else s1
  let s3 := olds.foldl (fun s p => if p.2.2 == .off then s
    else dropDomain false p.1 (s.act (leaveEffects false p.2.1 p.1 .off))) s2
  let s4 := { s3 with dev := modAon (fun a => { a with
    seq := none, group := none, groupStatus := if a.group.isSome then 0 else a.groupStatus
    bootFrom := none, bootTime := 0xFFFFFFFF, ready := false, calForced := false, calChecked := false, late := [] }) s3.dev }
  let s5 := { s4 with dev := { modReset (fun r => { r with rstOut := false }) (onSec (fun x => { x with hold := false }) s4.dev) with lcl := {} } }
  if whole then { s5 with
    od := odDrop (fun ix => ownerOf ix == .aon && ix != 0x2106) s5.od
    dev := modReset (fun r => { r with secSeen := false }) (wakeForgotten s5.dev) } else s5

/-- A cause of Table 5.1 is accepted: a new reset, or one that joins the reset in progress (R105). -/
def acceptReset (code : Nat) (s : State) : State :=
  let r := s.dev.aon.reset
  let whole := code = 2
  let hold := 80000
  let pinless := if code = 5 ∨ code = 6 ∨ code = 7 ∨ code = 8 ∨ code = 9 then some (s.dev.clk.run + hold) else none
  let merge (a b : Option Nat) : Option Nat := match a, b with
    | some x, some y => some (max x y)
    | some x, none => some x
    | none, y => y
  if r.scope == .none then
    let s1 := resetDomains whole s
    let d1 := modReset (fun r => { r with
      scope := if whole then .whole else .warm
      pinless := pinless
      causes := 2 ^ (code - 1), cause := code, prev := r.cause, count := satInc r.count, time := s.dev.clk.rtcStamp }) s1.dev
    { s1 with dev := record s1.od 0x0201 0 (resetData d1.aon.reset) d1 }
  else
    let s1 := if whole && r.scope != .whole then resetDomains true s else s
    { s1 with dev := amendReset (modReset (fun r => { r with
      scope := if whole then .whole else r.scope
      pinless := merge r.pinless pinless
      causes := r.causes ||| 2 ^ (code - 1) }) s1.dev) }

/-- The reset ends when its last source has released: keys are usable again, and the boot sequence starts (R104, R118, R154). -/
def tryRelease (s : State) : State :=
  let r := s.dev.aon.reset
  if r.scope == .none || r.porst || r.byPin || r.pinless.isSome then s
  else s.act (fun o d =>
    let low := !r.supEn
    let d1 := modReset (fun r => { r with scope := .none, supEn := true }) d
    let d2 := debugWithdraw o (onSec (fun x => { x with keysHidden := false }) d1)
    modAon (fun a => { a with
      seq := some { boot := true, todo := [.sec], mask := domainMask [.sec], taken := false, waitRails := low }
      bootOpen := true
      bootFrom := if !low || switchedReady d2 then some d2.clk.run else none }) d2)

/-- A pinless hold is over: 100 µs have passed, and after a core rail return both core rails are in range (R104). -/
def pinlessOver (s : State) : State :=
  match s.dev.aon.reset.pinless with
  | none => s
  | some t =>
    let rails := !s.dev.aon.reset.causes.testBit 7 || (vget s.dev.rails.ok 1 && vget s.dev.rails.ok 2)
    if s.dev.clk.run < t || !rails then s
    else tryRelease { s with dev := modReset (fun r => { r with pinless := none }) s.dev }

/-! ### Transitions (R126, R130, R140) -/

/-- A change of state is accepted: TRANSITION begins (R126). -/
def beginTransition (m : Domain) (target : DomState) (cause : Nat) (s : State) : State :=
  let old := (getDom s.dev m).state
  -- the records of a request that takes SEC or another domain out of ON are made before it leaves
  let s1 := if target == .on then s
    else if m == .safe || m == .meas then s
    else s.act (leaveEffects true (old == .on) m target)
  let s2 := { s1 with dev := modDom m (fun c => { c with state := .transition, left := old, target := target, cause := cause, since := s.dev.clk.run, idle := none }) s1.dev }
  let s3 := if target != .on && (m == .safe || m == .meas) then s2.act (leaveEffects true (old == .on) m target) else s2
  s3.act readyCheck

/-- A core's section fails its digest: the domain stays off, the image is marked, and a warm reset follows (R114). -/
def sectionFails (m : Domain) (core : Nat) (s : State) : State :=
  let c := getDom s.dev m
  let d0 := modDom m (fun c => { c with state := .off, since := s.dev.clk.run }) s.dev
  let inSeq := match d0.aon.seq with
    | some q => q.current == some m
    | none => false
  let s1 := ({ s with dev := d0 } : State).act (fun o d =>
    let d1 := domainChanged o m .transition .off 7 d
    let d2 := if inSeq then record o 0x020B (srcDomain m.num) [b8 m.num, 2] d1 else d1
    match d2.sec.running with
    | some i => record o 0x0205 0 [b8 i, 6, b8 core]
        (setStatus i 6 (onNv (fun v => { v with images := vmod v.images i (fun x => { x with mark := some 6 }) }) d2))
    | none => d2)
  acceptReset 9 (if c.left == .retention then dropDomain false m s1 else s1)

/-- The core of a domain (Table 1.2). -/
def coreOf : Domain → Option Nat
  | .net => some 0 | .link => some 1 | .ctrl => some 2 | .drv => some 3 | _ => none

/-- The AMS sensors are read before MEAS reports ON: a hot die, or fewer than two sensors, stops it (R383). -/
def amsHot (readings : List Int) : Bool := decide (readings.length < 2) || readings.any (fun t => decide (1450 < t))

/-- A transition ends at its target (R140). -/
def completeTransition (m : Domain) (readings : List Int) (selfTest : Nat) (bad : Bool) (s : State) : State :=
  let c := getDom s.dev m
  if c.state != .transition then s
  else
    let reached (a : Aon) : Aon := { a with seq := a.seq.map (fun q => if q.current == some m then { q with current := none } else q) }
    let arrive (st : DomState) (s : State) : State :=
      { s with dev := (if st == .on then modAon reached else id) (modDom m (fun c => { c with state := st, since := s.dev.clk.run, idle := none }) s.dev) }
    let note (s : State) : State := s.act (domainChanged · m c.left c.target c.cause)
    match c.target with
    | .on =>
      if !railsReady s.dev m then s
      else if m == .meas && c.left != .retention && amsHot readings then
        let s1 := (dropDomain false m (arrive .off s)).act (fun o d =>
          let d1 := forEach [0, 1, 2] (fun i d => modSensor (6 + i) (fun x => { x with reading := readings.getD i 0 }) d) d
          let d2 := modDie 1 (fun x => { x with temp := readings.foldl (fun a b => if a < b then b else a) (-32768) }) d1
          modDie 1 (fun x => { x with taken := if x.taken.contains .meas then x.taken else x.taken ++ [.meas] })
            (thermalLatch o 1 3 (domainChanged o .meas .transition .off 8 d2)))
        s1
      else if bad && s.dev.sec.running.isSome && (coreOf m).isSome && c.left != .retention then sectionFails m ((coreOf m).getD 0) s
      else
        let s1 := arrive .on s
        let s2 := if c.left == .retention then s1.act (resumeEffects m)
          else if m == .sec then secPowerOn s1
          else (reloadDomain m s1).act (powerOnEffects m selfTest)
        (note s2).act readyCheck
    | st =>
      let s1 := arrive st s
      let s2 := if st == .off then dropDomain true m s1 else s1
      let s3 := note s2
      { s3 with dev := standbyCheck s3.dev }

/-! ### Requests (R130, R132, R134) -/

/-- A request to leave has lost to the wake of the cycle: the wake record carries PRE_EMPTED (R138). -/
def loses (d : Dev) : Dev := modAon (fun a => { a with wakeFlags := setBit a.wakeFlags 0 }) d

/-- A write to DOMAIN_STATE as AON takes it in (R130, R138): the detail of its abort, or none. A request to a domain that is lost with a
rail in the same cycle is refused under R24 (R100); its detail names the domain itself (log entry 207). NET leaves after the answer. -/
def domainRequest (m : Domain) (target : DomState) (s : State) : Option Nat × State :=
  let d := s.dev
  let st := (getDom d m).state
  let leaving := target != .on
  let busy := if leaving then leaveBusy d else d.aon.group.isSome || seqBusy d
  if d.aon.lostNow.testBit m.num then
    let x := 0x01010000 + m.num * 256 + m.num
    (some x, s.act (domainRefused · m target 1 x))
  else if st == target then (none, s)
  else if st == .transition then (some (0x01040000 + m.num), s)
  else if target == .retention && m != .safe && st == .off then (some (0x01070000 + m.num), s)
  else if busy then (some 0x01050000, s)
  else match stateRefusal s.od d m target with
    | some x => (some x, s.act (domainRefused · m target 1 x))
    | none =>
      if leaving && d.aon.waking then (some (0x01030000 + m.num), { s with dev := loses d })
      else if leaving && m == .net then (none, s)
      else (none, beginTransition m target 1 s)

/-- A group request is accepted (R132): its steps follow. -/
def groupStart (value : Nat) (d : Dev) : Dev :=
  let mask := value % 256
  modAon (fun a => { a with group := some { retention := value / 256 % 4 == 1, mask := mask, todo := maskDomains groupOrder mask } }) d

/-- The next step of a group (R132, R133). -/
def groupStep (s : State) : State :=
  match s.dev.aon.group with
  | none => s
  | some g =>
    let target : DomState := if g.retention then .retention else .off
    let waits := match g.current with
      | some m => (getDom s.dev m).state == DomState.transition
      | none => false
    if waits then s
    else
      let g1 := { g with done := groupDoneMask g s.dev, current := none }
      let skip (m : Domain) : Bool := let st := (getDom s.dev m).state; st == target || (g.retention && st == DomState.off)
      let todo := g1.todo.dropWhile skip
      let put (g : GroupCtl) (s : State) : State := { s with dev := modAon (fun a => { a with group := some g }) s.dev }
      match todo with
      | [] => (put { g1 with todo := [] } s).act (fun o d => groupEnd o none false d)
      | m :: rest =>
        let refuse := if (getDom s.dev m).state == DomState.transition then some (0x01040000 + m.num) else stateRefusal s.od s.dev m target
        match refuse with
        | some x => (put { g1 with todo := rest } s).act (fun o d => groupEnd o (some m) false (domainRefused o m target 2 x d))
        | none => beginTransition m target 2 (put { g1 with todo := rest, current := some m } s)

/-- The idle condition of Table 6.3. -/
def idleHolds (o : Od) (d : Dev) (m : Domain) : Bool :=
  match m with
  | .sec => !(d.isOn .net || d.isOn .link || d.isOn .ctrl || d.isOn .drv)
  | .net => !anyStream d && d.seqr.emcy.isEmpty
  | .link => !anyRing d
  | .ctrl => !d.stack.state.runs && !d.engine.inst.any (fun i => i.state != .disabled) && !anyStream d
  | .drv => !pwmActive d && !d.axes.any axisOn
  | .meas => !(List.range 8).any (adcEnabled o) && !(d.isOn .link || d.isOn .ctrl || d.isOn .drv)
  | _ => false

/-- IDLE_TIME has passed for a domain: it requests its policy state where the checks pass (R134). -/
def idleExpiry (m : Domain) (s : State) : State :=
  let d := s.dev
  let ix := 0x2110 + m.num
  let target : DomState := if odU s.od ix 1 = 1 then .retention else .off
  let st := (getDom d m).state
  let due := match (getDom d m).idle with
    | some t => decide (t + msT (odU s.od ix 2) ≤ d.clk.run)
    | none => false
  if m == .aon || m == .safe || odU s.od ix 1 = 0 || !due || !idleHolds s.od d m || st == target then s
  else
    let again : State := { s with dev := modDom m (fun c => { c with idle := some d.clk.run }) d }
    if st == .transition || (target == .retention && st == .off) || leaveBusy d || (stateRefusal s.od d m target).isSome || d.sec.hold then again
    else if d.aon.waking then { again with dev := loses again.dev }
    else beginTransition m target 3 s

/-! ### The sequencer (R118, R119, R136) -/

/-- The next domain of a sequence: what is passed over on the way, and what becomes of the first that is not. -/
inductive SeqPick where
  /-- The sequence waits. -/
  | wait
  /-- It has no further domain. -/
  | finished
  /-- A domain is requested. -/
  | request (m : Domain)
  /-- A domain is refused. -/
  | refused (m : Domain)
deriving DecidableEq, Repr, Inhabited

/-- The choice over the domains still to come, and the domains that stay. -/
def seqPick (d : Dev) : List Domain → SeqPick × List Domain
  | [] => (.finished, [])
  | m :: rest =>
    let st := (getDom d m).state
    let gated := m == .ctrl || m == .link || m == .drv
    if st == .on then seqPick d rest
    else if d.sec.hold && m != .sec && m != .net then seqPick d rest
    else if st == .transition then (.wait, m :: rest)
    else if gated && d.isOn .meas && !d.time.tb.declared then (.wait, m :: rest)
    else if (unmet d m).isSome then seqPick d rest
    else if (latchedDie d m).isSome then (.refused m, rest)
    else (.request m, rest)

/-- The places of the boot order up to `m` have been passed. -/
def placesTo (m : Domain) : Nat := domainMask (bootOrder.takeWhile (· != m) ++ [m])

/-- A boot sequence takes up BOOT_DOMAINS after its step for SEC, whose power-on gives the object its persisted value (R111, R118). -/
def takeBootDomains (o : Od) (q : SeqCtl) : SeqCtl :=
  if q.taken || q.todo.contains .sec then q else { joinRoute q (maskDomains bootOrder (odU o 0x2201 1)) with taken := true }

/-- The domain requested has been lost or stopped on its way to ON: it has failed (R118). -/
def seqFailed (s : State) : State :=
  match s.dev.aon.seq with
  | some q => (match q.current with
    | some m =>
      if s.dev.isOn m || goingOn s.dev m then s
      else s.act (fun o d => record o 0x020B (srcDomain m.num) [b8 m.num, 0] (modAon (fun a => { a with seq := some { q with current := none } }) d))
    | none => s)
  | none => s

/-- The sequencer acts once the previous domain has reached ON, failed or been skipped, and once the switched rails are in range where
the sequence drove SUP_EN high (R118, R136). -/
def seqNext (s0 : State) : State :=
  let s := seqFailed s0
  match s.dev.aon.seq with
  | none => s
  | some q0 =>
    let waits := (match q0.current with
      | some m => goingOn s.dev m
      | none => false) || (q0.waitRails && !switchedReady s.dev)
    if waits || s.dev.aon.reset.scope != .none then s
    else
      let q := takeBootDomains s.od { q0 with waitRails := false }
      let (pick, todo) := seqPick s.dev q.todo
      let put (q : Option SeqCtl) (s : State) : State := { s with dev := modAon (fun a => { a with seq := q }) s.dev }
      let seen := domainMask (q.todo.filter (fun m => !todo.contains m))
      let q1 := { q with todo := todo, current := none, passed := q.passed ||| seen }
      let cause := if q.boot then 5 else 4
      match pick with
      | .wait => put (some q1) s
      | .finished =>
        if q1.taken then let s1 := put none s; { s1 with dev := standbyCheck s1.dev } else put (some (takeBootDomains s.od q1)) s
      | .refused m => (put (some { q1 with passed := q1.passed ||| placesTo m }) s).act (fun o d =>
          record o 0x020B (srcDomain m.num) [b8 m.num, 1] d)
      | .request m => beginTransition m .on cause (put (some { q1 with
          passed := q1.passed ||| placesTo m, current := some m, requested := s.dev.clk.run }) s)

/-- The domain that the sequence requested has not reached ON within 50 ms: it is left off (R118). -/
def seqTimeout (s : State) : State :=
  match s.dev.aon.seq with
  | none => s
  | some q => match q.current with
    | none => s
    | some m =>
      if s.dev.clk.run < q.requested + msT 50 || s.dev.isOn m then s
      else
        let d1 := if goingOn s.dev m then modDom m (fun c => { c with state := c.left, since := s.dev.clk.run }) s.dev else s.dev
        let d2 := modAon (fun a => { a with seq := some { q with current := none } }) d1
        { s with dev := standbyCheck (record s.od 0x020B (srcDomain m.num) [b8 m.num, 0] d2) }

/-- TBLOCK was not declared within 100 ms of MEAS reaching ON: CTRL, LINK and DRV are not requested, and a boot sequence that brought
MEAS on records BOOT_COMPLETE with the ready flag clear, once (R119). -/
def tbTimeout (s : State) : State :=
  let d := s.dev
  let gated (m : Domain) : Bool := m == .ctrl || m == .link || m == .drv
  let boot := d.aon.bootOpen && (getDom d .meas).cause == 5
  let waits := match d.aon.seq with
    | some q => q.todo.any gated
    | none => false
  if !(boot || waits) || !d.isOn .meas || d.time.tb.declared || decide (d.clk.run < (getDom d .meas).since + msT 100) then s
  else
    let cut (q : SeqCtl) : Option SeqCtl :=
      let left := q.todo.filter (fun m => !gated m)
      if left.isEmpty && q.current.isNone && q.taken then none else some { q with todo := left }
    let d1 := modAon (fun a => { a with seq := a.seq.bind cut, bootOpen := false }) d
    { s with dev := if boot then
        record s.od 0x0209 0 ([0, b8 (domainsOn d1), if d1.aon.calForced then 1 else 0, 0] ++ toLE 4 d1.aon.bootTime) d1 else d1 }

/-! ### Rails (R98 to R101) -/

def setRail (r : Nat) (ok lost : Bool) (d : Dev) : Dev :=
  { d with rails := { d.rails with ok := vset d.rails.ok r ok, lost := vset d.rails.lost r lost } }

/-- AON records rail events only with its logic out of reset. -/
def aonRecords (d : Dev) : Bool := vget d.rails.ok 0 && d.aon.reset.scope != .whole

/-- VAON is lost: the whole device is off, and nothing is recorded (R99, Table 4.5). What MRAM, the fuses and the key store hold
stays; SUP_EN is no longer driven, so every regulator is off. -/
def vaonLost (s : State) : State :=
  let d := s.dev
  { s with
    od := []
    dev := { ({} : Dev) with
      -- neither the timebase nor the RTC ran on (R76)
      clk := { dtBreaks := d.clk.dtBreaks + 1, rtcBreaks := d.clk.rtcBreaks + 1 }
      nv := d.nv, mram := d.mram, free := d.free, out := d.out
      seqr := { epoch := d.seqr.epoch, persist := d.seqr.persist, lastStored := if (getDom d .sec).state == .off then d.seqr.lastStored else none }
      pwm := { fltLevels := d.pwm.fltLevels }, acq := { pcie := { perst := d.acq.pcie.perst } } } }

/-- The orders that R96 asks for: any rail after VAON, group 3 after group 2, VCORE after VSRAM, VDRV after VIO33. -/
def mustFollow (r follows : Nat) : Bool :=
  (follows == 0 && r != 0) || ([1, 2, 3].contains r && [4, 5, 6, 7].contains follows) || (r == 1 && follows == 2) || (r == 8 && follows == 5)

/-- A SEQUENCE_VIOLATION record (R101). -/
def violation (o : Od) (r follows : Nat) (d : Dev) : Dev := record o 0x0122 (0x080 + r) [b8 r, b8 follows] d

/-- VAON rises into range: a power-on reset of the whole device, with a fresh record and RTC (R99, R104). PORST_N is held low (R96). A
rail that has risen before VAON is recorded once AON works (R98). -/
def vaonPowerOn (s : State) : State :=
  if vget s.dev.rails.ok 0 then s
  else
    let s1 := vaonLost s
    let r : ResetCtl := { scope := .whole, porst := true, causes := 1, cause := 1, count := 1, time := s1.dev.clk.rtcStamp }
    let up := s.dev.rails.ok
    let d1 := modReset (fun _ => r) (setRail 0 true false { s1.dev with rails := { ok := up } })
    let d2 := record s1.od 0x0201 0 (resetData r) d1
    { s1 with dev := forEach ((List.range 9).filter (fun i => i != 0 && vget up i)) (fun i d => violation s1.od i 0 d) d2 }

/-- A rail has been below its loss threshold for 2 µs (R100, Table 4.5). With SUP_EN low the fall is no loss (R99). -/
def railLost (r : Nat) (s : State) : State :=
  if !vget s.dev.rails.ok r then s
  else if r = 0 then vaonLost s
  else
    let early := s.dev.rails.early.filter (fun e => e.1 != r)
    let confirmed := s.dev.aon.reset.supEn
    let d0 := setRail r false (confirmed || vget s.dev.rails.lost r) s.dev
    let s1 : State := { s with dev := { d0 with rails := { d0.rails with early := early } } }
    let ms := railDomains r
    let data := [b8 r, b8 (domainMask ms)]
    -- SEC, where it is lost too, no longer takes the record
    let s2 := if ms.contains .sec then s1 else if confirmed && aonRecords s1.dev then s1.act (fun o d => record o 0x0120 (0x080 + r) data d) else s1
    let s3 := loseDomains ms 6 s2
    let s4 := if ms.contains .sec && confirmed && aonRecords s3.dev then s3.act (fun o d => record o 0x0120 (0x080 + r) data d) else s3
    let s5 := if r = 3 then s4.act (fun o d => ethernetDown o (linkDown o 2 d))
      else if r = 4 then s4.act (fun o d => tapDown o (ethernetDown o (linkDown o 2 d)))
      else if r = 5 then s4.act (fun o d =>
        let d1 := { d with isl := { d.isl with vio33Hold := d.isOn .safe }, lcl := { d.lcl with block := true } }
        pronghorn o (if d.isOn .safe then stoDemand o 0xB 15 d1 else d1))
      else if r = 8 then s4.act (fun o d => vdrvLost o d)
      else s4
    let s6 := s5.act readyCheck
    { s6 with dev := standbyCheck s6.dev }
where
  tapDown (o : Od) (d : Dev) : Dev := if d.isOn .sec then tapReset o 2 d else d

/-- A rail rises against the order of R96: the domains that need it are held off (R98). -/
def orderBroken (r follows : Nat) (d : Dev) (o : Od) : Dev :=
  if !mustFollow r follows || vget d.rails.ok follows || !aonRecords d || d.rails.early.contains (r, follows) then d
  else violation o r follows { d with rails := { d.rails with early := d.rails.early ++ [(r, follows)] } }

/-- A rail is in range (R101): the event of a return after a loss, and the warm reset of a core rail's return (R104). -/
def railRestored (r : Nat) (s : State) : State :=
  if vget s.dev.rails.ok r || r = 0 then s
  else if !vget s.dev.rails.ok 0 then { s with dev := setRail r true false s.dev }
  else
    let was := vget s.dev.rails.lost r
    let d0 := forEach (List.range 9) (fun f d => orderBroken r f d s.od) s.dev
    let d0 := setRail r true false d0
    let d1 := { d0 with rails := { d0.rails with
      early := d0.rails.early.filter (fun e => e.2 != r)
      vdrvSince := if r = 8 then d0.clk.run else d0.rails.vdrvSince } }
    let d2 := if was && aonRecords d1 then record s.od 0x0121 (0x080 + r) [b8 r, b8 (domainMask (railDomains r))] d1 else d1
    let d3 := if r = 8 then (if was then vdrvRestored s.od d2 else d2) else if r = 5 then { d2 with
        isl := { d2.isl with vio33Hold := false }
        lcl := { d2.lcl with block := if d2.isOn .safe then false else d2.lcl.block } } else d2
    let d4 := if d3.aon.bootFrom.isNone && switchedReady d3 && d3.aon.reset.scope == .none then
        modAon (fun a => { a with bootFrom := some d3.clk.run }) d3 else d3
    let s1 : State := { s with dev := if r = 5 then pronghorn s.od d4 else d4 }
    if was && (r = 1 || r = 2) then acceptReset 8 s1 else s1

/-! ### Reset pins, watchdogs (R106, R110, R113) -/

/-- PORST_N is accepted low (R106): the whole device is reset, AON's logic included; the pin keeps the reset, and SUP_EN is high (R109). -/
def porstAssert (s : State) : State :=
  if !vget s.dev.rails.ok 0 || s.dev.aon.reset.porst then s
  else acceptReset 2 { s with dev := modReset (fun r => { r with porst := true, supEn := true }) s.dev }

/-- PORST_N is accepted high. RESET_N, not sampled meanwhile, is seen afresh (R106, R110). -/
def porstRelease (s : State) : State :=
  if !vget s.dev.rails.ok 0 || !s.dev.aon.reset.porst then s
  else tryRelease { s with dev := modReset (fun r => { r with porst := false, pinSince := s.dev.clk.run }) s.dev }

/-- RESET_N is accepted low: a warm reset, unless the pin is masked (R106, R110). While PORST_N is low it is not sampled. -/
def resetNAssert (s : State) : State :=
  let r := s.dev.aon.reset
  if !vget s.dev.rails.ok 0 || r.porst || r.resetN then s
  else
    let s1 := { s with dev := modReset (fun r => { r with resetN := true, pinSince := s.dev.clk.run, limitDone := false }) s.dev }
    if r.masked then s1
    else
      let s2 := acceptReset 3 s1
      { s2 with dev := modReset (fun r => { r with byPin := true }) s2.dev }

def resetNRelease (s : State) : State :=
  let r := s.dev.aon.reset
  if !vget s.dev.rails.ok 0 || r.porst || !r.resetN then s
  else tryRelease { s with dev := modReset (fun r => { r with resetN := false, byPin := false, pinSince := s.dev.clk.run }) s.dev }

/-- RESET_N has been low for RESET_N_LIMIT (R110). -/
def resetNStuck (s : State) : State :=
  let r := s.dev.aon.reset
  let limit := odU s.od 0x2201 4
  if !r.resetN || !r.byPin || r.porst || r.limitDone || decide (s.dev.clk.run < r.pinSince + msT limit) then s
  else
    let mode := odU s.od 0x2201 3
    let stuck := s.act (fun o d => record o 0x0203 0 ([b8 mode, 0, 0, 0] ++ toLE 4 limit)
      (modReset (fun r => { r with stuck := true, limitDone := true }) d))
    if mode = 1 then stuck
    else tryRelease { stuck with dev := amendReset (modReset (fun r => { r with
      masked := true, byPin := false, causes := setBit (clrBit r.causes 2) 3 }) stuck.dev) }

/-- RESET_N_LIMIT expires; a rise of RESET_N accepted in the same AON cycle wins (R112). -/
def resetNLimit (rises : Bool) (s : State) : State := if rises then resetNRelease s else resetNStuck s

/-- RESET_N has been high for RESET_N_REARM: the mask clears (R110). -/
def resetNRearm (o : Od) (d : Dev) : Dev :=
  let r := d.aon.reset
  if !r.masked || r.resetN || r.porst || decide (d.clk.run < r.pinSince + msT (odU o 0x2201 5)) then d
  else record o 0x0204 0 ([0, 0, 0, 0] ++ toLE 4 ((d.clk.run - r.pinSince) / msT 1)) (modReset (fun r => { r with masked := false }) d)

/-- The domain of a core. -/
def domainOfCore (n : Nat) : Domain := [Domain.net, .link, .ctrl, .drv].getD n .net

/-- A core has not serviced its watchdog within 50 ms (R113). -/
def watchdog (core : Nat) (s : State) : State :=
  let m := domainOfCore core
  if !s.dev.isOn m || decide (s.dev.clk.run < (getDom s.dev m).since + msT 50) then s
  else (acceptReset 6 s).act (fun o d => record o 0x020A (srcDomain m.num) [b8 core] d)

/-- Why DEVICE_RESET is refused: the domain concerned (Table 5.5). -/
def deviceResetRefusal (d : Dev) : Option Nat :=
  if anyRing d then some 0x02010003
  else if pwmActive d then some 0x02010005
  else if torquePermitted d then some 0x02010007
  else none

/-- A debug reset, while attached (Table 5.1, Table 7.2). -/
def debugReset (s : State) : State :=
  if s.dev.isOn .sec && s.dev.sec.debug == .attached && s.dev.sec.lifecycle != 2 then acceptReset 7 s else s

/-! ### Thermal shutdown of a die (R381 to R383) -/

/-- The domains that a die takes OFF. -/
def dieDomains (die : Nat) : List Domain :=
  if die = 0 then [.sec, .net, .link, .ctrl, .drv] else if die = 1 then [.meas, .safe, .link, .ctrl, .drv] else []

/-- A die is declared at shutdown (R382, Table 16.5). -/
def thermalShutdown (die cause : Nat) (s : State) : State :=
  let taken := (dieDomains die).filter (fun m => (getDom s.dev m).state != .off)
  let latch (s : State) : State := s.act (fun o d => modDie die (fun x => { x with taken := taken }) (thermalLatch o die cause d))
  let abandons := taken.contains .ctrl && s.dev.ledger.writing.isSome
  if die = 2 then (latch s).act (fun o d => hvLatch o d)
  else if taken.contains .sec then
    -- SEC, which is lost, no longer takes the records: AON keeps them (log entry 199)
    let s1 := latch (loseDomains taken 8 s)
    stands (if abandons then s1.act (fun o d => yieldEvent o 2 3 6 0x6023 (0x60 + die) d) else s1)
  else
    let s1 := latch s
    let s2 := if abandons then s1.act (fun o d => yieldTo o 2 3 6 0x6023 (0x60 + die) d) else s1
    stands (loseDomains taken 8 s2)
where
  stands (s : State) : State := let s1 := s.act readyCheck; { s1 with dev := standbyCheck s1.dev }

/-- A cycle of the temperature supervision: every 100 µs while MEAS is ON (R380, R381). -/
def temperatureCycle (readings : List Int) (s : State) : State :=
  let d := s.dev
  if !d.isOn .meas || readings.length ≠ 12 || decide (d.clk.dt < d.meas.lastCycle + usT 100) || !d.clk.counting then s
  else
    let dies := [0, 1, 2].filter (dieReadable d)
    let d1 := forEach (dies.flatMap dieSensors) (fun i d => modSensor i (fun x => { x with reading := readings.getD i 0 }) d)
      { d with meas := { d.meas with lastCycle := d.clk.dt } }
    let d2 := forEach dies (senseDie s.od) d1
    let (down, d3) := dies.foldl (fun (acc : List (Nat × Nat) × Dev) k =>
      let (why, d) := dieCycle k acc.2
      match why with
      | some c => (acc.1 ++ [(k, c)], d)
      | none => (acc.1, d)) ([], d2)
    let d4 := forEach dies (fun k d => handTo s.od 4 (0x10 + k) (vget d.meas.dies k).temp
      (forEach (dieSensors k) (fun i d => handTo s.od 4 i (readingOf d i) d) d)) d3
    down.foldl (fun s p => thermalShutdown p.1 p.2 s) { s with dev := d4 }

/-- The latch of a die may clear (Table 16.5). -/
def thermalClears (d : Dev) (die : Nat) : Bool :=
  let x := vget d.meas.dies die
  x.latched && (if die = 1 then decide (x.declared + secT 60 ≤ d.clk.run)
    else match x.coolSince with
      | some t => d.isOn .meas && d.clk.counting && decide (t + secT 1 ≤ d.clk.dt)
      | none => false)

/-- The latch of a die clears, and AON requests the domains that the shutdown took OFF (R383). -/
def thermalRelease (o : Od) (die : Nat) (d : Dev) : Dev :=
  if !thermalClears d die then d
  else
    let taken := (vget d.meas.dies die).taken
    let d1 := record o 0x6024 (0x60 + die) ([b8 die, 0] ++ toLE 2 (ofSigned 16 (vget d.meas.dies die).temp))
      (modDie die (fun x => { x with latched := false, coolSince := none, taken := [] }) d)
    if die = 2 then { d1 with hvLatched := false }
    else if d1.aon.reset.scope != .none then d1
    else modAon (fun a => { a with waking := false }) (startWake o 0 0xFF (domainMask taken) false d1)

end Sys2Proof.Machine
end

