-- ==== Sys2Proof/Machine/Read.lean ====
section
/-! DEFINITION. What every readable object reads as, chapter by chapter: the live value of the objects that show state, else the
stored value or the default (R31, R35, R41). -/
namespace Sys2Proof.Machine

/-- A REAL32 object value. -/
def rF (x : Rat) : Bytes := toLE 4 (f32Of x)

/-- A signed value of `n` bytes, held at the ends of its range. -/
def rI (n : Nat) (x : Int) : Bytes := toLE n (ofSigned (8 * n) (clampI (-(2 ^ (8 * n - 1) : Nat)) ((2 ^ (8 * n - 1) : Nat) - 1) x))

def rBool (c : Bool) : Bytes := [if c then 1 else 0]

/-! ### Communication, identity and status (chapter 2) -/

/-- SESSION_INFO (0x2003). -/
def sessionInfo (d : Dev) (n : Nat) : Nat :=
  let s := getSession d n
  let kind := match s.kind with | .free => 0 | .can => 1 | .mailbox => 2 | .udp => 3
  kind * 2 ^ 28 + bitIf 27 (d.sec.holder == some n) + bitIf 26 s.transfer.isSome + (if s.kind == .udp then s.lastSeq.getD 0 else 0)

/-- A listed value belongs to the stored configuration of a domain that is ON. -/
def comparedForDirty (d : Dev) (p : Nat × Bytes) : Bool :=
  isPersistent (p.1 / 256) (p.1 % 256) && d.isOn (ownerOf (p.1 / 256))

/-- CONFIG_DIRTY: a persistent object of a domain that is ON differs from the current bank (R39). -/
def configDirty (o : Od) (d : Dev) : Bool :=
  o.filter (comparedForDirty d) != (bankContents d).filter (comparedForDirty d)

/-- DEVICE_STATUS (0x2001:00). -/
def deviceStatus (o : Od) (d : Dev) : Nat :=
  bitIf 18 (d.breach.summary % 32 != 0) + bitIf 17 (configDirty o d) + bitIf 16 (d.pwm.groups.any (·.forced))
    + bitIf 15 (d.prot.requesters != 0) + bitIf 14 (stoActive o d) + bitIf 13 d.time.timeLocked + bitIf 12 d.sec.holder.isSome
    + bitIf 11 (d.sec.debug == .attached) + d.sec.lifecycle % 4 * 512 + domainsOn d

/-- The error register 0x1001, which EMCY carries too (R46). -/
def errorReg (d : Dev) : Nat := (Config.errorRegister d.free).toNat

/-- The communication area. -/
def readCom (o : Od) (d : Dev) (ix sub : Nat) : Option Bytes :=
  if ix = 0x1001 then some (toLE 1 (errorReg d))
  else if ix = 0x1018 then
    match sub with
    | 3 => some (toLE 4 Config.revision.toNat)
    | 4 => some (toLE 4 Config.serial.toNat)
    | _ => none
  else if 0x1200 ≤ ix ∧ ix ≤ 0x1207 then
    let (a, b) := sdoCobs o d (ix - 0x1200)
    match sub with
    | 1 => some (toLE 4 a)
    | 2 => some (toLE 4 b)
    | _ => none
  else if ix = 0x1FE3 ∧ 1 ≤ sub ∧ sub ≤ 32 then some (toLE 2 (vget d.com.rpdos (sub - 1)).status)
  else none

/-- Identity and status. -/
def readIdentity (o : Od) (d : Dev) (session : Option Nat) (ix sub : Nat) : Option Bytes :=
  if ix = 0x2000 then
    match sub with
    | 2 => some (toLE 2 (Config.dieRev 0).toNat)
    | 3 => some (toLE 2 (Config.dieRev 1).toNat)
    | 4 => some (toLE 2 (Config.dieRev 2).toNat)
    | 5 => some (toLE 4 (match d.sec.running with | some i => imageVersion d i | none => Config.holdVersion.toNat))
    | 6 => some (toLE 1 (match d.sec.running with | some i => i | none => Config.holdImage.toNat))
    | 7 => some (toLE 8 Config.serial.toNat)
    | _ => none
  else if ix = 0x2001 ∧ sub = 0 then some (toLE 4 (deviceStatus o d))
  else if ix = 0x2003 ∧ 1 ≤ sub ∧ sub ≤ 64 then some (toLE 4 (sessionInfo d (sub - 1)))
  else if ix = 0x2010 then
    let a : AbortRecord := match session with | some n => (getSession d n).abort | none => {}
    match sub with
    | 1 => some (toLE 4 a.detail)
    | 2 => some (toLE 4 a.code)
    | 3 => some (toLE 4 a.object)
    | 4 => some (toLE 8 a.time)
    | _ => none
  else none

/-! ### Guarantees and log (chapter 3) -/

/-- Up to 2,048 records of a list, as bytes. -/
def recordsBytes (l : List Record) : Bytes := (l.take 2048).flatMap eventBytes

/-- Records at or after a number, in serial order (R69, R505). -/
def recordsFrom (n : Nat) (l : List Record) : List Record := l.filter (fun r => r.seq == n || serialBefore n r.seq)

/-- The guarantee objects, the log and the ledger. -/
def readGuarantees (o : Od) (d : Dev) (ix sub : Nat) : Option Bytes :=
  let b := d.breach
  let q := d.seqr
  if ix = 0x2500 then
    match sub with
    | 1 => some (toLE 4 b.summary)
    | 2 => some (toLE 4 b.yields)
    | 3 => some (toLE 4 b.credit)
    | 4 => some (toLE 4 b.descriptor)
    | 5 => some (toLE 4 b.ledger)
    | 6 => some (toLE 4 b.lastSeq)
    | _ => none
  else if ix = 0x2501 then
    match sub with
    | 1 => some (toLE 4 q.next)
    | 2 => some (toLE 4 q.epoch)
    | 3 => some (toLE 4 (match q.log with | r :: _ => r.seq | [] => 0))
    | 4 => some (toLE 4 q.late)
    | 5 => some (toLE 4 q.aonTotal)
    | _ => none
  else if ix = 0x2502 ∧ sub = 2 then some (recordsBytes (recordsFrom (odU o 0x2502 1) q.log))
  else if ix = 0x2503 then
    match sub with
    | 3 => some (recordsBytes (recordsFrom (odU o 0x2503 2)
        ((q.persist.filter (fun p => p.epoch == odU o 0x2503 4)).map (·.record))))
    | 5 => some (match q.persist with | p :: _ => toLE 4 p.record.seq ++ toLE 4 p.epoch | [] => toLE 8 0)
    | _ => none
  else if ix = 0x2540 ∧ sub = 3 then some (toLE 8 d.ledger.lastCheckpoint)
  else if ix = 0x2541 ∧ sub = 2 then
    some (match accountIx (odU o 0x2541 1) with | some i => accountBytes (vget d.ledger.accounts i) | none => [])
  else none

/-! ### Reset, domains, security (chapters 5 to 7) -/

/-- STARTUP_STATUS (0x2220:01). -/
def startupStatus (d : Dev) : Nat :=
  bitIf 7 d.aon.ready + bitIf 6 (d.meas.adcs.all (fun a => a.cal == .calibrated))
    + bitIf 5 (d.meas.adcs.all (fun a => a.cal == .persisted)) + bitIf 4 d.time.cas.declared + bitIf 3 d.time.tb.declared
    + bitIf 2 d.sec.hold + bitIf 1 d.sec.fallback + bitIf 0 (trialRunning d)

/-- Reset record, boot block, domain states, wake record. -/
def readAon (o : Od) (d : Dev) (ix sub : Nat) : Option Bytes :=
  let r := d.aon.reset
  if ix = 0x2100 ∧ 2 ≤ sub ∧ sub ≤ 8 then some [b8 (d.domState (Domain.ofNum (sub - 1))).code]
  else if ix = 0x2101 ∧ sub = 2 then some (toLE 4 (groupStatus d))
  else if ix = 0x2103 ∧ sub = 2 then some (toLE 2 (wakePendingNow o d))
  else if ix = 0x2106 ∧ sub = 2 then some (toLE 8 d.clk.rtc)
  else if ix = 0x2107 then
    match sub with
    | 1 => some (toLE 2 d.aon.wakeSources)
    | 2 => some (toLE 8 d.aon.wakeTime)
    | 3 => some (toLE 1 d.aon.wakeFlags)
    | 4 => some (toLE 4 d.aon.wakeCount)
    | _ => none
  else if ix = 0x2200 then
    match sub with
    | 1 => some (toLE 2 r.cause)
    | 2 => some (toLE 2 r.prev)
    | 3 => some (toLE 4 r.count)
    | 4 => some (toLE 8 r.time)
    | 5 => some (toLE 2 (bitIf 1 r.masked + bitIf 0 r.stuck))
    | 6 => some (toLE 2 (coincident r.causes))
    | _ => none
  else if ix = 0x2210 then
    match sub with
    | 1 => some (toLE 1 d.nv.boot.preferred)
    | 2 => some (toLE 1 (d.nv.boot.attempts % 4 * 4 + bitIf 0 d.nv.boot.trial))
    | 4 => some (toLE 1 (vget d.sec.status 0))
    | 5 => some (toLE 1 (vget d.sec.status 1))
    | 6 => some (toLE 4 (imageVersion d 0))
    | 7 => some (toLE 4 (imageVersion d 1))
    | 8 => some (toLE 4 d.aon.bootTime)
    | _ => none
  else if ix = 0x2220 ∧ sub = 1 then some (toLE 2 (startupStatus d))
  else none

/-- Security objects; COMM_CHALLENGE (0x2320:01) is answered by the request itself, since each read issues a nonce. -/
def readSecurity (d : Dev) (ix sub : Nat) : Option Bytes :=
  if ix = 0x2300 then
    match sub with
    | 1 => some (toLE 1 d.sec.lifecycle)
    | 3 => some [match d.sec.debug with | .detached => 0 | .challenge => 1 | .attached => 2 | .lockout => 3]
    | 4 => some (rBool d.sec.keysHidden)
    | 5 => some (toLE 1 d.aon.debugFails)
    | 6 => some (toLE 2 (d.nv.minVersion % 256 * 256 + bitIf 2 (d.sec.mismatch != 0) + bitIf 1 (disBlown d.nv) + bitIf 0 (lockBlown d.nv)))
    | _ => none
  else if ix = 0x2320 then
    match sub with
    | 3 => some d.sec.proof
    | 5 => some (toLE 2 (commStatus d))
    | _ => none
  else if ix = 0x2330 then
    match sub with
    | 1 => some [b8 (bitsOf 3 (fun k => (keyOf d k).isSome))]
    | 5 => some (toLE 4 (kcv (keyOf d 0)))
    | 6 => some (toLE 4 (kcv (keyOf d 1)))
    | 7 => some (toLE 4 (kcv (keyOf d 2)))
    | _ => none
  else if ix = 0x2340 then
    match sub with
    | 3 => some (toLE 4 (loadOffset d))
    | 5 => some (toLE 2 (d.sec.loadCode % 256 * 256 + bitIf 1 (d.sec.loadTarget == 1) + bitIf 0 d.sec.load.isSome))
    | _ => none
  else if ix = 0x2350 ∧ sub = 1 then some Config.bsdlText
  else none

/-! ### Time (chapter 8) -/

/-- PROFILE_STATUS (0x2412:02). -/
def profileStatus (d : Dev) : Nat :=
  match d.time.carrier.bind (·.profile) with
  | some p => p.n * 256 + p.seg
  | none => 0xFF00

/-- Time, synthesisers, schedule, PTP. -/
def readTime (o : Od) (d : Dev) (ix sub : Nat) : Option Bytes :=
  let t := d.time
  if ix = 0x2400 then
    match sub with
    | 1 => some (toLE 8 d.clk.dt)
    | 2 => some (toLE 2 (timeStatus d))
    | 3 => some (rI 2 (match t.master with | some m => m.utcOffset | none => 0))
    | 6 => some (toLE 8 t.pending)
    | _ => none
  else if ix = 0x2401 then
    match sub with
    | 1 => some (rI 4 t.rate)
    | 2 => some (rI 4 (holdoverRate d))
    | _ => none
  else if ix = 0x2402 then
    match sub with
    | 1 => some (toLE 2 (lockPinMv 0 d t.tb))
    | 2 => some (toLE 2 (lockPinMv 1 d t.cas))
    | 3 => some (toLE 4 t.tb.tau)
    | 4 => some (toLE 4 t.cas.tau)
    | 5 => some (toLE 4 t.tb.losses)
    | 6 => some (toLE 4 t.cas.losses)
    | _ => none
  else if ix = 0x2410 then
    match sub with
    | 2 => some (toLE 4 (match t.carrier with | some c => c.ramp | none => 0))
    | 3 => some (toLE 4 (match t.carrier with | some c => c.freq | none => 0))
    | 4 => some (toLE 4 (carrierPhase d))
    | _ => none
  else if ix = 0x2412 then
    match sub with
    | 1 => some (toLE 1 t.profileRun)
    | 2 => some (toLE 2 (profileStatus d))
    | _ => none
  else if ix = 0x2413 then
    match sub with
    | 2 => some (toLE 4 (d.sched.count - 1))
    | 3 => some (toLE 8 d.sched.origin)
    | _ => none
  else if 0x2420 ≤ ix ∧ ix ≤ 0x2423 ∧ sub = 1 then some (toLE 1 (profileSegs o (ix - 0x2420)).length)
  else if ix = 0x2442 then
    match sub with
    | 1 => some (toLE 1 (portState o d))
    | 2 => some (toBE 8 (match t.master with | some m => m.gm | none => 0))
    | 3 => some (toBE 10 (match t.master with | some m => m.parent | none => 0))
    | 4 => some (rI 8 (truncQ t.offset))
    | 5 => some (rI 8 (truncQ t.pathDelay))
    | 6 => some (toLE 4 t.syncCount)
    | _ => none
  else if (ix = 0x2450 ∨ ix = 0x2451) ∧ sub = 6 then
    some [b8 (bitIf 1 (ptpPort o (ix - 0x2450) d) + bitIf 0 (t.links.testBit (ix - 0x2450)))]
  else none

/-! ### Cell link (chapters 9 to 11) -/

/-- One cell's session object (0x3100 + cell). -/
def readCell (d : Dev) (c sub : Nat) : Option Bytes :=
  let x := getCell d c
  match sub with
  | 1 => some [b8 x.state.code]
  | 2 => some (toLE 2 x.vdc)
  | 3 => some x.id
  | 7 => some x.calData
  | 8 => some x.info
  | 9 => some (toLE 2 (x.prev * 256 + x.reason))
  | 0x0A => some (toLE 4 x.nakSent)
  | 0x0B => some (toLE 4 x.nakReceived)
  | 0x0C => some (toLE 4 x.admitFails)
  | 0x0D => some (toLE 4 x.holdCount)
  | 0x0E => some (toLE 2 x.lockMaxErr)
  | 0x0F => some (toLE 8 x.since)
  | _ => none

/-- One cell's transaction object (0x3480 + cell). -/
def readTxn (o : Od) (d : Dev) (c sub : Nat) : Option Bytes :=
  let t := (getCell d c).txn
  match sub with
  | 1 => some (toLE 2 (min 255 (t.window.filter (fun p => d.sched.count < p + txnPar o 6)).length * 256
      + bitIf 2 t.reconciling + bitIf 1 t.errant + bitIf 0 t.isOpen))
  | 2 => some (toLE 2 t.epoch)
  | 3 => some [b8 t.held, b8 t.inFlight, b8 t.granted, b8 t.free]
  | 4 => some [0, b8 t.out.length, b8 (min t.credit 255), b8 t.cellPool]
  | 5 => some (toLE 4 t.retries)
  | 6 => some (toLE 4 t.failed)
  | 7 => some (toLE 4 t.copies)
  | 8 => some (toLE 4 t.closedEpoch)
  | 9 => some (toLE 4 t.errors)
  | _ => if 0x0A ≤ sub ∧ sub ≤ 0x14 then some (toLE 4 (vget t.kinds (sub - 0x0A))) else none

/-- One ring (0x3180 + ring). -/
def readRing (d : Dev) (r sub : Nat) : Option Bytes :=
  let x := getRing d r
  match sub with
  | 5 => some [b8 x.activePath]
  | 7 => some (toLE 2 (bitIf 4 x.suppressed.isSome + bitIf 3 (swapPending x) + bitIf 2 x.delayValid + bitIf 1 x.lost + bitIf 0 x.launching))
  | 8 => some (toLE 4 x.switchCount)
  | _ => none

def PathState.code : PathState → Nat
  | .disabled => 0 | .failed => 1 | .repairing => 2 | .standby => 3 | .active => 4

/-- One path (0x3190 + 2 ring + path). -/
def readPath (o : Od) (d : Dev) (i sub : Nat) : Option Bytes :=
  let x := vget d.lcl.paths i
  match sub with
  | 1 => some [b8 x.state.code]
  | 2 => some (toLE 4 x.rttRef)
  | 3 => some (toLE 4 x.rttLast)
  | 4 => some (toLE 4 x.ok)
  | 5 => some (toLE 4 x.crc)
  | 6 => some (toLE 4 x.stomped)
  | 7 => some (toLE 4 x.missed)
  | 8 => some (toLE 4 x.header)
  | 9 => some (toLE 4 x.syncLosses)
  | 0x0A => some (padTo (4 * ringCells o (i / 2)) (x.delays.flatMap (toLE 4)))
  | _ => none

/-- The link's objects. -/
def readLink (o : Od) (d : Dev) (ix sub : Nat) : Option Bytes :=
  if ix < 0x3180 then readCell d (ix - 0x3100) sub
  else if ix < 0x3188 then readRing d (ix - 0x3180) sub
  else if 0x3190 ≤ ix ∧ ix < 0x31A0 then readPath o d (ix - 0x3190) sub
  else if ix = 0x31F0 ∧ sub = 3 then some (toLE 4 d.lcl.applyOffset)
  else if ix = 0x3401 ∧ sub = 9 then some (toLE 1 (d.lcl.cells.toList.map (fun x => x.txn.out.length)).sum)
  else if 0x3410 ≤ ix ∧ ix < 0x3414 ∧ sub = 2 then
    some (toLE 4 (let b := odGet o ix 1; if b.isEmpty then 0 else crc32c b))
  else if 0x3480 ≤ ix ∧ ix < 0x3500 then readTxn o d (ix - 0x3480) sub
  else none

/-! ### Stack, regulation, protection (chapters 12 to 14) -/

/-- An array of one value per cell 0 to 127. -/
def perCell (f : Nat → Bytes) : Bytes := (List.range 128).flatMap f

/-- Stack configuration and modulation. -/
def readStack (o : Od) (d : Dev) (ix sub : Nat) : Option Bytes :=
  let s := d.stack
  match s.later.reverse.find? (fun w => w.1 == ix && w.2.1 == sub) with
  | some w => some w.2.2
  | none =>
  if ix = 0x3000 ∧ sub = 4 then some (toLE 2 s.arr)
  else if 0x3001 ≤ ix ∧ ix ≤ 0x3004 ∧ sub = 7 then some (toLE 1 (countActive o d (ix - 0x3001)))
  else if ix = 0x3010 then
    match sub with
    | 2 => some [b8 s.state.code]
    | 3 => some (toLE 2 (stackFlags d))
    | 0x0A => some (toLE 4 s.misses)
    | _ => none
  else if ix = 0x3020 then
    match sub with
    | 6 => some (rF (if arrCode o = 3 then s.lineV else s.amp))
    | 7 => some (rF s.busV)
    | _ => none
  else if ix = 0x3021 then
    match sub with
    | 5 => some (toLE 4 (clampI 0 4294967295 (roundQ (s.freq * 1000))).toNat)
    | 6 => some (toLE 4 ((⌊s.theta * 4294967296⌋ % 4294967296).toNat))
    | 7 => some (rI 2 (roundQ (s.phaseErr * 100)))
    | _ => none
  else if ix = 0x3030 then
    match sub with
    | 9 => some (perCell (fun c => (vget s.commands c).bytes))
    | 0x0A => some (perCell (fun c => toLE 4 (if isActive d c then vget s.offsets c else 0)))
    | _ => none
  else none

/-- Balancing, power flow, frequency agility. -/
def readRegulation (d : Dev) (ix sub : Nat) : Option Bytes :=
  let s := d.stack
  if ix = 0x3200 then
    match sub with
    | 0x0B => some (rF s.pBus)
    | 0x0C => some (rF s.pAxes)
    | _ => none
  else if 0x3201 ≤ ix ∧ ix ≤ 0x3204 then
    let g := vget s.groups (ix - 0x3201)
    match sub with
    | 7 => some (rF g.pMv)
    | 8 => some (toLE 2 (clampI 0 65535 (roundQ (g.vTarget * 100))).toNat)
    | _ => none
  else if ix = 0x3208 then
    match sub with
    | 6 => some [b8 (bitsOf 4 (fun g => (vget s.groups g).limited))]
    | 7 => some ((List.range 4).flatMap (fun g => toLE 2 (vget s.groups g).spread))
    | _ => none
  else if ix = 0x3209 ∧ sub = 5 then some (cellMask (fun c => (getCell d c).implausible))
  else if ix = 0x3210 then
    match sub with
    | 2 => some (perCell (fun c => match (getCell d c).residual with | some r => rI 4 r | none => toLE 4 0x80000000))
    | 3 => some (perCell (fun c => toLE 4 (getCell d c).checkFails))
    | 4 => some (perCell (fun c => if isActive d c then s32 (vget s.power c) else toLE 4 0))
    | 5 => some (perCell (fun c => s32 (vget s.qPred c)))
    | _ => none
  else if ix = 0x3220 then
    match sub with
    | 5 => some (toLE 4 s.guards)
    | 6 => some (toLE 1 s.zvs)
    | _ => none
  else none

/-- Stack protection. -/
def readProtection (d : Dev) (ix sub : Nat) : Option Bytes :=
  let p := d.prot
  if ix = 0x3300 then
    match sub with
    | 2 => some (toLE 2 p.causes)
    | 3 => some (toLE 1 p.requesters)
    | 4 => some (toLE 8 p.time)
    | 5 => some (toLE 4 p.firstFault)
    | 6 => some (toLE 4 p.count)
    | 0x0E => some [b8 (bitIf 2 p.exportForced + bitIf 1 p.lineLostAt.isSome + bitIf 0 (d.stack.groups.any (·.shortSince.isSome)))]
    | _ => none
  else if ix = 0x3308 then
    match sub with
    | 9 => some (cellMask (fun c => (getCell d c).state == .bypassed))
    | 0x0D => some (cellMask (fun c => d.stack.reinserting.any (·.cell == c)))
    | 0x0E => some (perCell (fun c => toLE 2 (getCell d c).faultBits))
    | _ => none
  else if ix = 0x3310 then
    match sub with
    | 1 => some (rF p.exportCapacity)
    | 2 => some (rF p.exportDemand)
    | _ => none
  else none

/-! ### Control engine, measurement, acquisition (chapters 15 to 17) -/

/-- The engine and its instances. -/
def readEngine (o : Od) (d : Dev) (ix sub : Nat) : Option Bytes :=
  if ix = 0x2800 then
    let on (n : Nat) : Bool := (getCe d n).state != .disabled
    match sub with
    | 1 => some (toLE 2 (bitsOf 16 on))
    | 2 => some (toLE 2 (bitsOf 16 (fun n => (getCe d n).state == .hold)))
    | 3 => some (toLE 4 (((List.range 16).filter on).map (worstTime o)).sum)
    | 4 => some (toLE 4 d.engine.missTotal)
    | _ => none
  else
    let n := ix - 0x2810
    let i := getCe d n
    match sub with
    | 2 => some (toLE 2 (ceStatus o n d))
    | 8 => some (ceArray o n 8)
    | 9 => some (ceArray o n 9)
    | 0x0A => some (ceArray o n 0x0A)
    | 0x0B => some (ceArray o n 0x0B)
    | 0x0D => some (ceArray o n 0x0D)
    | 0x17 => some i.bank
    | 0x18 => some (toLE 2 i.flags)
    | 0x19 => some (toLE 4 i.misses)
    | 0x1A => some (toLE 4 i.skipped)
    | 0x1B => some (toLE 4 i.predicted)
    | 0x1C => some (padTo (4 * ceN o n) (rawBytes i.xbar))
    | 0x1D => some (toLE 4 (worstTime o n))
    | _ => if 0x30 ≤ sub ∧ sub ≤ 0x35 then some (rawBytes [vget i.uOut (sub - 0x30)]) else none

def CalState.code : CalState → Nat
  | .none => 0 | .calibrated => 1 | .persisted => 2 | .calibrating => 3 | .failed => 4

/-- Measurement. -/
def readMeas (o : Od) (d : Dev) (ix sub : Nat) : Option Bytes :=
  if 0x2601 ≤ ix ∧ ix ≤ 0x2608 then
    let n := ix - 0x2601
    let a := getAdc d n
    match sub with
    | 7 => some (toLE 1 (seqLen o n))
    | 9 => some (toLE 4 a.seqCount)
    | 0x0A => some (toLE 8 a.seqTime)
    | 0x0B => some (toLE 4 a.overruns)
    | 0x0C => some (toLE 1 a.flags)
    | 0x0E => some (a.times.flatMap (toLE 4))
    | _ => none
  else if 0x2611 ≤ ix ∧ ix ≤ 0x2618 ∧ 1 ≤ sub then some (toLE 2 (vget (getAdc d (ix - 0x2611)).entries (sub - 1)).value)
  else if 0x2620 ≤ ix ∧ ix ≤ 0x2627 ∧ sub = 1 then some [b8 (getAdc d (ix - 0x2620)).cal.code]
  else if ix = 0x2650 ∧ sub = 1 then some (toLE 4 d.meas.cmpOut)
  else if ix = 0x2660 ∧ 1 ≤ sub then some (rI 2 (readingOf d (sub - 1)))
  else if ix = 0x2661 ∧ sub = 1 then some (toLE 2 (bitsOf 12 (fun s => (vget d.meas.sensors s).healthy)))
  else if ix = 0x2662 then
    if sub = 4 then some (toLE 1 (thermalLatches d))
    else if 1 ≤ sub ∧ sub ≤ 3 then some (rI 2 (vget d.meas.dies (sub - 1)).temp) else none
  else none

/-- Acquisition and streams. -/
def readAcq (o : Od) (d : Dev) (ix sub : Nat) : Option Bytes :=
  if 0x2710 ≤ ix ∧ ix ≤ 0x2713 then
    let s := getSet d (ix - 0x2710)
    match sub with
    | 2 => some (padTo (4 * chCount o (ix - 0x2710)) (odGet o ix 2))
    | 6 => some (padTo (8 * chCount o (ix - 0x2710)) (odGet o ix 6))
    | 0x0C => some [b8 (bitIf 1 (s.holdoff != 0) + bitIf 0 (setArmed o (ix - 0x2710) d))]
    | 0x0D => some (toLE 4 s.count)
    | 0x0E => some (toLE 4 s.no)
    | _ => none
  else if 0x2740 ≤ ix ∧ ix ≤ 0x275F then
    let x := getStream d (ix - 0x2740)
    match sub with
    | 1 => some (rBool x.enabled)
    | 6 => some (toLE 4 x.rateWorst)
    | 7 => some (toLE 4 x.gaps)
    | 8 => some (toLE 4 x.lost)
    | 9 => some (toLE 4 x.bad)
    | 0x0A => some (toLE 4 x.rseq)
    | 0x0B => some (toLE 4 x.total)
    | _ => none
  else if ix = 0x2770 then
    match sub with
    | 1 => some (toLE 4 (budgetUsed d))
    | 2 => some (toLE 2 (let p := d.acq.pcie
        if p.up then bitIf 8 p.busMaster + p.width * 16 + p.speed * 2 + 1 else 0))
    | _ => none
  else none

/-! ### PWM, bridges, axes (chapters 18 to 20) -/

def PairOwner.code : PairOwner → Nat
  | .host => 0 | .axis n => n + 1 | .chopper => 7

/-- One pair (0x4000 + pair). -/
def readPair (o : Od) (d : Dev) (q sub : Nat) : Option Bytes :=
  let p := vget d.pwm.pairs q
  match sub with
  | 2 => some (toLE 2 (bitIf 2 p.heldSet.isSome + bitIf 1 (pairForced o d q) + bitIf 0 p.active))
  | 3 => some [b8 p.owner.code]
  | 0x0C => some (toLE 4 p.shadow.period)
  | 0x0E => some (toLE 4 p.force.period)
  | 0x0F => some (toLE 1 p.flags)
  | _ => none

/-- One channel (0x4020 + channel). -/
def readChannel (d : Dev) (c sub : Nat) : Option Bytes :=
  let p := vget d.pwm.pairs (c / 2)
  let high := c % 2 == 0
  match sub with
  | 1 => some (toLE 4 (if high then p.shadow.riseH else p.shadow.riseL))
  | 2 => some (toLE 4 (if high then p.shadow.fallH else p.shadow.fallL))
  | 6 => some (toLE 4 (if high then p.force.riseH else p.force.riseL) ++ toLE 4 (if high then p.force.fallH else p.force.fallL))
  | 7 => some (toLE 4 (vget d.pwm.chans c).filtered)
  | _ => none

/-- One bridge (0x4200 + bridge). -/
def readBridge (o : Od) (d : Dev) (k sub : Nat) : Option Bytes :=
  let b := vget d.bridges k
  match sub with
  | 2 => some [b8 b.state.code]
  | 3 => some (toLE 1 (bridgeStatus d))
  | 4 => some (toLE 1 b.flags)
  | 0x10 => some (toLE 1 (retriesLeft o d k))
  | 0x11 => some (toLE 1 b.lastFault)
  | 0x12 => some (toLE 4 b.faultCount)
  | 0x13 => some (toLE 4 b.refreshCount)
  | 0x14 => some (toLE 2 b.selfTest)
  | _ => none

/-- One axis (0x4400 + 0x40 axis). -/
def readAxis (d : Dev) (n sub : Nat) : Option Bytes :=
  let a := vget d.axes n
  match sub with
  | 2 => some [b8 a.state.code]
  | 3 => some (toLE 1 a.flags)
  | 0x26 => some (rF a.speed)
  | 0x27 => some (rF a.torqueEst)
  | 0x28 => some (rF a.iD)
  | 0x29 => some (rF a.iQ)
  | 0x2A => some (rF a.pElec)
  | 0x2B => some (rF a.regenAllowed)
  | 0x2C => some (toLE 1 a.cause)
  | 0x2D => some (toLE 4 a.misses)
  | _ => none

def LegState.code : LegState → Nat
  | .off => 0 | .ready => 1 | .fault => 2

/-- Drive objects. -/
def readDrive (o : Od) (d : Dev) (ix sub : Nat) : Option Bytes :=
  if ix < 0x4014 then readPair o d (ix - 0x4000) sub
  else if 0x4020 ≤ ix ∧ ix < 0x4048 then readChannel d (ix - 0x4020) sub
  else if 0x4100 ≤ ix ∧ ix < 0x4138 ∧ sub = 3 then some (rBool (d.pwm.raised.testBit (ix - 0x4100)))
  else if 0x4180 ≤ ix ∧ ix < 0x418A then
    let g := ix - 0x4180
    let x := vget d.pwm.groups g
    match sub with
    | 9 => some (toLE 2 (autosLeft o d g * 256 + bitIf 1 x.exhausted + bitIf 0 x.forced))
    | 0x0A => some (toLE 1 x.first)
    | 0x0B => some (toLE 8 x.time)
    | 0x0C => some (toLE 4 x.count)
    | _ => none
  else if ix = 0x41F0 then
    match sub with
    | 2 => some (toLE 2 (bitsOf 10 (fun g => (vget d.pwm.groups g).forced)))
    | 3 => some (toLE 8 d.pwm.raised)
    | _ => none
  else if 0x4200 ≤ ix ∧ ix < 0x4206 then readBridge o d (ix - 0x4200) sub
  else if ix = 0x4210 ∧ sub = 1 then
    some (toLE 4 ((List.range 6).map (fun k => (vget d.bridges k).state.code * 16 ^ k)).sum)
  else if 0x4400 ≤ ix ∧ ix < 0x4580 then readAxis d ((ix - 0x4400) / 0x40) sub
  else if ix = 0x4600 ∧ sub = 2 then
    some [b8 ((vget d.ladder.legs 1).state.code * 4 + (vget d.ladder.legs 0).state.code)]
  else if ix = 0x4610 then
    match sub with
    | 0x0A => some [b8 d.ladder.step]
    | 0x0B => some (rF d.ladder.regenLimit)
    | 0x0C => some [b8 (bitIf 2 d.ladder.stale + bitIf 1 d.ladder.mech + bitIf 0 (d.ladder.step == 4))]
    | 0x0D => some (rF d.ladder.busV)
    | _ => none
  else none

/-! ### Safety (chapter 21) -/

def StoState.code : StoState → Nat
  | .off => 0 | .permit => 1 | .fault => 2

def IslandState.code : IslandState → Nat
  | .selftest => 0 | .failed => 1 | .notConfirmed => 2 | .operational => 3

/-- Safety objects. -/
def readSafety (o : Od) (d : Dev) (ix sub : Nat) : Option Bytes :=
  if 0x2080 ≤ ix ∧ ix < 0x2084 then
    let m := vget d.isl.speed (ix - 0x2080)
    match sub with
    | 1 => some (rF m.speed)
    | 2 => some (rBool m.valid)
    | 3 => some (rF m.current)
    | _ => none
  else if ix = 0x5000 then
    match sub with
    | 1 => some [b8 d.isl.state.code]
    | 2 => some (toLE 4 d.isl.ccv)
    | 4 => some (toLE 2 (heldDeviceWide o d))
    | 5 => some (toLE 2 d.isl.result)
    | _ => none
  else if 0x5010 ≤ ix ∧ ix < 0x5014 then
    let p := vget d.isl.pairs (ix - 0x5010)
    match sub with
    | 1 => some [b8 p.state.code]
    | 2 => some (toLE 2 p.causes)
    | 4 => some (toLE 4 p.passed)
    | 5 => some (toLE 4 p.discarded)
    | 6 => some (toLE 1 p.lastFault)
    | _ => none
  else if 0x5020 ≤ ix ∧ ix < 0x5024 ∧ sub = 8 then some (rBool (vget d.isl.speed (ix - 0x5020)).ss1.isSome)
  else if 0x5800 ≤ ix ∧ ix < 0x5820 then
    let x := vget d.isl.conns (ix - 0x5800)
    match sub with
    | 0x0A => some [b8 x.state.code]
    | 0x0B => some (toLE 2 x.lastSeq)
    | 0x0C => some (toLE 4 x.lone)
    | 0x0D => some (toLE 4 x.crcErrors)
    | 0x0E => some (toLE 4 x.stale)
    | _ => none
  else none

/-! ### All objects -/

/-- The live value of an object that shows state. -/
def readLive (o : Od) (d : Dev) (session : Option Nat) (ix sub : Nat) : Option Bytes :=
  if sub = 0 ∧ ix ≠ 0x1001 ∧ ix ≠ 0x2001 then none
  else if ix < 0x2000 then readCom o d ix sub
  else if ix < 0x2080 then readIdentity o d session ix sub
  else if ix < 0x2100 then readSafety o d ix sub
  else if ix < 0x2300 then readAon o d ix sub
  else if ix < 0x2400 then readSecurity d ix sub
  else if ix < 0x2500 then readTime o d ix sub
  else if ix < 0x2600 then readGuarantees o d ix sub
  else if ix < 0x2700 then readMeas o d ix sub
  else if ix < 0x2800 then readAcq o d ix sub
  else if ix < 0x2900 then readEngine o d ix sub
  else if ix < 0x3100 then readStack o d ix sub
  else if ix < 0x3200 then readLink o d ix sub
  else if ix < 0x3300 then readRegulation d ix sub
  else if ix < 0x3400 then readProtection d ix sub
  else if ix < 0x4000 then readLink o d ix sub
  else if ix < 0x5000 then readDrive o d ix sub
  else readSafety o d ix sub

/-- The highest subindex that the object tables list for an index (R31). -/
def highestSub (ix : Nat) : Nat :=
  (odRows.filter (fun r => r.lo ≤ ix && ix < r.lo + r.count * r.stride && (ix - r.lo) % r.stride == 0)).foldl (fun m r => max m r.s1) 0

/-- An index that some chapter defines (R33). -/
def indexKnown (ix : Nat) : Bool :=
  odRows.any (fun r => r.lo ≤ ix && ix < r.lo + r.count * r.stride && (ix - r.lo) % r.stride == 0)

/-- The highest subindex at present: what subindex 00 holds where it is an array's (R31). -/
def subCount (o : Od) (ix : Nat) : Nat :=
  match odRow ix 0 with
  | some r => if r.acc == .rw then odU o ix 0 else highestSub ix
  | none => highestSub ix

/-- A subindex that exists now (R31). -/
def subKnown (o : Od) (ix sub : Nat) : Bool :=
  if sub = 0 then true else (odRow ix sub).isSome && sub ≤ subCount o ix

/-- What an object reads as, once the read is permitted. -/
def readValue (s : State) (session : Option Nat) (ix sub : Nat) : Bytes :=
  match readLive s.od s.dev session ix sub with
  | some b => b
  | none => if sub = 0 ∧ (odRow ix 0).isNone then [b8 (highestSub ix)] else odGet s.od ix sub

/-- A register of BAR0 as a read finds it (Tables 17.6, 17.7 and 2.9), the MSI-X windows apart; reserved offsets read 0. -/
def barRead (o : Od) (d : Dev) (offset : Nat) : Nat :=
  match offset with
  | 0x0000 => 0x00088128
  | 0x0004 => 1
  | 0x0008 => d.clk.dt % 2 ^ 32
  | 0x000C => d.acq.pcie.timeHi
  | 0x0010 => streamsEnabled d
  | 0x0014 => deviceStatus o d
  | n =>
    let x := getStream d ((n - 0x1000) / 0x80)
    let slot := vget d.com.slots ((n - 0x4000) / 0x800)
    let off := n % 0x800
    if 0x4000 ≤ n ∧ n < 0x6000 then
      (if off = 0 then bitIf 31 slot.owner + slot.msgLen else if 0x10 ≤ off ∧ off < 0x424 then leAt slot.message (off - 0x10) 4 else 0)
    else if n < 0x1000 ∨ 0x2000 ≤ n then 0
    else match n % 0x80 with
      | 0x00 => x.ringBase % 2 ^ 32
      | 0x04 => x.ringBase / 2 ^ 32
      | 0x08 => x.ringSize
      | 0x0C => x.tail
      | 0x10 => x.fetched
      | 0x14 => x.completed
      | 0x18 => x.irqCount
      | 0x1C => x.irqTime
      | 0x20 => bitIf 2 x.paused + bitIf 1 x.gap.isSome + bitIf 0 x.enabled
      | 0x24 => x.ignored
      | _ => 0

end Sys2Proof.Machine
end

