-- ==== Sys2Proof/Machine/Check.lean ====
section
/-! DEFINITION. The checks of R35 that look at an object and a value: length, value range and reserved bits, commissioning, and
the owning functions of rwS objects. -/
namespace Sys2Proof.Machine

/-- An abort code and its detail code (R55). -/
abbrev Abort := Nat × Nat

/-- 0x0800_0022: legal in itself, not in the present state. -/
def inState (detail : Nat) : Abort := (0x08000022, detail)

/-! ### Length (R34, R35 step 4) -/

/-- Permitted lengths of a DOMAIN object, where its chapter ties them to other objects (R342, R360, R365, R387, Table 8.3). -/
def domainLength (o : Od) (ix sub len : Nat) : Bool :=
  if 0x2420 ≤ ix ∧ ix ≤ 0x2423 then 8 ≤ len && len ≤ 256 && len % 8 == 0
  else if 0x2810 ≤ ix ∧ ix ≤ 0x281F then
    let n := ix - 0x2810
    if sub = 0x13 then len == 4 * ceCoefs o n else len == (ceArray o n sub).length
  else if 0x2601 ≤ ix ∧ ix ≤ 0x2608 then 8 ≤ len && len ≤ 128 && len % 8 == 0
  else if ix = 0x2710 ∨ ix = 0x2711 ∨ ix = 0x2712 ∨ ix = 0x2713 then
    len == (if sub = 2 then 4 else 8) * chCount o (ix - 0x2710)
  else 1 ≤ len && len ≤ 65536

/-- The value has a length that the object takes. -/
def lengthOk (o : Od) (r : OdRow) (ix sub len : Nat) : Bool :=
  match r.check with
  | .len lo hi step => lo ≤ len && len ≤ hi && len % step == 0
  | _ => match r.ty with
    | .dom => domainLength o ix sub len
    | t => len == t.size

/-! ### Value (R7, R8, R35 step 5) -/

def badValue : Option Abort := some (0x06090030, 0)
def tooHigh : Option Abort := some (0x06090031, 0)
def tooLow : Option Abort := some (0x06090032, 0)
def require (c : Bool) (a : Option Abort) : Option Abort := if c then none else a

/-- A range, with its abort on either side. -/
def inRange (lo hi x : Int) : Option Abort := if hi < x then tooHigh else if x < lo then tooLow else none
def inRangeQ (lo hi x : Rat) : Option Abort := if hi < x then tooHigh else if x < lo then tooLow else none

/-- A value as the number that its type gives it. -/
def numOf (ty : OdType) (n : Nat) : Int := match ty with
  | .i k => toSigned (8 * k) n
  | _ => n

/-- Values that the type itself refuses (Table 2.2). -/
def typeCheck (ty : OdType) (b : Bytes) : Option Abort := match ty with
  | .bool => require (leNat b ≤ 1) badValue
  | .f32 => require (!f32Special (leNat b)) badValue
  | _ => none

/-- Format of 0x3020:01: a converter and a sequence entry, or none. -/
def entryCode (n : Nat) : Bool := n == 0xFF || !n.testBit 4

/-- Bits of an event class mask (0x1FE4:01). -/
def classMask : Nat := 0xf0300010003003e

/-- The word has no bit outside a mask. -/
def within (mask n : Nat) : Bool := n &&& mask == n

/-- A mapping entry (R51): nothing, or a mappable object with its whole length. -/
def mapEntryCheck (n : Nat) : Option Abort :=
  if n = 0 then none
  else match odRow (n / 65536) (n / 256 % 256) with
    | none => some (0x06040041, 0)
    | some r => if !r.mappable then some (0x06040041, 0) else require (n % 256 == 8 * r.ty.size) badValue

/-- A domain route holds what each of its domains requires unconditionally (R137). -/
def routeOk (n : Nat) : Bool :=
  (!n.testBit 2 || n.testBit 1) && (!(n.testBit 3 || n.testBit 4 || n.testBit 5) || (n.testBit 1 && n.testBit 6))

/-- FAULT_ACTION (R317). -/
def faultActionsOk (b : Bytes) : Bool :=
  (List.range 16).all (fun i =>
    let v := leAt b i 1
    if i = 10 ∨ i = 13 then v == 2
    else if 14 ≤ i then v == 0
    else if [0, 2, 3, 4, 5, 6, 7, 8].contains i then 1 ≤ v && v ≤ 2
    else v ≤ 2)

/-- U_MIN is not above U_MAX for any output. -/
def limitsOk (b : Bytes) : Bool := (List.range (b.length / 8)).all (fun i => i32At b (2 * i) ≤ i32At b (2 * i + 1))

/-- SAFE_OUT lies within the limits of its outputs. -/
def safeOutCheck (o : Od) (n : Nat) (b : Bytes) : Option Abort :=
  (List.range (b.length / 4)).findSome? (fun i =>
    inRange (i32At (ceArray o n 0x0A) (2 * i)) (i32At (ceArray o n 0x0A) (2 * i + 1)) (i32At b i))

/-- A Y_SOURCE entry has a code of R347. -/
def ySourceOk (b : Bytes) : Bool :=
  (List.range (b.length / 2)).all (fun j => leAt b (2 * j) 1 ≤ 3 && (leAt b (2 * j) 1 != 1 || entryCode (leAt b (2 * j + 1) 1)))

/-- CHANNELS: a KIND of Table 17.1 (R8), a REDUCE code of R388, the reserved byte 0, an ADC entry in its format. -/
def channelsOk (b : Bytes) : Bool :=
  (List.range (b.length / 4)).all (fun i => 1 ≤ leAt b (4 * i) 1 && leAt b (4 * i) 1 ≤ 4 && leAt b (4 * i + 2) 1 ≤ 3 && leAt b (4 * i + 3) 1 == 0
    && (leAt b (4 * i) 1 != 1 || !(leAt b (4 * i + 1) 1).testBit 4))

/-- TRIG_PATTERN: a condition of R389 and the reserved byte 0. -/
def patternOk (b : Bytes) : Bool :=
  (List.range (b.length / 8)).all (fun i => leAt b (8 * i) 1 ≤ 7 && leAt b (8 * i + 1) 1 == 0)

/-- STREAM_SOURCE holds a code of Table 17.2. -/
def sourceCodeOk (n : Nat) : Bool := match n / 256 with
  | 0 => n == 0
  | 1 => n % 256 ≤ 3
  | 2 => n % 256 == 0
  | 3 => true
  | 4 => n % 256 == 0
  | _ => false

/-- SOURCE_OPTION under the source in force (Table 17.2). -/
def optionCheck (o : Od) (s n : Nat) : Option Abort := match srcKind o s with
  | 2 => require (within classMask n) badValue
  | 3 => if 65536 ≤ n then badValue else inRange 1 65535 n
  | 4 => if 65536 ≤ n then badValue else inRange 1 65535 n
  | _ => none

/-- Profile segments have every field in range (Table 8.3). -/
def segmentsOk (b : Bytes) : Bool :=
  (segmentsOf b).all (fun (t, dur, res) => 5000000 ≤ t && t ≤ 50000000 && 1 ≤ dur && res == 0)

/-- A SEQUENCE value is legal in the converter's power mode (R365, Table 16.2). -/
def sequenceOk (low : Bool) (b : Bytes) : Bool := (List.range (b.length / 8)).all (seqEntryOk low b)

/-- Instance number of a role, or none (0x3200:02). -/
def roleCheck (n : Nat) : Option Abort := if n = 0xFF then none else inRange 0 15 n

/-- Value checks that look at other objects, or have a form of their own. -/
def dynCheck (o : Od) (ix sub : Nat) (b : Bytes) : Option Abort :=
  let n := leNat b
  let x := f32Val n
  if ix < 0x2000 then
    if (0x1600 ≤ ix ∧ ix ≤ 0x161F) ∨ 0x1A00 ≤ ix then mapEntryCheck n
    else require ((1 ≤ n && n ≤ 240) || n == 0xFE || n == 0xFF) badValue
  else if ix = 0x2541 then require (accountIx n).isSome badValue
  else if ix = 0x2201 then require (n % 8 == 7 && (n &&& 0x38 == 0 || n.testBit 6)) badValue
  else if ix = 0x2101 then require (within 0x3FF n && n / 256 ≤ 1 && !n.testBit 0) badValue
  else if ix = 0x2103 then require (within 0x7FF n) badValue
  else if ix = 0x2104 then require (routeOk n) badValue
  else if ix = 0x2105 then require (100 ≤ n && n ≤ 3000 && n % 10 == 0) badValue
  else if ix = 0x2117 then require (n == 0) badValue
  else if 0x2111 ≤ ix ∧ ix ≤ 0x2116 then require (n ≤ 2) badValue
  else if ix = 0x2411 then require (2 ≤ n && n ≤ 1024 && n % 2 == 0) badValue
  else if 0x2420 ≤ ix ∧ ix ≤ 0x2423 then require (segmentsOk b) badValue
  else if ix = 0x2441 then inRange (if sub = 6 then odU o 0x2441 4 else 10) (if sub = 6 then 1000000 else 100000) n
  else if ix = 0x2450 ∨ ix = 0x2451 then
    if sub = 1 then require (!(leAt b 0 1).testBit 0) badValue
    else require (!n.testBit 12 && n % 4096 != 0xFFF) badValue
  else if 0x3180 ≤ ix ∧ ix ≤ 0x3187 then
    if n = 0 ∧ odU o ix 1 = 0 then none else inRange 1 16 n
  else if ix = 0x3400 then
    if sub = 6 then inRange 100 1500 n else inRange (odU o 0x3400 6) 2000 n
  else if ix = 0x3000 then require (n ≤ 3) badValue
  else if ix = 0x3021 then
    if sub = 2 then inRange 40000 (odU o 0x3021 3) n else inRange (odU o 0x3021 2) 70000 n
  else if ix = 0x3030 then require (n ≤ 1) badValue
  else if ix = 0x3200 then
    if sub = 2 then roleCheck n else inRangeQ 0 (odF o 0x3200 5) x
  else if 0x3201 ≤ ix ∧ ix ≤ 0x3204 then roleCheck n
  else if ix = 0x3220 then
    if sub = 1 then inRange 5000000 (odU o 0x3220 2) n else inRange (odU o 0x3220 1) 50000000 n
  else if ix = 0x3308 then
    match sub with
    | 1 => require (faultActionsOk b) badValue
    | 0x0A => require (stackOfCell o n).isSome badValue
    | _ => none
  else if ix = 0x3310 then
    if sub = 3 then inRangeQ 0 (odF o 0x3310 4) x else inRangeQ (odF o 0x3310 3) 50000 x
  else if 0x2810 ≤ ix ∧ ix ≤ 0x281F then
    let i := ix - 0x2810
    match sub with
    | 1 => require ([0x62616E65, 0x61736964, 0x74657372, 0x6D757372].contains n) (some (0x08000020, 0))
    | 8 => require (ySourceOk b) badValue
    | 0x0A => require (limitsOk b) badValue
    | 0x0B => safeOutCheck o i b
    | 0x0E => require (n < 2 ^ ceP o i) badValue
    | 0x12 => require (n < 2 ^ ceN o i) badValue
    | _ => none
  else if 0x2601 ≤ ix ∧ ix ≤ 0x2608 then
    match sub with
    | 2 => require (1 ≤ n && n ≤ 6) badValue
    | 8 => require (sequenceOk (odU o ix 6 == 1) b) badValue
    | _ => none
  else if 0x2630 ≤ ix ∧ ix ≤ 0x264F then
    match sub with
    | 2 => require (n ≤ 3) badValue
    | 3 => require (within 0x03FF03FF n && n % 65536 ≤ n / 65536) badValue
    | _ => none
  else if 0x2710 ≤ ix ∧ ix ≤ 0x2713 then
    match sub with
    | 2 => require (channelsOk b) badValue
    | 4 => inRange 0 ((odU o ix 3 : Int) - 1) n
    | _ => require (patternOk b) badValue
  else if 0x2740 ≤ ix ∧ ix ≤ 0x275F then
    if sub = 2 then require (sourceCodeOk n) badValue else optionCheck o (ix - 0x2740) n
  else if 0x4000 ≤ ix ∧ ix ≤ 0x4013 then
    if sub = 5 then require (n == 0 || (0x80 ≤ n && n < 0x94 && n - 0x80 != ix - 0x4000)) badValue
    else require (n ≤ 1) badValue
  else if 0x4100 ≤ ix ∧ ix ≤ 0x4137 then require (n ≤ 7 && (ix < 0x4110 || n == 0)) badValue
  else if 0x4180 ≤ ix ∧ ix ≤ 0x4189 then require (n ≤ 2) badValue
  else if 0x4200 ≤ ix ∧ ix ≤ 0x4205 then
    if sub = 7 then inRange 100 2000 n else inRange (max 1000 (odU o ix 7)) 10000 n
  else if 0x4400 ≤ ix ∧ ix < 0x4580 then
    if sub = 0x17 then inRangeQ 0 (odF o ix 0x18) x else inRangeQ (odF o ix 0x17) 20000 x
  else if ix = 0x4600 then
    match inRange 16000 800000 n with
    | some a => some a
    | none => require (n % 2 == 0) badValue
  else if ix = 0x5000 then
    if sub = 7 then inRange 100 800 n else inRange 10 1000 n
  else none

/-- LOW_POWER is refused while an entry of the sequence is too short for it (R372); a key of 32 zero bytes is refused (R149). -/
def ownValueCheck (o : Od) (ix sub : Nat) (b : Bytes) : Option Abort :=
  if 0x2601 ≤ ix ∧ ix ≤ 0x2608 ∧ sub = 6 ∧ leNat b = 1 then require (sequenceOk true (odGet o ix 8)) badValue
  else if ix = 0x2330 ∧ 2 ≤ sub ∧ sub ≤ 4 then require (b.any (· != 0)) badValue
  else none

/-- The value check of a row. -/
def rowCheck (o : Od) (r : OdRow) (ix sub : Nat) (b : Bytes) : Option Abort :=
  let n := leNat b
  match r.check with
  | .any => none
  | .rng lo hi => inRange lo hi (numOf r.ty n)
  | .zrng lo hi => if numOf r.ty n = 0 then none else inRange lo hi (numOf r.ty n)
  | .codes l => require (l.contains n) badValue
  | .codesUpTo m => require (n ≤ m) badValue
  | .mask m => require (within m n) badValue
  | .zeroOnly => require (n == 0) badValue
  | .sig l => require (l.contains n) (some (0x08000020, 0))
  | .entry => require (entryCode n) badValue
  | .frng lo hi => inRangeQ lo hi (f32Val n)
  | .fzrng lo hi => if f32Val n = 0 then none else inRangeQ lo hi (f32Val n)
  | .fge0 => require (0 ≤ f32Val n) tooLow
  | .fle0 => require (f32Val n ≤ 0) tooHigh
  | .len _ _ _ => none
  | .dyn => dynCheck o ix sub b

/-- R35 step 5. -/
def valueCheck (o : Od) (r : OdRow) (ix sub : Nat) (b : Bytes) : Option Abort :=
  (typeCheck r.ty b).or ((rowCheck o r ix sub b).or (ownValueCheck o ix sub b))

/-! ### Owning functions of rwS objects (R35 step 8) -/

/-- A PDO is valid: bit 31 of its COB-ID is clear (R51). -/
def pdoValid (o : Od) (ix : Nat) : Bool := !(odU o ix 1).testBit 31

/-- A session state in which the session counts as stopped for PARAM_SET (0x3100:06). -/
def SessState.setFree (s : SessState) : Bool :=
  s.code ≤ 3 || s == .blocked || s == .bypassed || s == .fault

/-- Some session that uses set `n` is in LOCKED, PARAM or RESYNC (0x3410). -/
def setInUse (o : Od) (d : Dev) (n : Nat) : Bool :=
  (List.range 128).any (fun c => odU o (0x3100 + c) 6 == n
    && (let st := (getCell d c).state; st == .locked || st == .param || st == .resync))

/-- The function code of the owning function where it runs, so that an rwS write is refused (Table 2.3). -/
def functionRuns (o : Od) (d : Dev) (ix sub : Nat) : Option Nat :=
  let ran (c : Bool) (code : Nat) : Option Nat := if c then some code else none
  let stk := ran d.stack.state.runs 0x3000
  let ring (r : Nat) := ran (ringActive d r) (0x3180 + r)
  if ix = 0x1FE0 then ran (pdoValid o (0x1400 + (sub - 1))) (Config.pdoFunction (sub - 1)).toNat
  else if ix = 0x1FE1 then ran (pdoValid o (0x1800 + (sub - 1))) (Config.pdoFunction (32 + (sub - 1))).toNat
  else if ix = 0x2410 ∨ ix = 0x2411 then ran d.stack.state.runs 0x0410
  else if ix = 0x2413 then ran (anyRing d || d.stack.state.runs) 0x2413
  else if ix = 0x2440 then ran (odU o 0x2440 1 != 0) 0x0440
  else if 0x3180 ≤ ix ∧ ix ≤ 0x3187 then ring (ix - 0x3180)
  else if 0x31A0 ≤ ix ∧ ix ≤ 0x31A7 then ring (ix - 0x31A0)
  else if ix = 0x31F0 then ran (anyRing d) 0x31F0
  else if 0x3100 ≤ ix ∧ ix ≤ 0x317F then ran (!(getCell d (ix - 0x3100)).state.setFree) ix
  else if 0x3410 ≤ ix ∧ ix ≤ 0x3413 then ran (setInUse o d (ix - 0x3410)) ix
  else if 0x3000 ≤ ix ∧ ix < 0x3300 then stk
  else if 0x2810 ≤ ix ∧ ix ≤ 0x281F then
    ran ((getCe d (ix - 0x2810)).state != .disabled) ix
  else if 0x2601 ≤ ix ∧ ix ≤ 0x2608 then ran (adcEnabled o (ix - 0x2601)) ix
  else if 0x2630 ≤ ix ∧ ix ≤ 0x264F then ran (cmpMode o (ix - 0x2630) != 0) ix
  else if 0x2710 ≤ ix ∧ ix ≤ 0x2713 then ran (setStream o d (ix - 0x2710)).isSome ix
  else if 0x2740 ≤ ix ∧ ix ≤ 0x275F then ran (getStream d (ix - 0x2740)).enabled ix
  else if 0x4000 ≤ ix ∧ ix ≤ 0x4013 then
    let p := vget d.pwm.pairs (ix - 0x4000)
    ran p.active ix
  else if 0x4020 ≤ ix ∧ ix ≤ 0x4047 then
    let q := (ix - 0x4020) / 2
    ran (vget d.pwm.pairs q).active (0x4000 + q)
  else if 0x4100 ≤ ix ∧ ix ≤ 0x4189 then ran (pwmActive d) 0x4180
  else if 0x4200 ≤ ix ∧ ix ≤ 0x4205 then ran (vget d.pwm.pairs (14 + (ix - 0x4200))).active ix
  else if 0x4400 ≤ ix ∧ ix < 0x4580 then ran (axisOn (vget d.axes ((ix - 0x4400) / 0x40))) ix
  else if ix = 0x4600 then ran d.ladder.enabled 0x4600
  else if ix = 0x4610 then ran (ladderRuns d) 0x4610
  else none

/-! ### Steps 1 to 8 (R35) -/

/-- Objects that the recovery service serves in boot hold (R117). -/
def servedInHold (ix : Nat) : Bool :=
  (0x1000 ≤ ix && ix ≤ 0x1FFF) || (0x2000 ≤ ix && ix ≤ 0x2010) || (0x2200 ≤ ix && ix ≤ 0x22FF) || ix == 0x2340

/-- Steps 1 and 2, and the refusal of boot hold after them (R35, R117). -/
def addressCheck (s : State) (ix sub : Nat) : Option Abort :=
  if !indexKnown ix then some (0x06020000, 0)
  else if !subKnown s.od ix sub then some (0x06090011, 0)
  else if s.dev.sec.hold && !servedInHold ix then some (inState 0x02030000)
  else none

/-- The owning domain is ON; AON, SEC and NET are ON wherever a request is served (R32, step 6). -/
def ownerCheck (d : Dev) (ix : Nat) : Option Abort :=
  let m := ownerOf ix
  if m == .aon || m == .sec || m == .net || d.isOn m then none else some (inState (0x00010000 + m.num))

/-- Access code of an object; subindex 00 without a row is const (R31). -/
def accessOf (ix sub : Nat) : OdAccess := match odRow ix sub with
  | some r => r.acc
  | none => .const

/-- Checks of a read (R35 steps 1, 2, 3, 6 and 9): at step 9 COMM_PROOF is for the holding session only (R161). -/
def readCheck (s : State) (session : Option Nat) (ix sub : Nat) : Option Abort :=
  (addressCheck s ix sub).or
    (if accessOf ix sub == .wo then some (0x06010001, 0)
    else (ownerCheck s.dev ix).or
      (if ix = 0x2320 ∧ sub = 3 then
        match s.dev.sec.holder with
        | none => some (inState 0x03020000)
        | some h => if some h == session then none else some (inState (0x03010000 + h))
      else none))

/-- Steps 1 to 8 of a write. -/
def writeCheck (s : State) (session : Option Nat) (ix sub : Nat) (b : Bytes) : Option Abort :=
  (addressCheck s ix sub).or
    (match odRow ix sub with
    | none => some (0x06010002, 0)
    | some r =>
      if r.acc == .ro || r.acc == .const then some (0x06010002, 0)
      else if !lengthOk s.od r ix sub b.length then some (0x06070010, 0)
      else (valueCheck s.od r ix sub b).or
        ((ownerCheck s.dev ix).or
          (if r.acc == .rwC && (session.isNone || s.dev.sec.holder != session) then some (inState 0x00020000)
          else if r.acc == .rwS then (functionRuns s.od s.dev ix sub).map (fun f => inState (0x00030000 + f))
          else none)))

end Sys2Proof.Machine
end

