-- ==== Sys2Proof/Machine/WriteCom.lean ====
section
/-! DEFINITION. What a write does that has passed steps 1 to 8 of R35: communication, guarantees, AON, security and time. Each
function gives the abort of step 9, or none and the state after the write. -/
namespace Sys2Proof.Machine

/-- The result of a write: the abort, or none, and the state; a refused write changes nothing but what its chapter records. -/
abbrev Wrote := Option Abort × State

/-- A refusal of step 9 with its detail code, which changes nothing. -/
def refuse (detail : Nat) (s : State) : Wrote := (some (inState detail), s)

/-- A refusal of step 9 where there is one, else the state after. -/
def unlessRefused (r : Option Nat) (s t : State) : Wrote := match r with
  | some x => refuse x s
  | none => (none, t)

/-- The object takes its value. -/
def put (ix sub : Nat) (b : Bytes) (s : State) : State := { s with od := odSet s.od ix sub b }

/-- A change of the device alone. -/
def devTo (f : Dev → Dev) (s : State) : State := { s with dev := f s.dev }

/-- The detail code of a refusal that answers as an abort of its own. -/
def wrote (s : State) : Wrote := (none, s)

/-! ### Stores and restores (R37 to R39) -/

/-- The objects of a store group: 2 communication, 3 application, 4 safety. -/
def groupHolds (g ix : Nat) : Bool := match g with
  | 2 => 0x1000 ≤ ix && ix ≤ 0x20FF
  | 3 => 0x2100 ≤ ix && ix ≤ 0x4FFF
  | _ => 0x5000 ≤ ix && ix ≤ 0x58FF

/-- The groups that subindex `sub` of 0x1010 or 0x1011 marks, written in a session (R39). -/
def groupsOfStore (d : Dev) (session : Option Nat) (sub : Nat) : List Nat :=
  if sub = 1 then (if session.isSome && d.sec.holder == session then [2, 3, 4] else [2, 3]) else [sub]

/-- The contents of the new bank: for a store the live values of the marked groups where the owning domain is ON; for a restore
nothing of the marked groups; everything else as in the current bank (R39). -/
def storeContents (s : State) (restore : Bool) (groups : List Nat) : Od :=
  let marked (k : Nat) : Bool := groups.any (fun g => groupHolds g (k / 256))
  let lives (k : Nat) : Bool := isPersistent (k / 256) (k % 256) && s.dev.isOn (ownerOf (k / 256))
  let old := (bankContents s.dev).filter (fun p => !marked p.1 || (!restore && !lives p.1))
  let live := if restore then [] else s.od.filter (fun p => marked p.1 && lives p.1)
  live.foldl (fun o p => odInsert p.1 p.2 o) old

/-- A store (0x1010) or restore (0x1011) begins (R39): the bank that is not current is written, and until its CRC is in place it is
not valid. -/
def storeWrite (session : Option Nat) (restore : Bool) (sub : Nat) (s : State) : Wrote :=
  if s.dev.com.store.isSome then refuse 0x00080000 s
  else
    let d := s.dev
    let bank := match d.sec.bank with
      | some b => 1 - b
      | none => 0
    let counter := match d.sec.bank with
      | some b => (vget d.nv.banks b).counter + 1
      | none => 1
    let op : StoreOp := {
      bank := bank, counter := counter, contents := storeContents s restore (groupsOfStore d session sub)
      session := session.getD 0, ix := if restore then 0x1011 else 0x1010, sub := sub }
    let d1 := onNv (fun v => { v with banks := vmod v.banks bank (fun b => { b with valid := false }) }) d
    wrote { s with dev := { d1 with com := { d1.com with store := some op } } }

/-! ### Communication area -/

/-- RPDO and TPDO transport length in bytes, by transport code (Table 2.10). -/
def pdoCapacity (transport : Nat) : Nat := if transport < 0x10 then 64 else 1024

/-- Mapping entries 1 to `n` of a mapping object. -/
def mapEntries (o : Od) (ix n : Nat) : List Nat := (List.range n).map (fun i => odU o ix (i + 1))

/-- A write of a mapping object (R51): only while the PDO is invalid, and its length judged when subindex 00 is written. -/
def mappingWrite (ix sub : Nat) (b : Bytes) (s : State) : Wrote :=
  let par := ix - 0x200
  let tr := if ix < 0x1800 then odU s.od 0x1FE0 (ix - 0x1600 + 1) else odU s.od 0x1FE1 (ix - 0x1A00 + 1)
  let bytes := ((mapEntries s.od ix (leNat b)).map (fun e => e % 256 / 8)).sum
  if pdoValid s.od par then refuse (0x00070000 + ix) s
  else if sub = 0 ∧ pdoCapacity tr < bytes then (some (0x06040042, 0), s)
  else wrote (put ix sub b s)

/-- Run state of a PDO whose COB-ID was written: what was held or counted is gone (R51 to R54). -/
def pdoRestart (ix : Nat) (d : Dev) : Dev :=
  if ix < 0x1800 then
    { d with com := { d.com with rpdos := vmod d.com.rpdos (ix - 0x1400) (fun r => { r with held := none, lastReceived := d.clk.run }) } }
  else { d with com := { d.com with tpdos := vset d.com.tpdos (ix - 0x1800) { lastSent := d.clk.run } } }

/-- NMT reset node and reset communication (R45): sessions 0 to 7 close, 0x1000 to 0x1FFF are reloaded, the node-ID takes effect. -/
def nmtReset (s : State) : State :=
  let s1 := { s with dev := closeSessions s.od (List.range 8) s.dev }
  let s2 := { s1 with od := odReload (fun ix => 0x1000 ≤ ix && ix ≤ 0x1FFF) (bankContents s1.dev) s1.od }
  s2.act (fun o d => followChannels o { d with com := { d.com with
    nmt := .preOperational, nodeId := odU o 0x2002 1, iface := ifaceOf o
    rpdos := d.com.rpdos.map (fun r => { r with held := none, status := 0, lastReceived := d.clk.run })
    tpdos := Vector.replicate 32 { lastSent := d.clk.run }
    heartbeatLast := d.clk.run } })

/-- NMT start, stop and enter pre-operational. -/
def nmtTo (n : NmtState) (d : Dev) : Dev := { d with com := { d.com with
  nmt := n
  rpdos := d.com.rpdos.map (fun r => { r with lastReceived := d.clk.run }) } }

/-- An NMT command by its CiA 301 code (0x2002:03). -/
def nmtCommand (code : Nat) (s : State) : State := match code with
  | 0x01 => devTo (nmtTo .operational) s
  | 0x02 => devTo (nmtTo .stopped) s
  | 0x80 => devTo (nmtTo .preOperational) s
  | _ => nmtReset s

/-- Communication objects 0x1000 to 0x2010. -/
def writeCom (session : Option Nat) (ix sub : Nat) (b : Bytes) (s : State) : Wrote :=
  if ix = 0x1010 then storeWrite session false sub s
  else if ix = 0x1011 then storeWrite session true sub s
  else if ix = 0x1017 then wrote (devTo (fun d => { d with com := { d.com with heartbeatLast := d.clk.run } }) (put ix sub b s))
  else if 0x1200 ≤ ix ∧ ix ≤ 0x1207 then wrote ((put ix sub b s).act followChannels)
  else if (0x1400 ≤ ix ∧ ix ≤ 0x141F) ∨ (0x1800 ≤ ix ∧ ix ≤ 0x181F) then
    wrote (if sub = 1 then devTo (pdoRestart ix) (put ix sub b s) else put ix sub b s)
  else if (0x1600 ≤ ix ∧ ix ≤ 0x161F) ∨ (0x1A00 ≤ ix ∧ ix ≤ 0x1A1F) then mappingWrite ix sub b s
  else if ix = 0x1FE3 then
    wrote (devTo (fun d => { d with com := { d.com with rpdos := vmod d.com.rpdos (sub - 1) (fun r => { r with status := 0 }) } }) s)
  else if ix = 0x2002 ∧ sub = 2 then wrote ((put ix sub b s).act portInForce)
  else if ix = 0x2002 ∧ sub = 3 then wrote (nmtCommand (leNat b) s)
  else wrote (put ix sub b s)

/-! ### Guarantees and ledger (chapter 3) -/

def writeGuarantees (ix sub : Nat) (b : Bytes) (s : State) : Wrote :=
  if ix = 0x2500 then wrote (devTo (fun d => { d with breach := { d.breach with summary := 0 } }) s)
  else if ix = 0x2540 ∧ sub = 2 then wrote (devTo checkpointStart s)
  else if ix = 0x2541 ∧ sub = 3 then wrote (s.act (accountReset · (leNat b)))
  else wrote (put ix sub b s)

/-! ### Domains, reset and boot (chapters 5 and 6) -/

/-- GROUP_REQUEST (R132). -/
def groupWrite (v : Nat) (s : State) : Wrote :=
  if s.dev.aon.group.isSome || seqBusy s.dev then refuse 0x01050000 s else wrote (devTo (groupStart v) s)

/-- BOOT_CONFIRM (R116). -/
def bootConfirm (s : State) : Wrote :=
  if !s.dev.nv.boot.trial then refuse 0x02020000 s
  else wrote (devTo (fun d => if trialRunning d then onNv (Nv.setBoot (fun v => { v with trial := false })) d else d) s)

def writeAon (ix sub : Nat) (b : Bytes) (s : State) : Wrote :=
  let n := leNat b
  if ix = 0x2100 then
    let (r, s1) := domainRequest (Domain.ofNum (sub - 1)) ((DomState.ofCode n).getD .off) s
    (r.map inState, s1)
  else if ix = 0x2101 then groupWrite n s
  else if ix = 0x2103 then
    let now := if s.dev.sec.lifecycle = 2 then clrBit n 10 else n
    let was := odU s.od 0x2103 1
    wrote (devTo (modAon (fun a => { a with waking := false })) ((put ix sub (toLE 2 now) s).act (fun o d => wakeEnabled o was now d)))
  else if ix = 0x2106 ∧ sub = 1 then wrote ((put ix sub b s).act rtcSource)
  else if ix = 0x2106 ∧ sub = 3 then
    if n ≠ 0 ∧ odU s.od 0x2106 1 = 0 then refuse 0x01060000 s
    else wrote (devTo alarmWritten (put ix sub b s))
  else if ix = 0x2200 then wrote (devTo (modReset (fun r => { r with stuck := false })) s)
  else if ix = 0x2202 then unlessRefused (deviceResetRefusal s.dev) s s
  else if ix = 0x2210 then bootConfirm s
  else wrote (put ix sub b s)

/-! ### Security (chapter 7) -/

/-- LIFECYCLE_ADVANCE (R147) with what its two cells read after the blow: an advance that does not complete answers 0x0606_0000. -/
def lifecycleWrite (session : Option Nat) (sealing cellA cellB : Bool) (s : State) : Wrote :=
  match advanceRefusal sealing (session.getD 64) s.dev with
  | some x => refuse x s
  | none =>
    let (ok, d) := advance s.od sealing cellA cellB s.dev
    (if ok then none else some (0x06060000, 0), { s with dev := d })

/-- COMM_RESPONSE (R161): NONCE_H and MAC. -/
def commResponseWrite (session : Option Nat) (b : Bytes) (s : State) : Wrote :=
  let n := session.getD 64
  match commRefusal n s.dev with
  | some x => refuse x s
  | none =>
    let (ok, d) := commResponse s.od n (slice b 0 16) (slice b 16 32) s.dev
    (if ok then none else some (0x08000000, 0x030B0000), { s with dev := d })

/-- COMM_END (R162). -/
def commEndWrite (session : Option Nat) (s : State) : Wrote :=
  if session.isSome && s.dev.sec.holder == session then wrote (s.act (commEnd · 1)) else refuse 0x03020000 s

def keySlotWrite (session : Option Nat) (slot : Nat) (key : Bytes) (s : State) : Wrote :=
  unlessRefused (keyRefusal slot (session.getD 64) s.dev) s (s.act (keyWrite · slot key))

/-- Writes of the image load and of SEC_VERSION_RAISE (R164, R165). -/
def loadWrite (session : Option Nat) (sub : Nat) (b : Bytes) (s : State) : Wrote :=
  let d := s.dev
  if sub = 7 then
    if session.isNone || d.sec.holder != session then refuse 0x03020000 s
    else if !raiseAllowed d then refuse 0x030A0000 s
    else wrote (s.act secVersionRaise)
  else if !loadAllowed s.od (session.getD 64) d then refuse 0x03020000 s
  else match sub with
    | 1 => if d.nv.boot.trial then refuse 0x03080000 s else wrote (devTo loadBegin s)
    | 2 =>
      if d.sec.load.isNone then refuse 0x03070000 s
      else if 1572864 < loadOffset d + b.length then (some (0x06090031, 0), s)
      else wrote (devTo (loadData b) s)
    | _ => if d.sec.load.isNone then refuse 0x03070000 s else wrote (s.act loadCommit)

def writeSecurity (session : Option Nat) (ix sub : Nat) (b : Bytes) (s : State) : Wrote :=
  if ix = 0x2300 then lifecycleWrite session (leNat b == 0x6C616573) true true s
  else if ix = 0x2320 ∧ sub = 2 then commResponseWrite session b s
  else if ix = 0x2320 ∧ sub = 4 then commEndWrite session s
  else if ix = 0x2330 then keySlotWrite session (sub - 2) b s
  else if ix = 0x2340 ∧ sub ≠ 6 then loadWrite session sub b s
  else wrote (put ix sub b s)

/-! ### Time (chapter 8) -/

/-- TIME_STEP_NOW (Table 8.9): permits one pending step. -/
def stepNowWrite (s : State) : Wrote :=
  let d := s.dev
  if d.time.pending = 0 then refuse 0x04020000 s
  else if anyRing d || pwmActive d then refuse 0x04010000 s
  else wrote (devTo (onTime (fun t => { t with stepNow := true })) s)

/-- SEGMENTS or END_ACTION of the profile that runs is refused; the slope and the spread of new values are judged (R182, R508). -/
def profileObjectWrite (ix sub : Nat) (b : Bytes) (s : State) : Wrote :=
  let n := ix - 0x2420
  let t := put ix sub b s
  if profileRunning s.dev n then refuse (0x04030000 + n) s
  else if sub = 2 then
    match slopeBreak (segmentsOf b) with
    | some k => refuse (0x04040000 + k) s
    | none => if envelopeOk t.od then wrote t else refuse 0x040400FF s
  else if sub = 3 then (if envelopeOk t.od then wrote t else refuse 0x040400FF s)
  else wrote t

/-- Frequency objects whose new value must keep the spread envelope (R508). -/
def envelopeWrite (ix sub : Nat) (b : Bytes) (s : State) : Wrote :=
  let t := put ix sub b s
  if envelopeOk t.od then wrote t else refuse 0x040400FF s

/-- PROFILE_RUN (R182). -/
def profileRunWrite (n : Nat) (s : State) : Wrote :=
  if n = 0xFF then wrote (devTo (profileWrite none) s)
  else unlessRefused (profileRefusal s.od s.dev n) s (devTo (profileWrite (some n)) s)

/-- CONTROL_PERIOD (R175): the schedule takes a new origin. -/
def controlPeriodWrite (b : Bytes) (s : State) : Wrote := wrote (devTo newOrigin (put 0x2413 1 b s))

/-- MANUAL_RATE (R187): only while PTP is off. -/
def manualRateWrite (b : Bytes) (s : State) : Wrote :=
  if odU s.od 0x2440 1 ≠ 0 then refuse 0x04060000 s
  else wrote ((put 0x2401 3 b s).act (fun o d => callRate o (odI o 32 0x2401 3) d))

def writeTime (ix sub : Nat) (b : Bytes) (s : State) : Wrote :=
  if ix = 0x2400 ∧ sub = 5 then stepNowWrite s
  else if ix = 0x2401 ∧ sub = 3 then manualRateWrite b s
  else if (ix = 0x2410 ∧ sub = 1) ∨ ix = 0x2411 then envelopeWrite ix sub b s
  else if 0x2420 ≤ ix ∧ ix ≤ 0x2423 then profileObjectWrite ix sub b s
  else if ix = 0x2412 then profileRunWrite (leNat b) s
  else if ix = 0x2413 then controlPeriodWrite b s
  else if ix = 0x2440 ∧ sub = 1 then
    if leNat b = 2 ∧ odU s.od 0x2440 3 = 1 then refuse 0x04070000 s else wrote ((put ix sub b s).act ptpModeChanged)
  else if ix = 0x2441 ∧ sub = 3 then wrote ((put ix sub b s).act (fun o d => callRate o d.time.rateTarget d))
  else wrote (put ix sub b s)

end Sys2Proof.Machine
end

