-- ==== Sys2Proof/Machine/WriteCell.lean ====
section
/-! DEFINITION. What a write does that has passed steps 1 to 8 of R35: link, sessions, transactions, stacks, protection, control
engine. -/
namespace Sys2Proof.Machine

/-! ### Link (chapters 9 to 11) -/

/-- "strt" of RING_CONTROL (R23, R215, Table 9.8). -/
def ringStartWrite (r : Nat) (s : State) : Wrote :=
  unlessRefused (ringStartRefusal s.od r) s (s.act (ringStart · r))

/-- "stop" of RING_CONTROL: refused while a cell of the ring is in ARMED, RUN or HOLD. -/
def ringStopWrite (r : Nat) (s : State) : Wrote :=
  if (List.range 16).any (fun p => (getCell s.dev (16 * r + p)).state.inService) then refuse (0x11040000 + r) s
  else wrote (s.act (ringStop · r))

/-- PATH_SWAP (R221). -/
def swapWrite (r : Nat) (s : State) : Wrote :=
  let g := getRing s.dev r
  if !dualRing s.od r then refuse (0x11020000 + r) s
  else if swapPending g then refuse (0x11050000 + r) s
  else if (getPath s.dev r (1 - g.activePath)).state != .standby then refuse (0x11010000 + r) s
  else wrote (devTo (modRing r (fun g => { g with swap := true })) s)

/-- "rsyn" of CELL_CONTROL (R244). -/
def rsynWrite (c : Nat) (s : State) : Wrote :=
  let st := (getCell s.dev c).state
  if !ringActive s.dev (ringOf c) then refuse (0x10030000 + ringOf c) s
  else if st != .blocked then refuse (0x10020000 + st.code) s
  else wrote (devTo (queueControl c 0x09 []) s)

/-- "leav" of CELL_CONTROL (R245). -/
def leavWrite (c : Nat) (s : State) : Wrote :=
  let st := (getCell s.dev c).state
  if !ringActive s.dev (ringOf c) then refuse (0x10030000 + ringOf c) s
  else if st.inService then refuse (0x10010000 + st.code) s
  else wrote (devTo (queueControl c 0x0A [0x10]) s)

/-- ERRANT and the errors of the window clear (R267). -/
def errantWrite (c : Nat) (s : State) : Wrote :=
  let t := (getCell s.dev c).txn
  let s1 := devTo (modTxn c (fun t => { t with window := [], errant := false })) s
  wrote (if t.errant then s1.act (record · 0x1012 (srcCell c) [0, b8 t.lastKind, 0, 0]) else s1)

/-- The checks of R271 follow an accepted write to 0x3180 to 0x31A7. -/
def thenArrCheck (ix : Nat) (w : Wrote) : Wrote :=
  if 0x3180 ≤ ix ∧ ix ≤ 0x31A7 ∧ w.1 = none then (none, w.2.act arrCheck) else w

def writeLink (ix sub : Nat) (b : Bytes) (s : State) : Wrote := thenArrCheck ix <|
  let n := leNat b
  if 0x3100 ≤ ix ∧ ix ≤ 0x317F ∧ sub = 5 then
    if n = 0x6E797372 then rsynWrite (ix - 0x3100) s else leavWrite (ix - 0x3100) s
  else if 0x3180 ≤ ix ∧ ix ≤ 0x3187 ∧ sub = 4 then
    if n = 0x74727473 then ringStartWrite (ix - 0x3180) s else ringStopWrite (ix - 0x3180) s
  else if 0x3180 ≤ ix ∧ ix ≤ 0x3187 ∧ sub = 6 then swapWrite (ix - 0x3180) s
  else if 0x3480 ≤ ix ∧ ix ≤ 0x34FF then errantWrite (ix - 0x3480) s
  else wrote (put ix sub b s)

/-! ### Stacks (chapters 12 to 14) -/

/-- STACK_STATE as a command finds it: TRIPPED from the trip's point in the engine order (R283). -/
def stateAsCommanded (d : Dev) : StackState := if d.prot.requesters != 0 && d.stack.state.runs then .tripped else d.stack.state

def wrongStackState (s : State) : Wrote := refuse (0x20020000 + (stateAsCommanded s.dev).code) s

/-- Arrangement writes that waited for the next "strt" are in force once no run is due or under way (R272). -/
def settleLater (s : State) : State :=
  if s.dev.stack.later.isEmpty || startPending s.dev || s.dev.stack.state.runs then s
  else { od := withLater s.od s.dev, dev := onStack (fun k => { k with later := [] }) s.dev, pending := s.pending }

/-- "strt", "conn", "stop" and "park" (R275); the checks of R271 run at every "strt". -/
def stackStartWrite (s0 : State) : Wrote :=
  let s := (settleLater s0).act arrCheck
  if stateAsCommanded s.dev != .stopped then wrongStackState s
  else unlessRefused (strtRefusal s.od s.dev.aon.ready s.dev) s (s.act strtAccept)
def stackConnWrite (s : State) : Wrote :=
  if stateAsCommanded s.dev != .ready then wrongStackState s
  else unlessRefused (connRefusal s.od s.dev) s (s.act (fun o d => ceConn o (connAccept d)))
def stackStopWrite (s : State) : Wrote :=
  if (stateAsCommanded s.dev).runs then wrote (devTo stopAccept s) else wrongStackState s
def stackParkWrite (s : State) : Wrote :=
  if (stateAsCommanded s.dev).runs then wrongStackState s else wrote (devTo (onStack (fun k => { k with park := true })) s)

/-- BUS_INSTANCE or GROUP_INSTANCE: the instance must be large enough for its role and named in no other (R300). -/
def roleWrite (ix sub : Nat) (b : Bytes) (s : State) : Wrote :=
  let n := leNat b
  let o := s.od
  let named : Bool := (ix != 0x3200 && odU o 0x3200 2 == n)
    || (List.range 4).any (fun g => 0x3201 + g != ix && odU o (0x3201 + g) 1 == n)
  let small : Bool := ceP o n < (if ix = 0x3200 then 4 else 3) || ceM o n < 1
  if n ≠ 0xFF ∧ (named || small) then refuse (0x20040000 + n) s else wrote (put ix sub b s)

/-- CLEAR_IMPLAUSIBLE (R306). -/
def clearImplausible (c : Nat) (s : State) : Wrote :=
  let x := getCell s.dev c
  let r : Int := x.residual.getD 0
  let s1 := devTo (modCell c (fun x => { x with implausible := false, strikes := 0 })) s
  wrote (if x.implausible then
      s1.act (record · 0x2010 (srcCell c) ([0, b8 x.strikes, 0, 0] ++ toLE 4 (ofSigned 32 r) ++ toLE 4 (pno (s.dev.sched.count - 1))))
    else s)

/-- TRIP_COMMAND "trip" and "rlse" (R330, R333). -/
def tripWrite (s : State) : Wrote := wrote (s.act (requesterSet · 4))
def releaseWrite (s : State) : Wrote :=
  let d := s.dev
  if d.stack.state == .tripped || (d.stack.state == .stopped && d.prot.requesters != 0) then
    let (r, d1) := tripRelease s.od (d.meas.cmpOut &&& odU s.od 0x3300 7 != 0) d
    (r.map inState, { s with dev := d1 })
  else wrongStackState s

/-- BYPASS_CELL and REINSERT_CELL (R324, R326). -/
def bypassWrite (c : Nat) (s : State) : Wrote := unlessRefused (bypassRefusal s.od c s.dev) s (devTo (hostBypass c) s)
def reinsertWrite (c : Nat) (s : State) : Wrote :=
  unlessRefused (reinsertRefusal s.od c s.dev) s
    (devTo (fun d => onStack (fun k => { k with
      reinserting := k.reinserting ++ [{ cell := c, start := d.clk.dt, v0 := (getCell d c).vdc }] }) d) s)

/-- The arrangement objects of R272. -/
def arrangementObject (ix sub : Nat) : Bool :=
  (ix ≤ 0x3004 || ix == 0x3020 || ix == 0x3030) && accessOf ix sub == .rwS

/-- An arrangement object (R272): written at once while no start is due, else for the next "strt"; the checks of R271 see it. -/
def arrangementWrite (ix sub : Nat) (b : Bytes) (s : State) : Wrote :=
  let s1 := if startPending s.dev || !s.dev.stack.later.isEmpty then
      devTo (onStack (fun k => { k with later := k.later ++ [(ix, sub, b)] })) s
    else put ix sub b s
  wrote (if ix ≤ 0x3004 then s1.act (fun o d => arrCheck (withLater o d) d) else s1)

def writeStack (ix sub : Nat) (b : Bytes) (s : State) : Wrote :=
  let n := leNat b
  if arrangementObject ix sub then arrangementWrite ix sub b s
  else if ix ≤ 0x3004 then wrote ((put ix sub b s).act arrCheck)
  else if ix = 0x3010 ∧ sub = 1 then
    if n = 0x74727473 then stackStartWrite s
    else if n = 0x6E6E6F63 then stackConnWrite s
    else if n = 0x706F7473 then stackStopWrite s
    else stackParkWrite s
  else if (ix = 0x3200 ∧ sub = 2) ∨ (0x3201 ≤ ix ∧ ix ≤ 0x3204 ∧ sub = 1) then roleWrite ix sub b s
  else if ix = 0x3200 ∧ sub = 4 ∧ odU s.od 0x3200 1 = 0 then refuse 0x20050000 s
  else if ix = 0x3209 ∧ sub = 6 then clearImplausible n s
  else if ix = 0x3300 ∧ sub = 1 then if n = 0x70697274 then tripWrite s else releaseWrite s
  else if ix = 0x3308 ∧ sub = 0x0A then bypassWrite n s
  else if ix = 0x3308 ∧ sub = 0x0B then reinsertWrite n s
  else wrote (put ix sub b s)

/-! ### Control engine (chapter 15) -/

/-- CONTROL of an instance (R359): 0 enab, 1 disa, 2 rset, 3 rsum. -/
def ceControlWrite (n cmd : Nat) (s : State) : Wrote :=
  unlessRefused (ceControlRefusal s.od n cmd s.dev) s (match cmd with
    | 0 => devTo (cePend n .enab) s
    | 1 => s.act (fun o d => ceDisable o n d)
    | 2 => devTo (cePend n .rset) s
    | _ => devTo (cePend n .rsum) s)

/-- COMMIT (R360). -/
def ceCommitWrite (n : Nat) (s : State) : Wrote :=
  unlessRefused (ceCommitRefusal s.od n s.dev) s (s.act (fun o d => ceCommit o n d))

/-- The objects that a dimension write sets to their defaults (R342). -/
def dimensionSubs : List Nat := [0x08, 0x09, 0x0A, 0x0B, 0x0D, 0x0E, 0x12, 0x13, 0x14]

/-- N_STATES, N_OUTPUTS or N_MEAS (R342). -/
def dimensionWrite (n sub : Nat) (b : Bytes) (s : State) : Wrote :=
  let od := dimensionSubs.foldl (fun o k => odErase (odKey (ceIx n) k) o) (odSet s.od (ceIx n) sub b)
  wrote (devTo (ceDimension n) { s with od := od })

def writeEngine (ix sub : Nat) (b : Bytes) (s : State) : Wrote :=
  let n := ix - 0x2810
  let v := leNat b
  if sub = 1 then
    ceControlWrite n (if v = 0x62616E65 then 0 else if v = 0x61736964 then 1 else if v = 0x74657372 then 2 else 3) s
  else if 3 ≤ sub ∧ sub ≤ 5 then dimensionWrite n sub b s
  else if sub = 0x15 then ceCommitWrite n s
  else if sub = 0x18 then wrote (devTo (modCe n (fun i => { i with flags := 0 })) s)
  else if 0x20 ≤ sub ∧ sub ≤ 0x2B then wrote (devTo (ceHostMeas n (sub - 0x20) (toSigned 32 v)) (put ix sub b s))
  else wrote (put ix sub b s)

end Sys2Proof.Machine
end

