-- ==== Sys2Proof/Machine/WriteDrive.lean ====
section
/-! DEFINITION. What a write does that has passed steps 1 to 8 of R35: measurement, acquisition, PWM and Pronghorn, pre-drivers,
axes, chopper, safety. -/
namespace Sys2Proof.Machine

/-! ### Measurement (chapter 16) -/

/-- ENABLE of a converter (R371). -/
def adcEnableWr (n : Nat) (on : Bool) (s : State) : Wrote :=
  let t := put (adcIx n) 1 [b8 (if on then 1 else 0)] s
  if on == adcEnabled s.od n then wrote s
  else if on then unlessRefused (adcEnableRefusal s.od s.dev n) s (devTo (adcEnableWrite n true) t)
  else if adcInUse s.od s.dev n then refuse (0x60020000 + n) s
  else wrote (devTo (adcEnableWrite n false) t)

/-- SW_TRIGGER (R368). -/
def swTriggerWrite (n : Nat) (s : State) : Wrote :=
  unlessRefused (swTriggerRefusal s.od s.dev n) s (s.act (fun o d => triggerAt o n d.clk.dt d))

/-- CAL_START (R373). -/
def calStartWrite (mask : Nat) (s : State) : Wrote :=
  unlessRefused (calRefusal s.od s.dev mask) s (s.act (fun o d => readyCheck o (calStart false mask d)))

/-- CMP_THRESHOLDS (R377). -/
def thresholdWrite (n : Nat) (b : Bytes) (s : State) : Wrote := wrote (devTo (cmpThreshold n) (put (0x2630 + n) 3 b s))

def writeMeas (ix sub : Nat) (b : Bytes) (s : State) : Wrote :=
  let v := leNat b
  if 0x2601 ≤ ix ∧ ix ≤ 0x2608 then
    match sub with
    | 0x01 => adcEnableWr (ix - 0x2601) (v == 1) s
    | 0x0C => wrote (devTo (modAdc (ix - 0x2601) (fun a => { a with flags := 0 })) s)
    | 0x0D => swTriggerWrite (ix - 0x2601) s
    | _ => wrote (put ix sub b s)
  else if ix = 0x2610 then calStartWrite v s
  else if 0x2630 ≤ ix ∧ ix ≤ 0x264F then
    match sub with
    | 3 => thresholdWrite (ix - 0x2630) b s
    | _ => wrote (put ix sub b s)
  else if ix = 0x2661 ∧ sub = 2 then wrote (s.act (tsClear · v))
  else wrote (put ix sub b s)

/-! ### Acquisition (chapter 17) -/

/-- ARM (R390). -/
def armWrite (a : Nat) (s : State) : Wrote :=
  unlessRefused (armRefusal s.od a s.dev) s (devTo (modSet a (fun x => { x with armed := true })) s)

/-- STREAM_ENABLE 0x01: the enabling, or the restart of a stream whose link was down (R394, R396). -/
def streamEnableWrite (n : Nat) (s : State) : Wrote :=
  let x := getStream s.dev n
  if x.enabled && !x.down then wrote s
  else unlessRefused (streamRefusal s.od n s.dev) s
    (s.act (fun o d => if x.enabled then streamRestart o n d else streamOn o n d))

def writeAcq (ix sub : Nat) (b : Bytes) (s : State) : Wrote :=
  if 0x2710 ≤ ix ∧ ix ≤ 0x2713 ∧ sub = 0x0B then armWrite (ix - 0x2710) s
  else if 0x2740 ≤ ix ∧ ix ≤ 0x275F ∧ sub = 1 then
    if leNat b = 1 then streamEnableWrite (ix - 0x2740) s else wrote (s.act (streamOff · (ix - 0x2740)))
  else wrote (put ix sub b s)

/-! ### PWM and Pronghorn (chapter 18) -/

def modPair (q : Nat) (f : Pair → Pair) (d : Dev) : Dev := { d with pwm := { d.pwm with pairs := vmod d.pwm.pairs q f } }

/-- PAIR_CONTROL "enab" and "disa" (R418). -/
def pairEnabWrite (q : Nat) (s : State) : Wrote :=
  unlessRefused (pairEnableRefusal s.od s.dev [] false q) s
    (if (vget s.dev.pwm.pairs q).enabled then s else s.act (pairEnable · .host q))
def pairDisaWrite (q : Nat) (s : State) : Wrote :=
  if (vget s.dev.pwm.pairs q).owner != .host then refuse (0x30010000 + q) s else wrote (s.act (pairDisable · q))

/-- COMMIT "cmit": the dirty fields of a host-owned pair become a set (R416). -/
def pwmCommitWrite (q : Nat) (s : State) : Wrote :=
  if (vget s.dev.pwm.pairs q).owner != .host then refuse (0x30010000 + q) s
  else wrote (devTo (fun d => modPair q (fun p => { p with sets := p.sets ++ [(d.clk.dt, p.dirty)], dirty := {} }) d) s)

/-- A shadow field of a host-owned pair: the value, and its dirty mark (R416). -/
def shadowWrite (q : Nat) (f : PwmSet) (s : State) : Wrote :=
  if (vget s.dev.pwm.pairs q).owner != .host then refuse (0x30010000 + q) s
  else wrote (devTo (modPair q (fun p => { p with shadow := f.onto p.shadow, dirty := p.dirty.union f })) s)

/-- The condition of R415 on pair `q`. -/
def pulsesFit (o : Od) (q : Nat) : Bool :=
  2 * max (minPulse o (2 * q)) (minPulse o (2 * q + 1)) + deadRise o q + deadFall o q ≤ odU o (0x4000 + q) 7

/-- The refresh settings of the bridge of pair `q` hold R435. -/
def refreshFits (o : Od) (q : Nat) : Bool := match bridgeOf q with
  | none => true
  | some k => odU o (0x4200 + k) 5 = 0 || (pairMode o q = 0 && minPulse o (2 * q + 1) ≤ odU o (0x4200 + k) 6)

/-- Settings of a pair under R415 and R435. -/
def pairSetting (ix sub q : Nat) (b : Bytes) (s : State) : Wrote :=
  let t := put ix sub b s
  if !pulsesFit t.od q then refuse (0x30070000 + q) s
  else if !refreshFits t.od q then refuse (0x31030000 + (q - 14)) s
  else wrote t

/-- The first channel that GROUP_CHANNELS of group `g` would split from its pair or put into a second group (R422). -/
def groupClash (o : Od) (g v : Nat) : Option Nat :=
  (List.range 40).find? (fun c => v.testBit c
    && (!v.testBit (if c % 2 = 0 then c + 1 else c - 1)
      || (List.range 10).any (fun h => h != g && (groupChannels o h).testBit c)))

/-- GROUP_RELEASE (R426). -/
def groupReleaseWrite (g : Nat) (s : State) : Wrote :=
  match groupSources s.od s.dev g with
  | i :: _ => refuse (0x30030000 + i) s
  | [] =>
    if (deviceForcing s.dev).isSome then refuse 0x30040000 s
    else if !(vget s.dev.pwm.groups g).forced then refuse (0x30080000 + g) s
    else wrote (s.act (fun o d => releaseGroup o g 1 d))

def writePwm (ix sub : Nat) (b : Bytes) (s : State) : Wrote :=
  let v := leNat b
  if ix ≤ 0x4013 then
    let q := ix - 0x4000
    match sub with
    | 0x01 => if v = 0x62616E65 then pairEnabWrite q s else pairDisaWrite q s
    | 0x04 | 0x07 | 0x08 | 0x09 => pairSetting ix sub q b s
    | 0x0C => shadowWrite q { period := some v } s
    | 0x0D => pwmCommitWrite q s
    | 0x0F => wrote (devTo (modPair q (fun p => { p with flags := 0 })) s)
    | _ => wrote (put ix sub b s)
  else if 0x4020 ≤ ix ∧ ix ≤ 0x4047 then
    let q := (ix - 0x4020) / 2
    let high := ix % 2 == 0
    match sub with
    | 1 => shadowWrite q (if high then { riseH := some v } else { riseL := some v }) s
    | 2 => shadowWrite q (if high then { fallH := some v } else { fallL := some v }) s
    | 3 => pairSetting ix sub q b s
    | _ => wrote (put ix sub b s)
  else if 0x4100 ≤ ix ∧ ix ≤ 0x4137 then wrote ((put ix sub b s).act pronghorn)
  else if 0x4180 ≤ ix ∧ ix ≤ 0x4189 then
    match sub with
    | 1 => match groupClash s.od (ix - 0x4180) v with
      | some c => refuse (0x30060000 + c) s
      | none => wrote (put ix sub b s)
    | 8 => groupReleaseWrite (ix - 0x4180) s
    | _ => wrote (put ix sub b s)
  else wrote (put ix sub b s)

/-! ### Pre-drivers (chapter 19) -/

def modBridge (k : Nat) (f : Bridge → Bridge) (d : Dev) : Dev := { d with bridges := vmod d.bridges k f }

/-- BRIDGE_CONTROL "clrf" (R441). -/
def bridgeClrfWrite (k : Nat) (s : State) : Wrote :=
  if (vget s.dev.bridges k).state != .lockout then refuse (0x31020000 + k) s
  else wrote (s.act (fun o d =>
    let active := (vget d.pwm.pairs (14 + k)).active
    let d1 := modBridge k (fun b => if active then { b with retries := [], resumeFrom := some (d.clk.dt + 800) }
      else { b with retries := [], state := .off }) d
    pronghornAgain o (record o 0x3104 (0x380 + k) [b8 k] d1)))

/-- BRIDGE_CONTROL "test" (R444). -/
def bridgeTestWrite (k : Nat) (s : State) : Wrote :=
  let d := s.dev
  if (vget d.pwm.pairs (14 + k)).active || (vget d.bridges k).state != .off then refuse (0x31010000 + k) s
  else if !vget d.rails.ok 8 || d.hvLatched then refuse (0x31050000 + k) s
  else wrote (devTo (fun d => modBridge k (fun b => { b with state := .selfTest }) d) s)

def writeBridge (ix sub : Nat) (b : Bytes) (s : State) : Wrote :=
  let k := ix - 0x4200
  match sub with
  | 0x01 => if leNat b = 0x66726C63 then bridgeClrfWrite k s else bridgeTestWrite k s
  | 0x04 => wrote (devTo (modBridge k (fun b => { b with flags := 0 })) s)
  | 0x05 => let t := put ix sub b s; if refreshFits t.od (14 + k) then wrote t else refuse (0x31030000 + k) s
  | 0x0F => wrote ((put ix sub b s).act pronghorn)
  | _ => wrote (put ix sub b s)

/-! ### Axes, chopper, ladder (chapter 20) -/

/-- The ladder takes up its work with the first axis or chopper enabled: the 1 ms of R468 run from there. -/
def ladderStarts (o : Od) (before : Dev) (d : Dev) : Dev :=
  if ladderRuns before then d else mechEvaluate o { d with ladder := { d.ladder with lastResult := d.clk.dt, hardRun := 0 } }

/-- "enab" and "ecat" (R447). -/
def axisEnableWrite (n : Nat) (ecat : Bool) (s : State) : Wrote :=
  unlessRefused (axisEnableRefusal s.od s.dev n ecat) s
    (s.act (fun o d => ladderStarts o d (axisEnable o n ecat d)))

def wrongAxisState (n : Nat) (s : State) : Wrote := refuse (0x40050000 + (vget s.dev.axes n).state.code) s

/-- "disa" (R447), "decl" (R460), "clrf" (R459). -/
def axisDisaWrite (n : Nat) (s : State) : Wrote :=
  if (vget s.dev.axes n).state == .disabled then wrongAxisState n s else wrote (s.act (fun o d => axisDisable o n 0x01 d))
def axisDeclWrite (n : Nat) (s : State) : Wrote :=
  if (vget s.dev.axes n).state != .running then wrongAxisState n s else wrote (s.act (fun o d => axisDecel o n 0x01 d))
def axisClrfWrite (n : Nat) (s : State) : Wrote :=
  let a := vget s.dev.axes n
  if a.state != .fault then wrongAxisState n s
  else wrote (s.act (fun o d =>
    let d1 := { d with axes := vmod d.axes n (fun a => { a with recatches := [] }) }
    if a.inhibit == .short then axisEnter o n .asc .short 0x01 d1 else blockAndWait o n 0x01 d1))

def writeAxis (ix sub : Nat) (b : Bytes) (s : State) : Wrote :=
  let n := (ix - 0x4400) / 0x40
  let v := leNat b
  match sub with
  | 1 =>
    if v = 0x62616E65 then axisEnableWrite n false s
    else if v = 0x74616365 then axisEnableWrite n true s
    else if v = 0x61736964 then axisDisaWrite n s
    else if v = 0x6C636564 then axisDeclWrite n s
    else axisClrfWrite n s
  | 3 => wrote (devTo (fun d => { d with axes := vmod d.axes n (fun a => { a with flags := 0 }) }) s)
  | _ => wrote (put ix sub b s)

/-- The chopper's pairs and trigger points are configured (R462). -/
def chopPairsOk (o : Od) : Bool :=
  let half := odU o 0x4600 7 / 2
  pairMode o 12 == 0 && pairMode o 13 == 0 && pairSync o 13 == 0x8C && pairPhase o 13 == half
    && odU o (0x4020 + 24) 5 == half && odU o (0x4020 + 26) 5 == half

/-- Its entries are assigned, the current entries with their trigger points. -/
def chopEntriesOk (o : Od) : Bool :=
  triggeredBy o (odU o 0x4600 3) 24 && triggeredBy o (odU o 0x4600 4) 26 && entrySet (odU o 0x4610 1)

/-- The ladder's thresholds are in order. -/
def ladderOrdered (o : Od) : Bool :=
  decide (odF o 0x4600 8 < odF o 0x4600 9 ∧ odF o 0x4600 9 ≤ odF o 0x4610 3 ∧ odF o 0x4610 3 < odF o 0x4610 4
    ∧ odF o 0x4610 4 < odF o 0x4610 5)

/-- Why "enab" of the chopper is refused (R462, R418). -/
def chopRefusal (o : Od) (d : Dev) : Option Nat :=
  match (d.ladder.legs.toList.map (·.state)).find? (· != .off) with
  | some st => some (0x46030000 + st.code)
  | none =>
    if !chopPairsOk o then some 0x46010000
    else if !chopEntriesOk o then some 0x46020000
    else if !ladderOrdered o then some 0x46040000
    else ([12, 13].findSome? (pairEnableRefusal o d [12, 13] false))

/-- The group of a leg's pair is forced. -/
def legForced (o : Od) (d : Dev) (leg : Nat) : Bool := match groupOfChannel o (24 + 2 * leg) with
  | some g => (vget d.pwm.groups g).forced
  | none => false

/-- The chopper takes its pairs: both legs are READY, at duty 0 until the first cut-off; a leg whose group is forced is in
FAULT at once (R463). -/
def chopEnable (o : Od) (d : Dev) : Dev :=
  let d1 := forEach [12, 13] (pairEnable o .chopper) d
  let d2 := forEach [12, 13] (fun q => modPair q (fun p => { p with force := (centredSet (odU o 0x4600 7) 0).onto p.force, sets := [] })) d1
  let d3 := { d2 with ladder := { d2.ladder with
    enabled := true, legs := d2.ladder.legs.map (fun l => { l with state := .ready, openRun := 0, highRun := 0, duty := 0 }) } }
  ladderStarts o d (forEach ([0, 1].filter (legForced o d3)) (fun l d => chopFault o l 3 d) d3)

def chopEnabWrite (s : State) : Wrote := unlessRefused (chopRefusal s.od s.dev) s (s.act chopEnable)

/-- "disa": the legs go to OFF; a leg in FAULT keeps it until "clrf" (R463). -/
def chopDisaWrite (s : State) : Wrote :=
  if !s.dev.ladder.enabled then refuse (0x46030000 + (vget s.dev.ladder.legs 0).state.code) s
  else wrote (s.act (fun o d =>
    let d1 := forEach [12, 13] (pairDisable o) d
    mechEvaluate o { d1 with ladder := { d1.ladder with
      enabled := false,
      legs := d1.ladder.legs.map (fun l => { l with state := if l.state == .fault then .fault else .off, duty := 0, openRun := 0, highRun := 0 }) } }))

/-- "clrf" of the chopper: a leg in FAULT leaves it where its group is not forced (R463). -/
def chopClrfWrite (s : State) : Wrote :=
  if !s.dev.ladder.legs.any (fun l => l.state == .fault) then refuse (0x46030000 + (vget s.dev.ladder.legs 0).state.code) s
  else wrote (s.act (fun o d => mechEvaluate o (forEach [0, 1] (fun leg d =>
    if (vget d.ladder.legs leg).state == .fault && !legForced o d leg then
      let next : LegState := if d.ladder.enabled then .ready else .off
      let legs := vmod d.ladder.legs leg (fun l => { l with state := next, openRun := 0, highRun := 0 })
      record o 0x4602 (0x460 + leg) [b8 leg] { d with ladder := { d.ladder with legs := legs } }
    else d) d)))

/-! ### Safety (chapter 21) -/

/-- A COB-ID with its controller is in use by another connection, a PDO, an SDO channel, EMCY or heartbeat. -/
def cobInUse (s : State) (ix sub v : Nat) : Bool :=
  let o := s.od
  let ctl := v / 65536 % 2
  let cob := v % 2048
  let conns := (List.range 32).any (fun c => [4, 0x0F].any (fun k =>
    (connIx c != ix || k != sub) && odU o (connIx c) k == v && v != 0))
  let pdos := (List.range 32).any (fun n =>
    (pdoValid o (0x1400 + n) && odU o 0x1FE0 (n + 1) == ctl && odU o (0x1400 + n) 1 % 2048 == cob)
      || (pdoValid o (0x1800 + n) && odU o 0x1FE1 (n + 1) == ctl && odU o (0x1800 + n) 1 % 2048 == cob))
  let sdos := (List.range 4).any (fun k =>
    sdoOpen o s.dev (4 * ctl + k) && ((sdoCobs o s.dev (4 * ctl + k)).1 % 2048 == cob || (sdoCobs o s.dev (4 * ctl + k)).2 % 2048 == cob))
  v != 0 && (conns || pdos || sdos || cob == 0x080 + s.dev.com.nodeId || cob == 0x700 + s.dev.com.nodeId)

/-- PAIR_CONTROL "clrf" of an STO pair (R475). -/
def stoClrfWrite (session : Option Nat) (n : Nat) (s : State) : Wrote :=
  if session.isNone || s.dev.sec.holder != session then refuse 0x03020000 s
  else if (vget s.dev.isl.pairs n).state != .fault then refuse (0x50040000 + n) s
  else wrote (s.act (fun o d => pronghorn o (record o 0x5005 (0x500 + n) [b8 n] (onPair n (fun p => { p with state := .off }) d))))

/-- CCV_CONFIRMED (R490). -/
def ccvWrite (b : Bytes) (s : State) : Wrote :=
  if leNat b ≠ s.dev.isl.ccv then refuse 0x50010000 s
  else wrote ((put 0x5000 3 b s).act (fun o d => ccvTake o d.isl.ccv d))

/-- CONN_ENABLE changes: the connection is in WAITING without an accepted pair, or DISABLED (R482). -/
def connEnableWrite (c : Nat) (b : Bytes) (s : State) : Wrote :=
  let on := leNat b = 1
  let t := put (connIx c) 1 b s
  if connEnabled s.od c == on then wrote t
  else wrote (t.act (fun o d =>
    onConn c (fun k => { k with held := [], command := none, statusDue := none }) (connTo o c (if on then .waiting else .disabled) 0 d)))

def writeSafety (session : Option Nat) (ix sub : Nat) (b : Bytes) (s : State) : Wrote :=
  if ix = 0x5000 ∧ sub = 3 then ccvWrite b s
  else if 0x5010 ≤ ix ∧ ix ≤ 0x5013 ∧ sub = 3 then stoClrfWrite session (ix - 0x5010) s
  else match (List.range 4).find? (fun n => accessOf ix sub == .rwC && (vget s.dev.isl.pairs n).state == .permit) with
    | some n => refuse (0x50020000 + n) s
    | none =>
      if ix = 0x5000 ∧ ((sub = 8 ∧ odU s.od 0x5000 7 ≤ leNat b) ∨ (sub = 7 ∧ leNat b ≤ odU s.od 0x5000 8)) then refuse 0x50030000 s
      else if 0x5800 ≤ ix ∧ ix ≤ 0x581F ∧ (sub = 4 ∨ sub = 0x0F) ∧ cobInUse s ix sub (leNat b) then refuse (0x50050000 + (ix - 0x5800)) s
      else if 0x5800 ≤ ix ∧ ix ≤ 0x581F ∧ sub = 1 then connEnableWrite (ix - 0x5800) b s
      else if 0x5010 ≤ ix ∧ ix ≤ 0x5013 ∧ sub = 7 then wrote ((put ix sub b s).act (fun o d =>
        pronghorn o (if leNat b = 0 then onPair (ix - 0x5010) (fun p => { p with state := .off }) d else d)))
      else wrote (put ix sub b s)

end Sys2Proof.Machine
end

