-- ==== Sys2Proof/Machine/Write.lean ====
section
/-! DEFINITION. A write of an object (R35, R36, R41): its checks, then its effect at one point in the engine order. -/
namespace Sys2Proof.Machine

/-- Step 9 of R35 and the effect, by the chapter that owns the object. -/
def writeEffect (session : Option Nat) (ix sub : Nat) (b : Bytes) (s : State) : Wrote :=
  if ix ≤ 0x2010 then writeCom session ix sub b s
  else if ix < 0x2300 then writeAon ix sub b s
  else if ix < 0x2400 then writeSecurity session ix sub b s
  else if ix < 0x2500 then writeTime ix sub b s
  else if ix < 0x2600 then writeGuarantees ix sub b s
  else if ix < 0x2700 then writeMeas ix sub b s
  else if ix < 0x2800 then writeAcq ix sub b s
  else if ix < 0x2810 then wrote (put ix sub b s)
  else if ix < 0x2820 then writeEngine ix sub b s
  else if 0x3100 ≤ ix ∧ ix ≤ 0x31FF then writeLink ix sub b s
  else if 0x3480 ≤ ix ∧ ix ≤ 0x34FF then writeLink ix sub b s
  else if 0x3000 ≤ ix ∧ ix < 0x3400 then writeStack ix sub b s
  else if 0x4000 ≤ ix ∧ ix < 0x4200 then writePwm ix sub b s
  else if 0x4200 ≤ ix ∧ ix ≤ 0x4205 then writeBridge ix sub b s
  else if 0x4400 ≤ ix ∧ ix < 0x4580 then writeAxis ix sub b s
  else if ix = 0x4600 ∧ sub = 1 then
    if leNat b = 0x62616E65 then chopEnabWrite s
    else if leNat b = 0x61736964 then chopDisaWrite s
    else chopClrfWrite s
  else if 0x5000 ≤ ix ∧ ix ≤ 0x58FF then writeSafety session ix sub b s
  else wrote (put ix sub b s)

/-- A write of an object: the first check of R35 that fails, or the effect. -/
def writeObject (session : Option Nat) (ix sub : Nat) (b : Bytes) (s : State) : Wrote :=
  match writeCheck s session ix sub b with
  | some a => (some a, s)
  | none => writeEffect session ix sub b s

end Sys2Proof.Machine
end

