-- ==== Sys2Proof/Machine/Request.lean ====
section
/-! DEFINITION. Requests of hosts: sessions, segments, responses on UDP, mailbox and CAN FD (chapter 2). -/
namespace Sys2Proof.Machine

/-- How a request's write is executed: session, index, subindex, value. -/
abbrev Writer := Option Nat → Nat → Nat → Bytes → State → Wrote

/-- What serving a request answers (Table 2.7): an abort, or LAST with OFFSET, TOTAL and payload. -/
structure Answer where
  abort : Option Abort := none
  /-- The abort is one of R507, which echoes the header. -/
  echo : Bool := false
  /-- The whole response, where its header is the one received (R50). -/
  raw : Option Bytes := none
  last : Bool := false
  offset : Nat := 0
  total : Nat := 0
  payload : Bytes := []
  /-- CLOSE was served; a warm reset follows the response. -/
  close : Bool := false
  reset : Bool := false
  /-- NET leaves ON after the response, for this state. -/
  leaves : Option DomState := none
deriving DecidableEq, Repr, Inhabited

/-- A message of Table 2.7. -/
def messageBytes (service seq ix sub flags offset total : Nat) (payload : Bytes) : Bytes :=
  [1, b8 service] ++ toLE 2 seq ++ toLE 2 ix ++ [b8 sub, b8 flags] ++ toLE 4 offset ++ toLE 4 total
    ++ toLE 2 payload.length ++ [0, 0] ++ payload

/-- The response to a request: an abort carries its code and detail (Table 2.7); an abort of R507 keeps the other flags of the
request, every other abort sets LAST beside ABORT (the example of R49). -/
def responseBytes (service seq : Nat) (m : OdMsg) (a : Answer) : Bytes :=
  let resp := messageBytes (service ||| 0x80) seq m.index.toNat m.sub.toNat
  match a.raw, a.abort with
  | some b, _ => b
  | none, some (code, detail) =>
    resp (if a.echo then m.flags.toNat ||| 1 else 5) m.offset.toNat m.total.toNat (toLE 4 code ++ toLE 4 detail)
  | none, none => resp (if a.last then 4 else 0) a.offset a.total a.payload

/-! ### Transfers (R43, R47, R507) -/

/-- Segmented transfers in progress. -/
def transfersOpen (d : Dev) : Nat := (d.com.sessions.toList.filter (fun s => s.transfer.isSome)).length

def setTransfer (n : Nat) (t : Option Transfer) (s : State) : State := devTo (modSession n (fun x => { x with transfer := t })) s

/-- The abort record of a session (R56); a session that has closed keeps none. -/
def recordAbort (n ix sub : Nat) (a : Abort) (d : Dev) : Dev :=
  if (getSession d n).kind == .free then d
  else modSession n (fun x => { x with
    abort := { detail := a.2, code := a.1, object := ix * 65536 + sub * 256, time := d.clk.stamp } }) d

/-- A segment out of sequence, or a transfer abandoned by a new request. -/
def outOfSequence : Abort := (0x05040004, 0x00040000)

/-- Another request abandons the transfer in progress, with an abort record (R47). -/
def abandon (n : Nat) (s : State) : State := match (getSession s.dev n).transfer with
  | some t => devTo (recordAbort n t.ix t.sub outOfSequence) (setTransfer n none s)
  | none => s

/-- A transfer begins, where its length and the eight buffers allow it (R43). -/
def beginTransfer (n : Nat) (t : Transfer) (s : State) : Option Abort × State :=
  if 65536 < t.total ∨ 8 ≤ transfersOpen s.dev then (some (0x05040005, 0), s) else (none, setTransfer n (some t) s)

/-- A value is read: COMM_CHALLENGE issues a nonce at each read (R160). -/
def fetchValue (n ix sub : Nat) (s : State) : Bytes × State :=
  if ix = 0x2320 ∧ sub = 1 then
    let (v, d) := commChallenge n s.dev
    (v, { s with dev := d })
  else (readValue s (some n) ix sub, s)

/-- READ that begins a value (Table 2.8): up to 1,024 bytes, and a snapshot for the rest (R41). -/
def readFirst (n ix sub : Nat) (s : State) : Answer × State :=
  match readCheck s (some n) ix sub with
  | some a => ({ abort := some a }, s)
  | none =>
    let (v, s1) := fetchValue n ix sub s
    if v.length ≤ 1024 then ({ last := true, total := v.length, payload := v }, s1)
    else
      let t : Transfer := { write := false, ix := ix, sub := sub, total := v.length, data := v, pos := 1024, toggle := false, last := s.dev.clk.run }
      match beginTransfer n t s1 with
      | (some a, s2) => ({ abort := some a }, s2)
      | (none, s2) => ({ total := v.length, payload := v.take 1024 }, s2)

/-- The next segment of a read. -/
def readNext (n : Nat) (t : Transfer) (s : State) : Answer × State :=
  let b := slice t.data t.pos (min 1024 (t.total - t.pos))
  let pos := t.pos + b.length
  let last := pos == t.total
  ({ last := last, offset := t.pos, total := t.total, payload := b },
    setTransfer n (if last then none else some { t with pos := pos, last := s.dev.clk.run }) s)

/-- A whole value is written. A DEVICE_RESET and NET's leaving ON take their effect after the response. -/
def writeWhole (wr : Writer) (n ix sub offset total : Nat) (b : Bytes) (s : State) : Answer × State :=
  let (a, s1) := wr (some n) ix sub b s
  match a with
  | some a => ({ abort := some a }, s1)
  | none =>
    let leaves := if ix = 0x2100 ∧ sub = 3 ∧ leNat b ≠ 2 then some ((DomState.ofCode (leNat b)).getD .off) else none
    ({ last := true, offset := offset, total := total, reset := ix == 0x2202 && sub == 1, leaves := leaves }, s1)

/-- WRITE that begins a value: applied at once where it is whole, else a transfer begins. -/
def writeFirst (wr : Writer) (n ix sub total : Nat) (b : Bytes) (s : State) : Answer × State :=
  if b.length = total then writeWhole wr n ix sub 0 total b s
  else
    let t : Transfer := { write := true, ix := ix, sub := sub, total := total, data := b, pos := b.length, toggle := false, last := s.dev.clk.run }
    match beginTransfer n t s with
    | (some a, s1) => ({ abort := some a }, s1)
    | (none, s1) => ({ total := total }, s1)

/-- The next segment of a write: the value is applied whole at its final segment (R41). -/
def writeNext (wr : Writer) (n : Nat) (t : Transfer) (b : Bytes) (s : State) : Answer × State :=
  let data := t.data ++ b
  if data.length = t.total then writeWhole wr n t.ix t.sub t.pos t.total data (setTransfer n none s)
  else ({ offset := t.pos, total := t.total },
    setTransfer n (some { t with data := data, pos := data.length, last := s.dev.clk.run }) s)

/-- The commissioning services 0x10 to 0x13 (Table 7.5). -/
def commService (n service : Nat) (m : OdMsg) (s : State) : Answer × State :=
  let fail (a : Abort) : Answer × State := ({ abort := some a }, s)
  let need := if service = 0x11 then 48 else 0
  if m.index ≠ 0 ∨ m.sub ≠ 0 ∨ m.offset ≠ 0 ∨ m.total ≠ 0 then fail (0x06090030, 0)
  else if m.payload.length ≠ need then fail (0x06070010, 0)
  else if s.dev.sec.hold then fail (inState 0x02030000)
  else match service with
    | 0x10 =>
      let (v, d) := commChallenge n s.dev
      ({ last := true, total := v.length, payload := v }, { s with dev := d })
    | 0x11 => match commResponseWrite (some n) m.payload s with
      | (some a, s1) => ({ abort := some a }, s1)
      | (none, s1) => ({ last := true, total := 32, payload := s1.dev.sec.proof }, s1)
    | 0x12 => match commEndWrite (some n) s with
      | (some a, s1) => ({ abort := some a }, s1)
      | (none, s1) => ({ last := true }, s1)
    | _ => ({ last := true, total := 2, payload := toLE 2 (commStatus s.dev) }, s)

/-- The request continues the transfer in progress: same service, same object (R47). -/
def continues (service ix sub : Nat) (t : Transfer) : Bool :=
  ((service == 1 && !t.write) || (service == 2 && t.write)) && t.ix == ix && t.sub == sub

/-- The check of R507 that a message fails, in its order. -/
def messageCheck (service : Nat) (m : OdMsg) (mine : Option Transfer) : Option Abort :=
  let n := m.payload.length
  if m.plen.toNat ≠ n ∨ 1024 < m.plen.toNat then some (0x06070010, 0)
  else if service = 2 ∧ (m.total.toNat < m.offset.toNat + n ∨ (match mine with
      | some t => decide (t.total ≠ m.total.toNat)
      | none => false) = true) then some (0x06070010, 0)
  else if (service = 1 ∨ service = 2) ∧ mine.isNone ∧ m.offset ≠ 0 then some outOfSequence
  else none

/-- Serve a message of Table 2.7 in session `n`. A row that names one write of a value longer than a message stands for its whole
transfer: `whole` passes over R507. -/
def serveMessage (wr : Writer) (whole : Bool) (n service : Nat) (m : OdMsg) (s : State) : Answer × State :=
  let ix := m.index.toNat
  let sub := m.sub.toNat
  let t := (getSession s.dev n).transfer
  let mine := t.filter (continues service ix sub)
  match if whole then none else messageCheck service m mine with
  | some a => ({ abort := some a, echo := true }, setTransfer n none s)
  | none => match mine with
    | some t =>
      if m.offset.toNat ≠ t.pos then ({ abort := some outOfSequence }, setTransfer n none s)
      else if service = 1 then readNext n t s
      else writeNext wr n t m.payload s
    | none =>
      let s1 := if service = 3 ∨ service = 4 then s else abandon n s
      match service with
      | 0x01 => readFirst n ix sub s1
      | 0x02 => writeFirst wr n ix sub m.total.toNat m.payload s1
      | 0x03 => ({}, s1)
      | 0x04 => ({ close := true }, s1)
      | 0x10 | 0x11 | 0x12 | 0x13 => commService n service m s1
      | _ => ({ abort := some (0x05040001, 0) }, s1)

/-! ### Responses -/

/-- NET has served something: it is not idle (R134). -/
def netBusy (d : Dev) : Dev := modDom .net (fun c => { c with idle := none }) d

/-- A response leaves, or waits behind the one that a store owes (R39, R48). -/
def emit (n : Nat) (x : Output) (d : Dev) : Dev :=
  if (getSession d n).owed then modSession n (fun s => { s with behind := s.behind ++ [x] }) d
  else { d with out := d.out ++ wired [x] d }

/-- A response in a mailbox slot: OWNER clears, MSG_LEN gives its length, the slot's vector is raised (R50). -/
def mailboxAnswer (slot : Nat) (b : Bytes) (d : Dev) : Dev :=
  let x := vget d.com.slots slot
  let (b1, d1) := if x.torn then
      (toLE (Config.mailboxLength d.free).toNat (Config.mailboxResponse d.free).toNat, d.fresh)
    else (b, d)
  let d2 := { d1 with
    com := { d1.com with slots := vset d1.com.slots slot { msgLen := b1.length, message := b1 } }
    out := d1.out ++ [.mailbox slot b1] }
  raiseVector slot d2

/-- The response of a session to its client: by UDP or in its slot. -/
def sendResponse (n seq : Nat) (b : Bytes) (d : Dev) : Dev :=
  if n < 12 then mailboxAnswer (n - 8) b d
  else
    let x := getSession d n
    emit n (.datagram x.mac x.ip x.port b)
      (modSession n (fun s => if s.lastSeq == some seq then { s with lastResponse := b } else s) (arpAsk x.mac x.ip d))

/-- CLOSE acts after its response (R40). -/
def closeNow (o : Od) (n : Nat) (d : Dev) : Dev := if n < 12 then sessionEnds o n d else closeSession o n d

/-- What a request asks for that comes after its answer: a device reset (R104), NET's leaving ON (R130). -/
def afterAnswer (a : Answer) (s : State) : State :=
  let s1 := if a.reset then acceptReset 5 s else s
  match a.leaves with
  | some target => beginTransition .net target 1 s1
  | none => s1

/-- What follows the execution of a message: the abort record, the response unless a store owes it, and what comes after. -/
def finish (n service seq : Nat) (m : OdMsg) (before : State) (r : Answer × State) : State :=
  let (a, s) := r
  let stored := before.dev.com.store.isNone && s.dev.com.store.isSome && a.abort.isNone
  if stored then
    devTo (fun d => modSession n (fun x => { x with owed := true }) { d with com := { d.com with
      store := d.com.store.map (fun op => { op with seq := seq, offset := a.offset }) } }) s
  else
    let s1 := match a.abort with
      | some x => devTo (recordAbort n m.index.toNat m.sub.toNat x) s
      | none => s
    let s2 := devTo (sendResponse n seq (responseBytes service seq m a)) s1
    let s3 := if !a.close then s2
      else if (getSession s2.dev n).owed then devTo (modSession n (fun x => { x with closing := true })) s2
      else s2.act (fun o d => closeNow o n d)
    afterAnswer a s3

/-! ### UDP (R40, R49) -/

/-- The session of a triple, or the lowest free number (Table 2.5). -/
def udpSession (d : Dev) (mac ip port : Nat) : Option Nat :=
  let l := (List.range 52).map (· + 12)
  match l.find? (fun n => let x := getSession d n; x.kind == .udp && x.mac == mac && x.ip == ip && x.port == port) with
  | some n => some n
  | none => l.find? (fun n => (getSession d n).kind == .free)

/-- What becomes of a request on its way to execution. -/
inductive Admission where
  /-- Nothing is executed, and this is all that happens. -/
  | dropped (s : State)
  /-- Answered in a session without execution. -/
  | turnedAway (n : Nat) (a : Answer) (s : State)
  /-- Executed in a session. -/
  | served (n : Nat) (s : State)

/-- A request datagram: its session, the repeat of the last request, the order of SEQ (R40, R48, R49). DESIGN CHOICE: a repeat of the
request whose response a store still owes is dropped without an answer, since there is no response to repeat yet (log entry 187). -/
def udpAdmit (mac ip port seq service : Nat) (m : OdMsg) (s0 : State) : Admission :=
  let s := devTo netBusy s0
  if m.version ≠ 1 then .dropped s
  else match udpSession s.dev mac ip port with
    | none =>
      let b := responseBytes service seq m { abort := some (0x05040005, 0x00060000) }
      .dropped (devTo (fun d => let d1 := arpAsk mac ip d; { d1 with out := d1.out ++ wired [.datagram mac ip port b] d1 }) s)
    | some n =>
      let old := getSession s.dev n
      let x : Session := if old.kind == .free then { kind := .udp, mac := mac, ip := ip, port := port } else old
      let take (y : Session) : State := devTo (modSession n (fun _ => { y with lastRequest := s.dev.clk.run })) s
      if x.lastSeq = some seq then
        let s1 := take x
        if x.owed && (s.dev.com.store.map (·.seq)) == some seq then .dropped s1
        else
          let b := x.lastResponse
          .dropped (devTo (fun d => emit n (.datagram mac ip port (setAt b 7 (b8 (leAt b 7 1 ||| 2)))) (arpAsk mac ip d)) s1)
      else
        let s1 := take { x with lastSeq := some seq }
        match x.lastSeq with
        | some p => if seq = (p + 1) % 65536 then .served n s1 else .turnedAway n { abort := some (0x08000000, 0x00050000) } s1
        | none => .served n s1

/-- An admitted message of Table 2.7 is served and answered. -/
def serveAdmitted (wr : Writer) (whole : Bool) (service seq : Nat) (m : OdMsg) : Admission → State
  | .dropped s => s
  | .turnedAway n a s => finish n service seq m s (a, s)
  | .served n s => finish n service seq m s (serveMessage wr whole n service m s)

/-! ### Mailbox (R50) -/

/-- The response to a message whose MSG_LEN lies outside 20 to 1,044: the header as received but for SERVICE, ABORT and PLEN, and the
abort code with its detail (R50). -/
def lengthError (b : Bytes) : Bytes :=
  setAt (setAt (b.take 16) 1 (b8 (leAt b 1 1 ||| 0x80))) 7 (b8 (leAt b 7 1 ||| 1)) ++ toLE 2 8 ++ slice b 18 2
    ++ toLE 4 0x06070010 ++ toLE 4 0

/-- The host passes a slot to the device. -/
def mailboxAdmit (whole : Bool) (slot msgLen : Nat) (message : Bytes) (m : OdMsg) (s0 : State) : Admission :=
  let n := 8 + slot
  let s := devTo netBusy s0
  let x := vget s.dev.com.slots slot
  let setSlot (y : Slot) (s : State) : State := devTo (fun d => { d with com := { d.com with slots := vset d.com.slots slot y } }) s
  if (getSession s.dev n).kind != .mailbox then .dropped s
  else if x.owner then .dropped (setSlot { x with torn := true } s)
  else
    let s1 := devTo (modSession n (fun y => { y with lastRequest := s.dev.clk.run })) (setSlot { owner := true, msgLen := msgLen, message := message } s)
    if !whole && (msgLen < 20 || 1044 < msgLen) then
      .turnedAway n { abort := some (0x06070010, 0), raw := some (lengthError message) } s1
    else if m.version ≠ 1 then .dropped (setSlot { msgLen := msgLen, message := message } s1)
    else .served n s1

/-- The fields of a message, whose length the slot gives (Table 2.7). -/
def messageOf (len : Nat) (b : Bytes) : OdMsg := {
  version := leAt b 0 1, index := leAt b 4 2, sub := leAt b 6 1, flags := leAt b 7 1, offset := leAt b 8 4, total := leAt b 12 4
  plen := leAt b 16 2, payload := slice b 20 (len - 20) }

/-! ### CAN FD (Table 2.6) -/

/-- A server channel answers: its pads are supplied, it is open, NMT is not stopped, and in boot hold only the default channel (R45,
R100, R117). -/
def sdoServes (d : Dev) (ctl ch : Nat) : Bool :=
  d.isOn .net && canLine d &&
  (getSession d (4 * ctl + ch)).kind == .can && d.com.nmt != .stopped && (!d.sec.hold || ch == 0)

/-- An SDO response, and the abort record where it is an abort. -/
def sdoAnswer (n ix sub : Nat) (a : Answer) (s : State) : State :=
  let s1 := match a.abort with
    | some x => devTo (recordAbort n ix sub x) s
    | none => s
  let s2 := devTo (emit n (.sdo n ix sub a.abort a.payload)) s1
  afterAnswer a s2

/-- What follows a write by SDO: its response, unless a store owes it. -/
def sdoFinish (n ix sub : Nat) (before : State) (r : Answer × State) : State :=
  if before.dev.com.store.isNone && r.2.dev.com.store.isSome && r.1.abort.isNone then devTo (modSession n (fun x => { x with owed := true })) r.2
  else sdoAnswer n ix sub r.1 r.2

/-- The session of a channel is used now. -/
def sdoTouch (n : Nat) (s : State) : State := devTo (fun d => modSession n (fun x => { x with lastRequest := d.clk.run }) (netBusy d)) s

/-- An exchange on a server channel, for the services that CAN FD has; it abandons a transfer in progress. -/
def canAdmit (ctl ch service : Nat) (s : State) : Admission :=
  let n := 4 * ctl + ch
  if sdoServes s.dev ctl ch && [0x01, 0x02, 0x10, 0x11, 0x12, 0x13].contains service then .served n (abandon n (sdoTouch n s))
  else .dropped s

/-- A value is read by SDO. -/
def sdoRead (n ix sub : Nat) (s : State) : State := match readCheck s (some n) ix sub with
  | some a => sdoAnswer n ix sub { abort := some a } s
  | none =>
    let (v, s1) := fetchValue n ix sub s
    sdoAnswer n ix sub { payload := v } s1

/-- A value is written by SDO. -/
def sdoWrite (wr : Writer) (n ix sub : Nat) (b : Bytes) (s : State) : State :=
  sdoFinish n ix sub s (writeWhole wr n ix sub 0 b.length b s)

/-- A complete exchange on a server channel, as one request: READ and WRITE, and the commissioning exchange by its objects. -/
def canServe (wr : Writer) (service : Nat) (m : OdMsg) : Admission → State
  | .dropped s => s
  | .turnedAway _ _ s => s
  | .served n s => match service with
    | 0x01 => sdoRead n m.index.toNat m.sub.toNat s
    | 0x02 => sdoWrite wr n m.index.toNat m.sub.toNat m.payload s
    | 0x10 => sdoRead n 0x2320 1 s
    | 0x11 => sdoWrite wr n 0x2320 2 m.payload s
    | 0x12 => sdoWrite wr n 0x2320 4 [1] s
    | _ => sdoRead n 0x2320 5 s

/-- An SDO upload request (CiA 301): expedited up to 4 bytes, else segments of 7 bytes with a toggle bit (PRESUMED). -/
def sdoUpload (ctl ch : Nat) (step : SdoUp) (s0 : State) : State :=
  let n := 4 * ctl + ch
  if !sdoServes s0.dev ctl ch then s0
  else
    let s := sdoTouch n s0
    match step with
    | .initiate index sub =>
      let ix := index.toNat
      let k := sub.toNat
      let s1 := abandon n s
      match readCheck s1 (some n) ix k with
      | some a => sdoAnswer n ix k { abort := some a } s1
      | none =>
        let (v, s2) := fetchValue n ix k s1
        if v.length ≤ 4 then sdoAnswer n ix k { payload := v } s2
        else
          let t : Transfer := { write := false, ix := ix, sub := k, total := v.length, data := v, pos := 0, toggle := false, last := s.dev.clk.run }
          match beginTransfer n t s2 with
          | (some a, s3) => sdoAnswer n ix k { abort := some a } s3
          | (none, s3) => sdoAnswer n ix k { payload := toLE 4 v.length } s3
    | .segment toggle => match (getSession s.dev n).transfer with
      | some t =>
        if t.write then sdoAnswer n t.ix t.sub { abort := some (0x05040001, 0) } (setTransfer n none s)
        else if toggle ≠ t.toggle then sdoAnswer n t.ix t.sub { abort := some (0x05030000, 0) } (setTransfer n none s)
        else
          let b := slice t.data t.pos (min 7 (t.total - t.pos))
          let pos := t.pos + b.length
          let next := if pos = t.total then none else some { t with pos := pos, toggle := !t.toggle, last := s.dev.clk.run }
          sdoAnswer n t.ix t.sub { payload := b } (setTransfer n next s)
      | none => sdoAnswer n 0 0 { abort := some (0x05040001, 0) } s

/-- An SDO download request (CiA 301). -/
def sdoDownload (ctl ch : Nat) (step : SdoDown) (s0 : State) : State :=
  let n := 4 * ctl + ch
  if !sdoServes s0.dev ctl ch then s0
  else
    let s := sdoTouch n s0
    match step with
    | .expedited index sub b =>
      let s1 := abandon n s
      sdoFinish n index.toNat sub.toNat s1 (writeWhole writeObject n index.toNat sub.toNat 0 b.length b s1)
    | .initiate index sub total =>
      let t : Transfer := {
        write := true, ix := index.toNat, sub := sub.toNat, total := total.toNat, data := [], pos := 0, toggle := false, last := s.dev.clk.run }
      match beginTransfer n t (abandon n s) with
      | (some a, s1) => sdoAnswer n t.ix t.sub { abort := some a } s1
      | (none, s1) => sdoAnswer n t.ix t.sub {} s1
    | .segment toggle last b => match (getSession s.dev n).transfer with
      | some t =>
        let s1 := setTransfer n none s
        let data := t.data ++ b
        if !t.write then sdoAnswer n t.ix t.sub { abort := some (0x05040001, 0) } s1
        else if toggle ≠ t.toggle then sdoAnswer n t.ix t.sub { abort := some (0x05030000, 0) } s1
        else if t.total < data.length ∨ 7 < b.length ∨ (last ∧ data.length ≠ t.total) then
          sdoAnswer n t.ix t.sub { abort := some (0x06070010, 0) } s1
        else if last then sdoFinish n t.ix t.sub s1 (writeWhole writeObject n t.ix t.sub 0 t.total data s1)
        else sdoAnswer n t.ix t.sub {}
          (setTransfer n (some { t with data := data, pos := data.length, toggle := !t.toggle, last := s.dev.clk.run }) s)
      | none => sdoAnswer n 0 0 { abort := some (0x05040001, 0) } s

/-! ### Requests by any transport -/

/-- SEQ of a request: UDP's own; the rows of the other transports carry 0. -/
def viaSeq : Via → Nat
  | .udp _ _ _ seq => seq.toNat
  | _ => 0

/-- A request by a transport on its way to execution. Requests are served while NET is ON. -/
def admission (whole : Bool) (via : Via) (service : Nat) (m : OdMsg) (s : State) : Admission :=
  if !s.dev.isOn .net then .dropped s
  else match via with
    | .udp mac ip port seq => if !ethLine s.dev then .dropped s else udpAdmit mac.val ip.toNat port.toNat seq.toNat service m s
    | .mailbox slot =>
      let b := messageBytes service 0 m.index.toNat m.sub.toNat m.flags.toNat m.offset.toNat m.total.toNat m.payload
      mailboxAdmit whole slot.val (20 + m.payload.length) b m s
    | .can ctl ch => canAdmit ctl.val ch.val service s

/-- A request of a host. -/
def request (wr : Writer) (whole : Bool) (via : Via) (service : Nat) (m : OdMsg) (s : State) : State :=
  match via with
  | .can _ _ => canServe wr service m (admission whole via service m s)
  | _ => serveAdmitted wr whole service (viaSeq via) m (admission whole via service m s)

/-- MAILBOX_OWNER_SET with a message as it stands in the slot. -/
def ownerSet (slot msgLen : Nat) (message : Bytes) (s : State) : State :=
  if !s.dev.isOn .net then s
  else
    let b := padTo (max 20 msgLen) message
    let m := messageOf (if msgLen < 20 || 1044 < msgLen then 20 else msgLen) b
    serveAdmitted writeObject false (leAt b 1 1) (leAt b 2 2) m (mailboxAdmit false slot msgLen b m s)

/-- A host access to the BARs waits: NET is in RETENTION, or on its way to it or back, with the link in L1 (R139). -/
def barWaits (d : Dev) : Bool :=
  let p := d.acq.pcie
  let c := getDom d .net
  p.up && p.memory && !p.d3hot && (c.state == .retention || (c.state == .transition && (c.left == .retention || c.target == .retention)))

/-- A host access to the BARs is served. -/
def barServe (s : State) : BarAccess → State
  | .tail n v => s.act (fun o d => tailWrite o n v d)
  | .register n off v => s.act (fun _ d => streamRegister n off v d)
  | .timeLo => s.act (fun _ d => timeLoRead d)
  | .mailbox slot n b => ownerSet slot n b s
  | .unmask v => s.act (fun _ d => msixUnmask v d)

/-- A host access to the BARs: while NET is in RETENTION it waits until NET is ON (R139). -/
def barAccess (a : BarAccess) (s : State) : State :=
  if barWaits s.dev then devTo (onPcie (fun p => { p with parked := p.parked ++ [a] })) s else barServe s a

/-- The accesses that waited complete once NET is ON, in the order of their arrival. -/
def barReplay (s : State) : State :=
  if s.dev.isOn .net then s.dev.acq.pcie.parked.foldl barServe (devTo (onPcie (fun p => { p with parked := [] })) s) else s

/-- The message of a write of a whole value. -/
def writeMsg (ix sub : Nat) (b : Bytes) : OdMsg := {
  index := BitVec.ofNat 16 ix, sub := BitVec.ofNat 8 sub, flags := 4, total := BitVec.ofNat 32 b.length, plen := BitVec.ofNat 16 b.length
  payload := b }

/-- A row that is a host's write of one object. -/
def hostWrite (via : Via) (ix sub : Nat) (b : Bytes) (s : State) : State := request writeObject true via 2 (writeMsg ix sub b) s

/-- A service of Table 2.8 without an object. -/
def hostService (via : Via) (service : Nat) (b : Bytes) (s : State) : State :=
  request writeObject false via service { index := 0, sub := 0, plen := BitVec.ofNat 16 b.length, payload := b } s

/-! ### Completion of a store, timeouts -/

/-- A response is still owed for a store: by the session that asked for it, or by its mailbox slot, whose OWNER stays set until the
device clears it even where the session has closed with the link (R39, R50). -/
def storeOwes (n : Nat) (d : Dev) : Bool :=
  (getSession d n).owed || (8 ≤ n && n < 12 && (vget d.com.slots (n - 8)).owner)

/-- The response that a store owes, and those that waited behind it (R39, R48). -/
def storeAnswer (op : StoreOp) (ok : Bool) (o : Od) (d : Dev) : Dev :=
  let n := op.session
  let x := getSession d n
  if !storeOwes n d then d
  else
    let a : Option Abort := if ok then none else some (0x06060000, 0)
    let d1 := modSession n (fun s => { s with owed := false, behind := [] }) d
    let d2 := match a with
      | some a => recordAbort n op.ix op.sub a d1
      | none => d1
    let m := writeMsg op.ix op.sub [0, 0, 0, 0]
    let b := responseBytes 2 op.seq { m with offset := BitVec.ofNat 32 op.offset } { abort := a, last := true, offset := op.offset, total := 4 }
    let d3 := if n < 8 then { d2 with out := d2.out ++ wired [.sdo n op.ix op.sub a []] d2 } else sendResponse n op.seq b d2
    let d4 := { d3 with out := d3.out ++ wired x.behind d3 }
    if x.closing then closeNow o n d4 else d4

/-- A store or restore completes, or its MRAM write has failed (R37 to R39). -/
def storeComplete (ok : Bool) (s : State) : State := match s.dev.com.store with
  | none => s
  | some op =>
    let d := { s.dev with com := { s.dev.com with store := none } }
    let d1 := if ok then
        writeShadow (onSec (fun x => { x with bank := some op.bank })
          (onNv (fun v => { v with banks := vset v.banks op.bank { counter := op.counter, valid := true, contents := op.contents } }) d))
      else d
    { s with dev := storeAnswer op ok s.od d1 }

/-- A UDP session has been without a request for 10 s (R40, R44). -/
def idleSession (n : Nat) (o : Od) (d : Dev) : Dev :=
  let x := getSession d n
  if x.kind == .udp && decide (x.lastRequest + secT 10 ≤ d.clk.run) then closeSession o n d else d

/-- A transfer has received no segment for more than 1 s (R43): nothing is applied. On CAN FD the server aborts; a UDP or mailbox
client is sent nothing unasked (R48). -/
def transferTimeout (n : Nat) (s : State) : State :=
  match (getSession s.dev n).transfer with
  | some t =>
    if s.dev.clk.run ≤ t.last + secT 1 then s
    else
      let s1 := setTransfer n none s
      if n < 8 then sdoAnswer n t.ix t.sub { abort := some (0x05040000, 0) } s1
      else devTo (recordAbort n t.ix t.sub (0x05040000, 0)) s1
  | none => s

end Sys2Proof.Machine
end

