-- ==== Sys2Proof/Machine/Pdo.lean ====
section
/-! DEFINITION. PDOs, NMT, EMCY and heartbeat (R45, R46, R51 to R54). -/
namespace Sys2Proof.Machine

/-- PDOs are exchanged: NET ON, NMT operational, no boot hold (R45, R117). -/
def pdoRuns (d : Dev) : Bool := d.isOn .net && d.com.nmt == .operational && !d.sec.hold

def transmissionType (o : Od) (ix : Nat) : Nat := odU o ix 2
def rpdoTransport (o : Od) (n : Nat) : Nat := odU o 0x1FE0 (n + 1)
def tpdoTransport (o : Od) (n : Nat) : Nat := odU o 0x1FE1 (n + 1)

/-- The mapped objects of a mapping object as index, subindex and bytes; an entry of 0 maps nothing. -/
def mapped (o : Od) (ix : Nat) : List (Nat × Nat × Nat) :=
  ((mapEntries o ix (odU o ix 0)).filter (· != 0)).map (fun e => (e / 65536, e / 256 % 256, e % 256 / 8))

/-- An RPDO's values are written one after another; the first abort discards them all. -/
def writeMapped : List (Nat × Nat × Nat) → Bytes → State → Option State
  | [], _, s => some s
  | (ix, sub, n) :: rest, b, s => match writeObject none ix sub (b.take n) s with
    | (some _, _) => none
    | (none, s1) => writeMapped rest (b.drop n) s1

/-- An RPDO is refused: REFUSED, and one more in the count (R53). -/
def rpdoRefused (n : Nat) (d : Dev) : Dev := { d with com := { d.com with
  rpdos := vmod d.com.rpdos n (fun r => { r with status := (r.status / 32768) * 32768 + 16384 + satAdd 14 (r.status % 16384) 1 }) } }

/-- An RPDO is applied: one write, or nothing (R53). -/
def rpdoApply (n : Nat) (b : Bytes) (s : State) : State :=
  match writeMapped (mapped s.od (0x1600 + n)) b s with
  | some t => t
  | none => devTo (rpdoRefused n) s

/-- RPDO `n` takes its data: at the next period start, or at once (R52). -/
def rpdoTake (n : Nat) (b : Bytes) (s : State) : State :=
  let sync := let t := transmissionType s.od (0x1400 + n); 1 ≤ t && t ≤ 240
  let s1 := devTo (fun d => { d with com := { d.com with
    rpdos := vmod d.com.rpdos n (fun r => { r with lastReceived := d.clk.run, held := if sync then some b else r.held }) } }) s
  if sync then s1 else rpdoApply n b s1

/-- The RPDOs that a frame on a CAN FD controller, or on a MAC, reaches: valid, of that transport and COB-ID. -/
def rpdosFor (o : Od) (codes : List Nat) (cobMatches : Nat → Bool) : List Nat :=
  (List.range 32).filter (fun n =>
    pdoValid o (0x1400 + n) && codes.contains (rpdoTransport o n) && cobMatches (odU o (0x1400 + n) 1))

/-- RPDOs take one frame in ascending PDO number (R41). -/
def rpdosTake (l : List Nat) (b : Bytes) (s : State) : State := l.foldl (fun s n => rpdoTake n b s) s

/-- The RPDOs that a frame reaches, and the data it gives them: on Ethernet the DATA of the format of R54. -/
def pdoTargets (o : Od) (src : PdoSrc) (data : Bytes) : List Nat × Bytes :=
  match src with
  | .can ctl cob => (rpdosFor o [ctl.val] (fun c => c % 2 ^ 29 == cob.toNat % 2 ^ 29), data)
  | .eth mac =>
    if leAt data 0 1 ≠ 1 ∨ leAt data 1 1 ≠ 1 then ([], [])
    else (rpdosFor o [0x10 + mac.val, 0x12] (fun c => c % 65536 == leAt data 2 2), slice data 16 (leAt data 14 2))

/-- The frame reaches the controller through a powered transceiver (Table 4.5). -/
def pdoHeard (src : PdoSrc) (d : Dev) : Bool := match src with
  | .can _ _ => canLine d
  | .eth _ => ethLine d

/-- A frame that may be an RPDO (R53, R54). -/
def rpdoReceived (src : PdoSrc) (data : Bytes) (s : State) : State :=
  if !pdoRuns s.dev || !pdoHeard src s.dev then s
  else
    let (l, b) := pdoTargets s.od src data
    if l.isEmpty then s else rpdosTake l b (devTo netBusy s)

/-- The event timer of RPDO `n` has passed (R53). -/
def rpdoTimeout (n : Nat) (o : Od) (d : Dev) : Dev :=
  let r := vget d.com.rpdos n
  let ms := odU o (0x1400 + n) 5
  if pdoRuns d && pdoValid o (0x1400 + n) && ms != 0 && decide (r.lastReceived + msT ms < d.clk.run) then
    { d with com := { d.com with rpdos := vset d.com.rpdos n { r with status := setBit r.status 15 } } }
  else d

/-- RPDOs held for the period start are applied (R52). DESIGN CHOICE: one held when NMT leaves operational stays held until the first
period start after the return to operational (log entry 188). -/
def rpdosAtStart (s : State) : State :=
  if !pdoRuns s.dev then s
  else (List.range 32).foldl (fun s n => match (vget s.dev.com.rpdos n).held with
    | some b => rpdoApply n b (devTo (fun d => { d with com := { d.com with rpdos := vmod d.com.rpdos n (fun r => { r with held := none }) } }) s)
    | none => s) s

/-- What TPDO `n` carries now. A mapped object whose domain is not ON has no value to give: a free value stands for it. -/
def tpdoData (n : Nat) (s : State) : Bytes :=
  (mapped s.od (0x1A00 + n)).foldl (fun b e =>
    let v := if s.dev.isOn (ownerOf e.1) then readValue s none e.1 e.2.1
      else toLE e.2.2 (Config.absentValue s.dev.free b.length)
    b ++ padTo e.2.2 v) []

/-- An Ethernet PDO frame (R54). -/
def pdoFrame (cob count time : Nat) (b : Bytes) : Bytes :=
  [1, 1] ++ toLE 2 cob ++ toLE 2 count ++ toLE 8 time ++ toLE 2 b.length ++ b

/-- TPDO `n` is sent with its data. -/
def tpdoSend (n : Nat) (b : Bytes) (s : State) : State :=
  let o := s.od
  let cob := odU o (0x1800 + n) 1
  let tr := tpdoTransport o n
  let x := vget s.dev.com.tpdos n
  devTo (fun d =>
    let eth (m : Nat) : Output := .eth m (odGet o 0x1FE2 1) (pdoFrame cob x.count d.clk.dt b)
    let out : List Output := match tr with
      | 0x10 => [eth 0]
      | 0x11 => [eth 1]
      | 0x12 => [eth 0, eth 1]
      | c => [.can c (cob % 2 ^ 29) b]
    netBusy { d with
      com := { d.com with tpdos := vset d.com.tpdos n {
        lastData := b, lastSent := d.clk.run, count := if tr < 0x10 then x.count else (x.count + 1) % 65536, periods := 0 } }
      out := d.out ++ wired out d, free := d.free + 1 }) s

/-- TPDO `n` may be sent under a transmission type. -/
def tpdoOf (n type : Nat) (s : State) : Bool :=
  pdoRuns s.dev && pdoValid s.od (0x1800 + n) && transmissionType s.od (0x1800 + n) == type

/-- A mapped value has changed (type 0xFE), not more often than the inhibit time of 100 µs units allows (R52). -/
def tpdoChange (n : Nat) (s : State) : State :=
  let x := vget s.dev.com.tpdos n
  let b := tpdoData n s
  if tpdoOf n 0xFE s && b != x.lastData && decide (x.lastSent + usT (100 * odU s.od (0x1800 + n) 3) ≤ s.dev.clk.run) then tpdoSend n b s
  else s

/-- The event timer of TPDO `n` (type 0xFF). -/
def tpdoTimer (n : Nat) (s : State) : State :=
  let ms := odU s.od (0x1800 + n) 5
  if tpdoOf n 0xFF s && ms != 0 && decide ((vget s.dev.com.tpdos n).lastSent + msT ms ≤ s.dev.clk.run) then tpdoSend n (tpdoData n s) s
  else s

/-- Synchronous TPDOs at a period start (R52). -/
def tpdosAtStart (s : State) : State :=
  if !pdoRuns s.dev then s
  else (List.range 32).foldl (fun s n =>
    let t := transmissionType s.od (0x1800 + n)
    if !pdoValid s.od (0x1800 + n) || t == 0 || 240 < t then s
    else if (vget s.dev.com.tpdos n).periods + 1 < t then
      devTo (fun d => { d with com := { d.com with tpdos := vmod d.com.tpdos n (fun x => { x with periods := x.periods + 1 }) } }) s
    else tpdoSend n (tpdoData n s) s) s

/-- An NMT command on a CAN FD bus for all nodes or this one (R45). -/
def nmtBus (node code : Nat) (s : State) : State :=
  if s.dev.isOn .net && canLine s.dev && (node == 0 || node == s.dev.com.nodeId) then nmtCommand code (devTo netBusy s) else s

/-- The oldest event waiting is sent as EMCY on every controller selected (R46); in stopped nothing is sent (R45). -/
def emcySend (o : Od) (d : Dev) : Dev :=
  if !d.isOn .net || d.com.nmt == .stopped then d
  else match d.seqr.emcy with
    | [] => d
    | r :: rest =>
      let b := [0x00, 0xFF, b8 (errorReg d)] ++ List.replicate 13 0 ++ padTo 32 (eventBytes r)
      let out := (setBits 2 (odU o 0x1FE4 2)).map (fun c => Output.can c (0x080 + d.com.nodeId) b)
      { d with seqr := { d.seqr with emcy := rest }, out := d.out ++ wired out d, free := d.free + 1 }

def NmtState.code : NmtState → Nat
  | .preOperational => 0x7F | .operational => 0x05 | .stopped => 0x04

/-- The heartbeat of 0x1017 on both controllers. -/
def heartbeat (o : Od) (d : Dev) : Dev :=
  let ms := odU o 0x1017 0
  if !d.isOn .net || ms == 0 || decide (d.clk.run < d.com.heartbeatLast + msT ms) then d
  else { d with
    com := { d.com with heartbeatLast := d.clk.run }
    out := d.out ++ wired ([0, 1].map (fun c => Output.can c (0x700 + d.com.nodeId) [b8 (d.com.nmt.code)])) d }

end Sys2Proof.Machine
end

