-- ==== Sys2Proof/Machine/Wait.lean ====
section
/-! DEFINITION. The passing of time: the idle tick, and the time that a command which stands for an instant lets pass until it. -/
namespace Sys2Proof.Machine

/-- An instant on one of the device's counts: device time, AON time (which is the safety island's), the RTC. -/
inductive Instant where
  | device (t : Nat)
  | aon (t : Nat)
  | rtc (n : Nat)
deriving DecidableEq, Repr, Inhabited

/-- The RTC advances: by its crystal, or by the AON oscillator while AON drives SUP_EN (R143, log entry 2). -/
def rtcRuns (d : Dev) : Bool := d.clk.rtcXtal || d.aon.reset.supEn

/-- Fractions of an RTC count in one second: `rtcFrac` counts in units of 1/800,000,000. -/
def rtcUnit : Nat := 800000000

/-- `k` ticks of 1.25 ns on every count that runs (R44, R143, R167). -/
def Clock.pass (rtcOn : Bool) (k : Nat) (c : Clock) : Clock :=
  let frac := if rtcOn then c.rtcFrac + 32768 * k else c.rtcFrac
  { c with
    run := c.run + k
    dt := if c.counting then c.dt + k else c.dt
    rtc := c.rtc + frac / rtcUnit
    rtcFrac := frac % rtcUnit }

/-- Since when each domain has been idle, noted as time passes (Table 6.3, R134). -/
def trackIdle (o : Od) (d : Dev) : Dev :=
  forEach [Domain.sec, .net, .link, .ctrl, .drv, .meas] (fun m e =>
    modDom m (fun c => { c with idle := if odU o (0x2110 + m.num) 1 != 0 && idleHolds o d m then some (c.idle.getD d.clk.run) else none }) e) d

/-- `k` ticks pass without a command. -/
def passTicks (k : Nat) (s : State) : State :=
  if k = 0 then s
  else
    let d := trackIdle s.od s.dev
    { s with dev := { d with clk := d.clk.pass (rtcRuns d) k } }

/-- Ticks from now to an instant: 0 where it has passed, or where its count does not run. -/
def ticksTo (d : Dev) : Instant → Nat
  | .device t => if d.clk.counting then t - d.clk.dt else 0
  | .aon t => t - d.clk.run
  | .rtc n => if rtcRuns d ∧ d.clk.rtc < n then max 1 (((n - d.clk.rtc) * rtcUnit - d.clk.rtcFrac + 32767) / 32768) else 0

/-- Time passes to the instant that a command stands for, where it has one still to come (log entry 2). -/
def State.upTo (due : Od → Dev → Option Instant) (s : State) : State :=
  match due s.od s.dev with
  | some i => passTicks (ticksTo s.dev i) s
  | none => s

/-- An instant under a condition. -/
def instantIf (c : Bool) (i : Instant) : Option Instant := if c then some i else none

end Sys2Proof.Machine
end

