-- ==== Sys2Proof/Machine/CmdCom.lean ====
section
/-! DEFINITION. Commands of chapters 2 and 3: requests of hosts, sessions, NMT, PDOs, stores, the event sequencer, credit and the
ledger. -/
namespace Sys2Proof.Machine

/-- What a command answers. -/
abbrev Result := Host.Outcome State Fault Refusal

/-- A command has its effect on the object values and the device; the queue is the step's alone. -/
def acts (f : State → State) (s : State) : Result := .next { f s with pending := s.pending }

/-- A command has its effect on the device under the object values as they stand. -/
def drives (f : Od → Dev → Dev) (s : State) : Result := .next { s with dev := f s.od s.dev }

/-- A timed command: time passes to its instant, and it has its effect on the device. -/
def timed (due : Od → Dev → Option Instant) (f : Od → Dev → Dev) (s : State) : Result := drives f (s.upTo due)

/-- The same for a command that may reach the object values. -/
def timedAct (due : Od → Dev → Option Instant) (f : State → State) (s : State) : Result := acts f (s.upTo due)

/-! ### Host requests (R35, R40, R41, R43, R49, R50) -/

/-- OD_READ: service 0x01 of Table 2.8 by any transport. -/
def execOdRead (via : Via) (m : OdMsg) (s : State) : Result := acts (request writeObject false via 1 m) s

/-- OD_WRITE: service 0x02. -/
def execOdWrite (via : Via) (m : OdMsg) (s : State) : Result := acts (request writeObject false via 2 m) s

/-- SDO_UPLOAD: a request of CiA 301 and CiA 1301 on a server channel (Table 2.6). -/
def execSdoUpload (controller : Fin 2) (channel : Fin 4) (step : SdoUp) (s : State) : Result :=
  acts (sdoUpload controller.val channel.val step) s

/-- SDO_DOWNLOAD. -/
def execSdoDownload (controller : Fin 2) (channel : Fin 4) (step : SdoDown) (s : State) : Result :=
  acts (sdoDownload controller.val channel.val step) s

/-- KEEPALIVE: service 0x03. -/
def execKeepalive (via : Via) (s : State) : Result := acts (hostService via 3 []) s

/-- CLOSE: service 0x04. -/
def execClose (via : Via) (s : State) : Result := acts (hostService via 4 []) s

/-- MAILBOX_OWNER_SET: the host passes a slot with a message to the device (R50). -/
def execMailboxOwnerSet (slot : Fin 4) (msgLen : BitVec 11) (message : Bytes) (s : State) : Result :=
  acts (barAccess (.mailbox slot.val msgLen.toNat message)) s

/-- 10 s after the last request of a UDP session. -/
def sessionDue (n : Nat) (_ : Od) (d : Dev) : Option Instant :=
  let x := getSession d n
  instantIf (x.kind == .udp) (.aon (x.lastRequest + secT 10))

/-- UDP_SESSION_IDLE_TIMEOUT (R40, R44). -/
def execUdpSessionIdleTimeout (session : Fin 64) (s : State) : Result := timed (sessionDue session.val) (idleSession session.val) s

/-- More than 1 s after the last segment. -/
def transferDue (n : Nat) (_ : Od) (d : Dev) : Option Instant :=
  (getSession d n).transfer.map (fun t => .aon (t.last + secT 1 + 1))

/-- TRANSFER_TIMEOUT (R43). -/
def execTransferTimeout (session : Fin 64) (s : State) : Result := timedAct (transferDue session.val) (transferTimeout session.val) s

/-! ### NMT (R45), PDOs (R52, R53), EMCY (R46), heartbeat -/

/-- An NMT command arrives on a bus, or as a write of 0x2002:03. -/
def nmtRow (code : Nat) : NmtSrc → State → State
  | .bus _ node => nmtBus node.toNat code
  | .host via => hostWrite via 0x2002 3 [b8 code]

/-- NMT_START. -/
def execNmtStart (src : NmtSrc) (s : State) : Result := acts (nmtRow 0x01 src) s

/-- NMT_STOP. -/
def execNmtStop (src : NmtSrc) (s : State) : Result := acts (nmtRow 0x02 src) s

/-- NMT_ENTER_PREOPERATIONAL. -/
def execNmtEnterPreoperational (src : NmtSrc) (s : State) : Result := acts (nmtRow 0x80 src) s

/-- NMT_RESET_NODE. -/
def execNmtResetNode (src : NmtSrc) (s : State) : Result := acts (nmtRow 0x81 src) s

/-- NMT_RESET_COMMUNICATION. -/
def execNmtResetCommunication (src : NmtSrc) (s : State) : Result := acts (nmtRow 0x82 src) s

/-- RPDO_RECEIVED (R53, R54). -/
def execRpdoReceived (src : PdoSrc) (data : Bytes) (s : State) : Result := acts (rpdoReceived src data) s

/-- More than the event timer after the last reception. -/
def rpdoDue (n : Nat) (o : Od) (d : Dev) : Option Instant :=
  let ms := odU o (0x1400 + n) 5
  instantIf (pdoRuns d && pdoValid o (0x1400 + n) && ms != 0) (.aon ((vget d.com.rpdos n).lastReceived + msT ms + 1))

/-- RPDO_TIMEOUT (R53). -/
def execRpdoTimeout (n : Fin 32) (s : State) : Result := timed (rpdoDue n.val) (rpdoTimeout n.val) s

/-- A time after the last transmission of a TPDO of a transmission type. -/
def tpdoDue (n type span : Nat) (o : Od) (d : Dev) : Option Instant :=
  instantIf (pdoRuns d && pdoValid o (0x1800 + n) && transmissionType o (0x1800 + n) == type) (.aon ((vget d.com.tpdos n).lastSent + span))

/-- TPDO_CHANGE_TRANSMIT: the inhibit time, in 100 µs, is over (R52). -/
def execTpdoChangeTransmit (n : Fin 32) (s : State) : Result :=
  timedAct (fun o => tpdoDue n.val 0xFE (usT (100 * odU o (0x1800 + n.val) 3)) o) (tpdoChange n.val) s

/-- TPDO_EVENT_TIMER (R52). -/
def execTpdoEventTimer (n : Fin 32) (s : State) : Result :=
  timedAct (fun o => tpdoDue n.val 0xFF (msT (odU o (0x1800 + n.val) 5)) o) (tpdoTimer n.val) s

/-- EMCY_SEND (R46). -/
def execEmcySend (s : State) : Result := drives emcySend s

/-- A heartbeat time after the last heartbeat. -/
def heartbeatDue (o : Od) (d : Dev) : Option Instant :=
  let ms := odU o 0x1017 0
  instantIf (d.isOn .net && ms != 0) (.aon (d.com.heartbeatLast + msT ms))

/-- HEARTBEAT_PRODUCER_TIMER. -/
def execHeartbeatProducerTimer (s : State) : Result := timed heartbeatDue heartbeat s

/-! ### Stores (R37 to R39) -/

/-- STORE_SAVE: "save" to 0x1010. -/
def execStoreSave (via : Via) (group : Fin 4) (s : State) : Result := acts (hostWrite via 0x1010 (group.val + 1) (toLE 4 0x65766173)) s

/-- RESTORE_LOAD: "load" to 0x1011. -/
def execRestoreLoad (via : Via) (group : Fin 4) (s : State) : Result := acts (hostWrite via 0x1011 (group.val + 1) (toLE 4 0x64616F6C)) s

/-- CONFIG_STORE_COMPLETE (R37 to R39). -/
def execConfigStoreComplete (ok : Bool) (s : State) : Result := acts (storeComplete ok) s

/-! ### The event sequencer (R67) -/

/-- Events whose window has closed are numbered; FIRST_FAULT and the event streams follow the numbering (R335, R391). -/
def windowClose (o : Od) (d : Dev) : Dev :=
  if d.isOn .sec then stageAllEvents o (firstFault o (releaseDue o d)) else d

/-- The window of the oldest held event closes two periods after its stamp. -/
def windowDue (o : Od) (d : Dev) : Option Instant :=
  match d.seqr.held with
  | e :: _ => instantIf (d.isOn .sec) (.device (e.time + 2 * period o))
  | [] => none

/-- SEQUENCER_WINDOW_CLOSE. -/
def execSequencerWindowClose (s : State) : Result := timed windowDue windowClose s

/-! ### Credit (R63) -/

/-- The device finds that its own terms fail: the epoch closes, the breach is recorded, and RESYNC_BEGIN is owed. -/
def creditBreach (c : Nat) (o : Od) (d : Dev) : Dev :=
  let t := (getCell d c).txn
  if d.isOn .link && t.isOpen then
    let d1 := record o 0x0510 (srcCell c) (t.terms ++ toLE 2 t.epoch) (closeEpoch o c d)
    let d2 := breachConservation d1
    modCell c (fun x => { x with resyncOwed := true })
      (queueControl c 0x09 [] { d2 with breach := { d2.breach with credit := satInc d2.breach.credit } })
  else d

/-- CREDIT_BREACH. -/
def execCreditBreach (cell : Fin 128) (s : State) : Result := drives (creditBreach cell.val) s

/-! ### The ledger (R74, R75, R77) -/

/-- LEDGER_UNACCOUNTED_SECOND. -/
def execLedgerUnaccountedSecond (account : Fin 133) (s : State) : Result :=
  drives (fun o d => if d.isOn .ctrl then ledgerSecond o account.val d else d) s

/-- CHECKPOINT_INTERVAL after the last. -/
def checkpointDue (o : Od) (d : Dev) : Option Instant :=
  instantIf (d.isOn .ctrl && d.ledger.resume == .no) (.device (d.ledger.timer + secT (odU o 0x2540 1)))

/-- LEDGER_CHECKPOINT_INTERVAL. -/
def execLedgerCheckpointInterval (s : State) : Result := timed checkpointDue (fun o d => if d.isOn .ctrl then checkpointInterval o d else d) s

/-- CHECKPOINT_NOW. -/
def execCheckpointNow (via : Via) (s : State) : Result := acts (hostWrite via 0x2540 2 [1]) s

/-- LEDGER_CHECKPOINT_DONE. -/
def execLedgerCheckpointDone (s : State) : Result := drives (fun _ => checkpointDone) s

/-- ACCOUNT_RESET. -/
def execAccountReset (via : Via) (selector : BitVec 16) (s : State) : Result := acts (hostWrite via 0x2541 3 (toLE 2 selector.toNat)) s

end Sys2Proof.Machine
end

