-- ==== Sys2Proof/Machine/CmdPower.lean ====
section
/-! DEFINITION. Commands of chapters 4 to 6: supplies, resets, boot, domains and wake. -/
namespace Sys2Proof.Machine

/-! ### An AON cycle (R25, R100, R138) -/

/-- What the sequencer takes one at a time in a cycle. -/
inductive AonItem where
  | ask (a : DomainAsk)
  | step
  | idle (m : Domain)
deriving DecidableEq, Repr, Inhabited

/-- The place of an item in the cycle: requests towards ON first, then the others, both in the order of Table 1.5 (R25). -/
def AonItem.place (d : Dev) : AonItem → Nat
  | .ask a => if a.state = 2 then a.domain.val else 8 + a.domain.val
  | .step => 8 + (match d.aon.group with
    | some g => (g.todo.map Domain.num).headD 8
    | none => 8)
  | .idle m => 8 + m.num

/-- The items of a cycle in the order in which they are taken. -/
def cycleItems (c : AonCycle) (d : Dev) : List AonItem :=
  sortBy (fun a b => decide (a.place d < b.place d))
    (c.asks.map AonItem.ask ++ (if c.step then [AonItem.step] else []) ++ c.idle.map (fun m => AonItem.idle (Domain.ofNum m.val)))

/-- One item is checked against what those before it left, and answered. -/
def serveItem (s : State) : AonItem → State
  | .ask a => hostWrite a.via 0x2100 (a.domain.val + 1) [a.state] s
  | .step => groupStep s
  | .idle m => idleExpiry m s

/-- The rails of a cycle are lost, in ascending order of their identifiers (R100). -/
def railsLost (l : List (Fin 9)) (s : State) : State :=
  let ids := (List.range 9).filter (fun r => l.any (fun x => x.val == r) && vget s.dev.rails.ok r)
  let s1 := ids.foldl (fun s r => railLost r s) s
  { s1 with dev := modAon (fun a => { a with waking := false, lostNow := domainMask (ids.flatMap railDomains) }) s1.dev }

/-- The wake inputs of a cycle. -/
def cycleWakes (seen : Option WakeSeen) (preempts : Bool) (s : State) : State := match seen with
  | some w => s.act (fun o d => let (edges, d1) := wakeSees o w d; wakeAccept o edges preempts d1)
  | none => s

/-- An AON cycle: losses first, then the wake, then the requests (R25, R100, R138). A wake that a request of the cycle loses to is
recorded with PRE_EMPTED, whatever the order in which AON took them in. -/
def aonCycle (c : AonCycle) (s : State) : State :=
  let s1 := railsLost c.lost s
  let serve (preempts : Bool) : State := (cycleItems c s1.dev).foldl serveItem (cycleWakes c.seen preempts s1)
  let s2 := serve false
  let s3 := if s2.dev.aon.waking && s2.dev.aon.wakeFlags.testBit 0 then serve true else s2
  { s3 with dev := modAon (fun a => { a with waking := false, lostNow := 0 }) s3.dev }

/-! ### Supplies (R93, R98 to R101) -/

/-- VAON_POWER_ON. -/
def execVaonPowerOn (s : State) : Result := acts vaonPowerOn s

/-- SUPPLY_LOST: a rail by its identifier in Table 4.5. -/
def execSupplyLost (rail : Fin 9) (s : State) (cycle : AonCycle := {}) : Result := acts (aonCycle { cycle with lost := rail :: cycle.lost }) s

/-- SUPPLY_RESTORED. -/
def execSupplyRestored (rail : Fin 9) (s : State) : Result := acts (railRestored rail.val) s

/-- SEQUENCE_VIOLATION: `rail` rises before `follows`. -/
def execSequenceViolation (rail follows : Fin 9) (s : State) : Result :=
  drives (fun o d => orderBroken rail.val follows.val d o) s

/-- LOCK_FILTER_CHECK_DONE: the measured time constants in µs. -/
def execLockFilterCheckDone (tauTb tauCas : BitVec 32) (s : State) : Result :=
  acts (fun s => (s.act (filterCheck · tauTb.toNat tauCas.toNat)).act readyCheck) s

/-! ### Resets (R99 to R113) -/

/-- PORST_N_ASSERT. -/
def execPorstNAssert (s : State) : Result := acts porstAssert s

/-- PORST_N_RELEASE. -/
def execPorstNRelease (s : State) : Result := acts porstRelease s

/-- RESET_N_ASSERT. -/
def execResetNAssert (s : State) : Result := acts resetNAssert s

/-- RESET_N_RELEASE. -/
def execResetNRelease (s : State) : Result := acts resetNRelease s

/-- RESET_N_LIMIT after the pin fell. -/
def limitDue (o : Od) (d : Dev) : Option Instant :=
  let r := d.aon.reset
  instantIf (r.resetN && r.byPin && !r.porst && !r.limitDone) (.aon (r.pinSince + msT (odU o 0x2201 4)))

/-- RESET_N_LIMIT_EXPIRY (R110), with a rise of the pin in the same AON cycle (R112). -/
def execResetNLimitExpiry (s : State) (rises : Bool := false) : Result := timedAct limitDue (resetNLimit rises) s

/-- RESET_N_REARM after the pin rose. -/
def rearmDue (o : Od) (d : Dev) : Option Instant :=
  let r := d.aon.reset
  instantIf (r.masked && !r.resetN && !r.porst) (.aon (r.pinSince + msT (odU o 0x2201 5)))

/-- RESET_N_REARMED (R110). -/
def execResetNRearmed (s : State) : Result := timed rearmDue resetNRearm s

/-- 50 ms after the core's domain became ON. -/
def watchdogDue (core : Nat) (_ : Od) (d : Dev) : Option Instant :=
  let m := domainOfCore core
  instantIf (d.isOn m) (.aon ((getDom d m).since + msT 50))

/-- WATCHDOG: a core has not serviced its watchdog (R113). -/
def execWatchdog (core : Fin 4) (s : State) : Result := timedAct (watchdogDue core.val) (watchdog core.val) s

/-- DEVICE_RESET: "rset" to 0x2202:01 (R112). -/
def execDeviceReset (via : Via) (s : State) : Result := acts (hostWrite via 0x2202 1 (toLE 4 0x74657372)) s

/-- DEBUG_RESET (Table 5.1). -/
def execDebugReset (s : State) : Result := acts debugReset s

/-- WARM_RESET_RELEASE: the hold of a reset without a pin is over (R104). -/
def execWarmResetRelease (s : State) : Result := timedAct (fun _ d => d.aon.reset.pinless.map Instant.aon) pinlessOver s

/-! ### Boot (R116, R118, R119) -/

/-- SEQUENCER_DOMAIN_REQUEST. -/
def execSequencerDomainRequest (s : State) : Result := acts seqNext s

/-- 50 ms after the sequencer's request, while the domain is not ON. -/
def bootDue (_ : Od) (d : Dev) : Option Instant :=
  match d.aon.seq with
  | some q => match q.current with
    | some m => instantIf (!d.isOn m) (.aon (q.requested + msT 50))
    | none => none
  | none => none

/-- BOOT_DOMAIN_FAILED. -/
def execBootDomainFailed (s : State) : Result := timedAct bootDue seqTimeout s

/-- 100 ms after MEAS reached ON, while a sequence waits for TBLOCK. -/
def tblockDue (_ : Od) (d : Dev) : Option Instant :=
  instantIf ((d.aon.seq.isSome || d.aon.bootOpen) && d.isOn .meas && !d.time.tb.declared) (.aon ((getDom d .meas).since + msT 100))

/-- TBLOCK_DECLARE_TIMEOUT. -/
def execTblockDeclareTimeout (s : State) : Result := timedAct tblockDue tbTimeout s

/-- BOOT_CONFIRM: "fcon" to 0x2210:03. -/
def execBootConfirm (via : Via) (s : State) : Result := acts (hostWrite via 0x2210 3 (toLE 4 0x6E6F6366)) s

/-! ### Domains and wake (R126 to R143) -/

/-- DOMAIN_STATE_WRITE. -/
def execDomainStateWrite (via : Via) (domain : Fin 8) (state : BitVec 8) (s : State) (cycle : AonCycle := {}) : Result :=
  acts (aonCycle { cycle with asks := { via := via, domain := domain, state := state } :: cycle.asks }) s

/-- GROUP_REQUEST. -/
def execGroupRequest (via : Via) (value : BitVec 16) (s : State) : Result := acts (hostWrite via 0x2101 1 (toLE 2 value.toNat)) s

/-- GROUP_STEP. -/
def execGroupStep (s : State) (cycle : AonCycle := {}) : Result := acts (aonCycle { cycle with step := true }) s

/-- IDLE_TIME after the domain became idle. -/
def idleDue (m : Domain) (o : Od) (d : Dev) : Option Instant :=
  instantIf (odU o (0x2110 + m.num) 1 != 0 && idleHolds o d m)
    (.aon ((getDom d m).idle.getD d.clk.run + msT (odU o (0x2110 + m.num) 2)))

/-- IDLE_TIME_EXPIRY. -/
def execIdleTimeExpiry (domain : Fin 8) (s : State) (cycle : AonCycle := {}) : Result :=
  timedAct (idleDue (Domain.ofNum domain.val)) (aonCycle { cycle with idle := domain :: cycle.idle }) s

/-- WAKE: what AON sees of the wake inputs. -/
def execWake (seen : WakeSeen) (s : State) (cycle : AonCycle := {}) : Result := acts (aonCycle { cycle with seen := some seen }) s

/-- The RTC count reaches RTC_ALARM: once per alarm (Table 6.5). -/
def rtcAlarm (o : Od) (d : Dev) : Dev :=
  let due := odU o 0x2106 3 != 0 && decide (odU o 0x2106 3 ≤ d.clk.rtc)
  if due && !d.aon.wakePending.testBit 5 then
    modAon (fun a => { a with waking := false })
      (wakeAccept o 0 false (modAon (fun a => { a with wakePending := setBit a.wakePending 5 }) d))
  else d

/-- RTC_ALARM. -/
def execRtcAlarm (s : State) : Result :=
  timed (fun o d => instantIf (odU o 0x2106 3 != 0 && !d.aon.wakePending.testBit 5) (.rtc (odU o 0x2106 3))) rtcAlarm s

/-- DOMAIN_TRANSITION_COMPLETE: with the readings that MEAS takes before it reports ON, the safety island's self-test result, and
whether the section of the domain's core fails its digest. -/
def execDomainTransitionComplete (domain : Fin 8) (readings : List Int) (selfTest : BitVec 16) (sectionBad : Bool) (s : State) : Result :=
  acts (fun s => let s1 := completeTransition (Domain.ofNum domain.val) readings selfTest.toNat sectionBad s
    if domain.val = 2 then barReplay s1 else s1) s

end Sys2Proof.Machine
end

