-- ==== Sys2Proof/Machine/Lane.lean ====
section
/-! DEFINITION. What the lanes carry: 8b/10b code groups, running disparity, ordered sets (R194, R195, Table 9.1). -/
namespace Sys2Proof.Machine

/-- A code group, bit a first. -/
abbrev CodeGroup := BitVec 10

/-- The 5b/6b and 3b/4b codes at negative running disparity, by the value they stand for (IEEE 802.3 Clause 36; log entry 210). -/
def code6 : List (BitVec 6) :=
  [0b100111, 0b011101, 0b101101, 0b110001, 0b110101, 0b101001, 0b011001, 0b111000]
    ++ [0b111001, 0b100101, 0b010101, 0b110100, 0b001101, 0b101100, 0b011100, 0b010111]
    ++ [0b011011, 0b100011, 0b010011, 0b110010, 0b001011, 0b101010, 0b011010, 0b111010]
    ++ [0b110011, 0b100110, 0b010110, 0b110110, 0b001110, 0b101110, 0b011110, 0b101011]
def code4 : List (BitVec 4) := [0b1011, 0b1001, 0b0101, 0b1100, 0b1101, 0b1010, 0b0110, 0b1110]

def onesOf {n : Nat} (c : BitVec n) : Nat := ((List.range n).filter (fun i => c.getLsbD i)).length

/-- Running disparity after a block, `true` for positive: a block with as many ones as zeros leaves it. -/
def disparityAfter {n : Nat} (rd : Bool) (c : BitVec n) : Bool :=
  if 2 * onesOf c = n then rd else decide (n < 2 * onesOf c)

/-- A block at a running disparity: at positive it is complemented where it is unbalanced, or one of D7 and x.3, whose balanced codes
also alternate. -/
def blockAt {n : Nat} (alternates rd : Bool) (c : BitVec n) : BitVec n :=
  if rd && (2 * onesOf c != n || alternates) then ~~~c else c

/-- The code group of a data byte and the running disparity after it; x.7 takes its alternate code where the primary would make a run
of five equal bits. -/
def dataGroup (rd : Bool) (b : Byte) : CodeGroup × Bool :=
  let x := b.toNat % 32
  let y := b.toNat / 32
  let six := blockAt (x == 7) rd (code6.getD x 0)
  let rd1 := disparityAfter rd six
  let alternate := y == 7 && (if rd1 then [11, 13, 14].contains x else [17, 18, 20].contains x)
  let four := blockAt (y == 3) rd1 (if alternate then 0b0111 else code4.getD y 0)
  (six ++ four, disparityAfter rd1 four)

/-- The special code groups of Table 9.1. -/
inductive Special where
  | k28_5 | k27_7 | k29_7 | k30_7
deriving DecidableEq, Repr, Inhabited

def specialGroup (rd : Bool) (k : Special) : CodeGroup × Bool :=
  let c : CodeGroup := match k with
    | .k28_5 => 0b0011111010
    | .k27_7 => 0b1101101000
    | .k29_7 => 0b1011101000
    | .k30_7 => 0b0111101000
  let g := if rd then ~~~c else c
  (g, disparityAfter rd g)

/-- /S/ opens a frame, /T/ closes it, /V/ stands for a code group received in error (Table 9.1). -/
def startGroup (rd : Bool) : CodeGroup × Bool := specialGroup rd .k27_7
def endGroup (rd : Bool) : CodeGroup × Bool := specialGroup rd .k29_7
def errorGroup (rd : Bool) : CodeGroup × Bool := specialGroup rd .k30_7

/-- An ordered set of K28.5 and a data byte. -/
def orderedSet (rd : Bool) (b : Byte) : List CodeGroup × Bool :=
  let (k, rd1) := specialGroup rd .k28_5
  let (g, rd2) := dataGroup rd1 b
  ([k, g], rd2)

/-- /I/: with D5.6 at positive running disparity, with D16.2 at negative (/I1/ and /I2/ of Clause 36); /F/ with D10.1. -/
def idleSet (rd : Bool) : List CodeGroup × Bool := orderedSet rd (if rd then 0xC5 else 0x50)
def faultSet (rd : Bool) : List CodeGroup × Bool := orderedSet rd 0x2A

/-- Data bytes in turn. -/
def dataGroups : Bool → Bytes → List CodeGroup × Bool
  | rd, [] => ([], rd)
  | rd, b :: l =>
    let (g, rd1) := dataGroup rd b
    let (gs, rd2) := dataGroups rd1 l
    (g :: gs, rd2)

/-- The code groups of a frame, /S/ to /T/, and the running disparity after them. -/
def frameGroups (rd : Bool) (frame : Bytes) : List CodeGroup × Bool :=
  let (s, rd1) := startGroup rd
  let (gs, rd2) := dataGroups rd1 frame
  let (t, rd3) := endGroup rd2
  (s :: gs ++ [t], rd3)

/-- What a lane carries for a frame that leaves: every /I/ ends at negative running disparity, and idles separate frames (R195), so
/S/ always meets a negative one. -/
def laneOf : Output → Option (List CodeGroup)
  | .lcl _ _ _ frame => some (frameGroups false frame).1
  | _ => none

end Sys2Proof.Machine
end

