-- ==== Sys2Proof/Machine/Pins.lean ====
section
/-! DEFINITION. The output pins: their levels in every condition of the device (R83, R84, R86, R102, R156, R205), and boundary scan. -/
namespace Sys2Proof.Machine

/-- The outputs of Table 4.3 and the half-bridge gates. `b` tells path, output or port B from A. -/
inductive Pin where
  | pwm (c : Fin 28)
  | sto (n : Fin 4) (b : Bool)
  | tripOut
  | mechBrakeReq
  | gateHigh (k : Fin 6)
  | gateLow (k : Fin 6)
  | lclTx (r : Fin 8) (b : Bool)
  | lclTxDis (r : Fin 8) (b : Bool)
  | pcieTx (lane : Fin 2)
  | ethTx (m : Fin 2)
  | canTx (m : Fin 2)
  | canStb (m : Fin 2)
  | phyRstN (m : Fin 2)
  | mdc
  | mdio
  | clkreqN
  | tdo
  | supEn
  | rstOutN
deriving DecidableEq, Repr, Inhabited

/-- What an output does: driven low or high, high-impedance, electrical idle, its serial signal, or (a gate) held to its reference
by the internal resistor alone. A gate driven to SWn or PGNDn is `low`. -/
inductive PinLevel where
  | low | high | hiZ | idle | signal | held
deriving DecidableEq, Repr, Inhabited

/-- The outputs that have a scan cell, in the order in which this model lists them. TDO has none. -/
def scanPins : List Pin :=
  let n8 := List.finRange 8
  let n2 := List.finRange 2
  (List.finRange 28).map Pin.pwm ++ (List.finRange 4).flatMap (fun n => [.sto n false, .sto n true]) ++ [.tripOut, .mechBrakeReq]
    ++ (List.finRange 6).flatMap (fun k => [.gateHigh k, .gateLow k])
    ++ n8.flatMap (fun r => [.lclTx r false, .lclTx r true]) ++ n8.flatMap (fun r => [.lclTxDis r false, .lclTxDis r true])
    ++ n2.map Pin.pcieTx ++ n2.map Pin.ethTx ++ n2.map Pin.canTx ++ n2.map Pin.canStb ++ n2.map Pin.phyRstN
    ++ [.mdc, .mdio, .clkreqN, .supEn, .rstOutN]

/-- Pad supply of an output, by the identifier of its rail (Table 4.1). -/
def Pin.rail : Pin → Nat
  | .pwm _ | .sto _ _ | .tripOut | .mechBrakeReq | .lclTxDis _ _ | .canTx _ | .canStb _ => 5
  | .gateHigh _ | .gateLow _ => 8
  | .lclTx _ _ | .pcieTx _ | .ethTx _ => 3
  | .phyRstN _ | .mdc | .mdio | .clkreqN | .tdo => 4
  | .supEn | .rstOutN => 0

/-- Owning domain of an output (Table 4.1); AON owns the rest. -/
def Pin.owner : Pin → Option Domain
  | .pwm _ | .tripOut | .mechBrakeReq | .gateHigh _ | .gateLow _ => some .drv
  | .sto _ _ => some .safe
  | .lclTx _ _ | .lclTxDis _ _ => some .link
  | .pcieTx _ | .ethTx _ | .canTx _ | .canStb _ | .phyRstN _ | .mdc | .mdio | .clkreqN => some .net
  | .tdo => some .sec
  | .supEn | .rstOutN => none

/-- The level of an unpowered pad (Table 4.3). -/
def Pin.unpowered : Pin → PinLevel
  | .gateHigh _ | .gateLow _ => .held
  | _ => .hiZ

/-- The level in reset, and while the owning domain is in retention or off (Table 4.3). SUP_EN has a level of its own (R109). -/
def Pin.resetLevel (d : Dev) : Pin → PinLevel
  | .pwm _ | .sto _ _ | .tripOut | .gateHigh _ | .gateLow _ | .phyRstN _ | .rstOutN => .low
  | .mechBrakeReq | .lclTxDis _ _ | .canTx _ | .canStb _ => .high
  | .lclTx _ _ | .pcieTx _ | .ethTx _ => .idle
  | .mdc | .mdio | .clkreqN | .tdo => .hiZ
  | .supEn => if d.aon.reset.supEn then .high else .low

/-- The outputs that take their reset levels in EXTEST and CLAMP, whatever the scan data (R86, Table 7.4). -/
def Pin.scanHeld : Pin → Bool
  | .pwm _ | .sto _ _ | .tripOut | .mechBrakeReq | .lclTxDis _ _ | .gateHigh _ | .gateLow _ => true
  | _ => false

def levelOf (high : Bool) : PinLevel := if high then .high else .low

/-- Whether path A or B of a ring is enabled (R205). -/
def pathEnabled (d : Dev) (r : Nat) (b : Bool) : Bool := (enabledPaths d r).contains (if b then 1 else 0)

/-- What the owning function drives: LCL_Pn_TXDIS low for the enabled paths alone (R205), MECH_BRAKE_REQ as R466, TRIP_OUT_N as R425,
the gates through the interlock (R433). The transceivers and PHYs of an ON NET are in use; CANm_TX rests recessive; the serialisers
signal while their link is up (log entry 209). -/
def Pin.function (o : Od) (d : Dev) : Pin → PinLevel
  | .pwm c => levelOf (pwmPin o d c.val)
  | .sto n b => let p := vget d.isl.pairs n.val; levelOf (if b then p.b.level else p.a.level)
  | .tripOut => levelOf (!tripOutLow o d)
  | .mechBrakeReq => levelOf d.ladder.mech
  | .gateHigh k => levelOf (bridgeGates o d k.val).1
  | .gateLow k => levelOf (bridgeGates o d k.val).2
  | .lclTx r b => if pathEnabled d r.val b then .signal else .idle
  | .lclTxDis r b => levelOf (!pathEnabled d r.val b)
  | .pcieTx _ => if d.acq.pcie.up then .signal else .idle
  | .ethTx _ => .signal
  | .canTx _ => .high
  | .canStb _ => .low
  | .phyRstN _ => .high
  | .mdc | .mdio => .signal
  | .clkreqN => if d.acq.pcie.up then .low else .hiZ
  | .tdo => if tapWorks d then .signal else .hiZ
  | .supEn => levelOf d.aon.reset.supEn
  | .rstOutN => levelOf d.aon.reset.rstOut

/-- The level that the scan data gives an output that follows it; the order of the cells is that of the BSDL text (0x2350:01). -/
def scanLevel (d : Dev) (p : Pin) : PinLevel :=
  match (Config.scanCell d.sec.boundary (scanPins.idxOf p)).toNat with
  | 0 => .low
  | 1 => .high
  | _ => .hiZ

/-- An output during a scan takeover: HIGHZ 0x04, EXTEST 0x03 and CLAMP 0x05 (Table 7.4). -/
def Pin.scanned (d : Dev) (p : Pin) : PinLevel :=
  if d.sec.instr = 4 then p.unpowered else if p.scanHeld then p.resetLevel d else scanLevel d p

/-- The level of an output. The leftmost column of Table 4.3 that applies governs (R83): a pad without its supply or without VAON, a
reset, the scan (which a reset overrides, R86), a domain that is not ON (R84). -/
def pinLevel (o : Od) (d : Dev) (p : Pin) : PinLevel :=
  if !vget d.rails.ok 0 || !vget d.rails.ok p.rail then p.unpowered
  else if d.aon.reset.scope != .none then p.resetLevel d
  else if d.sec.scan && p != .tdo then p.scanned d
  else match p.owner with
    | some m => if d.isOn m then p.function o d else p.resetLevel d
    | none => p.function o d

/-! ### The boundary register and IDCODE (R86, R156) -/

/-- IDCODE reads 0xv812_8B4F, v the low four bits of the logic die's major revision (R156). -/
def idcode : BitVec 32 := 0x08128B4F + BitVec.ofNat 32 ((Config.dieRev 0).toNat / 256 % 16) * 0x10000000

/-- What the scan cells capture: the levels of the outputs, beside those of the inputs, which no state holds (log entry 209). -/
def boundaryCapture (o : Od) (d : Dev) : Bytes :=
  Config.scanRegister (scanPins.map (fun p => match pinLevel o d p with
    | .low => 0
    | .high => 1
    | _ => 2)) d.free

/-- Update-DR with SAMPLE/PRELOAD, EXTEST or CLAMP in force (Table 7.4). The data shifted in replaces the register; what it held
leaves at TDO, which for SAMPLE/PRELOAD and EXTEST is the capture (R86). -/
def boundaryUpdate (data : Bytes) (o : Od) (d : Dev) : Dev :=
  if !tapWorks d || !([2, 3, 5].contains d.sec.instr) then d
  else
    let d1 := if d.sec.instr = 5 then d else { d with out := d.out ++ [.tapCapture (boundaryCapture o d)], free := d.free + 1 }
    onSec (fun s => { s with boundary := data }) d1

end Sys2Proof.Machine
end

