-- ==== Sys2Proof/Machine/CmdSec.lean ====
section
/-! DEFINITION. Commands of chapter 7: lifecycle, keys, debug, scan, commissioning, firmware load. -/
namespace Sys2Proof.Machine

/-! ### Lifecycle and keys (R147, R149) -/

/-- A lifecycle advance with the outcome of its two fuse cells: the write of 0x2300:02, checked as every write. -/
def advanceWriter (cellA cellB : Bool) : Writer := fun session ix sub b s =>
  match writeCheck s session ix sub b with
  | some a => (some a, s)
  | none => lifecycleWrite session (leNat b == 0x6C616573) cellA cellB s

/-- LIFECYCLE_LOCK: "lock" to 0x2300:02. -/
def execLifecycleLock (via : Via) (cellA cellB : Bool) (s : State) : Result :=
  acts (request (advanceWriter cellA cellB) true via 2 (writeMsg 0x2300 2 (toLE 4 0x6B636F6C))) s

/-- LIFECYCLE_SEAL: "seal" to 0x2300:02. -/
def execLifecycleSeal (via : Via) (cellA cellB : Bool) (s : State) : Result :=
  acts (request (advanceWriter cellA cellB) true via 2 (writeMsg 0x2300 2 (toLE 4 0x6C616573))) s

/-- KEY_WRITE: CK, IK or DK (slots 0 to 2). -/
def execKeyWrite (via : Via) (slot : Fin 3) (key : Bytes) (s : State) : Result := acts (hostWrite via 0x2330 (slot.val + 2) key) s

/-! ### Debug (R152 to R159) -/

/-- DEBUG_ATTACH: Update-IR selects DAP_ACCESS in OPEN (R152). -/
def execDebugAttach (s : State) : Result :=
  drives (fun o d => if d.sec.lifecycle = 0 && d.sec.debug == .detached then updateIr o 0x12 d else d) s

/-- DBG_CHALLENGE_CAPTURE: Capture-DR of DBG_CHALLENGE (R159). -/
def execDbgChallengeCapture (s : State) : Result := drives dbgChallenge s

/-- DBG_RESPONSE_UPDATE: Update-DR of DBG_RESPONSE with its 16 bytes (R159). -/
def execDbgResponseUpdate (response : Bytes) (s : State) : Result := drives (dbgResponse · response) s

/-- DEBUG_NONCE_EXPIRY. -/
def execDebugNonceExpiry (s : State) : Result :=
  timed (fun _ d => d.sec.nonce.map (fun n => .aon (n.2.1 + secT 10))) (fun _ => nonceExpiry) s

/-- DEBUG_LOCKOUT_END. -/
def execDebugLockoutEnd (s : State) : Result := timed (fun _ d => d.aon.debugLockout.map Instant.aon) debugLockoutEnd s

/-- TAP_RESET (R152, R156). -/
def execTapReset (s : State) : Result := drives (fun o d => if tapWorks d then tapReset o 0 d else d) s

/-- SCAN_TAKEOVER_START: Update-IR to EXTEST, HIGHZ or CLAMP (R157). -/
def execScanTakeoverStart (instruction : BitVec 8) (s : State) : Result :=
  drives (fun o d => if isScan instruction.toNat then updateIr o instruction.toNat d else d) s

/-- SCAN_TAKEOVER_END: Update-IR to another instruction (R157). -/
def execScanTakeoverEnd (instruction : BitVec 8) (s : State) : Result :=
  drives (fun o d => if d.sec.scan then updateIr o instruction.toNat d else d) s

/-- BOUNDARY_SCAN_UPDATE_DR. -/
def execBoundaryScanUpdateDr (data : Bytes) (s : State) : Result := drives (boundaryUpdate data) s

/-! ### Commissioning (R160 to R162) -/

/-- COMM_CHALLENGE: service 0x10, on CAN FD a read of 0x2320:01. -/
def execCommChallenge (via : Via) (s : State) : Result := acts (hostService via 0x10 []) s

/-- COMM_RESPONSE: service 0x11 with NONCE_H and the MAC. -/
def execCommResponse (via : Via) (nonce mac : Bytes) (s : State) : Result := acts (hostService via 0x11 (nonce ++ mac)) s

/-- COMM_END: service 0x12. -/
def execCommEnd (via : Via) (s : State) : Result := acts (hostService via 0x12 []) s

/-- COMM_STATUS: service 0x13. -/
def execCommStatus (via : Via) (s : State) : Result := acts (hostService via 0x13 []) s

/-- COMM_TIMEOUT (R162). -/
def execCommTimeout (s : State) : Result :=
  timed (fun o d => d.sec.holder.map (fun n => .aon ((getSession d n).lastRequest + secT (odU o 0x2320 6)))) commTimeout s

/-- COMM_NONCE_EXPIRY (R160). -/
def execCommNonceExpiry (session : Fin 64) (s : State) : Result :=
  timed (fun _ d => (vget d.sec.nonces session.val).map (fun n => .aon (n.2.1 + secT 10))) (fun _ => commNonceExpiry session.val) s

/-- COMM_LOCKOUT_END (R161). -/
def execCommLockoutEnd (s : State) : Result := timed (fun _ d => d.aon.authLockout.map Instant.aon) (fun _ => commLockoutEnd) s

/-! ### Firmware load (R164, R165) -/

/-- LOAD_BEGIN: "open" to 0x2340:01. -/
def execLoadBegin (via : Via) (s : State) : Result := acts (hostWrite via 0x2340 1 (toLE 4 0x6E65706F)) s

/-- LOAD_DATA: a chunk to 0x2340:02. -/
def execLoadData (via : Via) (chunk : Bytes) (s : State) : Result := acts (hostWrite via 0x2340 2 chunk) s

/-- LOAD_COMMIT: "cmit" to 0x2340:04. -/
def execLoadCommit (via : Via) (s : State) : Result := acts (hostWrite via 0x2340 4 (toLE 4 0x74696D63)) s

/-- SEC_VERSION_RAISE: "rais" to 0x2340:07. -/
def execSecVersionRaise (via : Via) (s : State) : Result := acts (hostWrite via 0x2340 7 (toLE 4 0x73696172)) s

end Sys2Proof.Machine
end

