-- ==== Sys2Proof/Machine/CmdTime.lean ====
section
/-! DEFINITION. Commands of chapter 8 but for the period start: locks, the timebase check, profiles, PTP, rate, MACs. -/
namespace Sys2Proof.Machine

/-! ### Locks (R171 to R174, R21) -/

/-- TBLOCK_DECLARED after the detector's comparisons, with its pin in mV: the boot calibration and READY_FOR_STACK follow it
(R121, R122). -/
def execTblockDeclared (mv : BitVec 16) (s : State) (runs : PhaseRuns := []) : Result :=
  drives (fun o d => readyCheck o (bootCalibration o (tbDeclared o mv.toNat (tbCompared runs d)))) s

/-- TBLOCK_LOST after the detector's comparisons, with its pin in mV. -/
def execTblockLost (mv : BitVec 16) (runs : PhaseRuns) (s : State) : Result :=
  drives (fun o d => readyCheck o (tbSupervised o mv.toNat (tbCompared runs d))) s

/-- CASLOCK_DECLARED after the detector's comparisons, with its pin in mV. -/
def execCaslockDeclared (mv : BitVec 16) (s : State) (runs : PhaseRuns := []) : Result :=
  drives (fun o d => readyCheck o (casDeclared o mv.toNat (casCompared runs d))) s

/-- CASLOCK_LOST: the pin after the detector's comparisons, or the frequency check (causes 1 to 3). -/
def execCaslockLost (found : CasSupervision) (s : State) : Result := drives (fun o d => readyCheck o (casSupervised o found d)) s

/-- A window of R21: 100 µs of the island's time. -/
def islandWindow : Nat := 80000

/-- One window of R21 with the deviation of the timebase in ppb: more than 1 % demands STO on every pair and the stack trip; the
held cause ends after 10 windows that pass (Table 21.2). -/
def timebaseWindow (ppb : Int) (o : Od) (d0 : Dev) : Dev :=
  let d := { d0 with isl := { d0.isl with windowAt := d0.isl.windowAt + islandWindow } }
  if !d0.isOn .safe || decide (d0.clk.run < d0.isl.windowAt + islandWindow) then d0
  else if 10000000 < ppb.natAbs then
    let d1 := stoDemand o 8 15 { d with isl := { d.isl with timebaseHold := 10 } }
    record o 0x0411 3 (toLE 4 (ofSigned 32 (clampI (-2147483648) 2147483647 ppb))) (islandRequester o d1)
  else if d.isl.timebaseHold = 0 then d
  else
    let d1 := { d with isl := { d.isl with timebaseHold := d.isl.timebaseHold - 1 } }
    if d1.isl.timebaseHold = 0 then islandRequester o d1 else d1

/-- TIMEBASE_CHECK_WINDOW: the end of the window that is running; windows follow each other without a gap. -/
def execTimebaseCheckWindow (deviation : Int) (s : State) : Result :=
  timed (fun _ d => instantIf (d.isOn .safe) (.aon (d.isl.windowAt + islandWindow))) (timebaseWindow deviation) s

/-! ### Periods and profiles (R175, R182) -/

/-- CONTROL_PERIOD_WRITE. -/
def execControlPeriodWrite (via : Via) (value : BitVec 32) (s : State) : Result := acts (hostWrite via 0x2413 1 (toLE 4 value.toNat)) s

/-- PROFILE_RUN_START: a profile number to 0x2412:01. -/
def execProfileRunStart (via : Via) (profile : BitVec 8) (s : State) : Result := acts (hostWrite via 0x2412 1 [profile]) s

/-- PROFILE_RUN_HOLD: 0xFF to 0x2412:01. -/
def execProfileRunHold (via : Via) (s : State) : Result := acts (hostWrite via 0x2412 1 [0xFF]) s

/-! ### PTP (R183 to R190) -/

/-- A PTP time-stamp, seconds (48) and nanoseconds (32), in ns. -/
def ptpNs (t : BitVec 80) : Nat := t.toNat / 2 ^ 32 * 1000000000 + t.toNat % 2 ^ 32

/-- correctionField, in 2⁻¹⁶ ns. -/
def ptpCorrection (c : Int) : Rat := (c : Rat) / 65536

/-- PTP_SYNC. -/
def execPtpSync (p : PtpHead) (logInterval : Int) (twoStep : Bool) (origin : BitVec 80) (correction : Int) (s : State) : Result :=
  drives (fun o d => ptpSync o p.mac.val p.udp p.domain.toNat p.source.toNat p.seq.toNat logInterval twoStep (ptpNs origin)
    (ptpCorrection correction) d) s

/-- PTP_FOLLOW_UP. -/
def execPtpFollowUp (p : PtpHead) (origin : BitVec 80) (correction : Int) (s : State) : Result :=
  drives (fun o d => ptpFollowUp o p.mac.val p.udp p.domain.toNat p.source.toNat p.seq.toNat (ptpNs origin) (ptpCorrection correction) d) s

/-- PTP_DELAY_RESP: a Delay_Resp, or a Pdelay_Resp with its Follow_Up. -/
def execPtpDelayResp (p : PtpHead) (received sent : BitVec 80) (correction : Int) (s : State) : Result :=
  drives (fun o d => ptpDelayResp o p.mac.val p.udp p.domain.toNat p.source.toNat p.seq.toNat (ptpNs received) (ptpNs sent) (ptpCorrection correction) d) s

/-- PTP_DELAY_REQ_TIMER. -/
def execPtpDelayReqTimer (s : State) : Result :=
  timed (fun o d => instantIf (ptpPort o (odU o 0x2440 2) d && (odU o 0x2440 1 == 2 || d.time.master.isSome))
    (.device (d.time.delayAt + logTicks (odI o 8 0x2440 5)))) ptpDelayTimer s

/-- PDELAY_REQ_RECEIVED. -/
def execPdelayReqReceived (p : PtpHead) (s : State) : Result :=
  drives (fun o d => pdelayReq o p.mac.val p.domain.toNat p.source.toNat p.seq.toNat d) s

/-- PTP_ANNOUNCE. -/
def execPtpAnnounce (p : PtpHead) (a : AnnounceBody) (s : State) : Result :=
  drives (fun o d => ptpAnnounce o p.mac.val p.udp p.domain.toNat {
    parent := p.source.toNat, gm := a.gm.toNat, priority1 := a.priority1.toNat, clockClass := a.clockClass.toNat
    accuracy := a.accuracy.toNat, variance := a.variance.toNat, priority2 := a.priority2.toNat, steps := a.steps.toNat
    utcOffset := a.utcOffset, logAnnounce := a.logAnnounce, logSync := a.logSync } d) s

/-- PTP_MASTER_LOST: the Announce or the Sync timeout of R190. -/
def execPtpMasterLost (announce : Bool) (s : State) : Result :=
  timed (fun o d => d.time.master.map (fun m => .device (masterDue o (if announce then 2 else 1) m))) (fun o d => masterTimeout o (if announce then 2 else 1) d) s

/-- TIME_STEP_NOW: "step" to 0x2400:05. -/
def execTimeStepNow (via : Via) (s : State) : Result := acts (hostWrite via 0x2400 5 (toLE 4 0x70657473)) s

/-- RATE_SLEW_STEP (R188). -/
def execRateSlewStep (s : State) : Result :=
  timed (fun _ d => instantIf (d.time.tb.declared && d.time.rate != d.time.rateTarget) (.device (d.time.rateAt + msT 1))) (fun _ => rateSlewStep) s

/-- MANUAL_RATE_WRITE. -/
def execManualRateWrite (via : Via) (value : BitVec 32) (s : State) : Result := acts (hostWrite via 0x2401 3 (toLE 4 value.toNat)) s

/-! ### MACs (R191) -/

/-- ETH_LINK_CHANGE. -/
def execEthLinkChange (mac : Fin 2) (up : Bool) (s : State) : Result := drives (linkChange · mac.val up) s

/-- ARP_RECEIVED. -/
def execArpReceived (mac : Fin 2) (reply : Bool) (senderIp : BitVec 32) (senderMac : BitVec 48) (targetIp : BitVec 32) (s : State) : Result :=
  drives (fun _ => arpReceived mac.val reply senderIp.toNat senderMac.toNat targetIp.toNat) s

/-- ICMP_ECHO. -/
def execIcmpEcho (mac : Fin 2) (source target : BitVec 32) (body : Bytes) (s : State) : Result :=
  drives (fun _ => icmpEcho mac.val source.toNat target.toNat body) s

end Sys2Proof.Machine
end

