-- ==== Sys2Proof/Machine/CmdLcl.lean ====
section
/-! DEFINITION. Commands of chapters 9 to 11: the period start, frames and paths, sessions, transactions. -/
namespace Sys2Proof.Machine

/-! ### The period start and the frame-build cut-off (R175, R205, R207) -/

/-- LOCKED sessions leave for PARAM at the launch after their LOCK_REPORT was accepted (R239). -/
def startExchanges (o : Od) (r k : Nat) (d : Dev) : Dev :=
  if !ringActive d r then d
  else forEach (ringCellList o r) (fun c d => if (getCell d c).state == .locked then enterParam o c k .write 0 d else d) d

/-- What a period start at device time `t`, numbered `k`, does: state changes of the launch, frames, the carrier, delays, the
ledger. -/
def periodBegins (k t : Nat) (o : Od) (d : Dev) : Dev :=
  let rings := List.range 8
  let d1 := launchState o k t d
  let trip (r : Nat) : Bool := d1.stack.state == .tripped && (stackRings o).contains r
  let d2 := closePowerMeans { d1 with
    sched := { d1.sched with count := d1.sched.count + 1, j := d1.sched.j + 1, last := t }
    stack := { d1.stack with handed := false } }
  let d3 := forEach rings (fun r d => startExchanges o r k (launchRing o r k t (trip r) (delayClaim r d))) d2
  let d4 := carrierStart o d3.stack.state.runs d3
  let d5 := forEach rings (fun r d => delayTick o r (delayResult o r k t d)) d4
  let d6 := ledgerPeriod o t d5
  if d6.isOn .ctrl then stageLedger o k t d6 else d6

/-- The next period start, once its instant has come; a frame whose cut-off was not commanded is built first. -/
def controlPeriodStart (s : State) : State :=
  let t := nextStart s.od s.dev
  let k := s.dev.sched.count
  if !s.dev.sched.running || decide (s.dev.clk.dt < t) then s
  else tpdosAtStart (rpdosAtStart (settleLater ((s.act frameCutoff).act (periodBegins k t))))

/-- PERIOD_START. -/
def execPeriodStart (s : State) : Result :=
  timedAct (fun o d => instantIf d.sched.running (.device (nextStart o d))) controlPeriodStart s

/-- The frame-build cut-off, where its tick has come. -/
def cutoffPassed (o : Od) (d : Dev) : Dev :=
  if d.sched.running && decide (nextStart o d ≤ d.clk.dt + 1600) then frameCutoff o d else d

/-- FRAME_BUILD_CUTOFF: 2.0 µs before the next period start. -/
def execFrameBuildCutoff (s : State) : Result :=
  timed (fun o d => instantIf d.sched.running (.device (nextStart o d - 1600))) cutoffPassed s

/-! ### Frames and paths (R195, R196, R209 to R222) -/

/-- The telemetry of a ring that has been taken goes to the streams that take it (R391). -/
def stagesTelemetry (r p k launch : Nat) (slots : Bytes) (o : Od) (before d : Dev) : Dev :=
  if (getRing d r).took = (getRing before r).took then d else stageTelemetry o r p k launch (ringCells o r) slots d

/-- A CYCLIC frame returns; its telemetry goes to the streams. -/
def frameReturns (r p : Nat) (b : Bytes) (rtt : Nat) (o : Od) (d : Dev) : Dev :=
  let n := ringCells o r
  let d1 := cyclicReturn o (ikInForce d) r p b rtt d
  match (getPath d r p).flights.find? (fun f => f.ftype == 1) with
  | some f => stagesTelemetry r p f.period f.launch (slice b (32 + 12 * n) (24 * n)) o d d1
  | none => d1

/-- A deadline passes; the telemetry of a copy that serves goes to the streams. -/
def deadlinePasses (r p : Nat) (o : Od) (d : Dev) : Dev :=
  let d1 := returnDeadline o r p d
  match (getRing d r).copy with
  | some c => stagesTelemetry r (1 - p) c.period c.launch c.slots o d d1
  | none => d1

/-- The flight of a frame on a path that a condition selects. -/
def flightOf (r p : Nat) (sel : Flight → Bool) (d : Dev) : Option Flight := (getPath d r p).flights.find? sel

/-- A frame of `len` bytes has returned when its /T/ arrives, its round trip and its own time after its launch. -/
def returnDue (r p ftype rttPs len : Nat) (_ : Od) (d : Dev) : Option Instant :=
  (flightOf r p (fun f => f.ftype == ftype) d).map (fun f => .device ((arrivalPs f rttPs len + 1249) / 1250))

/-- Both DELAY frames have returned when the later of them has. -/
def delayDue (r rttA rttB lenA lenB : Nat) (o : Od) (d : Dev) : Option Instant :=
  match returnDue r 0 3 rttA lenA o d, returnDue r 1 3 rttB lenB o d with
  | some (.device a), some (.device b) => some (.device (max a b))
  | some x, _ => some x
  | none, y => y

/-- CYCLIC_FRAME_RETURN with its bytes and its round trip in ps. -/
def execCyclicFrameReturn (ring : Fin 8) (path : Fin 2) (frame : Bytes) (rttPs : Nat) (s : State) : Result :=
  timed (returnDue ring.val path.val 1 rttPs frame.length) (frameReturns ring.val path.val frame rttPs) s

/-- STANDBY_FRAME_RETURN. -/
def execStandbyFrameReturn (ring : Fin 8) (path : Fin 2) (frame : Bytes) (rttPs : Nat) (s : State) : Result :=
  timed (returnDue ring.val path.val 2 rttPs frame.length) (standbyReturn · ring.val path.val frame rttPs) s

/-- The first tick after the deadline of a frame in flight; a DELAY frame where no other is. -/
def deadlineDue (r p : Nat) (o : Od) (d : Dev) : Option Instant :=
  ((flightOf r p (fun f => f.ftype != 3) d).or (flightOf r p (fun f => f.ftype == 3) d)).map (fun f => .device (deadlinePs o d r p f / 1250 + 1))

/-- RETURN_DEADLINE (R214). -/
def execReturnDeadline (ring : Fin 8) (path : Fin 2) (s : State) : Result :=
  timed (deadlineDue ring.val path.val) (deadlinePasses ring.val path.val) s

/-- A second has passed without a suppressed switch (R218). -/
def suppressClear (r : Nat) (d : Dev) : Dev :=
  match (getRing d r).suppressed with
  | some t => if t + secT 1 ≤ d.clk.dt then modRing r (fun g => { g with suppressed := none }) d else d
  | none => d

/-- SWITCH_SUPPRESS_CLEAR. -/
def execSwitchSuppressClear (ring : Fin 8) (s : State) : Result :=
  timed (fun _ d => (getRing d ring.val).suppressed.map (fun t => .device (t + secT 1))) (fun _ => suppressClear ring.val) s

/-- DELAY_FRAME_LAUNCH: 4.0 µs after the launch instant (R209). -/
def execDelayFrameLaunch (ring : Fin 8) (s : State) : Result :=
  timed (fun _ d => instantIf d.sched.running (.device (d.sched.last + 3200))) (fun o d => if d.sched.running && decide (d.sched.last + 3200 ≤ d.clk.dt) then delayLaunch o ring.val d else d) s

/-- DELAY_FRAME_RETURN: the frames of both paths and their round trips in ps. -/
def execDelayFrameReturn (ring : Fin 8) (frameA frameB : Bytes) (rttA rttB : Nat) (s : State) : Result :=
  timed (delayDue ring.val rttA rttB frameA.length frameB.length) (fun o d => delayReturn o ring.val frameA frameB rttA rttB d) s

/-- LANE_SYNC_LOST (R195). -/
def execLaneSyncLost (ring : Fin 8) (path : Fin 2) (s : State) : Result := drives (syncLost · ring.val path.val) s

/-- LANE_SYNC_GAINED (R195). -/
def execLaneSyncGained (ring : Fin 8) (path : Fin 2) (s : State) : Result :=
  drives (fun _ d => if d.isOn .link then modPath ring.val path.val (fun q => { q with sync := true }) d else d) s

/-- FAULT_ORDERED_SET: the third consecutive /F/ of a path (R196). -/
def execFaultOrderedSet (ring : Fin 8) (path : Fin 2) (s : State) : Result := drives (pathFaultNow · ring.val path.val 6) s

/-- RING_START: "strt" to RING_CONTROL. -/
def execRingStart (via : Via) (ring : Fin 8) (s : State) : Result := acts (hostWrite via (0x3180 + ring.val) 4 (toLE 4 0x74727473)) s

/-- RING_STOP: "stop". -/
def execRingStop (via : Via) (ring : Fin 8) (s : State) : Result := acts (hostWrite via (0x3180 + ring.val) 4 (toLE 4 0x706F7473)) s

/-- PATH_SWAP: "swap" to the path swap object (R221). -/
def execPathSwap (via : Via) (ring : Fin 8) (s : State) : Result := acts (hostWrite via (0x3180 + ring.val) 6 (toLE 4 0x70617773)) s

/-! ### Sessions (R228 to R249) -/

/-- DISCOVER for a position at an interval boundary: out of ABSENT, and again in DISCOVER, unless its backoff runs (R231, R234). -/
def discoverCell (r n k c : Nat) (o : Od) (d : Dev) : Dev :=
  let x := getCell d c
  let body := toLE 8 Config.serial.toNat ++ [b8 (16 * r + c % 16), b8 n]
  if x.backoffFrom.isSome then d
  else match x.state with
    | .absent => queueControl c 0x01 body (sessEnter o c .discover 0x01 k d)
    | .discover => if x.control.any (·.mtype == 0x01) then d else queueControl c 0x01 body d
    | _ => d

/-- A DISCOVER_INTERVAL boundary: the next launch is a multiple of the interval. -/
def discoverRings (o : Od) (d : Dev) : Dev :=
  let k := d.sched.count
  if !d.isOn .link || !d.sched.running || k % max 1 (lclPar o 1) ≠ 0 then d
  else forEach (List.range 8) (fun r d =>
    if ringActive d r then forEach (ringCellList o r) (fun c d => discoverCell r (ringCells o r) k c o d) d else d) d

/-- DISCOVER_INTERVAL. -/
def execDiscoverInterval (s : State) : Result := drives discoverRings s

/-- A message of a cell node by its type (Tables 10.2 and 11.2). -/
def messageRow (mtype : Nat) (m : CellMsg) (o : Od) (d : Dev) : Dev :=
  messageArrives o (ikInForce d) m.ring.val m.position.val m.slot.val {
    mtype := mtype, kind := m.kind.toNat, retry := m.retry, echo := m.echo, tag := m.tag.toNat
    epoch := m.epoch.toNat, grant := m.grant.toNat, body := m.body, overlong := decide (48 < m.body.length) } d

/-- HELLO. -/
def execHello (m : CellMsg) (s : State) : Result := drives (messageRow 0x41 m) s

/-- CHALLENGE_RESP. -/
def execChallengeResp (m : CellMsg) (s : State) : Result := drives (messageRow 0x42 m) s

/-- ADMIT_TIMEOUT has passed since CHALLENGE without an answer, or since ADMIT_ACCEPT without FAWN in the telemetry (R234). -/
def admitTimeout (c : Nat) (o : Od) (d : Dev) : Dev :=
  let x := getCell d c
  let k := d.sched.count - 1
  let waiting := x.state == .admitting || (x.state == .fawn && x.fawnUnseen)
  match x.waitSince with
  | some w => if waiting && decide (w + lclPar o 2 < k) then admitFail o c 1 k x.id d else d
  | none => d

/-- ADMIT_TIMEOUT. -/
def execAdmitTimeout (cell : Fin 128) (s : State) : Result := drives (admitTimeout cell.val) s

/-- ADMIT_BACKOFF has passed: the count clears (R234). -/
def backoffEnd (c : Nat) (o : Od) (d : Dev) : Dev :=
  match (getCell d c).backoffFrom with
  | some t => if t + msT (lclPar o 4) ≤ d.clk.dt then modCell c (fun x => { x with backoffFrom := none, fails := 0 }) d else d
  | none => d

/-- ADMIT_BACKOFF_END. -/
def execAdmitBackoffEnd (cell : Fin 128) (s : State) : Result :=
  timed (fun o d => (getCell d cell.val).backoffFrom.map (fun t => .device (t + msT (lclPar o 4)))) (backoffEnd cell.val) s

/-- LOCK_REPORT. -/
def execLockReport (m : CellMsg) (s : State) : Result := drives (messageRow 0x43 m) s

/-- A session leaves for FAULT with reason 0x13 where it is in a state whose time is over. -/
def stateTimeout (st : SessState) (over_ : Od → Dev → Cell → Bool) (c : Nat) (o : Od) (d : Dev) : Dev :=
  let x := getCell d c
  if x.state == st && over_ o d x then sessEnter o c .fault 0x13 (d.sched.count - 1) d else d

/-- LOCK_TIMEOUT: periods in FAWN (R237). -/
def execLockTimeout (cell : Fin 128) (s : State) : Result :=
  drives (stateTimeout .fawn (fun o d x => decide (x.sincePeriod + lclPar o 8 < d.sched.count)) cell.val) s

/-- PARAM_ACK. -/
def execParamAck (m : CellMsg) (s : State) : Result := drives (messageRow 0x44 m) s

/-- COMMIT_ACK. -/
def execCommitAck (m : CellMsg) (s : State) : Result := drives (messageRow 0x45 m) s

/-- CAL_DATA. -/
def execCalData (m : CellMsg) (s : State) : Result := drives (messageRow 0x46 m) s

/-- ARM_ACK. -/
def execArmAck (m : CellMsg) (s : State) : Result := drives (messageRow 0x47 m) s

/-- PARAM_TIMEOUT: ms of device time in PARAM (R240). -/
def execParamTimeout (cell : Fin 128) (s : State) : Result :=
  timed (fun o d => let x := getCell d cell.val; instantIf (x.state == .param) (.device (x.since + msT (lclPar o 9)))) (stateTimeout .param (fun o d x => decide (x.since + msT (lclPar o 9) ≤ d.clk.dt)) cell.val) s

/-- RESYNC_TIMEOUT: periods in RESYNC (R244). -/
def execResyncTimeout (cell : Fin 128) (s : State) : Result :=
  drives (stateTimeout .resync (fun o d x => decide (x.sincePeriod + lclPar o 0x0B < d.sched.count)) cell.val) s

/-- CELL_RSYN: "rsyn" to CELL_CONTROL. -/
def execCellRsyn (via : Via) (cell : Fin 128) (s : State) : Result := acts (hostWrite via (0x3100 + cell.val) 5 (toLE 4 0x6E797372)) s

/-- CELL_LEAV: "leav" to CELL_CONTROL. -/
def execCellLeav (via : Via) (cell : Fin 128) (s : State) : Result := acts (hostWrite via (0x3100 + cell.val) 5 (toLE 4 0x7661656C)) s

/-- LEAVE_REQ. -/
def execLeaveReq (m : CellMsg) (s : State) : Result := drives (messageRow 0x48 m) s

/-- NAK_STATE_RECEIVED: the cell node's NAK_STATE. -/
def execNakStateReceived (m : CellMsg) (s : State) : Result := drives (messageRow 0x4B m) s

/-- HOLD_PRESUMPTION. -/
def execHoldPresumption (ring : Fin 8) (s : State) : Result :=
  timed (fun o d => let g := getRing d ring.val; instantIf g.launching (.device (g.lc + 4 * period o))) (holdPresumption ring.val) s

/-! ### Transactions (R255 to R267) -/

/-- EVENT_REPORT. -/
def execEventReport (m : CellMsg) (s : State) : Result := drives (messageRow 0x4C m) s

/-- CELL_CREDIT_RECEIVED: the cell node's CREDIT. -/
def execCellCreditReceived (m : CellMsg) (s : State) : Result := drives (messageRow 0x4D m) s

/-- ERRANT_CLEAR: 0 to 0x3480 + cell:01. -/
def execErrantClear (via : Via) (cell : Fin 128) (s : State) : Result := acts (hostWrite via (0x3480 + cell.val) 1 [0, 0]) s

/-- Attempts of a cell's session whose timeout has passed fail (R261, R265). -/
def requestTimeout (c : Nat) (o : Od) (d : Dev) : Dev :=
  let t := (getCell d c).txn
  let k := (getRing d (ringOf c)).lastDone
  if t.reconciling then d
  else forEach (t.out.filter (fun q => !q.resend && decide (q.launched + txnPar o 1 + q.suspended ≤ k))) (fun q d => attemptFailed o c k q.tag d) d

/-- REQ_TIMEOUT. -/
def execReqTimeout (cell : Fin 128) (s : State) : Result := drives (requestTimeout cell.val) s

/-- A request at the head of its queue has not been launched within REQ_TIMEOUT periods: it fails with cause 0x03 (R263). -/
def launchTimeout (c : Nat) (o : Od) (d : Dev) : Dev :=
  let k := d.sched.count
  let late := (getCell d c).txn.queue.filter (fun q => match q.due with
    | some j => decide (j + txnPar o 1 ≤ k)
    | none => false)
  forEach late (fun q d => requestFailed o c k q 3 (modTxn c (fun t => { t with queue := t.queue.erase q }) d)) d

/-- REQUEST_LAUNCH_TIMEOUT. -/
def execRequestLaunchTimeout (cell : Fin 128) (s : State) : Result := drives (launchTimeout cell.val) s

/-- A request answered by NAK_STATE may go again, as a new request behind those that wait (R262). -/
def nakRetry (c : Nat) (d : Dev) : Dev :=
  let ready := (getCell d c).txn.napping.filter (fun q => decide (q.notBefore ≤ d.sched.count))
  forEach ready (fun q d =>
    let (i, d1) := nextOrd c d
    modTxn c (fun t => { t with napping := t.napping.erase q, queue := t.queue ++ [{ q with ord := i, due := none }] }) d1) d

/-- NAK_RETRY_DELAY. -/
def execNakRetryDelay (cell : Fin 128) (s : State) : Result := drives (fun _ => nakRetry cell.val) s

/-- GRANT has changed and has not been carried for GRANT_HOLD periods: CREDIT is owed (R255). -/
def grantHold (c : Nat) (o : Od) (d : Dev) : Dev :=
  let t := (getCell d c).txn
  if t.isOpen && t.grant != t.carried && decide (t.changedAt + txnPar o 8 ≤ d.sched.count) then
    modTxn c (fun t => { t with creditDue := true }) d
  else d

/-- GRANT_HOLD_EXPIRY. -/
def execGrantHoldExpiry (cell : Fin 128) (s : State) : Result := drives (grantHold cell.val) s

/-- RECONCILE_LIMIT periods have passed since the SWITCHED launch: reconciliation ends unanswered (R265). -/
def reconcileLimit (r : Nat) (o : Od) (d : Dev) : Dev :=
  match (getRing d r).recon with
  | some (_, k) =>
    if k + txnPar o 4 < d.sched.count then forEach (ringCellList o r) (fun c d => reconcileEnd o c false d) d else d
  | none => d

/-- RECONCILE_LIMIT. -/
def execReconcileLimit (ring : Fin 8) (s : State) : Result := drives (reconcileLimit ring.val) s

end Sys2Proof.Machine
end

