-- ==== Sys2Proof/Machine/CmdStack.lean ====
section
/-! DEFINITION. Commands of chapters 12 to 14: the stack controller, cells in it, line and headroom, the trip. -/
namespace Sys2Proof.Machine

/-! ### The stack state (R273 to R283) -/

/-- STACK_STRT: "strt" to STACK_COMMAND. -/
def execStackStrt (via : Via) (s : State) : Result := acts (hostWrite via 0x3010 1 (toLE 4 0x74727473)) s

/-- STACK_CONN: "conn". -/
def execStackConn (via : Via) (s : State) : Result := acts (hostWrite via 0x3010 1 (toLE 4 0x6E6E6F63)) s

/-- STACK_STOP: "stop". -/
def execStackStop (via : Via) (s : State) : Result := acts (hostWrite via 0x3010 1 (toLE 4 0x706F7473)) s

/-- STACK_PARK: "park". -/
def execStackPark (via : Via) (s : State) : Result := acts (hostWrite via 0x3010 1 (toLE 4 0x6B726170)) s

/-- A start fails where a state has lasted `ms` since its launch: it takes effect at the next cut-off (R277 to R280). -/
def startTimeout (st : StackState) (ms cause : Nat) (d : Dev) : Dev :=
  if d.stack.state == st && decide (d.stack.since + msT ms ≤ d.clk.dt) then startFails cause d else d

/-- The end of a state's time. -/
def startDue (st : StackState) (ms : Nat) (d : Dev) : Option Instant :=
  instantIf (d.stack.state == st) (.device (d.stack.since + msT ms))

/-- PRECHARGE_TIMEOUT (R277, R278). -/
def execPrechargeTimeout (s : State) : Result :=
  timed (fun o => startDue .precharge (odU o 0x3010 6)) (fun o => startTimeout .precharge (odU o 0x3010 6) 1) s

/-- SYNC_TIMEOUT (R279). -/
def execSyncTimeout (s : State) : Result :=
  timed (fun o => startDue .syncing (odU o 0x3010 7 + odU o 0x3010 6))
    (fun o => startTimeout .syncing (odU o 0x3010 7 + odU o 0x3010 6) 2) s

/-- CONNECT_TIMEOUT (R280). -/
def execConnectTimeout (s : State) : Result :=
  timed (fun o => startDue .ready (odU o 0x3010 8)) (fun o => startTimeout .ready (odU o 0x3010 8) 3) s

/-- The end of the ramp of STOPPING. -/
def rampEnd (o : Od) (d : Dev) : Nat := d.stack.stopFrom + max (msT (odU o 0x3010 9)) (period o)

/-- The ramp of STOPPING has ended, and the floor of R337 does not bind (R281, R299, R338). -/
def stopRampEnd (o : Od) (d : Dev) : Dev :=
  if d.stack.state == .stopping && !d.prot.exportForced && decide (rampEnd o d ≤ d.clk.dt) then
    onStack (fun s => { s with due := some (.stopped, 2, none) }) d
  else d

/-- STOP_RAMP_END. -/
def execStopRampEnd (s : State) : Result :=
  timed (fun o d => instantIf (d.stack.state == .stopping && !d.prot.exportForced) (.device (rampEnd o d))) stopRampEnd s

/-- STACK_UPDATE_COMPLETE: the controller's update of the period (R294 to R302). An update that is complete at the cut-off tick or
after it finds the cut-off passed (R19). -/
def execStackUpdateComplete (s : State) : Result := drives (fun o d => stackUpdate o (cutoffPassed o d)) s

/-! ### Cells (R305, R324, R326, R327) -/

/-- CLEAR_IMPLAUSIBLE: a cell number to 0x3209:06. -/
def execClearImplausible (via : Via) (cell : BitVec 8) (s : State) : Result := acts (hostWrite via 0x3209 6 [cell]) s

/-- BYPASS_CELL: a cell number to 0x3308:0A. -/
def execBypassCell (via : Via) (cell : BitVec 8) (s : State) : Result := acts (hostWrite via 0x3308 0x0A [cell]) s

/-- REINSERT_CELL: a cell number to 0x3308:0B. -/
def execReinsertCell (via : Via) (cell : BitVec 8) (s : State) : Result := acts (hostWrite via 0x3308 0x0B [cell]) s

/-- A reinsertion has not joined within REINSERT_TIMEOUT: BYPASS is owed (R327). -/
def reinsertTimeout (c : Nat) (o : Od) (d : Dev) : Dev :=
  if d.stack.reinserting.any (fun r => r.cell == c && decide (r.start + msT (odU o 0x3308 0x0C) ≤ d.clk.dt)) then
    onStack (fun s => { s with
      bypass := if s.bypass.any (fun b => b.1 == c) then s.bypass else s.bypass ++ [(c, 8, 0xFF)]
      reinserting := s.reinserting.filter (fun r => r.cell != c) }) d
  else d

/-- REINSERT_TIMEOUT. -/
def execReinsertTimeout (cell : Fin 128) (s : State) : Result :=
  timed (fun o d => (d.stack.reinserting.find? (fun r => r.cell == cell.val)).map
    (fun r => .device (r.start + msT (odU o 0x3308 0x0C)))) (reinsertTimeout cell.val) s

/-! ### Line and headroom (R325, R328) -/

/-- The ride-through has expired with the line still lost: an internal stop. -/
def rideThroughEnd (o : Od) (d : Dev) : Dev :=
  match d.prot.lineLostAt with
  | some t =>
    if d.stack.state == .running && d.stack.due.isNone && decide (t + msT (odU o 0x3300 0x0B) ≤ d.clk.dt) then
      internalStop (record o 0x2026 0 ([2, 0, 0, 0] ++ toLE 4 (msBetween t d.clk.dt)) d)
    else d
  | none => d

/-- LINE_RIDE_THROUGH_EXPIRY. -/
def execLineRideThroughExpiry (s : State) : Result :=
  timed (fun o d => d.prot.lineLostAt.map (fun t => .device (t + msT (odU o 0x3300 0x0B)))) rideThroughEnd s

/-- A group has been short for HEADROOM_TIME: an internal stop. -/
def headroomEnd (g : Nat) (o : Od) (d : Dev) : Dev :=
  match (vget d.stack.groups g).shortSince with
  | some t =>
    if d.stack.state.runs && d.stack.state != .stopping && d.stack.due.isNone && decide (t + msT (odU o 0x3300 0x0C) ≤ d.clk.dt) then
      internalStop (headroomRecord o 2 g d)
    else d
  | none => d

/-- HEADROOM_TIME_EXPIRY. -/
def execHeadroomTimeExpiry (group : Fin 4) (s : State) : Result :=
  timed (fun o d => (vget d.stack.groups group.val).shortSince.map (fun t => .device (t + msT (odU o 0x3300 0x0C)))) (headroomEnd group.val) s

/-! ### The trip (R330, R333) -/

/-- TRIP_COMMAND_TRIP: "trip" to 0x3300:01. -/
def execTripCommandTrip (via : Via) (s : State) : Result := acts (hostWrite via 0x3300 1 (toLE 4 0x70697274)) s

/-- TRIP_COMMAND_RLSE: "rlse". -/
def execTripCommandRlse (via : Via) (s : State) : Result := acts (hostWrite via 0x3300 1 (toLE 4 0x65736C72)) s

end Sys2Proof.Machine
end

