-- ==== Sys2Proof/Machine/CmdEngine.lean ====
section
/-! DEFINITION. Commands of chapters 15 and 16: the control engine, converters, comparators, temperature. -/
namespace Sys2Proof.Machine

/-! ### The control engine (R349 to R361) -/

/-- CE_TRIGGER: the trigger instant of an instance. -/
def execCeTrigger (n : Fin 16) (s : State) : Result := drives (ceTrigger · n.val) s

/-- CE_COMPUTE_DONE. A result that is complete at the cut-off tick or after it finds the cut-off passed (R19). -/
def execCeComputeDone (n : Fin 16) (s : State) : Result := drives (fun o d => ceComputeDone o n.val (ceCutoff o n.val d)) s

/-- CE_CUTOFF. -/
def execCeCutoff (n : Fin 16) (s : State) : Result :=
  timed (fun _ d => (getCe d n.val).cut.map Instant.device) (ceCutoff · n.val) s

/-- A write of a signature to CONTROL of an instance. -/
def ceControl (via : Via) (n signature : Nat) (s : State) : State := hostWrite via (ceIx n) 1 (toLE 4 signature) s

/-- CE_ENAB: "enab". -/
def execCeEnab (via : Via) (n : Fin 16) (s : State) : Result := acts (ceControl via n.val 0x62616E65) s

/-- CE_DISA: "disa". -/
def execCeDisa (via : Via) (n : Fin 16) (s : State) : Result := acts (ceControl via n.val 0x61736964) s

/-- CE_RSET: "rset". -/
def execCeRset (via : Via) (n : Fin 16) (s : State) : Result := acts (ceControl via n.val 0x74657372) s

/-- CE_RSUM: "rsum". -/
def execCeRsum (via : Via) (n : Fin 16) (s : State) : Result := acts (ceControl via n.val 0x6D757372) s

/-- CE_COMMIT: "cmit" to COMMIT. -/
def execCeCommit (via : Via) (n : Fin 16) (s : State) : Result := acts (hostWrite via (ceIx n.val) 0x15 (toLE 4 0x74696D63)) s

/-- CE_DIMENSION_WRITE: N_STATES, N_OUTPUTS or N_MEAS. -/
def execCeDimensionWrite (via : Via) (n : Fin 16) (which : Fin 3) (value : BitVec 8) (s : State) : Result :=
  acts (hostWrite via (ceIx n.val) (3 + which.val) [value]) s

/-! ### Converters (R366 to R374) -/

/-- The next trigger instant of a converter whose trigger is a point of a PWM period or of a grid within the control period. -/
def adcDue (n : Nat) (o : Od) (d : Dev) : Option Instant :=
  let last := (getAdc d n).lastTrig
  let ready := adcEnabled o n && canConvert d n
  match adcTrigger o n with
  | 2 =>
    let p := vget d.pwm.pairs (adcArg o n / 2)
    instantIf (ready && p.active) (.device (p.start + odU o (0x4020 + adcArg o n) 5))
  | 3 =>
    let base := d.sched.last + odU o (adcIx n) 5
    let per := odU o (adcIx n) 4
    let t := if d.clk.dt < base then base else base + (d.clk.dt - base) / per * per
    let taken := match last with
      | some l => decide (t ≤ l)
      | none => false
    instantIf (ready && d.sched.count != 0 && per != 0) (.device (if taken then t + per else t))
  | _ => none

/-- ADC_TRIGGER: a trigger instant of a converter. -/
def execAdcTrigger (n : Fin 8) (s : State) : Result := timed (adcDue n.val) (adcTriggered · n.val) s

/-- ADC_ENTRY_RESULT: the raw samples of the next entry. -/
def execAdcEntryResult (n : Fin 8) (samples : List Int) (s : State) : Result :=
  timed (fun o d => (getAdc d n.val).run.map (fun r => .device (r.first + resultOf o n.val r.entry))) (entryResult · n.val samples) s

/-- SW_TRIGGER. -/
def execSwTrigger (via : Via) (n : Fin 8) (s : State) : Result := acts (hostWrite via (adcIx n.val) 0x0D [1]) s

/-- ADC_ENABLE. -/
def execAdcEnable (via : Via) (n : Fin 8) (s : State) : Result := acts (hostWrite via (adcIx n.val) 1 [1]) s

/-- ADC_DISABLE. -/
def execAdcDisable (via : Via) (n : Fin 8) (s : State) : Result := acts (hostWrite via (adcIx n.val) 1 [0]) s

/-- CAL_START: a converter mask to 0x2610:01. -/
def execCalStart (via : Via) (mask : BitVec 8) (s : State) : Result := acts (hostWrite via 0x2610 1 [mask]) s

/-- The calibrations that have run their time end with the factors found, by converter number (R373, R374). -/
def calComplete (factors : List CalFactors) (s : State) : State :=
  let ok (n : Nat) : Bool := factorsOk (factors.getD n { offsets := [], gains := [] })
  { s with
    od := calFactors s.dev factors s.od
    dev := readyCheck s.od (calEnd s.od ok s.dev) }

/-- 12 ms after the first start of a calibration that runs. -/
def calibrationDue (_ : Od) (d : Dev) : Option Instant :=
  (((List.range 8).filter (fun n => (getAdc d n).cal == .calibrating)).map (fun n => (getAdc d n).calFrom)).min?.map
    (fun t => .device (t + msT 12))

/-- ADC_CAL_COMPLETE. -/
def execAdcCalComplete (factors : List CalFactors) (s : State) : Result := timedAct calibrationDue (calComplete factors) s

/-! ### Comparators (R375 to R378) -/

/-- COMPARATOR_CROSSING: the condition after hysteresis and filter. -/
def execComparatorCrossing (n : Fin 32) (outside : Bool) (s : State) : Result := drives (cmpCrossing · n.val outside) s

/-- CMP_THRESHOLD_WRITE. -/
def execCmpThresholdWrite (via : Via) (n : Fin 32) (value : BitVec 32) (s : State) : Result :=
  acts (hostWrite via (0x2630 + n.val) 3 (toLE 4 value.toNat)) s

/-- CMP_SETTLE_END: what the input gives against the thresholds in force. -/
def execCmpSettleEnd (n : Fin 32) (outside : Bool) (s : State) : Result :=
  timed (fun _ d => (vget d.meas.cmps n.val).settle.map Instant.device) (cmpSettled · n.val outside) s

/-! ### Temperature (R379 to R383) -/

/-- TEMPERATURE_CYCLE: the twelve readings in 0.1 °C. -/
def execTemperatureCycle (readings : List Int) (s : State) : Result :=
  timedAct (fun _ d => instantIf (d.isOn .meas) (.device (d.meas.lastCycle + usT 100))) (temperatureCycle readings) s

/-- 60 s after the declaration for the AMS die, 1 s after a die has cooled for the others (Table 16.5). -/
def releaseInstant (die : Nat) (_ : Od) (d : Dev) : Option Instant :=
  let x := vget d.meas.dies die
  if !x.latched then none
  else if die = 1 then some (.aon (x.declared + secT 60))
  else if d.isOn .meas then x.coolSince.map (fun t => .device (t + secT 1))
  else none

/-- THERMAL_RELEASE of a die. -/
def execThermalRelease (die : Fin 3) (s : State) : Result := timed (releaseInstant die.val) (thermalRelease · die.val) s

/-- TS_CLEAR: a sensor number to 0x2661:02. -/
def execTsClear (via : Via) (sensor : BitVec 8) (s : State) : Result := acts (hostWrite via 0x2661 2 [sensor]) s

end Sys2Proof.Machine
end

