-- ==== Sys2Proof/Machine/CmdAcq.lean ====
section
/-! DEFINITION. Commands of chapter 17: capture sets, streams, PCIe. -/
namespace Sys2Proof.Machine

/-- CAPTURE_INSTANT of a capture set (R386). -/
def execCaptureInstant (a : Fin 4) (s : State) : Result :=
  timed (fun o d => let x := getSet d a.val
    instantIf (d.isOn .ctrl && (setStream o d a.val).isSome) (.device (x.t0 + x.j * acqPeriod o a.val))) (captureDue · a.val) s

/-- ARMS: "arms" to ARM. -/
def execArms (via : Via) (a : Fin 4) (s : State) : Result := acts (hostWrite via (setIx a.val) 0x0B (toLE 4 0x736D7261)) s

/-- STREAM_ENABLE: 0x01 to STREAM_ENABLE. -/
def execStreamEnable (via : Via) (n : Fin 32) (s : State) : Result := acts (hostWrite via (streamIx n.val) 1 [1]) s

/-- STREAM_DISABLE: 0x00. -/
def execStreamDisable (via : Via) (n : Fin 32) (s : State) : Result := acts (hostWrite via (streamIx n.val) 1 [0]) s

/-- TAIL_WRITE: a stream's TAIL register (R399). -/
def execTailWrite (n : Fin 32) (value : BitVec 32) (s : State) : Result := acts (barAccess (.tail n.val value.toNat)) s

/-- DESCRIPTOR_FETCH_COMPLETE: the next descriptor's 32 bytes (R402). -/
def execDescriptorFetchComplete (n : Fin 32) (descriptor : Bytes) (s : State) : Result := drives (descriptorFetched · n.val descriptor) s

/-- RECORD_TO_BUFFER (R400). -/
def execRecordToBuffer (n : Fin 32) (s : State) : Result := drives (recordToBuffer · n.val) s

/-- FLUSH_TIMEOUT (R401). -/
def execFlushTimeout (n : Fin 32) (s : State) : Result :=
  timed (fun o d => (getStream d n.val).fill.map (fun f => .device (f.oldest + usT (odU o (streamIx n.val) 5)))) (flushDue · n.val) s

/-- IRQ_TIME_EXPIRY (R403). -/
def execIrqTimeExpiry (n : Fin 32) (s : State) : Result :=
  timed (fun _ d => let x := getStream d n.val
    if x.irqTime = 0 then none else x.signalFrom.map (fun t => .device (t + usT x.irqTime))) (fun _ => irqDue n.val) s

/-- MSIX_UNMASK. -/
def execMsixUnmask (vector : Fin 36) (s : State) : Result := acts (barAccess (.unmask vector.val)) s

/-- BAR_TIME_LO_READ. -/
def execBarTimeLoRead (s : State) : Result := acts (barAccess .timeLo) s

/-- PCIE_PERST_N is asserted: the link is down, and the endpoint is as after power-on (R396). -/
def perstAssert (o : Od) (d : Dev) : Dev :=
  followChannels o (onPcie (fun _ => {}) (linkDown o 1 d))

/-- PCIE_PERST_N_ASSERT. -/
def execPciePerstNAssert (s : State) : Result := drives perstAssert s

/-- PCIE_PERST_N_RELEASE. -/
def execPciePerstNRelease (s : State) : Result := drives (fun _ => onPcie (fun p => { p with perst := false })) s

/-- PCIE_LINK_DOWN. -/
def execPcieLinkDown (s : State) : Result := drives (linkDown · 2) s

/-- PCIE_LINK_UP: the generation and the lanes trained, 0 where there is none. -/
def execPcieLinkUp (speed : Fin 4) (width : Fin 3) (s : State) : Result := drives (fun o => linkUp o speed.val width.val) s

/-- A transition to D3hot (R396). -/
def d3hotEntry (o : Od) (d : Dev) : Dev :=
  if d.acq.pcie.up && !d.acq.pcie.d3hot then onPcie (fun p => { p with d3hot := true, parked := [] }) (linkDown o 3 d) else d

/-- PCIE_D3HOT. -/
def execPcieD3hot (s : State) : Result := drives d3hotEntry s

/-- BUS_MASTER_CLEAR: the Command register is written with Bus Master Enable clear. -/
def execBusMasterClear (s : State) : Result :=
  drives (fun o d => if d.isOn .net then configWrite o 4 (bitIf 1 d.acq.pcie.memory) d else d) s

/-- PCIE_CONFIG_REQUEST (R120, R395). -/
def execPcieConfigRequest (write : Bool) (register : BitVec 12) (value : BitVec 32) (s : State) : Result :=
  drives (fun o => configRequest o write register.toNat value.toNat) s

/-- STREAM_REGISTER_WRITE: RING_BASE, RING_SIZE, IRQ_COUNT or IRQ_TIME of a stream (Table 17.7). -/
def execStreamRegisterWrite (n : Fin 32) (offset : BitVec 7) (value : BitVec 32) (s : State) : Result :=
  acts (barAccess (.register n.val offset.toNat value.toNat)) s

end Sys2Proof.Machine
end

