-- ==== Sys2Proof/Machine/CmdPwm.lean ====
section
/-! DEFINITION. Commands of chapters 18 and 19: PWM pairs, Pronghorn, gate groups, pre-drivers. -/
namespace Sys2Proof.Machine

/-! ### Pairs (R409 to R418) -/

/-- PAIR_ENAB: "enab" to PAIR_CONTROL. -/
def execPairEnab (via : Via) (q : Fin 20) (s : State) : Result := acts (hostWrite via (0x4000 + q.val) 1 (toLE 4 0x62616E65)) s

/-- PAIR_DISA: "disa". -/
def execPairDisa (via : Via) (q : Fin 20) (s : State) : Result := acts (hostWrite via (0x4000 + q.val) 1 (toLE 4 0x61736964)) s

/-- PWM_COMMIT: "cmit" to COMMIT. -/
def execPwmCommit (via : Via) (q : Fin 20) (s : State) : Result := acts (hostWrite via (0x4000 + q.val) 0x0D (toLE 4 0x74696D63)) s

/-- The start a pair's next period is known to have, while it is enabled and DRV is ON. -/
def pairDue (q : Nat) (d : Dev) : Option Nat :=
  let p := vget d.pwm.pairs q
  if p.enabled && d.isOn .drv then p.next else none

/-- The cut-off 160 ticks before a pair's next period start passes (R416, R417). -/
def pairCutoff (o : Od) (q : Nat) (d : Dev) : Dev :=
  match pairDue q d with
  | some t => if t ≤ d.clk.dt + 160 then cutoffAt o q t d else d
  | none => d

/-- PWM_CUTOFF. -/
def execPwmCutoff (q : Fin 20) (s : State) : Result :=
  timed (fun _ d => (pairDue q.val d).map (fun t => .device (t - 160))) (pairCutoff · q.val) s

/-- A pair's next period starts where its instant has come (R409 to R414). -/
def pairStart (o : Od) (q : Nat) (seen : Option (Bool × Bool)) (d : Dev) : Dev :=
  match pairDue q d with
  | some t => if t ≤ d.clk.dt then periodInterlock o q t seen (pronghornAgain o (periodStart o q t d)) else d
  | none => d

/-- PWM_PERIOD_START, with the inputs that a bridge of the HV die sees where they are not what its pair drives. -/
def execPwmPeriodStart (q : Fin 20) (s : State) (seen : Option (Bool × Bool) := none) : Result :=
  timed (fun _ d => (pairDue q.val d).map Instant.device) (fun o => pairStart o q.val seen) s

/-! ### Pronghorn (R420 to R428) -/

/-- A FLT_IN pin takes its active or inactive level (ACTIVE_LEVEL of SRC_CONFIG) after its filter. -/
def faultPin (o : Od) (n : Nat) (active : Bool) (d : Dev) : Dev :=
  let level := (odU o (0x4100 + n) 2).testBit 0 == active
  pronghorn o { d with pwm := { d.pwm with fltLevels := if level then setBit d.pwm.fltLevels n else clrBit d.pwm.fltLevels n } }

/-- FAULT_PIN_EDGE: the active level. -/
def execFaultPinEdge (n : Fin 16) (s : State) : Result := drives (faultPin · n.val true) s

/-- FAULT_PIN_INACTIVE: the inactive level; the group stays latched (R423). -/
def execFaultPinInactive (n : Fin 16) (s : State) : Result := drives (faultPin · n.val false) s

/-- ASC_DELAY has passed since a group was forced: the on channels of its SAFE_STATE are held on (R422). -/
def ascDelayExpiry (o : Od) (g : Nat) (d : Dev) : Dev :=
  let gr := vget d.pwm.groups g
  if d.isOn .drv && gr.forced && safeStateOf o d g != 0 && decide (gr.time + 80 * odU o (0x4180 + g) 3 ≤ d.clk.dt)
  then { d with pwm := { d.pwm with groups := vset d.pwm.groups g { gr with ascOn := true } } }
  else d

/-- ASC_DELAY_EXPIRY. -/
def execAscDelayExpiry (g : Fin 10) (s : State) : Result :=
  timed (fun o d => let gr := vget d.pwm.groups g.val
    instantIf (d.isOn .drv && gr.forced && !gr.ascOn && safeStateOf o d g.val != 0) (.device (gr.time + 80 * odU o (0x4180 + g.val) 3))) (ascDelayExpiry · g.val) s

/-- GROUP_RELEASE: "rlse" to GROUP_RELEASE. -/
def execGroupRelease (via : Via) (g : Fin 10) (s : State) : Result :=
  acts (hostWrite via (0x4180 + g.val) 8 (toLE 4 0x65736C72)) s

/-- The sources of a forced group have been low for AUTO_DELAY: release, or AUTO_EXHAUSTED (R427). -/
def autoRelease (o : Od) (g : Nat) (d : Dev) : Dev :=
  let gr := vget d.pwm.groups g
  let quiet := match gr.lowSince with
    | some t => decide (t + msT (odU o (0x4180 + g) 5) ≤ d.clk.dt)
    | none => false
  if !d.isOn .drv || !gr.forced || odU o (0x4180 + g) 4 != 1 || gr.exhausted || gr.island
      || (deviceForcing d).isSome || !(groupSources o d g).isEmpty || !quiet then d
  else
    let autos := autosInWindow o d g
    let d1 := { d with pwm := { d.pwm with groups := vset d.pwm.groups g { gr with autos := autos } } }
    if 0 < autosLeft o d g then releaseGroup o g 2 d1
    else record o 0x3003 (0x320 + g) [b8 g, b8 autos.length]
      { d with pwm := { d.pwm with groups := vset d.pwm.groups g { gr with autos := autos, exhausted := true } } }

/-- AUTO_RELEASE. -/
def execAutoRelease (g : Fin 10) (s : State) : Result :=
  timed (fun o d => let gr := vget d.pwm.groups g.val
    if gr.forced && odU o (0x4180 + g.val) 4 == 1 then gr.lowSince.map (fun t => .device (t + msT (odU o (0x4180 + g.val) 5))) else none) (autoRelease · g.val) s

/-! ### Pre-drivers (R438 to R444) -/

/-- Protection comparators of a bridge trip in one tick; bit (kind − 1) per kind (Table 19.2). -/
def bridgeTrip (o : Od) (k kinds : Nat) (d : Dev) : Dev := if d.isOn .drv then bridgeFault o k kinds d else d

/-- BRIDGE_FAULT. -/
def execBridgeFault (k : Fin 6) (kinds : BitVec 4) (s : State) : Result := drives (bridgeTrip · k.val kinds.toNat) s

/-- RETRY_WAIT after the fault. -/
def retryDue (o : Od) (k : Nat) (d : Dev) : Nat := (vget d.bridges k).faultTime + msT (odU o (0x4200 + k) 0x0C)

/-- RETRY_WAIT has passed: the bridge resumes at the first period start at least 800 ticks later (R440). -/
def retryWaitExpiry (o : Od) (k : Nat) (d : Dev) : Dev :=
  let b := vget d.bridges k
  let due := retryDue o k d
  if d.isOn .drv && b.state == .retryWait && b.resumeFrom.isNone && decide (due ≤ d.clk.dt)
  then modBridge k (fun b => { b with resumeFrom := some (due + 800) }) d
  else d

/-- RETRY_WAIT_EXPIRY. -/
def execRetryWaitExpiry (k : Fin 6) (s : State) : Result :=
  timed (fun o d => instantIf ((vget d.bridges k.val).state == .retryWait) (.device (retryDue o k.val d))) (retryWaitExpiry · k.val) s

/-- BRIDGE_CLRF: "clrf" to BRIDGE_CONTROL. -/
def execBridgeClrf (via : Via) (k : Fin 6) (s : State) : Result :=
  acts (hostWrite via (0x4200 + k.val) 1 (toLE 4 0x66726C63)) s

/-- BRIDGE_TEST: "test". -/
def execBridgeTest (via : Via) (k : Fin 6) (s : State) : Result :=
  acts (hostWrite via (0x4200 + k.val) 1 (toLE 4 0x74736574)) s

/-- SELFTEST_RESULT of a finished test: bits 2 to 7 name what failed, bit 0 says that nothing did (0x4200:14). -/
def selftestResult (result : Nat) : Nat := if result / 4 % 64 = 0 then 1 else result / 4 % 64 * 4

/-- A bridge's self-test ends within 200 µs of its start (R444). -/
def selftestDone (o : Od) (k result : Nat) (d : Dev) : Dev :=
  if d.isOn .drv && (vget d.bridges k).state == .selfTest then
    record o 0x3106 (0x380 + k) ([b8 k, 0] ++ toLE 2 (selftestResult result))
      (modBridge k (fun b => { b with state := .off, selfTest := selftestResult result }) d)
  else d

/-- SELFTEST_DONE. -/
def execSelftestDone (k : Fin 6) (result : BitVec 8) (s : State) : Result := drives (selftestDone · k.val result.toNat) s

/-- SUPPLY_HOLD_RELEASE. -/
def execSupplyHoldRelease (s : State) : Result :=
  timed (fun _ d => instantIf (vget d.rails.ok 8 && !d.hvLatched) (.aon (d.rails.vdrvSince + msT 1))) (fun o d => if d.isOn .drv then supplyHoldRelease o d else d) s

end Sys2Proof.Machine
end

