-- ==== Sys2Proof/Machine/CmdDrive.lean ====
section
/-! DEFINITION. Commands of chapters 20 and 21: axes, chopper, ladder, safety island. -/
namespace Sys2Proof.Machine

/-! ### Axes (R447 to R460) -/

/-- A write of a signature to AXIS_CONTROL. -/
def axisControl (via : Via) (n signature : Nat) (s : State) : State := hostWrite via (axisIx n) 1 (toLE 4 signature) s

/-- AXIS_ENAB: "enab". -/
def execAxisEnab (via : Via) (n : Fin 6) (s : State) : Result := acts (axisControl via n.val 0x62616E65) s

/-- AXIS_ECAT: "ecat". -/
def execAxisEcat (via : Via) (n : Fin 6) (s : State) : Result := acts (axisControl via n.val 0x74616365) s

/-- AXIS_DISA: "disa". -/
def execAxisDisa (via : Via) (n : Fin 6) (s : State) : Result := acts (axisControl via n.val 0x61736964) s

/-- AXIS_DECL: "decl". -/
def execAxisDecl (via : Via) (n : Fin 6) (s : State) : Result := acts (axisControl via n.val 0x6C636564) s

/-- AXIS_CLRF: "clrf". -/
def execAxisClrf (via : Via) (n : Fin 6) (s : State) : Result := acts (axisControl via n.val 0x66726C63) s

/-- An effect of DRV's logic, which acts while DRV is ON. -/
def whileDrv (f : Od → Dev → Dev) (o : Od) (d : Dev) : Dev := if d.isOn .drv then f o d else d

/-- AXIS_LOOP_SAMPLE (R450). -/
def execAxisLoopSample (n : Fin 6) (s : State) : Result := drives (whileDrv (loopSample · n.val)) s

/-- An instant plus a time has come, in device time. -/
def elapsed (since : Option Nat) (span : Nat) (d : Dev) : Bool :=
  match since with
  | some t => decide (t + span ≤ d.clk.dt)
  | none => false

/-- The 50 ms block after a failed start attempt ends: the attempt begins again with polarity (R456). -/
def startRetry (n : Nat) (d : Dev) : Dev :=
  let a := vget d.axes n
  match a.state, a.start with
  | .starting, .wait since =>
    if elapsed (some since) (msT 50) d
    then { d with axes := vset d.axes n { a with start := .polarity 0, inhibit := .none } } else d
  | _, _ => d

/-- An instant some time after another in device time. -/
def afterDue (since : Option Nat) (span : Nat) : Option Instant := since.map (fun t => .device (t + span))

/-- The end of the 50 ms block. -/
def retryStartDue (n : Nat) (d : Dev) : Option Instant :=
  let a := vget d.axes n
  match a.state, a.start with
  | .starting, .wait since => afterDue (some since) (msT 50)
  | _, _ => none

/-- START_RETRY_DELAY_EXPIRY. -/
def execStartRetryDelayExpiry (n : Fin 6) (s : State) : Result :=
  timed (fun _ => retryStartDue n.val) (whileDrv (fun _ => startRetry n.val)) s

/-- RUNNING is not reached within START_TIMEOUT of the first torque (R456). -/
def axisStartTimeout (o : Od) (n : Nat) (d : Dev) : Dev :=
  let a := vget d.axes n
  match a.state, a.start with
  | .starting, .torque _ first =>
    if elapsed first (msT (odU o (axisIx n) 0x1A)) d then startFailed o n 3 d else d
  | _, _ => d

/-- START_TIMEOUT after the first torque. -/
def axisStartDue (n : Nat) (o : Od) (d : Dev) : Option Instant :=
  let a := vget d.axes n
  match a.state, a.start with
  | .starting, .torque _ first => afterDue first (msT (odU o (axisIx n) 0x1A))
  | _, _ => none

/-- START_TIMEOUT. -/
def execStartTimeout (n : Fin 6) (s : State) : Result :=
  timed (axisStartDue n.val) (whileDrv (axisStartTimeout · n.val)) s

/-- RECATCH_DELAY has passed in BLOCKED and nothing holds the axis (R459, R460). -/
def recatchDelay (o : Od) (n : Nat) (d : Dev) : Dev :=
  let a := vget d.axes n
  if a.state == .blocked && !a.stoHeld && !a.hardHeld && !a.forcedHeld && elapsed a.delayFrom (msT (odU o (axisIx n) 0x22)) d then
    enterRecatch o n (recatchCause a.cause) { d with axes := vset d.axes n { a with delayFrom := none } }
  else d

/-- RECATCH_DELAY_EXPIRY. -/
def execRecatchDelayExpiry (n : Fin 6) (s : State) : Result :=
  timed (fun o d => let a := vget d.axes n.val
    if a.state == .blocked && !a.stoHeld && !a.hardHeld && !a.forcedHeld
    then afterDue a.delayFrom (msT (odU o (axisIx n.val) 0x22)) else none) (whileDrv (recatchDelay · n.val)) s

/-- RECATCH has lasted 100 ms (R459). -/
def recatchTimeout (o : Od) (n : Nat) (d : Dev) : Dev :=
  let a := vget d.axes n
  if a.state == .recatch && elapsed (some a.since) (msT 100) d then blockAndWait o n 0x06 d else d

/-- RECATCH_TIMEOUT. -/
def execRecatchTimeout (n : Fin 6) (s : State) : Result :=
  timed (fun _ d => let a := vget d.axes n.val
    if a.state == .recatch then afterDue (some a.since) (msT 100) else none) (whileDrv (recatchTimeout · n.val)) s

/-- |SPEED| has stayed at or below STOP_SPEED for 10 ms in DECEL (R460). -/
def decelStop (o : Od) (n : Nat) (d : Dev) : Dev :=
  let a := vget d.axes n
  if a.state == .decel && elapsed a.slowSince (msT 10) d then axisDisable o n 0x0C d else d

/-- DECEL_STOP_COMPLETE. -/
def execDecelStopComplete (n : Fin 6) (s : State) : Result :=
  timed (fun _ d => let a := vget d.axes n.val
    if a.state == .decel then afterDue a.slowSince (msT 10) else none) (whileDrv (decelStop · n.val)) s

/-! ### Chopper and ladder (R462 to R468) -/

/-- CHOP_ENAB: "enab" to CHOP_CONTROL. -/
def execChopEnab (via : Via) (s : State) : Result := acts (hostWrite via 0x4600 1 (toLE 4 0x62616E65)) s

/-- CHOP_DISA: "disa". -/
def execChopDisa (via : Via) (s : State) : Result := acts (hostWrite via 0x4600 1 (toLE 4 0x61736964)) s

/-- CHOP_CLRF: "clrf". -/
def execChopClrf (via : Via) (s : State) : Result := acts (hostWrite via 0x4600 1 (toLE 4 0x66726C63)) s

/-- No result of LADDER_V_ENTRY within 1 ms: step 3, zero leg duty, STALE (R468). -/
def ladderStale (o : Od) (d : Dev) : Dev :=
  if !ladderRuns d || d.ladder.stale || !elapsed (some d.ladder.lastResult) (msT 1) d then d
  else
    let d1 := ladderTo o 3 d.ladder.busV d
    let d2 := record o 0x4605 0x462 [1] { d1 with ladder := { d1.ladder with
      stale := true, legs := d1.ladder.legs.map (fun (l : Leg) => { l with duty := 0 }) } }
    mechEvaluate o { d2 with
      axes := (List.range 6).foldl (fun v n => vmod v n (fun a => { a with regenAllowed := if axisOn a then regenShare d2 n else 0 })) d2.axes }

/-- LADDER_STALE. -/
def execLadderStale (s : State) : Result :=
  timed (fun _ d => if ladderRuns d && !d.ladder.stale then afterDue (some d.ladder.lastResult) (msT 1) else none) (whileDrv ladderStale) s

/-- MECH_HOLD has passed with no request condition: MECH_BRAKE_REQ falls (R466). -/
def mechHold (o : Od) (d : Dev) : Dev :=
  if d.ladder.mech && elapsed d.ladder.mechClear (msT (odU o 0x4610 9)) d then
    record o 0x4604 0x462 [0, 0] { d with ladder := { d.ladder with mech := false, mechClear := none } }
  else d

/-- MECH_HOLD_EXPIRY. -/
def execMechHoldExpiry (s : State) : Result :=
  timed (fun o d => afterDue d.ladder.mechClear (msT (odU o 0x4610 9))) (whileDrv mechHold) s

/-! ### Safety island (R473 to R490) -/

/-- An effect of the island, which acts while SAFE is ON. -/
def whileSafe (f : Od → Dev → Dev) (o : Od) (d : Dev) : Dev := if d.isOn .safe then f o d else d

/-- SAFETY_COPY_ARRIVAL: a copy on a CAN controller with its COB-ID, or on an Ethernet port with its source MAC (R480, R481). -/
def execSafetyCopyArrival (eth : Bool) (port : Fin 2) (cobId : BitVec 32) (mac pdu : Bytes) (s : State) : Result :=
  drives (whileSafe (fun o d => if if eth then ethLine d else canLine d then copyArrival o eth port.val cobId.toNat mac pdu d else d)) s

/-- STATUS_PDU_SEND (R483). -/
def execStatusPduSend (c : Fin 32) (s : State) : Result := drives (whileSafe (statusSend · c.val)) s

/-- The window of the oldest held copy is over. -/
def compareDue (c : Nat) (o : Od) (d : Dev) : Option Instant :=
  ((vget d.isl.conns c).held.map (fun h => h.at_)).min?.map (fun t => .aon (t + usT (odU o (connIx c) 6) + 1))

/-- COMPARE_WINDOW_EXPIRY (R481). -/
def execCompareWindowExpiry (c : Fin 32) (s : State) : Result :=
  timed (compareDue c.val) (whileSafe (windowExpiry · c.val)) s

/-- CONN_TIMEOUT (R482). -/
def execConnTimeout (c : Fin 32) (s : State) : Result :=
  timed (fun o d => let k := vget d.isl.conns c.val
    instantIf (k.state == .run) (.aon (k.lastAccept + msT (odU o (connIx c.val) 7)))) (whileSafe (connTimeout · c.val)) s

/-- SPEED_WINDOW_END: the raw current pairs of the 1 ms window (R484, R485). -/
def execSpeedWindowEnd (n : Fin 4) (samples : List (Int × Int)) (s : State) : Result :=
  drives (whileSafe (speedWindowEnd · n.val samples)) s

/-- SS1_TIME_LIMIT (R485). -/
def execSs1TimeLimit (n : Fin 4) (s : State) : Result :=
  timed (fun o d => (vget d.isl.speed n.val).ss1.map (fun x => .aon (x.1 + msT (odU o (0x5020 + n.val) 7)))) (whileSafe (ss1TimeLimit · n.val)) s

/-- FEEDBACK_CHECK: the levels of the feedback inputs A and B (R475, R477). -/
def execFeedbackCheck (fbA fbB : BitVec 4) (s : State) : Result :=
  drives (whileSafe (feedbackCheck · fbA.toNat fbB.toNat)) s

/-- TEST_PULSE_START on output A, or on B (R477). -/
def execTestPulseStart (n : Fin 4) (b : Bool) (s : State) : Result :=
  timed (fun o d => let p := vget d.isl.pairs n.val
    instantIf (p.state == .permit) (.aon (pulseDue o p b))) (whileSafe (pulseStart · n.val b)) s

/-- TP_WIDTH after the pulse began. -/
def pulseEndDue (n : Nat) (b : Bool) (o : Od) (d : Dev) : Option Instant :=
  let p := vget d.isl.pairs n
  match (if b then p.b else p.a).pulse with
  | some (t, none) => some (.aon (t + usT (odU o 0x5000 7)))
  | _ => none

/-- TEST_PULSE_END (R477). -/
def execTestPulseEnd (n : Fin 4) (b : Bool) (s : State) : Result :=
  timed (pulseEndDue n.val b) (whileSafe (pulseEnd · n.val b)) s

/-- PAIR_CLRF: "clrf" to PAIR_CONTROL of an STO pair. -/
def execPairClrf (via : Via) (n : Fin 4) (s : State) : Result := acts (hostWrite via (0x5010 + n.val) 3 (toLE 4 0x66726C63)) s

/-- CCV_CONFIRMED_WRITE (R489, R490). -/
def execCcvConfirmedWrite (via : Via) (value : BitVec 32) (s : State) : Result := acts (hostWrite via 0x5000 3 (toLE 4 value.toNat)) s

/-- CCV_UPDATE: CCV_COMPUTED of the present objects is taken (R490). -/
def execCcvUpdate (s : State) : Result := drives (whileSafe (fun o => ccvTake o (ccvOf o))) s

end Sys2Proof.Machine
end

