-- ==== Sys2Proof/Machine/Dispatch.lean ====
section
/-! DEFINITION. The command of the queue's front given to its meaning, one arm per constructor. -/
namespace Sys2Proof.Machine

def exec (i : Instr) (s : State) : Host.Outcome State Fault Refusal :=
  match i with
  | .odRead via m => Sys2Proof.Machine.execOdRead via m s
  | .odWrite via m => Sys2Proof.Machine.execOdWrite via m s
  | .sdoUpload controller channel step => Sys2Proof.Machine.execSdoUpload controller channel step s
  | .sdoDownload controller channel step => Sys2Proof.Machine.execSdoDownload controller channel step s
  | .keepalive via => Sys2Proof.Machine.execKeepalive via s
  | .close via => Sys2Proof.Machine.execClose via s
  | .mailboxOwnerSet slot msgLen message => Sys2Proof.Machine.execMailboxOwnerSet slot msgLen message s
  | .udpSessionIdleTimeout session => Sys2Proof.Machine.execUdpSessionIdleTimeout session s
  | .transferTimeout session => Sys2Proof.Machine.execTransferTimeout session s
  | .nmtStart src => Sys2Proof.Machine.execNmtStart src s
  | .nmtStop src => Sys2Proof.Machine.execNmtStop src s
  | .nmtEnterPreoperational src => Sys2Proof.Machine.execNmtEnterPreoperational src s
  | .nmtResetNode src => Sys2Proof.Machine.execNmtResetNode src s
  | .nmtResetCommunication src => Sys2Proof.Machine.execNmtResetCommunication src s
  | .rpdoReceived src data => Sys2Proof.Machine.execRpdoReceived src data s
  | .rpdoTimeout n => Sys2Proof.Machine.execRpdoTimeout n s
  | .tpdoChangeTransmit n => Sys2Proof.Machine.execTpdoChangeTransmit n s
  | .tpdoEventTimer n => Sys2Proof.Machine.execTpdoEventTimer n s
  | .emcySend => Sys2Proof.Machine.execEmcySend s
  | .storeSave via group => Sys2Proof.Machine.execStoreSave via group s
  | .restoreLoad via group => Sys2Proof.Machine.execRestoreLoad via group s
  | .configStoreComplete ok => Sys2Proof.Machine.execConfigStoreComplete ok s
  | .sequencerWindowClose => Sys2Proof.Machine.execSequencerWindowClose s
  | .creditBreach cell => Sys2Proof.Machine.execCreditBreach cell s
  | .ledgerUnaccountedSecond account => Sys2Proof.Machine.execLedgerUnaccountedSecond account s
  | .ledgerCheckpointInterval => Sys2Proof.Machine.execLedgerCheckpointInterval s
  | .checkpointNow via => Sys2Proof.Machine.execCheckpointNow via s
  | .ledgerCheckpointDone => Sys2Proof.Machine.execLedgerCheckpointDone s
  | .accountReset via selector => Sys2Proof.Machine.execAccountReset via selector s
  | .vaonPowerOn => Sys2Proof.Machine.execVaonPowerOn s
  | .supplyLost rail cycle => Sys2Proof.Machine.execSupplyLost rail s cycle
  | .supplyRestored rail => Sys2Proof.Machine.execSupplyRestored rail s
  | .sequenceViolation rail follows => Sys2Proof.Machine.execSequenceViolation rail follows s
  | .lockFilterCheckDone tauTb tauCas => Sys2Proof.Machine.execLockFilterCheckDone tauTb tauCas s
  | .porstNAssert => Sys2Proof.Machine.execPorstNAssert s
  | .porstNRelease => Sys2Proof.Machine.execPorstNRelease s
  | .resetNAssert => Sys2Proof.Machine.execResetNAssert s
  | .resetNRelease => Sys2Proof.Machine.execResetNRelease s
  | .resetNLimitExpiry rises => Sys2Proof.Machine.execResetNLimitExpiry s rises
  | .resetNRearmed => Sys2Proof.Machine.execResetNRearmed s
  | .watchdog core => Sys2Proof.Machine.execWatchdog core s
  | .deviceReset via => Sys2Proof.Machine.execDeviceReset via s
  | .debugReset => Sys2Proof.Machine.execDebugReset s
  | .warmResetRelease => Sys2Proof.Machine.execWarmResetRelease s
  | .sequencerDomainRequest => Sys2Proof.Machine.execSequencerDomainRequest s
  | .bootDomainFailed => Sys2Proof.Machine.execBootDomainFailed s
  | .tblockDeclareTimeout => Sys2Proof.Machine.execTblockDeclareTimeout s
  | .bootConfirm via => Sys2Proof.Machine.execBootConfirm via s
  | .domainStateWrite via domain state cycle => Sys2Proof.Machine.execDomainStateWrite via domain state s cycle
  | .groupRequest via value => Sys2Proof.Machine.execGroupRequest via value s
  | .groupStep cycle => Sys2Proof.Machine.execGroupStep s cycle
  | .idleTimeExpiry domain cycle => Sys2Proof.Machine.execIdleTimeExpiry domain s cycle
  | .wake seen cycle => Sys2Proof.Machine.execWake seen s cycle
  | .rtcAlarm => Sys2Proof.Machine.execRtcAlarm s
  | .domainTransitionComplete domain readings selfTest sectionBad => Sys2Proof.Machine.execDomainTransitionComplete domain readings selfTest sectionBad s
  | .lifecycleLock via cellA cellB => Sys2Proof.Machine.execLifecycleLock via cellA cellB s
  | .lifecycleSeal via cellA cellB => Sys2Proof.Machine.execLifecycleSeal via cellA cellB s
  | .keyWrite via slot key => Sys2Proof.Machine.execKeyWrite via slot key s
  | .debugAttach => Sys2Proof.Machine.execDebugAttach s
  | .dbgChallengeCapture => Sys2Proof.Machine.execDbgChallengeCapture s
  | .dbgResponseUpdate response => Sys2Proof.Machine.execDbgResponseUpdate response s
  | .debugNonceExpiry => Sys2Proof.Machine.execDebugNonceExpiry s
  | .debugLockoutEnd => Sys2Proof.Machine.execDebugLockoutEnd s
  | .tapReset => Sys2Proof.Machine.execTapReset s
  | .scanTakeoverStart instruction => Sys2Proof.Machine.execScanTakeoverStart instruction s
  | .scanTakeoverEnd instruction => Sys2Proof.Machine.execScanTakeoverEnd instruction s
  | .commChallenge via => Sys2Proof.Machine.execCommChallenge via s
  | .commResponse via nonce mac => Sys2Proof.Machine.execCommResponse via nonce mac s
  | .commEnd via => Sys2Proof.Machine.execCommEnd via s
  | .commStatus via => Sys2Proof.Machine.execCommStatus via s
  | .commTimeout => Sys2Proof.Machine.execCommTimeout s
  | .commNonceExpiry session => Sys2Proof.Machine.execCommNonceExpiry session s
  | .commLockoutEnd => Sys2Proof.Machine.execCommLockoutEnd s
  | .loadBegin via => Sys2Proof.Machine.execLoadBegin via s
  | .loadData via chunk => Sys2Proof.Machine.execLoadData via chunk s
  | .loadCommit via => Sys2Proof.Machine.execLoadCommit via s
  | .secVersionRaise via => Sys2Proof.Machine.execSecVersionRaise via s
  | .tblockDeclared mv runs => Sys2Proof.Machine.execTblockDeclared mv s runs
  | .tblockLost mv runs => Sys2Proof.Machine.execTblockLost mv runs s
  | .caslockDeclared mv runs => Sys2Proof.Machine.execCaslockDeclared mv s runs
  | .caslockLost found => Sys2Proof.Machine.execCaslockLost found s
  | .timebaseCheckWindow deviation => Sys2Proof.Machine.execTimebaseCheckWindow deviation s
  | .controlPeriodWrite via value => Sys2Proof.Machine.execControlPeriodWrite via value s
  | .periodStart => Sys2Proof.Machine.execPeriodStart s
  | .profileRunStart via profile => Sys2Proof.Machine.execProfileRunStart via profile s
  | .profileRunHold via => Sys2Proof.Machine.execProfileRunHold via s
  | .ptpSync p logInterval twoStep origin correction => Sys2Proof.Machine.execPtpSync p logInterval twoStep origin correction s
  | .ptpFollowUp p origin correction => Sys2Proof.Machine.execPtpFollowUp p origin correction s
  | .ptpDelayResp p received sent correction => Sys2Proof.Machine.execPtpDelayResp p received sent correction s
  | .ptpDelayReqTimer => Sys2Proof.Machine.execPtpDelayReqTimer s
  | .pdelayReqReceived p => Sys2Proof.Machine.execPdelayReqReceived p s
  | .ptpAnnounce p a => Sys2Proof.Machine.execPtpAnnounce p a s
  | .ptpMasterLost announce => Sys2Proof.Machine.execPtpMasterLost announce s
  | .timeStepNow via => Sys2Proof.Machine.execTimeStepNow via s
  | .rateSlewStep => Sys2Proof.Machine.execRateSlewStep s
  | .manualRateWrite via value => Sys2Proof.Machine.execManualRateWrite via value s
  | .ethLinkChange mac up => Sys2Proof.Machine.execEthLinkChange mac up s
  | .arpReceived mac reply senderIp senderMac targetIp => Sys2Proof.Machine.execArpReceived mac reply senderIp senderMac targetIp s
  | .icmpEcho mac source target body => Sys2Proof.Machine.execIcmpEcho mac source target body s
  | .frameBuildCutoff => Sys2Proof.Machine.execFrameBuildCutoff s
  | .cyclicFrameReturn ring path frame rttPs => Sys2Proof.Machine.execCyclicFrameReturn ring path frame rttPs s
  | .standbyFrameReturn ring path frame rttPs => Sys2Proof.Machine.execStandbyFrameReturn ring path frame rttPs s
  | .returnDeadline ring path => Sys2Proof.Machine.execReturnDeadline ring path s
  | .switchSuppressClear ring => Sys2Proof.Machine.execSwitchSuppressClear ring s
  | .delayFrameLaunch ring => Sys2Proof.Machine.execDelayFrameLaunch ring s
  | .delayFrameReturn ring frameA frameB rttA rttB => Sys2Proof.Machine.execDelayFrameReturn ring frameA frameB rttA rttB s
  | .laneSyncLost ring path => Sys2Proof.Machine.execLaneSyncLost ring path s
  | .laneSyncGained ring path => Sys2Proof.Machine.execLaneSyncGained ring path s
  | .faultOrderedSet ring path => Sys2Proof.Machine.execFaultOrderedSet ring path s
  | .ringStart via ring => Sys2Proof.Machine.execRingStart via ring s
  | .ringStop via ring => Sys2Proof.Machine.execRingStop via ring s
  | .pathSwap via ring => Sys2Proof.Machine.execPathSwap via ring s
  | .discoverInterval => Sys2Proof.Machine.execDiscoverInterval s
  | .hello m => Sys2Proof.Machine.execHello m s
  | .challengeResp m => Sys2Proof.Machine.execChallengeResp m s
  | .admitTimeout cell => Sys2Proof.Machine.execAdmitTimeout cell s
  | .admitBackoffEnd cell => Sys2Proof.Machine.execAdmitBackoffEnd cell s
  | .lockReport m => Sys2Proof.Machine.execLockReport m s
  | .lockTimeout cell => Sys2Proof.Machine.execLockTimeout cell s
  | .paramAck m => Sys2Proof.Machine.execParamAck m s
  | .commitAck m => Sys2Proof.Machine.execCommitAck m s
  | .calData m => Sys2Proof.Machine.execCalData m s
  | .armAck m => Sys2Proof.Machine.execArmAck m s
  | .paramTimeout cell => Sys2Proof.Machine.execParamTimeout cell s
  | .resyncTimeout cell => Sys2Proof.Machine.execResyncTimeout cell s
  | .cellRsyn via cell => Sys2Proof.Machine.execCellRsyn via cell s
  | .cellLeav via cell => Sys2Proof.Machine.execCellLeav via cell s
  | .leaveReq m => Sys2Proof.Machine.execLeaveReq m s
  | .nakStateReceived m => Sys2Proof.Machine.execNakStateReceived m s
  | .holdPresumption ring => Sys2Proof.Machine.execHoldPresumption ring s
  | .eventReport m => Sys2Proof.Machine.execEventReport m s
  | .cellCreditReceived m => Sys2Proof.Machine.execCellCreditReceived m s
  | .errantClear via cell => Sys2Proof.Machine.execErrantClear via cell s
  | .reqTimeout cell => Sys2Proof.Machine.execReqTimeout cell s
  | .requestLaunchTimeout cell => Sys2Proof.Machine.execRequestLaunchTimeout cell s
  | .nakRetryDelay cell => Sys2Proof.Machine.execNakRetryDelay cell s
  | .grantHoldExpiry cell => Sys2Proof.Machine.execGrantHoldExpiry cell s
  | .reconcileLimit ring => Sys2Proof.Machine.execReconcileLimit ring s
  | .stackStrt via => Sys2Proof.Machine.execStackStrt via s
  | .stackConn via => Sys2Proof.Machine.execStackConn via s
  | .stackStop via => Sys2Proof.Machine.execStackStop via s
  | .stackPark via => Sys2Proof.Machine.execStackPark via s
  | .prechargeTimeout => Sys2Proof.Machine.execPrechargeTimeout s
  | .syncTimeout => Sys2Proof.Machine.execSyncTimeout s
  | .connectTimeout => Sys2Proof.Machine.execConnectTimeout s
  | .stopRampEnd => Sys2Proof.Machine.execStopRampEnd s
  | .stackUpdateComplete => Sys2Proof.Machine.execStackUpdateComplete s
  | .clearImplausible via cell => Sys2Proof.Machine.execClearImplausible via cell s
  | .bypassCell via cell => Sys2Proof.Machine.execBypassCell via cell s
  | .reinsertCell via cell => Sys2Proof.Machine.execReinsertCell via cell s
  | .reinsertTimeout cell => Sys2Proof.Machine.execReinsertTimeout cell s
  | .lineRideThroughExpiry => Sys2Proof.Machine.execLineRideThroughExpiry s
  | .headroomTimeExpiry group => Sys2Proof.Machine.execHeadroomTimeExpiry group s
  | .tripCommandTrip via => Sys2Proof.Machine.execTripCommandTrip via s
  | .tripCommandRlse via => Sys2Proof.Machine.execTripCommandRlse via s
  | .ceTrigger n => Sys2Proof.Machine.execCeTrigger n s
  | .ceComputeDone n => Sys2Proof.Machine.execCeComputeDone n s
  | .ceCutoff n => Sys2Proof.Machine.execCeCutoff n s
  | .ceEnab via n => Sys2Proof.Machine.execCeEnab via n s
  | .ceDisa via n => Sys2Proof.Machine.execCeDisa via n s
  | .ceRset via n => Sys2Proof.Machine.execCeRset via n s
  | .ceRsum via n => Sys2Proof.Machine.execCeRsum via n s
  | .ceCommit via n => Sys2Proof.Machine.execCeCommit via n s
  | .ceDimensionWrite via n which value => Sys2Proof.Machine.execCeDimensionWrite via n which value s
  | .adcTrigger n => Sys2Proof.Machine.execAdcTrigger n s
  | .adcEntryResult n samples => Sys2Proof.Machine.execAdcEntryResult n samples s
  | .swTrigger via n => Sys2Proof.Machine.execSwTrigger via n s
  | .adcEnable via n => Sys2Proof.Machine.execAdcEnable via n s
  | .adcDisable via n => Sys2Proof.Machine.execAdcDisable via n s
  | .calStart via mask => Sys2Proof.Machine.execCalStart via mask s
  | .adcCalComplete factors => Sys2Proof.Machine.execAdcCalComplete factors s
  | .comparatorCrossing n outside => Sys2Proof.Machine.execComparatorCrossing n outside s
  | .cmpThresholdWrite via n value => Sys2Proof.Machine.execCmpThresholdWrite via n value s
  | .cmpSettleEnd n outside => Sys2Proof.Machine.execCmpSettleEnd n outside s
  | .temperatureCycle readings => Sys2Proof.Machine.execTemperatureCycle readings s
  | .thermalRelease die => Sys2Proof.Machine.execThermalRelease die s
  | .tsClear via sensor => Sys2Proof.Machine.execTsClear via sensor s
  | .captureInstant a => Sys2Proof.Machine.execCaptureInstant a s
  | .arms via a => Sys2Proof.Machine.execArms via a s
  | .streamEnable via n => Sys2Proof.Machine.execStreamEnable via n s
  | .streamDisable via n => Sys2Proof.Machine.execStreamDisable via n s
  | .tailWrite n value => Sys2Proof.Machine.execTailWrite n value s
  | .descriptorFetchComplete n descriptor => Sys2Proof.Machine.execDescriptorFetchComplete n descriptor s
  | .recordToBuffer n => Sys2Proof.Machine.execRecordToBuffer n s
  | .flushTimeout n => Sys2Proof.Machine.execFlushTimeout n s
  | .irqTimeExpiry n => Sys2Proof.Machine.execIrqTimeExpiry n s
  | .msixUnmask vector => Sys2Proof.Machine.execMsixUnmask vector s
  | .barTimeLoRead => Sys2Proof.Machine.execBarTimeLoRead s
  | .pciePerstNAssert => Sys2Proof.Machine.execPciePerstNAssert s
  | .pcieLinkDown => Sys2Proof.Machine.execPcieLinkDown s
  | .pcieLinkUp speed width => Sys2Proof.Machine.execPcieLinkUp speed width s
  | .pcieD3hot => Sys2Proof.Machine.execPcieD3hot s
  | .busMasterClear => Sys2Proof.Machine.execBusMasterClear s
  | .pairEnab via q => Sys2Proof.Machine.execPairEnab via q s
  | .pairDisa via q => Sys2Proof.Machine.execPairDisa via q s
  | .pwmCommit via q => Sys2Proof.Machine.execPwmCommit via q s
  | .pwmCutoff q => Sys2Proof.Machine.execPwmCutoff q s
  | .pwmPeriodStart q seen => Sys2Proof.Machine.execPwmPeriodStart q s seen
  | .faultPinEdge n => Sys2Proof.Machine.execFaultPinEdge n s
  | .ascDelayExpiry g => Sys2Proof.Machine.execAscDelayExpiry g s
  | .groupRelease via g => Sys2Proof.Machine.execGroupRelease via g s
  | .autoRelease g => Sys2Proof.Machine.execAutoRelease g s
  | .bridgeFault k kinds => Sys2Proof.Machine.execBridgeFault k kinds s
  | .retryWaitExpiry k => Sys2Proof.Machine.execRetryWaitExpiry k s
  | .bridgeClrf via k => Sys2Proof.Machine.execBridgeClrf via k s
  | .bridgeTest via k => Sys2Proof.Machine.execBridgeTest via k s
  | .selftestDone k result => Sys2Proof.Machine.execSelftestDone k result s
  | .supplyHoldRelease => Sys2Proof.Machine.execSupplyHoldRelease s
  | .axisEnab via n => Sys2Proof.Machine.execAxisEnab via n s
  | .axisEcat via n => Sys2Proof.Machine.execAxisEcat via n s
  | .axisDisa via n => Sys2Proof.Machine.execAxisDisa via n s
  | .axisDecl via n => Sys2Proof.Machine.execAxisDecl via n s
  | .axisClrf via n => Sys2Proof.Machine.execAxisClrf via n s
  | .axisLoopSample n => Sys2Proof.Machine.execAxisLoopSample n s
  | .startRetryDelayExpiry n => Sys2Proof.Machine.execStartRetryDelayExpiry n s
  | .startTimeout n => Sys2Proof.Machine.execStartTimeout n s
  | .recatchDelayExpiry n => Sys2Proof.Machine.execRecatchDelayExpiry n s
  | .recatchTimeout n => Sys2Proof.Machine.execRecatchTimeout n s
  | .decelStopComplete n => Sys2Proof.Machine.execDecelStopComplete n s
  | .chopEnab via => Sys2Proof.Machine.execChopEnab via s
  | .chopDisa via => Sys2Proof.Machine.execChopDisa via s
  | .chopClrf via => Sys2Proof.Machine.execChopClrf via s
  | .ladderStale => Sys2Proof.Machine.execLadderStale s
  | .mechHoldExpiry => Sys2Proof.Machine.execMechHoldExpiry s
  | .safetyCopyArrival eth port cobId mac pdu => Sys2Proof.Machine.execSafetyCopyArrival eth port cobId mac pdu s
  | .statusPduSend c => Sys2Proof.Machine.execStatusPduSend c s
  | .compareWindowExpiry c => Sys2Proof.Machine.execCompareWindowExpiry c s
  | .connTimeout c => Sys2Proof.Machine.execConnTimeout c s
  | .speedWindowEnd n samples => Sys2Proof.Machine.execSpeedWindowEnd n samples s
  | .ss1TimeLimit n => Sys2Proof.Machine.execSs1TimeLimit n s
  | .feedbackCheck fbA fbB => Sys2Proof.Machine.execFeedbackCheck fbA fbB s
  | .testPulseStart n b => Sys2Proof.Machine.execTestPulseStart n b s
  | .testPulseEnd n b => Sys2Proof.Machine.execTestPulseEnd n b s
  | .pairClrf via n => Sys2Proof.Machine.execPairClrf via n s
  | .ccvConfirmedWrite via value => Sys2Proof.Machine.execCcvConfirmedWrite via value s
  | .ccvUpdate => Sys2Proof.Machine.execCcvUpdate s
  | .heartbeatProducerTimer => Sys2Proof.Machine.execHeartbeatProducerTimer s
  | .pciePerstNRelease => Sys2Proof.Machine.execPciePerstNRelease s
  | .pcieConfigRequest write register value => Sys2Proof.Machine.execPcieConfigRequest write register value s
  | .streamRegisterWrite n offset value => Sys2Proof.Machine.execStreamRegisterWrite n offset value s
  | .boundaryScanUpdateDr data => Sys2Proof.Machine.execBoundaryScanUpdateDr data s
  | .faultPinInactive n => Sys2Proof.Machine.execFaultPinInactive n s

end Sys2Proof.Machine
end

