-- ==== Sys2Proof/Safety.lean ====
section
/-! DEFINITION. The terms in which statements say what a command does: its completion, and when a host's request is executed. -/
namespace Sys2Proof.Machine

/-- No test pulse is in progress on the output (R477). -/
def StoOut.quiet (x : StoOut) : Bool := match x.pulse with
  | some (_, none) => false
  | _ => true

/-- Outside PERMIT both STO outputs of a pair are at their off level, and no test pulse would raise one (R474, R476, R486). -/
def StoPair.sound (p : StoPair) : Bool := p.state == .permit || (!p.a.level && p.a.quiet && !p.b.level && p.b.quiet)

/-- The host's object values are in canonical form, and no STO output is high outside PERMIT. -/
def State.Sound (s : State) : Prop := s.od.wf = true ∧ ∀ n : Fin 4, (vget s.dev.isl.pairs n.val).sound = true

/-- The command answers a next state, of which `P` holds. -/
def Completes (c : Instr) (s : State) (P : State → Prop) : Prop := ∃ t, exec c s = .next t ∧ P t

/-- The session and the state in which a request is executed, where it is executed at all: admitted by its transport, in order, well
formed under R507 (`whole`: a row that stands for a whole transfer), and no continuation of a transfer in progress. -/
def requestSeen (whole : Bool) (via : Via) (service : Nat) (m : OdMsg) (s : State) : Option (Nat × State) :=
  match via, admission whole via service m s with
  | .can _ _, .served n t => some (n, t)
  | _, .served n t =>
    let mine := (getSession t.dev n).transfer.filter (continues service m.index.toNat m.sub.toNat)
    if mine.isNone && (whole || (messageCheck service m none).isNone)
    then some (n, if service = 3 ∨ service = 4 then t else abandon n t) else none
  | _, _ => none

/-- The session and the state in which a row that writes one whole value executes it. -/
def writeSeen (via : Via) (ix sub : Nat) (b : Bytes) (s : State) : Option (Nat × State) := requestSeen true via 2 (writeMsg ix sub b) s

/-- The write is executed and passes every check of R35, step 9 included. -/
def accepted (via : Via) (ix sub : Nat) (b : Bytes) (s : State) : Bool :=
  match writeSeen via ix sub b s with
  | some (n, t) => (writeObject (some n) ix sub b t).1 == none
  | none => false

/-- A service without operands (Tables 2.8 and 7.5) and its message. -/
def serviceMsg (b : Bytes) : OdMsg := { index := 0, sub := 0, plen := BitVec.ofNat 16 b.length, payload := b }

/-- The output that carries an answer to the host: a datagram, a slot's message, or an SDO response. -/
def answerOf (via : Via) (n service : Nat) (m : OdMsg) (a : Answer) : Output :=
  match via with
  | .udp mac ip port seq => .datagram mac.val ip.toNat port.toNat (responseBytes service seq.toNat m a)
  | .mailbox slot => .mailbox slot.val (responseBytes service 0 m a)
  | .can _ _ => .sdo n m.index.toNat m.sub.toNat a.abort a.payload

/-- Two devices agree in everything but the communication with hosts: sessions, slots and PDOs, PCIe, outputs, free values. -/
def agreeButCom (a b : Dev) : Prop := { a with com := b.com, acq := b.acq, out := b.out, free := b.free } = b

/-- The abort record of a session holds a code and a detail (R56). -/
def abortedWith (n code detail : Nat) (d : Dev) : Prop := (getSession d n).abort.code = code ∧ (getSession d n).abort.detail = detail

/-- An event of this instant has reached the sequencer: held, or numbered in the log (R67). -/
def eventNow (code source : Nat) (d : Dev) : Prop :=
  (∃ e ∈ d.seqr.held, e.code = code ∧ e.source = source ∧ e.time = d.clk.stamp) ∨
  (∃ r ∈ d.seqr.log, r.ev.code = code ∧ r.ev.source = source ∧ r.ev.time = d.clk.stamp)

/-- The same, with its data bytes and its time (R66). -/
def recorded (code time source : Nat) (data : Bytes) (d : Dev) : Prop :=
  (∃ e ∈ d.seqr.held, e.code = code ∧ e.source = source ∧ e.time = time ∧ e.data = data) ∨
  (∃ r ∈ d.seqr.log, r.ev.code = code ∧ r.ev.source = source ∧ r.ev.time = time ∧ r.ev.data = data)

/-- The cell a message of a cell node comes from. -/
def cellOf (m : CellMsg) : Nat := 16 * m.ring.val + m.position.val

/-- The frame in flight on the active path that brings the message, where its slot was offered to the position and not taken (R204). -/
def slotOffered (o : Od) (d : Dev) (m : CellMsg) : Option Flight :=
  let r := m.ring.val
  if d.sec.scan then none else
  match (getPath d r (getRing d r).activePath).flights.find? (fun f => f.ftype == 1) with
  | none => none
  | some f =>
    let mine := match f.slots[m.slot.val]? with
      | some (.reserved q) => q == m.position.val
      | some (.message q _) => q == m.position.val
      | _ => false
    if f.lost || f.taken.contains m.slot.val || ringCells o r ≤ m.position.val || !mine then none else some f

/-- A message of an open epoch whose GRANT moves neither back nor beyond the cell's pool (R251, R255, R266). -/
def epochFits (t : Txn) (m : CellMsg) : Bool :=
  t.isOpen && t.epoch % 256 == m.epoch.toNat
    && decide ((m.grant.toNat + 65536 - t.newReqs % 65536) % 65536 ≤ t.cellPool)
    && decide ((m.grant.toNat + 65536 - t.peerGrant) % 65536 < 32768)

/-- A new request of the cell node within its credit (R255, R256). -/
def requestFits (t : Txn) (m : CellMsg) : Bool :=
  let ahead := (m.tag.toNat + 256 - t.high) % 256
  epochFits t m && decide (1 ≤ ahead ∧ ahead ≤ 128) && t.cellReqs % 65536 != t.grant % 65536

/-- A response that answers an outstanding request of a type as it should (R256, R260). -/
def answerFits (t : Txn) (req : Nat) (m : CellMsg) : Bool :=
  epochFits t m && match t.outstanding m.tag.toNat with
    | some r => answerOk r { mtype := answerType req, kind := 2, tag := m.tag.toNat, body := m.body }
    | none => false

/-- The object, value and transport of a row that is a write with a fixed object. -/
def namedWrite : Instr → Option (Via × Nat × Nat × Bytes)
  | .nmtStart (.host via) => some (via, 0x2002, 3, [0x01])
  | .nmtStop (.host via) => some (via, 0x2002, 3, [0x02])
  | .nmtEnterPreoperational (.host via) => some (via, 0x2002, 3, [0x80])
  | .nmtResetNode (.host via) => some (via, 0x2002, 3, [0x81])
  | .nmtResetCommunication (.host via) => some (via, 0x2002, 3, [0x82])
  | .storeSave via g => some (via, 0x1010, g.val + 1, toLE 4 0x65766173)
  | .restoreLoad via g => some (via, 0x1011, g.val + 1, toLE 4 0x64616F6C)
  | .checkpointNow via => some (via, 0x2540, 2, [1])
  | .accountReset via sel => some (via, 0x2541, 3, toLE 2 sel.toNat)
  | .bootConfirm via => some (via, 0x2210, 3, toLE 4 0x6E6F6366)
  | .domainStateWrite via m code y => if y = {} then some (via, 0x2100, m.val + 1, [code]) else none
  | .groupRequest via v => some (via, 0x2101, 1, toLE 2 v.toNat)
  | .keyWrite via k key => some (via, 0x2330, k.val + 2, key)
  | .loadBegin via => some (via, 0x2340, 1, toLE 4 0x6E65706F)
  | .loadData via chunk => some (via, 0x2340, 2, chunk)
  | .loadCommit via => some (via, 0x2340, 4, toLE 4 0x74696D63)
  | .secVersionRaise via => some (via, 0x2340, 7, toLE 4 0x73696172)
  | .controlPeriodWrite via v => some (via, 0x2413, 1, toLE 4 v.toNat)
  | .profileRunStart via p => some (via, 0x2412, 1, [p])
  | .profileRunHold via => some (via, 0x2412, 1, [0xFF])
  | .timeStepNow via => some (via, 0x2400, 5, toLE 4 0x70657473)
  | .manualRateWrite via v => some (via, 0x2401, 3, toLE 4 v.toNat)
  | .ringStart via r => some (via, 0x3180 + r.val, 4, toLE 4 0x74727473)
  | .ringStop via r => some (via, 0x3180 + r.val, 4, toLE 4 0x706F7473)
  | .pathSwap via r => some (via, 0x3180 + r.val, 6, toLE 4 0x70617773)
  | .cellRsyn via c => some (via, 0x3100 + c.val, 5, toLE 4 0x6E797372)
  | .cellLeav via c => some (via, 0x3100 + c.val, 5, toLE 4 0x7661656C)
  | .errantClear via c => some (via, 0x3480 + c.val, 1, [0, 0])
  | .stackStrt via => some (via, 0x3010, 1, toLE 4 0x74727473)
  | .stackConn via => some (via, 0x3010, 1, toLE 4 0x6E6E6F63)
  | .stackStop via => some (via, 0x3010, 1, toLE 4 0x706F7473)
  | .stackPark via => some (via, 0x3010, 1, toLE 4 0x6B726170)
  | .clearImplausible via c => some (via, 0x3209, 6, [c])
  | .bypassCell via c => some (via, 0x3308, 0x0A, [c])
  | .reinsertCell via c => some (via, 0x3308, 0x0B, [c])
  | .tripCommandTrip via => some (via, 0x3300, 1, toLE 4 0x70697274)
  | .tripCommandRlse via => some (via, 0x3300, 1, toLE 4 0x65736C72)
  | .ceEnab via n => some (via, ceIx n.val, 1, toLE 4 0x62616E65)
  | .ceDisa via n => some (via, ceIx n.val, 1, toLE 4 0x61736964)
  | .ceRset via n => some (via, ceIx n.val, 1, toLE 4 0x74657372)
  | .ceRsum via n => some (via, ceIx n.val, 1, toLE 4 0x6D757372)
  | .ceCommit via n => some (via, ceIx n.val, 0x15, toLE 4 0x74696D63)
  | .ceDimensionWrite via n which v => some (via, ceIx n.val, 3 + which.val, [v])
  | .swTrigger via n => some (via, adcIx n.val, 0x0D, [1])
  | .adcEnable via n => some (via, adcIx n.val, 1, [1])
  | .adcDisable via n => some (via, adcIx n.val, 1, [0])
  | .calStart via mask => some (via, 0x2610, 1, [mask])
  | .cmpThresholdWrite via n v => some (via, 0x2630 + n.val, 3, toLE 4 v.toNat)
  | .tsClear via sensor => some (via, 0x2661, 2, [sensor])
  | .arms via a => some (via, setIx a.val, 0x0B, toLE 4 0x736D7261)
  | .streamEnable via n => some (via, streamIx n.val, 1, [1])
  | .streamDisable via n => some (via, streamIx n.val, 1, [0])
  | .pairEnab via q => some (via, 0x4000 + q.val, 1, toLE 4 0x62616E65)
  | .pairDisa via q => some (via, 0x4000 + q.val, 1, toLE 4 0x61736964)
  | .pwmCommit via q => some (via, 0x4000 + q.val, 0x0D, toLE 4 0x74696D63)
  | .groupRelease via g => some (via, 0x4180 + g.val, 8, toLE 4 0x65736C72)
  | .bridgeClrf via k => some (via, 0x4200 + k.val, 1, toLE 4 0x66726C63)
  | .bridgeTest via k => some (via, 0x4200 + k.val, 1, toLE 4 0x74736574)
  | .axisEnab via n => some (via, axisIx n.val, 1, toLE 4 0x62616E65)
  | .axisEcat via n => some (via, axisIx n.val, 1, toLE 4 0x74616365)
  | .axisDisa via n => some (via, axisIx n.val, 1, toLE 4 0x61736964)
  | .axisDecl via n => some (via, axisIx n.val, 1, toLE 4 0x6C636564)
  | .axisClrf via n => some (via, axisIx n.val, 1, toLE 4 0x66726C63)
  | .chopEnab via => some (via, 0x4600, 1, toLE 4 0x62616E65)
  | .chopDisa via => some (via, 0x4600, 1, toLE 4 0x61736964)
  | .chopClrf via => some (via, 0x4600, 1, toLE 4 0x66726C63)
  | .pairClrf via n => some (via, 0x5010 + n.val, 3, toLE 4 0x66726C63)
  | .ccvConfirmedWrite via v => some (via, 0x5000, 3, toLE 4 v.toNat)
  | _ => none

/-- The units of the device whose state a frame statement names, and the objects of the host. -/
inductive Part
  | clk | doms | rails | aon | sched | seqr | breach | meas | time | sec | nv | prot | lcl | stack | ledger | mram | engine | acq
  | pwm | bridges | axes | ladder | isl | hvLatched | com | out | free | objects
deriving DecidableEq, Repr

/-- A unit is the same in two states. -/
def Part.same (p : Part) (s t : State) : Prop :=
  let a := s.dev
  let b := t.dev
  match p with
  | .clk => a.clk = b.clk | .doms => a.doms = b.doms | .rails => a.rails = b.rails | .aon => a.aon = b.aon
  | .sched => a.sched = b.sched | .seqr => a.seqr = b.seqr | .breach => a.breach = b.breach | .meas => a.meas = b.meas
  | .time => a.time = b.time | .sec => a.sec = b.sec | .nv => a.nv = b.nv | .prot => a.prot = b.prot | .lcl => a.lcl = b.lcl
  | .stack => a.stack = b.stack | .ledger => a.ledger = b.ledger | .mram => a.mram = b.mram | .engine => a.engine = b.engine
  | .acq => a.acq = b.acq | .pwm => a.pwm = b.pwm | .bridges => a.bridges = b.bridges | .axes => a.axes = b.axes
  | .ladder => a.ladder = b.ladder | .isl => a.isl = b.isl | .hvLatched => a.hvLatched = b.hvLatched | .com => a.com = b.com
  | .out => a.out = b.out | .free => a.free = b.free | .objects => s.od = t.od

/-- What a recorded event touches: the sequencer's records and the fault summary (R65 to R68). -/
def Part.records : List Part := [.seqr, .breach]

/-- What a command that comes at its instant touches besides its effect: the clock and the idle times (log entry 2). -/
def Part.passing : List Part := [.clk, .doms]

/-- What forcing switches reaches (R423, R424): channels, axes, chopper. -/
def Part.switches : List Part := [.pwm, .axes, .ladder]

/-- The session machinery and the protections its faults start (R247, R325). -/
def Part.cells : List Part := [.prot, .lcl, .stack]

/-- The units that a command's effect may change, by the spec's description of the command: its own unit, the records of its events,
the protections and the forcing of switches that it can start. Of a command that names more of its AON cycle nothing is said. A row of the host's transports may carry any object (`touchedByWrite`). -/
def touched (c : Instr) (p : Part) : Bool :=
  let passing := Part.passing ++ Part.records
  let within (l : List Part) : Bool := l.contains p
  let beside (l : List Part) : Bool := !l.contains p
  match c with
  -- the LCL: messages, sessions, rings
  | .hello _ | .challengeResp _ | .lockReport _ | .paramAck _ | .commitAck _ | .calData _ | .armAck _ | .leaveReq _
  | .nakStateReceived _ | .eventReport _ | .cellCreditReceived _ => within (Part.records ++ Part.cells ++ Part.switches ++ [.free])
  | .discoverInterval | .admitTimeout _ | .lockTimeout _ | .resyncTimeout _ | .reqTimeout _ | .requestLaunchTimeout _ =>
    within (Part.records ++ Part.cells ++ Part.switches)
  | .paramTimeout _ | .holdPresumption _ => within (passing ++ Part.cells ++ Part.switches)
  | .laneSyncLost _ _ | .faultOrderedSet _ _ => within (Part.records ++ [.prot, .lcl, .out] ++ Part.switches)
  | .returnDeadline _ _ => within (passing ++ Part.cells ++ Part.switches ++ [.ledger, .acq, .out, .free])
  | .admitBackoffEnd _ | .switchSuppressClear _ => within (Part.passing ++ [.lcl])
  | .delayFrameLaunch _ => within (Part.passing ++ [.lcl, .out])
  | .standbyFrameReturn _ _ _ _ | .delayFrameReturn _ _ _ _ _ => within (passing ++ [.lcl])
  | .nakRetryDelay _ | .grantHoldExpiry _ | .laneSyncGained _ _ => within [.lcl]
  | .creditBreach _ => within (Part.records ++ [.lcl])
  | .reconcileLimit _ => within (Part.records ++ [.lcl, .free])
  | .cyclicFrameReturn _ _ _ _ => within (passing ++ Part.cells ++ Part.switches ++ [.ledger, .acq, .free])
  | .frameBuildCutoff => within (passing ++ Part.cells ++ Part.switches ++ [.time, .free])
  -- the stack
  | .prechargeTimeout | .syncTimeout | .connectTimeout | .stopRampEnd | .reinsertTimeout _ => within (Part.passing ++ [.stack])
  | .lineRideThroughExpiry | .headroomTimeExpiry _ => within (passing ++ [.stack])
  | .stackUpdateComplete => within (Part.records ++ Part.cells ++ [.time, .engine, .free] ++ Part.switches)
  -- the control engine, the converters, comparators and sensors
  | .ceTrigger _ => within (Part.records ++ [.engine])
  | .ceComputeDone _ => within (Part.records ++ [.engine, .acq])
  | .ceCutoff _ => within (passing ++ [.engine, .acq])
  | .adcTrigger _ => within (passing ++ [.meas, .free])
  | .adcEntryResult _ _ => within (passing ++ [.meas, .ledger, .acq, .axes, .ladder, .free])
  | .adcCalComplete _ => within (passing ++ [.meas, .aon, .objects])
  | .comparatorCrossing _ _ => within (Part.records ++ [.meas, .prot, .acq] ++ Part.switches)
  | .cmpSettleEnd _ _ => within (passing ++ [.meas, .prot, .acq] ++ Part.switches)
  | .temperatureCycle _ => beside [.rails, .nv, .out]
  | .thermalRelease _ => within (passing ++ [.aon, .meas, .hvLatched])
  -- acquisition and PCIe
  | .captureInstant _ => within (passing ++ [.acq, .free])
  | .tailWrite _ _ | .descriptorFetchComplete _ _ => within (Part.records ++ [.acq, .out])
  | .recordToBuffer _ => within (Part.records ++ [.acq, .out, .free])
  | .flushTimeout _ => within (passing ++ [.acq, .out])
  | .irqTimeExpiry _ => within (Part.passing ++ [.acq, .out])
  | .msixUnmask _ | .barTimeLoRead => within [.acq, .out]
  | .streamRegisterWrite _ _ _ | .pciePerstNRelease => within [.acq]
  | .pciePerstNAssert | .pcieLinkDown | .pcieLinkUp _ _ | .pcieD3hot | .busMasterClear => within (Part.records ++ [.sec, .acq, .com])
  | .pcieConfigRequest _ _ _ => within (Part.records ++ [.sec, .acq, .com, .out])
  -- channels, bridges, axes, chopper
  | .pwmCutoff _ => within (passing ++ [.pwm, .ladder])
  | .pwmPeriodStart _ _ | .supplyHoldRelease | .decelStopComplete _ => within (passing ++ [.bridges] ++ Part.switches)
  | .faultPinEdge _ | .faultPinInactive _ => within (Part.records ++ Part.switches)
  | .ascDelayExpiry _ => within (Part.passing ++ [.pwm])
  | .autoRelease _ => within (passing ++ [.pwm])
  | .bridgeFault _ _ => within (Part.records ++ [.bridges] ++ Part.switches)
  | .retryWaitExpiry _ => within (Part.passing ++ [.bridges])
  | .selftestDone _ _ => within (Part.records ++ [.bridges])
  | .axisLoopSample _ => within (Part.records ++ [.free] ++ Part.switches)
  | .startRetryDelayExpiry _ => within (Part.passing ++ [.axes])
  | .startTimeout _ | .recatchDelayExpiry _ | .recatchTimeout _ => within (passing ++ [.axes])
  | .ladderStale => within (passing ++ [.axes, .ladder, .free])
  | .mechHoldExpiry => within (passing ++ [.ladder])
  -- the safety island
  | .safetyCopyArrival _ _ _ _ _ | .speedWindowEnd _ _ | .feedbackCheck _ _ | .ccvUpdate =>
    within (Part.records ++ [.isl] ++ Part.switches)
  | .connTimeout _ | .ss1TimeLimit _ => within (passing ++ [.isl] ++ Part.switches)
  | .statusPduSend _ => within [.isl, .out]
  | .compareWindowExpiry _ | .testPulseStart _ _ | .testPulseEnd _ _ => within (Part.passing ++ [.isl])
  | .timebaseCheckWindow _ => within (passing ++ [.prot, .isl] ++ Part.switches)
  -- time
  | .lockFilterCheckDone _ _ => within (Part.records ++ [.aon, .time])
  | .tblockDeclared _ _ => within (Part.records ++ [.clk, .aon, .sched, .meas, .time, .prot, .lcl] ++ Part.switches)
  | .tblockLost _ _ | .caslockDeclared _ _ | .caslockLost _ => within (Part.records ++ [.aon, .time, .prot] ++ Part.switches)
  | .ptpSync _ _ _ _ _ | .ptpFollowUp _ _ _ => within (Part.records ++ [.clk, .sched, .time, .lcl, .ledger])
  | .ptpAnnounce _ _ | .ethLinkChange _ _ => within (Part.records ++ [.time])
  | .ptpDelayResp _ _ _ _ => within [.time]
  | .ptpMasterLost _ => within (passing ++ [.time])
  | .rateSlewStep => within (Part.passing ++ [.time])
  | .ptpDelayReqTimer => within (Part.passing ++ [.time, .out])
  | .arpReceived _ _ _ _ _ => within [.time, .out]
  | .pdelayReqReceived _ | .icmpEcho _ _ _ _ => within [.out]
  -- security
  | .debugAttach | .scanTakeoverStart _ | .scanTakeoverEnd _ => within (Part.records ++ [.sec, .isl, .free] ++ Part.cells ++ Part.switches)
  | .dbgChallengeCapture => within (Part.records ++ [.sec, .isl, .out, .free] ++ Part.cells ++ Part.switches)
  | .dbgResponseUpdate _ => within (Part.records ++ [.aon, .sec, .isl, .free] ++ Part.cells ++ Part.switches)
  | .debugLockoutEnd => within (passing ++ [.aon, .sec, .isl, .prot] ++ Part.switches)
  | .tapReset => within (Part.records ++ [.sec, .isl, .prot] ++ Part.switches)
  | .debugNonceExpiry | .commNonceExpiry _ => within (Part.passing ++ [.sec])
  | .commTimeout => within (passing ++ [.sec])
  | .commLockoutEnd => within (Part.passing ++ [.aon])
  | .boundaryScanUpdateDr _ => within [.sec, .out, .free]
  -- supplies, resets, domains
  | .vaonPowerOn | .supplyLost _ _ => true
  | .supplyRestored _ => beside [.nv, .hvLatched, .out, .free]
  | .domainTransitionComplete _ _ _ _ => beside [.hvLatched]
  | .sequencerDomainRequest => beside [.nv, .hvLatched, .out, .free, .objects]
  | .groupStep y | .idleTimeExpiry _ y => y != {} || beside [.rails, .nv, .hvLatched, .out, .free, .objects]
  | .porstNAssert | .resetNAssert | .watchdog _ | .debugReset => beside [.rails, .nv, .hvLatched, .out, .free]
  | .porstNRelease | .resetNRelease => within (Part.records ++ [.aon, .sec, .prot, .isl] ++ Part.switches)
  | .resetNLimitExpiry _ | .warmResetRelease => within (passing ++ [.aon, .sec, .prot, .isl] ++ Part.switches)
  | .sequenceViolation _ _ => within (Part.records ++ [.rails])
  | .bootDomainFailed => within (passing ++ [.rails, .aon])
  | .resetNRearmed | .tblockDeclareTimeout | .rtcAlarm => within (passing ++ [.aon])
  | .wake _ y => y != {} || within (Part.records ++ [.aon, .free])
  -- communication and the ledger
  | .udpSessionIdleTimeout _ => within (passing ++ [.sec, .com])
  | .rpdoTimeout _ => within (Part.passing ++ [.com])
  | .tpdoChangeTransmit _ | .tpdoEventTimer _ => within (Part.passing ++ [.com, .out, .free])
  | .heartbeatProducerTimer => within (Part.passing ++ [.com, .out])
  | .emcySend => within [.seqr, .out, .free]
  | .configStoreComplete _ => within (Part.records ++ [.aon, .sec, .nv, .acq, .com, .out, .free])
  | .sequencerWindowClose => within (passing ++ [.prot, .acq, .free])
  | .ledgerUnaccountedSecond _ => within (Part.records ++ [.ledger])
  | .ledgerCheckpointInterval => within (Part.passing ++ [.ledger, .mram])
  | .ledgerCheckpointDone => within [.ledger, .mram]
  -- requests of hosts, and what runs with a period start
  | .sdoUpload _ _ _ => beside [.rails, .nv, .hvLatched]
  | .transferTimeout _ => beside [.rails, .nv, .hvLatched, .free]
  | .domainStateWrite _ _ _ y => y != {} || beside [.rails, .hvLatched]
  | .sdoDownload _ _ _ | .rpdoReceived _ _ => beside [.rails, .hvLatched]
  | .odRead _ _ | .odWrite _ _ | .keepalive _ | .close _ | .mailboxOwnerSet _ _ _
  | .nmtStart _ | .nmtStop _ | .nmtEnterPreoperational _ | .nmtResetNode _ | .nmtResetCommunication _
  | .storeSave _ _ | .restoreLoad _ _ | .checkpointNow _ | .accountReset _ _ | .deviceReset _ | .bootConfirm _
  | .groupRequest _ _ | .lifecycleLock _ _ _ | .lifecycleSeal _ _ _ | .keyWrite _ _ _
  | .commChallenge _ | .commResponse _ _ _ | .commEnd _ | .commStatus _
  | .loadBegin _ | .loadData _ _ | .loadCommit _ | .secVersionRaise _ | .controlPeriodWrite _ _ | .periodStart
  | .profileRunStart _ _ | .profileRunHold _ | .timeStepNow _ | .manualRateWrite _ _
  | .ringStart _ _ | .ringStop _ _ | .pathSwap _ _ | .cellRsyn _ _ | .cellLeav _ _ | .errantClear _ _
  | .stackStrt _ | .stackConn _ | .stackStop _ | .stackPark _ | .clearImplausible _ _ | .bypassCell _ _ | .reinsertCell _ _
  | .tripCommandTrip _ | .tripCommandRlse _ | .ceEnab _ _ | .ceDisa _ _ | .ceRset _ _ | .ceRsum _ _ | .ceCommit _ _
  | .ceDimensionWrite _ _ _ _ | .swTrigger _ _ | .adcEnable _ _ | .adcDisable _ _ | .calStart _ _ | .cmpThresholdWrite _ _ _
  | .tsClear _ _ | .arms _ _ | .streamEnable _ _ | .streamDisable _ _ | .pairEnab _ _ | .pairDisa _ _ | .pwmCommit _ _
  | .groupRelease _ _ | .bridgeClrf _ _ | .bridgeTest _ _ | .axisEnab _ _ | .axisEcat _ _ | .axisDisa _ _ | .axisDecl _ _
  | .axisClrf _ _ | .chopEnab _ | .chopDisa _ | .chopClrf _ | .pairClrf _ _ | .ccvConfirmedWrite _ _ =>
    beside [.rails, .hvLatched]

/-- The units that a write of an object may change, besides the objects: by the ranges of the object index. -/
def touchedByWrite (ix : Nat) (p : Part) : Bool :=
  let within (l : List Part) : Bool := p == .objects || (Part.records ++ l).contains p
  if ix ≤ 0x2010 then within [.com, .nv, .sec]
  else if ix < 0x2300 then !([.rails, .hvLatched, .out, .free] : List Part).contains p
  else if ix < 0x2400 then within [.aon, .nv, .sec]
  else if ix < 0x2500 then within [.lcl, .sched, .time]
  else if ix < 0x2600 then within [.ledger, .mram]
  else if ix < 0x2700 then within [.meas, .aon, .free]
  else if ix < 0x2800 then within [.acq, .out]
  else if ix < 0x2810 then within []
  else if ix < 0x2820 then within [.engine]
  else if 0x3000 ≤ ix ∧ ix < 0x3400 ∨ 0x3480 ≤ ix ∧ ix ≤ 0x34FF then within ([.engine] ++ Part.cells ++ Part.switches)
  else if 0x4000 ≤ ix ∧ ix < 0x4580 ∨ ix = 0x4600 then within ([.bridges] ++ Part.switches)
  else if 0x5000 ≤ ix ∧ ix ≤ 0x58FF then within ([.isl] ++ Part.switches)
  else within []

end Sys2Proof.Machine
end

