-- ==== Sys2Proof/Certificates/Slice0/Obligations.lean ====
section
/-! DEFINITION. The statements for the provers. `Completes c s P` says that the command answers a next state and that `P` holds of it;
`accepted`, `writeSeen` and `requestSeen` say when a host's request is executed. Where a statement follows a reading that the log marks
as the model's choice, its docstring names the entry. -/
open Sys2Proof Sys2Proof.Machine

/-- R35: a READ of a readable object is answered with its bytes, and changes no object. OD_READ by every transport, SDO_UPLOAD's initiate. -/
def Obligations.ReadAnswersValue : Prop :=
  (∀ (via : Via) (m : OdMsg) (s t : State) (n : Nat),
    requestSeen false via 1 m s = some (n, t) → (getSession t.dev n).owed = false →
    (m.index, m.sub) ≠ (0x2320, 1) →
    readCheck t (some n) m.index.toNat m.sub.toNat = none →
    (readValue t (some n) m.index.toNat m.sub.toNat).length ≤ 1024 →
    Completes (.odRead via m) s (fun u => u.od = s.od ∧
      answerOf via n 1 m { last := true, total := (readValue t (some n) m.index.toNat m.sub.toNat).length
                           payload := readValue t (some n) m.index.toNat m.sub.toNat } ∈ u.dev.out)) ∧
  (∀ (c : Fin 2) (k : Fin 4) (index : BitVec 16) (sub : BitVec 8) (s : State),
    let n := 4 * c.val + k.val
    let t := abandon n (sdoTouch n s)
    sdoServes s.dev c.val k.val = true → (getSession t.dev n).owed = false → (index, sub) ≠ (0x2320, 1) →
    readCheck t (some n) index.toNat sub.toNat = none →
    (readValue t (some n) index.toNat sub.toNat).length ≤ 4 →
    Completes (.sdoUpload c k (.initiate index sub)) s (fun u => u.od = s.od ∧
      Output.sdo n index.toNat sub.toNat none (readValue t (some n) index.toNat sub.toNat) ∈ u.dev.out)) ∧
  (∀ (c : Fin 2) (k : Fin 4) (toggle : Bool) (s : State) (x : Transfer),
    let n := 4 * c.val + k.val
    sdoServes s.dev c.val k.val = true → (getSession s.dev n).owed = false →
    (getSession s.dev n).transfer = some x → x.write = false → x.toggle = toggle →
    Completes (.sdoUpload c k (.segment toggle)) s (fun u => u.od = s.od ∧
      Output.sdo n x.ix x.sub none (slice x.data x.pos (min 7 (x.total - x.pos))) ∈ u.dev.out))

/-- R35, R41: an accepted write has its effect at one point: the state after it is the one the write gives, but for the
communication with hosts. OD_WRITE of a whole value by every transport, SDO_DOWNLOAD expedited and at its last segment; a segment before
the last changes no object; the LCL's parameters and sets (0x3400 to 0x347F) then hold the value written. What a device reset and NET's
leaving ON do comes after the answer: PinlessResetsAct and DomainsChangeState say it of them. -/
def Obligations.WriteTakesEffect : Prop :=
  (∀ (via : Via) (m : OdMsg) (s t : State) (n : Nat),
    requestSeen false via 2 m s = some (n, t) → m.total.toNat = m.payload.length →
    0x3400 ≤ m.index.toNat → m.index.toNat < 0x3480 → writeCheck t (some n) m.index.toNat m.sub.toNat m.payload = none →
    Completes (.odWrite via m) s (fun u => u.od = odSet s.od m.index.toNat m.sub.toNat m.payload ∧ agreeButCom u.dev t.dev ∧
      (m.payload ≠ [] → odGet u.od m.index.toNat m.sub.toNat = m.payload))) ∧
  (∀ (c : Fin 2) (k : Fin 4) (index : BitVec 16) (sub : BitVec 8) (b : Bytes) (s : State),
    let n := 4 * c.val + k.val
    let t := abandon n (sdoTouch n s)
    sdoServes s.dev c.val k.val = true → 0x3400 ≤ index.toNat → index.toNat < 0x3480 →
    writeCheck t (some n) index.toNat sub.toNat b = none →
    Completes (.sdoDownload c k (.expedited index sub b)) s (fun u => u.od = odSet s.od index.toNat sub.toNat b ∧
      agreeButCom u.dev t.dev ∧ (b ≠ [] → odGet u.od index.toNat sub.toNat = b) ∧
      ((getSession s.dev n).owed = false → Output.sdo n index.toNat sub.toNat none [] ∈ u.dev.out))) ∧
  (∀ (c : Fin 2) (k : Fin 4) (index : BitVec 16) (sub : BitVec 8) (total : BitVec 32) (s : State),
    let n := 4 * c.val + k.val
    sdoServes s.dev c.val k.val = true → total.toNat ≤ 65536 → transfersOpen (abandon n (sdoTouch n s)).dev < 8 →
    Completes (.sdoDownload c k (.initiate index sub total)) s (fun u => u.od = s.od ∧ ∃ x, (getSession u.dev n).transfer = some x ∧
      x.write = true ∧ x.ix = index.toNat ∧ x.sub = sub.toNat ∧ x.total = total.toNat ∧ x.data = [] ∧ x.last = s.dev.clk.run)) ∧
  (∀ (c : Fin 2) (k : Fin 4) (toggle : Bool) (b : Bytes) (s : State) (x : Transfer),
    let n := 4 * c.val + k.val
    sdoServes s.dev c.val k.val = true → (getSession s.dev n).transfer = some x → x.write = true → x.toggle = toggle → b.length ≤ 7 →
    (x.data ++ b).length ≤ x.total →
    Completes (.sdoDownload c k (.segment toggle false b)) s (fun u => u.od = s.od ∧ (getSession u.dev n).transfer =
      some { x with data := x.data ++ b, pos := (x.data ++ b).length, toggle := !x.toggle, last := s.dev.clk.run })) ∧
  (∀ (via : Via) (m : OdMsg) (s t u : State) (n : Nat),
    requestSeen false via 2 m s = some (n, t) → m.total.toNat = m.payload.length → m.index ≠ 0x2202 → (m.index, m.sub) ≠ (0x2100, 3) →
    writeObject (some n) m.index.toNat m.sub.toNat m.payload t = (none, u) →
    Completes (.odWrite via m) s (fun r => r.od = u.od ∧ agreeButCom r.dev u.dev)) ∧
  (∀ (c : Fin 2) (k : Fin 4) (index : BitVec 16) (sub : BitVec 8) (b : Bytes) (s u : State),
    let n := 4 * c.val + k.val
    sdoServes s.dev c.val k.val = true → index ≠ 0x2202 → (index, sub) ≠ (0x2100, 3) →
    writeObject (some n) index.toNat sub.toNat b (abandon n (sdoTouch n s)) = (none, u) →
    Completes (.sdoDownload c k (.expedited index sub b)) s (fun r => r.od = u.od ∧ agreeButCom r.dev u.dev)) ∧
  (∀ (c : Fin 2) (k : Fin 4) (toggle : Bool) (b : Bytes) (s u : State) (x : Transfer),
    let n := 4 * c.val + k.val
    sdoServes s.dev c.val k.val = true → x.ix ≠ 0x2202 → (x.ix, x.sub) ≠ (0x2100, 3) →
    (getSession s.dev n).transfer = some x → x.write = true → x.toggle = toggle → b.length ≤ 7 →
    (x.data ++ b).length = x.total →
    writeObject (some n) x.ix x.sub (x.data ++ b) (setTransfer n none (sdoTouch n s)) = (none, u) →
    Completes (.sdoDownload c k (.segment toggle true b)) s (fun r => r.od = u.od ∧ agreeButCom r.dev u.dev))

/-- R47, R40, R44, R43: KEEPALIVE is answered, CLOSE and 10 s without a request close a session, a transfer without a segment for more than 1 s ends. -/
def Obligations.SessionsLiveAndEnd : Prop :=
  (∀ (via : Via) (s t : State) (n : Nat),
    requestSeen false via 3 (serviceMsg []) s = some (n, t) → (getSession t.dev n).owed = false →
    (∀ c k, via ≠ .can c k) →
    Completes (.keepalive via) s (fun u => answerOf via n 3 (serviceMsg []) {} ∈ u.dev.out ∧ u.od = s.od)) ∧
  (∀ (mac : Fin 2) (ip : BitVec 32) (port seq : BitVec 16) (s t : State) (n : Nat),
    requestSeen false (.udp mac ip port seq) 4 (serviceMsg []) s = some (n, t) → (getSession t.dev n).owed = false →
    Completes (.close (.udp mac ip port seq)) s (fun u => (getSession u.dev n).kind = .free)) ∧
  (∀ (slot : Fin 4) (s t : State) (n : Nat),
    requestSeen false (.mailbox slot) 4 (serviceMsg []) s = some (n, t) → (getSession t.dev n).owed = false →
    Completes (.close (.mailbox slot)) s (fun u => (getSession u.dev n).transfer = none ∧ u.dev.sec.holder ≠ some n)) ∧
  (∀ (n : Fin 64) (s : State), (getSession s.dev n.val).kind = .udp →
    Completes (.udpSessionIdleTimeout n) s (fun u => (getSession u.dev n.val).kind = .free)) ∧
  (∀ (n : Fin 64) (s : State), (getSession s.dev n.val).transfer.isSome = true →
    Completes (.transferTimeout n) s (fun u => (getSession u.dev n.val).transfer = none ∧ u.od = s.od)) ∧
  (∀ (slot : Fin 4) (s : State) (message : Bytes),
    s.dev.isOn .net = true → (getSession s.dev (8 + slot.val)).kind = .mailbox → (vget s.dev.com.slots slot.val).owner = false →
    (getSession s.dev (8 + slot.val)).owed = false → message = messageBytes 3 0 0 0 0 0 0 [] →
    Completes (.mailboxOwnerSet slot 20 message) s (fun u =>
      (vget u.dev.com.slots slot.val).owner = false ∧ (vget u.dev.com.slots slot.val).message = messageBytes 0x83 0 0 0 0 0 0 []))

/-- R45: what the NMT commands of a bus do to the NMT state, for all nodes and for this one; by 0x2002:03 as well. -/
def Obligations.NmtCommandsSetState : Prop :=
  ∀ (s : State) (src : NmtSrc),
    (∀ code ∈ [0x01, 0x02, 0x80, 0x81, 0x82], match src with
      | .bus _ node => s.dev.isOn .net = true ∧ canLine s.dev = true ∧ (node = 0 ∨ node.toNat = s.dev.com.nodeId)
      | .host via => accepted via 0x2002 3 [BitVec.ofNat 8 code] s = true) →
    Completes (.nmtStart src) s (fun u => u.dev.com.nmt = .operational ∧ u.od = s.od) ∧
    Completes (.nmtStop src) s (fun u => u.dev.com.nmt = .stopped ∧ u.od = s.od) ∧
    Completes (.nmtEnterPreoperational src) s (fun u => u.dev.com.nmt = .preOperational ∧ u.od = s.od) ∧
    Completes (.nmtResetNode src) s (fun u => u.dev.com.nmt = .preOperational ∧ u.dev.com.nodeId = odU u.od 0x2002 1) ∧
    Completes (.nmtResetCommunication src) s (fun u => u.dev.com.nmt = .preOperational ∧ u.dev.com.nodeId = odU u.od 0x2002 1)

/-- R52, R53: an RPDO is held for the next period start or applied at once; its event timer sets TIMEOUT. -/
def Obligations.RpdosTakeFramesAndTimeOut : Prop :=
  (∀ (src : PdoSrc) (data b : Bytes) (s : State) (n : Nat), n < 32 →
    pdoRuns s.dev = true → pdoHeard src s.dev = true → pdoTargets s.od src data = ([n], b) →
    1 ≤ transmissionType s.od (0x1400 + n) → transmissionType s.od (0x1400 + n) ≤ 240 →
    Completes (.rpdoReceived src data) s (fun u => (vget u.dev.com.rpdos n).held = some b ∧
      (vget u.dev.com.rpdos n).lastReceived = s.dev.clk.run ∧ u.od = s.od)) ∧
  (∀ (src : PdoSrc) (data b : Bytes) (s r : State) (n : Nat), n < 32 →
    pdoRuns s.dev = true → pdoHeard src s.dev = true → pdoTargets s.od src data = ([n], b) → 240 < transmissionType s.od (0x1400 + n) →
    writeMapped (mapped s.od (0x1600 + n)) b (devTo (fun d => { netBusy d with com := { d.com with
      rpdos := vmod d.com.rpdos n (fun x => { x with lastReceived := d.clk.run }) } }) s) = some r →
    Completes (.rpdoReceived src data) s (fun u => u.od = r.od ∧ u.dev = r.dev)) ∧
  (∀ (n : Fin 32) (s : State), pdoRuns s.dev = true → pdoValid s.od (0x1400 + n.val) = true → odU s.od (0x1400 + n.val) 5 ≠ 0 →
    Completes (.rpdoTimeout n) s (fun u => (vget u.dev.com.rpdos n.val).status.testBit 15 = true ∧ u.od = s.od))

/-- R52, R45, R46: TPDOs by change and by timer, the heartbeat, EMCY: what is sent, and what the sending notes. Where the pads have
their supplies. -/
def Obligations.DeviceSendsOnCan : Prop :=
  let sentOn (n : Nat) (w u : State) : Prop := u.od = w.od ∧ (vget u.dev.com.tpdos n).lastData = tpdoData n w ∧
    (vget u.dev.com.tpdos n).lastSent = w.dev.clk.run ∧
    (tpdoTransport w.od n ≤ 1 → canLine w.dev = true →
      u.dev.out = w.dev.out ++ [Output.can (tpdoTransport w.od n) (odU w.od (0x1800 + n) 1 % 2 ^ 29) (tpdoData n w)]) ∧
    (∀ m : Fin 2, tpdoTransport w.od n = 0x10 + m.val → ethLine w.dev = true →
      u.dev.out = w.dev.out ++ [Output.eth m.val (odGet w.od 0x1FE2 1)
        (pdoFrame (odU w.od (0x1800 + n) 1) (vget w.dev.com.tpdos n).count w.dev.clk.dt (tpdoData n w))])
  (∀ (n : Fin 32) (s : State), tpdoOf n.val 0xFE s = true →
    let w := s.upTo (tpdoDue n.val 0xFE (usT (100 * odU s.od (0x1800 + n.val) 3)) )
    tpdoData n.val w ≠ (vget s.dev.com.tpdos n.val).lastData →
    Completes (.tpdoChangeTransmit n) s (fun u => sentOn n.val w u)) ∧
  (∀ (n : Fin 32) (s : State), tpdoOf n.val 0xFF s = true → odU s.od (0x1800 + n.val) 5 ≠ 0 →
    let w := s.upTo (tpdoDue n.val 0xFF (msT (odU s.od (0x1800 + n.val) 5)))
    Completes (.tpdoEventTimer n) s (fun u => sentOn n.val w u)) ∧
  (∀ (s : State), s.dev.isOn .net = true → canLine s.dev = true → odU s.od 0x1017 0 ≠ 0 →
    Completes .heartbeatProducerTimer s (fun u => u.dev.com.heartbeatLast = u.dev.clk.run ∧
      Output.can 0 (0x700 + s.dev.com.nodeId) [b8 s.dev.com.nmt.code] ∈ u.dev.out ∧
      Output.can 1 (0x700 + s.dev.com.nodeId) [b8 s.dev.com.nmt.code] ∈ u.dev.out)) ∧
  (∀ (s : State) (r : Record) (rest : List Record), s.dev.isOn .net = true → canLine s.dev = true → s.dev.com.nmt ≠ .stopped →
    s.dev.seqr.emcy = r :: rest →
    Completes .emcySend s (fun u => u.dev.seqr.emcy = rest ∧ u.od = s.od ∧
      ∀ c ∈ setBits 2 (odU s.od 0x1FE4 2), Output.can c (0x080 + s.dev.com.nodeId)
        ([0x00, 0xFF, b8 (errorReg s.dev)] ++ List.replicate 13 0 ++ padTo 32 (eventBytes r)) ∈ u.dev.out))

/-- R39, R37: a store or restore begins with a bank that is not valid until it is complete; then it is the current one. -/
def Obligations.StoresBeginAndComplete : Prop :=
  (∀ (via : Via) (g : Fin 4) (s : State), accepted via 0x1010 (g.val + 1) (toLE 4 0x65766173) s = true →
    Completes (.storeSave via g) s (fun u => u.od = s.od ∧
      ∃ op, u.dev.com.store = some op ∧ some op.bank ≠ u.dev.sec.bank ∧ (vget u.dev.nv.banks op.bank).valid = false)) ∧
  (∀ (via : Via) (g : Fin 4) (s : State), accepted via 0x1011 (g.val + 1) (toLE 4 0x64616F6C) s = true →
    Completes (.restoreLoad via g) s (fun u => u.od = s.od ∧
      ∃ op, u.dev.com.store = some op ∧ some op.bank ≠ u.dev.sec.bank ∧ (vget u.dev.nv.banks op.bank).valid = false)) ∧
  (∀ (ok : Bool) (s : State) (op : StoreOp), s.dev.com.store = some op → op.bank < 2 →
    Completes (.configStoreComplete ok) s (fun u => u.dev.com.store = none ∧ u.od = s.od ∧
      (ok = true → u.dev.sec.bank = some op.bank ∧ (vget u.dev.nv.banks op.bank).contents = op.contents ∧
        (vget u.dev.nv.banks op.bank).valid = true) ∧
      (ok = false → u.dev.sec.bank = s.dev.sec.bank)))

/-- R67, R63: the window of the sequencer closes; a failed sum of the device's own terms closes the epoch. -/
def Obligations.SequencerAndCreditAct : Prop :=
  (∀ (s : State) (e : Event) (rest : List Event), s.dev.isOn .sec = true → s.dev.clk.counting = true → s.dev.seqr.held = e :: rest →
    let w := (s.upTo windowDue).dev
    (∀ x ∈ (releaseDue s.od w).seqr.held, w.clk.dt < x.time + 2 * period s.od) ∧ e ∉ (releaseDue s.od w).seqr.held ∧
    Completes .sequencerWindowClose s (fun u => u.od = s.od ∧ u.dev = stageAllEvents s.od (firstFault s.od (releaseDue s.od w)))) ∧
  (∀ (c : Fin 128) (s : State), s.dev.isOn .link = true → (getCell s.dev c.val).txn.isOpen = true →
    Completes (.creditBreach c) s (fun u => u.dev.breach.summary.testBit 2 = true ∧ (getCell u.dev c.val).txn.isOpen = false ∧
      u.dev.breach.credit = satInc s.dev.breach.credit))

/-- R74, R75, R77: the ledger's gaps, checkpoints and resets. -/
def Obligations.LedgerKeepsItsAccounts : Prop :=
  (∀ (i : Fin 133) (s : State) (start cause len secs : Nat), s.dev.isOn .ctrl = true →
    (vget s.dev.ledger.accounts i.val).gap = some (start, cause, len, secs) → secT (secs + 1) ≤ len →
    Completes (.ledgerUnaccountedSecond i) s (fun u =>
      (vget u.dev.ledger.accounts i.val).gap = some (start, cause, len, secs + 1) ∧
      (vget u.dev.ledger.accounts i.val).qIn = (vget s.dev.ledger.accounts i.val).qIn ∧
      (vget u.dev.ledger.accounts i.val).intervals = (if secs = 0 then satInc (vget s.dev.ledger.accounts i.val).intervals
        else (vget s.dev.ledger.accounts i.val).intervals) ∧ u.od = s.od ∧
      (s.dev.isOn .sec = true → recorded 0x0520 start (accountSrc i.val)
        (padTo 16 (toLE 2 (accountSel i.val) ++ [b8 cause, 0, 0, 0, 0, 0] ++ toLE 8 (secT (secs + 1)))) u.dev))) ∧
  (∀ (s : State), s.dev.isOn .ctrl = true → s.dev.clk.counting = true → s.dev.ledger.resume = .no → s.dev.ledger.writing = none →
    Completes .ledgerCheckpointInterval s (fun u => u.dev.ledger.timer = u.dev.clk.dt ∧
      s.dev.ledger.timer + secT (odU s.od 0x2540 1) ≤ u.dev.clk.dt ∧ u.od = s.od ∧
      u.dev.ledger.writing = some (checkpointNow s.dev) ∧ (vget u.dev.mram (checkpointNow s.dev).2).valid = false)) ∧
  (∀ (via : Via) (s : State), accepted via 0x2540 2 [1] s = true → s.dev.ledger.resume = .no →
    Completes (.checkpointNow via) s (fun u => u.dev.ledger.writing.isSome = true)) ∧
  (∀ (s : State) (c : Checkpoint) (slot : Nat), s.dev.ledger.writing = some (c, slot) → slot < 16 →
    Completes .ledgerCheckpointDone s (fun u => u.dev.ledger.writing = none ∧ vget u.dev.mram slot = c ∧
      u.dev.ledger.lastCheckpoint = c.periodEnd)) ∧
  (∀ (via : Via) (sel : BitVec 16) (s : State) (i : Nat), accepted via 0x2541 3 (toLE 2 sel.toNat) s = true → accountIx sel.toNat = some i →
    Completes (.accountReset via sel) s (fun u =>
      (vget u.dev.ledger.accounts i).qIn = 0 ∧ (vget u.dev.ledger.accounts i).qOut = 0))

/-- R99, R100, R101, R98: rails come and go, in and out of order. -/
def Obligations.RailsComeAndGo : Prop :=
  (∀ s : State, vget s.dev.rails.ok 0 = false →
    Completes .vaonPowerOn s (fun u => vget u.dev.rails.ok 0 = true ∧ u.od = [] ∧ u.dev.aon.reset.scope = .whole ∧
      u.dev.aon.reset.cause = 1 ∧ u.dev.aon.reset.porst = true)) ∧
  (∀ (r : Fin 9) (y : AonCycle) (s : State), y.asks = [] → y.step = false → y.idle = [] →
    Completes (.supplyLost r y) s (fun u => ∀ x ∈ r :: y.lost, vget u.dev.rails.ok x.val = false)) ∧
  (∀ (m : Domain) (r : Fin 9) (s : State), s.dev.isOn m = true → r.val ≠ 0 → vget s.dev.rails.ok r.val = true → m ∈ railDomains r.val →
    Completes (.supplyLost r {}) s (fun u => u.dev.isOn m = false)) ∧
  (∀ (r : Fin 9) (s : State), r.val ≠ 0 → vget s.dev.rails.ok 0 = true → vget s.dev.rails.ok r.val = false →
    Completes (.supplyRestored r) s (fun u => vget u.dev.rails.ok r.val = true ∧ vget u.dev.rails.lost r.val = false)) ∧
  (∀ (r f : Fin 9) (s : State), mustFollow r.val f.val = true → vget s.dev.rails.ok f.val = false → aonRecords s.dev = true →
    Completes (.sequenceViolation r f) s (fun u => (r.val, f.val) ∈ u.dev.rails.early ∧ u.od = s.od)) ∧
  (∀ (tauTb tauCas : BitVec 32) (s : State), s.dev.isOn .meas = true → s.dev.time.tb.checked = false →
    Completes (.lockFilterCheckDone tauTb tauCas) s (fun u => u.od = s.od ∧ u.dev.time.tb.tau = tauTb.toNat ∧
      (u.dev.time.tb.marked = true ↔ tauTb.toNat < 3000 ∨ 7000 < tauTb.toNat) ∧ u.dev.time.cas.tau = tauCas.toNat ∧
      (u.dev.time.cas.marked = true ↔ tauCas.toNat < 3000 ∨ 7000 < tauCas.toNat)))

/-- R106, R109, R110, R112: the reset pins and their limit; a rise in the cycle of the limit wins. R83: in a reset every powered output has
its reset level. -/
def Obligations.ResetPinsAct : Prop :=
  (∀ s : State, vget s.dev.rails.ok 0 = true → s.dev.aon.reset.porst = false → s.dev.aon.reset.scope = .none →
    Completes .porstNAssert s (fun u => u.dev.aon.reset.scope = .whole ∧ u.dev.aon.reset.cause = 2 ∧ u.dev.aon.reset.supEn = true)) ∧
  (∀ s : State, vget s.dev.rails.ok 0 = true → s.dev.aon.reset.porst = true → s.dev.aon.reset.scope ≠ .none →
    s.dev.aon.reset.byPin = false → s.dev.aon.reset.pinless = none →
    Completes .porstNRelease s (fun u => u.dev.aon.reset.porst = false ∧ u.dev.aon.reset.scope = .none ∧ u.dev.aon.reset.supEn = true)) ∧
  (∀ s : State, vget s.dev.rails.ok 0 = true → s.dev.aon.reset.porst = false → s.dev.aon.reset.resetN = false →
    s.dev.aon.reset.masked = false → s.dev.aon.reset.scope = .none →
    Completes .resetNAssert s (fun u => u.dev.aon.reset.byPin = true ∧ u.dev.aon.reset.scope = .warm ∧ u.dev.aon.reset.cause = 3)) ∧
  (∀ s : State, vget s.dev.rails.ok 0 = true → s.dev.aon.reset.porst = false → s.dev.aon.reset.resetN = true →
    Completes .resetNRelease s (fun u => u.dev.aon.reset.resetN = false ∧ u.dev.aon.reset.byPin = false)) ∧
  (∀ s : State, vget s.dev.rails.ok 0 = true → s.dev.aon.reset.porst = false → s.dev.aon.reset.resetN = true →
    Completes (.resetNLimitExpiry true) s (fun u => u.dev.aon.reset.resetN = false ∧ u.dev.aon.reset.byPin = false ∧
      u.dev.aon.reset.stuck = s.dev.aon.reset.stuck ∧ u.dev.aon.reset.cause = s.dev.aon.reset.cause)) ∧
  (∀ s : State, s.dev.aon.reset.resetN = true → s.dev.aon.reset.byPin = true → s.dev.aon.reset.porst = false →
    s.dev.aon.reset.limitDone = false →
    Completes (.resetNLimitExpiry false) s (fun u => u.dev.aon.reset.stuck = true ∧ u.dev.aon.reset.limitDone = true ∧
      (odU s.od 0x2201 3 ≠ 1 → u.dev.aon.reset.masked = true ∧ u.dev.aon.reset.byPin = false))) ∧
  (∀ s : State, s.dev.aon.reset.masked = true → s.dev.aon.reset.resetN = false → s.dev.aon.reset.porst = false →
    Completes .resetNRearmed s (fun u => u.dev.aon.reset.masked = false ∧ u.od = s.od)) ∧
  (∀ (s : State) (p : Pin), s.dev.aon.reset.scope ≠ .none → vget s.dev.rails.ok 0 = true → vget s.dev.rails.ok p.rail = true →
    pinLevel s.od s.dev p = p.resetLevel s.dev)

/-- R103, R112, R113: resets that no pin causes; each is the cause of a warm reset, which ends when its hold is over. -/
def Obligations.PinlessResetsAct : Prop :=
  (∀ (core : Fin 4) (s : State), s.dev.isOn (domainOfCore core.val) = true → s.dev.aon.reset.scope = .none →
    Completes (.watchdog core) s (fun u => u.dev.aon.reset.scope = .warm ∧ u.dev.aon.reset.cause = 6)) ∧
  (∀ (via : Via) (s : State), accepted via 0x2202 1 (toLE 4 0x74657372) s = true → s.dev.aon.reset.scope = .none →
    Completes (.deviceReset via) s (fun u => u.dev.aon.reset.scope = .warm ∧ u.dev.aon.reset.cause = 5)) ∧
  (∀ s : State, s.dev.isOn .sec = true → s.dev.sec.debug = .attached → s.dev.sec.lifecycle ≠ 2 → s.dev.aon.reset.scope = .none →
    Completes .debugReset s (fun u => u.dev.aon.reset.scope = .warm ∧ u.dev.aon.reset.cause = 7)) ∧
  (∀ (s : State) (t : Nat), s.dev.aon.reset.pinless = some t → vget s.dev.rails.ok 1 = true → vget s.dev.rails.ok 2 = true →
    Completes .warmResetRelease s (fun u => u.dev.aon.reset.pinless = none ∧
      (s.dev.aon.reset.scope ≠ .none → s.dev.aon.reset.porst = false → s.dev.aon.reset.byPin = false →
        u.dev.aon.reset.scope = .none ∧ u.dev.sec.keysHidden = false)))

/-- R118, R119, R116: the boot sequence requests, gives up and is confirmed. -/
def Obligations.BootSequenceActs : Prop :=
  (∀ (s : State) (q : SeqCtl) (m : Domain) (todo : List Domain), s.dev.aon.seq = some q → q.current = none →
    (q.waitRails = true → switchedReady s.dev = true) → s.dev.aon.reset.scope = .none →
    seqPick s.dev (takeBootDomains s.od q).todo = (.request m, todo) →
    Completes .sequencerDomainRequest s (fun u => (getDom u.dev m).state = .transition ∧ (getDom u.dev m).target = .on ∧
      ∃ q', u.dev.aon.seq = some q' ∧ q'.current = some m ∧ q'.todo = todo)) ∧
  (∀ (s : State) (q : SeqCtl) (m : Domain), s.dev.aon.seq = some q → q.current = some m → s.dev.isOn m = false →
    Completes .bootDomainFailed s (fun u => u.od = s.od ∧ ∃ q', u.dev.aon.seq = some q' ∧ q'.current = none ∧ q'.todo = q.todo)) ∧
  (∀ (s : State) (q : SeqCtl), s.dev.aon.seq = some q → s.dev.isOn .meas = true → s.dev.time.tb.declared = false →
    q.todo.any (fun m => m == .ctrl || m == .link || m == .drv) = true →
    Completes .tblockDeclareTimeout s (fun u => u.od = s.od ∧ ∀ q', u.dev.aon.seq = some q' →
      q'.todo.any (fun m => m == .ctrl || m == .link || m == .drv) = false)) ∧
  (∀ s : State, s.dev.aon.bootOpen = true → (getDom s.dev .meas).cause = 5 → s.dev.isOn .meas = true → s.dev.time.tb.declared = false →
    Completes .tblockDeclareTimeout s (fun u => u.od = s.od ∧ u.dev.aon.bootOpen = false ∧
      (s.dev.isOn .sec = true → ∃ b, recorded 0x0209 u.dev.clk.stamp 0 b u.dev ∧ leAt b 0 1 = 0))) ∧
  (∀ (via : Via) (s : State), accepted via 0x2210 3 (toLE 4 0x6E6F6366) s = true → trialRunning s.dev = true →
    Completes (.bootConfirm via) s (fun u => u.dev.nv.boot.trial = false ∧ u.od = s.od))

/-- R126, R130, R132, R134, R138, R139: accepted domain requests begin a transition, and its completion reaches the target; a wake in the
cycle of a request to leave ON wins; what waited at the BARs while NET was in RETENTION completes with its return. -/
def Obligations.DomainsChangeState : Prop :=
  (∀ (via : Via) (k : Fin 8) (code : BitVec 8) (s : State) (target : DomState),
    let m := Domain.ofNum k.val
    accepted via 0x2100 (k.val + 1) [code] s = true → DomState.ofCode code.toNat = some target → (getDom s.dev m).state ≠ target →
    Completes (.domainStateWrite via k code {}) s (fun u => (getDom u.dev m).state = .transition ∧ (getDom u.dev m).target = target ∧
      (getDom u.dev m).cause = 1)) ∧
  (∀ (via : Via) (k : Fin 8) (code : BitVec 8) (seen : WakeSeen) (s : State),
    let (edges, d1) := wakeSees s.od seen s.dev
    wakeSources s.od edges d1 ≠ [] → s.dev.aon.reset.scope = .none → vget s.dev.rails.ok 0 = true →
    s.dev.isOn (Domain.ofNum k.val) = true →
    Completes (.domainStateWrite via k code { seen := some seen }) s (fun u => u.dev.isOn (Domain.ofNum k.val) = true ∧
      u.dev.aon.reset.supEn = true ∧ u.dev.aon.wakeAt = some s.dev.clk.run)) ∧
  (∀ (via : Via) (v : BitVec 16) (s : State), accepted via 0x2101 1 (toLE 2 v.toNat) s = true →
    Completes (.groupRequest via v) s (fun u => u.od = s.od ∧
      ∃ g, u.dev.aon.group = some g ∧ g.mask = v.toNat % 256 ∧ g.todo = maskDomains groupOrder (v.toNat % 256))) ∧
  (∀ (s : State) (g : GroupCtl) (m : Domain) (rest : List Domain), s.dev.aon.group = some g → g.current = none →
    g.todo = m :: rest → (getDom s.dev m).state = .on →
    stateRefusal s.od s.dev m (if g.retention then .retention else .off) = none →
    Completes (.groupStep {}) s (fun u => (getDom u.dev m).state = .transition ∧
      (getDom u.dev m).target = (if g.retention then .retention else .off) ∧ (getDom u.dev m).cause = 2)) ∧
  (∀ (k : Fin 8) (s : State),
    let m := Domain.ofNum k.val
    let target : DomState := if odU s.od (0x2110 + m.num) 1 = 1 then .retention else .off
    let w := s.upTo (idleDue m)
    m ≠ .aon → m ≠ .safe → odU s.od (0x2110 + m.num) 1 ≠ 0 → (getDom s.dev m).idle.isSome = true → idleHolds s.od w.dev m = true →
    idleHolds s.od s.dev m = true → (getDom s.dev m).state = .on → leaveBusy s.dev = false → s.dev.sec.hold = false →
    stateRefusal w.od w.dev m target = none →
    Completes (.idleTimeExpiry k {}) s (fun u => (getDom u.dev m).state = .transition ∧ (getDom u.dev m).target = target ∧
      (getDom u.dev m).cause = 3)) ∧
  (∀ (k : Fin 8) (readings : List Int) (st : BitVec 16) (bad : Bool) (s : State),
    let m := Domain.ofNum k.val
    (getDom s.dev m).state = .transition → (getDom s.dev m).target = .off ∨ (getDom s.dev m).target = .retention →
    Completes (.domainTransitionComplete k readings st bad) s (fun u => (getDom u.dev m).state = (getDom s.dev m).target)) ∧
  (∀ (k : Fin 8) (readings : List Int) (st : BitVec 16) (s : State),
    let m := Domain.ofNum k.val
    (getDom s.dev m).state = .transition → (getDom s.dev m).target = .on → railsReady s.dev m = true →
    amsHot readings = false → (m = .net → s.dev.acq.pcie.parked = []) →
    Completes (.domainTransitionComplete k readings st false) s (fun u => (getDom u.dev m).state = .on)) ∧
  (∀ (readings : List Int) (st : BitVec 16) (bad : Bool) (s : State), let p := s.dev.acq.pcie
    (getDom s.dev .net).state = .transition → (getDom s.dev .net).target = .on → (getDom s.dev .net).left = .retention →
    railsReady s.dev .net = true → p.up = true → p.memory = true → p.d3hot = false → p.parked = [.timeLo] →
    Completes (.domainTransitionComplete 2 readings st bad) s (fun u => u.dev.acq.pcie.parked = [] ∧
      Output.pcieCompletion false (s.dev.clk.dt % 2 ^ 32) ∈ u.dev.out)) ∧
  (∀ s : State, barWaits s.dev = true →
    Completes .barTimeLoRead s (fun u => u.dev.acq.pcie.parked = s.dev.acq.pcie.parked ++ [.timeLo] ∧ u.dev.out = s.dev.out ∧ u.od = s.od))

/-- R136, R142, Table 6.5: a wake starts its route and drives SUP_EN; the alarm is pending from its instant. -/
def Obligations.WakesStartTheirRoute : Prop :=
  (∀ (seen : WakeSeen) (s : State),
    let (edges, d1) := wakeSees s.od seen s.dev
    wakeSources s.od edges d1 ≠ [] → s.dev.aon.reset.scope = .none → vget s.dev.rails.ok 0 = true →
    Completes (.wake seen {}) s (fun u => u.dev.aon.reset.supEn = true ∧ u.dev.aon.seq.isSome = true ∧ u.dev.aon.wakeAt = some s.dev.clk.run ∧
      u.dev.aon.wakeSources = (wakeSources s.od edges d1).foldl (fun n b => n ||| 2 ^ b) 0 ∧ u.od = s.od)) ∧
  (∀ (seen : WakeSeen) (b : Fin 4) (s : State), s.dev.aon.reset.scope = .none → vget s.dev.rails.ok 0 = true →
    odU s.od 0x2105 5 ≤ seen.held.toNat → pinByLevel s.od b.val = true → pinActive s.od b.val seen.pins.toNat = true →
    (odU s.od 0x2103 1).testBit b.val = true → s.dev.aon.woken.testBit b.val = false → vget s.dev.aon.wakeFrom b.val ≤ s.dev.clk.run →
    Completes (.wake seen {}) s (fun u => u.dev.aon.wakeSources.testBit b.val = true ∧ u.dev.aon.wakeAt = some s.dev.clk.run ∧ u.od = s.od)) ∧
  (∀ (s : State), odU s.od 0x2106 3 ≠ 0 → rtcRuns s.dev = true → s.dev.aon.wakePending.testBit 5 = false →
    Completes .rtcAlarm s (fun u => u.dev.aon.wakePending.testBit 5 = true ∧ odU s.od 0x2106 3 ≤ u.dev.clk.rtc ∧ u.od = s.od))

/-- R147: a lifecycle advance blows its two cells; LIFECYCLE is what they then read, and where both took, the advance is complete. -/
def Obligations.LifecycleAdvances : Prop :=
  ∀ (via : Via) (a b : Bool) (s t : State) (n : Nat),
    (writeSeen via 0x2300 2 (toLE 4 0x6B636F6C) s = some (n, t) → writeCheck t (some n) 0x2300 2 (toLE 4 0x6B636F6C) = none →
      advanceRefusal false n t.dev = none →
      Completes (.lifecycleLock via a b) s (fun u => u.od = s.od ∧
        u.dev.nv.lockA = (s.dev.nv.lockA || a) ∧ u.dev.nv.lockB = (s.dev.nv.lockB || b) ∧
        u.dev.sec.lifecycle = lifecycleOf u.dev.nv)) ∧
    (writeSeen via 0x2300 2 (toLE 4 0x6C616573) s = some (n, t) → writeCheck t (some n) 0x2300 2 (toLE 4 0x6C616573) = none →
      advanceRefusal true n t.dev = none →
      Completes (.lifecycleSeal via a b) s (fun u => u.od = s.od ∧
        u.dev.nv.disA = (s.dev.nv.disA || a) ∧ u.dev.nv.disB = (s.dev.nv.disB || b) ∧
        u.dev.sec.lifecycle = lifecycleOf u.dev.nv ∧ (a = true → b = true → vget u.dev.nv.keys 2 = none)))

/-- R149, R164, R165: a key, an image and its version go where the writes say. -/
def Obligations.KeysAndImagesAreWritten : Prop :=
  (∀ (via : Via) (k : Fin 3) (key : Bytes) (s : State), accepted via 0x2330 (k.val + 2) key s = true →
    Completes (.keyWrite via k key) s (fun u => vget u.dev.nv.keys k.val = some key ∧ u.od = s.od)) ∧
  (∀ (via : Via) (s : State), accepted via 0x2340 1 (toLE 4 0x6E65706F) s = true →
    Completes (.loadBegin via) s (fun u => u.od = s.od ∧ ∃ i, u.dev.sec.load = some i ∧ (vget u.dev.nv.images i).data = [])) ∧
  (∀ (via : Via) (chunk : Bytes) (s : State) (i : Nat), accepted via 0x2340 2 chunk s = true → s.dev.sec.load = some i → i < 2 →
    Completes (.loadData via chunk) s (fun u => u.od = s.od ∧ (vget u.dev.nv.images i).data = (vget s.dev.nv.images i).data ++ chunk)) ∧
  (∀ (via : Via) (s : State) (i : Nat), accepted via 0x2340 4 (toLE 4 0x74696D63) s = true → s.dev.sec.load = some i →
    Completes (.loadCommit via) s (fun u => u.od = s.od ∧ u.dev.sec.load = none ∧
      (u.dev.sec.loadCode = 0 → u.dev.nv.boot.preferred = i ∧ u.dev.nv.boot.trial = true))) ∧
  (∀ (via : Via) (s : State) (r : Nat), accepted via 0x2340 7 (toLE 4 0x73696172) s = true → s.dev.sec.running = some r →
    Completes (.secVersionRaise via) s (fun u => u.od = s.od ∧ u.dev.nv.minVersion = imageSecVersion s.dev r))

/-- R152, R159: the debug port attaches in OPEN by its instruction, in LOCKED by a response to a nonce; three failures lock it out. -/
def Obligations.DebugAttachesAndLocksOut : Prop :=
  (∀ s : State, tapWorks s.dev = true → s.dev.sec.lifecycle = 0 → s.dev.sec.debug = .detached →
    Completes .debugAttach s (fun u => u.dev.sec.debug = .attached ∧ u.dev.sec.keysHidden = true ∧ u.dev.sec.holder = none)) ∧
  (∀ s : State, unlockOpen s.dev = true →
    Completes .dbgChallengeCapture s (fun u => u.dev.sec.debug = .challenge ∧
      ∃ n, u.dev.sec.nonce = some (n, u.dev.clk.run, keyOf s.dev 2) ∧ Output.tapCapture (n ++ serialBytes) ∈ u.dev.out)) ∧
  (∀ (s : State) (nonce dk response : Bytes) (at_ : Nat), unlockOpen s.dev = true → s.dev.sec.nonce = some (nonce, at_, some dk) →
    response = (hmac dk (ascii ['W', 'D', 'B', '1'] ++ serialBytes ++ nonce)).take 16 →
    Completes (.dbgResponseUpdate response) s (fun u => u.dev.sec.debug = .attached)) ∧
  (∀ (s : State) (response : Bytes), unlockOpen s.dev = true → s.dev.sec.nonce = none →
    Completes (.dbgResponseUpdate response) s (fun u => u.dev.aon.debugFails = s.dev.aon.debugFails + 1 ∧
      u.dev.sec.debug = (if s.dev.aon.debugFails + 1 < 3 then .detached else .lockout) ∧
      (3 ≤ s.dev.aon.debugFails + 1 → u.dev.aon.debugLockout = some (s.dev.clk.run + secT 60)))) ∧
  (∀ s : State, s.dev.sec.nonce.isSome = true → Completes .debugNonceExpiry s (fun u => u.dev.sec.nonce = none ∧ u.od = s.od)) ∧
  (∀ s : State, s.dev.aon.debugLockout.isSome = true →
    Completes .debugLockoutEnd s (fun u => u.dev.aon.debugLockout = none ∧ u.dev.aon.debugFails = 0 ∧ u.dev.sec.debug ≠ .lockout))

/-- R156, R157, R86, R84: the TAP's reset, scan takeover and boundary register; the outputs that EXTEST and CLAMP hold at their reset
levels, HIGHZ, and the outputs of a domain that is not ON. -/
def Obligations.TapActs : Prop :=
  (∀ s : State, tapWorks s.dev = true →
    Completes .tapReset s (fun u => u.dev.sec.instr = 1 ∧ u.dev.sec.scan = false ∧ u.dev.sec.debug ≠ .attached)) ∧
  (∀ (i : BitVec 8) (s : State), tapWorks s.dev = true → isScan i.toNat = true → s.dev.sec.scan = false →
    Completes (.scanTakeoverStart i) s (fun u => u.dev.sec.scan = true ∧ u.dev.sec.instr = i.toNat ∧ u.dev.isl.scanHold = true)) ∧
  (∀ (i : BitVec 8) (s : State), tapWorks s.dev = true → isScan i.toNat = false → i ≠ 0x12 → s.dev.sec.scan = true →
    s.dev.sec.instr ≠ i.toNat →
    Completes (.scanTakeoverEnd i) s (fun u => u.dev.sec.scan = false ∧ u.dev.sec.instr = i.toNat ∧ u.dev.isl.scanHold = false)) ∧
  (∀ (data : Bytes) (s : State), tapWorks s.dev = true → s.dev.sec.instr = 2 ∨ s.dev.sec.instr = 3 →
    Completes (.boundaryScanUpdateDr data) s (fun u => u.dev.sec.boundary = data ∧
      u.dev.out = s.dev.out ++ [Output.tapCapture (boundaryCapture s.od s.dev)] ∧ u.od = s.od)) ∧
  (∀ (s : State) (p : Pin), vget s.dev.rails.ok 0 = true → vget s.dev.rails.ok p.rail = true → s.dev.aon.reset.scope = .none →
    (s.dev.sec.scan = true → s.dev.sec.instr = 3 ∨ s.dev.sec.instr = 5 → p.scanHeld = true →
      pinLevel s.od s.dev p = p.resetLevel s.dev) ∧
    (s.dev.sec.scan = true → s.dev.sec.instr = 4 → p ≠ .tdo → pinLevel s.od s.dev p = p.unpowered) ∧
    (∀ m, s.dev.sec.scan = false → p.owner = some m → s.dev.isOn m = false → pinLevel s.od s.dev p = p.resetLevel s.dev))

/-- R160, R161, R162: the exchange that authorises a session, and how its holding ends. -/
def Obligations.CommissioningExchange : Prop :=
  (∀ (via : Via) (s t : State) (n : Nat), requestSeen false via 0x10 (serviceMsg []) s = some (n, t) → n < 64 → s.dev.sec.hold = false →
    readCheck t (some n) 0x2320 1 = none →
    Completes (.commChallenge via) s (fun u => u.od = s.od ∧ ∃ nonce, vget u.dev.sec.nonces n = some (nonce, s.dev.clk.run, keyOf s.dev 0))) ∧
  (∀ (via : Via) (nonce mac issued ck : Bytes) (at_ : Nat) (s t : State) (n : Nat), nonce.length = 16 → mac.length = 32 →
    requestSeen false via 0x11 (serviceMsg (nonce ++ mac)) s = some (n, t) → s.dev.sec.hold = false →
    writeCheck t (some n) 0x2320 2 (nonce ++ mac) = none → commRefusal n t.dev = none →
    vget t.dev.sec.nonces n = some (issued, at_, some ck) → mac = commMac ck issued nonce n →
    Completes (.commResponse via nonce mac) s (fun u => u.od = s.od ∧ u.dev.sec.holder = some n ∧ u.dev.aon.authFails = 0)) ∧
  (∀ (via : Via) (nonce mac issued ck : Bytes) (at_ : Nat) (s t : State) (n : Nat), nonce.length = 16 → mac.length = 32 →
    requestSeen false via 0x11 (serviceMsg (nonce ++ mac)) s = some (n, t) → s.dev.sec.hold = false →
    writeCheck t (some n) 0x2320 2 (nonce ++ mac) = none → commRefusal n t.dev = none →
    vget t.dev.sec.nonces n = some (issued, at_, some ck) → mac ≠ commMac ck issued nonce n →
    Completes (.commResponse via nonce mac) s (fun u => u.od = s.od ∧ u.dev.sec.holder = s.dev.sec.holder ∧
      u.dev.aon.authFails = s.dev.aon.authFails + 1)) ∧
  (∀ (via : Via) (s t : State) (n : Nat), requestSeen false via 0x12 (serviceMsg []) s = some (n, t) → s.dev.sec.hold = false →
    writeCheck t (some n) 0x2320 4 [1] = none → s.dev.sec.holder = some n →
    Completes (.commEnd via) s (fun u => u.dev.sec.holder = none ∧ u.od = s.od)) ∧
  (∀ (via : Via) (s t : State) (n : Nat), requestSeen false via 0x13 (serviceMsg []) s = some (n, t) → s.dev.sec.hold = false →
    (getSession t.dev n).owed = false → (∀ c k, via ≠ .can c k) →
    Completes (.commStatus via) s (fun u => u.od = s.od ∧
      answerOf via n 0x13 (serviceMsg []) { last := true, total := 2, payload := toLE 2 (commStatus t.dev) } ∈ u.dev.out)) ∧
  (∀ (c : Fin 2) (k : Fin 4) (s t : State) (n : Nat), requestSeen false (.can c k) 0x13 (serviceMsg []) s = some (n, t) →
    (getSession t.dev n).owed = false → readCheck t (some n) 0x2320 5 = none →
    Completes (.commStatus (.can c k)) s (fun u => u.od = s.od ∧ Output.sdo n 0x2320 5 none (toLE 2 (commStatus t.dev)) ∈ u.dev.out)) ∧
  (∀ s : State, s.dev.sec.holder.isSome = true → Completes .commTimeout s (fun u => u.dev.sec.holder = none ∧ u.od = s.od)) ∧
  (∀ (n : Fin 64) (s : State), (vget s.dev.sec.nonces n.val).isSome = true →
    Completes (.commNonceExpiry n) s (fun u => vget u.dev.sec.nonces n.val = none ∧ u.od = s.od)) ∧
  (∀ s : State, s.dev.aon.authLockout.isSome = true →
    Completes .commLockoutEnd s (fun u => u.dev.aon.authLockout = none ∧ u.dev.aon.authFails = 0 ∧ u.od = s.od))

/-- R171 to R174, R181, R21: the detectors, the locks that are declared and lost, the lock pins, and the island's watch of the timebase.
Where a domain is in transition the pin keeps the state left (the model's reading, log entry 211). -/
def Obligations.LocksAreDeclaredAndLost : Prop :=
  (∀ (x : Detector) (n : Nat) (err : Int),
    (4096 ≤ n → err.natAbs ≤ 500 → (x.after [(n, err)]).locked = true) ∧
    (4 ≤ n → 2000 < err.natAbs → (x.after [(n, err)]).locked = false) ∧
    (500 < err.natAbs → err.natAbs ≤ 2000 → (x.after [(n, err)]).locked = x.locked)) ∧
  (∀ (s : State) (y : Synth),
    (s.dev.isOn .meas = true → lockPin s.dev y = some (if y.det.locked then 33 else -1000)) ∧
    ((getDom s.dev .meas).state = .retention → lockPin s.dev y = some 33) ∧
    ((getDom s.dev .meas).state = .off → lockPin s.dev y = none)) ∧
  (∀ (mv : BitVec 16) (runs : PhaseRuns) (s : State), s.dev.isOn .meas = true → s.dev.time.tb.declared = false →
    s.dev.time.tb.checked = true → s.dev.time.tb.marked = false → (s.dev.time.tb.det.after runs).locked = true → 1000 ≤ mv.toNat →
    Completes (.tblockDeclared mv runs) s (fun u => u.dev.time.tb.declared = true ∧ u.dev.time.tb.mv = mv.toNat)) ∧
  (∀ (mv : BitVec 16) (runs : PhaseRuns) (s : State), s.dev.time.tb.declared = true → mv.toNat < 700 →
    Completes (.tblockLost mv runs) s (fun u => u.dev.time.tb.declared = false ∧ u.dev.time.cas.declared = false ∧
      u.dev.time.tb.losses = satInc s.dev.time.tb.losses)) ∧
  (∀ (mv : BitVec 16) (runs : PhaseRuns) (s : State), 700 ≤ mv.toNat →
    Completes (.tblockLost mv runs) s (fun u => u.dev.time.tb.declared = s.dev.time.tb.declared ∧
      u.dev.time.tb.losses = s.dev.time.tb.losses ∧ u.od = s.od)) ∧
  (∀ (mv : BitVec 16) (runs : PhaseRuns) (s : State), s.dev.isOn .meas = true → s.dev.time.tb.declared = true →
    s.dev.time.cas.declared = false → s.dev.time.cas.checked = true → s.dev.time.cas.marked = false →
    (s.dev.time.cas.det.after runs).locked = true → 1000 ≤ mv.toNat →
    Completes (.caslockDeclared mv runs) s (fun u => u.dev.time.cas.declared = true ∧ u.dev.time.casBlock = false)) ∧
  (∀ (found : CasSupervision) (s : State), s.dev.time.cas.declared = true →
    (match found with
      | .pin _ mv => mv.toNat < 700
      | .advance counted => advanceOff s.od s.dev counted = true) →
    Completes (.caslockLost found) s (fun u => u.dev.time.cas.declared = false ∧ u.dev.time.profileRun = 0xFF ∧
      (s.dev.stack.state.runs = true → u.dev.time.casBlock = true))) ∧
  (∀ (ppb : Int) (s : State), s.dev.isOn .safe = true → 10000000 < ppb.natAbs →
    Completes (.timebaseCheckWindow ppb) s (fun u => u.dev.isl.timebaseHold = 10 ∧ u.dev.isl.windowAt = s.dev.isl.windowAt + islandWindow)) ∧
  (∀ (ppb : Int) (s : State), s.dev.isOn .safe = true → ppb.natAbs ≤ 10000000 →
    Completes (.timebaseCheckWindow ppb) s (fun u => u.dev.isl.timebaseHold = s.dev.isl.timebaseHold - 1 ∧
      u.dev.isl.windowAt = s.dev.isl.windowAt + islandWindow ∧ s.dev.isl.windowAt + islandWindow ≤ u.dev.clk.run))

/-- R175, R182, R187, R188: the schedule, the profiles and the rate follow their writes and steps. -/
def Obligations.ScheduleAndRateFollow : Prop :=
  (∀ (via : Via) (v : BitVec 32) (s : State), accepted via 0x2413 1 (toLE 4 v.toNat) s = true →
    Completes (.controlPeriodWrite via v) s (fun u => period u.od = v.toNat ∧ (s.dev.sched.running = true → u.dev.sched.j = 0))) ∧
  (∀ (via : Via) (n : BitVec 8) (s : State), accepted via 0x2412 1 [n] s = true → n ≠ 0xFF →
    Completes (.profileRunStart via n) s (fun u => u.dev.time.want = some (some n.toNat) ∧ u.dev.time.profileRun = n.toNat ∧ u.od = s.od)) ∧
  (∀ (via : Via) (s : State), accepted via 0x2412 1 [0xFF] s = true →
    Completes (.profileRunHold via) s (fun u => u.dev.time.want = some none ∧ u.dev.time.profileRun = 0xFF ∧ u.od = s.od)) ∧
  (∀ (via : Via) (s : State), accepted via 0x2400 5 (toLE 4 0x70657473) s = true →
    Completes (.timeStepNow via) s (fun u => u.dev.time.stepNow = true ∧ u.od = s.od)) ∧
  (∀ (s : State), s.dev.time.tb.declared = true → s.dev.time.rate ≠ s.dev.time.rateTarget → s.dev.clk.counting = true →
    Completes .rateSlewStep s (fun u => u.dev.time.rateAt = u.dev.clk.dt ∧
      u.dev.time.rate = s.dev.time.rate + clampI (-250000000) 250000000 (s.dev.time.rateTarget - s.dev.time.rate))) ∧
  (∀ (via : Via) (v : BitVec 32) (s : State), accepted via 0x2401 3 (toLE 4 v.toNat) s = true →
    Completes (.manualRateWrite via v) s (fun u => odU u.od 0x2401 3 = v.toNat ∧
      u.dev.time.rateTarget = limitRate u.od v.toInt))

/-- R183 to R190: the PTP port takes a Sync and its Follow_Up, measures the delay, selects and loses its master. -/
def Obligations.PtpPortFollowsMaster : Prop :=
  (∀ (p : PtpHead) (logInterval correction : Int) (origin : BitVec 80) (s : State) (m : Master),
    ptpTakes s.od p.mac.val p.udp p.domain.toNat s.dev = true → s.dev.time.master = some m → m.parent = p.source.toNat →
    -5 ≤ logInterval → logInterval ≤ 4 →
    Completes (.ptpSync p logInterval true origin correction) s (fun u => u.od = s.od ∧
      u.dev.time.twoStep = some { seq := p.seq.toNat, t2 := rxNs s.od p.mac.val s.dev, correction := ptpCorrection correction })) ∧
  (∀ (p : PtpHead) (logInterval correction : Int) (origin : BitVec 80) (s : State) (m : Master),
    ptpTakes s.od p.mac.val p.udp p.domain.toNat s.dev = true → s.dev.time.master = some m → m.parent = p.source.toNat →
    -5 ≤ logInterval → logInterval ≤ 4 →
    Completes (.ptpSync p logInterval false origin correction) s (fun u => u.od = s.od ∧ u.dev =
      syncComplete s.od { m with logSync := logInterval } (rxNs s.od p.mac.val s.dev) (ptpNs origin) (ptpCorrection correction) s.dev)) ∧
  (∀ (p : PtpHead) (correction : Int) (origin : BitVec 80) (s : State) (m : Master) (x : SyncTimes),
    ptpTakes s.od p.mac.val p.udp p.domain.toNat s.dev = true → s.dev.time.master = some m → m.parent = p.source.toNat →
    s.dev.time.twoStep = some x → x.seq = p.seq.toNat →
    Completes (.ptpFollowUp p origin correction) s (fun u => u.od = s.od ∧ u.dev =
      syncComplete s.od m x.t2 (ptpNs origin) (x.correction + ptpCorrection correction) (onTime (fun t => { t with twoStep := none }) s.dev))) ∧
  (∀ (p : PtpHead) (received sent : BitVec 80) (correction : Int) (s : State) (q diff : Rat) (m : Master),
    s.dev.time.master = some m → m.parent = p.source.toNat → ptpTakes s.od p.mac.val p.udp p.domain.toNat s.dev = true → s.dev.time.delaySeq = p.seq.toNat →
    s.dev.time.delaySent = some q → s.dev.time.lastDiff = some diff → odU s.od 0x2440 1 ≠ 2 →
    Completes (.ptpDelayResp p received sent correction) s (fun u => u.dev.time.delaySent = none ∧
      u.dev.time.pathDelay = (diff + ((ptpNs received : Rat) - q) - ptpCorrection correction) / 2)) ∧
  (∀ (s : State), ptpPort s.od (odU s.od 0x2440 2) s.dev = true → odU s.od 0x2440 1 = 2 ∨ s.dev.time.master.isSome = true →
    Completes .ptpDelayReqTimer s (fun u => u.dev.time.delaySeq = (s.dev.time.delaySeq + 1) % 65536 ∧
      u.dev.time.delayAt = u.dev.clk.dt ∧
      u.dev.time.delaySent = some (txNs s.od (odU s.od 0x2440 2) u.dev) ∧
      Output.ptp (odU s.od 0x2440 2) (if odU s.od 0x2440 1 = 2 then 2 else 1) (toBE 2 ((s.dev.time.delaySeq + 1) % 65536)) ∈ u.dev.out)) ∧
  (∀ (p : PtpHead) (s : State), ptpTakes s.od p.mac.val false p.domain.toNat s.dev = true → odU s.od 0x2440 1 = 2 →
    Completes (.pdelayReqReceived p) s (fun u => u.dev.out.length = s.dev.out.length + 2 ∧ u.dev.time = s.dev.time)) ∧
  (∀ (p : PtpHead) (a : AnnounceBody) (s : State), ptpTakes s.od p.mac.val p.udp p.domain.toNat s.dev = true → s.dev.time.master = none →
    Completes (.ptpAnnounce p a) s (fun u => ∃ m, u.dev.time.master = some m ∧ m.gm = a.gm.toNat ∧ m.parent = p.source.toNat ∧
      u.dev.time.lastGm = a.gm.toNat ∧ u.dev.time.timeLocked = false)) ∧
  (∀ (announce : Bool) (s : State), s.dev.time.master.isSome = true → s.dev.clk.counting = true →
    Completes (.ptpMasterLost announce) s (fun u => u.dev.time.master = none ∧ u.dev.time.holdover = true ∧ u.dev.time.timeLocked = false))

/-- R191: the MAC's link, ARP and echo. -/
def Obligations.MacsAnswer : Prop :=
  (∀ (mac : Fin 2) (up : Bool) (s : State), s.dev.isOn .net = true →
    (up = true → ethLine s.dev = true) →
    Completes (.ethLinkChange mac up) s (fun u => u.dev.time.links.testBit mac.val = up ∧ u.od = s.od)) ∧
  (∀ (mac : Fin 2) (ip target : BitVec 32) (hw : BitVec 48) (s : State), s.dev.isOn .net = true → s.dev.time.links.testBit mac.val = true →
    target.toNat = beNat (odGet s.dev.com.iface (0x2450 + mac.val) 2) →
    Completes (.arpReceived mac false ip hw target) s (fun u => u.od = s.od ∧ ∃ b, Output.arp mac.val b ∈ u.dev.out) ∧
    (beNat (odGet s.dev.com.iface (0x2450 + mac.val) 4) = ip.toNat ∨
        (∃ n : Fin 64, (getSession s.dev n.val).kind = .udp ∧ (getSession s.dev n.val).mac = mac.val ∧
          (getSession s.dev n.val).ip = ip.toNat) →
      Completes (.arpReceived mac true ip hw target) s (fun u => u.od = s.od ∧ (mac.val, ip.toNat, hw.toNat) ∈ u.dev.time.arp))) ∧
  (∀ (mac : Fin 2) (source target : BitVec 32) (body : Bytes) (s : State), s.dev.isOn .net = true → s.dev.time.links.testBit mac.val = true →
    target.toNat = beNat (odGet s.dev.com.iface (0x2450 + mac.val) 2) →
    Completes (.icmpEcho mac source target body) s (fun u => Output.icmp mac.val (toBE 4 source.toNat ++ body) ∈ u.dev.out ∧ u.od = s.od))

/-- R175, R205, R207: a period start numbers the period, keeps its instant and launches the frames built; the cut-off before it builds the
frame of every started ring, with what its header says. -/
def Obligations.PeriodsStart : Prop :=
  (∀ s : State, s.dev.sched.running = true → (∀ n, (vget s.dev.com.rpdos n).held = none) →
    (s.dev.clk.counting = true ∨ nextStart s.od s.dev ≤ s.dev.clk.dt) →
    Completes .periodStart s (fun u => u.dev.sched.count = s.dev.sched.count + 1 ∧ u.dev.sched.j = s.dev.sched.j + 1 ∧
      u.dev.sched.last = nextStart s.od s.dev)) ∧
  (∀ (r : Fin 8) (b : Build) (s : State), let g := getRing s.dev r.val
    s.dev.sched.running = true → s.dev.clk.counting = true → (∀ n, (vget s.dev.com.rpdos n).held = none) →
    s.dev.lcl.cutDone = some s.dev.sched.count → g.started = true → g.build = some b → g.pendingSwitch = none → g.activePath < 2 →
    Completes .periodStart s (fun u => (getRing u.dev r.val).launching = true ∧ (getRing u.dev r.val).build = none ∧
      ∃ f ∈ (getPath u.dev r.val g.activePath).flights, f.ftype = 1 ∧ f.period = s.dev.sched.count ∧ f.launch = nextStart s.od s.dev)) ∧
  (∀ s : State, s.dev.sched.running = true → s.dev.clk.counting = true →
    Completes .frameBuildCutoff s (fun u => u.dev.lcl.cutDone = some s.dev.sched.count ∧ u.od = s.od ∧
      ∀ r : Fin 8, s.dev.lcl.cutDone ≠ some s.dev.sched.count → (getRing s.dev r.val).started = true →
        ∃ b, (getRing u.dev r.val).build = some b ∧ b.period = s.dev.sched.count ∧ b.length = period s.od ∧
          b.apply = s.dev.lcl.applyOffset ∧ b.uncertain = s.dev.time.uncertain ∧ b.standby = s.dev.isOn .safe ∧
          b.cmds.length = ringCells s.od r.val))

/-- R214, R215: a valid frame counts on its path, a faulty one on its counter, a missed deadline counts as missed. -/
def Obligations.FramesReturnOrMiss : Prop :=
  (∀ (r : Fin 8) (p : Fin 2) (b : Bytes) (rtt : Nat) (s : State) (f : Flight),
    let w := s.upTo (returnDue r.val p.val 1 rtt b.length)
    (getPath s.dev r.val p.val).flights.find? (fun f => f.ftype == 1) = some f → canReturn s.dev r.val p.val f = true →
    (getRing s.dev r.val).launching = true → tooLate s.od r.val p.val f rtt b.length w.dev = false →
    frameFault s.od w.dev r.val p.val f b rtt = none →
    Completes (.cyclicFrameReturn r p b rtt) s (fun u => u.od = s.od ∧
      (getPath u.dev r.val p.val).ok = wrapInc (getPath s.dev r.val p.val).ok ∧ (getPath u.dev r.val p.val).rttLast = rtt ∧
      (getPath u.dev r.val p.val).lastValid = f.launch)) ∧
  (∀ (r : Fin 8) (p : Fin 2) (b : Bytes) (rtt : Nat) (s : State) (f : Flight),
    let w := s.upTo (returnDue r.val p.val 2 rtt b.length)
    (getPath s.dev r.val p.val).flights.find? (fun f => f.ftype == 2) = some f → canReturn s.dev r.val p.val f = true →
    tooLate s.od r.val p.val f rtt b.length w.dev = false → frameFault s.od w.dev r.val p.val f b rtt = none →
    Completes (.standbyFrameReturn r p b rtt) s (fun u => u.od = s.od ∧
      (getPath u.dev r.val p.val).ok = wrapInc (getPath s.dev r.val p.val).ok ∧ (getPath u.dev r.val p.val).rttLast = rtt ∧
      (getPath u.dev r.val p.val).lastValid = f.launch)) ∧
  (∀ (r : Fin 8) (p : Fin 2) (b : Bytes) (rtt cause : Nat) (s : State) (f : Flight),
    let w := s.upTo (returnDue r.val p.val 2 rtt b.length)
    let q := getPath s.dev r.val p.val
    q.flights.find? (fun f => f.ftype == 2) = some f → canReturn s.dev r.val p.val f = true →
    tooLate s.od r.val p.val f rtt b.length w.dev = false → frameFault s.od w.dev r.val p.val f b rtt = some cause →
    Completes (.standbyFrameReturn r p b rtt) s (fun u => u.od = s.od ∧ (getPath u.dev r.val p.val).ok = q.ok ∧
      (cause = 2 → (getPath u.dev r.val p.val).crc = satInc q.crc) ∧ (cause = 3 → (getPath u.dev r.val p.val).stomped = satInc q.stomped) ∧
      (cause = 4 ∨ cause = 8 → (getPath u.dev r.val p.val).header = satInc q.header))) ∧
  (∀ (r : Fin 8) (p : Fin 2) (s : State) (f : Flight),
    (getPath s.dev r.val p.val).flights.find? (fun f => f.ftype != 3) = some f → s.dev.clk.counting = true →
    Completes (.returnDeadline r p) s (fun u => u.od = s.od ∧
      (getPath u.dev r.val p.val).missed = satInc (getPath s.dev r.val p.val).missed))

/-- R195, R196: the receivers' sync and the fault ordered set. -/
def Obligations.LanesLoseAndGainSync : Prop :=
  (∀ (r : Fin 8) (p : Fin 2) (s : State), (getPath s.dev r.val p.val).sync = true →
    Completes (.laneSyncLost r p) s (fun u => (getPath u.dev r.val p.val).sync = false ∧
      (getPath u.dev r.val p.val).syncLosses = satInc (getPath s.dev r.val p.val).syncLosses ∧ u.od = s.od)) ∧
  (∀ (r : Fin 8) (p : Fin 2) (s : State), s.dev.isOn .link = true →
    Completes (.laneSyncGained r p) s (fun u => (getPath u.dev r.val p.val).sync = true ∧ u.od = s.od)) ∧
  (∀ (r : Fin 8) (p : Fin 2) (s : State), s.dev.isOn .safe = true → (getRing s.dev r.val).activePath ≠ p.val →
    (getPath s.dev r.val p.val).state = .standby →
    Completes (.faultOrderedSet r p) s (fun u => (getPath u.dev r.val p.val).state = .failed ∧ u.od = s.od)) ∧
  (∀ (r : Fin 8) (p : Fin 2) (s : State), s.dev.isOn .safe = true → (getRing s.dev r.val).activePath = p.val →
    (getPath s.dev r.val p.val).state = .active → (getPath s.dev r.val p.val).missRun + 1 < odU s.od 0x31F0 6 →
    Completes (.faultOrderedSet r p) s (fun u => (getPath u.dev r.val p.val).state = .active ∧
      (getPath u.dev r.val p.val).missRun = (getPath s.dev r.val p.val).missRun + 1 ∧ u.od = s.od))

/-- R215, R218, R221, R210: a ring starts, stops and takes a swap; the suppression of switches ends; delay frames leave and return. -/
def Obligations.RingsAct : Prop :=
  (∀ (via : Via) (r : Fin 8) (s : State), accepted via (0x3180 + r.val) 4 (toLE 4 0x74727473) s = true →
    Completes (.ringStart via r) s (fun u => (getRing u.dev r.val).started = true ∧ u.od = s.od)) ∧
  (∀ (via : Via) (r : Fin 8) (s : State), accepted via (0x3180 + r.val) 4 (toLE 4 0x706F7473) s = true →
    Completes (.ringStop via r) s (fun u => (getRing u.dev r.val).started = false ∧ u.od = s.od)) ∧
  (∀ (via : Via) (r : Fin 8) (s : State), accepted via (0x3180 + r.val) 6 (toLE 4 0x70617773) s = true →
    Completes (.pathSwap via r) s (fun u => (getRing u.dev r.val).swap = true ∧ u.od = s.od)) ∧
  (∀ (r : Fin 8) (s : State), (getRing s.dev r.val).suppressed.isSome = true → s.dev.clk.counting = true →
    Completes (.switchSuppressClear r) s (fun u => (getRing u.dev r.val).suppressed = none ∧ u.od = s.od)) ∧
  (∀ (r : Fin 8) (s : State), s.dev.sched.running = true → s.dev.clk.counting = true → (getRing s.dev r.val).launching = true →
    (getRing s.dev r.val).delayDue = true →
    Completes (.delayFrameLaunch r) s (fun u => (getRing u.dev r.val).delayDue = false ∧ (getRing u.dev r.val).delaySince = 0 ∧
      (getRing u.dev r.val).delayPeriod = some (s.dev.sched.count - 1) ∧ u.od = s.od ∧
      ∀ p ∈ enabledPaths s.dev r.val, ∃ f ∈ (getPath u.dev r.val p).flights, f.ftype = 3 ∧ f.period = s.dev.sched.count - 1 ∧
        f.launch = s.dev.sched.last + 3200)) ∧
  (∀ (r : Fin 8) (fa fb : Bytes) (rttA rttB : Nat) (s : State), (getRing s.dev r.val).launching = true →
    (getRing s.dev r.val).delayPeriod.isSome = true →
    Completes (.delayFrameReturn r fa fb rttA rttB) s (fun u => (getRing u.dev r.val).delayPeriod = none ∧ u.od = s.od)) ∧
  (∀ (r : Fin 8) (fa fb : Bytes) (rttA rttB : Nat) (s : State) (f0 f1 : Flight),
    let w := s.upTo (delayDue r.val rttA rttB fa.length fb.length)
    let entries := (List.range (ringCells s.od r.val)).map (delayEntry fa fb)
    let (ds, pred) := solveDelays s.od r.val (ringCells s.od r.val) rttA (entries.map (fun e => e.getD (0, 0, 0)))
    (getRing s.dev r.val).launching = true → (getRing s.dev r.val).delayPeriod.isSome = true → dualRing s.od r.val = true →
    (getPath s.dev r.val 0).flights.find? (fun f => f.ftype == 3) = some f0 →
    (getPath s.dev r.val 1).flights.find? (fun f => f.ftype == 3) = some f1 →
    delayFrameOk s.od w.dev r.val 0 f0 fa rttA = true → delayFrameOk s.od w.dev r.val 1 f1 fb rttB = true →
    (getRing s.dev r.val).delayBroken = false → entries.any Option.isNone = false → ((rttB : Int) - pred).natAbs ≤ 2000 →
    Completes (.delayFrameReturn r fa fb rttA rttB) s (fun u => u.od = s.od ∧ (getRing u.dev r.val).resultDue = true ∧
      (getPath u.dev r.val 0).rttRef = rttA ∧ (getPath u.dev r.val 1).rttRef = rttB ∧
      (getPath u.dev r.val 0).delays = ds.map (fun x => x.1.toNat) ∧ (getPath u.dev r.val 1).delays = ds.map (fun x => x.2.toNat)))

/-- R231 to R234: DISCOVER, HELLO, CHALLENGE_RESP, and the failures of admission. -/
def Obligations.AdmissionProceeds : Prop :=
  (∀ (s : State) (r : Fin 8) (p : Fin 16), let c := 16 * r.val + p.val
    s.dev.isOn .link = true → s.dev.sched.running = true → s.dev.sched.count % max 1 (lclPar s.od 1) = 0 →
    ringActive s.dev r.val = true → p.val < ringCells s.od r.val →
    (∀ q : Fin 8, ringCells s.od q.val ≤ 16) →
    (getCell s.dev c).state = .absent → (getCell s.dev c).backoffFrom = none →
    Completes .discoverInterval s (fun u => (getCell u.dev c).state = .discover ∧
      ((getCell u.dev c).control.head?.map (·.mtype)) = some 0x01 ∧ u.od = s.od)) ∧
  (∀ (m : CellMsg) (s : State) (f : Flight), let c := cellOf m
    slotOffered s.od s.dev m = some f → m.kind = 0 → m.body.length = 44 → (getCell s.dev c).state = .discover →
    helloRefusal s.od (ikInForce s.dev) c m.body s.dev = none →
    Completes (.hello m) s (fun u => (getCell u.dev c).state = .admitting ∧ (getCell u.dev c).id = slice m.body 0 16 ∧
      ((getCell u.dev c).control.map (·.mtype)) = [0x02] ∧ u.od = s.od)) ∧
  (∀ (m : CellMsg) (s : State) (f : Flight), let c := cellOf m
    slotOffered s.od s.dev m = some f → m.kind = 0 → m.body.length = 16 → (getCell s.dev c).state = .admitting →
    (getCell s.dev c).control.any (fun q => q.mtype == 0x03) = false →
    (∀ w, (getCell s.dev c).waitSince = some w → f.period ≤ w + lclPar s.od 2) → s.dev.sec.keysHidden = false →
    m.body = macC (admissionKey s.dev c) c (getCell s.dev c) →
    Completes (.challengeResp m) s (fun u => (getCell u.dev c).state = .admitting ∧ (getCell u.dev c).waitSince = none ∧
      ((getCell u.dev c).control.getLast?.map (·.mtype)) = some 0x03 ∧ u.od = s.od)) ∧
  (∀ (c : Fin 128) (s : State) (w : Nat), (getCell s.dev c.val).waitSince = some w → w + lclPar s.od 2 < s.dev.sched.count - 1 →
    (getCell s.dev c.val).state = .admitting ∨ ((getCell s.dev c.val).state = .fawn ∧ (getCell s.dev c.val).fawnUnseen = true) →
    Completes (.admitTimeout c) s (fun u => (getCell u.dev c.val).state = .discover ∧ (getCell u.dev c.val).reason = 0x12 ∧
      (getCell u.dev c.val).admitFails = satInc (getCell s.dev c.val).admitFails ∧ u.od = s.od)) ∧
  (∀ (c : Fin 128) (s : State), (getCell s.dev c.val).backoffFrom.isSome = true → s.dev.clk.counting = true →
    Completes (.admitBackoffEnd c) s (fun u => (getCell u.dev c.val).backoffFrom = none ∧ (getCell u.dev c.val).fails = 0 ∧ u.od = s.od))

/-- R229, R237, R239, R245, R252, R255: what an admitted session does with a message of its cell node. -/
def Obligations.SessionsTakeMessages : Prop :=
  (∀ (m : CellMsg) (s : State) (f : Flight), let c := cellOf m
    slotOffered s.od s.dev m = some f → m.kind = 1 → m.body.length = 8 → requestFits (getCell s.dev c).txn m = true →
    (getCell s.dev c).state = .fawn → leAt m.body 0 2 ≤ lclPar s.od 6 → (getCell s.dev c).lockWindow ≤ leAt m.body 2 2 →
    (getRing s.dev m.ring.val).delayValid = true → s.dev.time.uncertain = false →
    Completes (.lockReport m) s (fun u => (getCell u.dev c).state = .locked ∧
      (∃ x ∈ (getCell u.dev c).txn.respDue, x.2 = { mtype := 0x04, kind := 2, tag := m.tag.toNat, body := [0] }) ∧ u.od = s.od)) ∧
  (∀ (m : CellMsg) (s : State) (f : Flight), let c := cellOf m
    slotOffered s.od s.dev m = some f → m.kind = 1 → m.body.length = 28 → requestFits (getCell s.dev c).txn m = true →
    legalFromCell 0x4C (getCell s.dev c).state = true →
    Completes (.eventReport m) s (fun u =>
      (∃ x ∈ (getCell u.dev c).txn.respDue, x.2 = { mtype := 0x0C, kind := 2, tag := m.tag.toNat, body := [] }) ∧ u.od = s.od)) ∧
  (∀ (m : CellMsg) (s : State) (f : Flight), let c := cellOf m
    slotOffered s.od s.dev m = some f → m.kind = 1 → m.body.length = 1 → requestFits (getCell s.dev c).txn m = true →
    legalFromCell 0x48 (getCell s.dev c).state = true →
    Completes (.leaveReq m) s (fun u => (getCell u.dev c).control.getLast? = some { mtype := 0x0A, body := [0x10] } ∧ u.od = s.od)) ∧
  (∀ (m : CellMsg) (s : State) (f : Flight), let c := cellOf m
    slotOffered s.od s.dev m = some f → m.kind = 0 → m.body.length = 1 → (getCell s.dev c).txn.isOpen = false →
    legalFromCell 0x48 (getCell s.dev c).state = true →
    Completes (.leaveReq m) s (fun u => (getCell u.dev c).control.getLast? = some { mtype := 0x0A, body := [0x10] } ∧ u.od = s.od)) ∧
  (∀ (m : CellMsg) (s : State) (f : Flight), let c := cellOf m
    slotOffered s.od s.dev m = some f → m.kind = 0 → m.body.length = 2 →
    Completes (.nakStateReceived m) s (fun u => (getCell u.dev c).nakReceived = satInc (getCell s.dev c).nakReceived ∧
      (getCell u.dev c).awaitAnswer = false ∧ u.od = s.od)) ∧
  (∀ (m : CellMsg) (s : State) (f : Flight), let c := cellOf m
    slotOffered s.od s.dev m = some f → m.kind = 3 → m.body.length = 20 → 2 ≤ leAt m.body 0 1 → leAt m.body 0 1 ≤ 32 →
    epochFits (getCell s.dev c).txn m = true →
    Completes (.cellCreditReceived m) s (fun u => (getCell u.dev c).txn.peerGrant = m.grant.toNat ∧
      (m.echo = true → (getCell u.dev c).txn.creditDue = true) ∧ u.od = s.od))

/-- R239, R240, R244, R256: an answer completes the request it answers. -/
def Obligations.AnswersCompleteRequests : Prop :=
  ∀ (m : CellMsg) (s : State) (f : Flight), let c := cellOf m
    let ends (u : State) : Prop := (∀ q ∈ (getCell u.dev c).txn.out, q.tag ≠ m.tag.toNat) ∧ u.od = s.od
    slotOffered s.od s.dev m = some f → m.kind = 2 →
    (m.body.length = 3 → answerFits (getCell s.dev c).txn 0x05 m = true → Completes (.paramAck m) s ends) ∧
    (m.body.length = 8 → answerFits (getCell s.dev c).txn 0x06 m = true → Completes (.commitAck m) s ends) ∧
    (m.body.length = 4 + leAt m.body 2 1 → m.body.length ≤ 48 → answerFits (getCell s.dev c).txn 0x07 m = true → Completes (.calData m) s ends) ∧
    (m.body.length = 1 → answerFits (getCell s.dev c).txn 0x08 m = true → Completes (.armAck m) s ends)

/-- R237, R240, R243, R244: sessions whose time is over. -/
def Obligations.SessionTimeouts : Prop :=
  (∀ (c : Fin 128) (s : State), (getCell s.dev c.val).state = .fawn →
    (getCell s.dev c.val).sincePeriod + lclPar s.od 8 < s.dev.sched.count →
    Completes (.lockTimeout c) s (fun u => (getCell u.dev c.val).state = .fault ∧ (getCell u.dev c.val).reason = 0x13 ∧
      (getCell u.dev c.val).txn.isOpen = false ∧ u.od = s.od)) ∧
  (∀ (c : Fin 128) (s : State), (getCell s.dev c.val).state = .param → s.dev.clk.counting = true →
    Completes (.paramTimeout c) s (fun u => (getCell u.dev c.val).state = .fault ∧ (getCell u.dev c.val).reason = 0x13 ∧
      (getCell u.dev c.val).txn.isOpen = false ∧ u.od = s.od)) ∧
  (∀ (c : Fin 128) (s : State), (getCell s.dev c.val).state = .resync →
    (getCell s.dev c.val).sincePeriod + lclPar s.od 0x0B < s.dev.sched.count →
    Completes (.resyncTimeout c) s (fun u => (getCell u.dev c.val).state = .fault ∧ (getCell u.dev c.val).reason = 0x13 ∧
      (getCell u.dev c.val).txn.isOpen = false ∧ u.od = s.od)) ∧
  (∀ (r : Fin 8) (p : Fin 16) (s : State), let c := 16 * r.val + p.val
    (getRing s.dev r.val).launching = true → s.dev.clk.counting = true → p.val < ringCells s.od r.val →
    (getCell s.dev c).state ∈ [SessState.armed, .run, .hold, .resync] →
    Completes (.holdPresumption r) s (fun u => (getCell u.dev c).state = .blocked ∧ (getCell u.dev c).reason = 0x0D ∧
      (getCell u.dev c).txn.isOpen = false ∧ u.od = s.od))

/-- R244, R245, R267: what a host asks of a session. -/
def Obligations.HostsDriveSessions : Prop :=
  (∀ (via : Via) (c : Fin 128) (s : State), accepted via (0x3100 + c.val) 5 (toLE 4 0x6E797372) s = true →
    Completes (.cellRsyn via c) s (fun u => (getCell u.dev c.val).control.getLast? = some { mtype := 0x09 } ∧ u.od = s.od)) ∧
  (∀ (via : Via) (c : Fin 128) (s : State), accepted via (0x3100 + c.val) 5 (toLE 4 0x7661656C) s = true →
    Completes (.cellLeav via c) s (fun u => (getCell u.dev c.val).control.getLast? = some { mtype := 0x0A, body := [0x10] } ∧ u.od = s.od)) ∧
  (∀ (via : Via) (c : Fin 128) (s : State), accepted via (0x3480 + c.val) 1 [0, 0] s = true →
    Completes (.errantClear via c) s (fun u => (getCell u.dev c.val).txn.errant = false ∧ (getCell u.dev c.val).txn.window = [] ∧ u.od = s.od))

/-- R255, R261 to R265: the limits of a transaction. -/
def Obligations.TransactionLimits : Prop :=
  (∀ (c : Fin 128) (s : State) (q : LclReq), let t := (getCell s.dev c.val).txn
    let k := (getRing s.dev (ringOf c.val)).lastDone
    t.reconciling = false → (t.out.map (·.tag)).Nodup → (∀ x ∈ t.out, x.retries < txnPar s.od 2) → q ∈ t.out → q.resend = false →
    q.launched + txnPar s.od 1 + q.suspended ≤ k →
    Completes (.reqTimeout c) s (fun u => (∃ x ∈ (getCell u.dev c.val).txn.out, x.tag = q.tag ∧ x.resend = true ∧
      x.retries = q.retries + 1) ∧ u.od = s.od)) ∧
  (∀ (c : Fin 128) (s : State) (q : LclReq) (rest : List LclReq) (j : Nat), (getCell s.dev c.val).txn.queue = q :: rest →
    q.due = some j → j + txnPar s.od 1 ≤ s.dev.sched.count → (∀ x ∈ rest, x.due = none) →
    Completes (.requestLaunchTimeout c) s (fun u => u.od = s.od ∧
      (getCell u.dev c.val).txn.failed = satInc (getCell s.dev c.val).txn.failed ∧
      ((getCell s.dev c.val).state = .param ∨ (getCell s.dev c.val).state = .resync →
        (getCell u.dev c.val).state = .fault ∧ (getCell u.dev c.val).reason = 0x15) ∧
      ((getCell s.dev c.val).state ≠ .param → (getCell s.dev c.val).state ≠ .resync → (getCell u.dev c.val).txn.queue = rest))) ∧
  (∀ (c : Fin 128) (s : State) (q : LclReq), (getCell s.dev c.val).txn.napping = [q] → q.notBefore ≤ s.dev.sched.count →
    Completes (.nakRetryDelay c) s (fun u => (getCell u.dev c.val).txn.napping = [] ∧ u.od = s.od ∧
      ∃ i, (getCell u.dev c.val).txn.queue = (getCell s.dev c.val).txn.queue ++ [{ q with ord := i, due := none }])) ∧
  (∀ (c : Fin 128) (s : State), let t := (getCell s.dev c.val).txn
    t.isOpen = true → t.grant ≠ t.carried → t.changedAt + txnPar s.od 8 ≤ s.dev.sched.count →
    Completes (.grantHoldExpiry c) s (fun u => (getCell u.dev c.val).txn.creditDue = true ∧ u.od = s.od)) ∧
  (∀ (r : Fin 8) (p : Fin 16) (s : State) (a b : Nat), (getRing s.dev r.val).recon = some (a, b) →
    b + txnPar s.od 4 < s.dev.sched.count → p.val < ringCells s.od r.val →
    Completes (.reconcileLimit r) s (fun u => (getCell u.dev (16 * r.val + p.val)).txn.reconciling = false ∧ u.od = s.od))

/-- R275: the stack commands that the controller takes, for the next cut-off. -/
def Obligations.StackCommandsWait : Prop :=
  (∀ (via : Via) (s : State), accepted via 0x3010 1 (toLE 4 0x74727473) s = true →
    Completes (.stackStrt via) s (fun u => u.dev.stack.cmd = some .strt ∧ u.od = s.od)) ∧
  (∀ (via : Via) (s : State), accepted via 0x3010 1 (toLE 4 0x6E6E6F63) s = true →
    Completes (.stackConn via) s (fun u => u.dev.stack.cmd = some .conn ∧ u.od = s.od)) ∧
  (∀ (via : Via) (s : State), accepted via 0x3010 1 (toLE 4 0x706F7473) s = true →
    Completes (.stackStop via) s (fun u => u.dev.stack.cmd = some .stop ∧ u.dev.stack.stopFrom = s.dev.clk.dt ∧ u.od = s.od)) ∧
  (∀ (via : Via) (s : State), accepted via 0x3010 1 (toLE 4 0x6B726170) s = true →
    Completes (.stackPark via) s (fun u => u.dev.stack.park = true ∧ u.od = s.od))

/-- R277 to R283, R295, R328, R325: starts that take too long, the end of the stop ramp, the internal stops, and the update of a period. -/
def Obligations.StackConditionsStop : Prop :=
  (∀ s : State, s.dev.stack.state = .precharge → s.dev.clk.counting = true →
    Completes .prechargeTimeout s (fun u => u.dev.stack.due = some (.stopped, 3, some (1, 0xFF)) ∧ u.od = s.od)) ∧
  (∀ s : State, s.dev.stack.state = .syncing → s.dev.clk.counting = true →
    Completes .syncTimeout s (fun u => u.dev.stack.due = some (.stopped, 3, some (2, 0xFF)) ∧ u.od = s.od)) ∧
  (∀ s : State, s.dev.stack.state = .ready → s.dev.clk.counting = true →
    Completes .connectTimeout s (fun u => u.dev.stack.due = some (.stopped, 3, some (3, 0xFF)) ∧ u.od = s.od)) ∧
  (∀ s : State, s.dev.stack.state = .stopping → s.dev.prot.exportForced = false → s.dev.clk.counting = true →
    Completes .stopRampEnd s (fun u => u.dev.stack.due = some (.stopped, 2, none) ∧ u.od = s.od)) ∧
  (∀ s : State, s.dev.stack.state = .running → s.dev.stack.cmd = none → s.dev.stack.due = none → s.dev.prot.lineLostAt.isSome = true →
    s.dev.clk.counting = true →
    Completes .lineRideThroughExpiry s (fun u => u.dev.stack.due = some (.stopping, 2, none) ∧
      u.dev.stack.stopFrom = u.dev.clk.dt ∧ u.od = s.od)) ∧
  (∀ (g : Fin 4) (s : State), s.dev.stack.state = .running → s.dev.stack.cmd = none → s.dev.stack.due = none →
    (vget s.dev.stack.groups g.val).shortSince.isSome = true → s.dev.clk.counting = true →
    Completes (.headroomTimeExpiry g) s (fun u => u.dev.stack.due = some (.stopping, 2, none) ∧
      u.dev.stack.stopFrom = u.dev.clk.dt ∧ u.od = s.od)) ∧
  (∀ s : State, s.dev.isOn .ctrl = true → s.dev.sched.running = true → s.dev.sched.count ≠ 0 → s.dev.stack.handed = false →
    s.dev.clk.dt + 1600 < nextStart s.od s.dev →
    Completes .stackUpdateComplete s (fun u => u.dev.stack.handed = true ∧ u.od = s.od ∧
      (arrCode s.od = 0 → u.dev = { s.dev with stack := { s.dev.stack with handed := true } }) ∧
      (arrCode s.od ≠ 0 → u.dev.stack.busV = scaled s.od s.dev (odU s.od 0x3020 4) 0x3020 5) ∧
      (arrCode s.od = 3 → u.dev.stack.lineSamples =
        newest 8 (s.dev.stack.lineSamples ++ [scaled s.od s.dev (odU s.od 0x3020 1) 0x3020 3])) ∧
      (arrCode s.od ≠ 0 → arrCode s.od ≠ 3 → (u.dev.stack.vab, u.dev.stack.vbc) = lineSample s.od s.dev)))

/-- R306, R324, R326, R327: cells that the host clears, bypasses and reinserts. -/
def Obligations.CellsAreBypassedAndReinserted : Prop :=
  (∀ (via : Via) (c : BitVec 8) (s : State), accepted via 0x3209 6 [c] s = true →
    Completes (.clearImplausible via c) s (fun u => (getCell u.dev c.toNat).implausible = false ∧ u.od = s.od)) ∧
  (∀ (via : Via) (c : BitVec 8) (s : State), accepted via 0x3308 0x0A [c] s = true →
    Completes (.bypassCell via c) s (fun u => (∃ x ∈ u.dev.stack.bypass, x.1 = c.toNat) ∧ u.od = s.od)) ∧
  (∀ (via : Via) (c : BitVec 8) (s : State), accepted via 0x3308 0x0B [c] s = true →
    Completes (.reinsertCell via c) s (fun u => (∃ x ∈ u.dev.stack.reinserting, x.cell = c.toNat ∧ x.start = s.dev.clk.dt) ∧ u.od = s.od)) ∧
  (∀ (via : Via) (c : BitVec 8) (s t : State) (n : Nat), writeSeen via 0x3308 0x0B [c] s = some (n, t) →
    writeCheck t (some n) 0x3308 0x0B [c] = none →
    let x := getCell t.dev c.toNat
    let refused (k : Nat) : Prop := Completes (.reinsertCell via c) s (fun u =>
      abortedWith n 0x08000022 (0x200A0000 + k) u.dev ∧ u.od = t.od ∧ agreeButCom u.dev t.dev)
    if t.dev.stack.state ≠ .running then refused 1
    else if x.state ≠ .armed then refused 2
    else if stackOfCell t.od c.toNat = none ∨ isActive t.dev c.toNat = true ∨ (∃ r ∈ t.dev.stack.reinserting, r.cell = c.toNat) then refused 3
    else if x.implausible = true ∨ x.txn.errant = true then refused 4
    else if x.faultBits ≠ 0 then refused 5
    else if cellCap t.od c.toNat = 0 then refused 6
    else Completes (.reinsertCell via c) s (fun u => ∃ r ∈ u.dev.stack.reinserting, r.cell = c.toNat)) ∧
  (∀ (c : Fin 128) (s : State), (s.dev.stack.reinserting.any (fun r => r.cell == c.val)) = true → s.dev.clk.counting = true →
    Completes (.reinsertTimeout c) s (fun u => (∃ x ∈ u.dev.stack.bypass, x.1 = c.val) ∧
      (∀ x ∈ u.dev.stack.reinserting, x.cell ≠ c.val) ∧ u.od = s.od))

/-- R330, R333: the host's trip request and its release. -/
def Obligations.TripIsSetAndReleased : Prop :=
  (∀ (via : Via) (s : State), accepted via 0x3300 1 (toLE 4 0x70697274) s = true →
    Completes (.tripCommandTrip via) s (fun u => u.dev.prot.requesters.testBit 4 = true ∧ tripOutLow u.od u.dev = true ∧ u.od = s.od)) ∧
  (∀ (via : Via) (s : State), accepted via 0x3300 1 (toLE 4 0x65736C72) s = true →
    Completes (.tripCommandRlse via) s (fun u => u.dev.prot.requesters = 0 ∧ u.od = s.od ∧
      (s.dev.stack.state = .tripped → u.dev.stack.due = some (.stopped, 5, none))))

/-- R349 to R351, R354: a trigger is taken at the launch instant, or skipped; a computation completes, with its estimate and its clamped
outputs; a cut-off hands them over, or finds none and counts a miss. -/
def Obligations.ControlEngineSamples : Prop :=
  (∀ (n : Fin 16) (s : State), let i := getCe s.dev n.val
    s.dev.isOn .ctrl = true → s.dev.sched.running = true → s.dev.sched.count ≠ 0 → i.trig ≠ some s.dev.sched.last →
    ceRole s.od n.val = true ∨ (s.dev.sched.count - 1) % 2 ^ 32 % odU s.od (ceIx n.val) 6 = 0 →
    Completes (.ceTrigger n) s (fun u => (getCe u.dev n.val).trig = some s.dev.sched.last ∧ u.od = s.od ∧
      (i.state ≠ .disabled → i.state ≠ .hold → i.pending = none → i.sampled = true → i.done = false → i.commit = none →
        (getCe u.dev n.val).skipRun = i.skipRun + 1 ∧ (getCe u.dev n.val).skipped = satInc i.skipped ∧ (getCe u.dev n.val).cut = i.cut) ∧
      (i.state ≠ .disabled → i.state ≠ .hold → i.pending = none → i.commit = none → i.sampled = false ∨ i.done = true →
        (getCe u.dev n.val).cut = some (ceCutOf s.od n.val s.dev s.dev.sched.last) ∧ (getCe u.dev n.val).done = false ∧
        (getCe u.dev n.val).work = i.bank ∧ (ceRole s.od n.val = true → (getCe u.dev n.val).sampled = true)))) ∧
  (∀ (n : Fin 16) (s : State), let i := getCe s.dev n.val
    s.dev.isOn .ctrl = true → i.sampled = true → i.done = false → (ceRole s.od n.val = true → i.roleReady = true) →
    i.judged = true ∨ ceMonitor s.od n.val = 0 → (∀ t, i.cut = some t → s.dev.clk.dt < t) →
    Completes (.ceComputeDone n) s (fun u => (getCe u.dev n.val).done = true ∧ u.od = s.od)) ∧
  (∀ (n : Fin 16) (s : State), let i := getCe s.dev n.val
    let (N, m, p) := (ceN s.od n.val, ceM s.od n.val, ceP s.od n.val)
    let yhat := (List.range p).map (fun j => (writeBack (rowDot i.work (offC N m p) N j i.xbar)).1)
    let y := (List.range p).map (fun j => (vget i.meas j).value)
    let e := (List.range p).map (fun j => (writeBack (accOf (y.getD j 0) - accOf (yhat.getD j 0))).1)
    let x := (List.range N).map (fun r => (writeBack (accOf (i.xbar.getD r 0) + rowDot i.work (offL N m p) p r e)).1)
    let v := (List.range m).map (fun r => (writeBack (rowDot i.work (offK N m p) N r x + rowDot i.work (offD N m p) p r y)).1)
    s.dev.isOn .ctrl = true → i.sampled = true → i.done = false → ceRole s.od n.val = false → ceMonitor s.od n.val = 0 →
    i.judged = true → i.late = false → (∀ t, i.cut = some t → s.dev.clk.dt < t) →
    Completes (.ceComputeDone n) s (fun u => (getCe u.dev n.val).y = y ∧ (getCe u.dev n.val).xhat = x ∧
      (getCe u.dev n.val).u = v.zipIdx.map (fun (x, k) =>
        clampI (i32At (ceArray s.od n.val 0x0A) (2 * k)) (i32At (ceArray s.od n.val 0x0A) (2 * k + 1)) x))) ∧
  (∀ (n : Fin 16) (s : State), (getCe s.dev n.val).cut.isSome = true → s.dev.clk.counting = true →
    Completes (.ceCutoff n) s (fun u => (getCe u.dev n.val).cut = none ∧ u.od = s.od)) ∧
  (∀ (n : Fin 16) (s : State), let i := getCe s.dev n.val
    i.cut.isSome = true → s.dev.clk.counting = true → i.safeOwed = false → i.state ≠ .hold → i.sampled = true → i.done = true →
    Completes (.ceCutoff n) s (fun u => (getCe u.dev n.val).miss = false ∧ (getCe u.dev n.val).missRun = 0 ∧
      (getCe u.dev n.val).sampled = false ∧ ∀ k : Fin 6, k.val < i.u.length → vget (getCe u.dev n.val).uOut k.val = i.u.getD k.val 0)) ∧
  (∀ (n : Fin 16) (s : State), let i := getCe s.dev n.val
    i.cut.isSome = true → s.dev.clk.counting = true → i.safeOwed = false → i.state ≠ .hold → i.sampled = true → i.done = false →
    ceRole s.od n.val = false →
    Completes (.ceCutoff n) s (fun u => (getCe u.dev n.val).miss = true ∧ (getCe u.dev n.val).missRun = i.missRun + 1 ∧
      (getCe u.dev n.val).misses = satInc i.misses ∧ (getCe u.dev n.val).uOut = i.uOut ∧
      u.dev.engine.missTotal = satInc s.dev.engine.missTotal))

/-- R359, R360, R342: the commands of an instance. -/
def Obligations.ControlEngineTakesCommands : Prop :=
  (∀ (via : Via) (n : Fin 16) (s : State), accepted via (ceIx n.val) 1 (toLE 4 0x62616E65) s = true →
    Completes (.ceEnab via n) s (fun u => (getCe u.dev n.val).pending = some .enab ∧ u.od = s.od)) ∧
  (∀ (via : Via) (n : Fin 16) (s : State), accepted via (ceIx n.val) 1 (toLE 4 0x61736964) s = true →
    Completes (.ceDisa via n) s (fun u => (getCe u.dev n.val).state = .disabled ∧ (getCe u.dev n.val).pending = none ∧ u.od = s.od)) ∧
  (∀ (via : Via) (n : Fin 16) (s : State), accepted via (ceIx n.val) 1 (toLE 4 0x74657372) s = true →
    Completes (.ceRset via n) s (fun u => (getCe u.dev n.val).pending = some .rset ∧ u.od = s.od)) ∧
  (∀ (via : Via) (n : Fin 16) (s : State), accepted via (ceIx n.val) 1 (toLE 4 0x6D757372) s = true →
    Completes (.ceRsum via n) s (fun u => (getCe u.dev n.val).pending = some .rsum ∧ u.od = s.od)) ∧
  (∀ (via : Via) (n : Fin 16) (s : State), accepted via (ceIx n.val) 0x15 (toLE 4 0x74696D63) s = true →
    Completes (.ceCommit via n) s (fun u => u.od = s.od ∧
      ((getCe s.dev n.val).state = .disabled → (getCe u.dev n.val).bank = odGet s.od (ceIx n.val) 0x13) ∧
      ((getCe s.dev n.val).state ≠ .disabled →
        (getCe u.dev n.val).commit = some (odGet s.od (ceIx n.val) 0x13, odU s.od (ceIx n.val) 0x16)))) ∧
  (∀ (via : Via) (n : Fin 16) (w : Fin 3) (v : BitVec 8) (s : State), accepted via (ceIx n.val) (3 + w.val) [v] s = true →
    Completes (.ceDimensionWrite via n w v) s (fun u => odU u.od (ceIx n.val) (3 + w.val) = v.toNat ∧
      (getCe u.dev n.val).bank = [] ∧ (getCe u.dev n.val).xhat = []))

/-- R366 to R370: a converter takes a trigger and hands over its entries. -/
def Obligations.ConvertersRun : Prop :=
  (∀ (n : Fin 8) (s : State) (t : Nat), let w := s.upTo (adcDue n.val)
    adcEnabled s.od n.val = true → canConvert w.dev n.val = true → triggerInstant s.od n.val w.dev = some t →
    Completes (.adcTrigger n) s (fun u => u.od = s.od ∧ (getAdc u.dev n.val).lastTrig = some t ∧
      ((getAdc s.dev n.val).run = none → ∃ r, (getAdc u.dev n.val).run = some r ∧ r.trig = t ∧ r.entry = 0) ∧
      ((getAdc s.dev n.val).run.isSome = true → (getAdc u.dev n.val).overruns = satInc (getAdc s.dev n.val).overruns))) ∧
  (∀ (n : Fin 8) (samples : List Int) (s : State) (r : AdcRun), (getAdc s.dev n.val).run = some r → adcEnabled s.od n.val = true →
    canConvert s.dev n.val = true → samples.length = (seqEntry s.od n.val r.entry).samples →
    r.entry < 16 →
    let sum := (samples.map (correct s.od n.val (seqEntry s.od n.val r.entry).gain)).sum / (2 ^ (seqEntry s.od n.val r.entry).shift : Int)
    Completes (.adcEntryResult n samples) s (fun u => u.od = s.od ∧
      vget (getAdc u.dev n.val).entries r.entry = { value := ofSigned 16 (clampI (-32768) 32767 sum)
                                                    time := r.first + holdOf s.od n.val r.entry, trig := some r.trig } ∧
      (r.entry + 1 = seqLen s.od n.val → (getAdc u.dev n.val).run = none ∧
        (getAdc u.dev n.val).seqCount = wrapInc (getAdc s.dev n.val).seqCount) ∧
      (r.entry + 1 ≠ seqLen s.od n.val → (getAdc u.dev n.val).run = some { r with entry := r.entry + 1 }))) ∧
  (∀ (via : Via) (n : Fin 8) (s : State), accepted via (adcIx n.val) 0x0D [1] s = true →
    Completes (.swTrigger via n) s (fun u => u.od = s.od ∧ ∃ r, (getAdc u.dev n.val).run = some r ∧ r.trig = s.dev.clk.dt)) ∧
  (∀ (via : Via) (n : Fin 8) (s : State), accepted via (adcIx n.val) 1 [1] s = true →
    Completes (.adcEnable via n) s (fun u => adcEnabled u.od n.val = true)) ∧
  (∀ (via : Via) (n : Fin 8) (s : State), accepted via (adcIx n.val) 1 [0] s = true →
    Completes (.adcDisable via n) s (fun u => adcEnabled u.od n.val = false))

/-- R373, R374: self-calibration starts and ends. -/
def Obligations.ConvertersCalibrate : Prop :=
  (∀ (via : Via) (mask : BitVec 8) (s : State), accepted via 0x2610 1 [mask] s = true →
    Completes (.calStart via mask) s (fun u => u.od = s.od ∧
      ∀ n : Fin 8, mask.toNat.testBit n.val = true → (getAdc u.dev n.val).cal = .calibrating ∧ (getAdc u.dev n.val).calFrom = s.dev.clk.dt)) ∧
  (∀ (factors : List CalFactors) (n : Fin 8) (s : State), s.dev.isOn .meas = true → s.dev.clk.counting = true →
    (getAdc s.dev n.val).cal = .calibrating →
    (∀ m : Fin 8, (getAdc s.dev m.val).cal = .calibrating → (getAdc s.dev n.val).calFrom ≤ (getAdc s.dev m.val).calFrom) →
    Completes (.adcCalComplete factors) s (fun u => (getAdc u.dev n.val).cal =
      (if factorsOk (factors.getD n.val { offsets := [], gains := [] }) then .calibrated else .failed)))

/-- R375 to R378: a comparator follows its condition, and holds its output for 1 µs after a threshold write. -/
def Obligations.ComparatorsFollow : Prop :=
  (∀ (n : Fin 32) (outside : Bool) (s : State), s.dev.isOn .meas = true → cmpMode s.od n.val ≠ 0 →
    (vget s.dev.meas.cmps n.val).settle = none →
    Completes (.comparatorCrossing n outside) s (fun u => u.dev.meas.cmpOut.testBit n.val = outside ∧ u.od = s.od)) ∧
  (∀ (via : Via) (n : Fin 32) (v : BitVec 32) (s : State), accepted via (0x2630 + n.val) 3 (toLE 4 v.toNat) s = true →
    Completes (.cmpThresholdWrite via n v) s (fun u => (vget u.dev.meas.cmps n.val).settle = some (s.dev.clk.dt + usT 1) ∧
      odU u.od (0x2630 + n.val) 3 = v.toNat)) ∧
  (∀ (n : Fin 32) (outside : Bool) (s : State), (vget s.dev.meas.cmps n.val).settle.isSome = true → s.dev.clk.counting = true →
    cmpMode s.od n.val ≠ 0 →
    Completes (.cmpSettleEnd n outside) s (fun u => u.dev.meas.cmpOut.testBit n.val = outside ∧
      (vget u.dev.meas.cmps n.val).settle = none ∧ u.od = s.od))

/-- R379 to R382: the temperature cycle, the release of a latch, the clear of a sensor. -/
def Obligations.TemperatureIsWatched : Prop :=
  (∀ (readings : List Int) (s : State), s.dev.isOn .meas = true → s.dev.clk.counting = true → readings.length = 12 →
    (∀ r ∈ readings, -550 ≤ r ∧ r < 1650) → (∀ die : Fin 3, 2 ≤ (healthySet s.dev die.val).length ∧ dieReadable s.dev die.val = true) →
    (∀ i : Fin 12, (vget s.dev.meas.sensors i.val).bad < 7) →
    Completes (.temperatureCycle readings) s (fun u => u.od = s.od ∧ u.dev.meas.lastCycle = u.dev.clk.dt ∧
      (∀ i : Fin 12, (vget u.dev.meas.sensors i.val).reading = readings.getD i.val 0) ∧
      ∀ die : Fin 3, (vget u.dev.meas.dies die.val).temp =
        (healthySet s.dev die.val).foldl (fun a i => max a (readings.getD i 0)) (-32768))) ∧
  (∀ (die : Fin 3) (s : State), thermalClears (s.upTo (releaseInstant die.val)).dev die.val = true →
    Completes (.thermalRelease die) s (fun u => (vget u.dev.meas.dies die.val).latched = false ∧ u.od = s.od)) ∧
  (∀ (via : Via) (sensor : BitVec 8) (s : State), accepted via 0x2661 2 [sensor] s = true →
    Completes (.tsClear via sensor) s (fun u => (vget u.dev.meas.sensors sensor.toNat).healthy = true ∧ u.od = s.od))

/-- R386 to R404, R66: captures, streams, their buffers, descriptors and interrupts; a descriptor breach disables the stream. -/
def Obligations.StreamsRun : Prop :=
  (∀ (a : Fin 4) (s : State) (n : Nat), s.dev.isOn .ctrl = true → s.dev.clk.counting = true → setStream s.od s.dev a.val = some n →
    Completes (.captureInstant a) s (fun u => (getSet u.dev a.val).j = (getSet s.dev a.val).j + 1 ∧
      (getSet u.dev a.val).no = (getSet s.dev a.val).j % 2 ^ 32 ∧ u.od = s.od)) ∧
  (∀ (via : Via) (a : Fin 4) (s : State), accepted via (setIx a.val) 0x0B (toLE 4 0x736D7261) s = true →
    Completes (.arms via a) s (fun u => (getSet u.dev a.val).armed = true ∧ u.od = s.od)) ∧
  (∀ (via : Via) (n : Fin 32) (s : State), accepted via (streamIx n.val) 1 [1] s = true →
    Completes (.streamEnable via n) s (fun u => (getStream u.dev n.val).enabled = true ∧ (getStream u.dev n.val).down = false ∧ u.od = s.od)) ∧
  (∀ (via : Via) (n : Fin 32) (s : State), accepted via (streamIx n.val) 1 [0] s = true →
    Completes (.streamDisable via n) s (fun u => (getStream u.dev n.val).enabled = false ∧ u.od = s.od)) ∧
  (∀ (n : Fin 32) (v : BitVec 32) (s : State), let x := getStream s.dev n.val
    s.dev.isOn .net = true →
    Completes (.tailWrite n v) s (fun u => u.od = s.od ∧
      (x.enabled = false → (getStream u.dev n.val).tail = v.toNat ∧ (getStream u.dev n.val).posted = x.posted) ∧
      (x.enabled = true → (v.toNat + 2 ^ 32 - x.completed) % 2 ^ 32 ≤ x.ringSize → (v.toNat + 2 ^ 32 - x.tail) % 2 ^ 32 ≤ x.ringSize →
        (getStream u.dev n.val).tail = v.toNat ∧ (getStream u.dev n.val).posted = v.toNat) ∧
      (x.enabled = true → x.ringSize < (v.toNat + 2 ^ 32 - x.completed) % 2 ^ 32 ∨ x.ringSize < (v.toNat + 2 ^ 32 - x.tail) % 2 ^ 32 →
        (getStream u.dev n.val).tail = x.tail ∧ (getStream u.dev n.val).ignored = satInc x.ignored))) ∧
  (∀ (n : Fin 32) (b : Bytes) (s : State), let x := getStream s.dev n.val
    let good := leAt b 0 8 % 64 = 0 ∧ 8192 ≤ leAt b 8 4 ∧ leAt b 8 4 ≤ 4194304 ∧ leAt b 8 4 % 64 = 0
    x.enabled = true → x.down = false → x.paused = false → linkReady s.dev = true → x.fetched ≠ x.posted → b.length = 32 →
    Completes (.descriptorFetchComplete n b) s (fun u => u.od = s.od ∧ (getStream u.dev n.val).fetched = wrapInc x.fetched ∧
      (good → (getStream u.dev n.val).held = x.held ++ [{ index := x.fetched, addr := leAt b 0 8, len := leAt b 8 4 }]) ∧
      (¬ good → x.fetched ∉ x.ended → (getStream u.dev n.val).bad = satInc x.bad ∧
        (getStream u.dev n.val).completed = wrapInc x.completed))) ∧
  (∀ (n : Fin 32) (s : State) (r : Staged) (rest : List Staged) (b : Descriptor) (more : List Descriptor), let x := getStream s.dev n.val
    let f := x.fill.getD {}
    x.enabled = true → x.down = false → x.paused = false → linkReady s.dev = true → srcKind s.od n.val ≠ 2 →
    x.staging = r :: rest → x.held = b :: more → f.written + r.bytes.length ≤ b.len → b.index ∉ x.ended →
    Completes (.recordToBuffer n) s (fun u => u.od = s.od ∧ (getStream u.dev n.val).staging = rest ∧
      u.dev.out = s.dev.out ++ [Output.dmaWrite (b.addr + f.written) r.bytes])) ∧
  (∀ (n : Fin 32) (s : State) (r : Staged) (rest : List Staged) (b : Descriptor) (more : List Descriptor), let x := getStream s.dev n.val
    x.enabled = true → x.down = false → x.paused = false → linkReady s.dev = true → srcKind s.od n.val ≠ 2 →
    x.staging = r :: rest → x.held = b :: more → (x.fill.getD {}).written + r.bytes.length ≤ b.len → b.index ∈ x.ended →
    Completes (.recordToBuffer n) s (fun u => u.od = s.od ∧ (getStream u.dev n.val).enabled = false ∧
      u.dev.breach.descriptor = satInc s.dev.breach.descriptor)) ∧
  (∀ (n : Fin 32) (s : State) (f : Fill) (b : Descriptor) (more : List Descriptor), let x := getStream s.dev n.val
    x.fill = some f → x.held = b :: more → b.index ∉ x.ended → odU s.od (streamIx n.val) 5 ≠ 0 → f.written ≠ 0 → x.down = false → x.paused = false →
    linkReady s.dev = true → s.dev.clk.counting = true →
    Completes (.flushTimeout n) s (fun u => u.od = s.od ∧ (getStream u.dev n.val).held = more ∧ (getStream u.dev n.val).fill = none ∧
      (getStream u.dev n.val).completed = wrapInc x.completed)) ∧
  (∀ (n : Fin 32) (s : State), (getStream s.dev n.val).signalFrom.isSome = true → (getStream s.dev n.val).irqTime ≠ 0 →
    s.dev.clk.counting = true →
    Completes (.irqTimeExpiry n) s (fun u => (getStream u.dev n.val).signalFrom = none ∧ (getStream u.dev n.val).unsignalled = 0 ∧ u.od = s.od)) ∧
  (∀ (n : Fin 32) (offset : BitVec 7) (v : BitVec 32) (s : State), s.dev.isOn .net = true →
    Completes (.streamRegisterWrite n offset v) s (fun u => u.od = s.od ∧
      (offset = 0x08 → (getStream s.dev n.val).enabled = false → (getStream u.dev n.val).ringSize = v.toNat % 8192) ∧
      (offset = 0x08 → (getStream s.dev n.val).enabled = true → (getStream u.dev n.val).ringSize = (getStream s.dev n.val).ringSize) ∧
      (offset = 0x18 → (getStream u.dev n.val).irqCount = min (max (v.toNat % 512) 1) 256) ∧
      (offset = 0x1C → (getStream u.dev n.val).irqTime = v.toNat % 65536)))

/-- R395 to R397, R403, R120: the PCIe endpoint: reset pin, link, power state, configuration space, BAR0, MSI-X. -/
def Obligations.PcieEndpointActs : Prop :=
  (∀ s : State, Completes .pciePerstNAssert s (fun u => u.dev.acq.pcie = {} ∧ u.od = s.od)) ∧
  (∀ s : State, Completes .pciePerstNRelease s (fun u => u.dev.acq.pcie.perst = false ∧ u.od = s.od)) ∧
  (∀ (speed : Fin 4) (width : Fin 3) (s : State), s.dev.acq.pcie.up = false → s.dev.acq.pcie.perst = false →
    vget s.dev.rails.ok 3 = true → vget s.dev.rails.ok 4 = true → s.dev.isOn .net = true → speed.val ≠ 0 → width.val ≠ 0 →
    Completes (.pcieLinkUp speed width) s (fun u => u.dev.acq.pcie.up = true ∧ u.dev.acq.pcie.speed = speed.val ∧
      u.dev.acq.pcie.width = width.val ∧ u.od = s.od)) ∧
  (∀ s : State, s.dev.acq.pcie.up = true →
    Completes .pcieLinkDown s (fun u => u.dev.acq.pcie.up = false ∧ u.dev.acq.pcie.busMaster = false ∧ u.od = s.od ∧
      ∀ n : Fin 32, (getStream s.dev n.val).enabled = true → (getStream u.dev n.val).down = true)) ∧
  (∀ s : State, s.dev.acq.pcie.up = true → s.dev.acq.pcie.d3hot = false →
    Completes .pcieD3hot s (fun u => u.dev.acq.pcie.d3hot = true ∧ u.od = s.od ∧
      ∀ n : Fin 32, (getStream s.dev n.val).enabled = true → (getStream u.dev n.val).down = true)) ∧
  (∀ s : State, s.dev.isOn .net = true → Completes .busMasterClear s (fun u => u.dev.acq.pcie.busMaster = false ∧ u.od = s.od)) ∧
  (∀ (reg : BitVec 12) (v : BitVec 32) (s : State), s.dev.acq.pcie.perst = false → s.dev.isOn .net = true →
    Completes (.pcieConfigRequest false reg v) s (fun u =>
      u.dev = { s.dev with out := s.dev.out ++ [Output.pcieCompletion false (configRead s.dev reg.toNat)] } ∧ u.od = s.od)) ∧
  (∀ (v : BitVec 32) (s : State), s.dev.acq.pcie.perst = false → s.dev.isOn .net = true →
    Completes (.pcieConfigRequest true 0x14 v) s (fun u => u.dev.acq.pcie.bar / 2 ^ 32 = v.toNat ∧
      u.dev.acq.pcie.bar % 2 ^ 32 = s.dev.acq.pcie.bar % 2 ^ 32 ∧ u.od = s.od)) ∧
  (∀ (w : Bool) (reg : BitVec 12) (v : BitVec 32) (s : State), s.dev.acq.pcie.perst = false → s.dev.isOn .net = false →
    Completes (.pcieConfigRequest w reg v) s (fun u =>
      u.dev = { s.dev with out := s.dev.out ++ [Output.pcieCompletion true 0] } ∧ u.od = s.od)) ∧
  (∀ s : State, s.dev.isOn .net = true → s.dev.acq.pcie.up = true → s.dev.acq.pcie.memory = true → s.dev.acq.pcie.d3hot = false →
    Completes .barTimeLoRead s (fun u => barRead u.od u.dev 0x0C = s.dev.clk.dt / 2 ^ 32 % 2 ^ 32 ∧
      u.dev.out = s.dev.out ++ [Output.pcieCompletion false (barRead s.od s.dev 0x08)] ∧ u.od = s.od)) ∧
  (∀ (v : Fin 36) (s : State), s.dev.isOn .net = true →
    Completes (.msixUnmask v) s (fun u => u.dev.acq.pcie.masked.testBit v.val = false ∧ u.od = s.od ∧
      (s.dev.acq.pcie.pending.testBit v.val = true → linkReady s.dev = true →
        u.dev.acq.pcie.pending.testBit v.val = false ∧ u.dev.out = s.dev.out ++ [Output.msix v.val])))

/-- R409 to R418: pairs are enabled and disabled, take their sets at the cut-off and start their periods. -/
def Obligations.PwmPairsRun : Prop :=
  (∀ (via : Via) (q : Fin 20) (s : State), accepted via (0x4000 + q.val) 1 (toLE 4 0x62616E65) s = true →
    Completes (.pairEnab via q) s (fun u => (vget u.dev.pwm.pairs q.val).enabled = true ∧ u.od = s.od)) ∧
  (∀ (via : Via) (q : Fin 20) (s : State), accepted via (0x4000 + q.val) 1 (toLE 4 0x61736964) s = true →
    Completes (.pairDisa via q) s (fun u => (vget u.dev.pwm.pairs q.val).enabled = false ∧ (vget u.dev.pwm.pairs q.val).active = false ∧
      pwmPin u.od u.dev (2 * q.val) = false ∧ pwmPin u.od u.dev (2 * q.val + 1) = false ∧ u.od = s.od)) ∧
  (∀ (via : Via) (q : Fin 20) (s : State), accepted via (0x4000 + q.val) 0x0D (toLE 4 0x74696D63) s = true →
    Completes (.pwmCommit via q) s (fun u => u.od = s.od ∧ (vget u.dev.pwm.pairs q.val).dirty = {} ∧
      (vget u.dev.pwm.pairs q.val).sets = (vget s.dev.pwm.pairs q.val).sets ++ [(s.dev.clk.dt, (vget s.dev.pwm.pairs q.val).dirty)])) ∧
  (∀ (q : Fin 20) (s : State) (t : Nat), pairDue q.val s.dev = some t → s.dev.clk.counting = true →
    Completes (.pwmCutoff q) s (fun u => (vget u.dev.pwm.pairs q.val).cutDone = some t ∧ u.od = s.od)) ∧
  (∀ (q : Fin 20) (seen : Option (Bool × Bool)) (s : State) (t : Nat), pairDue q.val s.dev = some t → s.dev.clk.counting = true →
    Completes (.pwmPeriodStart q seen) s (fun u => (vget u.dev.pwm.pairs q.val).active = true ∧ (vget u.dev.pwm.pairs q.val).start = t ∧
      (vget u.dev.pwm.pairs q.val).j = (if (vget s.dev.pwm.pairs q.val).active then (vget s.dev.pwm.pairs q.val).j + 1 else 0) ∧ u.od = s.od))

/-- R420 to R428: a fault pin forces the groups of its map and holds their channels; ASC_DELAY; the releases. -/
def Obligations.PronghornForcesAndReleases : Prop :=
  (∀ (n : Fin 16) (g : Fin 10) (s : State), s.dev.isOn .drv = true → (odU s.od (0x4100 + n.val) 1).testBit g.val = true →
    Completes (.faultPinEdge n) s (fun u => u.od = s.od ∧ u.dev.pwm.raised.testBit n.val = true ∧
      (vget u.dev.pwm.groups g.val).forced = true ∧
      ((vget s.dev.pwm.groups g.val).forced = false → ∀ c : Fin 40, groupOfChannel s.od c.val = some g.val → pwmPin u.od u.dev c.val = false))) ∧
  (∀ (n : Fin 16) (g : Fin 10) (s : State), s.dev.isOn .drv = true →
    Completes (.faultPinInactive n) s (fun u => u.od = s.od ∧ u.dev.pwm.raised.testBit n.val = false ∧
      ((vget s.dev.pwm.groups g.val).forced = true → (vget u.dev.pwm.groups g.val).forced = true))) ∧
  (∀ (g : Fin 10) (s : State), s.dev.isOn .drv = true → (vget s.dev.pwm.groups g.val).forced = true →
    (vget s.dev.pwm.groups g.val).ascOn = false → safeStateOf s.od s.dev g.val ≠ 0 → s.dev.clk.counting = true →
    Completes (.ascDelayExpiry g) s (fun u => (vget u.dev.pwm.groups g.val).ascOn = true ∧
      (vget s.dev.pwm.groups g.val).time + 80 * odU s.od (0x4180 + g.val) 3 ≤ u.dev.clk.dt ∧ u.od = s.od)) ∧
  (∀ (via : Via) (g : Fin 10) (s : State), accepted via (0x4180 + g.val) 8 (toLE 4 0x65736C72) s = true →
    Completes (.groupRelease via g) s (fun u => (vget u.dev.pwm.groups g.val).forced = false ∧
      (vget u.dev.pwm.groups g.val).exhausted = false ∧ u.od = s.od)) ∧
  (∀ (via : Via) (g : Fin 10) (s t : State) (n : Nat), writeSeen via (0x4180 + g.val) 8 (toLE 4 0x65736C72) s = some (n, t) →
    writeCheck t (some n) (0x4180 + g.val) 8 (toLE 4 0x65736C72) = none →
    (∀ i : Fin 56, t.dev.pwm.raised.testBit i.val = true → (odU t.od (0x4100 + i.val) 1).testBit g.val = true →
      (∀ j < i.val, t.dev.pwm.raised.testBit j = true → (odU t.od (0x4100 + j) 1).testBit g.val = false) →
      Completes (.groupRelease via g) s (fun u => abortedWith n 0x08000022 (0x30030000 + i.val) u.dev ∧ u.od = t.od ∧ agreeButCom u.dev t.dev)) ∧
    ((∀ i < 56, t.dev.pwm.raised.testBit i = true → (odU t.od (0x4100 + i) 1).testBit g.val = false) →
      ((deviceForcing t.dev).isSome = true →
        Completes (.groupRelease via g) s (fun u => abortedWith n 0x08000022 0x30040000 u.dev ∧ u.od = t.od ∧ agreeButCom u.dev t.dev)) ∧
      ((deviceForcing t.dev).isSome = false → (vget t.dev.pwm.groups g.val).forced = false →
        Completes (.groupRelease via g) s (fun u => abortedWith n 0x08000022 (0x30080000 + g.val) u.dev ∧ u.od = t.od ∧ agreeButCom u.dev t.dev)) ∧
      ((deviceForcing t.dev).isSome = false → (vget t.dev.pwm.groups g.val).forced = true → t.dev.isOn .sec = true →
        Completes (.groupRelease via g) s (fun u => (vget u.dev.pwm.groups g.val).forced = false ∧
          eventNow 0x3002 (0x320 + g.val) u.dev ∧ u.od = t.od)))) ∧
  (∀ (g : Fin 10) (s : State), let x := vget s.dev.pwm.groups g.val
    let w := s.upTo (fun o d => let gr := vget d.pwm.groups g.val
      if gr.forced && odU o (0x4180 + g.val) 4 == 1 then gr.lowSince.map (fun t => .device (t + msT (odU o (0x4180 + g.val) 5))) else none)
    s.dev.isOn .drv = true → x.forced = true → odU s.od (0x4180 + g.val) 4 = 1 → x.exhausted = false → x.island = false →
    deviceForcing s.dev = none → groupSources s.od s.dev g.val = [] → x.lowSince.isSome = true → s.dev.clk.counting = true →
    Completes (.autoRelease g) s (fun u => u.od = s.od ∧
      (0 < autosLeft s.od w.dev g.val → (vget u.dev.pwm.groups g.val).forced = false) ∧
      (autosLeft s.od w.dev g.val = 0 → (vget u.dev.pwm.groups g.val).forced = true ∧ (vget u.dev.pwm.groups g.val).exhausted = true)))

/-- R438 to R444: a bridge trips, retries, is cleared, tested, and released from its supply hold. -/
def Obligations.BridgesTripAndRecover : Prop :=
  (∀ (k : Fin 6) (kinds : BitVec 4) (s : State), s.dev.isOn .drv = true → (vget s.dev.bridges k.val).state = .run → kinds ≠ 0 →
    Completes (.bridgeFault k kinds) s (fun u => u.od = s.od ∧
      (vget u.dev.bridges k.val).faultCount = satInc (vget s.dev.bridges k.val).faultCount ∧
      (vget u.dev.bridges k.val).faultTime = s.dev.clk.dt ∧
      (vget u.dev.bridges k.val).state = (if retriesLeft s.od s.dev k.val = 0 then .lockout else .retryWait))) ∧
  (∀ (k : Fin 6) (s : State), s.dev.isOn .drv = true → (vget s.dev.bridges k.val).state = .retryWait →
    (vget s.dev.bridges k.val).resumeFrom = none → s.dev.clk.counting = true →
    Completes (.retryWaitExpiry k) s (fun u => (vget u.dev.bridges k.val).resumeFrom = some (retryDue s.od k.val s.dev + 800) ∧ u.od = s.od)) ∧
  (∀ (via : Via) (k : Fin 6) (s : State), accepted via (0x4200 + k.val) 1 (toLE 4 0x66726C63) s = true →
    Completes (.bridgeClrf via k) s (fun u => u.od = s.od ∧ (vget u.dev.bridges k.val).retries = [] ∧
      ((vget s.dev.pwm.pairs (14 + k.val)).active = true → (vget u.dev.bridges k.val).resumeFrom = some (s.dev.clk.dt + 800)) ∧
      ((vget s.dev.pwm.pairs (14 + k.val)).active = false → (vget u.dev.bridges k.val).state = .off))) ∧
  (∀ (via : Via) (k : Fin 6) (s : State), accepted via (0x4200 + k.val) 1 (toLE 4 0x74736574) s = true →
    Completes (.bridgeTest via k) s (fun u => (vget u.dev.bridges k.val).state = .selfTest ∧ u.od = s.od)) ∧
  (∀ (k : Fin 6) (r : BitVec 8) (s : State), s.dev.isOn .drv = true → (vget s.dev.bridges k.val).state = .selfTest →
    Completes (.selftestDone k r) s (fun u => (vget u.dev.bridges k.val).state = .off ∧
      (vget u.dev.bridges k.val).selfTest = selftestResult r.toNat ∧ u.od = s.od)) ∧
  (∀ (k : Fin 6) (s : State), let b := vget s.dev.bridges k.val
    let active := (vget s.dev.pwm.pairs (14 + k.val)).active
    s.dev.isOn .drv = true → vget s.dev.rails.ok 8 = true → s.dev.hvLatched = false → b.state = .supplyHold → b.resumeFrom = none →
    Completes .supplyHoldRelease s (fun u => u.od = s.od ∧
      (b.wasLockout = true → (vget u.dev.bridges k.val).state = .lockout) ∧
      (b.wasLockout = false → active = false → (vget u.dev.bridges k.val).state = .off) ∧
      (b.wasLockout = false → active = true → (vget u.dev.bridges k.val).resumeFrom = some (u.dev.clk.dt + 800))))

/-- R447 to R460: an axis follows its commands and times. -/
def Obligations.AxesChangeState : Prop :=
  (∀ (via : Via) (n : Fin 6) (s : State), accepted via (axisIx n.val) 1 (toLE 4 0x62616E65) s = true →
    Completes (.axisEnab via n) s (fun u => let a := vget u.dev.axes n.val
      (a.forcedHeld = false → a.state = .starting ∧ a.start = .polarity 0) ∧ (a.forcedHeld = true → a.state = .blocked) ∧ u.od = s.od)) ∧
  (∀ (via : Via) (n : Fin 6) (s : State), accepted via (axisIx n.val) 1 (toLE 4 0x74616365) s = true →
    Completes (.axisEcat via n) s (fun u => let a := vget u.dev.axes n.val
      (a.forcedHeld = false → a.state = .recatch ∨ a.state = .fault) ∧ (a.forcedHeld = true → a.state = .blocked) ∧
      a.stoHeld = false ∧ u.od = s.od)) ∧
  (∀ (via : Via) (n : Fin 6) (s : State), accepted via (axisIx n.val) 1 (toLE 4 0x61736964) s = true →
    Completes (.axisDisa via n) s (fun u => (vget u.dev.axes n.val).state = .disabled ∧ (vget u.dev.axes n.val).cause = 0x01 ∧
      (vget u.dev.pwm.pairs (axisPair n.val)).enabled = false ∧ u.od = s.od)) ∧
  (∀ (via : Via) (n : Fin 6) (s : State), accepted via (axisIx n.val) 1 (toLE 4 0x6C636564) s = true →
    Completes (.axisDecl via n) s (fun u => (vget u.dev.axes n.val).state = .decel ∧ (vget u.dev.axes n.val).cause = 0x01 ∧ u.od = s.od)) ∧
  (∀ (via : Via) (n : Fin 6) (s : State), accepted via (axisIx n.val) 1 (toLE 4 0x66726C63) s = true →
    Completes (.axisClrf via n) s (fun u => u.od = s.od ∧ (vget u.dev.axes n.val).recatches = [] ∧
      (vget u.dev.axes n.val).state = (if (vget s.dev.axes n.val).inhibit = .short then .asc else .blocked))) ∧
  (∀ (n : Fin 6) (s : State), s.dev.isOn .drv = true → (vget s.dev.axes n.val).state ≠ .disabled →
    (vget s.dev.pwm.pairs (axisPair n.val)).active = true →
    let a := (loopStep s.od n.val s.dev).axis
    Completes (.axisLoopSample n) s (fun u => (vget u.dev.axes n.val).pCount = (vget s.dev.axes n.val).pCount + 1 ∧
      (vget u.dev.axes n.val).speed = a.speed ∧ (vget u.dev.axes n.val).theta = a.theta ∧ (vget u.dev.axes n.val).iD = a.iD ∧
      (vget u.dev.axes n.val).iQ = a.iQ ∧ (vget u.dev.axes n.val).thetaMech = a.thetaMech ∧
      u.dev.free = s.dev.free + 1 ∧ u.od = s.od)) ∧
  (∀ (n : Fin 6) (s : State) (t : Nat), s.dev.isOn .drv = true → s.dev.clk.counting = true → (vget s.dev.axes n.val).state = .starting →
    (vget s.dev.axes n.val).start = .wait t →
    Completes (.startRetryDelayExpiry n) s (fun u => (vget u.dev.axes n.val).start = .polarity 0 ∧ (vget u.dev.axes n.val).inhibit = .none ∧ u.od = s.od)) ∧
  (∀ (n : Fin 6) (s : State) (th : Rat) (t : Nat), s.dev.isOn .drv = true → s.dev.clk.counting = true →
    (vget s.dev.axes n.val).state = .starting → (vget s.dev.axes n.val).start = .torque th (some t) →
    Completes (.startTimeout n) s (fun u => (vget u.dev.axes n.val).attempts = (vget s.dev.axes n.val).attempts + 1 ∧ u.od = s.od ∧
      (odU s.od (axisIx n.val) 0x1B < (vget s.dev.axes n.val).attempts + 1 → (vget u.dev.axes n.val).state = .fault) ∧
      ((vget s.dev.axes n.val).attempts + 1 ≤ odU s.od (axisIx n.val) 0x1B → (vget u.dev.axes n.val).start = .wait u.dev.clk.dt))) ∧
  (∀ (n : Fin 6) (s : State), let a := vget s.dev.axes n.val
    s.dev.isOn .drv = true → s.dev.clk.counting = true → a.state = .blocked → a.stoHeld = false → a.hardHeld = false →
    a.forcedHeld = false → a.delayFrom.isSome = true →
    Completes (.recatchDelayExpiry n) s (fun u => u.od = s.od ∧ (vget u.dev.axes n.val).state =
      (if odU s.od (axisIx n.val) 0x23 < (a.recatches.filter (fun t => u.dev.clk.dt < t + secT 10)).length + 1 then .fault else .recatch))) ∧
  (∀ (n : Fin 6) (s : State), s.dev.isOn .drv = true → s.dev.clk.counting = true → (vget s.dev.axes n.val).state = .recatch →
    Completes (.recatchTimeout n) s (fun u => (vget u.dev.axes n.val).state = .blocked ∧
      (vget u.dev.axes n.val).delayFrom = some u.dev.clk.dt ∧ u.od = s.od)) ∧
  (∀ (n : Fin 6) (s : State), s.dev.isOn .drv = true → s.dev.clk.counting = true → (vget s.dev.axes n.val).state = .decel →
    (vget s.dev.axes n.val).slowSince.isSome = true →
    Completes (.decelStopComplete n) s (fun u => (vget u.dev.axes n.val).state = .disabled ∧ (vget u.dev.axes n.val).cause = 0x0C ∧
      (vget u.dev.pwm.pairs (axisPair n.val)).enabled = false ∧ u.od = s.od))

/-- R462 to R468: the brake chopper and the ladder. -/
def Obligations.ChopperAndLadderAct : Prop :=
  (∀ (via : Via) (s : State), accepted via 0x4600 1 (toLE 4 0x62616E65) s = true →
    Completes (.chopEnab via) s (fun u => u.dev.ladder.enabled = true ∧ (∀ l : Fin 2, (vget u.dev.ladder.legs l.val).state = .ready) ∧
      (vget u.dev.pwm.pairs 12).enabled = true ∧ (vget u.dev.pwm.pairs 13).enabled = true ∧ u.od = s.od)) ∧
  (∀ (via : Via) (s : State), accepted via 0x4600 1 (toLE 4 0x61736964) s = true →
    Completes (.chopDisa via) s (fun u => u.dev.ladder.enabled = false ∧ (vget u.dev.pwm.pairs 12).enabled = false ∧
      (vget u.dev.pwm.pairs 13).enabled = false ∧ u.od = s.od)) ∧
  (∀ (via : Via) (s : State), accepted via 0x4600 1 (toLE 4 0x66726C63) s = true →
    Completes (.chopClrf via) s (fun u => u.od = s.od ∧ ∀ l : Fin 2, (vget s.dev.ladder.legs l.val).state = .fault →
      legForced s.od s.dev l.val = false → (vget u.dev.ladder.legs l.val).state = (if s.dev.ladder.enabled then .ready else .off))) ∧
  (∀ s : State, s.dev.isOn .drv = true → s.dev.clk.counting = true → ladderRuns s.dev = true → s.dev.ladder.stale = false →
    Completes .ladderStale s (fun u => u.dev.ladder.stale = true ∧ u.dev.ladder.step = 3 ∧
      (∀ l : Fin 2, (vget u.dev.ladder.legs l.val).duty = 0) ∧ u.od = s.od)) ∧
  (∀ s : State, s.dev.isOn .drv = true → s.dev.clk.counting = true → s.dev.ladder.mech = true → s.dev.ladder.mechClear.isSome = true →
    Completes .mechHoldExpiry s (fun u => u.dev.ladder.mech = false ∧ u.od = s.od))

/-- R480 to R483: copies are held and paired, a window and a connection time out, a status is sent. -/
def Obligations.SafetyConnectionsAct : Prop :=
  (∀ (eth : Bool) (port : Fin 2) (cob : BitVec 32) (mac pdu : Bytes) (s : State), let c := leAt pdu 0 1
    s.dev.isOn .safe = true → copyChecks s.od eth port.val cob.toNat pdu = false → c < 32 →
    Completes (.safetyCopyArrival eth port cob mac pdu) s (fun u =>
      (vget u.dev.isl.conns c).crcErrors = satInc (vget s.dev.isl.conns c).crcErrors ∧
      (vget u.dev.isl.conns c).held = (vget s.dev.isl.conns c).held ∧ u.dev.isl.pairs = s.dev.isl.pairs ∧ u.od = s.od)) ∧
  (∀ (eth : Bool) (port : Fin 2) (cob : BitVec 32) (mac pdu : Bytes) (s : State), let c := leAt pdu 0 1
    let k := vget s.dev.isl.conns c
    s.dev.isOn .safe = true → copyChecks s.od eth port.val cob.toNat pdu = true → leAt pdu 12 4 = odU s.od 0x5000 3 →
    k.held = [] → k.command = none ∨ k.lastSeq ≠ leAt pdu 2 2 →
    Completes (.safetyCopyArrival eth port cob mac pdu) s (fun u =>
      (vget u.dev.isl.conns c).held = [{ eth := eth, at_ := s.dev.clk.run, mac := mac, pdu := pdu }] ∧
      (vget u.dev.isl.conns c).state = k.state ∧ u.dev.isl.pairs = s.dev.isl.pairs ∧ u.od = s.od)) ∧
  (∀ (eth : Bool) (port : Fin 2) (cob : BitVec 32) (mac pdu : Bytes) (s : State) (h : HeldCopy), let c := leAt pdu 0 1
    let k := vget s.dev.isl.conns c
    let step := (leAt pdu 2 2 + 65536 - k.lastSeq) % 65536
    s.dev.isOn .safe = true → copyChecks s.od eth port.val cob.toNat pdu = true → leAt pdu 12 4 = odU s.od 0x5000 3 →
    k.held = [h] → h.pdu = pdu → h.eth ≠ eth → s.dev.clk.run ≤ h.at_ + usT (odU s.od (connIx c) 6) →
    k.command = none ∨ k.lastSeq ≠ leAt pdu 2 2 → k.state ≠ .run ∨ (1 ≤ step ∧ step ≤ odU s.od (connIx c) 9) →
    Completes (.safetyCopyArrival eth port cob mac pdu) s (fun u =>
      (vget u.dev.isl.conns c).state = .run ∧ (vget u.dev.isl.conns c).lastSeq = leAt pdu 2 2 ∧
      (vget u.dev.isl.conns c).held = [] ∧ (vget u.dev.isl.conns c).lastAccept = s.dev.clk.run ∧ u.od = s.od)) ∧
  (∀ (c : Fin 32) (s : State) (seq : Nat) (mac : Bytes), s.dev.isOn .safe = true → (vget s.dev.isl.conns c.val).statusDue = some (seq, mac) →
    Completes (.statusPduSend c) s (fun u => (vget u.dev.isl.conns c.val).statusDue = none ∧ u.od = s.od ∧
      u.dev.out = s.dev.out ++ [Output.can (bitField (odU s.od (connIx c.val) 0x0F) 16 1) (bitField (odU s.od (connIx c.val) 0x0F) 0 11)
          (statusPdu s.od s.dev c.val seq),
        Output.eth (odU s.od (connIx c.val) 5) mac ([2, 1, 0, 0] ++ statusPdu s.od s.dev c.val seq)])) ∧
  (∀ (c : Fin 32) (s : State) (h : HeldCopy), s.dev.isOn .safe = true → (vget s.dev.isl.conns c.val).held = [h] →
    Completes (.compareWindowExpiry c) s (fun u => (vget u.dev.isl.conns c.val).held = [] ∧
      (vget u.dev.isl.conns c.val).lone = satAdd 32 (vget s.dev.isl.conns c.val).lone 1 ∧ u.od = s.od)) ∧
  (∀ (c : Fin 32) (s : State), s.dev.isOn .safe = true → (vget s.dev.isl.conns c.val).state = .run →
    Completes (.connTimeout c) s (fun u => (vget u.dev.isl.conns c.val).state = .fault ∧
      (vget u.dev.isl.conns c.val).faultCause = 4 ∧ u.od = s.od))

/-- R475, R477, R484, R485, R490: the pairs' comparisons and test pulses, the speed monitor, SS1, the check value. -/
def Obligations.SafetyPairsAreWatched : Prop :=
  (∀ (n : Fin 4) (samples : List (Int × Int)) (s : State), let m := speedWindow s.od n.val samples (vget s.dev.isl.speed n.val)
    s.dev.isOn .safe = true → (vget s.dev.isl.speed n.val).ss1 = none →
    Completes (.speedWindowEnd n samples) s (fun u => (vget u.dev.isl.speed n.val).valid = m.valid ∧
      (m.valid = true → (vget u.dev.isl.speed n.val).speed = m.speed ∧
        (vget u.dev.isl.speed n.val).lastValid = some (s.dev.clk.run, m.speed)) ∧ u.od = s.od)) ∧
  (∀ (n : Fin 4) (s : State), s.dev.isOn .safe = true → (vget s.dev.isl.speed n.val).ss1.isSome = true →
    Completes (.ss1TimeLimit n) s (fun u => (vget u.dev.isl.speed n.val).ss1 = none ∧ u.od = s.od ∧
      (pairEnabled s.od n.val = true → (vget u.dev.isl.pairs n.val).state ≠ .permit ∧
        (vget u.dev.isl.pairs n.val).a.level = false ∧ (vget u.dev.isl.pairs n.val).b.level = false))) ∧
  (∀ (fbA fbB : BitVec 4) (n : Fin 4) (s : State), let p := vget s.dev.isl.pairs n.val
    s.dev.isOn .safe = true → pairEnabled s.od n.val = true → p.a.changed + fbDelay s.od ≤ s.dev.clk.run →
    fbA.toNat.testBit n.val ≠ p.a.level → p.a.unequal = 2 → p.state ≠ .fault →
    Completes (.feedbackCheck fbA fbB) s (fun u => (vget u.dev.isl.pairs n.val).state = .fault ∧
      (vget u.dev.isl.pairs n.val).a.level = false ∧ (vget u.dev.isl.pairs n.val).b.level = false ∧ u.od = s.od)) ∧
  (∀ (n : Fin 4) (b : Bool) (s : State), let p := vget s.dev.isl.pairs n.val
    s.dev.isOn .safe = true → p.state = .permit → (if b then p.a else p.b).quiet = true →
    Completes (.testPulseStart n b) s (fun u => let q := vget u.dev.isl.pairs n.val
      (if b then q.b else q.a).level = false ∧ (if b then q.b else q.a).pulse = some (u.dev.clk.run, none) ∧
      (if b then q.a else q.b) = (if b then p.a else p.b) ∧ q.state = .permit ∧ u.od = s.od)) ∧
  (∀ (n : Fin 4) (b : Bool) (s : State) (t : Nat), let p := vget s.dev.isl.pairs n.val
    s.dev.isOn .safe = true → (if b then p.b else p.a).pulse = some (t, none) →
    Completes (.testPulseEnd n b) s (fun u => let q := vget u.dev.isl.pairs n.val
      (if b then q.b else q.a).level = true ∧ (if b then q.b else q.a).pulse = some (t, some u.dev.clk.run) ∧
      t + usT (odU s.od 0x5000 7) ≤ u.dev.clk.run ∧ u.od = s.od)) ∧
  (∀ (via : Via) (n : Fin 4) (s : State), accepted via (0x5010 + n.val) 3 (toLE 4 0x66726C63) s = true →
    Completes (.pairClrf via n) s (fun u => (vget u.dev.isl.pairs n.val).state = .off ∧ u.od = s.od)) ∧
  (∀ (via : Via) (v : BitVec 32) (s : State), accepted via 0x5000 3 (toLE 4 v.toNat) s = true →
    Completes (.ccvConfirmedWrite via v) s (fun u => odU u.od 0x5000 3 = v.toNat ∧ u.dev.isl.ccv = v.toNat ∧
      (s.dev.isl.failHold = false → u.dev.isl.state = .operational))) ∧
  (∀ s : State, s.dev.isOn .safe = true →
    Completes .ccvUpdate s (fun u => u.dev.isl.ccv = ccvOf s.od ∧ u.dev.isl.state = islandStateOf s.od u.dev.isl ∧ u.od = s.od))

/-- A step executes the command at the front of the queue on the rest; every command answers a next state from every state, and leaves the
waiting commands as they are; on an empty queue one tick passes (the model's choice, log entry 2). -/
def Obligations.StepRunsTheFrontCommand : Prop :=
  (∀ (c : Instr) (rest : List Instr) (s : State), s.pending = c :: rest → step s = exec c { s with pending := rest }) ∧
  (∀ (c : Instr) (s : State), Completes c s (fun t => t.pending = s.pending)) ∧
  (∀ s : State, s.pending = [] → step s = .next (passTicks 1 s) ∧ (passTicks 1 s).dev.clk.run = s.dev.clk.run + 1 ∧
    (passTicks 1 s).od = s.od ∧ (passTicks 1 s).pending = [])

/-- R345: rounding in the engine is to nearest, halves away from zero; a write-back and a scaled ADC sample are saturated to the raw range. -/
def Obligations.EngineRoundsToNearest : Prop :=
  (∀ (a : Int) (n : Nat), 0 < n →
    (0 ≤ a → rnd a n = (a + 2 ^ (n - 1)) >>> n) ∧ (a < 0 → rnd a n = -((-a + 2 ^ (n - 1)) >>> n)) ∧
    2 * |rnd a n * 2 ^ n - a| ≤ 2 ^ n) ∧
  (∀ acc : Int, -2 ^ 31 ≤ (writeBack acc).1 ∧ (writeBack acc).1 ≤ 2 ^ 31 - 1 ∧
    (∀ x : Int, -2 ^ 31 ≤ x → x ≤ 2 ^ 31 - 1 → |(writeBack acc).1 - rnd acc 7| ≤ |x - rnd acc 7|)) ∧
  (∀ (o : Od) (n j : Nat) (r : Int), let v := rnd (r * i32At (ceArray o n 9) j) 15;
    -2 ^ 31 ≤ (ceAdc o n j r).1 ∧ (ceAdc o n j r).1 ≤ 2 ^ 31 - 1 ∧
    (∀ x : Int, -2 ^ 31 ≤ x → x ≤ 2 ^ 31 - 1 → |(ceAdc o n j r).1 - v| ≤ |x - v|))

/-- What reset leaves (R102, R103, R111, R124, R330, R476). -/
def Obligations.ResetLeavesTheDeviceInReset : Prop :=
  let d := State.reset.dev
  State.reset.Sound ∧ State.reset.pending = [] ∧ State.reset.od = [] ∧
  d.aon.reset.scope = .whole ∧ d.aon.reset.cause = 1 ∧ d.aon.reset.causes = 1 ∧ d.prot.requesters = 0x24 ∧
  (∀ n : Fin 4, (vget d.isl.pairs n.val).a.level = false ∧ (vget d.isl.pairs n.val).b.level = false ∧
    (vget d.isl.pairs n.val).causes = 0x1000) ∧
  (∀ c : Fin 128, (getCell d c.val).state = .absent) ∧ (∀ q : Fin 20, (vget d.pwm.pairs q.val).enabled = false)

/-- Whatever the command, in every state: the objects' canonical form and the off level of STO outputs outside PERMIT are kept. -/
def Obligations.EveryStepKeepsSoundness : Prop :=
  ∀ s t : State, s.Sound → step s = .next t → t.Sound

/-- R35 for the rows that are writes with a fixed object: executed and accepted, the write has its effect; refused by a check of
steps 1 to 8, it has none. What NET's leaving ON does comes after its answer (DomainsChangeState); no wake or loss of this instant stands
in the state between commands. -/
def Obligations.NamedRowsAreWrites : Prop :=
  ∀ (c : Instr) (via : Via) (ix sub n : Nat) (b : Bytes) (s t : State),
    namedWrite c = some (via, ix, sub, b) → writeSeen via ix sub b s = some (n, t) →
    (ix = 0x2100 → sub ≠ 3 ∧ s.dev.aon.waking = false ∧ s.dev.aon.lostNow = 0) →
    (∀ u, writeObject (some n) ix sub b t = (none, u) → Completes c s (fun r => r.od = u.od ∧ agreeButCom r.dev u.dev)) ∧
    (∀ a, writeCheck t (some n) ix sub b = some a → Completes c s (fun r => r.od = t.od ∧ agreeButCom r.dev t.dev))

/-- The frame of writes: a write of an object changes, besides the objects, only the units that the object belongs to. -/
def Obligations.WritesTouchTheirUnits : Prop :=
  ∀ (session : Option Nat) (ix sub : Nat) (b : Bytes) (s : State) (p : Part),
    touchedByWrite ix p = false → p.same s (writeObject session ix sub b s).2

/-- The frame of commands: a command changes only the units that the spec's description of it names. -/
def Obligations.CommandsTouchTheirUnits : Prop :=
  ∀ (c : Instr) (s t : State) (p : Part), exec c s = .next t → touched c p = false → p.same s t
end

