-- ==== Sys2Proof/Laws/Bits.lean ====
section
/-! SUPPORT. Laws of the byte and bit helpers: lengths, ranges, and reading back what was written. -/
namespace Sys2Proof.Machine

@[simp] theorem toLE_length (n v : Nat) : (toLE n v).length = n := by
  induction n generalizing v with
  | zero => rfl
  | succ n ih => simp [toLE, ih]

@[simp] theorem toBE_length (n v : Nat) : (toBE n v).length = n := by simp [toBE]

theorem leNat_lt (b : Bytes) : leNat b < 256 ^ b.length := by
  induction b with
  | nil => simp [leNat]
  | cons x xs ih =>
    have hx := x.isLt
    simp only [leNat, List.length_cons, pow_succ]
    omega

theorem leNat_toLE (n v : Nat) : leNat (toLE n v) = v % 256 ^ n := by
  induction n generalizing v with
  | zero => simp [toLE, leNat, Nat.mod_one]
  | succ n ih =>
    have h : (2 : Nat) ^ 8 = 256 := by decide
    rw [toLE, leNat, ih, BitVec.toNat_ofNat, h, Nat.pow_succ, Nat.mul_comm (256 ^ n) 256, Nat.mod_mul]

theorem leNat_toLE_of_lt {n v : Nat} (h : v < 256 ^ n) : leNat (toLE n v) = v := by
  rw [leNat_toLE, Nat.mod_eq_of_lt h]

theorem leNat_append (a b : Bytes) : leNat (a ++ b) = leNat a + 256 ^ a.length * leNat b := by
  induction a with
  | nil => simp [leNat]
  | cons x xs ih => simp only [List.cons_append, leNat, ih, List.length_cons, pow_succ]; ring

@[simp] theorem slice_length (b : Bytes) (i n : Nat) : (slice b i n).length = min n (b.length - i) := by simp [slice]

@[simp] theorem padTo_length (n : Nat) (b : Bytes) : (padTo n b).length = n := by simp [padTo]

theorem setBit_testBit (v i j : Nat) : (setBit v i).testBit j = (v.testBit j || decide (i = j)) := by
  simp [setBit, Nat.testBit_or, Nat.testBit_two_pow]

@[simp] theorem setBit_testBit_self (v i : Nat) : (setBit v i).testBit i = true := by simp [setBit_testBit]

theorem mem_setBits (n v i : Nat) : i ∈ setBits n v ↔ i < n ∧ v.testBit i = true := by simp [setBits]

theorem crcBit_lt {p c : Nat} (hp : p < 2 ^ 32) (hc : c < 2 ^ 32) : crcBit p c < 2 ^ 32 := by
  unfold crcBit
  split
  · exact Nat.xor_lt_two_pow (by omega) hp
  · omega

theorem crcByte_lt {p c : Nat} (hp : p < 2 ^ 32) (hc : c < 2 ^ 32) (b : Byte) : crcByte p c b < 2 ^ 32 := by
  have step : ∀ (l : List Nat) (x : Nat), x < 2 ^ 32 → l.foldl (fun c _ => crcBit p c) x < 2 ^ 32 := by
    intro l
    induction l with
    | nil => intro x hx; exact hx
    | cons a l ih => intro x hx; exact ih _ (crcBit_lt hp hx)
  refine step _ _ (Nat.xor_lt_two_pow hc ?_)
  have := b.isLt
  omega

/-- A checksum has 32 bits. -/
theorem crcOf_lt {p : Nat} (hp : p < 2 ^ 32) (bs : Bytes) : crcOf p bs < 2 ^ 32 := by
  have step : ∀ (l : Bytes) (x : Nat), x < 2 ^ 32 → l.foldl (crcByte p) x < 2 ^ 32 := by
    intro l
    induction l with
    | nil => intro x hx; exact hx
    | cons a l ih => intro x hx; exact ih _ (crcByte_lt hp hx a)
  exact Nat.xor_lt_two_pow (step _ _ (by decide)) (by decide)

theorem crc32c_lt (bs : Bytes) : crc32c bs < 2 ^ 32 := crcOf_lt (by decide) bs
theorem crc32_lt (bs : Bytes) : crc32 bs < 2 ^ 32 := crcOf_lt (by decide) bs

/-- What follows a list in a concatenation is what its own positions read. -/
theorem slice_append_right (a b : Bytes) (n : Nat) (h : b.length ≤ n) : slice (a ++ b) a.length n = b := by
  rw [slice, List.drop_left', List.take_of_length_le h]
  rfl

theorem shaRound_length {h : List (BitVec 32)} (hh : h.length = 8) (kw : BitVec 32 × BitVec 32) : (shaRound h kw).length = 8 := by
  unfold shaRound
  split
  · rfl
  · exact hh

theorem shaSchedule_length (blk : Bytes) : (shaSchedule blk).length = 64 := by
  have step : ∀ (l : List Nat) (f : List (BitVec 32) → BitVec 32) (w : List (BitVec 32)),
      (l.foldl (fun w _ => f w :: w) w).length = w.length + l.length := by
    intro l f
    induction l with
    | nil => intro w; rfl
    | cons a l ih => intro w; simp only [List.foldl_cons, ih, List.length_cons]; omega
  unfold shaSchedule
  simp only []
  rw [step]
  rfl

theorem shaBlock_length {h : List (BitVec 32)} (hh : h.length = 8) (blk : Bytes) : (shaBlock h blk).length = 8 := by
  have step : ∀ (l : List (BitVec 32 × BitVec 32)) (h : List (BitVec 32)), h.length = 8 → (l.foldl shaRound h).length = 8 := by
    intro l
    induction l with
    | nil => intro h hh; exact hh
    | cons a l ih => intro h hh; exact ih _ (shaRound_length hh a)
  unfold shaBlock
  rw [List.length_zipWith, step _ _ hh, hh]
  rfl

/-- A digest has 32 bytes. -/
theorem sha256_length (m : Bytes) : (sha256 m).length = 32 := by
  have step : ∀ (l : List Nat) (f : Nat → Bytes) (h : List (BitVec 32)), h.length = 8 →
      (l.foldl (fun h i => shaBlock h (f i)) h).length = 8 := by
    intro l f
    induction l with
    | nil => intro h hh; exact hh
    | cons a l ih => intro h hh; exact ih _ (shaBlock_length hh _)
  have out : ∀ h : List (BitVec 32), (h.flatMap (fun w => toBE 4 w.toNat)).length = 4 * h.length := by
    intro h
    induction h with
    | nil => rfl
    | cons a h ih => simp only [List.flatMap_cons, List.length_append, ih, toBE_length, List.length_cons]; omega
  unfold sha256
  simp only []
  rw [out, step _ _ _ rfl]

theorem hmac_length (key msg : Bytes) : (hmac key msg).length = 32 := sha256_length _

end Sys2Proof.Machine
end

