-- ==== Sys2Proof/Laws/Events.lean ====
section
/-! SUPPORT. Laws of the events and of the passing of time: an event changes the sequencer and the fault summary alone, a wait the
clock and the idle times alone. -/
namespace Sys2Proof.Machine

/-! ### A change for each number of a list -/

/-- What every change of a list keeps, the whole list keeps. -/
theorem forEach_keeps {α : Type} {P : Dev → Prop} {l : List α} {f : α → Dev → Dev} {d : Dev}
    (hf : ∀ a ∈ l, ∀ e, P e → P (f a e)) (h : P d) : P (forEach l f d) := by
  unfold forEach
  induction l generalizing d with
  | nil => exact h
  | cons a l ih => exact ih (fun b hb => hf b (List.mem_cons_of_mem a hb)) (hf a (List.mem_cons_self ..) d h)

/-! ### Events (R67 to R72) -/

/-- Two devices agree in everything but the sequencer and the fault summary. -/
def agreeButRecords (a b : Dev) : Prop := { a with seqr := b.seqr, breach := b.breach } = b

theorem agreeButRecords_refl (d : Dev) : agreeButRecords d d := rfl

theorem agreeButRecords_trans {a b c : Dev} (h : agreeButRecords a b) (k : agreeButRecords b c) : agreeButRecords a c := by
  unfold agreeButRecords at *
  rw [← h] at k
  exact k

theorem number_agrees (o : Od) (late : Bool) (e : Event) (d : Dev) : agreeButRecords (number o late e d) d := rfl

theorem foldl_number_agrees (o : Od) (l : List Event) (d : Dev) : agreeButRecords (l.foldl (fun d e => number o false e d) d) d := by
  induction l generalizing d with
  | nil => rfl
  | cons e l ih => exact agreeButRecords_trans (ih _) (number_agrees _ _ _ _)

theorem releaseDue_agrees (o : Od) (d : Dev) : agreeButRecords (releaseDue o d) d :=
  agreeButRecords_trans (foldl_number_agrees _ _ _) rfl

theorem arrive_agrees (o : Od) (e : Event) (d : Dev) : agreeButRecords (arrive o e d) d := by
  unfold arrive
  split
  · rfl
  · split
    · exact agreeButRecords_trans (number_agrees _ _ _ _) (releaseDue_agrees _ _)
    · simp only []
      split <;> rfl

theorem aonKeep_agrees (e : Event) (d : Dev) : agreeButRecords (aonKeep e d) d := by
  unfold aonKeep
  simp only []
  split <;> rfl

theorem recordAt_agrees (o : Od) (time code source : Nat) (data : Bytes) (d : Dev) : agreeButRecords (recordAt o time code source data d) d := by
  unfold recordAt
  simp only []
  split
  · exact arrive_agrees _ _ _
  · split
    · exact aonKeep_agrees _ _
    · rfl

/-- Recording an event changes the sequencer and the fault summary alone. -/
theorem record_agrees (o : Od) (code source : Nat) (data : Bytes) (d : Dev) : agreeButRecords (record o code source data d) d :=
  recordAt_agrees _ _ _ _ _ _

theorem releaseAll_agrees (o : Od) (d : Dev) : agreeButRecords (releaseAll o d) d :=
  agreeButRecords_trans (foldl_number_agrees _ _ _) rfl

/-- What agrees but for the records agrees in each other unit. -/
theorem agreeButRecords_fields {a d : Dev} (h : agreeButRecords a d) :
    a.clk = d.clk ∧ a.doms = d.doms ∧ a.rails = d.rails ∧
    a.aon = d.aon ∧ a.sched = d.sched ∧ a.meas = d.meas ∧
    a.time = d.time ∧ a.sec = d.sec ∧ a.nv = d.nv ∧
    a.prot = d.prot ∧ a.lcl = d.lcl ∧ a.stack = d.stack ∧
    a.ledger = d.ledger ∧ a.mram = d.mram ∧ a.engine = d.engine ∧
    a.acq = d.acq ∧ a.pwm = d.pwm ∧ a.bridges = d.bridges ∧
    a.axes = d.axes ∧ a.ladder = d.ladder ∧ a.isl = d.isl ∧
    a.hvLatched = d.hvLatched ∧ a.com = d.com ∧ a.out = d.out ∧
    a.free = d.free := by
  unfold agreeButRecords at h
  rw [← h]
  exact ⟨rfl, rfl, rfl, rfl, rfl, rfl, rfl, rfl, rfl, rfl, rfl, rfl, rfl, rfl, rfl, rfl, rfl, rfl, rfl, rfl, rfl, rfl, rfl, rfl, rfl⟩

@[simp] theorem record_frame (o : Od) (code source : Nat) (data : Bytes) (d : Dev) :
    (record o code source data d).clk = d.clk ∧ (record o code source data d).doms = d.doms ∧ (record o code source data d).rails = d.rails ∧
    (record o code source data d).aon = d.aon ∧ (record o code source data d).sched = d.sched ∧ (record o code source data d).meas = d.meas ∧
    (record o code source data d).time = d.time ∧ (record o code source data d).sec = d.sec ∧ (record o code source data d).nv = d.nv ∧
    (record o code source data d).prot = d.prot ∧ (record o code source data d).lcl = d.lcl ∧ (record o code source data d).stack = d.stack ∧
    (record o code source data d).ledger = d.ledger ∧ (record o code source data d).mram = d.mram ∧ (record o code source data d).engine = d.engine ∧
    (record o code source data d).acq = d.acq ∧ (record o code source data d).pwm = d.pwm ∧ (record o code source data d).bridges = d.bridges ∧
    (record o code source data d).axes = d.axes ∧ (record o code source data d).ladder = d.ladder ∧ (record o code source data d).isl = d.isl ∧
    (record o code source data d).hvLatched = d.hvLatched ∧ (record o code source data d).com = d.com ∧ (record o code source data d).out = d.out ∧
    (record o code source data d).free = d.free :=
  agreeButRecords_fields (record_agrees o code source data d)

/-! ### The passing of time (log entry 2) -/

/-- Two devices agree in everything but the clock and the idle times. -/
def agreeButTime (a b : Dev) : Prop := { a with clk := b.clk, doms := b.doms } = b

theorem trackIdle_agrees (o : Od) (d : Dev) : { trackIdle o d with doms := d.doms } = d := by
  unfold trackIdle
  refine forEach_keeps (P := fun e => { e with doms := d.doms } = d) (fun m _ e he => ?_) rfl
  exact he

theorem trackIdle_clk (o : Od) (d : Dev) : (trackIdle o d).clk = d.clk := by
  have h := trackIdle_agrees o d
  generalize trackIdle o d = e at h ⊢
  rw [← h]

/-- A wait changes the clock and the idle times alone. -/
theorem passTicks_agrees (k : Nat) (s : State) : agreeButTime (passTicks k s).dev s.dev := by
  unfold passTicks agreeButTime
  split
  · rfl
  · have h := trackIdle_agrees s.od s.dev
    exact (congrArg (fun e : Dev => { e with clk := s.dev.clk }) h)

@[simp] theorem passTicks_od (k : Nat) (s : State) : (passTicks k s).od = s.od := by
  unfold passTicks
  split <;> rfl

@[simp] theorem passTicks_pending (k : Nat) (s : State) : (passTicks k s).pending = s.pending := by
  unfold passTicks
  split <;> rfl

@[simp] theorem upTo_od (due : Od → Dev → Option Instant) (s : State) : (s.upTo due).od = s.od := by
  unfold State.upTo
  split <;> simp

@[simp] theorem upTo_pending (due : Od → Dev → Option Instant) (s : State) : (s.upTo due).pending = s.pending := by
  unfold State.upTo
  split <;> simp

/-- Waiting for an instant changes the clock and the idle times alone. -/
theorem upTo_agrees (due : Od → Dev → Option Instant) (s : State) : agreeButTime (s.upTo due).dev s.dev := by
  unfold State.upTo
  split
  · exact passTicks_agrees _ _
  · rfl

theorem agreeButTime_fields {a d : Dev} (h : agreeButTime a d) :
    a.rails = d.rails ∧ a.aon = d.aon ∧ a.sched = d.sched ∧
    a.seqr = d.seqr ∧ a.breach = d.breach ∧ a.meas = d.meas ∧
    a.time = d.time ∧ a.sec = d.sec ∧ a.nv = d.nv ∧
    a.prot = d.prot ∧ a.lcl = d.lcl ∧ a.stack = d.stack ∧
    a.ledger = d.ledger ∧ a.mram = d.mram ∧ a.engine = d.engine ∧
    a.acq = d.acq ∧ a.pwm = d.pwm ∧ a.bridges = d.bridges ∧
    a.axes = d.axes ∧ a.ladder = d.ladder ∧ a.isl = d.isl ∧
    a.hvLatched = d.hvLatched ∧ a.com = d.com ∧ a.out = d.out ∧
    a.free = d.free := by
  unfold agreeButTime at h
  rw [← h]
  exact ⟨rfl, rfl, rfl, rfl, rfl, rfl, rfl, rfl, rfl, rfl, rfl, rfl, rfl, rfl, rfl, rfl, rfl, rfl, rfl, rfl, rfl, rfl, rfl, rfl, rfl⟩

/-- The count of the AON oscillator runs on; device time only while it counts (R44). -/
theorem passTicks_clock {k : Nat} {s : State} : (passTicks k s).dev.clk.run = s.dev.clk.run + k ∧
    (passTicks k s).dev.clk.dt = (if s.dev.clk.counting then s.dev.clk.dt + k else s.dev.clk.dt) ∧
    (passTicks k s).dev.clk.counting = s.dev.clk.counting := by
  unfold passTicks
  split
  · rename_i h
    subst h
    refine ⟨rfl, ?_, rfl⟩
    split <;> rfl
  · have h := trackIdle_clk s.od s.dev
    simp [Clock.pass, h]

end Sys2Proof.Machine
end

