-- ==== Sys2Proof/Laws/Objects.lean ====
section
/-! SUPPORT. Laws of the list of object values: its canonical form is kept, and an object reads as what was last written to it. -/
namespace Sys2Proof.Machine

/-- Keys strictly rising. -/
def Od.Rising (o : Od) : Prop := (o.map (·.1)).Pairwise (· < ·)

/-- No entry equal to its object's default. -/
def Od.NoDefaults (o : Od) : Prop := ∀ p ∈ o, p.2 ≠ odDefault (p.1 / 256) (p.1 % 256)

theorem Od.wf_iff (o : Od) : o.wf = true ↔ o.Rising ∧ o.NoDefaults := by
  simp [Od.wf, Od.Rising, Od.NoDefaults]

theorem mem_odInsert {k : Nat} {b : Bytes} {o : Od} {p : Nat × Bytes} (h : p ∈ odInsert k b o) : p = (k, b) ∨ p ∈ o := by
  induction o with
  | nil => simpa [odInsert] using h
  | cons q o ih =>
    simp only [odInsert] at h
    split at h
    · simpa using h
    · split at h
      · rcases List.mem_cons.1 h with h | h <;> simp [h]
      · rcases List.mem_cons.1 h with h | h
        · simp [h]
        · rcases ih h with h | h <;> simp [h]

theorem odInsert_rising {k : Nat} {b : Bytes} {o : Od} (h : o.Rising) : (odInsert k b o).Rising := by
  induction o with
  | nil => simp [odInsert, Od.Rising]
  | cons q o ih =>
    obtain ⟨k', b'⟩ := q
    simp only [Od.Rising, List.map_cons, List.pairwise_cons] at h
    simp only [odInsert]
    split
    · rename_i hk
      simp only [Od.Rising, List.map_cons, List.pairwise_cons]
      refine ⟨fun x hx => ?_, h⟩
      rcases List.mem_cons.1 hx with rfl | hx
      · exact hk
      · exact hk.trans (h.1 x hx)
    · split
      · rename_i hk
        subst hk
        simpa only [Od.Rising, List.map_cons, List.pairwise_cons] using h
      · simp only [Od.Rising, List.map_cons, List.pairwise_cons]
        refine ⟨fun x hx => ?_, ih h.2⟩
        obtain ⟨p, hp, rfl⟩ := List.mem_map.1 hx
        rcases mem_odInsert hp with rfl | hp
        · show k' < k
          omega
        · exact h.1 _ (List.mem_map.2 ⟨p, hp, rfl⟩)

theorem odErase_rising {k : Nat} {o : Od} (h : o.Rising) : (odErase k o).Rising :=
  h.sublist (List.filter_sublist.map _)

/-- Every write of an object keeps the canonical form. -/
theorem odPutKey_wf {k : Nat} {b : Bytes} {o : Od} (h : o.wf = true) : (odPutKey k b o).wf = true := by
  rw [Od.wf_iff] at h ⊢
  unfold odPutKey
  split
  · exact ⟨odErase_rising h.1, fun p hp => h.2 p (List.mem_filter.1 hp).1⟩
  · rename_i hb
    refine ⟨odInsert_rising h.1, fun p hp => ?_⟩
    rcases mem_odInsert hp with rfl | hp
    · exact hb
    · exact h.2 p hp

theorem odSet_wf {o : Od} {ix sub : Nat} {b : Bytes} (h : o.wf = true) : (odSet o ix sub b).wf = true := odPutKey_wf h

/-- A selection of the entries keeps the canonical form. -/
theorem filter_wf {o : Od} (f : Nat × Bytes → Bool) (h : o.wf = true) : Od.wf (o.filter f) = true := by
  rw [Od.wf_iff] at h ⊢
  exact ⟨h.1.sublist (List.filter_sublist.map _), fun p hp => h.2 p (List.mem_filter.1 hp).1⟩

/-- Writes one after the other keep the canonical form. -/
theorem foldl_odPutKey_wf {α : Type} (key : α → Nat) (val : α → Bytes) (l : List α) {o : Od} (h : o.wf = true) :
    (l.foldl (fun o p => odPutKey (key p) (val p) o) o).wf = true := by
  induction l generalizing o with
  | nil => exact h
  | cons p l ih => exact ih (odPutKey_wf h)

theorem odFind_odInsert_same (k : Nat) (b : Bytes) (o : Od) : odFind k (odInsert k b o) = some b := by
  induction o with
  | nil => simp [odInsert, odFind]
  | cons q o ih =>
    simp only [odInsert]
    split
    · simp [odFind]
    · split
      · simp [odFind]
      · rename_i h
        have : q.1 ≠ k := fun e => h e.symm
        simp [odFind, this, ih]

theorem odFind_odInsert_other {k j : Nat} (b : Bytes) (o : Od) (h : k ≠ j) : odFind j (odInsert k b o) = odFind j o := by
  induction o with
  | nil => simp [odInsert, odFind, h]
  | cons q o ih =>
    simp only [odInsert]
    split
    · simp [odFind, h]
    · split
      · rename_i hk
        have : q.1 ≠ j := fun e => h (hk.trans e)
        simp [odFind, h, this]
      · simp [odFind, ih]

theorem odFind_odErase_same (k : Nat) (o : Od) : odFind k (odErase k o) = none := by
  induction o with
  | nil => rfl
  | cons q o ih =>
    by_cases h : q.1 = k
    · simpa [odErase, h] using ih
    · simpa [odErase, h, odFind] using ih

theorem odFind_odErase_other {k j : Nat} (o : Od) (h : k ≠ j) : odFind j (odErase k o) = odFind j o := by
  induction o with
  | nil => rfl
  | cons q o ih =>
    by_cases hq : q.1 = k
    · have : q.1 ≠ j := fun e => h (hq.symm.trans e)
      simpa [odErase, hq, odFind, h] using ih
    · have e : odErase k (q :: o) = q :: odErase k o := by simp [odErase, hq]
      rw [e]
      simp [odFind, ih]

/-- What is listed under a key after a write: nothing where the value is the object's default, else the value. -/
theorem odFind_odPutKey_same (k : Nat) (b : Bytes) (o : Od) :
    odFind k (odPutKey k b o) = if b = odDefault (k / 256) (k % 256) then none else some b := by
  unfold odPutKey
  split
  · exact odFind_odErase_same k o
  · exact odFind_odInsert_same k b o

/-- A write under one key leaves every other. -/
theorem odFind_odPutKey_other {k j : Nat} (b : Bytes) (o : Od) (h : k ≠ j) : odFind j (odPutKey k b o) = odFind j o := by
  unfold odPutKey
  split
  · exact odFind_odErase_other o h
  · exact odFind_odInsert_other b o h

theorem odKey_div {ix sub : Nat} (h : sub < 256) : odKey ix sub / 256 = ix := by unfold odKey; omega
theorem odKey_mod {ix sub : Nat} (h : sub < 256) : odKey ix sub % 256 = sub := by unfold odKey; omega

/-- An object reads as the value set, where it has one. -/
theorem odGet_odSet_same (o : Od) {ix sub : Nat} {b : Bytes} (hs : sub < 256) (hb : b ≠ []) : odGet (odSet o ix sub b) ix sub = b := by
  unfold odGet odSet
  rw [odFind_odPutKey_same, odKey_div hs, odKey_mod hs]
  split
  · rename_i h
    split at h
    · cases h
    · cases h; rfl
  · rename_i h
    split at h
    · rename_i he
      rw [← he]
      cases b with
      | nil => exact absurd rfl hb
      | cons x xs => rfl
    · cases h

/-- Another object reads as before. -/
theorem odGet_odSet_other (o : Od) {ix sub jx jsub : Nat} (b : Bytes) (h : odKey ix sub ≠ odKey jx jsub) :
    odGet (odSet o ix sub b) jx jsub = odGet o jx jsub := by
  unfold odGet odSet
  rw [odFind_odPutKey_other b o h]

end Sys2Proof.Machine
end

