-- ==== Sys2Proof/Laws/State.lean ====
section
/-! SUPPORT. One law for each named update of the state: the field it sets, and every field it leaves. -/
namespace Sys2Proof.Machine

/-! ### Updates of the whole state -/

@[simp] theorem State.act_od (f : Od → Dev → Dev) (s : State) : (s.act f).od = s.od := rfl
@[simp] theorem State.act_dev (f : Od → Dev → Dev) (s : State) : (s.act f).dev = f s.od s.dev := rfl
@[simp] theorem State.act_pending (f : Od → Dev → Dev) (s : State) : (s.act f).pending = s.pending := rfl
@[simp] theorem devTo_od (f : Dev → Dev) (s : State) : (devTo f s).od = s.od := rfl
@[simp] theorem devTo_dev (f : Dev → Dev) (s : State) : (devTo f s).dev = f s.dev := rfl
@[simp] theorem devTo_pending (f : Dev → Dev) (s : State) : (devTo f s).pending = s.pending := rfl
@[simp] theorem put_od (ix sub : Nat) (b : Bytes) (s : State) : (put ix sub b s).od = odSet s.od ix sub b := rfl
@[simp] theorem put_dev (ix sub : Nat) (b : Bytes) (s : State) : (put ix sub b s).dev = s.dev := rfl
@[simp] theorem put_pending (ix sub : Nat) (b : Bytes) (s : State) : (put ix sub b s).pending = s.pending := rfl
@[simp] theorem setTransfer_od (n : Nat) (t : Option Transfer) (s : State) : (setTransfer n t s).od = s.od := rfl
@[simp] theorem setTransfer_pending (n : Nat) (t : Option Transfer) (s : State) : (setTransfer n t s).pending = s.pending := rfl
@[simp] theorem sdoTouch_od (n : Nat) (s : State) : (sdoTouch n s).od = s.od := rfl
@[simp] theorem sdoTouch_pending (n : Nat) (s : State) : (sdoTouch n s).pending = s.pending := rfl

/-! ### Vectors -/

/-- Reading back an entry that was set. -/
@[simp] theorem vget_vset_same {α : Type} {n : Nat} [Inhabited α] (v : Vector α n) (i : Nat) (a : α) (h : i < n) : vget (vset v i a) i = a := by
  simp [vget, vset, h]

/-- Another entry stays. -/
theorem vget_vset_other {α : Type} {n : Nat} [Inhabited α] (v : Vector α n) {i j : Nat} (a : α) (h : i ≠ j) : vget (vset v i a) j = vget v j := by
  simp [vget, vset, Vector.getElem?_setIfInBounds_ne h]

/-- A number beyond the end sets nothing. -/
theorem vset_beyond {α : Type} {n : Nat} (v : Vector α n) (i : Nat) (a : α) (h : n ≤ i) : vset v i a = v := by
  simp [vset, Vector.setIfInBounds_eq_of_size_le h]

@[simp] theorem vget_vmod_same {α : Type} {n : Nat} [Inhabited α] (v : Vector α n) (i : Nat) (f : α → α) (h : i < n) : vget (vmod v i f) i = f (vget v i) := by
  simp [vmod, h]

theorem vget_vmod_other {α : Type} {n : Nat} [Inhabited α] (v : Vector α n) {i j : Nat} (f : α → α) (h : i ≠ j) : vget (vmod v i f) j = vget v j :=
  vget_vset_other v _ h

/-- A property of every entry, kept by a change of one. -/
theorem vget_vmod_keeps {α : Type} {n : Nat} [Inhabited α] {P : α → Prop} (v : Vector α n) (i j : Nat) (f : α → α)
    (hf : P (vget v i) → P (f (vget v i))) (hj : P (vget v j)) : P (vget (vmod v i f) j) := by
  by_cases h : i = j
  · subst h
    by_cases hi : i < n
    · rw [vget_vmod_same v i f hi]; exact hf hj
    · rw [vmod, vset_beyond v i _ (by omega)]; exact hj
  · rw [vget_vmod_other v f h]; exact hj

/-! ### Updates of the device -/

@[simp] theorem modDom_doms (m : Domain) (f : DomainCtl → DomainCtl) (d : Dev) : (modDom m f d).doms = vmod d.doms m.num f := rfl
@[simp] theorem modDom_frame (m : Domain) (f : DomainCtl → DomainCtl) (d : Dev) :
    (modDom m f d).clk = d.clk ∧ (modDom m f d).rails = d.rails ∧ (modDom m f d).aon = d.aon ∧ (modDom m f d).sched = d.sched ∧
    (modDom m f d).seqr = d.seqr ∧ (modDom m f d).breach = d.breach ∧ (modDom m f d).meas = d.meas ∧ (modDom m f d).time = d.time ∧
    (modDom m f d).sec = d.sec ∧ (modDom m f d).nv = d.nv ∧ (modDom m f d).prot = d.prot ∧ (modDom m f d).lcl = d.lcl ∧ (modDom m f d).stack = d.stack ∧
    (modDom m f d).ledger = d.ledger ∧ (modDom m f d).mram = d.mram ∧ (modDom m f d).engine = d.engine ∧ (modDom m f d).acq = d.acq ∧
    (modDom m f d).pwm = d.pwm ∧ (modDom m f d).bridges = d.bridges ∧ (modDom m f d).axes = d.axes ∧ (modDom m f d).ladder = d.ladder ∧
    (modDom m f d).isl = d.isl ∧ (modDom m f d).hvLatched = d.hvLatched ∧ (modDom m f d).com = d.com ∧ (modDom m f d).out = d.out ∧
    (modDom m f d).free = d.free := ⟨rfl, rfl, rfl, rfl, rfl, rfl, rfl, rfl, rfl, rfl, rfl, rfl, rfl, rfl, rfl, rfl, rfl, rfl, rfl, rfl, rfl, rfl, rfl, rfl, rfl, rfl⟩

@[simp] theorem modAon_aon (f : Aon → Aon) (d : Dev) : (modAon f d).aon = f d.aon := rfl
@[simp] theorem modAon_frame (f : Aon → Aon) (d : Dev) :
    (modAon f d).clk = d.clk ∧ (modAon f d).doms = d.doms ∧ (modAon f d).rails = d.rails ∧ (modAon f d).sched = d.sched ∧ (modAon f d).seqr = d.seqr ∧
    (modAon f d).breach = d.breach ∧ (modAon f d).meas = d.meas ∧ (modAon f d).time = d.time ∧ (modAon f d).sec = d.sec ∧ (modAon f d).nv = d.nv ∧
    (modAon f d).prot = d.prot ∧ (modAon f d).lcl = d.lcl ∧ (modAon f d).stack = d.stack ∧ (modAon f d).ledger = d.ledger ∧ (modAon f d).mram = d.mram ∧
    (modAon f d).engine = d.engine ∧ (modAon f d).acq = d.acq ∧ (modAon f d).pwm = d.pwm ∧ (modAon f d).bridges = d.bridges ∧
    (modAon f d).axes = d.axes ∧ (modAon f d).ladder = d.ladder ∧ (modAon f d).isl = d.isl ∧ (modAon f d).hvLatched = d.hvLatched ∧
    (modAon f d).com = d.com ∧ (modAon f d).out = d.out ∧ (modAon f d).free = d.free := ⟨rfl, rfl, rfl, rfl, rfl, rfl, rfl, rfl, rfl, rfl, rfl, rfl, rfl, rfl, rfl, rfl, rfl, rfl, rfl, rfl, rfl, rfl, rfl, rfl, rfl, rfl⟩

@[simp] theorem modReset_aon (f : ResetCtl → ResetCtl) (d : Dev) : (modReset f d).aon = { d.aon with reset := f d.aon.reset } := rfl
@[simp] theorem modReset_frame (f : ResetCtl → ResetCtl) (d : Dev) :
    (modReset f d).clk = d.clk ∧ (modReset f d).doms = d.doms ∧ (modReset f d).rails = d.rails ∧ (modReset f d).sched = d.sched ∧
    (modReset f d).seqr = d.seqr ∧ (modReset f d).breach = d.breach ∧ (modReset f d).meas = d.meas ∧ (modReset f d).time = d.time ∧
    (modReset f d).sec = d.sec ∧ (modReset f d).nv = d.nv ∧ (modReset f d).prot = d.prot ∧ (modReset f d).lcl = d.lcl ∧ (modReset f d).stack = d.stack ∧
    (modReset f d).ledger = d.ledger ∧ (modReset f d).mram = d.mram ∧ (modReset f d).engine = d.engine ∧ (modReset f d).acq = d.acq ∧
    (modReset f d).pwm = d.pwm ∧ (modReset f d).bridges = d.bridges ∧ (modReset f d).axes = d.axes ∧ (modReset f d).ladder = d.ladder ∧
    (modReset f d).isl = d.isl ∧ (modReset f d).hvLatched = d.hvLatched ∧ (modReset f d).com = d.com ∧ (modReset f d).out = d.out ∧
    (modReset f d).free = d.free := ⟨rfl, rfl, rfl, rfl, rfl, rfl, rfl, rfl, rfl, rfl, rfl, rfl, rfl, rfl, rfl, rfl, rfl, rfl, rfl, rfl, rfl, rfl, rfl, rfl, rfl, rfl⟩

@[simp] theorem onSec_sec (f : Sec → Sec) (d : Dev) : (onSec f d).sec = f d.sec := rfl
@[simp] theorem onSec_frame (f : Sec → Sec) (d : Dev) :
    (onSec f d).clk = d.clk ∧ (onSec f d).doms = d.doms ∧ (onSec f d).rails = d.rails ∧ (onSec f d).aon = d.aon ∧ (onSec f d).sched = d.sched ∧
    (onSec f d).seqr = d.seqr ∧ (onSec f d).breach = d.breach ∧ (onSec f d).meas = d.meas ∧ (onSec f d).time = d.time ∧ (onSec f d).nv = d.nv ∧
    (onSec f d).prot = d.prot ∧ (onSec f d).lcl = d.lcl ∧ (onSec f d).stack = d.stack ∧ (onSec f d).ledger = d.ledger ∧ (onSec f d).mram = d.mram ∧
    (onSec f d).engine = d.engine ∧ (onSec f d).acq = d.acq ∧ (onSec f d).pwm = d.pwm ∧ (onSec f d).bridges = d.bridges ∧ (onSec f d).axes = d.axes ∧
    (onSec f d).ladder = d.ladder ∧ (onSec f d).isl = d.isl ∧ (onSec f d).hvLatched = d.hvLatched ∧ (onSec f d).com = d.com ∧ (onSec f d).out = d.out ∧
    (onSec f d).free = d.free := ⟨rfl, rfl, rfl, rfl, rfl, rfl, rfl, rfl, rfl, rfl, rfl, rfl, rfl, rfl, rfl, rfl, rfl, rfl, rfl, rfl, rfl, rfl, rfl, rfl, rfl, rfl⟩

@[simp] theorem onNv_nv (f : Nv → Nv) (d : Dev) : (onNv f d).nv = f d.nv := rfl
@[simp] theorem onNv_frame (f : Nv → Nv) (d : Dev) :
    (onNv f d).clk = d.clk ∧ (onNv f d).doms = d.doms ∧ (onNv f d).rails = d.rails ∧ (onNv f d).aon = d.aon ∧ (onNv f d).sched = d.sched ∧
    (onNv f d).seqr = d.seqr ∧ (onNv f d).breach = d.breach ∧ (onNv f d).meas = d.meas ∧ (onNv f d).time = d.time ∧ (onNv f d).sec = d.sec ∧
    (onNv f d).prot = d.prot ∧ (onNv f d).lcl = d.lcl ∧ (onNv f d).stack = d.stack ∧ (onNv f d).ledger = d.ledger ∧ (onNv f d).mram = d.mram ∧
    (onNv f d).engine = d.engine ∧ (onNv f d).acq = d.acq ∧ (onNv f d).pwm = d.pwm ∧ (onNv f d).bridges = d.bridges ∧ (onNv f d).axes = d.axes ∧
    (onNv f d).ladder = d.ladder ∧ (onNv f d).isl = d.isl ∧ (onNv f d).hvLatched = d.hvLatched ∧ (onNv f d).com = d.com ∧ (onNv f d).out = d.out ∧
    (onNv f d).free = d.free := ⟨rfl, rfl, rfl, rfl, rfl, rfl, rfl, rfl, rfl, rfl, rfl, rfl, rfl, rfl, rfl, rfl, rfl, rfl, rfl, rfl, rfl, rfl, rfl, rfl, rfl, rfl⟩

@[simp] theorem onTime_time (f : Time → Time) (d : Dev) : (onTime f d).time = f d.time := rfl
@[simp] theorem onTime_frame (f : Time → Time) (d : Dev) :
    (onTime f d).clk = d.clk ∧ (onTime f d).doms = d.doms ∧ (onTime f d).rails = d.rails ∧ (onTime f d).aon = d.aon ∧ (onTime f d).sched = d.sched ∧
    (onTime f d).seqr = d.seqr ∧ (onTime f d).breach = d.breach ∧ (onTime f d).meas = d.meas ∧ (onTime f d).sec = d.sec ∧ (onTime f d).nv = d.nv ∧
    (onTime f d).prot = d.prot ∧ (onTime f d).lcl = d.lcl ∧ (onTime f d).stack = d.stack ∧ (onTime f d).ledger = d.ledger ∧ (onTime f d).mram = d.mram ∧
    (onTime f d).engine = d.engine ∧ (onTime f d).acq = d.acq ∧ (onTime f d).pwm = d.pwm ∧ (onTime f d).bridges = d.bridges ∧
    (onTime f d).axes = d.axes ∧ (onTime f d).ladder = d.ladder ∧ (onTime f d).isl = d.isl ∧ (onTime f d).hvLatched = d.hvLatched ∧
    (onTime f d).com = d.com ∧ (onTime f d).out = d.out ∧ (onTime f d).free = d.free := ⟨rfl, rfl, rfl, rfl, rfl, rfl, rfl, rfl, rfl, rfl, rfl, rfl, rfl, rfl, rfl, rfl, rfl, rfl, rfl, rfl, rfl, rfl, rfl, rfl, rfl, rfl⟩

@[simp] theorem onStack_stack (f : Stack → Stack) (d : Dev) : (onStack f d).stack = f d.stack := rfl
@[simp] theorem onStack_frame (f : Stack → Stack) (d : Dev) :
    (onStack f d).clk = d.clk ∧ (onStack f d).doms = d.doms ∧ (onStack f d).rails = d.rails ∧ (onStack f d).aon = d.aon ∧
    (onStack f d).sched = d.sched ∧ (onStack f d).seqr = d.seqr ∧ (onStack f d).breach = d.breach ∧ (onStack f d).meas = d.meas ∧
    (onStack f d).time = d.time ∧ (onStack f d).sec = d.sec ∧ (onStack f d).nv = d.nv ∧ (onStack f d).prot = d.prot ∧ (onStack f d).lcl = d.lcl ∧
    (onStack f d).ledger = d.ledger ∧ (onStack f d).mram = d.mram ∧ (onStack f d).engine = d.engine ∧ (onStack f d).acq = d.acq ∧
    (onStack f d).pwm = d.pwm ∧ (onStack f d).bridges = d.bridges ∧ (onStack f d).axes = d.axes ∧ (onStack f d).ladder = d.ladder ∧
    (onStack f d).isl = d.isl ∧ (onStack f d).hvLatched = d.hvLatched ∧ (onStack f d).com = d.com ∧ (onStack f d).out = d.out ∧
    (onStack f d).free = d.free := ⟨rfl, rfl, rfl, rfl, rfl, rfl, rfl, rfl, rfl, rfl, rfl, rfl, rfl, rfl, rfl, rfl, rfl, rfl, rfl, rfl, rfl, rfl, rfl, rfl, rfl, rfl⟩

@[simp] theorem onLedger_ledger (f : Ledger → Ledger) (d : Dev) : (onLedger f d).ledger = f d.ledger := rfl
@[simp] theorem onLedger_frame (f : Ledger → Ledger) (d : Dev) :
    (onLedger f d).clk = d.clk ∧ (onLedger f d).doms = d.doms ∧ (onLedger f d).rails = d.rails ∧ (onLedger f d).aon = d.aon ∧
    (onLedger f d).sched = d.sched ∧ (onLedger f d).seqr = d.seqr ∧ (onLedger f d).breach = d.breach ∧ (onLedger f d).meas = d.meas ∧
    (onLedger f d).time = d.time ∧ (onLedger f d).sec = d.sec ∧ (onLedger f d).nv = d.nv ∧ (onLedger f d).prot = d.prot ∧ (onLedger f d).lcl = d.lcl ∧
    (onLedger f d).stack = d.stack ∧ (onLedger f d).mram = d.mram ∧ (onLedger f d).engine = d.engine ∧ (onLedger f d).acq = d.acq ∧
    (onLedger f d).pwm = d.pwm ∧ (onLedger f d).bridges = d.bridges ∧ (onLedger f d).axes = d.axes ∧ (onLedger f d).ladder = d.ladder ∧
    (onLedger f d).isl = d.isl ∧ (onLedger f d).hvLatched = d.hvLatched ∧ (onLedger f d).com = d.com ∧ (onLedger f d).out = d.out ∧
    (onLedger f d).free = d.free := ⟨rfl, rfl, rfl, rfl, rfl, rfl, rfl, rfl, rfl, rfl, rfl, rfl, rfl, rfl, rfl, rfl, rfl, rfl, rfl, rfl, rfl, rfl, rfl, rfl, rfl, rfl⟩

@[simp] theorem modSession_com (n : Nat) (f : Session → Session) (d : Dev) : (modSession n f d).com = { d.com with sessions := vmod d.com.sessions n f } := rfl
@[simp] theorem modSession_frame (n : Nat) (f : Session → Session) (d : Dev) :
    (modSession n f d).clk = d.clk ∧ (modSession n f d).doms = d.doms ∧ (modSession n f d).rails = d.rails ∧ (modSession n f d).aon = d.aon ∧
    (modSession n f d).sched = d.sched ∧ (modSession n f d).seqr = d.seqr ∧ (modSession n f d).breach = d.breach ∧ (modSession n f d).meas = d.meas ∧
    (modSession n f d).time = d.time ∧ (modSession n f d).sec = d.sec ∧ (modSession n f d).nv = d.nv ∧ (modSession n f d).prot = d.prot ∧
    (modSession n f d).lcl = d.lcl ∧ (modSession n f d).stack = d.stack ∧ (modSession n f d).ledger = d.ledger ∧ (modSession n f d).mram = d.mram ∧
    (modSession n f d).engine = d.engine ∧ (modSession n f d).acq = d.acq ∧ (modSession n f d).pwm = d.pwm ∧ (modSession n f d).bridges = d.bridges ∧
    (modSession n f d).axes = d.axes ∧ (modSession n f d).ladder = d.ladder ∧ (modSession n f d).isl = d.isl ∧
    (modSession n f d).hvLatched = d.hvLatched ∧ (modSession n f d).out = d.out ∧ (modSession n f d).free = d.free := ⟨rfl, rfl, rfl, rfl, rfl, rfl, rfl, rfl, rfl, rfl, rfl, rfl, rfl, rfl, rfl, rfl, rfl, rfl, rfl, rfl, rfl, rfl, rfl, rfl, rfl, rfl⟩

@[simp] theorem modAdc_meas (n : Nat) (f : Adc → Adc) (d : Dev) : (modAdc n f d).meas = { d.meas with adcs := vmod d.meas.adcs n f } := rfl
@[simp] theorem modAdc_frame (n : Nat) (f : Adc → Adc) (d : Dev) :
    (modAdc n f d).clk = d.clk ∧ (modAdc n f d).doms = d.doms ∧ (modAdc n f d).rails = d.rails ∧ (modAdc n f d).aon = d.aon ∧
    (modAdc n f d).sched = d.sched ∧ (modAdc n f d).seqr = d.seqr ∧ (modAdc n f d).breach = d.breach ∧ (modAdc n f d).time = d.time ∧
    (modAdc n f d).sec = d.sec ∧ (modAdc n f d).nv = d.nv ∧ (modAdc n f d).prot = d.prot ∧ (modAdc n f d).lcl = d.lcl ∧ (modAdc n f d).stack = d.stack ∧
    (modAdc n f d).ledger = d.ledger ∧ (modAdc n f d).mram = d.mram ∧ (modAdc n f d).engine = d.engine ∧ (modAdc n f d).acq = d.acq ∧
    (modAdc n f d).pwm = d.pwm ∧ (modAdc n f d).bridges = d.bridges ∧ (modAdc n f d).axes = d.axes ∧ (modAdc n f d).ladder = d.ladder ∧
    (modAdc n f d).isl = d.isl ∧ (modAdc n f d).hvLatched = d.hvLatched ∧ (modAdc n f d).com = d.com ∧ (modAdc n f d).out = d.out ∧
    (modAdc n f d).free = d.free := ⟨rfl, rfl, rfl, rfl, rfl, rfl, rfl, rfl, rfl, rfl, rfl, rfl, rfl, rfl, rfl, rfl, rfl, rfl, rfl, rfl, rfl, rfl, rfl, rfl, rfl, rfl⟩

@[simp] theorem modSensor_meas (n : Nat) (f : Sensor → Sensor) (d : Dev) : (modSensor n f d).meas = { d.meas with sensors := vmod d.meas.sensors n f } := rfl
@[simp] theorem modSensor_frame (n : Nat) (f : Sensor → Sensor) (d : Dev) :
    (modSensor n f d).clk = d.clk ∧ (modSensor n f d).doms = d.doms ∧ (modSensor n f d).rails = d.rails ∧ (modSensor n f d).aon = d.aon ∧
    (modSensor n f d).sched = d.sched ∧ (modSensor n f d).seqr = d.seqr ∧ (modSensor n f d).breach = d.breach ∧ (modSensor n f d).time = d.time ∧
    (modSensor n f d).sec = d.sec ∧ (modSensor n f d).nv = d.nv ∧ (modSensor n f d).prot = d.prot ∧ (modSensor n f d).lcl = d.lcl ∧
    (modSensor n f d).stack = d.stack ∧ (modSensor n f d).ledger = d.ledger ∧ (modSensor n f d).mram = d.mram ∧ (modSensor n f d).engine = d.engine ∧
    (modSensor n f d).acq = d.acq ∧ (modSensor n f d).pwm = d.pwm ∧ (modSensor n f d).bridges = d.bridges ∧ (modSensor n f d).axes = d.axes ∧
    (modSensor n f d).ladder = d.ladder ∧ (modSensor n f d).isl = d.isl ∧ (modSensor n f d).hvLatched = d.hvLatched ∧ (modSensor n f d).com = d.com ∧
    (modSensor n f d).out = d.out ∧ (modSensor n f d).free = d.free := ⟨rfl, rfl, rfl, rfl, rfl, rfl, rfl, rfl, rfl, rfl, rfl, rfl, rfl, rfl, rfl, rfl, rfl, rfl, rfl, rfl, rfl, rfl, rfl, rfl, rfl, rfl⟩

@[simp] theorem modDie_meas (n : Nat) (f : Die → Die) (d : Dev) : (modDie n f d).meas = { d.meas with dies := vmod d.meas.dies n f } := rfl
@[simp] theorem modDie_frame (n : Nat) (f : Die → Die) (d : Dev) :
    (modDie n f d).clk = d.clk ∧ (modDie n f d).doms = d.doms ∧ (modDie n f d).rails = d.rails ∧ (modDie n f d).aon = d.aon ∧
    (modDie n f d).sched = d.sched ∧ (modDie n f d).seqr = d.seqr ∧ (modDie n f d).breach = d.breach ∧ (modDie n f d).time = d.time ∧
    (modDie n f d).sec = d.sec ∧ (modDie n f d).nv = d.nv ∧ (modDie n f d).prot = d.prot ∧ (modDie n f d).lcl = d.lcl ∧ (modDie n f d).stack = d.stack ∧
    (modDie n f d).ledger = d.ledger ∧ (modDie n f d).mram = d.mram ∧ (modDie n f d).engine = d.engine ∧ (modDie n f d).acq = d.acq ∧
    (modDie n f d).pwm = d.pwm ∧ (modDie n f d).bridges = d.bridges ∧ (modDie n f d).axes = d.axes ∧ (modDie n f d).ladder = d.ladder ∧
    (modDie n f d).isl = d.isl ∧ (modDie n f d).hvLatched = d.hvLatched ∧ (modDie n f d).com = d.com ∧ (modDie n f d).out = d.out ∧
    (modDie n f d).free = d.free := ⟨rfl, rfl, rfl, rfl, rfl, rfl, rfl, rfl, rfl, rfl, rfl, rfl, rfl, rfl, rfl, rfl, rfl, rfl, rfl, rfl, rfl, rfl, rfl, rfl, rfl, rfl⟩

@[simp] theorem modCell_lcl (c : Nat) (f : Cell → Cell) (d : Dev) : (modCell c f d).lcl = { d.lcl with cells := vmod d.lcl.cells c f } := rfl
@[simp] theorem modCell_frame (c : Nat) (f : Cell → Cell) (d : Dev) :
    (modCell c f d).clk = d.clk ∧ (modCell c f d).doms = d.doms ∧ (modCell c f d).rails = d.rails ∧ (modCell c f d).aon = d.aon ∧
    (modCell c f d).sched = d.sched ∧ (modCell c f d).seqr = d.seqr ∧ (modCell c f d).breach = d.breach ∧ (modCell c f d).meas = d.meas ∧
    (modCell c f d).time = d.time ∧ (modCell c f d).sec = d.sec ∧ (modCell c f d).nv = d.nv ∧ (modCell c f d).prot = d.prot ∧
    (modCell c f d).stack = d.stack ∧ (modCell c f d).ledger = d.ledger ∧ (modCell c f d).mram = d.mram ∧ (modCell c f d).engine = d.engine ∧
    (modCell c f d).acq = d.acq ∧ (modCell c f d).pwm = d.pwm ∧ (modCell c f d).bridges = d.bridges ∧ (modCell c f d).axes = d.axes ∧
    (modCell c f d).ladder = d.ladder ∧ (modCell c f d).isl = d.isl ∧ (modCell c f d).hvLatched = d.hvLatched ∧ (modCell c f d).com = d.com ∧
    (modCell c f d).out = d.out ∧ (modCell c f d).free = d.free := ⟨rfl, rfl, rfl, rfl, rfl, rfl, rfl, rfl, rfl, rfl, rfl, rfl, rfl, rfl, rfl, rfl, rfl, rfl, rfl, rfl, rfl, rfl, rfl, rfl, rfl, rfl⟩

@[simp] theorem modTxn_lcl (c : Nat) (f : Txn → Txn) (d : Dev) : (modTxn c f d).lcl = { d.lcl with cells := vmod d.lcl.cells c (fun x => { x with txn := f x.txn }) } := rfl
@[simp] theorem modTxn_frame (c : Nat) (f : Txn → Txn) (d : Dev) :
    (modTxn c f d).clk = d.clk ∧ (modTxn c f d).doms = d.doms ∧ (modTxn c f d).rails = d.rails ∧ (modTxn c f d).aon = d.aon ∧
    (modTxn c f d).sched = d.sched ∧ (modTxn c f d).seqr = d.seqr ∧ (modTxn c f d).breach = d.breach ∧ (modTxn c f d).meas = d.meas ∧
    (modTxn c f d).time = d.time ∧ (modTxn c f d).sec = d.sec ∧ (modTxn c f d).nv = d.nv ∧ (modTxn c f d).prot = d.prot ∧
    (modTxn c f d).stack = d.stack ∧ (modTxn c f d).ledger = d.ledger ∧ (modTxn c f d).mram = d.mram ∧ (modTxn c f d).engine = d.engine ∧
    (modTxn c f d).acq = d.acq ∧ (modTxn c f d).pwm = d.pwm ∧ (modTxn c f d).bridges = d.bridges ∧ (modTxn c f d).axes = d.axes ∧
    (modTxn c f d).ladder = d.ladder ∧ (modTxn c f d).isl = d.isl ∧ (modTxn c f d).hvLatched = d.hvLatched ∧ (modTxn c f d).com = d.com ∧
    (modTxn c f d).out = d.out ∧ (modTxn c f d).free = d.free := ⟨rfl, rfl, rfl, rfl, rfl, rfl, rfl, rfl, rfl, rfl, rfl, rfl, rfl, rfl, rfl, rfl, rfl, rfl, rfl, rfl, rfl, rfl, rfl, rfl, rfl, rfl⟩

@[simp] theorem modRing_lcl (r : Nat) (f : Ring → Ring) (d : Dev) : (modRing r f d).lcl = { d.lcl with rings := vmod d.lcl.rings r f } := rfl
@[simp] theorem modRing_frame (r : Nat) (f : Ring → Ring) (d : Dev) :
    (modRing r f d).clk = d.clk ∧ (modRing r f d).doms = d.doms ∧ (modRing r f d).rails = d.rails ∧ (modRing r f d).aon = d.aon ∧
    (modRing r f d).sched = d.sched ∧ (modRing r f d).seqr = d.seqr ∧ (modRing r f d).breach = d.breach ∧ (modRing r f d).meas = d.meas ∧
    (modRing r f d).time = d.time ∧ (modRing r f d).sec = d.sec ∧ (modRing r f d).nv = d.nv ∧ (modRing r f d).prot = d.prot ∧
    (modRing r f d).stack = d.stack ∧ (modRing r f d).ledger = d.ledger ∧ (modRing r f d).mram = d.mram ∧ (modRing r f d).engine = d.engine ∧
    (modRing r f d).acq = d.acq ∧ (modRing r f d).pwm = d.pwm ∧ (modRing r f d).bridges = d.bridges ∧ (modRing r f d).axes = d.axes ∧
    (modRing r f d).ladder = d.ladder ∧ (modRing r f d).isl = d.isl ∧ (modRing r f d).hvLatched = d.hvLatched ∧ (modRing r f d).com = d.com ∧
    (modRing r f d).out = d.out ∧ (modRing r f d).free = d.free := ⟨rfl, rfl, rfl, rfl, rfl, rfl, rfl, rfl, rfl, rfl, rfl, rfl, rfl, rfl, rfl, rfl, rfl, rfl, rfl, rfl, rfl, rfl, rfl, rfl, rfl, rfl⟩

@[simp] theorem modPath_lcl (r p : Nat) (f : Path → Path) (d : Dev) : (modPath r p f d).lcl = { d.lcl with paths := vmod d.lcl.paths (pathIx r p) f } := rfl
@[simp] theorem modPath_frame (r p : Nat) (f : Path → Path) (d : Dev) :
    (modPath r p f d).clk = d.clk ∧ (modPath r p f d).doms = d.doms ∧ (modPath r p f d).rails = d.rails ∧ (modPath r p f d).aon = d.aon ∧
    (modPath r p f d).sched = d.sched ∧ (modPath r p f d).seqr = d.seqr ∧ (modPath r p f d).breach = d.breach ∧ (modPath r p f d).meas = d.meas ∧
    (modPath r p f d).time = d.time ∧ (modPath r p f d).sec = d.sec ∧ (modPath r p f d).nv = d.nv ∧ (modPath r p f d).prot = d.prot ∧
    (modPath r p f d).stack = d.stack ∧ (modPath r p f d).ledger = d.ledger ∧ (modPath r p f d).mram = d.mram ∧ (modPath r p f d).engine = d.engine ∧
    (modPath r p f d).acq = d.acq ∧ (modPath r p f d).pwm = d.pwm ∧ (modPath r p f d).bridges = d.bridges ∧ (modPath r p f d).axes = d.axes ∧
    (modPath r p f d).ladder = d.ladder ∧ (modPath r p f d).isl = d.isl ∧ (modPath r p f d).hvLatched = d.hvLatched ∧ (modPath r p f d).com = d.com ∧
    (modPath r p f d).out = d.out ∧ (modPath r p f d).free = d.free := ⟨rfl, rfl, rfl, rfl, rfl, rfl, rfl, rfl, rfl, rfl, rfl, rfl, rfl, rfl, rfl, rfl, rfl, rfl, rfl, rfl, rfl, rfl, rfl, rfl, rfl, rfl⟩

@[simp] theorem modCe_engine (n : Nat) (f : CeInst → CeInst) (d : Dev) : (modCe n f d).engine = { d.engine with inst := vmod d.engine.inst n f } := rfl
@[simp] theorem modCe_frame (n : Nat) (f : CeInst → CeInst) (d : Dev) :
    (modCe n f d).clk = d.clk ∧ (modCe n f d).doms = d.doms ∧ (modCe n f d).rails = d.rails ∧ (modCe n f d).aon = d.aon ∧
    (modCe n f d).sched = d.sched ∧ (modCe n f d).seqr = d.seqr ∧ (modCe n f d).breach = d.breach ∧ (modCe n f d).meas = d.meas ∧
    (modCe n f d).time = d.time ∧ (modCe n f d).sec = d.sec ∧ (modCe n f d).nv = d.nv ∧ (modCe n f d).prot = d.prot ∧ (modCe n f d).lcl = d.lcl ∧
    (modCe n f d).stack = d.stack ∧ (modCe n f d).ledger = d.ledger ∧ (modCe n f d).mram = d.mram ∧ (modCe n f d).acq = d.acq ∧
    (modCe n f d).pwm = d.pwm ∧ (modCe n f d).bridges = d.bridges ∧ (modCe n f d).axes = d.axes ∧ (modCe n f d).ladder = d.ladder ∧
    (modCe n f d).isl = d.isl ∧ (modCe n f d).hvLatched = d.hvLatched ∧ (modCe n f d).com = d.com ∧ (modCe n f d).out = d.out ∧
    (modCe n f d).free = d.free := ⟨rfl, rfl, rfl, rfl, rfl, rfl, rfl, rfl, rfl, rfl, rfl, rfl, rfl, rfl, rfl, rfl, rfl, rfl, rfl, rfl, rfl, rfl, rfl, rfl, rfl, rfl⟩

@[simp] theorem modSet_acq (n : Nat) (f : CaptureSet → CaptureSet) (d : Dev) : (modSet n f d).acq = { d.acq with sets := vmod d.acq.sets n f } := rfl
@[simp] theorem modSet_frame (n : Nat) (f : CaptureSet → CaptureSet) (d : Dev) :
    (modSet n f d).clk = d.clk ∧ (modSet n f d).doms = d.doms ∧ (modSet n f d).rails = d.rails ∧ (modSet n f d).aon = d.aon ∧
    (modSet n f d).sched = d.sched ∧ (modSet n f d).seqr = d.seqr ∧ (modSet n f d).breach = d.breach ∧ (modSet n f d).meas = d.meas ∧
    (modSet n f d).time = d.time ∧ (modSet n f d).sec = d.sec ∧ (modSet n f d).nv = d.nv ∧ (modSet n f d).prot = d.prot ∧ (modSet n f d).lcl = d.lcl ∧
    (modSet n f d).stack = d.stack ∧ (modSet n f d).ledger = d.ledger ∧ (modSet n f d).mram = d.mram ∧ (modSet n f d).engine = d.engine ∧
    (modSet n f d).pwm = d.pwm ∧ (modSet n f d).bridges = d.bridges ∧ (modSet n f d).axes = d.axes ∧ (modSet n f d).ladder = d.ladder ∧
    (modSet n f d).isl = d.isl ∧ (modSet n f d).hvLatched = d.hvLatched ∧ (modSet n f d).com = d.com ∧ (modSet n f d).out = d.out ∧
    (modSet n f d).free = d.free := ⟨rfl, rfl, rfl, rfl, rfl, rfl, rfl, rfl, rfl, rfl, rfl, rfl, rfl, rfl, rfl, rfl, rfl, rfl, rfl, rfl, rfl, rfl, rfl, rfl, rfl, rfl⟩

@[simp] theorem modStream_acq (n : Nat) (f : Stream → Stream) (d : Dev) : (modStream n f d).acq = { d.acq with streams := vmod d.acq.streams n f } := rfl
@[simp] theorem modStream_frame (n : Nat) (f : Stream → Stream) (d : Dev) :
    (modStream n f d).clk = d.clk ∧ (modStream n f d).doms = d.doms ∧ (modStream n f d).rails = d.rails ∧ (modStream n f d).aon = d.aon ∧
    (modStream n f d).sched = d.sched ∧ (modStream n f d).seqr = d.seqr ∧ (modStream n f d).breach = d.breach ∧ (modStream n f d).meas = d.meas ∧
    (modStream n f d).time = d.time ∧ (modStream n f d).sec = d.sec ∧ (modStream n f d).nv = d.nv ∧ (modStream n f d).prot = d.prot ∧
    (modStream n f d).lcl = d.lcl ∧ (modStream n f d).stack = d.stack ∧ (modStream n f d).ledger = d.ledger ∧ (modStream n f d).mram = d.mram ∧
    (modStream n f d).engine = d.engine ∧ (modStream n f d).pwm = d.pwm ∧ (modStream n f d).bridges = d.bridges ∧ (modStream n f d).axes = d.axes ∧
    (modStream n f d).ladder = d.ladder ∧ (modStream n f d).isl = d.isl ∧ (modStream n f d).hvLatched = d.hvLatched ∧ (modStream n f d).com = d.com ∧
    (modStream n f d).out = d.out ∧ (modStream n f d).free = d.free := ⟨rfl, rfl, rfl, rfl, rfl, rfl, rfl, rfl, rfl, rfl, rfl, rfl, rfl, rfl, rfl, rfl, rfl, rfl, rfl, rfl, rfl, rfl, rfl, rfl, rfl, rfl⟩

@[simp] theorem onPcie_acq (f : Pcie → Pcie) (d : Dev) : (onPcie f d).acq = { d.acq with pcie := f d.acq.pcie } := rfl
@[simp] theorem onPcie_frame (f : Pcie → Pcie) (d : Dev) :
    (onPcie f d).clk = d.clk ∧ (onPcie f d).doms = d.doms ∧ (onPcie f d).rails = d.rails ∧ (onPcie f d).aon = d.aon ∧ (onPcie f d).sched = d.sched ∧
    (onPcie f d).seqr = d.seqr ∧ (onPcie f d).breach = d.breach ∧ (onPcie f d).meas = d.meas ∧ (onPcie f d).time = d.time ∧ (onPcie f d).sec = d.sec ∧
    (onPcie f d).nv = d.nv ∧ (onPcie f d).prot = d.prot ∧ (onPcie f d).lcl = d.lcl ∧ (onPcie f d).stack = d.stack ∧ (onPcie f d).ledger = d.ledger ∧
    (onPcie f d).mram = d.mram ∧ (onPcie f d).engine = d.engine ∧ (onPcie f d).pwm = d.pwm ∧ (onPcie f d).bridges = d.bridges ∧
    (onPcie f d).axes = d.axes ∧ (onPcie f d).ladder = d.ladder ∧ (onPcie f d).isl = d.isl ∧ (onPcie f d).hvLatched = d.hvLatched ∧
    (onPcie f d).com = d.com ∧ (onPcie f d).out = d.out ∧ (onPcie f d).free = d.free := ⟨rfl, rfl, rfl, rfl, rfl, rfl, rfl, rfl, rfl, rfl, rfl, rfl, rfl, rfl, rfl, rfl, rfl, rfl, rfl, rfl, rfl, rfl, rfl, rfl, rfl, rfl⟩

@[simp] theorem modPair_pwm (q : Nat) (f : Pair → Pair) (d : Dev) : (modPair q f d).pwm = { d.pwm with pairs := vmod d.pwm.pairs q f } := rfl
@[simp] theorem modPair_frame (q : Nat) (f : Pair → Pair) (d : Dev) :
    (modPair q f d).clk = d.clk ∧ (modPair q f d).doms = d.doms ∧ (modPair q f d).rails = d.rails ∧ (modPair q f d).aon = d.aon ∧
    (modPair q f d).sched = d.sched ∧ (modPair q f d).seqr = d.seqr ∧ (modPair q f d).breach = d.breach ∧ (modPair q f d).meas = d.meas ∧
    (modPair q f d).time = d.time ∧ (modPair q f d).sec = d.sec ∧ (modPair q f d).nv = d.nv ∧ (modPair q f d).prot = d.prot ∧
    (modPair q f d).lcl = d.lcl ∧ (modPair q f d).stack = d.stack ∧ (modPair q f d).ledger = d.ledger ∧ (modPair q f d).mram = d.mram ∧
    (modPair q f d).engine = d.engine ∧ (modPair q f d).acq = d.acq ∧ (modPair q f d).bridges = d.bridges ∧ (modPair q f d).axes = d.axes ∧
    (modPair q f d).ladder = d.ladder ∧ (modPair q f d).isl = d.isl ∧ (modPair q f d).hvLatched = d.hvLatched ∧ (modPair q f d).com = d.com ∧
    (modPair q f d).out = d.out ∧ (modPair q f d).free = d.free := ⟨rfl, rfl, rfl, rfl, rfl, rfl, rfl, rfl, rfl, rfl, rfl, rfl, rfl, rfl, rfl, rfl, rfl, rfl, rfl, rfl, rfl, rfl, rfl, rfl, rfl, rfl⟩

@[simp] theorem modBridge_bridges (k : Nat) (f : Bridge → Bridge) (d : Dev) : (modBridge k f d).bridges = vmod d.bridges k f := rfl
@[simp] theorem modBridge_frame (k : Nat) (f : Bridge → Bridge) (d : Dev) :
    (modBridge k f d).clk = d.clk ∧ (modBridge k f d).doms = d.doms ∧ (modBridge k f d).rails = d.rails ∧ (modBridge k f d).aon = d.aon ∧
    (modBridge k f d).sched = d.sched ∧ (modBridge k f d).seqr = d.seqr ∧ (modBridge k f d).breach = d.breach ∧ (modBridge k f d).meas = d.meas ∧
    (modBridge k f d).time = d.time ∧ (modBridge k f d).sec = d.sec ∧ (modBridge k f d).nv = d.nv ∧ (modBridge k f d).prot = d.prot ∧
    (modBridge k f d).lcl = d.lcl ∧ (modBridge k f d).stack = d.stack ∧ (modBridge k f d).ledger = d.ledger ∧ (modBridge k f d).mram = d.mram ∧
    (modBridge k f d).engine = d.engine ∧ (modBridge k f d).acq = d.acq ∧ (modBridge k f d).pwm = d.pwm ∧ (modBridge k f d).axes = d.axes ∧
    (modBridge k f d).ladder = d.ladder ∧ (modBridge k f d).isl = d.isl ∧ (modBridge k f d).hvLatched = d.hvLatched ∧ (modBridge k f d).com = d.com ∧
    (modBridge k f d).out = d.out ∧ (modBridge k f d).free = d.free := ⟨rfl, rfl, rfl, rfl, rfl, rfl, rfl, rfl, rfl, rfl, rfl, rfl, rfl, rfl, rfl, rfl, rfl, rfl, rfl, rfl, rfl, rfl, rfl, rfl, rfl, rfl⟩

@[simp] theorem onPair_isl (n : Nat) (f : StoPair → StoPair) (d : Dev) : (onPair n f d).isl = { d.isl with pairs := vmod d.isl.pairs n f } := rfl
@[simp] theorem onPair_frame (n : Nat) (f : StoPair → StoPair) (d : Dev) :
    (onPair n f d).clk = d.clk ∧ (onPair n f d).doms = d.doms ∧ (onPair n f d).rails = d.rails ∧ (onPair n f d).aon = d.aon ∧
    (onPair n f d).sched = d.sched ∧ (onPair n f d).seqr = d.seqr ∧ (onPair n f d).breach = d.breach ∧ (onPair n f d).meas = d.meas ∧
    (onPair n f d).time = d.time ∧ (onPair n f d).sec = d.sec ∧ (onPair n f d).nv = d.nv ∧ (onPair n f d).prot = d.prot ∧ (onPair n f d).lcl = d.lcl ∧
    (onPair n f d).stack = d.stack ∧ (onPair n f d).ledger = d.ledger ∧ (onPair n f d).mram = d.mram ∧ (onPair n f d).engine = d.engine ∧
    (onPair n f d).acq = d.acq ∧ (onPair n f d).pwm = d.pwm ∧ (onPair n f d).bridges = d.bridges ∧ (onPair n f d).axes = d.axes ∧
    (onPair n f d).ladder = d.ladder ∧ (onPair n f d).hvLatched = d.hvLatched ∧ (onPair n f d).com = d.com ∧ (onPair n f d).out = d.out ∧
    (onPair n f d).free = d.free := ⟨rfl, rfl, rfl, rfl, rfl, rfl, rfl, rfl, rfl, rfl, rfl, rfl, rfl, rfl, rfl, rfl, rfl, rfl, rfl, rfl, rfl, rfl, rfl, rfl, rfl, rfl⟩

@[simp] theorem onConn_isl (c : Nat) (f : Conn → Conn) (d : Dev) : (onConn c f d).isl = { d.isl with conns := vmod d.isl.conns c f } := rfl
@[simp] theorem onConn_frame (c : Nat) (f : Conn → Conn) (d : Dev) :
    (onConn c f d).clk = d.clk ∧ (onConn c f d).doms = d.doms ∧ (onConn c f d).rails = d.rails ∧ (onConn c f d).aon = d.aon ∧
    (onConn c f d).sched = d.sched ∧ (onConn c f d).seqr = d.seqr ∧ (onConn c f d).breach = d.breach ∧ (onConn c f d).meas = d.meas ∧
    (onConn c f d).time = d.time ∧ (onConn c f d).sec = d.sec ∧ (onConn c f d).nv = d.nv ∧ (onConn c f d).prot = d.prot ∧ (onConn c f d).lcl = d.lcl ∧
    (onConn c f d).stack = d.stack ∧ (onConn c f d).ledger = d.ledger ∧ (onConn c f d).mram = d.mram ∧ (onConn c f d).engine = d.engine ∧
    (onConn c f d).acq = d.acq ∧ (onConn c f d).pwm = d.pwm ∧ (onConn c f d).bridges = d.bridges ∧ (onConn c f d).axes = d.axes ∧
    (onConn c f d).ladder = d.ladder ∧ (onConn c f d).hvLatched = d.hvLatched ∧ (onConn c f d).com = d.com ∧ (onConn c f d).out = d.out ∧
    (onConn c f d).free = d.free := ⟨rfl, rfl, rfl, rfl, rfl, rfl, rfl, rfl, rfl, rfl, rfl, rfl, rfl, rfl, rfl, rfl, rfl, rfl, rfl, rfl, rfl, rfl, rfl, rfl, rfl, rfl⟩

@[simp] theorem Dev.fresh_free (d : Dev) : d.fresh.free = d.free + 1 := rfl
@[simp] theorem Dev.fresh_frame (d : Dev) :
    d.fresh.clk = d.clk ∧ d.fresh.doms = d.doms ∧ d.fresh.rails = d.rails ∧ d.fresh.aon = d.aon ∧ d.fresh.sched = d.sched ∧ d.fresh.seqr = d.seqr ∧
    d.fresh.breach = d.breach ∧ d.fresh.meas = d.meas ∧ d.fresh.time = d.time ∧ d.fresh.sec = d.sec ∧ d.fresh.nv = d.nv ∧ d.fresh.prot = d.prot ∧
    d.fresh.lcl = d.lcl ∧ d.fresh.stack = d.stack ∧ d.fresh.ledger = d.ledger ∧ d.fresh.mram = d.mram ∧ d.fresh.engine = d.engine ∧
    d.fresh.acq = d.acq ∧ d.fresh.pwm = d.pwm ∧ d.fresh.bridges = d.bridges ∧ d.fresh.axes = d.axes ∧ d.fresh.ladder = d.ladder ∧ d.fresh.isl = d.isl ∧
    d.fresh.hvLatched = d.hvLatched ∧ d.fresh.com = d.com ∧ d.fresh.out = d.out := ⟨rfl, rfl, rfl, rfl, rfl, rfl, rfl, rfl, rfl, rfl, rfl, rfl, rfl, rfl, rfl, rfl, rfl, rfl, rfl, rfl, rfl, rfl, rfl, rfl, rfl, rfl⟩

@[simp] theorem breachConservation_breach (d : Dev) : (breachConservation d).breach = { d.breach with summary := setBit d.breach.summary 2 } := rfl
@[simp] theorem breachConservation_frame (d : Dev) :
    (breachConservation d).clk = d.clk ∧ (breachConservation d).doms = d.doms ∧ (breachConservation d).rails = d.rails ∧
    (breachConservation d).aon = d.aon ∧ (breachConservation d).sched = d.sched ∧ (breachConservation d).seqr = d.seqr ∧
    (breachConservation d).meas = d.meas ∧ (breachConservation d).time = d.time ∧ (breachConservation d).sec = d.sec ∧
    (breachConservation d).nv = d.nv ∧ (breachConservation d).prot = d.prot ∧ (breachConservation d).lcl = d.lcl ∧
    (breachConservation d).stack = d.stack ∧ (breachConservation d).ledger = d.ledger ∧ (breachConservation d).mram = d.mram ∧
    (breachConservation d).engine = d.engine ∧ (breachConservation d).acq = d.acq ∧ (breachConservation d).pwm = d.pwm ∧
    (breachConservation d).bridges = d.bridges ∧ (breachConservation d).axes = d.axes ∧ (breachConservation d).ladder = d.ladder ∧
    (breachConservation d).isl = d.isl ∧ (breachConservation d).hvLatched = d.hvLatched ∧ (breachConservation d).com = d.com ∧
    (breachConservation d).out = d.out ∧ (breachConservation d).free = d.free := ⟨rfl, rfl, rfl, rfl, rfl, rfl, rfl, rfl, rfl, rfl, rfl, rfl, rfl, rfl, rfl, rfl, rfl, rfl, rfl, rfl, rfl, rfl, rfl, rfl, rfl, rfl⟩

end Sys2Proof.Machine
end

