-- ==== Sys2Proof/Laws/Requests.lean ====
section
/-! SUPPORT. Laws of requests: an answer touches the communication alone, and a row that is a host's write has the effect of the write. -/
namespace Sys2Proof.Machine

@[simp] theorem agreeButCom_refl (d : Dev) : agreeButCom d d := rfl

theorem agreeButCom_trans {a b c : Dev} (h : agreeButCom a b) (k : agreeButCom b c) : agreeButCom a c := by
  unfold agreeButCom at *
  rw [← h] at k
  exact k

theorem modSession_agrees (n : Nat) (f : Session → Session) (d : Dev) : agreeButCom (modSession n f d) d := rfl

theorem recordAbort_agrees (n ix sub : Nat) (a : Abort) (d : Dev) : agreeButCom (recordAbort n ix sub a d) d := by
  unfold recordAbort
  split <;> rfl

theorem emit_agrees (n : Nat) (x : Output) (d : Dev) : agreeButCom (emit n x d) d := by
  unfold emit
  split <;> rfl

theorem arpAsk_agrees (mac ip : Nat) (d : Dev) : agreeButCom (arpAsk mac ip d) d := by
  unfold arpAsk
  simp only []
  split <;> rfl

theorem raiseVector_agrees (v : Nat) (d : Dev) : agreeButCom (raiseVector v d) d := by
  unfold raiseVector
  split
  · rfl
  · split <;> rfl

theorem mailboxAnswer_agrees (slot : Nat) (b : Bytes) (d : Dev) : agreeButCom (mailboxAnswer slot b d) d := by
  unfold mailboxAnswer
  simp only []
  refine agreeButCom_trans (raiseVector_agrees _ _) ?_
  split <;> rfl

/-- A response changes nothing but the communication. -/
theorem sendResponse_agrees (n seq : Nat) (b : Bytes) (d : Dev) : agreeButCom (sendResponse n seq b d) d := by
  unfold sendResponse
  split
  · exact mailboxAnswer_agrees _ _ _
  · exact agreeButCom_trans (emit_agrees _ _ _) (agreeButCom_trans (modSession_agrees _ _ _) (arpAsk_agrees _ _ _))

/-- An answer that nothing follows. -/
theorem afterAnswer_plain (a : Answer) (s : State) (hr : a.reset = false) (hl : a.leaves = none) : afterAnswer a s = s := by
  simp [afterAnswer, hr, hl]

/-- What follows the execution of a message changes nothing but the communication, where the message neither closes the session nor
resets the device nor takes NET out of ON. -/
theorem finish_agrees (n service seq : Nat) (m : OdMsg) (before : State) (r : Answer × State) (hc : r.1.close = false)
    (hr : r.1.reset = false) (hl : r.1.leaves = none) : (finish n service seq m before r).od = r.2.od ∧ agreeButCom (finish n service seq m before r).dev r.2.dev := by
  obtain ⟨a, s⟩ := r
  simp only [] at hc hr hl ⊢
  unfold finish
  simp only [hc, afterAnswer_plain a _ hr hl, Bool.not_false, if_true]
  split
  · exact ⟨rfl, rfl⟩
  · cases a.abort with
    | none => exact ⟨rfl, sendResponse_agrees _ _ _ _⟩
    | some x => exact ⟨rfl, agreeButCom_trans (sendResponse_agrees _ _ _ _) (recordAbort_agrees _ _ _ _ _)⟩

theorem sdoAnswer_agrees (n ix sub : Nat) (a : Answer) (s : State) (hr : a.reset = false) (hl : a.leaves = none) :
    (sdoAnswer n ix sub a s).od = s.od ∧ agreeButCom (sdoAnswer n ix sub a s).dev s.dev := by
  unfold sdoAnswer
  simp only [afterAnswer_plain a _ hr hl]
  cases a.abort with
  | none => exact ⟨rfl, emit_agrees _ _ _⟩
  | some x => exact ⟨rfl, agreeButCom_trans (emit_agrees _ _ _) (recordAbort_agrees _ _ _ _ _)⟩

theorem sdoFinish_agrees (n ix sub : Nat) (before : State) (r : Answer × State) (hr : r.1.reset = false)
    (hl : r.1.leaves = none) :
    (sdoFinish n ix sub before r).od = r.2.od ∧ agreeButCom (sdoFinish n ix sub before r).dev r.2.dev := by
  unfold sdoFinish
  split
  · exact ⟨rfl, rfl⟩
  · exact sdoAnswer_agrees _ _ _ _ _ hr hl

/-- What a whole write answers, and the state it leaves: that of the write itself. -/
theorem writeWhole_state (wr : Writer) (n ix sub offset total : Nat) (b : Bytes) (s : State) :
    (writeWhole wr n ix sub offset total b s).2 = (wr (some n) ix sub b s).2 := by
  unfold writeWhole
  simp only []
  split <;> rfl

theorem writeWhole_close (wr : Writer) (n ix sub offset total : Nat) (b : Bytes) (s : State) :
    (writeWhole wr n ix sub offset total b s).1.close = false := by
  unfold writeWhole
  simp only []
  split <;> rfl

theorem writeWhole_reset (wr : Writer) (n ix sub offset total : Nat) (b : Bytes) (s : State) (h : ¬ (ix = 0x2202 ∧ sub = 1)) :
    (writeWhole wr n ix sub offset total b s).1.reset = false := by
  unfold writeWhole
  simp only []
  split
  · rfl
  · simp only [Bool.and_eq_false_iff, beq_eq_false_iff_ne]
    by_cases hx : ix = 0x2202
    · exact Or.inr fun hs => h ⟨hx, hs⟩
    · exact Or.inl hx

theorem writeWhole_leaves (wr : Writer) (n ix sub offset total : Nat) (b : Bytes) (s : State) (h : ¬ (ix = 0x2100 ∧ sub = 3)) :
    (writeWhole wr n ix sub offset total b s).1.leaves = none := by
  unfold writeWhole
  simp only []
  split
  · rfl
  · exact if_neg fun hx => h ⟨hx.1, hx.2.1⟩

/-- A write on a server channel. -/
theorem canServe_write (wr : Writer) (m : OdMsg) (n : Nat) (s : State) :
    canServe wr 2 m (.served n s) = sdoWrite wr n m.index.toNat m.sub.toNat m.payload s := rfl

/-- A row that is a host's write of an object, where it is executed: it leaves the objects, and everything but the communication, as the
write leaves them. -/
theorem hostWrite_seen {via : Via} {ix sub n : Nat} {b : Bytes} {s t : State} (hix : ix < 2 ^ 16) (hsub : sub < 2 ^ 8)
    (hb : b.length < 2 ^ 32) (hr : ¬ (ix = 0x2202 ∧ sub = 1)) (hl : ¬ (ix = 0x2100 ∧ sub = 3)) (h : writeSeen via ix sub b s = some (n, t)) :
    (hostWrite via ix sub b s).od = (writeObject (some n) ix sub b t).2.od ∧
      agreeButCom (hostWrite via ix sub b s).dev (writeObject (some n) ix sub b t).2.dev := by
  have e1 : (writeMsg ix sub b).index.toNat = ix := by
    simp only [writeMsg, BitVec.toNat_ofNat]
    exact Nat.mod_eq_of_lt hix
  have e2 : (writeMsg ix sub b).sub.toNat = sub := by
    simp only [writeMsg, BitVec.toNat_ofNat]
    exact Nat.mod_eq_of_lt hsub
  have e3 : (writeMsg ix sub b).total.toNat = b.length := by
    simp only [writeMsg, BitVec.toNat_ofNat]
    exact Nat.mod_eq_of_lt hb
  have e4 : (writeMsg ix sub b).payload = b := rfl
  unfold writeSeen requestSeen at h
  unfold hostWrite request
  cases via with
  | can c k =>
    simp only [] at h ⊢
    generalize admission true (.can c k) 2 (writeMsg ix sub b) s = A at h ⊢
    cases A with
    | dropped u => cases h
    | turnedAway k a u => cases h
    | served j u =>
      obtain ⟨rfl, rfl⟩ := Prod.mk.inj (Option.some.inj (h : some (j, u) = some (n, t)))
      have key := sdoFinish_agrees j ix sub u (writeWhole writeObject j ix sub 0 b.length b u) (writeWhole_reset _ _ _ _ _ _ _ _ hr) (writeWhole_leaves _ _ _ _ _ _ _ _ hl)
      rw [writeWhole_state] at key
      rw [canServe_write, e1, e2, e4, sdoWrite]
      exact key
  | udp mac ip port seq =>
    simp only [] at h ⊢
    generalize admission true (.udp mac ip port seq) 2 (writeMsg ix sub b) s = A at h ⊢
    cases A with
    | dropped u => cases h
    | turnedAway k a u => cases h
    | served k u =>
      simp only [e1, e2, Bool.true_or, Bool.and_true] at h
      split at h
      · rename_i hm
        cases h
        have hm' := Option.isNone_iff_eq_none.1 hm
        simp only [serveAdmitted, serveMessage, if_true, e1, e2, e3, e4, hm']
        simp only [writeFirst, if_true]
        rw [← writeWhole_state writeObject n ix sub 0 b.length b]
        exact finish_agrees _ _ _ _ _ _ (writeWhole_close _ _ _ _ _ _ _ _) (writeWhole_reset _ _ _ _ _ _ _ _ hr) (writeWhole_leaves _ _ _ _ _ _ _ _ hl)
      · cases h
  | mailbox slot =>
    simp only [] at h ⊢
    generalize admission true (.mailbox slot) 2 (writeMsg ix sub b) s = A at h ⊢
    cases A with
    | dropped u => cases h
    | turnedAway k a u => cases h
    | served k u =>
      simp only [e1, e2, Bool.true_or, Bool.and_true] at h
      split at h
      · rename_i hm
        cases h
        have hm' := Option.isNone_iff_eq_none.1 hm
        simp only [serveAdmitted, serveMessage, if_true, e1, e2, e3, e4, hm']
        simp only [writeFirst, if_true]
        rw [← writeWhole_state writeObject n ix sub 0 b.length b]
        exact finish_agrees _ _ _ _ _ _ (writeWhole_close _ _ _ _ _ _ _ _) (writeWhole_reset _ _ _ _ _ _ _ _ hr) (writeWhole_leaves _ _ _ _ _ _ _ _ hl)
      · cases h

/-- The effect of an accepted write, where the write's own effect leaves the communication alone or not. -/
theorem hostWrite_accepted {via : Via} {ix sub : Nat} {b : Bytes} {s : State} (hix : ix < 2 ^ 16) (hsub : sub < 2 ^ 8)
    (hb : b.length < 2 ^ 32) (hr : ¬ (ix = 0x2202 ∧ sub = 1)) (hl : ¬ (ix = 0x2100 ∧ sub = 3)) (h : accepted via ix sub b s = true) :
    ∃ n t u, writeSeen via ix sub b s = some (n, t) ∧ writeCheck t (some n) ix sub b = none ∧ writeEffect (some n) ix sub b t = (none, u) ∧
      (hostWrite via ix sub b s).od = u.od ∧ agreeButCom (hostWrite via ix sub b s).dev u.dev := by
  unfold accepted at h
  split at h
  · rename_i n t hs
    have hw := hostWrite_seen hix hsub hb hr hl hs
    have hn : (writeObject (some n) ix sub b t).1 = none := by simpa using h
    unfold writeObject at hw hn
    split at hn
    · cases hn
    · rename_i hc
      simp only [hc] at hw
      exact ⟨n, t, _, hs, hc, Prod.ext hn rfl, hw⟩
  · cases h

/-- What a row does that acts on the whole state: its effect, with the waiting commands kept. -/
theorem acts_completes {f : State → State} {s : State} : acts f s = .next { f s with pending := s.pending } := rfl

end Sys2Proof.Machine
end

