-- ==== Sys2Proof/WellFormed.lean ====
section
/-! DEFINITION. Which commands an environment can send: operands within what their carriers hold. `exec` gives every command an
effect, the ill-formed ones too. -/
namespace Sys2Proof

/-- A signed number of `n` bits. -/
def fitsSigned (n : Nat) (x : Int) : Bool := decide (-(2 ^ (n - 1) : Int) ≤ x ∧ x < 2 ^ (n - 1))

/-- An OD message fits into its carrier: a datagram of 1,472 bytes, a mailbox slot of 1,044 (R49). -/
def OdMsg.wf (m : OdMsg) : Bool := decide (m.payload.length ≤ 1452)

/-- SDO data of an expedited request and of a segment (CiA 301). -/
def SdoDown.wf : SdoDown → Bool
  | .expedited _ _ data => decide (data.length ≤ 4)
  | .initiate _ _ _ => true
  | .segment _ _ data => decide (data.length ≤ 7)

/-- A CAN FD frame carries at most 64 bytes, an Ethernet frame at most 1,500. -/
def PdoSrc.fits (src : PdoSrc) (data : Bytes) : Bool :=
  match src with
  | .can _ _ => decide (data.length ≤ 64)
  | .eth _ => decide (data.length ≤ 1500)

/-- A body of at most 48 bytes (Table 11.1). -/
def CellMsg.wf (m : CellMsg) : Bool := decide (m.body.length ≤ 48)

/-- Offsets of five gains, and five gain factors of 16 bits (R374). -/
def CalFactors.wf (f : CalFactors) : Bool :=
  f.offsets.length == 5 && f.gains.length == 5 && f.offsets.all (fitsSigned 16) && f.gains.all (fun k => decide (k < 65536))

/-- A frame of a ring: at most 16 positions (Tables 9.2 and 9.3). -/
def ringFrame (b : Bytes) : Bool := decide (b.length ≤ 32 + 36 * 16 + 256 + 4)

/-- Operands that a command's carrier can hold. -/
def Instr.wf : Instr → Bool
  | .odRead _ m => m.wf
  | .odWrite _ m => m.wf
  | .sdoDownload _ _ step => step.wf
  | .mailboxOwnerSet _ _ message => decide (message.length ≤ 1044)
  | .rpdoReceived src data => src.fits data
  | .domainTransitionComplete _ readings _ _ => readings.all (fitsSigned 16)
  | .keyWrite _ _ key => decide (key.length ≤ 1024)
  | .dbgResponseUpdate response => response.length == 16
  | .commResponse _ nonce mac => nonce.length == 16 && mac.length == 32
  | .loadData _ chunk => decide (chunk.length ≤ 1024)
  | .timebaseCheckWindow ppb => fitsSigned 33 ppb
  | .ptpSync _ logInterval _ _ correction => fitsSigned 8 logInterval && fitsSigned 64 correction
  | .ptpFollowUp _ _ correction => fitsSigned 64 correction
  | .ptpDelayResp _ _ _ correction => fitsSigned 64 correction
  | .ptpAnnounce _ a => fitsSigned 16 a.utcOffset && fitsSigned 8 a.logAnnounce && fitsSigned 8 a.logSync
  | .icmpEcho _ _ _ body => decide (body.length ≤ 1480)
  | .cyclicFrameReturn _ _ frame _ => ringFrame frame
  | .standbyFrameReturn _ _ frame _ => ringFrame frame
  | .delayFrameReturn _ a b _ _ => ringFrame a && ringFrame b
  | .hello m => m.wf
  | .challengeResp m => m.wf
  | .lockReport m => m.wf
  | .paramAck m => m.wf
  | .commitAck m => m.wf
  | .calData m => m.wf
  | .armAck m => m.wf
  | .leaveReq m => m.wf
  | .nakStateReceived m => m.wf
  | .eventReport m => m.wf
  | .cellCreditReceived m => m.wf
  | .adcEntryResult _ samples => samples.all (fitsSigned 16)
  | .adcCalComplete factors => decide (factors.length ≤ 8) && factors.all CalFactors.wf
  | .temperatureCycle readings => readings.length == 12 && readings.all (fitsSigned 16)
  | .descriptorFetchComplete _ descriptor => descriptor.length == 32
  | .safetyCopyArrival _ _ _ mac pdu => mac.length == 6 && decide (pdu.length ≤ 1500)
  | .speedWindowEnd _ samples => samples.all (fun p => fitsSigned 16 p.1 && fitsSigned 16 p.2)
  | _ => true

end Sys2Proof
end

