-- ==== Sys2Proof/Tests/Slice0.lean ====
section
/-! SUPPORT. Tests: for each clause of each statement a state and operands that meet its hypotheses (`witness_…`, numbered as the
statement's clauses), commands that well-formedness refuses, and values from the worked examples of the specification. -/
open Sys2Proof Sys2Proof.Machine
namespace Sys2Proof.Tests
set_option Elab.async false
set_option linter.unusedVariables false

/-- Eight SDO channels and four slots, no UDP session. -/
def sess : Vector Session 64 :=
  Vector.ofFn (fun i => if i.val < 8 then { kind := .can } else if i.val < 12 then { kind := .mailbox } else {})

/-- Every domain ON, every rail good, no reset. -/
def allOn : Dev := { doms := Vector.replicate 8 { state := .on }, rails := { ok := Vector.replicate 9 true }, com := { sessions := sess } }

def base : State := { dev := allOn }

/-- The state with a change of its device. -/
def at_ (f : Dev → Dev) : State := { base with dev := f allOn }

/-- Some objects set. -/
def objs (l : List (Nat × Nat × Bytes)) : Od := l.foldl (fun o x => odSet o x.1 x.2.1 x.2.2) []

/-- Device time counts and the schedule runs. -/
def live (d : Dev) : Dev :=
  { d with clk := { d.clk with counting := true, dt := 4000000000, run := 4000000000 }
           sched := { running := true, origin := 0, count := 1000, j := 1000, last := 4000000000 } }

/-- A session that holds the commissioning authorisation. -/
def holds0 (d : Dev) : Dev := { d with sec := { d.sec with holder := some 0 } }

def can0 : Via := .can 0 0
def udp0 : Via := .udp 0 0x0A000002 5000 1

def fits (via : Via) (ix sub : Nat) (b : Bytes) (s : State) : State := match writeSeen via ix sub b s with
  | some (n, t) => (writeObject (some n) ix sub b t).2
  | none => s

/-- The state in which a request, or a write, is executed. -/
def seenT (whole : Bool) (via : Via) (service : Nat) (m : OdMsg) (s : State) : State := match requestSeen whole via service m s with
  | some (_, t) => t
  | none => s

def wT (via : Via) (ix sub : Nat) (b : Bytes) (s : State) : State := seenT true via 2 (writeMsg ix sub b) s

def upState : State := at_ (fun d => modSession 6 (fun x => { x with transfer := some { write := false, ix := 0x2300, sub := 4, total := 16, data := List.replicate 16 7, pos := 14, toggle := true, last := 0 } }) d)
def downState : State := at_ (fun d => modSession 6 (fun x => { x with transfer := some { write := true, ix := 0x1017, sub := 0, total := 2, data := [0xE8], pos := 1, toggle := true, last := 0 } }) d)
def udpState : State := at_ (fun d => modSession 12 (fun x => { x with kind := .udp, ip := 0x0A000002, port := 5000 }) d)
def hbMsg : OdMsg := { index := 0x1017, sub := 0, total := 2, plen := 2, payload := [0xE8, 3] }
def lclMsg : OdMsg := { index := 0x3400, sub := 8, total := 2, plen := 2, payload := [0, 1] }
def holds10 (d : Dev) : Dev := { d with sec := { d.sec with holder := some 10 } }

/-- PDOs run. -/
def oper (d : Dev) : Dev := { d with com := { d.com with nmt := .operational } }
def pdoOd (type : BitVec 8) : Od := objs [(0x1403, 1, toLE 4 0x210), (0x1403, 2, [type]), (0x1403, 5, [10, 0]), (0x1603, 0, [1]), (0x1603, 1, toLE 4 0x10170010),
  (0x1803, 1, toLE 4 0x190), (0x1803, 2, [type]), (0x1803, 5, [10, 0]), (0x1A03, 0, [1]), (0x1A03, 1, toLE 4 0x10170010), (0x1017, 0, [0xE8, 3])]
def pdoState (type : BitVec 8) : State := { at_ oper with od := pdoOd type }
def wrState : State := devTo (fun d => { netBusy d with com := { d.com with rpdos := vmod d.com.rpdos 3 (fun x => { x with lastReceived := d.clk.run }) } }) (pdoState 0xFE)
def rec1 : Record := { ev := { time := 5, code := 0x0101, source := 3, data := List.replicate 16 1 }, seq := 7, late := false }
def storing : State := at_ (fun d => { d with com := { d.com with store := some { bank := 1, counter := 3, contents := [(0x10170000 / 65536 * 256, [1, 0])], session := 0, ix := 0x1010, sub := 1 } } })
def ev1 : Event := { time := 5, code := 0x0101, source := 3, data := List.replicate 16 1 }
def evState : State := at_ (fun d => { live d with seqr := { d.seqr with held := [ev1] } })
def openCell : State := at_ (fun d => modCell 5 (fun x => { x with state := .run, txn := { x.txn with isOpen := true } }) d)
def gapState : State := at_ (fun d => { d with ledger := { d.ledger with accounts := vmod d.ledger.accounts 128 (fun a => { a with qIn := 4, gap := some (7, 1, secT 3, 2) }) } })
def noResume : State := at_ (fun d => { live d with ledger := { d.ledger with resume := .no } })
def ckpt : State := at_ (fun d => { d with ledger := { d.ledger with writing := some ({ counter := 2, valid := true, periodEnd := 9 }, 15) } })
def railOff (r : Nat) : State := at_ (fun d => { d with rails := { d.rails with ok := vset d.rails.ok r false, lost := vset d.rails.lost r true } })
def rst (f : ResetCtl → ResetCtl) : State := at_ (fun d => { d with aon := { d.aon with reset := f d.aon.reset } })
def booting (q : SeqCtl) (f : Dev → Dev) : State := at_ (fun d => f { d with aon := { d.aon with seq := some q } })
def domTo (m : Domain) (c : DomainCtl) (d : Dev) : Dev := { d with doms := vset d.doms m.num c }
def q1 : SeqCtl := { boot := true, todo := [.net, .drv], mask := 0xFE }
def gapHeld : State := { gapState with dev := holds0 gapState.dev }

def keyed (d : Dev) : Dev := { d with nv := { d.nv with keys := Vector.replicate 3 (some (List.replicate 16 1)) } }
def wHold (f : Dev → Dev) : State := at_ (fun d => f (holds0 (keyed d)))
def secS (f : Sec → Sec) : State := at_ (fun d => { d with sec := f d.sec })
def nonce0 : Bytes := List.replicate 16 9
def ck0 : Bytes := List.replicate 16 1
def commN : State := secS (fun s => { s with nonces := vset s.nonces 12 (some (nonce0, 0, some ck0)), lifecycle := 0 })
def mac0 : Bytes := commMac ck0 nonce0 nonce0 12
def badMac : Bytes := mac0.map (· + 1)
def tbS (f : Time → Time) : State := at_ (fun d => { live d with time := f d.time })
def master1 : Master := { parent := 0x1234, gm := 0x99 }
def ptpOd (delay : BitVec 8) : Od := objs [(0x2440, 1, [delay]), (0x2440, 2, [0]), (0x2440, 3, [1])]
def ptpS (delay : BitVec 8) (f : Time → Time) : State := { tbS (fun t => f { t with links := 1 }) with od := ptpOd delay }
def head1 : PtpHead := { mac := 0, udp := true, domain := 0, source := 0x1234, seq := 5 }
def head2 : PtpHead := { mac := 0, udp := false, domain := 0, source := 0x1234, seq := 5 }
def ethS : State := at_ (fun d => { d with time := { d.time with links := 1 } })
def attn (s : DebugState) : State := secS (fun x => { x with debug := s, lifecycle := 1 })
def image1 : Bytes := List.replicate 11 0 ++ [0, 7] ++ List.replicate 300 0
def runImg : State := at_ (fun d => holds0 { d with sec := { d.sec with running := some 0 }, nv := { d.nv with boots := Vector.replicate 2 { valid := true }, images := vset d.nv.images 0 { data := image1, mark := none } } })
def loading : State := at_ (fun d => holds0 { d with sec := { d.sec with running := some 0, load := some 1, loadTarget := 1 }, nv := { d.nv with images := vset d.nv.images 1 { data := [1], mark := some 4 } } })
def macS : State := at_ (fun d => { d with time := { d.time with links := 1 }, com := { d.com with iface := objs [(0x2450, 2, [10, 0, 0, 1]), (0x2450, 4, [10, 0, 0, 9])] } })
def sess12 : Session := { kind := .udp, mac := 0, ip := 0x0A000002, port := 5000 }
def udpS (f : Dev → Dev) : State := at_ (fun d => f (modSession 12 (fun _ => sess12) d))
def carrier1 : State := { at_ (fun d => { live d with stack := { d.stack with state := .running }, time := { d.time with cas := { declared := true }, carrier := some { freq := 0, ramp := 5000000 } } }) with od := objs [(0x2420, 2, toLE 4 5000000 ++ toLE 2 10 ++ toLE 2 0)] }

/-- Ring 1 launches frames to four cells on path A. -/
def ringOd : Od := objs [(0x3181, 1, [1]), (0x3181, 2, [4])]
def flight1 : Flight := { ftype := 1, period := 999, launch := 4000000000, frame := List.replicate 8 0, slots := [.reserved 2] }
def flight2 : Flight := { ftype := 2, period := 999, launch := 4000000000, frame := List.replicate 8 0 }
def ringUp (fs : List Flight) (d : Dev) : Dev :=
  modRing 1 (fun g => { g with started := true, launching := true, activePath := 0, delayValid := true, lastDone := 999 })
    (modPath 1 0 (fun p => { p with state := .active, sync := true, flights := fs })
      (live { d with lcl := { d.lcl with applyOffset := 9600 } }))
def ringS (fs : List Flight) (f : Dev → Dev) : State := { at_ (fun d => f (ringUp fs d)) with od := ringOd }
def frameOf (ftype : Nat) : Bytes :=
  let b := (List.range (frameLen ftype 4 - 4)).map (fun i => if i = 30 then (4 : BitVec 8) else 0)
  b ++ toLE 4 (crc32 b)
/-- Position 2 of ring 1. -/
def cell2 (f : Cell → Cell) : State := ringS [flight1] (modCell 18 f)
def msg (kind : BitVec 2) (body : Bytes) : CellMsg := { ring := 1, position := 2, slot := 0, kind := kind, retry := false, echo := false, tag := 1, epoch := 3, grant := 0, body := body }
def opened (f : Txn → Txn) : Txn := f { isOpen := true, epoch := 3, pool := 4, cellPool := 4, high := 0, grant := 2 }
def helloBody : Bytes := List.replicate 16 1 ++ List.replicate 16 0 ++ [0x12, 1] ++ List.replicate 10 0
def waiting (m : Nat) : Cell → Cell := fun x => { x with state := .param, txn := opened (fun t => { t with out := [{ mtype := m, body := toLE 2 0 ++ [0, 0], ord := 1, tag := 1, launched := 998 }] }) }
def helloS : State := { at_ (fun d => modCell 18 (fun x => { x with state := .discover }) (ringUp [flight1] { d with nv := { d.nv with keys := vset d.nv.keys 1 (some (List.replicate 16 5)) } })) with od := ringOd }
def late5 : Cell → Cell := fun x => { x with state := .param, txn := opened (fun t => { t with out := [{ mtype := 0x05, body := toLE 2 0 ++ [0, 0], ord := 1, tag := 1, launched := 990 }] }) }
def reconS : State := ringS [flight1] (fun d => modRing 1 (fun g => { g with recon := some (3, 4) }) (modCell 18 (fun x => { x with txn := opened (fun t => { t with reconciling := true }) }) d))
def admitS : State := cell2 (fun x => { x with state := .admitting, waitSince := some 990 })

/-- One stack of four cells on ring 1. -/
def stackOd : Od := objs [(0x3181, 1, [1]), (0x3181, 2, [4]), (0x3000, 1, [3]), (0x3000, 2, [1]), (0x3000, 3, toLE 4 1000), (0x3001, 1, [16]), (0x3001, 2, [4]),
  (0x3001, 4, toLE 2 50000), (0x3010, 4, [1]), (0x3020, 1, [0]), (0x3020, 4, [0]), (0x3201, 1, [1]), (0x3201, 2, [2]), (0x3201, 4, toLE 4 9), (0x3200, 2, [0]), (0x3200, 1, [1]), (0x3210, 1, (List.range 128).flatMap (fun _ => toLE 2 100)), (0x3030, 7, toLE 4 4), (0x2601, 8, [0, 0, 0, 0, 0, 0, 0, 0])]
def stackS (st : StackState) (f : Dev → Dev) : State := { at_ (fun d => f (ringUp [flight1] { d with
  aon := { d.aon with ready := true }, time := { d.time with cas := { declared := true } }, prot := {}
  stack := { d.stack with state := st, active := 0xF0000 }
  lcl := { d.lcl with cells := Vector.ofFn (fun i => if 16 ≤ i.val ∧ i.val < 20 then { state := .armed } else {}) } })) with od := stackOd }
def implS : State := at_ (fun d => modCell 18 (fun x => { x with implausible := true }) d)
def inSt (st : StackState) (f : Stack → Stack) : State := at_ (fun d => live { d with stack := f { d.stack with state := st } })
/-- The next period start is still to come. -/
def inSt2 (s : State) : State := s.act (fun _ d => { d with sched := { d.sched with origin := 4000000000 } })
def ceS (f : CeInst → CeInst) : State := at_ (fun d => live { d with engine := { d.engine with inst := vmod d.engine.inst 3 f } })
def bank1 : Bytes := List.replicate 40 3
def ceBankS (st : CeState) (crc : Bool) : State := { ceS (fun i => { i with state := st, bank := bank1 }) with
  od := objs [(0x2813, 0x13, bank1), (0x2813, 0x14, toLE 4 (if crc then crc32c bank1 else 0)), (0x2813, 8, [0, 0])] }
def adcOd (trig : BitVec 8) (on : BitVec 8) (n : Nat) : Od := objs [(0x2604, 1, [on]), (0x2604, 2, [trig]), (0x2604, 3, [1]), (0x2604, 8, (List.replicate n [0, 0, 1, 0, 40, 0, 0, 0]).flatten)]
def adcS (f : Adc → Adc) (trig on : BitVec 8) (n : Nat) : State := { at_ (fun d => live { d with time := { d.time with tb := { declared := true } }, meas := { d.meas with adcs := vmod d.meas.adcs 3 (fun a => f { a with cal := .calibrated }) } }) with od := adcOd trig on n }
def calS : State := at_ (fun d => live { d with meas := { d.meas with adcs := vmod d.meas.adcs 3 (fun a => { a with cal := .calibrating, calFrom := 5 }) } })
def okFactors : CalFactors := { offsets := [0, 0, 0, 0, 0], gains := [32768, 32768, 32768, 32768, 32768] }
def cmpS (f : Cmp → Cmp) (m : BitVec 8) : State := { at_ (fun d => live { d with meas := { d.meas with cmps := vmod d.meas.cmps 31 f } }) with od := objs [(0x264F, 2, [m])] }
def hotDie (die : Nat) : State := at_ (fun d => live { d with meas := { d.meas with dies := vmod d.meas.dies die (fun x => { x with latched := true, declared := 5, coolSince := some 5 }) } })

def acqOd : Od := objs [(0x2745, 2, toLE 2 0x0102), (0x2712, 5, [1]), (0x2712, 2, [4, 0, 0, 0]), (0x2745, 5, toLE 4 1000)]
def pcieUp : Pcie := { perst := false, up := true, speed := 3, width := 2, busMaster := true, memory := true, bar := 5, pending := 16, masked := 0x10 }
def strS (f : Stream → Stream) : State := { at_ (fun d => live { d with acq := { d.acq with pcie := pcieUp, streams := vmod d.acq.streams 5 (fun x => f { x with ringBase := 64, ringSize := 8 }) } }) with od := acqOd }
def buf1 : Descriptor := { index := 0, addr := 4096, len := 8192 }
def stg1 : Staged := { rtype := 1, time := 9, bytes := List.replicate 16 3 }
def pcS (f : Pcie → Pcie) : State := at_ (fun d => { d with acq := { d.acq with pcie := f pcieUp, streams := vmod d.acq.streams 31 (fun x => { x with enabled := true }) } })
def pairS (f : Pair → Pair) : State := at_ (fun d => live { d with pwm := { d.pwm with pairs := vmod d.pwm.pairs 19 f } })
def grpS (o : Od) (f : Group → Group) : State := { at_ (fun d => live { d with isl := { d.isl with pairs := Vector.replicate 4 { state := .permit } }, pwm := { d.pwm with groups := vmod d.pwm.groups 9 f } }) with od := o }
def brS (f : Bridge → Bridge) : State := at_ (fun d => live { d with bridges := vmod d.bridges 5 f })
def brP (f : Bridge → Bridge) (p : Pair → Pair) : State := at_ (fun d => live { d with bridges := vmod d.bridges 5 f, pwm := { d.pwm with pairs := vmod d.pwm.pairs 19 p } })
/-- Group 9 not forced, some sources raised. -/
def relS (o : Od) (raised : Nat) (f : Dev → Dev) : State := { at_ (fun d => f (live { d with isl := { d.isl with pairs := Vector.replicate 4 { state := .permit } }, pwm := { d.pwm with raised := raised } })) with od := o }

def f32b (x : Nat) : Bytes := toLE 4 x
/-- An edge of WAKE_IN0, held for longer than the filter asks. -/
def seen1 : WakeSeen := { pins := 1, trl := 0, held := 65535, others := 0 }
def wakeS (cfg : BitVec 8) : State := { base with od := objs [(0x2103, 1, [1, 0]), (0x2105, 1, [cfg])] }
/-- Axis 4: pairs 14 to 16, its entries triggered by its channel 28. -/
def axisOd : Od := objs [(0x400F, 5, [0x8E]), (0x4010, 5, [0x8E]), (0x4500, 0x0A, [2]), (0x4500, 0x0C, f32b 0x3A83126F), (0x4500, 0x0D, f32b 0x3A83126F), (0x4500, 0x0E, f32b 0x3DCCCCCD),
  (0x4500, 0x10, f32b 0x43480000), (0x4500, 5, [0]), (0x4500, 6, [0]), (0x4500, 7, [0]), (0x4500, 8, f32b 0x3C23D70A), (0x4500, 9, f32b 0x3C23D70A), (0x2601, 2, [2]), (0x2601, 3, [28])]
def axS (f : Axis → Axis) : State := { at_ (fun d => live { d with axes := vmod d.axes 4 f, pwm := { d.pwm with groups := Vector.replicate 10 {} } }) with od := axisOd }
def axRun (f : Axis → Axis) : State := { at_ (fun d => live { d with axes := vmod d.axes 4 f, pwm := { d.pwm with pairs := [14, 15, 16].foldl (fun v q => vmod v q (fun p => { p with enabled := true, active := true, owner := .axis 4, start := 4000000000, next := some 4000050000, force := { period := 50000 } })) d.pwm.pairs } }) with od := axisOd }
def chopOd : Od := objs [(0x400D, 5, [0x8C]), (0x400D, 6, toLE 4 40000), (0x4038, 5, toLE 4 40000), (0x403A, 5, toLE 4 40000), (0x4600, 3, [0]), (0x4600, 4, [32]), (0x2601, 2, [2]), (0x2601, 3, [24]), (0x2602, 2, [2]), (0x2602, 3, [26]),
  (0x4610, 1, [64]), (0x4600, 8, f32b 0x43FA0000), (0x4600, 9, f32b 0x44160000), (0x4610, 3, f32b 0x442F0000), (0x4610, 4, f32b 0x44480000), (0x4610, 5, f32b 0x44610000)]
def chS (f : Ladder → Ladder) : State := { at_ (fun d => live { d with ladder := f d.ladder }) with od := chopOd }
def islS (o : Od) (f : Island → Island) : State := { at_ (fun d => live { d with isl := f d.isl }) with od := o }
def stoOd : Od := objs [(0x5013, 7, [1])]
def permit3 (f : StoPair → StoPair) (i : Island) : Island := { i with pairs := vset i.pairs 3 (f { state := .permit, a := { level := true }, b := { level := true } }) }
def connOd : Od := objs [(0x581F, 1, [1]), (0x581F, 2, [8]), (0x581F, 5, [1]), (0x581F, 4, toLE 4 0x10123), (0x581F, 0x0F, toLE 4 0x10124)]
def pduHead (seq : Nat) : Bytes := [31, 1] ++ toLE 2 seq ++ toLE 2 0x88 ++ [0, 0] ++ toLE 4 0 ++ toLE 4 0 ++ toLE 4 (Config.serial.toNat % 2 ^ 32)
def pduOf (seq : Nat) : Bytes := pduHead seq ++ toLE 4 (crc32c (pduHead seq))
def held1 : HeldCopy := { eth := true, at_ := 4000000000, mac := [1, 2, 3, 4, 5, 6], pdu := pduOf 7 }

/-- Where no RPDO has taken a frame, none is held. -/
theorem noHeld {d : Dev} (h : d.com.rpdos = Vector.replicate 32 ({} : Rpdo)) (n : Nat) : (vget d.com.rpdos n).held = none := by
  rw [h]
  unfold vget
  by_cases hn : n < 32
  · simp [hn]
  · simp [hn]; rfl

theorem macC_length (ik : Bytes) (c : Nat) (x : Cell) : (macC ik c x).length = 16 := by simp [macC, hmac_length]

/-- Bytes that end in their own checksum are valid. -/
theorem crcClass_append (b : Bytes) : crcClass (b ++ toLE 4 (crc32 b)) = .valid := by
  have hl : (b ++ toLE 4 (crc32 b)).length - 4 = b.length := by simp
  unfold crcClass
  simp only [hl, leAt]
  rw [slice_append_right _ _ _ (by simp), List.take_left', leNat_toLE_of_lt (crc32_lt b), if_pos rfl]
  rfl

theorem frame_valid : crcClass (frameOf 1) = .valid := by
  unfold frameOf
  exact crcClass_append _

theorem frame_len : (frameOf 1).length = frameLen 1 4 := by
  have : 4 ≤ frameLen 1 4 := by decide +kernel
  simp [frameOf]
  omega

/-- A valid frame of the right length, head and cell count that came in time has no fault. -/
theorem frameFault_none {o : Od} {d : Dev} {r p rtt : Nat} {f : Flight} {b : Bytes} (hc : crcClass b = .valid)
    (hl : b.length = frameLen f.ftype (ringCells o r)) (hh : sameHeader b f.frame = true) (hn : leAt b 30 1 = ringCells o r)
    (ht : beyondApply o d r f rtt = false) : frameFault o d r p f b rtt = none := by
  unfold frameFault
  rw [hc]
  simp [hl, hh, hn, ht]

theorem ring_cells : ringCells (ringS [flight1] id).od 1 = 4 := by decide +kernel

/-- The states in which the returns are judged. -/
def back1 : State := (ringS [flight1] id).upTo (returnDue 1 0 1 5000000 (frameOf 1).length)
def back2 : State := (ringS [flight2] id).upTo (returnDue 1 0 2 5000000 (frameOf 2).length)

theorem frame_ok : frameFault (ringS [flight1] id).od back1.dev 1 0 flight1 (frameOf 1) 5000000 = none := by
  apply frameFault_none frame_valid
  · rw [ring_cells]; exact frame_len
  · decide +kernel
  · decide +kernel
  · decide +kernel

theorem frame_ok2 : frameFault (ringS [flight2] id).od back2.dev 1 0 flight2 (frameOf 2) 5000000 = none := by
  apply frameFault_none
  · unfold frameOf
    exact crcClass_append _
  all_goals decide +kernel

/-- Ring 1 on both paths, its DELAY frames under way. -/
def flight3 : Flight := { ftype := 3, period := 999, launch := 4000003200, frame := List.replicate 8 0 }
def dualS : State := { ringS [] (fun d => modRing 1 (fun g => { g with delayPeriod := some 999 })
  (modPath 1 0 (fun p => { p with flights := [flight3] }) (modPath 1 1 (fun p => { p with state := .standby, sync := true, flights := [flight3] }) d)))
  with od := odSet ringOd 0x3181 1 [3] }
def back3 : State := dualS.upTo (delayDue 1 5000000 5002000 (frameOf 3).length (frameOf 3).length)

theorem delay_frame_ok {p rtt : Nat} (h : (canReturn back3.dev 1 p flight3 && (frameOf 3).length == frameLen 3 (ringCells dualS.od 1)
    && sameHeader (frameOf 3) flight3.frame && leAt (frameOf 3) 30 1 == ringCells dualS.od 1
    && !tooLate dualS.od 1 p flight3 rtt (frameOf 3).length back3.dev && !beyondApply dualS.od back3.dev 1 flight3 rtt) = true) :
    delayFrameOk dualS.od back3.dev 1 p flight3 (frameOf 3) rtt = true := by
  have hc : crcClass (frameOf 3) = .valid := by unfold frameOf; exact crcClass_append _
  unfold delayFrameOk
  rw [hc]
  simp only [Bool.and_eq_true, beq_self_eq_true, and_true] at h ⊢
  exact h

theorem mac0_length : mac0.length = 32 := hmac_length _ _

/-- A message of COMM_RESPONSE is executed whatever it says. -/
theorem comm_seen {mac : Bytes} (h : mac.length = 32) : requestSeen false udp0 0x11 (serviceMsg (nonce0 ++ mac)) commN
    = some (12, seenT false udp0 0x11 (serviceMsg (nonce0 ++ mac)) commN) := by
  have hm : messageCheck 0x11 (serviceMsg (nonce0 ++ mac)) none = none := by simp [messageCheck, serviceMsg, nonce0, h]
  have e : ∀ m : OdMsg, m.version = 1 → ∃ t, requestSeen false udp0 0x11 m commN =
      if (messageCheck 0x11 m none).isNone then some (12, t) else none := by
    rintro ⟨v, _, _, _, _, _, _, _⟩ rfl
    exact ⟨_, rfl⟩
  obtain ⟨t, ht⟩ := e (serviceMsg (nonce0 ++ mac)) rfl
  rw [hm] at ht
  rw [seenT, ht]
  rfl

theorem badMac_length : badMac.length = 32 := by rw [badMac, List.length_map]; exact hmac_length _ _

theorem map_succ_ne : ∀ b : Bytes, b ≠ [] → b.map (· + 1) ≠ b
  | [], h => absurd rfl h
  | x :: l, _ => by
    intro h
    have h1 : x + 1 = x := by simpa using (List.cons.inj h).1
    bv_omega

theorem badMac_ne : badMac ≠ mac0 := map_succ_ne _ (by intro h; have := mac0_length; rw [h] at this; cases this)

theorem macC_at (d e : Dev) {c n : Nat} (h : c = n) : macC (admissionKey e n) n (getCell d n) = macC (admissionKey e c) c (getCell d c) := by rw [h]

theorem forall_some {α : Type} {x : Option α} {a : α} {P : α → Prop} (h : x = some a) (hp : P a) : ∀ w, x = some w → P w := by
  intro w hw
  rw [h] at hw
  cases hw
  exact hp

theorem msg_body (k : BitVec 2) (b : Bytes) : (msg k b).body = b := rfl

theorem pdu_crc : leAt (pduOf 7) 20 4 = crc32c ((pduOf 7).take 20) := by
  have hl : (pduHead 7).length = 20 := by simp [pduHead]
  have h1 : (pduOf 7).take 20 = pduHead 7 := by rw [pduOf, ← hl, List.take_left']; rfl
  have h2 : slice (pduOf 7) 20 4 = toLE 4 (crc32c (pduHead 7)) := by
    rw [pduOf, ← hl]; exact slice_append_right _ _ _ (by simp)
  rw [leAt, h1, h2, leNat_toLE_of_lt]
  exact crc32c_lt _

theorem pdu_serial : leAt (pduOf 7) 16 4 = Config.serial.toNat % 2 ^ 32 := by
  have h : slice (pduOf 7) 16 4 = toLE 4 (Config.serial.toNat % 2 ^ 32) := rfl
  rw [leAt, h, leNat_toLE_of_lt]
  exact Nat.mod_lt _ (by decide)

theorem pdu_checked (eth : Bool) (cob : Nat) (h : eth = true ∨ cob = 0x123) : copyChecks (islS connOd id).od eth 1 cob (pduOf 7) = true := by
  unfold copyChecks
  simp only [pdu_crc, pdu_serial, Bool.and_eq_true, beq_self_eq_true, and_true]
  cases eth
  · obtain h | rfl := h
    · cases h
    · decide +kernel
  · simp only [if_true]
    decide +kernel

/-! ### Witnesses of the statements over a whole command, and of the statements over every command -/

theorem witness_nmt_commands_set_state : ∃ (s : State) (src : NmtSrc) (k : Fin 2) (node : BitVec 8), src = .bus k node ∧
    ∀ code ∈ [0x01, 0x02, 0x80, 0x81, 0x82], (code : Nat) < 256 ∧ s.dev.isOn .net = true ∧ canLine s.dev = true ∧ (node = 0 ∨ node.toNat = s.dev.com.nodeId) :=
  ⟨base, .bus 0 0x20, 0, 0x20, rfl, by decide +kernel⟩

theorem witness_nmt_commands_set_state_b : ∃ (s : State) (src : NmtSrc) (via : Via), src = .host via ∧
    ∀ code ∈ [0x01, 0x02, 0x80, 0x81, 0x82], accepted via 0x2002 3 [BitVec.ofNat 8 code] s = true :=
  ⟨base, .host udp0, udp0, rfl, by decide +kernel⟩

def sealable (d : Dev) : Dev := { d with sec := { d.sec with lifecycle := 1 }, nv := { d.nv with lockA := true } }

theorem witness_lifecycle_advances_1 : ∃ (via : Via) (s t : State) (n : Nat),
    writeSeen via 0x2300 2 (toLE 4 0x6B636F6C) s = some (n, t) ∧ writeCheck t (some n) 0x2300 2 (toLE 4 0x6B636F6C) = none ∧
    advanceRefusal false n t.dev = none :=
  ⟨can0, wHold id, wT can0 0x2300 2 (toLE 4 0x6B636F6C) (wHold id), 0, by rfl, by decide +kernel, by decide +kernel⟩

theorem witness_lifecycle_advances_2 : ∃ (via : Via) (s t : State) (n : Nat),
    writeSeen via 0x2300 2 (toLE 4 0x6C616573) s = some (n, t) ∧ writeCheck t (some n) 0x2300 2 (toLE 4 0x6C616573) = none ∧
    advanceRefusal true n t.dev = none :=
  ⟨can0, wHold sealable, wT can0 0x2300 2 (toLE 4 0x6C616573) (wHold sealable), 0, by rfl, by decide +kernel, by decide +kernel⟩

theorem witness_answers_complete_requests_1 : ∃ (m : CellMsg) (s : State) (f : Flight), slotOffered s.od s.dev m = some f ∧
    m.kind = 2 ∧ m.body.length = 3 ∧ answerFits (getCell s.dev (cellOf m)).txn 0x05 m = true :=
  ⟨msg 2 [0, 0, 0], cell2 (waiting 0x05), flight1, by decide +kernel, by decide +kernel, by decide +kernel, by decide +kernel⟩

theorem witness_answers_complete_requests_2 : ∃ (m : CellMsg) (s : State) (f : Flight), slotOffered s.od s.dev m = some f ∧
    m.kind = 2 ∧ m.body.length = 8 ∧ answerFits (getCell s.dev (cellOf m)).txn 0x06 m = true :=
  ⟨msg 2 (List.replicate 8 0), cell2 (waiting 0x06), flight1, by decide +kernel, by decide +kernel, by decide +kernel, by decide +kernel⟩

theorem witness_answers_complete_requests_3 : ∃ (m : CellMsg) (s : State) (f : Flight), slotOffered s.od s.dev m = some f ∧
    m.kind = 2 ∧ m.body.length = 4 + leAt m.body 2 1 ∧ m.body.length ≤ 48 ∧ answerFits (getCell s.dev (cellOf m)).txn 0x07 m = true :=
  ⟨msg 2 [0, 0, 0, 0], cell2 (waiting 0x07), flight1, by decide +kernel, by decide +kernel, by decide +kernel, by decide +kernel, by decide +kernel⟩

theorem witness_answers_complete_requests_4 : ∃ (m : CellMsg) (s : State) (f : Flight), slotOffered s.od s.dev m = some f ∧
    m.kind = 2 ∧ m.body.length = 1 ∧ answerFits (getCell s.dev (cellOf m)).txn 0x08 m = true :=
  ⟨msg 2 [0], cell2 (waiting 0x08), flight1, by decide +kernel, by decide +kernel, by decide +kernel, by decide +kernel⟩

theorem witness_step_runs_the_front_command_1 : ∃ (c : Instr) (rest : List Instr) (s : State), s.pending = c :: rest :=
  ⟨.periodStart, [.tapReset], { base with pending := [.periodStart, .tapReset] }, rfl⟩

theorem witness_step_runs_the_front_command_2 : ∃ s : State, s.pending = [] := ⟨base, rfl⟩

theorem witness_every_step_keeps_soundness : ∃ s t : State, s.Sound ∧ step s = .next t :=
  ⟨base, passTicks 1 base, ⟨by decide +kernel, by decide +kernel⟩, rfl⟩

theorem pair_of_fst {α β : Type} {x : α × β} {a : α} (h : x.1 = a) : x = (a, x.2) := by rw [← h]

theorem witness_named_rows_are_writes_1 : ∃ (c : Instr) (via : Via) (ix sub n : Nat) (b : Bytes) (s t u : State),
    namedWrite c = some (via, ix, sub, b) ∧ writeSeen via ix sub b s = some (n, t) ∧ (ix = 0x2100 → sub ≠ 3 ∧ s.dev.aon.waking = false ∧ s.dev.aon.lostNow = 0) ∧ writeObject (some n) ix sub b t = (none, u) :=
  ⟨.errantClear can0 3, can0, 0x3483, 1, 0, [0, 0], base, wT can0 0x3483 1 [0, 0] base, (writeObject (some 0) 0x3483 1 [0, 0] (wT can0 0x3483 1 [0, 0] base)).2,
    by rfl, by rfl, by decide +kernel, pair_of_fst (by decide +kernel)⟩

theorem witness_named_rows_are_writes_1b : ∃ (c : Instr) (via : Via) (ix sub n : Nat) (b : Bytes) (s t u : State),
    namedWrite c = some (via, ix, sub, b) ∧ writeSeen via ix sub b s = some (n, t) ∧ (ix = 0x2100 → sub ≠ 3 ∧ s.dev.aon.waking = false ∧ s.dev.aon.lostNow = 0) ∧ writeObject (some n) ix sub b t = (none, u) :=
  ⟨.domainStateWrite can0 5 0 {}, can0, 0x2100, 6, 0, [0], base, wT can0 0x2100 6 [0] base, (writeObject (some 0) 0x2100 6 [0] (wT can0 0x2100 6 [0] base)).2,
    by rfl, by rfl, by decide +kernel, pair_of_fst (by decide +kernel)⟩

theorem witness_named_rows_are_writes_2 : ∃ (c : Instr) (via : Via) (ix sub n : Nat) (b : Bytes) (s t : State) (a : Abort),
    namedWrite c = some (via, ix, sub, b) ∧ writeSeen via ix sub b s = some (n, t) ∧ (ix = 0x2100 → sub ≠ 3 ∧ s.dev.aon.waking = false ∧ s.dev.aon.lostNow = 0) ∧ writeCheck t (some n) ix sub b = some a :=
  ⟨.keyWrite can0 0 [1], can0, 0x2330, 2, 0, [1], base, wT can0 0x2330 2 [1] base, ((writeCheck (wT can0 0x2330 2 [1] base) (some 0) 0x2330 2 [1]).getD default),
    by rfl, by rfl, by decide +kernel, by decide +kernel⟩

theorem witness_writes_touch_their_units : ∃ (ix : Nat) (p : Part), touchedByWrite ix p = false := ⟨0x2800, .isl, by decide +kernel⟩

theorem witness_commands_touch_their_units : ∃ (c : Instr) (s t : State) (p : Part), exec c s = .next t ∧ touched c p = false :=
  ⟨.pciePerstNRelease, base, _, .isl, rfl, by decide +kernel⟩

theorem witness_pronghorn_forces_and_releases_5 : ∃ (via : Via) (g : Fin 10) (s t : State) (n : Nat),
    writeSeen via (0x4180 + g.val) 8 (toLE 4 0x65736C72) s = some (n, t) ∧ writeCheck t (some n) (0x4180 + g.val) 8 (toLE 4 0x65736C72) = none ∧
    (∃ i : Fin 56, t.dev.pwm.raised.testBit i.val = true ∧ (odU t.od (0x4100 + i.val) 1).testBit g.val = true ∧
      ∀ j < i.val, t.dev.pwm.raised.testBit j = true → (odU t.od (0x4100 + j) 1).testBit g.val = false) :=
  ⟨can0, 9, relS (objs [(0x4103, 1, [0, 2])]) 8 id, wT can0 0x4189 8 (toLE 4 0x65736C72) (relS (objs [(0x4103, 1, [0, 2])]) 8 id), 0, by rfl, by decide +kernel, 3, by decide +kernel, by decide +kernel, by decide +kernel⟩

theorem witness_pronghorn_forces_and_releases_5b : ∃ (via : Via) (g : Fin 10) (s t : State) (n : Nat),
    writeSeen via (0x4180 + g.val) 8 (toLE 4 0x65736C72) s = some (n, t) ∧ writeCheck t (some n) (0x4180 + g.val) 8 (toLE 4 0x65736C72) = none ∧
    (∀ i < 56, t.dev.pwm.raised.testBit i = true → (odU t.od (0x4100 + i) 1).testBit g.val = false) ∧ (deviceForcing t.dev).isSome = true :=
  ⟨udp0, 9, relS [] 0 (fun d => { d with rails := { d.rails with ok := vset d.rails.ok 5 false } }), wT udp0 0x4189 8 (toLE 4 0x65736C72) (relS [] 0 (fun d => { d with rails := { d.rails with ok := vset d.rails.ok 5 false } })), 12, by rfl, by decide +kernel, by decide +kernel, by decide +kernel⟩

theorem witness_pronghorn_forces_and_releases_5c : ∃ (via : Via) (g : Fin 10) (s t : State) (n : Nat),
    writeSeen via (0x4180 + g.val) 8 (toLE 4 0x65736C72) s = some (n, t) ∧ writeCheck t (some n) (0x4180 + g.val) 8 (toLE 4 0x65736C72) = none ∧
    (∀ i < 56, t.dev.pwm.raised.testBit i = true → (odU t.od (0x4100 + i) 1).testBit g.val = false) ∧ (deviceForcing t.dev).isSome = false ∧ (vget t.dev.pwm.groups g.val).forced = false :=
  ⟨can0, 9, relS [] 0 id, wT can0 0x4189 8 (toLE 4 0x65736C72) (relS [] 0 id), 0, by rfl, by decide +kernel, by decide +kernel, by decide +kernel, by decide +kernel⟩

theorem witness_pronghorn_forces_and_releases_5d : ∃ (via : Via) (g : Fin 10) (s t : State) (n : Nat),
    writeSeen via (0x4180 + g.val) 8 (toLE 4 0x65736C72) s = some (n, t) ∧ writeCheck t (some n) (0x4180 + g.val) 8 (toLE 4 0x65736C72) = none ∧
    (∀ i < 56, t.dev.pwm.raised.testBit i = true → (odU t.od (0x4100 + i) 1).testBit g.val = false) ∧ (deviceForcing t.dev).isSome = false ∧ (vget t.dev.pwm.groups g.val).forced = true ∧ t.dev.isOn .sec = true :=
  ⟨can0, 9, grpS [] (fun g => { g with forced := true }), wT can0 0x4189 8 (toLE 4 0x65736C72) (grpS [] (fun g => { g with forced := true })), 0, by rfl, by decide +kernel, by decide +kernel, by decide +kernel, by decide +kernel, by decide +kernel⟩

/-- Cells 16, 17 and 19 are active. -/
def withActive (d : Dev) : Dev := { d with stack := { d.stack with active := 0xB0000 } }

theorem witness_cells_are_bypassed_and_reinserted_4 : ∃ (via : Via) (c : BitVec 8) (s t : State) (n : Nat),
    writeSeen via 0x3308 0x0B [c] s = some (n, t) ∧ writeCheck t (some n) 0x3308 0x0B [c] = none ∧
    t.dev.stack.state ≠ .running :=
  ⟨can0, 18, stackS .stopped id, wT can0 0x3308 0x0B [18] (stackS .stopped id), 0, by rfl, by decide +kernel, by decide +kernel⟩

theorem witness_cells_are_bypassed_and_reinserted_4b : ∃ (via : Via) (c : BitVec 8) (s t : State) (n : Nat),
    writeSeen via 0x3308 0x0B [c] s = some (n, t) ∧ writeCheck t (some n) 0x3308 0x0B [c] = none ∧
    t.dev.stack.state = .running ∧ (getCell t.dev c.toNat).state ≠ .armed :=
  ⟨can0, 18, stackS .running (fun d => modCell 18 (fun x => { x with state := .run }) (withActive d)), wT can0 0x3308 0x0B [18] (stackS .running (fun d => modCell 18 (fun x => { x with state := .run }) (withActive d))), 0, by rfl, by decide +kernel, by decide +kernel, by decide +kernel⟩

theorem witness_cells_are_bypassed_and_reinserted_4c : ∃ (via : Via) (c : BitVec 8) (s t : State) (n : Nat),
    writeSeen via 0x3308 0x0B [c] s = some (n, t) ∧ writeCheck t (some n) 0x3308 0x0B [c] = none ∧
    t.dev.stack.state = .running ∧ (getCell t.dev c.toNat).state = .armed ∧ isActive t.dev c.toNat = true :=
  ⟨can0, 18, stackS .running id, wT can0 0x3308 0x0B [18] (stackS .running id), 0, by rfl, by decide +kernel, by decide +kernel, by decide +kernel, by decide +kernel⟩

theorem witness_cells_are_bypassed_and_reinserted_4d : ∃ (via : Via) (c : BitVec 8) (s t : State) (n : Nat),
    writeSeen via 0x3308 0x0B [c] s = some (n, t) ∧ writeCheck t (some n) 0x3308 0x0B [c] = none ∧
    t.dev.stack.state = .running ∧ (getCell t.dev c.toNat).state = .armed ∧ ¬ (stackOfCell t.od c.toNat = none ∨ isActive t.dev c.toNat = true ∨ ∃ r ∈ t.dev.stack.reinserting, r.cell = c.toNat) ∧ (getCell t.dev c.toNat).implausible = true :=
  ⟨can0, 18, stackS .running (fun d => modCell 18 (fun x => { x with implausible := true }) (withActive d)), wT can0 0x3308 0x0B [18] (stackS .running (fun d => modCell 18 (fun x => { x with implausible := true }) (withActive d))), 0, by rfl, by decide +kernel, by decide +kernel, by decide +kernel, by decide +kernel, by decide +kernel⟩

theorem witness_cells_are_bypassed_and_reinserted_4e : ∃ (via : Via) (c : BitVec 8) (s t : State) (n : Nat),
    writeSeen via 0x3308 0x0B [c] s = some (n, t) ∧ writeCheck t (some n) 0x3308 0x0B [c] = none ∧
    t.dev.stack.state = .running ∧ (getCell t.dev c.toNat).state = .armed ∧ ¬ (stackOfCell t.od c.toNat = none ∨ isActive t.dev c.toNat = true ∨ ∃ r ∈ t.dev.stack.reinserting, r.cell = c.toNat) ∧ (getCell t.dev c.toNat).implausible = false ∧ (getCell t.dev c.toNat).txn.errant = false ∧ (getCell t.dev c.toNat).faultBits ≠ 0 :=
  ⟨can0, 18, stackS .running (fun d => modCell 18 (fun x => { x with faultBits := 2 }) (withActive d)), wT can0 0x3308 0x0B [18] (stackS .running (fun d => modCell 18 (fun x => { x with faultBits := 2 }) (withActive d))), 0, by rfl, by decide +kernel, by decide +kernel, by decide +kernel, by decide +kernel, by decide +kernel, by decide +kernel, by decide +kernel⟩

theorem witness_cells_are_bypassed_and_reinserted_4f : ∃ (via : Via) (c : BitVec 8) (s t : State) (n : Nat),
    writeSeen via 0x3308 0x0B [c] s = some (n, t) ∧ writeCheck t (some n) 0x3308 0x0B [c] = none ∧
    t.dev.stack.state = .running ∧ (getCell t.dev c.toNat).state = .armed ∧ ¬ (stackOfCell t.od c.toNat = none ∨ isActive t.dev c.toNat = true ∨ ∃ r ∈ t.dev.stack.reinserting, r.cell = c.toNat) ∧ (getCell t.dev c.toNat).implausible = false ∧ (getCell t.dev c.toNat).txn.errant = false ∧ (getCell t.dev c.toNat).faultBits = 0 ∧ cellCap t.od c.toNat = 0 :=
  ⟨can0, 18, { stackS .running withActive with od := odSet stackOd 0x3210 1 (List.replicate 256 0) }, wT can0 0x3308 0x0B [18] ({ stackS .running withActive with od := odSet stackOd 0x3210 1 (List.replicate 256 0) }), 0, by rfl, by decide +kernel, by decide +kernel, by decide +kernel, by decide +kernel, by decide +kernel, by decide +kernel, by decide +kernel, by decide +kernel⟩

theorem witness_cells_are_bypassed_and_reinserted_4g : ∃ (via : Via) (c : BitVec 8) (s t : State) (n : Nat),
    writeSeen via 0x3308 0x0B [c] s = some (n, t) ∧ writeCheck t (some n) 0x3308 0x0B [c] = none ∧
    t.dev.stack.state = .running ∧ (getCell t.dev c.toNat).state = .armed ∧ ¬ (stackOfCell t.od c.toNat = none ∨ isActive t.dev c.toNat = true ∨ ∃ r ∈ t.dev.stack.reinserting, r.cell = c.toNat) ∧ (getCell t.dev c.toNat).implausible = false ∧ (getCell t.dev c.toNat).txn.errant = false ∧ (getCell t.dev c.toNat).faultBits = 0 ∧ cellCap t.od c.toNat ≠ 0 :=
  ⟨can0, 18, stackS .running withActive, wT can0 0x3308 0x0B [18] (stackS .running withActive), 0, by rfl, by decide +kernel, by decide +kernel, by decide +kernel, by decide +kernel, by decide +kernel, by decide +kernel, by decide +kernel, by decide +kernel⟩

theorem witness_engine_rounds_to_nearest_1 : ∃ (a : Int) (n : Nat), 0 < n ∧ a < 0 := ⟨-2500, 7, by decide, by decide⟩

/-! ### Commands that no carrier can hold, one for each check of `Instr.wf` -/

theorem test_wf_od_message : (Instr.odRead can0 { index := 0, sub := 0, plen := 0, payload := List.replicate 1453 0 }).wf = false := by decide +kernel
theorem test_wf_od_write : (Instr.odWrite can0 { index := 0, sub := 0, plen := 0, payload := List.replicate 1453 0 }).wf = false := by decide +kernel
theorem test_wf_sdo_expedited : (Instr.sdoDownload 0 0 (.expedited 0 0 (List.replicate 5 0))).wf = false := by decide +kernel
theorem test_wf_sdo_segment : (Instr.sdoDownload 0 0 (.segment false false (List.replicate 8 0))).wf = false := by decide +kernel
theorem test_wf_mailbox : (Instr.mailboxOwnerSet 0 0 (List.replicate 1045 0)).wf = false := by decide +kernel
theorem test_wf_rpdo_can : (Instr.rpdoReceived (.can 0 0) (List.replicate 65 0)).wf = false := by decide +kernel
theorem test_wf_key : (Instr.keyWrite can0 0 (List.replicate 1025 0)).wf = false := by decide +kernel
theorem test_wf_debug_response : (Instr.dbgResponseUpdate (List.replicate 15 0)).wf = false := by decide +kernel
theorem test_wf_comm_response : (Instr.commResponse can0 (List.replicate 16 0) (List.replicate 31 0)).wf = false := by decide +kernel
theorem test_wf_load_data : (Instr.loadData can0 (List.replicate 1025 0)).wf = false := by decide +kernel
theorem test_wf_timebase_window : (Instr.timebaseCheckWindow (2 ^ 32)).wf = false := by decide +kernel
theorem test_wf_icmp : (Instr.icmpEcho 0 0 0 (List.replicate 1481 0)).wf = false := by decide +kernel
theorem test_wf_cyclic_frame : (Instr.cyclicFrameReturn 0 0 (List.replicate 869 0) 0).wf = false := by decide +kernel
theorem test_wf_cell_message : (Instr.hello (msg 0 (List.replicate 49 0))).wf = false := by decide +kernel
theorem test_wf_adc_samples : (Instr.adcEntryResult 0 [2 ^ 15]).wf = false := by decide +kernel
theorem test_wf_adc_cal : (Instr.adcCalComplete [{ offsets := [0, 0, 0, 0], gains := [0, 0, 0, 0, 0] }]).wf = false := by decide +kernel
theorem test_wf_temperature : (Instr.temperatureCycle (List.replicate 11 0)).wf = false := by decide +kernel
theorem test_wf_descriptor : (Instr.descriptorFetchComplete 0 (List.replicate 31 0)).wf = false := by decide +kernel
theorem test_wf_safety_copy : (Instr.safetyCopyArrival true 0 0 [1, 2, 3] []).wf = false := by decide +kernel
theorem test_wf_speed_window : (Instr.speedWindowEnd 0 [(2 ^ 15, 0)]).wf = false := by decide +kernel
theorem test_wf_speed_window_good : (Instr.speedWindowEnd 0 [(2 ^ 15 - 1, -2 ^ 15)]).wf = true := by decide +kernel

/-! ### Values from the worked examples of the specification and from the standards it names -/

/-- The check values of CRC-32 and CRC-32C over the nine digits "123456789". -/
theorem test_crc_check_values : crc32 [0x31, 0x32, 0x33, 0x34, 0x35, 0x36, 0x37, 0x38, 0x39] = 0xCBF43926 ∧
    crc32c [0x31, 0x32, 0x33, 0x34, 0x35, 0x36, 0x37, 0x38, 0x39] = 0xE3069283 := by decide +kernel

/-- FIPS 180-4: the digest of "abc" begins BA7816BF and ends F20015AD. -/
theorem test_sha256_abc : (sha256 [0x61, 0x62, 0x63]).take 4 = [0xBA, 0x78, 0x16, 0xBF] ∧
    (sha256 [0x61, 0x62, 0x63]).drop 28 = [0xF2, 0x00, 0x15, 0xAD] := by decide +kernel

/-- Architecture: a frame of sixteen cells has 868 bytes. -/
theorem test_frame_of_sixteen_cells : cyclicLen 16 = 868 := by decide +kernel

/-- IEEE 802.3 Clause 36: /I/ at negative running disparity is K28.5 (0011111010) and D16.2 (1001000101); at positive, the complement of
K28.5 and D5.6 (1010010110); either leaves it negative. -/
theorem test_idle_sets : idleSet false = ([0b0011111010, 0b1001000101], false) ∧ idleSet true = ([0b1100000101, 0b1010010110], false) := by
  decide +kernel

/-- D.7 and D.x.7 alternate: D7.7 at negative disparity, then D17.7 at negative with its alternate code. -/
theorem test_data_groups : (dataGroups false [0xE7, 0xF1]).1 = [0b1110001110, 0b1000110001] := by decide +kernel

/-- R31: 0x2002:00 reads 4, 0x2611:00 reads 16, 0x3020:00 reads 7. -/
theorem test_highest_subindex : readValue base none 0x2002 0 = [4] ∧ readValue base none 0x2611 0 = [16] ∧ readValue base none 0x3020 0 = [7] := by
  decide +kernel

/-- The worked example of the object dictionary: LOOP_PERIOD of a running axis 0 is refused with 0x0800_0022 and detail 0x0003_4400. -/
theorem test_running_axis_refuses :
    writeCheck (at_ (fun d => { d with axes := vmod d.axes 0 (fun a => { a with state := .running }) })) (some 12) 0x4400 4 (toLE 4 50000)
      = some (0x08000022, 0x00034400) := by decide +kernel

/-- A period start before device time counts: no period begins, and nothing faults. -/
theorem test_reset_runs_a_period_start : ∃ t, exec .periodStart State.reset = .next t := ⟨_, rfl⟩

theorem witness_read_answers_value_1 : ∃ (via : Via) (m : OdMsg) (s t : State) (n : Nat),
    requestSeen false via 1 m s = some (n, t) ∧ (getSession t.dev n).owed = false ∧ (m.index, m.sub) ≠ (0x2320, 1) ∧ readCheck t (some n) m.index.toNat m.sub.toNat = none ∧ (readValue t (some n) m.index.toNat m.sub.toNat).length ≤ 1024 :=
  ⟨udp0, { index := 0x1018, sub := 1 }, base, seenT false udp0 1 { index := 0x1018, sub := 1 } base, 12,
    by rfl, by decide +kernel, by decide +kernel, by decide +kernel, by decide +kernel⟩

theorem witness_read_answers_value_2 : ∃ (c : Fin 2) (k : Fin 4) (index : BitVec 16) (sub : BitVec 8) (s : State),
    sdoServes s.dev c.val k.val = true ∧ (getSession (abandon (4 * c.val + k.val) (sdoTouch (4 * c.val + k.val) s)).dev (4 * c.val + k.val)).owed = false ∧ (index, sub) ≠ (0x2320, 1) ∧ readCheck (abandon (4 * c.val + k.val) (sdoTouch (4 * c.val + k.val) s)) (some (4 * c.val + k.val)) index.toNat sub.toNat = none ∧ (readValue (abandon (4 * c.val + k.val) (sdoTouch (4 * c.val + k.val) s)) (some (4 * c.val + k.val)) index.toNat sub.toNat).length ≤ 4 :=
  ⟨1, 2, 0x1018, 1, base,
    by decide +kernel, by decide +kernel, by decide +kernel, by decide +kernel, by decide +kernel⟩

theorem witness_read_answers_value_3 : ∃ (c : Fin 2) (k : Fin 4) (toggle : Bool) (s : State) (x : Transfer),
    sdoServes s.dev c.val k.val = true ∧ (getSession s.dev (4 * c.val + k.val)).owed = false ∧ (getSession s.dev (4 * c.val + k.val)).transfer = some x ∧ x.write = false ∧ x.toggle = toggle :=
  ⟨1, 2, true, upState, { write := false, ix := 0x2300, sub := 4, total := 16, data := List.replicate 16 7, pos := 14, toggle := true, last := 0 },
    by decide +kernel, by decide +kernel, by decide +kernel, by decide +kernel, by decide +kernel⟩

theorem witness_write_takes_effect_1 : ∃ (via : Via) (m : OdMsg) (s t : State) (n : Nat),
    requestSeen false via 2 m s = some (n, t) ∧ m.total.toNat = m.payload.length ∧ 0x3400 ≤ m.index.toNat ∧ m.index.toNat < 0x3480 ∧ writeCheck t (some n) m.index.toNat m.sub.toNat m.payload = none :=
  ⟨udp0, lclMsg, base, seenT false udp0 2 lclMsg base, 12,
    by rfl, by decide +kernel, by decide +kernel, by decide +kernel, by decide +kernel⟩

theorem witness_write_takes_effect_2 : ∃ (c : Fin 2) (k : Fin 4) (index : BitVec 16) (sub : BitVec 8) (b : Bytes) (s : State),
    sdoServes s.dev c.val k.val = true ∧ 0x3400 ≤ index.toNat ∧ index.toNat < 0x3480 ∧ writeCheck (abandon (4 * c.val + k.val) (sdoTouch (4 * c.val + k.val) s)) (some (4 * c.val + k.val)) index.toNat sub.toNat b = none :=
  ⟨1, 2, 0x3400, 8, [0, 1], base,
    by decide +kernel, by decide +kernel, by decide +kernel, by decide +kernel⟩

theorem witness_write_takes_effect_3 : ∃ (c : Fin 2) (k : Fin 4) (index : BitVec 16) (sub : BitVec 8) (total : BitVec 32) (s : State),
    sdoServes s.dev c.val k.val = true ∧ total.toNat ≤ 65536 ∧ transfersOpen (abandon (4 * c.val + k.val) (sdoTouch (4 * c.val + k.val) s)).dev < 8 :=
  ⟨1, 2, 0x3400, 8, 65536, base,
    by decide +kernel, by decide +kernel, by decide +kernel⟩

theorem witness_write_takes_effect_4 : ∃ (c : Fin 2) (k : Fin 4) (toggle : Bool) (b : Bytes) (s : State) (x : Transfer),
    sdoServes s.dev c.val k.val = true ∧ (getSession s.dev (4 * c.val + k.val)).transfer = some x ∧ x.write = true ∧ x.toggle = toggle ∧ b.length ≤ 7 ∧ (x.data ++ b).length ≤ x.total :=
  ⟨1, 2, true, [3], downState, { write := true, ix := 0x1017, sub := 0, total := 2, data := [0xE8], pos := 1, toggle := true, last := 0 },
    by decide +kernel, by decide +kernel, by decide +kernel, by decide +kernel, by decide +kernel, by decide +kernel⟩

theorem witness_write_takes_effect_5 : ∃ (via : Via) (m : OdMsg) (s t u : State) (n : Nat),
    requestSeen false via 2 m s = some (n, t) ∧ m.total.toNat = m.payload.length ∧ m.index ≠ 0x2202 ∧ (m.index, m.sub) ≠ (0x2100, 3) ∧ writeObject (some n) m.index.toNat m.sub.toNat m.payload t = (none, u) :=
  ⟨udp0, hbMsg, base, seenT false udp0 2 hbMsg base, (writeObject (some 12) 0x1017 0 [0xE8, 3] (seenT false udp0 2 hbMsg base)).2, 12,
    by rfl, by decide +kernel, by decide +kernel, by decide +kernel, Prod.ext (by decide +kernel) rfl⟩

theorem witness_write_takes_effect_6 : ∃ (c : Fin 2) (k : Fin 4) (index : BitVec 16) (sub : BitVec 8) (b : Bytes) (s u : State),
    sdoServes s.dev c.val k.val = true ∧ index ≠ 0x2202 ∧ (index, sub) ≠ (0x2100, 3) ∧ writeObject (some (4 * c.val + k.val)) index.toNat sub.toNat b (abandon (4 * c.val + k.val) (sdoTouch (4 * c.val + k.val) s)) = (none, u) :=
  ⟨1, 2, 0x1017, 0, [0xE8, 3], base, (writeObject (some 6) 0x1017 0 [0xE8, 3] (abandon 6 (sdoTouch 6 base))).2,
    by decide +kernel, by decide +kernel, by decide +kernel, Prod.ext (by decide +kernel) rfl⟩

theorem witness_write_takes_effect_7 : ∃ (c : Fin 2) (k : Fin 4) (toggle : Bool) (b : Bytes) (s u : State) (x : Transfer),
    sdoServes s.dev c.val k.val = true ∧ x.ix ≠ 0x2202 ∧ (x.ix, x.sub) ≠ (0x2100, 3) ∧ (getSession s.dev (4 * c.val + k.val)).transfer = some x ∧ x.write = true ∧ x.toggle = toggle ∧ b.length ≤ 7 ∧ (x.data ++ b).length = x.total ∧ writeObject (some (4 * c.val + k.val)) x.ix x.sub (x.data ++ b) (setTransfer (4 * c.val + k.val) none (sdoTouch (4 * c.val + k.val) s)) = (none, u) :=
  ⟨1, 2, true, [3], downState, (writeObject (some 6) 0x1017 0 [0xE8, 3] (setTransfer 6 none (sdoTouch 6 downState))).2, { write := true, ix := 0x1017, sub := 0, total := 2, data := [0xE8], pos := 1, toggle := true, last := 0 },
    by decide +kernel, by decide +kernel, by decide +kernel, by decide +kernel, by decide +kernel, by decide +kernel, by decide +kernel, by decide +kernel, Prod.ext (by decide +kernel) rfl⟩

theorem witness_sessions_live_and_end_1 : ∃ (via : Via) (s t : State) (n : Nat),
    requestSeen false via 3 (serviceMsg []) s = some (n, t) ∧ (getSession t.dev n).owed = false ∧ (∀ c k, via ≠ .can c k) :=
  ⟨udp0, base, seenT false udp0 3 (serviceMsg []) base, 12,
    by rfl, by decide +kernel, by decide +kernel⟩

theorem witness_sessions_live_and_end_2 : ∃ (mac : Fin 2) (ip : BitVec 32) (port seq : BitVec 16) (s t : State) (n : Nat),
    requestSeen false (.udp mac ip port seq) 4 (serviceMsg []) s = some (n, t) ∧ (getSession t.dev n).owed = false :=
  ⟨0, 0x0A000002, 5000, 1, base, seenT false udp0 4 (serviceMsg []) base, 12,
    by rfl, by decide +kernel⟩

theorem witness_sessions_live_and_end_3 : ∃ (slot : Fin 4) (s t : State) (n : Nat),
    requestSeen false (.mailbox slot) 4 (serviceMsg []) s = some (n, t) ∧ (getSession t.dev n).owed = false :=
  ⟨2, at_ holds10, seenT false (.mailbox 2) 4 (serviceMsg []) (at_ holds10), 10,
    by rfl, by decide +kernel⟩

theorem witness_sessions_live_and_end_4 : ∃ (n : Fin 64) (s : State),
    (getSession s.dev n.val).kind = .udp :=
  ⟨12, udpState,
    by decide +kernel⟩

theorem witness_sessions_live_and_end_5 : ∃ (n : Fin 64) (s : State),
    (getSession s.dev n.val).transfer.isSome = true :=
  ⟨6, upState,
    by decide +kernel⟩

theorem witness_sessions_live_and_end_6 : ∃ (slot : Fin 4) (s : State) (message : Bytes),
    s.dev.isOn .net = true ∧ (getSession s.dev (8 + slot.val)).kind = .mailbox ∧ (vget s.dev.com.slots slot.val).owner = false ∧ (getSession s.dev (8 + slot.val)).owed = false ∧ message = messageBytes 3 0 0 0 0 0 0 [] :=
  ⟨2, base, messageBytes 3 0 0 0 0 0 0 [],
    by decide +kernel, by decide +kernel, by decide +kernel, by decide +kernel, by decide +kernel⟩

theorem witness_rpdos_take_frames_and_time_out_1 : ∃ (src : PdoSrc) (data b : Bytes) (s : State) (n : Nat),
    n < 32 ∧ pdoRuns s.dev = true ∧ pdoHeard src s.dev = true ∧ pdoTargets s.od src data = ([n], b) ∧ 1 ≤ transmissionType s.od (0x1400 + n) ∧ transmissionType s.od (0x1400 + n) ≤ 240 :=
  ⟨.can 0 0x210, [1, 0], [1, 0], pdoState 240, 3,
    by decide +kernel, by decide +kernel, by decide +kernel, by decide +kernel, by decide +kernel, by decide +kernel⟩

theorem witness_rpdos_take_frames_and_time_out_1b : ∃ (src : PdoSrc) (data b : Bytes) (s : State) (n : Nat),
    n < 32 ∧ pdoRuns s.dev = true ∧ pdoHeard src s.dev = true ∧ pdoTargets s.od src data = ([n], b) ∧ 1 ≤ transmissionType s.od (0x1400 + n) ∧ transmissionType s.od (0x1400 + n) ≤ 240 :=
  ⟨.can 0 0x210, [1, 0], [1, 0], pdoState 1, 3,
    by decide +kernel, by decide +kernel, by decide +kernel, by decide +kernel, by decide +kernel, by decide +kernel⟩

theorem witness_rpdos_take_frames_and_time_out_2 : ∃ (src : PdoSrc) (data b : Bytes) (s r : State) (n : Nat),
    n < 32 ∧ pdoRuns s.dev = true ∧ pdoHeard src s.dev = true ∧ pdoTargets s.od src data = ([n], b) ∧ 240 < transmissionType s.od (0x1400 + n) ∧ writeMapped (mapped s.od (0x1600 + n)) b (devTo (fun d => { netBusy d with com := { d.com with rpdos := vmod d.com.rpdos n (fun x => { x with lastReceived := d.clk.run }) } }) s) = some r :=
  ⟨.can 0 0x210, [1, 0], [1, 0], pdoState 0xFE, (writeMapped (mapped (pdoState 0xFE).od 0x1603) [1, 0] wrState).getD wrState, 3,
    by decide +kernel, by decide +kernel, by decide +kernel, by decide +kernel, by decide +kernel, by decide +kernel⟩

theorem witness_rpdos_take_frames_and_time_out_3 : ∃ (n : Fin 32) (s : State),
    pdoRuns s.dev = true ∧ pdoValid s.od (0x1400 + n.val) = true ∧ odU s.od (0x1400 + n.val) 5 ≠ 0 :=
  ⟨3, pdoState 0xFE,
    by decide +kernel, by decide +kernel, by decide +kernel⟩

theorem witness_device_sends_on_can_1 : ∃ (n : Fin 32) (s : State),
    tpdoOf n.val 0xFE s = true ∧ tpdoData n.val (s.upTo (tpdoDue n.val 0xFE (usT (100 * odU s.od (0x1800 + n.val) 3)) )) ≠ (vget s.dev.com.tpdos n.val).lastData :=
  ⟨3, pdoState 0xFE,
    by decide +kernel, by decide +kernel⟩

theorem witness_device_sends_on_can_2 : ∃ (n : Fin 32) (s : State),
    tpdoOf n.val 0xFF s = true ∧ odU s.od (0x1800 + n.val) 5 ≠ 0 :=
  ⟨3, pdoState 0xFF,
    by decide +kernel, by decide +kernel⟩

theorem witness_device_sends_on_can_3 : ∃ (s : State),
    s.dev.isOn .net = true ∧ canLine s.dev = true ∧ odU s.od 0x1017 0 ≠ 0 :=
  ⟨pdoState 0xFF,
    by decide +kernel, by decide +kernel, by decide +kernel⟩

theorem witness_device_sends_on_can_4 : ∃ (s : State) (r : Record) (rest : List Record),
    s.dev.isOn .net = true ∧ canLine s.dev = true ∧ s.dev.com.nmt ≠ .stopped ∧ s.dev.seqr.emcy = r :: rest :=
  ⟨at_ (fun d => { d with seqr := { d.seqr with emcy := [rec1] } }), rec1, [],
    by decide +kernel, by decide +kernel, by decide +kernel, by decide +kernel⟩

theorem witness_stores_begin_and_complete_1 : ∃ (via : Via) (g : Fin 4) (s : State),
    accepted via 0x1010 (g.val + 1) (toLE 4 0x65766173) s = true :=
  ⟨can0, 0, base,
    by decide +kernel⟩

theorem witness_stores_begin_and_complete_2 : ∃ (via : Via) (g : Fin 4) (s : State),
    accepted via 0x1011 (g.val + 1) (toLE 4 0x64616F6C) s = true :=
  ⟨udp0, 1, base,
    by decide +kernel⟩

theorem witness_stores_begin_and_complete_3 : ∃ (ok : Bool) (s : State) (op : StoreOp),
    s.dev.com.store = some op ∧ op.bank < 2 :=
  ⟨true, storing, { bank := 1, counter := 3, contents := [(0x10170000 / 65536 * 256, [1, 0])], session := 0, ix := 0x1010, sub := 1 },
    by decide +kernel, by decide +kernel⟩

theorem witness_stores_begin_and_complete_3b : ∃ (ok : Bool) (s : State) (op : StoreOp),
    s.dev.com.store = some op ∧ op.bank < 2 :=
  ⟨false, storing, { bank := 1, counter := 3, contents := [(0x10170000 / 65536 * 256, [1, 0])], session := 0, ix := 0x1010, sub := 1 },
    by decide +kernel, by decide +kernel⟩

theorem witness_sequencer_and_credit_act_1 : ∃ (s : State) (e : Event) (rest : List Event),
    s.dev.isOn .sec = true ∧ s.dev.clk.counting = true ∧ s.dev.seqr.held = e :: rest :=
  ⟨evState, ev1, [],
    by decide +kernel, by decide +kernel, by decide +kernel⟩

theorem witness_sequencer_and_credit_act_2 : ∃ (c : Fin 128) (s : State),
    s.dev.isOn .link = true ∧ (getCell s.dev c.val).txn.isOpen = true :=
  ⟨5, openCell,
    by decide +kernel, by decide +kernel⟩

theorem witness_ledger_keeps_its_accounts_1 : ∃ (i : Fin 133) (s : State) (start cause len secs : Nat),
    s.dev.isOn .ctrl = true ∧ (vget s.dev.ledger.accounts i.val).gap = some (start, cause, len, secs) ∧ secT (secs + 1) ≤ len :=
  ⟨128, gapState, 7, 1, secT 3, 2,
    by decide +kernel, by decide +kernel, by decide +kernel⟩

theorem witness_ledger_keeps_its_accounts_2 : ∃ (s : State),
    s.dev.isOn .ctrl = true ∧ s.dev.clk.counting = true ∧ s.dev.ledger.resume = .no ∧ s.dev.ledger.writing = none :=
  ⟨noResume,
    by decide +kernel, by decide +kernel, by decide +kernel, by decide +kernel⟩

theorem witness_ledger_keeps_its_accounts_3 : ∃ (via : Via) (s : State),
    accepted via 0x2540 2 [1] s = true ∧ s.dev.ledger.resume = .no :=
  ⟨can0, noResume,
    by decide +kernel, by decide +kernel⟩

theorem witness_ledger_keeps_its_accounts_4 : ∃ (s : State) (c : Checkpoint) (slot : Nat),
    s.dev.ledger.writing = some (c, slot) ∧ slot < 16 :=
  ⟨ckpt, { counter := 2, valid := true, periodEnd := 9 }, 15,
    by decide +kernel, by decide +kernel⟩

theorem witness_ledger_keeps_its_accounts_5 : ∃ (via : Via) (sel : BitVec 16) (s : State) (i : Nat),
    accepted via 0x2541 3 (toLE 2 sel.toNat) s = true ∧ accountIx sel.toNat = some i :=
  ⟨can0, 0x100, gapHeld, 128,
    by decide +kernel, by decide +kernel⟩

theorem witness_rails_come_and_go_1 : ∃ (s : State),
    vget s.dev.rails.ok 0 = false :=
  ⟨at_ (fun d => { d with rails := {} }),
    by decide +kernel⟩

theorem witness_rails_come_and_go_2 : ∃ (r : Fin 9) (y : AonCycle) (s : State),
    y.asks = [] ∧ y.step = false ∧ y.idle = [] :=
  ⟨1, { lost := [2, 8] }, base,
    by decide +kernel, by decide +kernel, by decide +kernel⟩

theorem witness_rails_come_and_go_2b : ∃ (r : Fin 9) (y : AonCycle) (s : State),
    y.asks = [] ∧ y.step = false ∧ y.idle = [] :=
  ⟨0, {}, base,
    by decide +kernel, by decide +kernel, by decide +kernel⟩

theorem witness_rails_come_and_go_3c : ∃ (m : Domain) (r : Fin 9) (s : State),
    s.dev.isOn m = true ∧ r.val ≠ 0 ∧ vget s.dev.rails.ok r.val = true ∧ m ∈ railDomains r.val :=
  ⟨.safe, 7, base,
    by decide +kernel, by decide +kernel, by decide +kernel, by decide +kernel⟩

theorem witness_rails_come_and_go_3b : ∃ (m : Domain) (r : Fin 9) (s : State),
    s.dev.isOn m = true ∧ r.val ≠ 0 ∧ vget s.dev.rails.ok r.val = true ∧ m ∈ railDomains r.val :=
  ⟨.link, 3, base,
    by decide +kernel, by decide +kernel, by decide +kernel, by decide +kernel⟩

theorem witness_rails_come_and_go_3 : ∃ (m : Domain) (r : Fin 9) (s : State),
    s.dev.isOn m = true ∧ r.val ≠ 0 ∧ vget s.dev.rails.ok r.val = true ∧ m ∈ railDomains r.val :=
  ⟨.drv, 1, base,
    by decide +kernel, by decide +kernel, by decide +kernel, by decide +kernel⟩

theorem witness_rails_come_and_go_4 : ∃ (r : Fin 9) (s : State),
    r.val ≠ 0 ∧ vget s.dev.rails.ok 0 = true ∧ vget s.dev.rails.ok r.val = false :=
  ⟨8, railOff 8,
    by decide +kernel, by decide +kernel, by decide +kernel⟩

theorem witness_rails_come_and_go_5 : ∃ (r f : Fin 9) (s : State),
    mustFollow r.val f.val = true ∧ vget s.dev.rails.ok f.val = false ∧ aonRecords s.dev = true :=
  ⟨3, 7, railOff 7,
    by decide +kernel, by decide +kernel, by decide +kernel⟩

theorem witness_rails_come_and_go_5c : ∃ (r f : Fin 9) (s : State),
    mustFollow r.val f.val = true ∧ vget s.dev.rails.ok f.val = false ∧ aonRecords s.dev = true :=
  ⟨8, 5, railOff 5,
    by decide +kernel, by decide +kernel, by decide +kernel⟩

theorem witness_rails_come_and_go_5b : ∃ (r f : Fin 9) (s : State),
    mustFollow r.val f.val = true ∧ vget s.dev.rails.ok f.val = false ∧ aonRecords s.dev = true :=
  ⟨1, 2, railOff 2,
    by decide +kernel, by decide +kernel, by decide +kernel⟩

theorem witness_rails_come_and_go_6 : ∃ (tauTb tauCas : BitVec 32) (s : State),
    s.dev.isOn .meas = true ∧ s.dev.time.tb.checked = false :=
  ⟨2999, 7000, base,
    by decide +kernel, by decide +kernel⟩

theorem witness_reset_pins_act_1 : ∃ (s : State),
    vget s.dev.rails.ok 0 = true ∧ s.dev.aon.reset.porst = false ∧ s.dev.aon.reset.scope = .none :=
  ⟨base,
    by decide +kernel, by decide +kernel, by decide +kernel⟩

theorem witness_reset_pins_act_2 : ∃ (s : State),
    vget s.dev.rails.ok 0 = true ∧ s.dev.aon.reset.porst = true ∧ s.dev.aon.reset.scope ≠ .none ∧ s.dev.aon.reset.byPin = false ∧ s.dev.aon.reset.pinless = none :=
  ⟨rst (fun r => { r with scope := .whole, porst := true }),
    by decide +kernel, by decide +kernel, by decide +kernel, by decide +kernel, by decide +kernel⟩

theorem witness_reset_pins_act_3 : ∃ (s : State),
    vget s.dev.rails.ok 0 = true ∧ s.dev.aon.reset.porst = false ∧ s.dev.aon.reset.resetN = false ∧ s.dev.aon.reset.masked = false ∧ s.dev.aon.reset.scope = .none :=
  ⟨base,
    by decide +kernel, by decide +kernel, by decide +kernel, by decide +kernel, by decide +kernel⟩

theorem witness_reset_pins_act_4 : ∃ (s : State),
    vget s.dev.rails.ok 0 = true ∧ s.dev.aon.reset.porst = false ∧ s.dev.aon.reset.resetN = true :=
  ⟨rst (fun r => { r with resetN := true, byPin := true, scope := .warm }),
    by decide +kernel, by decide +kernel, by decide +kernel⟩

theorem witness_reset_pins_act_5 : ∃ (s : State),
    vget s.dev.rails.ok 0 = true ∧ s.dev.aon.reset.porst = false ∧ s.dev.aon.reset.resetN = true :=
  ⟨rst (fun r => { r with resetN := true, byPin := true, scope := .warm }),
    by decide +kernel, by decide +kernel, by decide +kernel⟩

theorem witness_reset_pins_act_6 : ∃ (s : State),
    s.dev.aon.reset.resetN = true ∧ s.dev.aon.reset.byPin = true ∧ s.dev.aon.reset.porst = false ∧ s.dev.aon.reset.limitDone = false :=
  ⟨rst (fun r => { r with resetN := true, byPin := true, scope := .warm }),
    by decide +kernel, by decide +kernel, by decide +kernel, by decide +kernel⟩

theorem witness_reset_pins_act_7 : ∃ (s : State),
    s.dev.aon.reset.masked = true ∧ s.dev.aon.reset.resetN = false ∧ s.dev.aon.reset.porst = false :=
  ⟨rst (fun r => { r with masked := true }),
    by decide +kernel, by decide +kernel, by decide +kernel⟩

theorem witness_reset_pins_act_8 : ∃ (s : State) (p : Pin),
    s.dev.aon.reset.scope ≠ .none ∧ vget s.dev.rails.ok 0 = true ∧ vget s.dev.rails.ok p.rail = true :=
  ⟨rst (fun r => { r with scope := .warm }), .pwm 27,
    by decide +kernel, by decide +kernel, by decide +kernel⟩

theorem witness_pinless_resets_act_1 : ∃ (core : Fin 4) (s : State),
    s.dev.isOn (domainOfCore core.val) = true ∧ s.dev.aon.reset.scope = .none :=
  ⟨3, base,
    by decide +kernel, by decide +kernel⟩

theorem witness_pinless_resets_act_2 : ∃ (via : Via) (s : State),
    accepted via 0x2202 1 (toLE 4 0x74657372) s = true ∧ s.dev.aon.reset.scope = .none :=
  ⟨can0, base,
    by decide +kernel, by decide +kernel⟩

theorem witness_pinless_resets_act_3 : ∃ (s : State),
    s.dev.isOn .sec = true ∧ s.dev.sec.debug = .attached ∧ s.dev.sec.lifecycle ≠ 2 ∧ s.dev.aon.reset.scope = .none :=
  ⟨at_ (fun d => { d with sec := { d.sec with debug := .attached } }),
    by decide +kernel, by decide +kernel, by decide +kernel, by decide +kernel⟩

theorem witness_pinless_resets_act_4 : ∃ (s : State) (t : Nat),
    s.dev.aon.reset.pinless = some t ∧ vget s.dev.rails.ok 1 = true ∧ vget s.dev.rails.ok 2 = true :=
  ⟨rst (fun r => { r with pinless := some 100, scope := .warm }), 100,
    by decide +kernel, by decide +kernel, by decide +kernel⟩

theorem witness_boot_sequence_acts_1 : ∃ (s : State) (q : SeqCtl) (m : Domain) (todo : List Domain),
    s.dev.aon.seq = some q ∧ q.current = none ∧ (q.waitRails = true → switchedReady s.dev = true) ∧ s.dev.aon.reset.scope = .none ∧ seqPick s.dev (takeBootDomains s.od q).todo = (.request m, todo) :=
  ⟨booting q1 (domTo .net {}), q1, .net, [.drv],
    by decide +kernel, by decide +kernel, by decide +kernel, by decide +kernel, by decide +kernel⟩

theorem witness_boot_sequence_acts_1b : ∃ (s : State) (q : SeqCtl) (m : Domain) (todo : List Domain),
    s.dev.aon.seq = some q ∧ q.current = none ∧ (q.waitRails = true → switchedReady s.dev = true) ∧ s.dev.aon.reset.scope = .none ∧ seqPick s.dev (takeBootDomains s.od q).todo = (.request m, todo) :=
  ⟨{ booting { q1 with todo := [], taken := false, waitRails := true } (domTo .net {}) with od := objs [(0x2201, 1, [4])] }, { q1 with todo := [], taken := false, waitRails := true }, .net, [],
    by decide +kernel, by decide +kernel, by decide +kernel, by decide +kernel, by decide +kernel⟩

theorem witness_boot_sequence_acts_2 : ∃ (s : State) (q : SeqCtl) (m : Domain),
    s.dev.aon.seq = some q ∧ q.current = some m ∧ s.dev.isOn m = false :=
  ⟨booting { q1 with current := some .link } (domTo .link { state := .transition, target := .on }), { q1 with current := some .link }, .link,
    by decide +kernel, by decide +kernel, by decide +kernel⟩

theorem witness_boot_sequence_acts_3 : ∃ (s : State) (q : SeqCtl),
    s.dev.aon.seq = some q ∧ s.dev.isOn .meas = true ∧ s.dev.time.tb.declared = false ∧ q.todo.any (fun m => m == .ctrl || m == .link || m == .drv) = true :=
  ⟨booting q1 id, q1,
    by decide +kernel, by decide +kernel, by decide +kernel, by decide +kernel⟩

theorem witness_boot_sequence_acts_4 : ∃ (s : State),
    s.dev.aon.bootOpen = true ∧ (getDom s.dev .meas).cause = 5 ∧ s.dev.isOn .meas = true ∧ s.dev.time.tb.declared = false :=
  ⟨at_ (fun d => domTo .meas { state := .on, cause := 5 } { d with aon := { d.aon with bootOpen := true } }),
    by decide +kernel, by decide +kernel, by decide +kernel, by decide +kernel⟩

theorem witness_boot_sequence_acts_5 : ∃ (via : Via) (s : State),
    accepted via 0x2210 3 (toLE 4 0x6E6F6366) s = true ∧ trialRunning s.dev = true :=
  ⟨can0, at_ (fun d => { d with nv := { d.nv with boots := Vector.replicate 2 { valid := true, trial := true } }, sec := { d.sec with running := some 0 } }),
    by decide +kernel, by decide +kernel⟩

theorem witness_domains_change_state_1 : ∃ (via : Via) (k : Fin 8) (code : BitVec 8) (s : State) (target : DomState),
    accepted via 0x2100 (k.val + 1) [code] s = true ∧ DomState.ofCode code.toNat = some target ∧ (getDom s.dev (Domain.ofNum k.val)).state ≠ target :=
  ⟨can0, 5, 0, base, .off,
    by decide +kernel, by decide +kernel, by decide +kernel⟩

theorem witness_domains_change_state_1b : ∃ (via : Via) (k : Fin 8) (code : BitVec 8) (s : State) (target : DomState),
    accepted via 0x2100 (k.val + 1) [code] s = true ∧ DomState.ofCode code.toNat = some target ∧ (getDom s.dev (Domain.ofNum k.val)).state ≠ target :=
  ⟨can0, 5, 2, at_ (domTo .drv {}), .on,
    by decide +kernel, by decide +kernel, by decide +kernel⟩

theorem witness_domains_change_state_2 : ∃ (via : Via) (k : Fin 8) (code : BitVec 8) (seen : WakeSeen) (s : State),
    wakeSources s.od (wakeSees s.od seen s.dev).1 (wakeSees s.od seen s.dev).2 ≠ [] ∧ s.dev.aon.reset.scope = .none ∧ vget s.dev.rails.ok 0 = true ∧ s.dev.isOn (Domain.ofNum k.val) = true :=
  ⟨can0, 5, 0, seen1, wakeS 1,
    by decide +kernel, by decide +kernel, by decide +kernel, by decide +kernel⟩

theorem witness_domains_change_state_3 : ∃ (via : Via) (v : BitVec 16) (s : State),
    accepted via 0x2101 1 (toLE 2 v.toNat) s = true :=
  ⟨can0, 0x0024, base,
    by decide +kernel⟩

theorem witness_domains_change_state_4 : ∃ (s : State) (g : GroupCtl) (m : Domain) (rest : List Domain),
    s.dev.aon.group = some g ∧ g.current = none ∧ g.todo = m :: rest ∧ (getDom s.dev m).state = .on ∧ stateRefusal s.od s.dev m (if g.retention then .retention else .off) = none :=
  ⟨at_ (fun d => { d with aon := { d.aon with group := some { retention := true, mask := 0x24, todo := [.drv, .net] } } }), { retention := true, mask := 0x24, todo := [.drv, .net] }, .drv, [.net],
    by decide +kernel, by decide +kernel, by decide +kernel, by decide +kernel, by decide +kernel⟩

theorem witness_domains_change_state_5 : ∃ (k : Fin 8) (s : State),
    (Domain.ofNum k.val) ≠ .aon ∧ (Domain.ofNum k.val) ≠ .safe ∧ odU s.od (0x2110 + (Domain.ofNum k.val).num) 1 ≠ 0 ∧ (getDom s.dev (Domain.ofNum k.val)).idle.isSome = true ∧ idleHolds s.od (s.upTo (idleDue (Domain.ofNum k.val))).dev (Domain.ofNum k.val) = true ∧ idleHolds s.od s.dev (Domain.ofNum k.val) = true ∧ (getDom s.dev (Domain.ofNum k.val)).state = .on ∧ leaveBusy s.dev = false ∧ s.dev.sec.hold = false ∧ stateRefusal (s.upTo (idleDue (Domain.ofNum k.val))).od (s.upTo (idleDue (Domain.ofNum k.val))).dev (Domain.ofNum k.val) (if odU s.od (0x2110 + (Domain.ofNum k.val).num) 1 = 1 then .retention else .off) = none :=
  ⟨5, { at_ (domTo .drv { state := .on, idle := some 0 }) with od := objs [(0x2115, 1, [1]), (0x2115, 2, [10, 0, 0, 0])] },
    by decide +kernel, by decide +kernel, by decide +kernel, by decide +kernel, by decide +kernel, by decide +kernel, by decide +kernel, by decide +kernel, by decide +kernel, by decide +kernel⟩

theorem witness_domains_change_state_5b : ∃ (k : Fin 8) (s : State),
    (Domain.ofNum k.val) ≠ .aon ∧ (Domain.ofNum k.val) ≠ .safe ∧ odU s.od (0x2110 + (Domain.ofNum k.val).num) 1 ≠ 0 ∧ (getDom s.dev (Domain.ofNum k.val)).idle.isSome = true ∧ idleHolds s.od (s.upTo (idleDue (Domain.ofNum k.val))).dev (Domain.ofNum k.val) = true ∧ idleHolds s.od s.dev (Domain.ofNum k.val) = true ∧ (getDom s.dev (Domain.ofNum k.val)).state = .on ∧ leaveBusy s.dev = false ∧ s.dev.sec.hold = false ∧ stateRefusal (s.upTo (idleDue (Domain.ofNum k.val))).od (s.upTo (idleDue (Domain.ofNum k.val))).dev (Domain.ofNum k.val) (if odU s.od (0x2110 + (Domain.ofNum k.val).num) 1 = 1 then .retention else .off) = none :=
  ⟨5, { at_ (domTo .drv { state := .on, idle := some 0 }) with od := objs [(0x2115, 1, [2]), (0x2115, 2, [10, 0, 0, 0])] },
    by decide +kernel, by decide +kernel, by decide +kernel, by decide +kernel, by decide +kernel, by decide +kernel, by decide +kernel, by decide +kernel, by decide +kernel, by decide +kernel⟩

theorem witness_domains_change_state_6 : ∃ (k : Fin 8) (readings : List Int) (st : BitVec 16) (bad : Bool) (s : State),
    (getDom s.dev (Domain.ofNum k.val)).state = .transition ∧ ((getDom s.dev (Domain.ofNum k.val)).target = .off ∨ (getDom s.dev (Domain.ofNum k.val)).target = .retention) :=
  ⟨5, [], 0, false, at_ (domTo .drv { state := .transition, left := .on, target := .off }),
    by decide +kernel, by decide +kernel⟩

theorem witness_domains_change_state_6b : ∃ (k : Fin 8) (readings : List Int) (st : BitVec 16) (bad : Bool) (s : State),
    (getDom s.dev (Domain.ofNum k.val)).state = .transition ∧ ((getDom s.dev (Domain.ofNum k.val)).target = .off ∨ (getDom s.dev (Domain.ofNum k.val)).target = .retention) :=
  ⟨2, [], 0, false, at_ (domTo .net { state := .transition, left := .on, target := .retention }),
    by decide +kernel, by decide +kernel⟩

theorem witness_domains_change_state_7 : ∃ (k : Fin 8) (readings : List Int) (st : BitVec 16) (s : State),
    (getDom s.dev (Domain.ofNum k.val)).state = .transition ∧ (getDom s.dev (Domain.ofNum k.val)).target = .on ∧ railsReady s.dev (Domain.ofNum k.val) = true ∧ amsHot readings = false ∧ ((Domain.ofNum k.val) = .net → s.dev.acq.pcie.parked = []) :=
  ⟨5, [250, 250, 250, 250], 0, at_ (domTo .drv { state := .transition, left := .off, target := .on }),
    by decide +kernel, by decide +kernel, by decide +kernel, by decide +kernel, by decide +kernel⟩

theorem witness_domains_change_state_7b : ∃ (k : Fin 8) (readings : List Int) (st : BitVec 16) (s : State),
    (getDom s.dev (Domain.ofNum k.val)).state = .transition ∧ (getDom s.dev (Domain.ofNum k.val)).target = .on ∧ railsReady s.dev (Domain.ofNum k.val) = true ∧ amsHot readings = false ∧ ((Domain.ofNum k.val) = .net → s.dev.acq.pcie.parked = []) :=
  ⟨2, [250, 250, 250, 250], 0, at_ (domTo .net { state := .transition, left := .retention, target := .on }),
    by decide +kernel, by decide +kernel, by decide +kernel, by decide +kernel, by decide +kernel⟩

theorem witness_domains_change_state_8 : ∃ (s : State),
    (getDom s.dev .net).state = .transition ∧ (getDom s.dev .net).target = .on ∧ (getDom s.dev .net).left = .retention ∧ railsReady s.dev .net = true ∧ s.dev.acq.pcie.up = true ∧ s.dev.acq.pcie.memory = true ∧ s.dev.acq.pcie.d3hot = false ∧ s.dev.acq.pcie.parked = [.timeLo] :=
  ⟨{ pcS (fun p => { p with parked := [.timeLo] }) with dev := domTo .net { state := .transition, left := .retention, target := .on } (pcS (fun p => { p with parked := [.timeLo] })).dev },
    by decide +kernel, by decide +kernel, by decide +kernel, by decide +kernel, by decide +kernel, by decide +kernel, by decide +kernel, by decide +kernel⟩

theorem witness_domains_change_state_9 : ∃ (s : State),
    barWaits s.dev = true :=
  ⟨{ pcS id with dev := domTo .net { state := .retention } (pcS id).dev },
    by decide +kernel⟩

theorem witness_wakes_start_their_route_1 : ∃ (seen : WakeSeen) (s : State),
    wakeSources s.od (wakeSees s.od seen s.dev).1 (wakeSees s.od seen s.dev).2 ≠ [] ∧ s.dev.aon.reset.scope = .none ∧ vget s.dev.rails.ok 0 = true :=
  ⟨seen1, wakeS 1,
    by decide +kernel, by decide +kernel, by decide +kernel⟩

theorem witness_wakes_start_their_route_2 : ∃ (seen : WakeSeen) (b : Fin 4) (s : State),
    s.dev.aon.reset.scope = .none ∧ vget s.dev.rails.ok 0 = true ∧ odU s.od 0x2105 5 ≤ seen.held.toNat ∧ pinByLevel s.od b.val = true ∧ pinActive s.od b.val seen.pins.toNat = true ∧ (odU s.od 0x2103 1).testBit b.val = true ∧ s.dev.aon.woken.testBit b.val = false ∧ vget s.dev.aon.wakeFrom b.val ≤ s.dev.clk.run :=
  ⟨seen1, 0, wakeS 3,
    by decide +kernel, by decide +kernel, by decide +kernel, by decide +kernel, by decide +kernel, by decide +kernel, by decide +kernel, by decide +kernel⟩

theorem witness_wakes_start_their_route_3 : ∃ (s : State),
    odU s.od 0x2106 3 ≠ 0 ∧ rtcRuns s.dev = true ∧ s.dev.aon.wakePending.testBit 5 = false :=
  ⟨{ at_ (fun d => { d with clk := { d.clk with rtc := 5, rtcXtal := true } }) with od := objs [(0x2106, 3, toLE 8 4)] },
    by decide +kernel, by decide +kernel, by decide +kernel⟩

theorem witness_wakes_start_their_route_3b : ∃ (s : State),
    odU s.od 0x2106 3 ≠ 0 ∧ rtcRuns s.dev = true ∧ s.dev.aon.wakePending.testBit 5 = false :=
  ⟨{ at_ (fun d => { d with clk := { d.clk with rtc := 5, rtcXtal := true } }) with od := objs [(0x2106, 3, toLE 8 700)] },
    by decide +kernel, by decide +kernel, by decide +kernel⟩

theorem witness_keys_and_images_are_written_1 : ∃ (via : Via) (k : Fin 3) (key : Bytes) (s : State),
    accepted via 0x2330 (k.val + 2) key s = true :=
  ⟨can0, 2, List.replicate 32 7, at_ holds0,
    by decide +kernel⟩

theorem witness_keys_and_images_are_written_2 : ∃ (via : Via) (s : State),
    accepted via 0x2340 1 (toLE 4 0x6E65706F) s = true :=
  ⟨can0, runImg,
    by decide +kernel⟩

theorem witness_keys_and_images_are_written_3 : ∃ (via : Via) (chunk : Bytes) (s : State) (i : Nat),
    accepted via 0x2340 2 chunk s = true ∧ s.dev.sec.load = some i ∧ i < 2 :=
  ⟨can0, [1, 2, 3], loading, 1,
    by decide +kernel, by decide +kernel, by decide +kernel⟩

theorem witness_keys_and_images_are_written_4 : ∃ (via : Via) (s : State) (i : Nat),
    accepted via 0x2340 4 (toLE 4 0x74696D63) s = true ∧ s.dev.sec.load = some i :=
  ⟨can0, loading, 1,
    by decide +kernel, by decide +kernel⟩

theorem witness_keys_and_images_are_written_5 : ∃ (via : Via) (s : State) (r : Nat),
    accepted via 0x2340 7 (toLE 4 0x73696172) s = true ∧ s.dev.sec.running = some r :=
  ⟨can0, runImg, 0,
    by decide +kernel, by decide +kernel⟩

theorem witness_debug_attaches_and_locks_out_1 : ∃ (s : State),
    tapWorks s.dev = true ∧ s.dev.sec.lifecycle = 0 ∧ s.dev.sec.debug = .detached :=
  ⟨base,
    by decide +kernel, by decide +kernel, by decide +kernel⟩

theorem witness_debug_attaches_and_locks_out_2 : ∃ (s : State),
    unlockOpen s.dev = true :=
  ⟨attn .detached,
    by decide +kernel⟩

theorem witness_debug_attaches_and_locks_out_3 : ∃ (s : State) (nonce dk response : Bytes) (at_ : Nat),
    unlockOpen s.dev = true ∧ s.dev.sec.nonce = some (nonce, at_, some dk) ∧ response = (hmac dk (ascii ['W', 'D', 'B', '1'] ++ serialBytes ++ nonce)).take 16 :=
  ⟨at_ (fun d => keyed { d with sec := { d.sec with lifecycle := 1, debug := .challenge, nonce := some (nonce0, 0, some ck0) } }), nonce0, ck0, (hmac ck0 (ascii ['W', 'D', 'B', '1'] ++ serialBytes ++ nonce0)).take 16, 0,
    by decide +kernel, by decide +kernel, rfl⟩

theorem witness_debug_attaches_and_locks_out_4 : ∃ (s : State) (response : Bytes),
    unlockOpen s.dev = true ∧ s.dev.sec.nonce = none :=
  ⟨attn .detached, List.replicate 16 0,
    by decide +kernel, by decide +kernel⟩

theorem witness_debug_attaches_and_locks_out_4b : ∃ (s : State) (response : Bytes),
    unlockOpen s.dev = true ∧ s.dev.sec.nonce = none :=
  ⟨(attn .detached).act (fun _ d => { d with aon := { d.aon with debugFails := 2 } }), List.replicate 16 0,
    by decide +kernel, by decide +kernel⟩

theorem witness_debug_attaches_and_locks_out_5 : ∃ (s : State),
    s.dev.sec.nonce.isSome = true :=
  ⟨secS (fun s => { s with nonce := some (nonce0, 0, none) }),
    by decide +kernel⟩

theorem witness_debug_attaches_and_locks_out_6 : ∃ (s : State),
    s.dev.aon.debugLockout.isSome = true :=
  ⟨at_ (fun d => { d with aon := { d.aon with debugLockout := some 4, debugFails := 3 }, sec := { d.sec with debug := .lockout } }),
    by decide +kernel⟩

theorem witness_tap_acts_1 : ∃ (s : State),
    tapWorks s.dev = true :=
  ⟨attn .attached,
    by decide +kernel⟩

theorem witness_tap_acts_2 : ∃ (i : BitVec 8) (s : State),
    tapWorks s.dev = true ∧ isScan i.toNat = true ∧ s.dev.sec.scan = false :=
  ⟨5, base,
    by decide +kernel, by decide +kernel, by decide +kernel⟩

theorem witness_tap_acts_3 : ∃ (i : BitVec 8) (s : State),
    tapWorks s.dev = true ∧ isScan i.toNat = false ∧ i ≠ 0x12 ∧ s.dev.sec.scan = true ∧ s.dev.sec.instr ≠ i.toNat :=
  ⟨1, at_ (fun d => { d with sec := { d.sec with scan := true, instr := 5 }, isl := { d.isl with scanHold := true } }),
    by decide +kernel, by decide +kernel, by decide +kernel, by decide +kernel, by decide +kernel⟩

theorem witness_tap_acts_4 : ∃ (data : Bytes) (s : State),
    tapWorks s.dev = true ∧ (s.dev.sec.instr = 2 ∨ s.dev.sec.instr = 3) :=
  ⟨[1, 2], secS (fun s => { s with instr := 3, scan := true }),
    by decide +kernel, by decide +kernel⟩

theorem witness_tap_acts_4b : ∃ (data : Bytes) (s : State),
    tapWorks s.dev = true ∧ (s.dev.sec.instr = 2 ∨ s.dev.sec.instr = 3) :=
  ⟨[], secS (fun s => { s with instr := 2 }),
    by decide +kernel, by decide +kernel⟩

theorem witness_tap_acts_5 : ∃ (s : State) (p : Pin),
    vget s.dev.rails.ok 0 = true ∧ vget s.dev.rails.ok p.rail = true ∧ s.dev.aon.reset.scope = .none ∧ s.dev.sec.scan = true ∧ (s.dev.sec.instr = 3 ∨ s.dev.sec.instr = 5) ∧ p.scanHeld = true :=
  ⟨secS (fun s => { s with instr := 5, scan := true }), .gateLow 5,
    by decide +kernel, by decide +kernel, by decide +kernel, by decide +kernel, by decide +kernel, by decide +kernel⟩

theorem witness_tap_acts_5b : ∃ (s : State) (p : Pin),
    vget s.dev.rails.ok 0 = true ∧ vget s.dev.rails.ok p.rail = true ∧ s.dev.aon.reset.scope = .none ∧ s.dev.sec.scan = true ∧ s.dev.sec.instr = 4 ∧ p ≠ .tdo :=
  ⟨secS (fun s => { s with instr := 4, scan := true }), .supEn,
    by decide +kernel, by decide +kernel, by decide +kernel, by decide +kernel, by decide +kernel, by decide +kernel⟩

theorem witness_tap_acts_5c : ∃ (s : State) (p : Pin) (m : Domain),
    vget s.dev.rails.ok 0 = true ∧ vget s.dev.rails.ok p.rail = true ∧ s.dev.aon.reset.scope = .none ∧ s.dev.sec.scan = false ∧ p.owner = some m ∧ s.dev.isOn m = false :=
  ⟨at_ (domTo .drv {}), .pwm 27, .drv,
    by decide +kernel, by decide +kernel, by decide +kernel, by decide +kernel, by decide +kernel, by decide +kernel⟩

theorem witness_commissioning_exchange_1 : ∃ (via : Via) (s t : State) (n : Nat),
    requestSeen false via 0x10 (serviceMsg []) s = some (n, t) ∧ n < 64 ∧ s.dev.sec.hold = false ∧ readCheck t (some n) 0x2320 1 = none :=
  ⟨udp0, base, seenT false udp0 0x10 (serviceMsg []) base, 12,
    by rfl, by decide +kernel, by decide +kernel, by decide +kernel⟩

theorem witness_commissioning_exchange_2 : ∃ (via : Via) (nonce mac issued ck : Bytes) (at_ : Nat) (s t : State) (n : Nat),
    nonce.length = 16 ∧ mac.length = 32 ∧ requestSeen false via 0x11 (serviceMsg (nonce ++ mac)) s = some (n, t) ∧ s.dev.sec.hold = false ∧ writeCheck t (some n) 0x2320 2 (nonce ++ mac) = none ∧ commRefusal n t.dev = none ∧ vget t.dev.sec.nonces n = some (issued, at_, some ck) ∧ mac = commMac ck issued nonce n :=
  ⟨udp0, nonce0, mac0, nonce0, ck0, 0, commN, seenT false udp0 0x11 (serviceMsg (nonce0 ++ mac0)) commN, 12,
    by decide +kernel, mac0_length, comm_seen mac0_length, by decide +kernel, by decide +kernel, by decide +kernel, by decide +kernel, rfl⟩

theorem witness_commissioning_exchange_3 : ∃ (via : Via) (nonce mac issued ck : Bytes) (at_ : Nat) (s t : State) (n : Nat),
    nonce.length = 16 ∧ mac.length = 32 ∧ requestSeen false via 0x11 (serviceMsg (nonce ++ mac)) s = some (n, t) ∧ s.dev.sec.hold = false ∧ writeCheck t (some n) 0x2320 2 (nonce ++ mac) = none ∧ commRefusal n t.dev = none ∧ vget t.dev.sec.nonces n = some (issued, at_, some ck) ∧ mac ≠ commMac ck issued nonce n :=
  ⟨udp0, nonce0, badMac, nonce0, ck0, 0, commN, seenT false udp0 0x11 (serviceMsg (nonce0 ++ badMac)) commN, 12,
    by decide +kernel, badMac_length, comm_seen badMac_length, by decide +kernel, by decide +kernel, by decide +kernel, by decide +kernel, badMac_ne⟩

theorem witness_commissioning_exchange_4 : ∃ (via : Via) (s t : State) (n : Nat),
    requestSeen false via 0x12 (serviceMsg []) s = some (n, t) ∧ s.dev.sec.hold = false ∧ writeCheck t (some n) 0x2320 4 [1] = none ∧ s.dev.sec.holder = some n :=
  ⟨can0, at_ holds0, seenT false can0 0x12 (serviceMsg []) (at_ holds0), 0,
    by rfl, by decide +kernel, by decide +kernel, by decide +kernel⟩

theorem witness_commissioning_exchange_5 : ∃ (via : Via) (s t : State) (n : Nat),
    requestSeen false via 0x13 (serviceMsg []) s = some (n, t) ∧ s.dev.sec.hold = false ∧ (getSession t.dev n).owed = false ∧ (∀ c k, via ≠ .can c k) :=
  ⟨udp0, base, seenT false udp0 0x13 (serviceMsg []) base, 12,
    by rfl, by decide +kernel, by decide +kernel, by decide +kernel⟩

theorem witness_commissioning_exchange_6 : ∃ (c : Fin 2) (k : Fin 4) (s t : State) (n : Nat),
    requestSeen false (.can c k) 0x13 (serviceMsg []) s = some (n, t) ∧ (getSession t.dev n).owed = false ∧ readCheck t (some n) 0x2320 5 = none :=
  ⟨0, 0, base, seenT false can0 0x13 (serviceMsg []) base, 0,
    by rfl, by decide +kernel, by decide +kernel⟩

theorem witness_commissioning_exchange_7 : ∃ (s : State),
    s.dev.sec.holder.isSome = true :=
  ⟨at_ holds0,
    by decide +kernel⟩

theorem witness_commissioning_exchange_8 : ∃ (n : Fin 64) (s : State),
    (vget s.dev.sec.nonces n.val).isSome = true :=
  ⟨12, commN,
    by decide +kernel⟩

theorem witness_commissioning_exchange_9 : ∃ (s : State),
    s.dev.aon.authLockout.isSome = true :=
  ⟨at_ (fun d => { d with aon := { d.aon with authLockout := some 5, authFails := 5 } }),
    by decide +kernel⟩

theorem witness_locks_are_declared_and_lost_1 : ∃ (x : Detector) (n : Nat) (err : Int),
    4096 ≤ n ∧ err.natAbs ≤ 500 :=
  ⟨{}, 4096, -500,
    by decide +kernel, by decide +kernel⟩

theorem witness_locks_are_declared_and_lost_1b : ∃ (x : Detector) (n : Nat) (err : Int),
    4 ≤ n ∧ 2000 < err.natAbs :=
  ⟨{ locked := true, good := 4096 }, 4, -2001,
    by decide +kernel, by decide +kernel⟩

theorem witness_locks_are_declared_and_lost_1c : ∃ (x : Detector) (n : Nat) (err : Int),
    500 < err.natAbs ∧ err.natAbs ≤ 2000 :=
  ⟨{ locked := true, good := 4096 }, 9, 2000,
    by decide +kernel, by decide +kernel⟩

theorem witness_locks_are_declared_and_lost_2 : ∃ (s : State) (y : Synth),
    s.dev.isOn .meas = true ∧ y.det.locked = true :=
  ⟨base, { det := { locked := true } },
    by decide +kernel, by decide +kernel⟩

theorem witness_locks_are_declared_and_lost_2b : ∃ (s : State) (y : Synth),
    (getDom s.dev .meas).state = .retention :=
  ⟨at_ (domTo .meas { state := .retention }), {},
    by decide +kernel⟩

theorem witness_locks_are_declared_and_lost_2c : ∃ (s : State) (y : Synth),
    (getDom s.dev .meas).state = .off :=
  ⟨at_ (domTo .meas {}), {},
    by decide +kernel⟩

theorem witness_locks_are_declared_and_lost_3 : ∃ (runs : PhaseRuns) (mv : BitVec 16) (s : State),
    s.dev.isOn .meas = true ∧ s.dev.time.tb.declared = false ∧ s.dev.time.tb.checked = true ∧ s.dev.time.tb.marked = false ∧ (s.dev.time.tb.det.after runs).locked = true ∧ 1000 ≤ mv.toNat :=
  ⟨[], 1000, tbS (fun t => { t with tb := { checked := true, det := { locked := true } } }),
    by decide +kernel, by decide +kernel, by decide +kernel, by decide +kernel, by decide +kernel, by decide +kernel⟩

theorem witness_locks_are_declared_and_lost_3b : ∃ (runs : PhaseRuns) (mv : BitVec 16) (s : State),
    s.dev.isOn .meas = true ∧ s.dev.time.tb.declared = false ∧ s.dev.time.tb.checked = true ∧ s.dev.time.tb.marked = false ∧ (s.dev.time.tb.det.after runs).locked = true ∧ 1000 ≤ mv.toNat :=
  ⟨[(4096, 500)], 1000, tbS (fun t => { t with tb := { checked := true, det := {} } }),
    by decide +kernel, by decide +kernel, by decide +kernel, by decide +kernel, by decide +kernel, by decide +kernel⟩

theorem witness_locks_are_declared_and_lost_4 : ∃ (runs : PhaseRuns) (mv : BitVec 16) (s : State),
    s.dev.time.tb.declared = true ∧ mv.toNat < 700 :=
  ⟨[], 699, tbS (fun t => { t with tb := { declared := true }, cas := { declared := true } }),
    by decide +kernel, by decide +kernel⟩

theorem witness_locks_are_declared_and_lost_5 : ∃ (runs : PhaseRuns) (mv : BitVec 16) (s : State),
    700 ≤ mv.toNat ∧ s.dev.time.tb.declared = true :=
  ⟨[(4, 2001)], 700, tbS (fun t => { t with tb := { declared := true } }),
    by decide +kernel, by decide +kernel⟩

theorem witness_locks_are_declared_and_lost_6 : ∃ (runs : PhaseRuns) (mv : BitVec 16) (s : State),
    s.dev.isOn .meas = true ∧ s.dev.time.tb.declared = true ∧ s.dev.time.cas.declared = false ∧ s.dev.time.cas.checked = true ∧ s.dev.time.cas.marked = false ∧ (s.dev.time.cas.det.after runs).locked = true ∧ 1000 ≤ mv.toNat :=
  ⟨[], 1000, tbS (fun t => { t with tb := { declared := true }, cas := { checked := true, det := { locked := true } }, casBlock := true }),
    by decide +kernel, by decide +kernel, by decide +kernel, by decide +kernel, by decide +kernel, by decide +kernel, by decide +kernel⟩

theorem witness_locks_are_declared_and_lost_7 : ∃ (found : CasSupervision) (s : State),
    s.dev.time.cas.declared = true ∧ (match found with | .pin _ mv => mv.toNat < 700 | .advance counted => advanceOff s.od s.dev counted = true) :=
  ⟨.pin [] 699, at_ (fun d => { live d with stack := { d.stack with state := .running }, time := { d.time with cas := { declared := true } } }),
    by decide +kernel, by show (699 : BitVec 16).toNat < 700; decide⟩

theorem witness_locks_are_declared_and_lost_7b : ∃ (found : CasSupervision) (s : State),
    s.dev.time.cas.declared = true ∧ (match found with | .pin _ mv => mv.toNat < 700 | .advance counted => advanceOff s.od s.dev counted = true) :=
  ⟨.advance 0, tbS (fun t => { t with cas := { declared := true }, carrier := some { freq := 5000000, ramp := 5000000 } }),
    by decide +kernel, by show advanceOff _ _ _ = true; decide +kernel⟩

theorem witness_locks_are_declared_and_lost_8 : ∃ (ppb : Int) (s : State),
    s.dev.isOn .safe = true ∧ 10000000 < ppb.natAbs :=
  ⟨10000001, base,
    by decide +kernel, by decide +kernel⟩

theorem witness_locks_are_declared_and_lost_9 : ∃ (ppb : Int) (s : State),
    s.dev.isOn .safe = true ∧ ppb.natAbs ≤ 10000000 :=
  ⟨-10000000, at_ (fun d => { d with isl := { d.isl with timebaseHold := 1 } }),
    by decide +kernel, by decide +kernel⟩

theorem witness_schedule_and_rate_follow_1 : ∃ (via : Via) (v : BitVec 32) (s : State),
    accepted via 0x2413 1 (toLE 4 v.toNat) s = true :=
  ⟨can0, 10000, at_ (fun d => live d),
    by decide +kernel⟩

theorem witness_schedule_and_rate_follow_2 : ∃ (via : Via) (n : BitVec 8) (s : State),
    accepted via 0x2412 1 [n] s = true ∧ n ≠ 0xFF :=
  ⟨can0, 0, carrier1,
    by decide +kernel, by decide +kernel⟩

theorem witness_schedule_and_rate_follow_3 : ∃ (via : Via) (s : State),
    accepted via 0x2412 1 [0xFF] s = true :=
  ⟨can0, carrier1,
    by decide +kernel⟩

theorem witness_schedule_and_rate_follow_4 : ∃ (via : Via) (s : State),
    accepted via 0x2400 5 (toLE 4 0x70657473) s = true :=
  ⟨can0, tbS (fun t => { t with pending := 5 }),
    by decide +kernel⟩

theorem witness_schedule_and_rate_follow_5 : ∃ (s : State),
    s.dev.time.tb.declared = true ∧ s.dev.time.rate ≠ s.dev.time.rateTarget ∧ s.dev.clk.counting = true :=
  ⟨tbS (fun t => { t with tb := { declared := true }, rate := 0, rateTarget := 300000000 }),
    by decide +kernel, by decide +kernel, by decide +kernel⟩

theorem witness_schedule_and_rate_follow_6 : ∃ (via : Via) (v : BitVec 32) (s : State),
    accepted via 0x2401 3 (toLE 4 v.toNat) s = true :=
  ⟨can0, 250000000, base,
    by decide +kernel⟩

theorem witness_ptp_port_follows_master_1 : ∃ (p : PtpHead) (logInterval correction : Int) (origin : BitVec 80) (s : State) (m : Master),
    ptpTakes s.od p.mac.val p.udp p.domain.toNat s.dev = true ∧ s.dev.time.master = some m ∧ m.parent = p.source.toNat ∧ -5 ≤ logInterval ∧ logInterval ≤ 4 :=
  ⟨head1, -5, 65536, 77, ptpS 1 (fun t => { t with master := some master1 }), master1,
    by decide +kernel, by decide +kernel, by decide +kernel, by decide +kernel, by decide +kernel⟩

theorem witness_ptp_port_follows_master_2 : ∃ (p : PtpHead) (logInterval correction : Int) (origin : BitVec 80) (s : State) (m : Master),
    ptpTakes s.od p.mac.val p.udp p.domain.toNat s.dev = true ∧ s.dev.time.master = some m ∧ m.parent = p.source.toNat ∧ -5 ≤ logInterval ∧ logInterval ≤ 4 :=
  ⟨head1, 4, 65536, 77, ptpS 1 (fun t => { t with master := some master1, tb := { declared := true } }), master1,
    by decide +kernel, by decide +kernel, by decide +kernel, by decide +kernel, by decide +kernel⟩

theorem witness_ptp_port_follows_master_3 : ∃ (p : PtpHead) (correction : Int) (origin : BitVec 80) (s : State) (m : Master) (x : SyncTimes),
    ptpTakes s.od p.mac.val p.udp p.domain.toNat s.dev = true ∧ s.dev.time.master = some m ∧ m.parent = p.source.toNat ∧ s.dev.time.twoStep = some x ∧ x.seq = p.seq.toNat :=
  ⟨head1, 65536, 77, ptpS 1 (fun t => { t with master := some master1, twoStep := some { seq := 5, t2 := 3, correction := 0 } }), master1, { seq := 5, t2 := 3, correction := 0 },
    by decide +kernel, by decide +kernel, by decide +kernel, by decide +kernel, by decide +kernel⟩

theorem witness_ptp_port_follows_master_4 : ∃ (p : PtpHead) (received sent : BitVec 80) (correction : Int) (s : State) (q diff : Rat) (m : Master),
    s.dev.time.master = some m ∧ m.parent = p.source.toNat ∧ ptpTakes s.od p.mac.val p.udp p.domain.toNat s.dev = true ∧ s.dev.time.delaySeq = p.seq.toNat ∧ s.dev.time.delaySent = some q ∧ s.dev.time.lastDiff = some diff ∧ odU s.od 0x2440 1 ≠ 2 :=
  ⟨head1, 5, 6, 0, ptpS 1 (fun t => { t with master := some master1, delaySeq := 5, delaySent := some 3, lastDiff := some 4 }), 3, 4, master1,
    by decide +kernel, by decide +kernel, by decide +kernel, by decide +kernel, by decide +kernel, by decide +kernel, by decide +kernel⟩

theorem witness_ptp_port_follows_master_5 : ∃ (s : State),
    ptpPort s.od (odU s.od 0x2440 2) s.dev = true ∧ (odU s.od 0x2440 1 = 2 ∨ s.dev.time.master.isSome = true) :=
  ⟨ptpS 2 id,
    by decide +kernel, by decide +kernel⟩

theorem witness_ptp_port_follows_master_5b : ∃ (s : State),
    ptpPort s.od (odU s.od 0x2440 2) s.dev = true ∧ (odU s.od 0x2440 1 = 2 ∨ s.dev.time.master.isSome = true) :=
  ⟨ptpS 1 (fun t => { t with master := some master1 }),
    by decide +kernel, by decide +kernel⟩

theorem witness_ptp_port_follows_master_6 : ∃ (p : PtpHead) (s : State),
    ptpTakes s.od p.mac.val false p.domain.toNat s.dev = true ∧ odU s.od 0x2440 1 = 2 :=
  ⟨head2, { ptpS 2 id with od := objs [(0x2440, 1, [2])] },
    by decide +kernel, by decide +kernel⟩

theorem witness_ptp_port_follows_master_7 : ∃ (p : PtpHead) (a : AnnounceBody) (s : State),
    ptpTakes s.od p.mac.val p.udp p.domain.toNat s.dev = true ∧ s.dev.time.master = none :=
  ⟨head1, default, ptpS 1 id,
    by decide +kernel, by decide +kernel⟩

theorem witness_ptp_port_follows_master_8 : ∃ (announce : Bool) (s : State),
    s.dev.time.master.isSome = true ∧ s.dev.clk.counting = true :=
  ⟨true, ptpS 1 (fun t => { t with master := some master1 }),
    by decide +kernel, by decide +kernel⟩

theorem witness_ptp_port_follows_master_8b : ∃ (announce : Bool) (s : State),
    s.dev.time.master.isSome = true ∧ s.dev.clk.counting = true :=
  ⟨false, ptpS 1 (fun t => { t with master := some master1 }),
    by decide +kernel, by decide +kernel⟩

theorem witness_macs_answer_1 : ∃ (mac : Fin 2) (up : Bool) (s : State),
    s.dev.isOn .net = true ∧ (up = true → ethLine s.dev = true) :=
  ⟨1, true, base,
    by decide +kernel, by decide +kernel⟩

theorem witness_macs_answer_2 : ∃ (mac : Fin 2) (ip target : BitVec 32) (hw : BitVec 48) (s : State),
    s.dev.isOn .net = true ∧ s.dev.time.links.testBit mac.val = true ∧ target.toNat = beNat (odGet s.dev.com.iface (0x2450 + mac.val) 2) ∧ (beNat (odGet s.dev.com.iface (0x2450 + mac.val) 4) = ip.toNat ∨ (∃ n : Fin 64, (getSession s.dev n.val).kind = .udp ∧ (getSession s.dev n.val).mac = mac.val ∧ (getSession s.dev n.val).ip = ip.toNat)) :=
  ⟨0, 0x0A000009, 0x0A000001, 0x010203040506, macS,
    by decide +kernel, by decide +kernel, by decide +kernel, Or.inl (by decide +kernel)⟩

theorem witness_macs_answer_2b : ∃ (mac : Fin 2) (ip target : BitVec 32) (hw : BitVec 48) (s : State),
    s.dev.isOn .net = true ∧ s.dev.time.links.testBit mac.val = true ∧ target.toNat = beNat (odGet s.dev.com.iface (0x2450 + mac.val) 2) ∧ (beNat (odGet s.dev.com.iface (0x2450 + mac.val) 4) = ip.toNat ∨ (∃ n : Fin 64, (getSession s.dev n.val).kind = .udp ∧ (getSession s.dev n.val).mac = mac.val ∧ (getSession s.dev n.val).ip = ip.toNat)) :=
  ⟨0, 0x0A000002, 0x0A000001, 0x010203040506, macS.act (fun _ d => modSession 12 (fun _ => sess12) d),
    by decide +kernel, by decide +kernel, by decide +kernel, Or.inr ⟨12, by decide +kernel, by decide +kernel, by decide +kernel⟩⟩

theorem witness_macs_answer_3 : ∃ (mac : Fin 2) (source target : BitVec 32) (body : Bytes) (s : State),
    s.dev.isOn .net = true ∧ s.dev.time.links.testBit mac.val = true ∧ target.toNat = beNat (odGet s.dev.com.iface (0x2450 + mac.val) 2) :=
  ⟨0, 0x0A000009, 0x0A000001, [1, 2, 3], macS,
    by decide +kernel, by decide +kernel, by decide +kernel⟩

theorem witness_periods_start_1 : ∃ (s : State),
    s.dev.sched.running = true ∧ (∀ n, (vget s.dev.com.rpdos n).held = none) ∧ ((s.dev.clk.counting = true ∨ nextStart s.od s.dev ≤ s.dev.clk.dt)) :=
  ⟨at_ live,
    by decide +kernel, noHeld rfl, by decide +kernel⟩

theorem witness_periods_start_2 : ∃ (r : Fin 8) (b : Build) (s : State),
    s.dev.sched.running = true ∧ s.dev.clk.counting = true ∧ (∀ n, (vget s.dev.com.rpdos n).held = none) ∧ s.dev.lcl.cutDone = some s.dev.sched.count ∧ (getRing s.dev r.val).started = true ∧ (getRing s.dev r.val).build = some b ∧ (getRing s.dev r.val).pendingSwitch = none ∧ (getRing s.dev r.val).activePath < 2 :=
  ⟨1, { period := 1000, cmds := [], slots := [], blockAll := false }, ringS [] (fun d => modRing 1 (fun g => { g with build := some { period := 1000, cmds := [], slots := [], blockAll := false } }) { d with lcl := { d.lcl with cutDone := some 1000 } }),
    by decide +kernel, by decide +kernel, noHeld rfl, by decide +kernel, by decide +kernel, by decide +kernel, by decide +kernel, by decide +kernel⟩

theorem witness_periods_start_3 : ∃ (s : State),
    s.dev.sched.running = true ∧ s.dev.clk.counting = true :=
  ⟨at_ live,
    by decide +kernel, by decide +kernel⟩

theorem witness_periods_start_3b : ∃ (r : Fin 8) (s : State),
    s.dev.sched.running = true ∧ s.dev.clk.counting = true ∧ s.dev.lcl.cutDone ≠ some s.dev.sched.count ∧ (getRing s.dev r.val).started = true :=
  ⟨1, ringS [] id,
    by decide +kernel, by decide +kernel, by decide +kernel, by decide +kernel⟩

theorem witness_frames_return_or_miss_1 : ∃ (r : Fin 8) (p : Fin 2) (b : Bytes) (rtt : Nat) (s : State) (f : Flight),
    (getPath s.dev r.val p.val).flights.find? (fun f => f.ftype == 1) = some f ∧ canReturn s.dev r.val p.val f = true ∧ (getRing s.dev r.val).launching = true ∧ tooLate s.od r.val p.val f rtt b.length (s.upTo (returnDue r.val p.val 1 rtt b.length)).dev = false ∧ frameFault s.od (s.upTo (returnDue r.val p.val 1 rtt b.length)).dev r.val p.val f b rtt = none :=
  ⟨1, 0, frameOf 1, 5000000, ringS [flight1] id, flight1,
    by decide +kernel, by decide +kernel, by decide +kernel, by decide +kernel, frame_ok⟩

theorem witness_frames_return_or_miss_2 : ∃ (r : Fin 8) (p : Fin 2) (b : Bytes) (rtt : Nat) (s : State) (f : Flight),
    (getPath s.dev r.val p.val).flights.find? (fun f => f.ftype == 2) = some f ∧ canReturn s.dev r.val p.val f = true ∧ tooLate s.od r.val p.val f rtt b.length (s.upTo (returnDue r.val p.val 2 rtt b.length)).dev = false ∧ frameFault s.od (s.upTo (returnDue r.val p.val 2 rtt b.length)).dev r.val p.val f b rtt = none :=
  ⟨1, 0, frameOf 2, 5000000, ringS [flight2] id, flight2,
    by decide +kernel, by decide +kernel, by decide +kernel, frame_ok2⟩

theorem witness_frames_return_or_miss_3b : ∃ (r : Fin 8) (p : Fin 2) (b : Bytes) (rtt cause : Nat) (s : State) (f : Flight),
    (getPath s.dev r.val p.val).flights.find? (fun f => f.ftype == 2) = some f ∧ canReturn s.dev r.val p.val f = true ∧ tooLate s.od r.val p.val f rtt b.length (s.upTo (returnDue r.val p.val 2 rtt b.length)).dev = false ∧ frameFault s.od (s.upTo (returnDue r.val p.val 2 rtt b.length)).dev r.val p.val f b rtt = some cause :=
  ⟨1, 0, [], 5000000, 8, ringS [flight2] id, flight2,
    by decide +kernel, by decide +kernel, by decide +kernel, by decide +kernel⟩

theorem witness_frames_return_or_miss_3 : ∃ (r : Fin 8) (p : Fin 2) (b : Bytes) (rtt cause : Nat) (s : State) (f : Flight),
    (getPath s.dev r.val p.val).flights.find? (fun f => f.ftype == 2) = some f ∧ canReturn s.dev r.val p.val f = true ∧ tooLate s.od r.val p.val f rtt b.length (s.upTo (returnDue r.val p.val 2 rtt b.length)).dev = false ∧ frameFault s.od (s.upTo (returnDue r.val p.val 2 rtt b.length)).dev r.val p.val f b rtt = some cause :=
  ⟨1, 0, [1, 2, 3, 4, 5], 5000000, 2, ringS [flight2] id, flight2,
    by decide +kernel, by decide +kernel, by decide +kernel, by decide +kernel⟩

theorem witness_frames_return_or_miss_4 : ∃ (r : Fin 8) (p : Fin 2) (s : State) (f : Flight),
    (getPath s.dev r.val p.val).flights.find? (fun f => f.ftype != 3) = some f ∧ s.dev.clk.counting = true :=
  ⟨1, 0, ringS [flight1] id, flight1,
    by decide +kernel, by decide +kernel⟩

theorem witness_frames_return_or_miss_4b : ∃ (r : Fin 8) (p : Fin 2) (s : State) (f : Flight),
    (getPath s.dev r.val p.val).flights.find? (fun f => f.ftype != 3) = some f ∧ s.dev.clk.counting = true :=
  ⟨1, 0, ringS [flight2] id, flight2,
    by decide +kernel, by decide +kernel⟩

theorem witness_lanes_lose_and_gain_sync_1 : ∃ (r : Fin 8) (p : Fin 2) (s : State),
    (getPath s.dev r.val p.val).sync = true :=
  ⟨1, 0, ringS [flight1] id,
    by decide +kernel⟩

theorem witness_lanes_lose_and_gain_sync_2 : ∃ (r : Fin 8) (p : Fin 2) (s : State),
    s.dev.isOn .link = true :=
  ⟨7, 1, base,
    by decide +kernel⟩

theorem witness_lanes_lose_and_gain_sync_3 : ∃ (r : Fin 8) (p : Fin 2) (s : State),
    s.dev.isOn .safe = true ∧ (getRing s.dev r.val).activePath ≠ p.val ∧ (getPath s.dev r.val p.val).state = .standby :=
  ⟨1, 1, ringS [flight1] (modPath 1 1 (fun p => { p with state := .standby })),
    by decide +kernel, by decide +kernel, by decide +kernel⟩

theorem witness_lanes_lose_and_gain_sync_4 : ∃ (r : Fin 8) (p : Fin 2) (s : State),
    s.dev.isOn .safe = true ∧ (getRing s.dev r.val).activePath = p.val ∧ (getPath s.dev r.val p.val).state = .active ∧ (getPath s.dev r.val p.val).missRun + 1 < odU s.od 0x31F0 6 :=
  ⟨1, 0, { ringS [flight1] id with od := odSet ringOd 0x31F0 6 [2] },
    by decide +kernel, by decide +kernel, by decide +kernel, by decide +kernel⟩

theorem witness_rings_act_1 : ∃ (via : Via) (r : Fin 8) (s : State),
    accepted via (0x3180 + r.val) 4 (toLE 4 0x74727473) s = true :=
  ⟨can0, 1, { at_ live with od := ringOd },
    by decide +kernel⟩

theorem witness_rings_act_2 : ∃ (via : Via) (r : Fin 8) (s : State),
    accepted via (0x3180 + r.val) 4 (toLE 4 0x706F7473) s = true :=
  ⟨can0, 1, ringS [] id,
    by decide +kernel⟩

theorem witness_rings_act_3 : ∃ (via : Via) (r : Fin 8) (s : State),
    accepted via (0x3180 + r.val) 6 (toLE 4 0x70617773) s = true :=
  ⟨can0, 1, { ringS [] (modPath 1 1 (fun p => { p with state := .standby, sync := true })) with od := odSet ringOd 0x3181 1 [3] },
    by decide +kernel⟩

theorem witness_rings_act_4 : ∃ (r : Fin 8) (s : State),
    (getRing s.dev r.val).suppressed.isSome = true ∧ s.dev.clk.counting = true :=
  ⟨1, ringS [] (modRing 1 (fun g => { g with suppressed := some 5 })),
    by decide +kernel, by decide +kernel⟩

theorem witness_rings_act_5 : ∃ (r : Fin 8) (s : State),
    s.dev.sched.running = true ∧ s.dev.clk.counting = true ∧ (getRing s.dev r.val).launching = true ∧ (getRing s.dev r.val).delayDue = true :=
  ⟨1, ringS [] (modRing 1 (fun g => { g with delayDue := true })),
    by decide +kernel, by decide +kernel, by decide +kernel, by decide +kernel⟩

theorem witness_rings_act_6 : ∃ (r : Fin 8) (fa fb : Bytes) (rttA rttB : Nat) (s : State),
    (getRing s.dev r.val).launching = true ∧ (getRing s.dev r.val).delayPeriod.isSome = true :=
  ⟨1, [], [], 0, 0, ringS [] (modRing 1 (fun g => { g with delayPeriod := some 999 })),
    by decide +kernel, by decide +kernel⟩

theorem witness_rings_act_6b : ∃ (r : Fin 8) (fa fb : Bytes) (rttA rttB : Nat) (s : State),
    (getRing s.dev r.val).launching = true ∧ (getRing s.dev r.val).delayPeriod.isSome = true :=
  ⟨1, frameOf 3, frameOf 3, 7, 9, ringS [] (modRing 1 (fun g => { g with delayPeriod := some 999 })),
    by decide +kernel, by decide +kernel⟩

theorem witness_rings_act_7 : ∃ (r : Fin 8) (fa fb : Bytes) (rttA rttB : Nat) (s : State) (f0 f1 : Flight),
    (getRing s.dev r.val).launching = true ∧ (getRing s.dev r.val).delayPeriod.isSome = true ∧ dualRing s.od r.val = true ∧ (getPath s.dev r.val 0).flights.find? (fun f => f.ftype == 3) = some f0 ∧ (getPath s.dev r.val 1).flights.find? (fun f => f.ftype == 3) = some f1 ∧ delayFrameOk s.od (s.upTo (delayDue r.val rttA rttB fa.length fb.length)).dev r.val 0 f0 fa rttA = true ∧ delayFrameOk s.od (s.upTo (delayDue r.val rttA rttB fa.length fb.length)).dev r.val 1 f1 fb rttB = true ∧ (getRing s.dev r.val).delayBroken = false ∧ ((List.range (ringCells s.od r.val)).map (delayEntry fa fb)).any Option.isNone = false ∧ ((rttB : Int) - (solveDelays s.od r.val (ringCells s.od r.val) rttA (((List.range (ringCells s.od r.val)).map (delayEntry fa fb)).map (fun e => e.getD (0, 0, 0)))).2).natAbs ≤ 2000 :=
  ⟨1, frameOf 3, frameOf 3, 5000000, 5002000, dualS, flight3, flight3,
    by decide +kernel, by decide +kernel, by decide +kernel, by decide +kernel, by decide +kernel, delay_frame_ok (by decide +kernel), delay_frame_ok (by decide +kernel), by decide +kernel, by decide +kernel, by decide +kernel⟩

theorem witness_admission_proceeds_1 : ∃ (s : State) (r : Fin 8) (p : Fin 16),
    s.dev.isOn .link = true ∧ s.dev.sched.running = true ∧ s.dev.sched.count % max 1 (lclPar s.od 1) = 0 ∧ ringActive s.dev r.val = true ∧ p.val < ringCells s.od r.val ∧ (∀ q : Fin 8, ringCells s.od q.val ≤ 16) ∧ (getCell s.dev (16 * r.val + p.val)).state = .absent ∧ (getCell s.dev (16 * r.val + p.val)).backoffFrom = none :=
  ⟨{ ringS [] id with dev := { (ringS [] id).dev with sched := { (ringS [] id).dev.sched with count := 1008 } } }, 1, 3,
    by decide +kernel, by decide +kernel, by decide +kernel, by decide +kernel, by decide +kernel, by decide +kernel, by decide +kernel, by decide +kernel⟩

theorem witness_admission_proceeds_2 : ∃ (m : CellMsg) (s : State) (f : Flight),
    slotOffered s.od s.dev m = some f ∧ m.kind = 0 ∧ m.body.length = 44 ∧ (getCell s.dev (cellOf m)).state = .discover ∧ helloRefusal s.od (ikInForce s.dev) (cellOf m) m.body s.dev = none :=
  ⟨msg 0 helloBody, helloS, flight1,
    by decide +kernel, by decide +kernel, by decide +kernel, by decide +kernel, by decide +kernel⟩

theorem witness_admission_proceeds_3 : ∃ (m : CellMsg) (s : State) (f : Flight),
    slotOffered s.od s.dev m = some f ∧ m.kind = 0 ∧ m.body.length = 16 ∧ (getCell s.dev (cellOf m)).state = .admitting ∧ (getCell s.dev (cellOf m)).control.any (fun q => q.mtype == 0x03) = false ∧ (∀ w, (getCell s.dev (cellOf m)).waitSince = some w → f.period ≤ w + lclPar s.od 2) ∧ s.dev.sec.keysHidden = false ∧ m.body = macC (admissionKey s.dev (cellOf m)) (cellOf m) (getCell s.dev (cellOf m)) :=
  ⟨msg 0 (macC (admissionKey admitS.dev 18) 18 (getCell admitS.dev 18)), admitS, flight1,
    by decide +kernel, by decide +kernel, by rw [msg_body]; exact macC_length _ _ _, by decide +kernel, by decide +kernel, forall_some (a := 990) (by decide +kernel) (by decide +kernel), by decide +kernel, by rw [msg_body]; exact macC_at _ _ (by decide +kernel)⟩

theorem witness_admission_proceeds_4 : ∃ (c : Fin 128) (s : State) (w : Nat),
    (getCell s.dev c.val).waitSince = some w ∧ w + lclPar s.od 2 < s.dev.sched.count - 1 ∧ ((getCell s.dev c.val).state = .admitting ∨ ((getCell s.dev c.val).state = .fawn ∧ (getCell s.dev c.val).fawnUnseen = true)) :=
  ⟨18, cell2 (fun x => { x with state := .admitting, waitSince := some 100 }), 100,
    by decide +kernel, by decide +kernel, by decide +kernel⟩

theorem witness_admission_proceeds_4b : ∃ (c : Fin 128) (s : State) (w : Nat),
    (getCell s.dev c.val).waitSince = some w ∧ w + lclPar s.od 2 < s.dev.sched.count - 1 ∧ ((getCell s.dev c.val).state = .admitting ∨ ((getCell s.dev c.val).state = .fawn ∧ (getCell s.dev c.val).fawnUnseen = true)) :=
  ⟨18, cell2 (fun x => { x with state := .fawn, fawnUnseen := true, waitSince := some 100 }), 100,
    by decide +kernel, by decide +kernel, by decide +kernel⟩

theorem witness_admission_proceeds_5 : ∃ (c : Fin 128) (s : State),
    (getCell s.dev c.val).backoffFrom.isSome = true ∧ s.dev.clk.counting = true :=
  ⟨18, cell2 (fun x => { x with backoffFrom := some 5, fails := 3 }),
    by decide +kernel, by decide +kernel⟩

theorem witness_sessions_take_messages_1 : ∃ (m : CellMsg) (s : State) (f : Flight),
    slotOffered s.od s.dev m = some f ∧ m.kind = 1 ∧ m.body.length = 8 ∧ requestFits (getCell s.dev (cellOf m)).txn m = true ∧ (getCell s.dev (cellOf m)).state = .fawn ∧ leAt m.body 0 2 ≤ lclPar s.od 6 ∧ (getCell s.dev (cellOf m)).lockWindow ≤ leAt m.body 2 2 ∧ (getRing s.dev m.ring.val).delayValid = true ∧ s.dev.time.uncertain = false :=
  ⟨msg 1 (toLE 2 1000 ++ toLE 2 64 ++ toLE 4 0), cell2 (fun x => { x with state := .fawn, lockWindow := 64, txn := opened id }), flight1,
    by decide +kernel, by decide +kernel, by decide +kernel, by decide +kernel, by decide +kernel, by decide +kernel, by decide +kernel, by decide +kernel, by decide +kernel⟩

theorem witness_sessions_take_messages_2 : ∃ (m : CellMsg) (s : State) (f : Flight),
    slotOffered s.od s.dev m = some f ∧ m.kind = 1 ∧ m.body.length = 28 ∧ requestFits (getCell s.dev (cellOf m)).txn m = true ∧ legalFromCell 0x4C (getCell s.dev (cellOf m)).state = true :=
  ⟨msg 1 (List.replicate 28 0), cell2 (fun x => { x with state := .run, txn := opened id }), flight1,
    by decide +kernel, by decide +kernel, by decide +kernel, by decide +kernel, by decide +kernel⟩

theorem witness_sessions_take_messages_3 : ∃ (m : CellMsg) (s : State) (f : Flight),
    slotOffered s.od s.dev m = some f ∧ m.kind = 1 ∧ m.body.length = 1 ∧ requestFits (getCell s.dev (cellOf m)).txn m = true ∧ legalFromCell 0x48 (getCell s.dev (cellOf m)).state = true :=
  ⟨msg 1 [0x10], cell2 (fun x => { x with state := .locked, txn := opened id }), flight1,
    by decide +kernel, by decide +kernel, by decide +kernel, by decide +kernel, by decide +kernel⟩

theorem witness_sessions_take_messages_4 : ∃ (m : CellMsg) (s : State) (f : Flight),
    slotOffered s.od s.dev m = some f ∧ m.kind = 0 ∧ m.body.length = 1 ∧ (getCell s.dev (cellOf m)).txn.isOpen = false ∧ legalFromCell 0x48 (getCell s.dev (cellOf m)).state = true :=
  ⟨msg 0 [0x10], cell2 (fun x => { x with state := .blocked }), flight1,
    by decide +kernel, by decide +kernel, by decide +kernel, by decide +kernel, by decide +kernel⟩

theorem witness_sessions_take_messages_5 : ∃ (m : CellMsg) (s : State) (f : Flight),
    slotOffered s.od s.dev m = some f ∧ m.kind = 0 ∧ m.body.length = 2 :=
  ⟨msg 0 [1, 2], cell2 (fun x => { x with state := .run, awaitAnswer := true }), flight1,
    by decide +kernel, by decide +kernel, by decide +kernel⟩

theorem witness_sessions_take_messages_6 : ∃ (m : CellMsg) (s : State) (f : Flight),
    slotOffered s.od s.dev m = some f ∧ m.kind = 3 ∧ m.body.length = 20 ∧ 2 ≤ leAt m.body 0 1 ∧ leAt m.body 0 1 ≤ 32 ∧ epochFits (getCell s.dev (cellOf m)).txn m = true :=
  ⟨msg 3 ([2] ++ List.replicate 19 0), cell2 (fun x => { x with state := .run, txn := opened id }), flight1,
    by decide +kernel, by decide +kernel, by decide +kernel, by decide +kernel, by decide +kernel, by decide +kernel⟩

theorem witness_session_timeouts_1 : ∃ (c : Fin 128) (s : State),
    (getCell s.dev c.val).state = .fawn ∧ (getCell s.dev c.val).sincePeriod + lclPar s.od 8 < s.dev.sched.count :=
  ⟨18, { cell2 (fun x => { x with state := .fawn, txn := opened id }) with od := odSet ringOd 0x3400 8 (toLE 2 256) },
    by decide +kernel, by decide +kernel⟩

theorem witness_session_timeouts_2 : ∃ (c : Fin 128) (s : State),
    (getCell s.dev c.val).state = .param ∧ s.dev.clk.counting = true :=
  ⟨18, cell2 (fun x => { x with state := .param, txn := opened id }),
    by decide +kernel, by decide +kernel⟩

theorem witness_session_timeouts_3 : ∃ (c : Fin 128) (s : State),
    (getCell s.dev c.val).state = .resync ∧ (getCell s.dev c.val).sincePeriod + lclPar s.od 0x0B < s.dev.sched.count :=
  ⟨18, { cell2 (fun x => { x with state := .resync, txn := opened id }) with od := odSet ringOd 0x3400 0x0B (toLE 2 256) },
    by decide +kernel, by decide +kernel⟩

theorem witness_session_timeouts_4 : ∃ (r : Fin 8) (p : Fin 16) (s : State),
    (getRing s.dev r.val).launching = true ∧ s.dev.clk.counting = true ∧ p.val < ringCells s.od r.val ∧ (getCell s.dev (16 * r.val + p.val)).state ∈ [SessState.armed, .run, .hold, .resync] :=
  ⟨1, 2, cell2 (fun x => { x with state := .armed, txn := opened id }),
    by decide +kernel, by decide +kernel, by decide +kernel, by decide +kernel⟩

theorem witness_session_timeouts_4b : ∃ (r : Fin 8) (p : Fin 16) (s : State),
    (getRing s.dev r.val).launching = true ∧ s.dev.clk.counting = true ∧ p.val < ringCells s.od r.val ∧ (getCell s.dev (16 * r.val + p.val)).state ∈ [SessState.armed, .run, .hold, .resync] :=
  ⟨1, 2, cell2 (fun x => { x with state := .hold, txn := opened id }),
    by decide +kernel, by decide +kernel, by decide +kernel, by decide +kernel⟩

theorem witness_session_timeouts_4c : ∃ (r : Fin 8) (p : Fin 16) (s : State),
    (getRing s.dev r.val).launching = true ∧ s.dev.clk.counting = true ∧ p.val < ringCells s.od r.val ∧ (getCell s.dev (16 * r.val + p.val)).state ∈ [SessState.armed, .run, .hold, .resync] :=
  ⟨1, 2, cell2 (fun x => { x with state := .run, txn := opened id }),
    by decide +kernel, by decide +kernel, by decide +kernel, by decide +kernel⟩

theorem witness_hosts_drive_sessions_1 : ∃ (via : Via) (c : Fin 128) (s : State),
    accepted via (0x3100 + c.val) 5 (toLE 4 0x6E797372) s = true :=
  ⟨can0, 18, cell2 (fun x => { x with state := .blocked, txn := opened id }),
    by decide +kernel⟩

theorem witness_hosts_drive_sessions_2 : ∃ (via : Via) (c : Fin 128) (s : State),
    accepted via (0x3100 + c.val) 5 (toLE 4 0x7661656C) s = true :=
  ⟨can0, 18, cell2 (fun x => { x with state := .blocked, txn := opened id }),
    by decide +kernel⟩

theorem witness_hosts_drive_sessions_3 : ∃ (via : Via) (c : Fin 128) (s : State),
    accepted via (0x3480 + c.val) 1 [0, 0] s = true :=
  ⟨can0, 18, cell2 (fun x => { x with txn := opened (fun t => { t with errant := true, window := [1, 2] }) }),
    by decide +kernel⟩

theorem witness_transaction_limits_1 : ∃ (c : Fin 128) (s : State) (q : LclReq),
    ((getCell s.dev c.val).txn).reconciling = false ∧ (((getCell s.dev c.val).txn).out.map (·.tag)).Nodup ∧ (∀ x ∈ ((getCell s.dev c.val).txn).out, x.retries < txnPar s.od 2) ∧ q ∈ ((getCell s.dev c.val).txn).out ∧ q.resend = false ∧ q.launched + txnPar s.od 1 + q.suspended ≤ ((getRing s.dev (ringOf c.val)).lastDone) :=
  ⟨18, cell2 (late5), { mtype := 0x05, body := toLE 2 0 ++ [0, 0], ord := 1, tag := 1, launched := 990 },
    by decide +kernel, by decide +kernel, by decide +kernel, by decide +kernel, by decide +kernel, by decide +kernel⟩

theorem witness_transaction_limits_2 : ∃ (c : Fin 128) (s : State) (q : LclReq) (rest : List LclReq) (j : Nat),
    (getCell s.dev c.val).txn.queue = q :: rest ∧ q.due = some j ∧ j + txnPar s.od 1 ≤ s.dev.sched.count ∧ (∀ x ∈ rest, x.due = none) :=
  ⟨18, cell2 (fun x => { x with state := .run, txn := opened (fun t => { t with queue := [{ mtype := 0x05, body := [], ord := 1, due := some 5 }] }) }), { mtype := 0x05, body := [], ord := 1, due := some 5 }, [], 5,
    by decide +kernel, by decide +kernel, by decide +kernel, by decide +kernel⟩

theorem witness_transaction_limits_2b : ∃ (c : Fin 128) (s : State) (q : LclReq) (rest : List LclReq) (j : Nat),
    (getCell s.dev c.val).txn.queue = q :: rest ∧ q.due = some j ∧ j + txnPar s.od 1 ≤ s.dev.sched.count ∧ (∀ x ∈ rest, x.due = none) :=
  ⟨18, cell2 (fun x => { x with state := .param, txn := opened (fun t => { t with queue := [{ mtype := 0x05, body := [], ord := 1, due := some 5 }] }) }), { mtype := 0x05, body := [], ord := 1, due := some 5 }, [], 5,
    by decide +kernel, by decide +kernel, by decide +kernel, by decide +kernel⟩

theorem witness_transaction_limits_3 : ∃ (c : Fin 128) (s : State) (q : LclReq),
    (getCell s.dev c.val).txn.napping = [q] ∧ q.notBefore ≤ s.dev.sched.count :=
  ⟨18, cell2 (fun x => { x with state := .run, txn := opened (fun t => { t with napping := [{ mtype := 0x05, body := [], ord := 1, notBefore := 1000 }] }) }), { mtype := 0x05, body := [], ord := 1, notBefore := 1000 },
    by decide +kernel, by decide +kernel⟩

theorem witness_transaction_limits_4 : ∃ (c : Fin 128) (s : State),
    ((getCell s.dev c.val).txn).isOpen = true ∧ ((getCell s.dev c.val).txn).grant ≠ ((getCell s.dev c.val).txn).carried ∧ ((getCell s.dev c.val).txn).changedAt + txnPar s.od 8 ≤ s.dev.sched.count :=
  ⟨18, cell2 (fun x => { x with state := .run, txn := opened (fun t => { t with carried := 1 }) }),
    by decide +kernel, by decide +kernel, by decide +kernel⟩

theorem witness_transaction_limits_5 : ∃ (r : Fin 8) (p : Fin 16) (s : State) (a b : Nat),
    (getRing s.dev r.val).recon = some (a, b) ∧ b + txnPar s.od 4 < s.dev.sched.count ∧ p.val < ringCells s.od r.val :=
  ⟨1, 2, reconS, 3, 4,
    by decide +kernel, by decide +kernel, by decide +kernel⟩

theorem witness_stack_commands_wait_1 : ∃ (via : Via) (s : State),
    accepted via 0x3010 1 (toLE 4 0x74727473) s = true :=
  ⟨can0, stackS .stopped id,
    by decide +kernel⟩

theorem witness_stack_commands_wait_2 : ∃ (via : Via) (s : State),
    accepted via 0x3010 1 (toLE 4 0x6E6E6F63) s = true :=
  ⟨can0, stackS .ready id,
    by decide +kernel⟩

theorem witness_stack_commands_wait_3 : ∃ (via : Via) (s : State),
    accepted via 0x3010 1 (toLE 4 0x706F7473) s = true :=
  ⟨can0, stackS .running id,
    by decide +kernel⟩

theorem witness_stack_commands_wait_4 : ∃ (via : Via) (s : State),
    accepted via 0x3010 1 (toLE 4 0x6B726170) s = true :=
  ⟨can0, stackS .stopped id,
    by decide +kernel⟩

theorem witness_stack_conditions_stop_1 : ∃ (s : State),
    s.dev.stack.state = .precharge ∧ s.dev.clk.counting = true :=
  ⟨inSt .precharge id,
    by decide +kernel, by decide +kernel⟩

theorem witness_stack_conditions_stop_2 : ∃ (s : State),
    s.dev.stack.state = .syncing ∧ s.dev.clk.counting = true :=
  ⟨inSt .syncing id,
    by decide +kernel, by decide +kernel⟩

theorem witness_stack_conditions_stop_3 : ∃ (s : State),
    s.dev.stack.state = .ready ∧ s.dev.clk.counting = true :=
  ⟨inSt .ready id,
    by decide +kernel, by decide +kernel⟩

theorem witness_stack_conditions_stop_4 : ∃ (s : State),
    s.dev.stack.state = .stopping ∧ s.dev.prot.exportForced = false ∧ s.dev.clk.counting = true :=
  ⟨inSt .stopping id,
    by decide +kernel, by decide +kernel, by decide +kernel⟩

theorem witness_stack_conditions_stop_5 : ∃ (s : State),
    s.dev.stack.state = .running ∧ s.dev.stack.cmd = none ∧ s.dev.stack.due = none ∧ s.dev.prot.lineLostAt.isSome = true ∧ s.dev.clk.counting = true :=
  ⟨{ inSt .running id with dev := { (inSt .running id).dev with prot := { lineLostAt := some 7 } } },
    by decide +kernel, by decide +kernel, by decide +kernel, by decide +kernel, by decide +kernel⟩

theorem witness_stack_conditions_stop_6 : ∃ (g : Fin 4) (s : State),
    s.dev.stack.state = .running ∧ s.dev.stack.cmd = none ∧ s.dev.stack.due = none ∧ (vget s.dev.stack.groups g.val).shortSince.isSome = true ∧ s.dev.clk.counting = true :=
  ⟨3, inSt .running (fun s => { s with groups := vmod s.groups 3 (fun g => { g with shortSince := some 6 }) }),
    by decide +kernel, by decide +kernel, by decide +kernel, by decide +kernel, by decide +kernel⟩

theorem witness_stack_conditions_stop_7 : ∃ (s : State),
    s.dev.isOn .ctrl = true ∧ s.dev.sched.running = true ∧ s.dev.sched.count ≠ 0 ∧ s.dev.stack.handed = false ∧ s.dev.clk.dt + 1600 < nextStart s.od s.dev ∧ arrCode s.od = 0 :=
  ⟨inSt2 (inSt .stopped id),
    by decide +kernel, by decide +kernel, by decide +kernel, by decide +kernel, by decide +kernel, by decide +kernel⟩

theorem witness_stack_conditions_stop_7b : ∃ (s : State),
    s.dev.isOn .ctrl = true ∧ s.dev.sched.running = true ∧ s.dev.sched.count ≠ 0 ∧ s.dev.stack.handed = false ∧ s.dev.clk.dt + 1600 < nextStart s.od s.dev ∧ arrCode s.od = 3 :=
  ⟨inSt2 (stackS .running id),
    by decide +kernel, by decide +kernel, by decide +kernel, by decide +kernel, by decide +kernel, by decide +kernel⟩

theorem witness_stack_conditions_stop_7c : ∃ (s : State),
    s.dev.isOn .ctrl = true ∧ s.dev.sched.running = true ∧ s.dev.sched.count ≠ 0 ∧ s.dev.stack.handed = false ∧ s.dev.clk.dt + 1600 < nextStart s.od s.dev ∧ arrCode s.od = 1 :=
  ⟨inSt2 { stackS .running id with od := odSet stackOd 0x3000 1 [1] },
    by decide +kernel, by decide +kernel, by decide +kernel, by decide +kernel, by decide +kernel, by decide +kernel⟩

theorem witness_cells_are_bypassed_and_reinserted_1 : ∃ (via : Via) (c : BitVec 8) (s : State),
    accepted via 0x3209 6 [c] s = true :=
  ⟨can0, 18, implS,
    by decide +kernel⟩

theorem witness_cells_are_bypassed_and_reinserted_2 : ∃ (via : Via) (c : BitVec 8) (s : State),
    accepted via 0x3308 0x0A [c] s = true :=
  ⟨can0, 18, stackS .running id,
    by decide +kernel⟩

theorem witness_cells_are_bypassed_and_reinserted_3 : ∃ (via : Via) (c : BitVec 8) (s : State),
    accepted via 0x3308 0x0B [c] s = true :=
  ⟨can0, 18, stackS .running (fun d => { d with stack := { d.stack with active := 0xB0000 } }),
    by decide +kernel⟩

theorem witness_cells_are_bypassed_and_reinserted_5 : ∃ (c : Fin 128) (s : State),
    (s.dev.stack.reinserting.any (fun r => r.cell == c.val)) = true ∧ s.dev.clk.counting = true :=
  ⟨18, inSt .running (fun s => { s with reinserting := [{ cell := 18, start := 4, v0 := 7 }] }),
    by decide +kernel, by decide +kernel⟩

theorem witness_trip_is_set_and_released_1 : ∃ (via : Via) (s : State),
    accepted via 0x3300 1 (toLE 4 0x70697274) s = true :=
  ⟨can0, base,
    by decide +kernel⟩

theorem witness_trip_is_set_and_released_2 : ∃ (via : Via) (s : State),
    accepted via 0x3300 1 (toLE 4 0x65736C72) s = true :=
  ⟨can0, { inSt .tripped id with dev := { (inSt .tripped id).dev with prot := { requesters := 0x10 } } },
    by decide +kernel⟩

theorem witness_control_engine_samples_1 : ∃ (n : Fin 16) (s : State),
    s.dev.isOn .ctrl = true ∧ s.dev.sched.running = true ∧ s.dev.sched.count ≠ 0 ∧ (getCe s.dev n.val).trig ≠ some s.dev.sched.last ∧ (ceRole s.od n.val = true ∨ (s.dev.sched.count - 1) % 2 ^ 32 % odU s.od (ceIx n.val) 6 = 0) :=
  ⟨3, ceS id,
    by decide +kernel, by decide +kernel, by decide +kernel, by decide +kernel, by decide +kernel⟩

theorem witness_control_engine_samples_1b : ∃ (n : Fin 16) (s : State),
    s.dev.isOn .ctrl = true ∧ s.dev.sched.running = true ∧ s.dev.sched.count ≠ 0 ∧ (getCe s.dev n.val).trig ≠ some s.dev.sched.last ∧ (ceRole s.od n.val = true ∨ (s.dev.sched.count - 1) % 2 ^ 32 % odU s.od (ceIx n.val) 6 = 0) ∧ (getCe s.dev n.val).state ≠ .disabled ∧ (getCe s.dev n.val).state ≠ .hold ∧ (getCe s.dev n.val).pending = none ∧ (getCe s.dev n.val).sampled = true ∧ (getCe s.dev n.val).done = false ∧ (getCe s.dev n.val).commit = none :=
  ⟨3, ceS (fun i => { i with state := .running, sampled := true }),
    by decide +kernel, by decide +kernel, by decide +kernel, by decide +kernel, by decide +kernel, by decide +kernel, by decide +kernel, by decide +kernel, by decide +kernel, by decide +kernel, by decide +kernel⟩

theorem witness_control_engine_samples_1c : ∃ (n : Fin 16) (s : State),
    s.dev.isOn .ctrl = true ∧ s.dev.sched.running = true ∧ s.dev.sched.count ≠ 0 ∧ (getCe s.dev n.val).trig ≠ some s.dev.sched.last ∧ (ceRole s.od n.val = true ∨ (s.dev.sched.count - 1) % 2 ^ 32 % odU s.od (ceIx n.val) 6 = 0) ∧ (getCe s.dev n.val).state ≠ .disabled ∧ (getCe s.dev n.val).state ≠ .hold ∧ (getCe s.dev n.val).pending = none ∧ (getCe s.dev n.val).commit = none ∧ ((getCe s.dev n.val).sampled = false ∨ (getCe s.dev n.val).done = true) :=
  ⟨3, ceS (fun i => { i with state := .running }),
    by decide +kernel, by decide +kernel, by decide +kernel, by decide +kernel, by decide +kernel, by decide +kernel, by decide +kernel, by decide +kernel, by decide +kernel, by decide +kernel⟩

theorem witness_control_engine_samples_2 : ∃ (n : Fin 16) (s : State),
    s.dev.isOn .ctrl = true ∧ (getCe s.dev n.val).sampled = true ∧ (getCe s.dev n.val).done = false ∧ (ceRole s.od n.val = true → (getCe s.dev n.val).roleReady = true) ∧ ((getCe s.dev n.val).judged = true ∨ ceMonitor s.od n.val = 0) ∧ (∀ t, (getCe s.dev n.val).cut = some t → s.dev.clk.dt < t) :=
  ⟨3, ceS (fun i => { i with state := .running, sampled := true, judged := true, cut := some 4000000001 }),
    by decide +kernel, by decide +kernel, by decide +kernel, by decide +kernel, by decide +kernel, forall_some (a := 4000000001) (by decide +kernel) (by decide +kernel)⟩

theorem witness_control_engine_samples_2b : ∃ (n : Fin 16) (s : State),
    s.dev.isOn .ctrl = true ∧ (getCe s.dev n.val).sampled = true ∧ (getCe s.dev n.val).done = false ∧ (ceRole s.od n.val = true → (getCe s.dev n.val).roleReady = true) ∧ ((getCe s.dev n.val).judged = true ∨ ceMonitor s.od n.val = 0) ∧ (∀ t, (getCe s.dev n.val).cut = some t → s.dev.clk.dt < t) :=
  ⟨3, ceS (fun i => { i with state := .predicting, sampled := true, cut := some 4000000001 }),
    by decide +kernel, by decide +kernel, by decide +kernel, by decide +kernel, by decide +kernel, forall_some (a := 4000000001) (by decide +kernel) (by decide +kernel)⟩

theorem witness_control_engine_samples_3 : ∃ (n : Fin 16) (s : State),
    s.dev.isOn .ctrl = true ∧ (getCe s.dev n.val).sampled = true ∧ (getCe s.dev n.val).done = false ∧ ceRole s.od n.val = false ∧ ceMonitor s.od n.val = 0 ∧ (getCe s.dev n.val).judged = true ∧ (getCe s.dev n.val).late = false ∧ (∀ t, (getCe s.dev n.val).cut = some t → s.dev.clk.dt < t) :=
  ⟨3, ceS (fun i => { i with state := .running, sampled := true, judged := true, cut := some 4000000001 }),
    by decide +kernel, by decide +kernel, by decide +kernel, by decide +kernel, by decide +kernel, by decide +kernel, by decide +kernel, forall_some (a := 4000000001) (by decide +kernel) (by decide +kernel)⟩

theorem witness_control_engine_samples_4 : ∃ (n : Fin 16) (s : State),
    (getCe s.dev n.val).cut.isSome = true ∧ s.dev.clk.counting = true :=
  ⟨3, ceS (fun i => { i with state := .running, cut := some 4000000100 }),
    by decide +kernel, by decide +kernel⟩

theorem witness_control_engine_samples_5 : ∃ (n : Fin 16) (s : State),
    (getCe s.dev n.val).cut.isSome = true ∧ s.dev.clk.counting = true ∧ (getCe s.dev n.val).safeOwed = false ∧ (getCe s.dev n.val).state ≠ .hold ∧ (getCe s.dev n.val).sampled = true ∧ (getCe s.dev n.val).done = true :=
  ⟨3, ceS (fun i => { i with state := .running, cut := some 4000000100, sampled := true, done := true, u := [7, -7] }),
    by decide +kernel, by decide +kernel, by decide +kernel, by decide +kernel, by decide +kernel, by decide +kernel⟩

theorem witness_control_engine_samples_6 : ∃ (n : Fin 16) (s : State),
    (getCe s.dev n.val).cut.isSome = true ∧ s.dev.clk.counting = true ∧ (getCe s.dev n.val).safeOwed = false ∧ (getCe s.dev n.val).state ≠ .hold ∧ (getCe s.dev n.val).sampled = true ∧ (getCe s.dev n.val).done = false ∧ ceRole s.od n.val = false :=
  ⟨3, ceS (fun i => { i with state := .running, cut := some 4000000100, sampled := true }),
    by decide +kernel, by decide +kernel, by decide +kernel, by decide +kernel, by decide +kernel, by decide +kernel, by decide +kernel⟩

theorem witness_control_engine_takes_commands_1 : ∃ (via : Via) (n : Fin 16) (s : State),
    accepted via (ceIx n.val) 1 (toLE 4 0x62616E65) s = true :=
  ⟨can0, 3, ceBankS .disabled true,
    by decide +kernel⟩

theorem witness_control_engine_takes_commands_2 : ∃ (via : Via) (n : Fin 16) (s : State),
    accepted via (ceIx n.val) 1 (toLE 4 0x61736964) s = true :=
  ⟨can0, 3, ceBankS .running true,
    by decide +kernel⟩

theorem witness_control_engine_takes_commands_3 : ∃ (via : Via) (n : Fin 16) (s : State),
    accepted via (ceIx n.val) 1 (toLE 4 0x74657372) s = true :=
  ⟨can0, 3, ceBankS .running true,
    by decide +kernel⟩

theorem witness_control_engine_takes_commands_4 : ∃ (via : Via) (n : Fin 16) (s : State),
    accepted via (ceIx n.val) 1 (toLE 4 0x6D757372) s = true :=
  ⟨can0, 3, ceBankS .hold true,
    by decide +kernel⟩

theorem witness_control_engine_takes_commands_5 : ∃ (via : Via) (n : Fin 16) (s : State),
    accepted via (ceIx n.val) 0x15 (toLE 4 0x74696D63) s = true :=
  ⟨can0, 3, ceBankS .running true,
    by decide +kernel⟩

theorem witness_control_engine_takes_commands_5b : ∃ (via : Via) (n : Fin 16) (s : State),
    accepted via (ceIx n.val) 0x15 (toLE 4 0x74696D63) s = true :=
  ⟨can0, 3, ceBankS .disabled true,
    by decide +kernel⟩

theorem witness_control_engine_takes_commands_6 : ∃ (via : Via) (n : Fin 16) (w : Fin 3) (v : BitVec 8) (s : State),
    accepted via (ceIx n.val) (3 + w.val) [v] s = true :=
  ⟨can0, 3, 0, 12, ceBankS .disabled true,
    by decide +kernel⟩

theorem witness_converters_run_1 : ∃ (n : Fin 8) (s : State) (t : Nat),
    adcEnabled s.od n.val = true ∧ canConvert (s.upTo (adcDue n.val)).dev n.val = true ∧ triggerInstant s.od n.val (s.upTo (adcDue n.val)).dev = some t :=
  ⟨3, adcS id 1 1 2, 4000000000,
    by decide +kernel, by decide +kernel, by decide +kernel⟩

theorem witness_converters_run_1b : ∃ (n : Fin 8) (s : State) (t : Nat),
    adcEnabled s.od n.val = true ∧ canConvert (s.upTo (adcDue n.val)).dev n.val = true ∧ triggerInstant s.od n.val (s.upTo (adcDue n.val)).dev = some t :=
  ⟨3, adcS (fun a => { a with run := some { trig := 5, first := 5 }, lastTrig := some 5 }) 1 1 2, 4000000000,
    by decide +kernel, by decide +kernel, by decide +kernel⟩

theorem witness_converters_run_2 : ∃ (n : Fin 8) (samples : List Int) (s : State) (r : AdcRun),
    (getAdc s.dev n.val).run = some r ∧ adcEnabled s.od n.val = true ∧ canConvert s.dev n.val = true ∧ samples.length = (seqEntry s.od n.val r.entry).samples ∧ r.entry < 16 :=
  ⟨3, [5, 6], adcS (fun a => { a with run := some { trig := 5, first := 5 } }) 1 1 2, { trig := 5, first := 5 },
    by decide +kernel, by decide +kernel, by decide +kernel, by decide +kernel, by decide +kernel⟩

theorem witness_converters_run_2b : ∃ (n : Fin 8) (samples : List Int) (s : State) (r : AdcRun),
    (getAdc s.dev n.val).run = some r ∧ adcEnabled s.od n.val = true ∧ canConvert s.dev n.val = true ∧ samples.length = (seqEntry s.od n.val r.entry).samples ∧ r.entry < 16 :=
  ⟨3, [5, 6], adcS (fun a => { a with run := some { trig := 5, first := 5, entry := 1 } }) 1 1 2, { trig := 5, first := 5, entry := 1 },
    by decide +kernel, by decide +kernel, by decide +kernel, by decide +kernel, by decide +kernel⟩

theorem witness_converters_run_3 : ∃ (via : Via) (n : Fin 8) (s : State),
    accepted via (adcIx n.val) 0x0D [1] s = true :=
  ⟨can0, 3, adcS id 5 1 2,
    by decide +kernel⟩

theorem witness_converters_run_4 : ∃ (via : Via) (n : Fin 8) (s : State),
    accepted via (adcIx n.val) 1 [1] s = true :=
  ⟨can0, 3, adcS id 1 0 2,
    by decide +kernel⟩

theorem witness_converters_run_5 : ∃ (via : Via) (n : Fin 8) (s : State),
    accepted via (adcIx n.val) 1 [0] s = true :=
  ⟨can0, 3, adcS id 1 1 2,
    by decide +kernel⟩

theorem witness_converters_calibrate_1 : ∃ (via : Via) (mask : BitVec 8) (s : State),
    accepted via 0x2610 1 [mask] s = true :=
  ⟨can0, 8, adcS id 1 0 2,
    by decide +kernel⟩

theorem witness_converters_calibrate_2 : ∃ (factors : List CalFactors) (n : Fin 8) (s : State),
    s.dev.isOn .meas = true ∧ s.dev.clk.counting = true ∧ (getAdc s.dev n.val).cal = .calibrating ∧ (∀ m : Fin 8, (getAdc s.dev m.val).cal = .calibrating → (getAdc s.dev n.val).calFrom ≤ (getAdc s.dev m.val).calFrom) :=
  ⟨List.replicate 8 okFactors, 3, calS,
    by decide +kernel, by decide +kernel, by decide +kernel, by decide +kernel⟩

theorem witness_converters_calibrate_2b : ∃ (factors : List CalFactors) (n : Fin 8) (s : State),
    s.dev.isOn .meas = true ∧ s.dev.clk.counting = true ∧ (getAdc s.dev n.val).cal = .calibrating ∧ (∀ m : Fin 8, (getAdc s.dev m.val).cal = .calibrating → (getAdc s.dev n.val).calFrom ≤ (getAdc s.dev m.val).calFrom) :=
  ⟨[], 3, calS,
    by decide +kernel, by decide +kernel, by decide +kernel, by decide +kernel⟩

theorem witness_comparators_follow_1 : ∃ (n : Fin 32) (outside : Bool) (s : State),
    s.dev.isOn .meas = true ∧ cmpMode s.od n.val ≠ 0 ∧ (vget s.dev.meas.cmps n.val).settle = none :=
  ⟨31, true, cmpS id 1,
    by decide +kernel, by decide +kernel, by decide +kernel⟩

theorem witness_comparators_follow_2 : ∃ (via : Via) (n : Fin 32) (v : BitVec 32) (s : State),
    accepted via (0x2630 + n.val) 3 (toLE 4 v.toNat) s = true :=
  ⟨can0, 31, 0x03000100, cmpS id 1,
    by decide +kernel⟩

theorem witness_comparators_follow_3 : ∃ (n : Fin 32) (outside : Bool) (s : State),
    (vget s.dev.meas.cmps n.val).settle.isSome = true ∧ s.dev.clk.counting = true ∧ cmpMode s.od n.val ≠ 0 :=
  ⟨31, true, cmpS (fun c => { c with settle := some 4000000100 }) 2,
    by decide +kernel, by decide +kernel, by decide +kernel⟩

theorem witness_temperature_is_watched_1 : ∃ (readings : List Int) (s : State),
    s.dev.isOn .meas = true ∧ s.dev.clk.counting = true ∧ readings.length = 12 ∧ (∀ r ∈ readings, -550 ≤ r ∧ r < 1650) ∧ (∀ die : Fin 3, 2 ≤ (healthySet s.dev die.val).length ∧ dieReadable s.dev die.val = true) ∧ (∀ i : Fin 12, (vget s.dev.meas.sensors i.val).bad < 7) :=
  ⟨List.replicate 11 250 ++ [1649], at_ live,
    by decide +kernel, by decide +kernel, by decide +kernel, by decide +kernel, by decide +kernel, by decide +kernel⟩

theorem witness_temperature_is_watched_2 : ∃ (die : Fin 3) (s : State),
    thermalClears (s.upTo (releaseInstant die.val)).dev die.val = true :=
  ⟨0, hotDie 0,
    by decide +kernel⟩

theorem witness_temperature_is_watched_2b : ∃ (die : Fin 3) (s : State),
    thermalClears (s.upTo (releaseInstant die.val)).dev die.val = true :=
  ⟨1, hotDie 1,
    by decide +kernel⟩

theorem witness_temperature_is_watched_3 : ∃ (via : Via) (sensor : BitVec 8) (s : State),
    accepted via 0x2661 2 [sensor] s = true :=
  ⟨can0, 11, at_ (fun d => modSensor 11 (fun x => { x with healthy := false }) d),
    by decide +kernel⟩

theorem witness_streams_run_1 : ∃ (a : Fin 4) (s : State) (n : Nat),
    s.dev.isOn .ctrl = true ∧ s.dev.clk.counting = true ∧ setStream s.od s.dev a.val = some n :=
  ⟨2, strS (fun x => { x with enabled := true }), 5,
    by decide +kernel, by decide +kernel, by decide +kernel⟩

theorem witness_streams_run_2 : ∃ (via : Via) (a : Fin 4) (s : State),
    accepted via (setIx a.val) 0x0B (toLE 4 0x736D7261) s = true :=
  ⟨can0, 2, strS (fun x => { x with enabled := true }),
    by decide +kernel⟩

theorem witness_streams_run_3 : ∃ (via : Via) (n : Fin 32) (s : State),
    accepted via (streamIx n.val) 1 [1] s = true :=
  ⟨can0, 5, strS id,
    by decide +kernel⟩

theorem witness_streams_run_4 : ∃ (via : Via) (n : Fin 32) (s : State),
    accepted via (streamIx n.val) 1 [0] s = true :=
  ⟨can0, 5, strS (fun x => { x with enabled := true }),
    by decide +kernel⟩

theorem witness_streams_run_5 : ∃ (n : Fin 32) (v : BitVec 32) (s : State),
    s.dev.isOn .net = true :=
  ⟨5, 8, strS (fun x => { x with enabled := true }),
    by decide +kernel⟩

theorem witness_streams_run_5b : ∃ (n : Fin 32) (v : BitVec 32) (s : State),
    s.dev.isOn .net = true :=
  ⟨5, 9, strS (fun x => { x with enabled := true }),
    by decide +kernel⟩

theorem witness_streams_run_5c : ∃ (n : Fin 32) (v : BitVec 32) (s : State),
    s.dev.isOn .net = true :=
  ⟨5, 7, strS id,
    by decide +kernel⟩

theorem witness_streams_run_6 : ∃ (n : Fin 32) (b : Bytes) (s : State),
    (getStream s.dev n.val).enabled = true ∧ (getStream s.dev n.val).down = false ∧ (getStream s.dev n.val).paused = false ∧ linkReady s.dev = true ∧ (getStream s.dev n.val).fetched ≠ (getStream s.dev n.val).posted ∧ b.length = 32 :=
  ⟨5, toLE 8 4096 ++ toLE 4 8192 ++ List.replicate 20 0, strS (fun x => { x with enabled := true, posted := 3, tail := 3 }),
    by decide +kernel, by decide +kernel, by decide +kernel, by decide +kernel, by decide +kernel, by decide +kernel⟩

theorem witness_streams_run_6b : ∃ (n : Fin 32) (b : Bytes) (s : State),
    (getStream s.dev n.val).enabled = true ∧ (getStream s.dev n.val).down = false ∧ (getStream s.dev n.val).paused = false ∧ linkReady s.dev = true ∧ (getStream s.dev n.val).fetched ≠ (getStream s.dev n.val).posted ∧ b.length = 32 ∧ ¬ (leAt b 0 8 % 64 = 0 ∧ 8192 ≤ leAt b 8 4 ∧ leAt b 8 4 ≤ 4194304 ∧ leAt b 8 4 % 64 = 0) ∧ (getStream s.dev n.val).fetched ∉ (getStream s.dev n.val).ended :=
  ⟨5, toLE 8 4096 ++ toLE 4 4194368 ++ List.replicate 20 0, strS (fun x => { x with enabled := true, posted := 3, tail := 3 }),
    by decide +kernel, by decide +kernel, by decide +kernel, by decide +kernel, by decide +kernel, by decide +kernel, by decide +kernel, by decide +kernel⟩

theorem witness_streams_run_6c : ∃ (n : Fin 32) (b : Bytes) (s : State),
    (getStream s.dev n.val).enabled = true ∧ (getStream s.dev n.val).down = false ∧ (getStream s.dev n.val).paused = false ∧ linkReady s.dev = true ∧ (getStream s.dev n.val).fetched ≠ (getStream s.dev n.val).posted ∧ b.length = 32 :=
  ⟨5, toLE 8 4096 ++ toLE 4 4194304 ++ List.replicate 20 0, strS (fun x => { x with enabled := true, posted := 3, tail := 3 }),
    by decide +kernel, by decide +kernel, by decide +kernel, by decide +kernel, by decide +kernel, by decide +kernel⟩

theorem witness_streams_run_7 : ∃ (n : Fin 32) (s : State) (r : Staged) (rest : List Staged) (b : Descriptor) (more : List Descriptor),
    (getStream s.dev n.val).enabled = true ∧ (getStream s.dev n.val).down = false ∧ (getStream s.dev n.val).paused = false ∧ linkReady s.dev = true ∧ srcKind s.od n.val ≠ 2 ∧ (getStream s.dev n.val).staging = r :: rest ∧ (getStream s.dev n.val).held = b :: more ∧ ((getStream s.dev n.val).fill.getD {}).written + r.bytes.length ≤ b.len ∧ b.index ∉ (getStream s.dev n.val).ended :=
  ⟨5, strS (fun x => { x with enabled := true, held := [buf1], staging := [stg1] }), stg1, [], buf1, [],
    by decide +kernel, by decide +kernel, by decide +kernel, by decide +kernel, by decide +kernel, by decide +kernel, by decide +kernel, by decide +kernel, by decide +kernel⟩

theorem witness_streams_run_8 : ∃ (n : Fin 32) (s : State) (r : Staged) (rest : List Staged) (b : Descriptor) (more : List Descriptor),
    (getStream s.dev n.val).enabled = true ∧ (getStream s.dev n.val).down = false ∧ (getStream s.dev n.val).paused = false ∧ linkReady s.dev = true ∧ srcKind s.od n.val ≠ 2 ∧ (getStream s.dev n.val).staging = r :: rest ∧ (getStream s.dev n.val).held = b :: more ∧ ((getStream s.dev n.val).fill.getD {}).written + r.bytes.length ≤ b.len ∧ b.index ∈ (getStream s.dev n.val).ended :=
  ⟨5, strS (fun x => { x with enabled := true, held := [buf1], staging := [stg1], ended := [0] }), stg1, [], buf1, [],
    by decide +kernel, by decide +kernel, by decide +kernel, by decide +kernel, by decide +kernel, by decide +kernel, by decide +kernel, by decide +kernel, by decide +kernel⟩

theorem witness_streams_run_9 : ∃ (n : Fin 32) (s : State) (f : Fill) (b : Descriptor) (more : List Descriptor),
    (getStream s.dev n.val).fill = some f ∧ (getStream s.dev n.val).held = b :: more ∧ b.index ∉ (getStream s.dev n.val).ended ∧ odU s.od (streamIx n.val) 5 ≠ 0 ∧ f.written ≠ 0 ∧ (getStream s.dev n.val).down = false ∧ (getStream s.dev n.val).paused = false ∧ linkReady s.dev = true ∧ s.dev.clk.counting = true :=
  ⟨5, strS (fun x => { x with enabled := true, held := [buf1], fill := some { written := 64, oldest := 7 } }), { written := 64, oldest := 7 }, buf1, [],
    by decide +kernel, by decide +kernel, by decide +kernel, by decide +kernel, by decide +kernel, by decide +kernel, by decide +kernel, by decide +kernel, by decide +kernel⟩

theorem witness_streams_run_10 : ∃ (n : Fin 32) (s : State),
    (getStream s.dev n.val).signalFrom.isSome = true ∧ (getStream s.dev n.val).irqTime ≠ 0 ∧ s.dev.clk.counting = true :=
  ⟨5, strS (fun x => { x with enabled := true, signalFrom := some 9, unsignalled := 1, irqTime := 65535 }),
    by decide +kernel, by decide +kernel, by decide +kernel⟩

theorem witness_streams_run_11 : ∃ (n : Fin 32) (offset : BitVec 7) (v : BitVec 32) (s : State),
    s.dev.isOn .net = true :=
  ⟨5, 0x08, 16, strS id,
    by decide +kernel⟩

theorem witness_streams_run_11b : ∃ (n : Fin 32) (offset : BitVec 7) (v : BitVec 32) (s : State),
    s.dev.isOn .net = true :=
  ⟨5, 0x08, 16, strS (fun x => { x with enabled := true }),
    by decide +kernel⟩

theorem witness_streams_run_11c : ∃ (n : Fin 32) (offset : BitVec 7) (v : BitVec 32) (s : State),
    s.dev.isOn .net = true :=
  ⟨5, 0x18, 0, strS id,
    by decide +kernel⟩

theorem witness_streams_run_11d : ∃ (n : Fin 32) (offset : BitVec 7) (v : BitVec 32) (s : State),
    s.dev.isOn .net = true :=
  ⟨5, 0x18, 257, strS id,
    by decide +kernel⟩

theorem witness_streams_run_11e : ∃ (n : Fin 32) (offset : BitVec 7) (v : BitVec 32) (s : State),
    s.dev.isOn .net = true :=
  ⟨5, 0x1C, 65535, strS id,
    by decide +kernel⟩

theorem witness_pcie_endpoint_acts_3 : ∃ (speed : Fin 4) (width : Fin 3) (s : State),
    s.dev.acq.pcie.up = false ∧ s.dev.acq.pcie.perst = false ∧ vget s.dev.rails.ok 3 = true ∧ vget s.dev.rails.ok 4 = true ∧ s.dev.isOn .net = true ∧ speed.val ≠ 0 ∧ width.val ≠ 0 :=
  ⟨3, 2, pcS (fun p => { p with up := false }),
    by decide +kernel, by decide +kernel, by decide +kernel, by decide +kernel, by decide +kernel, by decide +kernel, by decide +kernel⟩

theorem witness_pcie_endpoint_acts_4 : ∃ (s : State),
    s.dev.acq.pcie.up = true :=
  ⟨pcS id,
    by decide +kernel⟩

theorem witness_pcie_endpoint_acts_5 : ∃ (s : State),
    s.dev.acq.pcie.up = true ∧ s.dev.acq.pcie.d3hot = false :=
  ⟨pcS id,
    by decide +kernel, by decide +kernel⟩

theorem witness_pcie_endpoint_acts_6 : ∃ (s : State),
    s.dev.isOn .net = true :=
  ⟨pcS id,
    by decide +kernel⟩

theorem witness_pcie_endpoint_acts_7 : ∃ (reg : BitVec 12) (v : BitVec 32) (s : State),
    s.dev.acq.pcie.perst = false ∧ s.dev.isOn .net = true :=
  ⟨0xFFC, 5, pcS id,
    by decide +kernel, by decide +kernel⟩

theorem witness_pcie_endpoint_acts_8 : ∃ (v : BitVec 32) (s : State),
    s.dev.acq.pcie.perst = false ∧ s.dev.isOn .net = true :=
  ⟨0xFFFFFFFF, pcS id,
    by decide +kernel, by decide +kernel⟩

theorem witness_pcie_endpoint_acts_9 : ∃ (w : Bool) (reg : BitVec 12) (v : BitVec 32) (s : State),
    s.dev.acq.pcie.perst = false ∧ s.dev.isOn .net = false :=
  ⟨true, 0x14, 5, { pcS id with dev := domTo .net {} (pcS id).dev },
    by decide +kernel, by decide +kernel⟩

theorem witness_pcie_endpoint_acts_10 : ∃ (s : State),
    s.dev.isOn .net = true ∧ s.dev.acq.pcie.up = true ∧ s.dev.acq.pcie.memory = true ∧ s.dev.acq.pcie.d3hot = false :=
  ⟨pcS id,
    by decide +kernel, by decide +kernel, by decide +kernel, by decide +kernel⟩

theorem witness_pcie_endpoint_acts_11 : ∃ (v : Fin 36) (s : State),
    s.dev.isOn .net = true :=
  ⟨4, pcS id,
    by decide +kernel⟩

theorem witness_pwm_pairs_run_1 : ∃ (via : Via) (q : Fin 20) (s : State),
    accepted via (0x4000 + q.val) 1 (toLE 4 0x62616E65) s = true :=
  ⟨can0, 19, base,
    by decide +kernel⟩

theorem witness_pwm_pairs_run_2 : ∃ (via : Via) (q : Fin 20) (s : State),
    accepted via (0x4000 + q.val) 1 (toLE 4 0x61736964) s = true :=
  ⟨can0, 19, pairS (fun p => { p with enabled := true, active := true }),
    by decide +kernel⟩

theorem witness_pwm_pairs_run_3 : ∃ (via : Via) (q : Fin 20) (s : State),
    accepted via (0x4000 + q.val) 0x0D (toLE 4 0x74696D63) s = true :=
  ⟨can0, 19, pairS id,
    by decide +kernel⟩

theorem witness_pwm_pairs_run_4 : ∃ (q : Fin 20) (s : State) (t : Nat),
    pairDue q.val s.dev = some t ∧ s.dev.clk.counting = true :=
  ⟨19, pairS (fun p => { p with enabled := true, next := some 4000000100 }), 4000000100,
    by decide +kernel, by decide +kernel⟩

theorem witness_pwm_pairs_run_5 : ∃ (q : Fin 20) (seen : Option (Bool × Bool)) (s : State) (t : Nat),
    pairDue q.val s.dev = some t ∧ s.dev.clk.counting = true :=
  ⟨19, none, pairS (fun p => { p with enabled := true, next := some 4000000100 }), 4000000100,
    by decide +kernel, by decide +kernel⟩

theorem witness_pwm_pairs_run_5b : ∃ (q : Fin 20) (seen : Option (Bool × Bool)) (s : State) (t : Nat),
    pairDue q.val s.dev = some t ∧ s.dev.clk.counting = true :=
  ⟨19, some (true, false), pairS (fun p => { p with enabled := true, active := true, j := 7, start := 4000000000, next := some 4000020000, force := { period := 20000 } }), 4000020000,
    by decide +kernel, by decide +kernel⟩

theorem witness_pronghorn_forces_and_releases_1 : ∃ (n : Fin 16) (g : Fin 10) (s : State),
    s.dev.isOn .drv = true ∧ (odU s.od (0x4100 + n.val) 1).testBit g.val = true :=
  ⟨15, 9, grpS (objs [(0x410F, 1, [0, 2]), (0x4189, 1, toLE 8 (2 ^ 39 + 2 ^ 38))]) id,
    by decide +kernel, by decide +kernel⟩

theorem witness_pronghorn_forces_and_releases_2 : ∃ (n : Fin 16) (g : Fin 10) (s : State),
    s.dev.isOn .drv = true :=
  ⟨15, 9, grpS (objs [(0x410F, 1, [0, 2])]) (fun g => { g with forced := true }),
    by decide +kernel⟩

theorem witness_pronghorn_forces_and_releases_3 : ∃ (g : Fin 10) (s : State),
    s.dev.isOn .drv = true ∧ (vget s.dev.pwm.groups g.val).forced = true ∧ (vget s.dev.pwm.groups g.val).ascOn = false ∧ safeStateOf s.od s.dev g.val ≠ 0 ∧ s.dev.clk.counting = true :=
  ⟨9, grpS (objs [(0x4189, 2, [1])]) (fun g => { g with forced := true, time := 4000000000 }),
    by decide +kernel, by decide +kernel, by decide +kernel, by decide +kernel, by decide +kernel⟩

theorem witness_pronghorn_forces_and_releases_4 : ∃ (via : Via) (g : Fin 10) (s : State),
    accepted via (0x4180 + g.val) 8 (toLE 4 0x65736C72) s = true :=
  ⟨can0, 9, grpS [] (fun g => { g with forced := true, exhausted := true }),
    by decide +kernel⟩

theorem witness_pronghorn_forces_and_releases_6 : ∃ (g : Fin 10) (s : State),
    s.dev.isOn .drv = true ∧ (vget s.dev.pwm.groups g.val).forced = true ∧ odU s.od (0x4180 + g.val) 4 = 1 ∧ (vget s.dev.pwm.groups g.val).exhausted = false ∧ (vget s.dev.pwm.groups g.val).island = false ∧ deviceForcing s.dev = none ∧ groupSources s.od s.dev g.val = [] ∧ (vget s.dev.pwm.groups g.val).lowSince.isSome = true ∧ s.dev.clk.counting = true :=
  ⟨9, grpS (objs [(0x4189, 4, [1])]) (fun g => { g with forced := true, lowSince := some 4000000000 }),
    by decide +kernel, by decide +kernel, by decide +kernel, by decide +kernel, by decide +kernel, by decide +kernel, by decide +kernel, by decide +kernel, by decide +kernel⟩

theorem witness_pronghorn_forces_and_releases_6b : ∃ (g : Fin 10) (s : State),
    s.dev.isOn .drv = true ∧ (vget s.dev.pwm.groups g.val).forced = true ∧ odU s.od (0x4180 + g.val) 4 = 1 ∧ (vget s.dev.pwm.groups g.val).exhausted = false ∧ (vget s.dev.pwm.groups g.val).island = false ∧ deviceForcing s.dev = none ∧ groupSources s.od s.dev g.val = [] ∧ (vget s.dev.pwm.groups g.val).lowSince.isSome = true ∧ s.dev.clk.counting = true :=
  ⟨9, grpS (objs [(0x4189, 4, [1])]) (fun g => { g with forced := true, lowSince := some 4000000000, autos := [4000000000, 4000000001, 4000000002] }),
    by decide +kernel, by decide +kernel, by decide +kernel, by decide +kernel, by decide +kernel, by decide +kernel, by decide +kernel, by decide +kernel, by decide +kernel⟩

theorem witness_bridges_trip_and_recover_1 : ∃ (k : Fin 6) (kinds : BitVec 4) (s : State),
    s.dev.isOn .drv = true ∧ (vget s.dev.bridges k.val).state = .run ∧ kinds ≠ 0 :=
  ⟨5, 4, brS (fun b => { b with state := .run }),
    by decide +kernel, by decide +kernel, by decide +kernel⟩

theorem witness_bridges_trip_and_recover_1b : ∃ (k : Fin 6) (kinds : BitVec 4) (s : State),
    s.dev.isOn .drv = true ∧ (vget s.dev.bridges k.val).state = .run ∧ kinds ≠ 0 :=
  ⟨5, 9, brS (fun b => { b with state := .run, retries := [4000000000, 4000000000, 4000000000] }),
    by decide +kernel, by decide +kernel, by decide +kernel⟩

theorem witness_bridges_trip_and_recover_2 : ∃ (k : Fin 6) (s : State),
    s.dev.isOn .drv = true ∧ (vget s.dev.bridges k.val).state = .retryWait ∧ (vget s.dev.bridges k.val).resumeFrom = none ∧ s.dev.clk.counting = true :=
  ⟨5, brS (fun b => { b with state := .retryWait, faultTime := 4000000000 }),
    by decide +kernel, by decide +kernel, by decide +kernel, by decide +kernel⟩

theorem witness_bridges_trip_and_recover_3 : ∃ (via : Via) (k : Fin 6) (s : State),
    accepted via (0x4200 + k.val) 1 (toLE 4 0x66726C63) s = true :=
  ⟨can0, 5, brS (fun b => { b with state := .lockout, retries := [5] }),
    by decide +kernel⟩

theorem witness_bridges_trip_and_recover_3b : ∃ (via : Via) (k : Fin 6) (s : State),
    accepted via (0x4200 + k.val) 1 (toLE 4 0x66726C63) s = true :=
  ⟨can0, 5, brP (fun b => { b with state := .lockout, retries := [5] }) (fun p => { p with enabled := true, active := true }),
    by decide +kernel⟩

theorem witness_bridges_trip_and_recover_4 : ∃ (via : Via) (k : Fin 6) (s : State),
    accepted via (0x4200 + k.val) 1 (toLE 4 0x74736574) s = true :=
  ⟨can0, 5, base,
    by decide +kernel⟩

theorem witness_bridges_trip_and_recover_5 : ∃ (k : Fin 6) (r : BitVec 8) (s : State),
    s.dev.isOn .drv = true ∧ (vget s.dev.bridges k.val).state = .selfTest :=
  ⟨5, 4, brS (fun b => { b with state := .selfTest }),
    by decide +kernel, by decide +kernel⟩

theorem witness_bridges_trip_and_recover_6 : ∃ (k : Fin 6) (s : State),
    s.dev.isOn .drv = true ∧ vget s.dev.rails.ok 8 = true ∧ s.dev.hvLatched = false ∧ (vget s.dev.bridges k.val).state = .supplyHold ∧ (vget s.dev.bridges k.val).resumeFrom = none :=
  ⟨5, brS (fun b => { b with state := .supplyHold }),
    by decide +kernel, by decide +kernel, by decide +kernel, by decide +kernel, by decide +kernel⟩

theorem witness_bridges_trip_and_recover_6b : ∃ (k : Fin 6) (s : State),
    s.dev.isOn .drv = true ∧ vget s.dev.rails.ok 8 = true ∧ s.dev.hvLatched = false ∧ (vget s.dev.bridges k.val).state = .supplyHold ∧ (vget s.dev.bridges k.val).resumeFrom = none :=
  ⟨5, brS (fun b => { b with state := .supplyHold, wasLockout := true }),
    by decide +kernel, by decide +kernel, by decide +kernel, by decide +kernel, by decide +kernel⟩

theorem witness_bridges_trip_and_recover_6c : ∃ (k : Fin 6) (s : State),
    s.dev.isOn .drv = true ∧ vget s.dev.rails.ok 8 = true ∧ s.dev.hvLatched = false ∧ (vget s.dev.bridges k.val).state = .supplyHold ∧ (vget s.dev.bridges k.val).resumeFrom = none :=
  ⟨5, brP (fun b => { b with state := .supplyHold }) (fun p => { p with enabled := true, active := true }),
    by decide +kernel, by decide +kernel, by decide +kernel, by decide +kernel, by decide +kernel⟩

theorem witness_axes_change_state_1 : ∃ (via : Via) (n : Fin 6) (s : State),
    accepted via (axisIx n.val) 1 (toLE 4 0x62616E65) s = true :=
  ⟨can0, 4, axS id,
    by decide +kernel⟩

theorem witness_axes_change_state_1b : ∃ (via : Via) (n : Fin 6) (s : State),
    accepted via (axisIx n.val) 1 (toLE 4 0x62616E65) s = true :=
  ⟨can0, 4, { axS id with dev := { (axS id).dev with pwm := { (axS id).dev.pwm with groups := vmod (axS id).dev.pwm.groups 4 (fun g => { g with forced := true }) } } },
    by decide +kernel⟩

theorem witness_axes_change_state_2 : ∃ (via : Via) (n : Fin 6) (s : State),
    accepted via (axisIx n.val) 1 (toLE 4 0x74616365) s = true :=
  ⟨can0, 4, axS id,
    by decide +kernel⟩

theorem witness_axes_change_state_2b : ∃ (via : Via) (n : Fin 6) (s : State),
    accepted via (axisIx n.val) 1 (toLE 4 0x74616365) s = true :=
  ⟨can0, 4, axRun (fun a => { a with state := .blocked, stoHeld := true }),
    by decide +kernel⟩

theorem witness_axes_change_state_3 : ∃ (via : Via) (n : Fin 6) (s : State),
    accepted via (axisIx n.val) 1 (toLE 4 0x61736964) s = true :=
  ⟨can0, 4, axRun (fun a => { a with state := .running }),
    by decide +kernel⟩

theorem witness_axes_change_state_4 : ∃ (via : Via) (n : Fin 6) (s : State),
    accepted via (axisIx n.val) 1 (toLE 4 0x6C636564) s = true :=
  ⟨can0, 4, axRun (fun a => { a with state := .running }),
    by decide +kernel⟩

theorem witness_axes_change_state_5 : ∃ (via : Via) (n : Fin 6) (s : State),
    accepted via (axisIx n.val) 1 (toLE 4 0x66726C63) s = true :=
  ⟨can0, 4, axRun (fun a => { a with state := .fault, recatches := [1] }),
    by decide +kernel⟩

theorem witness_axes_change_state_5b : ∃ (via : Via) (n : Fin 6) (s : State),
    accepted via (axisIx n.val) 1 (toLE 4 0x66726C63) s = true :=
  ⟨can0, 4, axRun (fun a => { a with state := .fault, inhibit := .short }),
    by decide +kernel⟩

theorem witness_axes_change_state_6 : ∃ (n : Fin 6) (s : State),
    s.dev.isOn .drv = true ∧ (vget s.dev.axes n.val).state ≠ .disabled ∧ (vget s.dev.pwm.pairs (axisPair n.val)).active = true :=
  ⟨4, axRun (fun a => { a with state := .running }),
    by decide +kernel, by decide +kernel, by decide +kernel⟩

theorem witness_axes_change_state_7 : ∃ (n : Fin 6) (s : State) (t : Nat),
    s.dev.isOn .drv = true ∧ s.dev.clk.counting = true ∧ (vget s.dev.axes n.val).state = .starting ∧ (vget s.dev.axes n.val).start = .wait t :=
  ⟨4, axRun (fun a => { a with state := .starting, start := .wait 4000000000, inhibit := .block }), 4000000000,
    by decide +kernel, by decide +kernel, by decide +kernel, by decide +kernel⟩

theorem witness_axes_change_state_8 : ∃ (n : Fin 6) (s : State) (th : Rat) (t : Nat),
    s.dev.isOn .drv = true ∧ s.dev.clk.counting = true ∧ (vget s.dev.axes n.val).state = .starting ∧ (vget s.dev.axes n.val).start = .torque th (some t) :=
  ⟨4, axRun (fun a => { a with state := .starting, start := .torque 0 (some 4000000000), attempts := 3 }), 0, 4000000000,
    by decide +kernel, by decide +kernel, by decide +kernel, by decide +kernel⟩

theorem witness_axes_change_state_8b : ∃ (n : Fin 6) (s : State) (th : Rat) (t : Nat),
    s.dev.isOn .drv = true ∧ s.dev.clk.counting = true ∧ (vget s.dev.axes n.val).state = .starting ∧ (vget s.dev.axes n.val).start = .torque th (some t) :=
  ⟨4, axRun (fun a => { a with state := .starting, start := .torque 0 (some 4000000000), attempts := 2 }), 0, 4000000000,
    by decide +kernel, by decide +kernel, by decide +kernel, by decide +kernel⟩

theorem witness_axes_change_state_9 : ∃ (n : Fin 6) (s : State),
    s.dev.isOn .drv = true ∧ s.dev.clk.counting = true ∧ (vget s.dev.axes n.val).state = .blocked ∧ (vget s.dev.axes n.val).stoHeld = false ∧ (vget s.dev.axes n.val).hardHeld = false ∧ (vget s.dev.axes n.val).forcedHeld = false ∧ (vget s.dev.axes n.val).delayFrom.isSome = true :=
  ⟨4, axRun (fun a => { a with state := .blocked, delayFrom := some 4000000000 }),
    by decide +kernel, by decide +kernel, by decide +kernel, by decide +kernel, by decide +kernel, by decide +kernel, by decide +kernel⟩

theorem witness_axes_change_state_9b : ∃ (n : Fin 6) (s : State),
    s.dev.isOn .drv = true ∧ s.dev.clk.counting = true ∧ (vget s.dev.axes n.val).state = .blocked ∧ (vget s.dev.axes n.val).stoHeld = false ∧ (vget s.dev.axes n.val).hardHeld = false ∧ (vget s.dev.axes n.val).forcedHeld = false ∧ (vget s.dev.axes n.val).delayFrom.isSome = true :=
  ⟨4, axRun (fun a => { a with state := .blocked, delayFrom := some 4000000000, recatches := [4000000000, 4000000000, 4000000000] }),
    by decide +kernel, by decide +kernel, by decide +kernel, by decide +kernel, by decide +kernel, by decide +kernel, by decide +kernel⟩

theorem witness_axes_change_state_10 : ∃ (n : Fin 6) (s : State),
    s.dev.isOn .drv = true ∧ s.dev.clk.counting = true ∧ (vget s.dev.axes n.val).state = .recatch :=
  ⟨4, axRun (fun a => { a with state := .recatch, since := 4000000000 }),
    by decide +kernel, by decide +kernel, by decide +kernel⟩

theorem witness_axes_change_state_11 : ∃ (n : Fin 6) (s : State),
    s.dev.isOn .drv = true ∧ s.dev.clk.counting = true ∧ (vget s.dev.axes n.val).state = .decel ∧ (vget s.dev.axes n.val).slowSince.isSome = true :=
  ⟨4, axRun (fun a => { a with state := .decel, slowSince := some 4000000000 }),
    by decide +kernel, by decide +kernel, by decide +kernel, by decide +kernel⟩

theorem witness_chopper_and_ladder_act_1 : ∃ (via : Via) (s : State),
    accepted via 0x4600 1 (toLE 4 0x62616E65) s = true :=
  ⟨can0, chS id,
    by decide +kernel⟩

theorem witness_chopper_and_ladder_act_2 : ∃ (via : Via) (s : State),
    accepted via 0x4600 1 (toLE 4 0x61736964) s = true :=
  ⟨can0, chS (fun l => { l with enabled := true, legs := Vector.replicate 2 { state := .ready } }),
    by decide +kernel⟩

theorem witness_chopper_and_ladder_act_3 : ∃ (via : Via) (s : State),
    accepted via 0x4600 1 (toLE 4 0x66726C63) s = true :=
  ⟨can0, chS (fun l => { l with enabled := true, legs := Vector.replicate 2 { state := .fault } }),
    by decide +kernel⟩

theorem witness_chopper_and_ladder_act_3b : ∃ (via : Via) (s : State),
    accepted via 0x4600 1 (toLE 4 0x66726C63) s = true :=
  ⟨can0, chS (fun l => { l with legs := vset l.legs 1 { state := .fault } }),
    by decide +kernel⟩

theorem witness_chopper_and_ladder_act_4 : ∃ (s : State),
    s.dev.isOn .drv = true ∧ s.dev.clk.counting = true ∧ ladderRuns s.dev = true ∧ s.dev.ladder.stale = false :=
  ⟨chS (fun l => { l with enabled := true, legs := Vector.replicate 2 { state := .ready, duty := 1 } }),
    by decide +kernel, by decide +kernel, by decide +kernel, by decide +kernel⟩

theorem witness_chopper_and_ladder_act_5 : ∃ (s : State),
    s.dev.isOn .drv = true ∧ s.dev.clk.counting = true ∧ s.dev.ladder.mech = true ∧ s.dev.ladder.mechClear.isSome = true :=
  ⟨chS (fun l => { l with mech := true, mechClear := some 4000000000 }),
    by decide +kernel, by decide +kernel, by decide +kernel, by decide +kernel⟩

theorem witness_safety_connections_act_1 : ∃ (eth : Bool) (port : Fin 2) (cob : BitVec 32) (mac pdu : Bytes) (s : State),
    s.dev.isOn .safe = true ∧ copyChecks s.od eth port.val cob.toNat pdu = false ∧ (leAt pdu 0 1) < 32 :=
  ⟨true, 1, 0x123, [], [31, 1], islS connOd id,
    by decide +kernel, by decide +kernel, by decide +kernel⟩

theorem witness_safety_connections_act_2 : ∃ (eth : Bool) (port : Fin 2) (cob : BitVec 32) (mac pdu : Bytes) (s : State),
    s.dev.isOn .safe = true ∧ copyChecks s.od eth port.val cob.toNat pdu = true ∧ leAt pdu 12 4 = odU s.od 0x5000 3 ∧ (vget s.dev.isl.conns (leAt pdu 0 1)).held = [] ∧ ((vget s.dev.isl.conns (leAt pdu 0 1)).command = none ∨ (vget s.dev.isl.conns (leAt pdu 0 1)).lastSeq ≠ leAt pdu 2 2) :=
  ⟨true, 1, 0, [1, 2, 3, 4, 5, 6], pduOf 7, islS connOd id,
    by decide +kernel, pdu_checked _ _ (by decide), by decide +kernel, by decide +kernel, by decide +kernel⟩

theorem witness_safety_connections_act_3 : ∃ (eth : Bool) (port : Fin 2) (cob : BitVec 32) (mac pdu : Bytes) (s : State) (h : HeldCopy),
    s.dev.isOn .safe = true ∧ copyChecks s.od eth port.val cob.toNat pdu = true ∧ leAt pdu 12 4 = odU s.od 0x5000 3 ∧ (vget s.dev.isl.conns (leAt pdu 0 1)).held = [h] ∧ h.pdu = pdu ∧ h.eth ≠ eth ∧ s.dev.clk.run ≤ h.at_ + usT (odU s.od (connIx (leAt pdu 0 1)) 6) ∧ ((vget s.dev.isl.conns (leAt pdu 0 1)).command = none ∨ (vget s.dev.isl.conns (leAt pdu 0 1)).lastSeq ≠ leAt pdu 2 2) ∧ ((vget s.dev.isl.conns (leAt pdu 0 1)).state ≠ .run ∨ (1 ≤ ((leAt pdu 2 2 + 65536 - (vget s.dev.isl.conns (leAt pdu 0 1)).lastSeq) % 65536) ∧ ((leAt pdu 2 2 + 65536 - (vget s.dev.isl.conns (leAt pdu 0 1)).lastSeq) % 65536) ≤ odU s.od (connIx (leAt pdu 0 1)) 9)) :=
  ⟨false, 1, 0x123, [], pduOf 7, islS connOd (fun i => { i with conns := vmod i.conns 31 (fun c => { c with held := [held1], state := .waiting }) }), held1,
    by decide +kernel, pdu_checked _ _ (by decide), by decide +kernel, rfl, rfl, by decide +kernel, by decide +kernel, by decide +kernel, by decide +kernel⟩

theorem witness_safety_connections_act_3b : ∃ (eth : Bool) (port : Fin 2) (cob : BitVec 32) (mac pdu : Bytes) (s : State) (h : HeldCopy),
    s.dev.isOn .safe = true ∧ copyChecks s.od eth port.val cob.toNat pdu = true ∧ leAt pdu 12 4 = odU s.od 0x5000 3 ∧ (vget s.dev.isl.conns (leAt pdu 0 1)).held = [h] ∧ h.pdu = pdu ∧ h.eth ≠ eth ∧ s.dev.clk.run ≤ h.at_ + usT (odU s.od (connIx (leAt pdu 0 1)) 6) ∧ ((vget s.dev.isl.conns (leAt pdu 0 1)).command = none ∨ (vget s.dev.isl.conns (leAt pdu 0 1)).lastSeq ≠ leAt pdu 2 2) ∧ ((vget s.dev.isl.conns (leAt pdu 0 1)).state ≠ .run ∨ (1 ≤ ((leAt pdu 2 2 + 65536 - (vget s.dev.isl.conns (leAt pdu 0 1)).lastSeq) % 65536) ∧ ((leAt pdu 2 2 + 65536 - (vget s.dev.isl.conns (leAt pdu 0 1)).lastSeq) % 65536) ≤ odU s.od (connIx (leAt pdu 0 1)) 9)) :=
  ⟨false, 1, 0x123, [], pduOf 7, islS connOd (fun i => { i with conns := vmod i.conns 31 (fun c => { c with held := [held1], state := .run, lastSeq := 3, command := some 0x88 }) }), held1,
    by decide +kernel, pdu_checked _ _ (by decide), by decide +kernel, rfl, rfl, by decide +kernel, by decide +kernel, by decide +kernel, by decide +kernel⟩

theorem witness_safety_connections_act_4 : ∃ (c : Fin 32) (s : State) (seq : Nat) (mac : Bytes),
    s.dev.isOn .safe = true ∧ (vget s.dev.isl.conns c.val).statusDue = some (seq, mac) :=
  ⟨31, islS connOd (fun i => { i with conns := vmod i.conns 31 (fun c => { c with statusDue := some (7, [1, 2, 3, 4, 5, 6]) }) }), 7, [1, 2, 3, 4, 5, 6],
    by decide +kernel, by decide +kernel⟩

theorem witness_safety_connections_act_5 : ∃ (c : Fin 32) (s : State) (h : HeldCopy),
    s.dev.isOn .safe = true ∧ (vget s.dev.isl.conns c.val).held = [h] :=
  ⟨31, islS connOd (fun i => { i with conns := vmod i.conns 31 (fun c => { c with held := [held1] }) }), held1,
    by decide +kernel, rfl⟩

theorem witness_safety_connections_act_6 : ∃ (c : Fin 32) (s : State),
    s.dev.isOn .safe = true ∧ (vget s.dev.isl.conns c.val).state = .run :=
  ⟨31, islS connOd (fun i => { i with conns := vmod i.conns 31 (fun c => { c with state := .run }) }),
    by decide +kernel, by decide +kernel⟩

theorem witness_safety_pairs_are_watched_1 : ∃ (n : Fin 4) (samples : List (Int × Int)) (s : State),
    s.dev.isOn .safe = true ∧ (vget s.dev.isl.speed n.val).ss1 = none :=
  ⟨3, [(10, 20), (12, 19)], islS stoOd id,
    by decide +kernel, by decide +kernel⟩

theorem witness_safety_pairs_are_watched_1b : ∃ (n : Fin 4) (samples : List (Int × Int)) (s : State),
    s.dev.isOn .safe = true ∧ (vget s.dev.isl.speed n.val).ss1 = none :=
  ⟨3, [], islS stoOd id,
    by decide +kernel, by decide +kernel⟩

theorem witness_safety_pairs_are_watched_2 : ∃ (n : Fin 4) (s : State),
    s.dev.isOn .safe = true ∧ (vget s.dev.isl.speed n.val).ss1.isSome = true :=
  ⟨3, islS stoOd (fun i => permit3 id { i with speed := vset i.speed 3 { ss1 := some (4000000000, none) } }),
    by decide +kernel, by decide +kernel⟩

theorem witness_safety_pairs_are_watched_3 : ∃ (fbA fbB : BitVec 4) (n : Fin 4) (s : State),
    s.dev.isOn .safe = true ∧ pairEnabled s.od n.val = true ∧ (vget s.dev.isl.pairs n.val).a.changed + fbDelay s.od ≤ s.dev.clk.run ∧ fbA.toNat.testBit n.val ≠ (vget s.dev.isl.pairs n.val).a.level ∧ (vget s.dev.isl.pairs n.val).a.unequal = 2 ∧ (vget s.dev.isl.pairs n.val).state ≠ .fault :=
  ⟨0, 0, 3, islS stoOd (permit3 (fun p => { p with a := { p.a with unequal := 2 } })),
    by decide +kernel, by decide +kernel, by decide +kernel, by decide +kernel, by decide +kernel, by decide +kernel⟩

theorem witness_safety_pairs_are_watched_3b : ∃ (fbA fbB : BitVec 4) (n : Fin 4) (s : State),
    s.dev.isOn .safe = true ∧ pairEnabled s.od n.val = true ∧ (vget s.dev.isl.pairs n.val).a.changed + fbDelay s.od ≤ s.dev.clk.run ∧ fbA.toNat.testBit n.val ≠ (vget s.dev.isl.pairs n.val).a.level ∧ (vget s.dev.isl.pairs n.val).a.unequal = 2 ∧ (vget s.dev.isl.pairs n.val).state ≠ .fault :=
  ⟨8, 0, 3, islS stoOd (permit3 (fun p => { p with state := .off, a := { unequal := 2 }, b := {} })),
    by decide +kernel, by decide +kernel, by decide +kernel, by decide +kernel, by decide +kernel, by decide +kernel⟩

theorem witness_safety_pairs_are_watched_4 : ∃ (n : Fin 4) (b : Bool) (s : State),
    s.dev.isOn .safe = true ∧ (vget s.dev.isl.pairs n.val).state = .permit ∧ (if b then (vget s.dev.isl.pairs n.val).a else (vget s.dev.isl.pairs n.val).b).quiet = true :=
  ⟨3, false, islS stoOd (permit3 id),
    by decide +kernel, by decide +kernel, by decide +kernel⟩

theorem witness_safety_pairs_are_watched_4b : ∃ (n : Fin 4) (b : Bool) (s : State),
    s.dev.isOn .safe = true ∧ (vget s.dev.isl.pairs n.val).state = .permit ∧ (if b then (vget s.dev.isl.pairs n.val).a else (vget s.dev.isl.pairs n.val).b).quiet = true :=
  ⟨3, true, islS stoOd (permit3 id),
    by decide +kernel, by decide +kernel, by decide +kernel⟩

theorem witness_safety_pairs_are_watched_5 : ∃ (n : Fin 4) (b : Bool) (s : State) (t : Nat),
    s.dev.isOn .safe = true ∧ (if b then (vget s.dev.isl.pairs n.val).b else (vget s.dev.isl.pairs n.val).a).pulse = some (t, none) :=
  ⟨3, false, islS stoOd (permit3 (fun p => { p with a := { p.a with level := false, pulse := some (4000000000, none) } })), 4000000000,
    by decide +kernel, by decide +kernel⟩

theorem witness_safety_pairs_are_watched_5b : ∃ (n : Fin 4) (b : Bool) (s : State) (t : Nat),
    s.dev.isOn .safe = true ∧ (if b then (vget s.dev.isl.pairs n.val).b else (vget s.dev.isl.pairs n.val).a).pulse = some (t, none) :=
  ⟨3, true, islS stoOd (permit3 (fun p => { p with b := { p.b with level := false, pulse := some (4000000000, none) } })), 4000000000,
    by decide +kernel, by decide +kernel⟩

theorem witness_safety_pairs_are_watched_6 : ∃ (via : Via) (n : Fin 4) (s : State),
    accepted via (0x5010 + n.val) 3 (toLE 4 0x66726C63) s = true :=
  ⟨can0, 3, { islS stoOd (fun i => { i with pairs := vset i.pairs 3 { state := .fault } }) with dev := holds0 (islS stoOd (fun i => { i with pairs := vset i.pairs 3 { state := .fault } })).dev },
    by decide +kernel⟩

theorem witness_safety_pairs_are_watched_7 : ∃ (via : Via) (v : BitVec 32) (s : State),
    accepted via 0x5000 3 (toLE 4 v.toNat) s = true :=
  ⟨can0, 0xFFFFFFFF, at_ (fun d => holds0 { d with isl := { d.isl with ccv := 0xFFFFFFFF } }),
    by decide +kernel⟩

theorem witness_safety_pairs_are_watched_8 : ∃ (s : State),
    s.dev.isOn .safe = true :=
  ⟨islS stoOd id,
    by decide +kernel⟩

end Sys2Proof.Tests
end

section
/-! SUPPORT. What a request's admission leaves as it was, and what the refusal of a write leaves: the abort record of an open session,
and nothing but the communication changed. -/
namespace Sys2Proof.Machine

/-! ### Sessions -/

/-- An entry beyond the end reads as the default. -/
theorem vget_beyond {α : Type} {n : Nat} [Inhabited α] (v : Vector α n) {i : Nat} (h : n ≤ i) : vget v i = default := by
  simp [vget, h]

/-- A session number that is not free is one of the 64. -/
theorem lt_of_session_open {d : Dev} {n : Nat} (h : (getSession d n).kind ≠ .free) : n < 64 := by
  by_contra hn
  exact h (by rw [getSession, vget_beyond _ (Nat.le_of_not_lt hn)]; rfl)

theorem getSession_modSession_same {n : Nat} (f : Session → Session) (d : Dev) (h : n < 64) :
    getSession (modSession n f d) n = f (getSession d n) := vget_vmod_same _ _ _ h

/-- A property of a session that the change of one session keeps. -/
theorem getSession_modSession_keeps {P : Session → Prop} {n m : Nat} {f : Session → Session} {d : Dev} (hf : ∀ x, P x → P (f x))
    (h : P (getSession d m)) : P (getSession (modSession n f d) m) := vget_vmod_keeps _ _ _ _ (hf _) h

theorem recordAbort_kind (n ix sub : Nat) (a : Abort) (d : Dev) (m : Nat) (h : (getSession d m).kind ≠ .free) :
    (getSession (recordAbort n ix sub a d) m).kind ≠ .free := by
  unfold recordAbort
  split
  · exact h
  · exact getSession_modSession_keeps (P := fun x => x.kind ≠ .free) (fun _ hx => hx) h

/-- The abort record of an open session takes the code and the detail (R56). -/
theorem recordAbort_abortedWith {n : Nat} (ix sub : Nat) (a : Abort) {d : Dev} (h : (getSession d n).kind ≠ .free) :
    abortedWith n a.1 a.2 (recordAbort n ix sub a d) := by
  unfold recordAbort abortedWith
  rw [if_neg (by simpa using h), getSession_modSession_same _ _ (lt_of_session_open h)]
  exact ⟨rfl, rfl⟩

theorem emit_abortedWith {n k code detail : Nat} (x : Output) {d : Dev} (h : abortedWith n code detail d) :
    abortedWith n code detail (emit k x d) := by
  unfold emit
  split
  · exact getSession_modSession_keeps (P := fun y => y.abort.code = code ∧ y.abort.detail = detail) (fun _ hy => hy) h
  · exact h

theorem arpAsk_com (mac ip : Nat) (d : Dev) : (arpAsk mac ip d).com = d.com := by
  unfold arpAsk
  simp only []
  split <;> rfl

theorem raiseVector_com (v : Nat) (d : Dev) : (raiseVector v d).com = d.com := by
  unfold raiseVector
  split
  · rfl
  · split <;> rfl

theorem mailboxAnswer_sessions (slot : Nat) (b : Bytes) (d : Dev) : (mailboxAnswer slot b d).com.sessions = d.com.sessions := by
  unfold mailboxAnswer
  simp only [raiseVector_com]
  split <;> rfl

/-- A record depends on the sessions alone. -/
theorem abortedWith_of_sessions {n code detail : Nat} {d e : Dev} (hs : e.com.sessions = d.com.sessions) (h : abortedWith n code detail d) :
    abortedWith n code detail e := by
  unfold abortedWith getSession at *
  rwa [hs]

/-- A response leaves the abort records as they are. -/
theorem sendResponse_abortedWith {n k seq code detail : Nat} (b : Bytes) {d : Dev} (h : abortedWith n code detail d) :
    abortedWith n code detail (sendResponse k seq b d) := by
  unfold sendResponse
  split
  · exact abortedWith_of_sessions (mailboxAnswer_sessions _ _ _) h
  · refine emit_abortedWith _ (getSession_modSession_keeps (P := fun y => y.abort.code = code ∧ y.abort.detail = detail) (fun y hy => ?_)
      (abortedWith_of_sessions (congrArg Com.sessions (arpAsk_com _ _ _)) h))
    split <;> exact hy

/-! ### Admission (R40, R45, R49, R50) -/

/-- `t` is a state that a request made in `s` can be executed in, in session `n`: the session is open, the objects are those of `s`,
and of the device only the communication and the idle time of NET differ. -/
structure ExecutesFrom (s : State) (n : Nat) (t : State) : Prop where
  od : t.od = s.od
  agrees : agreeButCom t.dev (netBusy s.dev)
  isOpen : (getSession t.dev n).kind ≠ .free

/-- Abandoning a transfer in progress changes its session alone (R47). -/
theorem abandon_executesFrom {s t : State} {n : Nat} (h : ExecutesFrom s n t) : ExecutesFrom s n (abandon n t) := by
  unfold abandon
  split
  · exact ⟨h.od, agreeButCom_trans (recordAbort_agrees _ _ _ _ _) h.agrees, recordAbort_kind _ _ _ _ _ _
      (getSession_modSession_keeps (P := fun x => x.kind ≠ .free) (fun _ hx => hx) h.isOpen)⟩
  · exact h

theorem udpSession_lt {d : Dev} {mac ip port n : Nat} (h : udpSession d mac ip port = some n) : n < 64 := by
  have range : ∀ m ∈ (List.range 52).map (· + 12), m < 64 := by decide
  unfold udpSession at h
  simp only [] at h
  split at h
  · rename_i m hm
    cases h
    exact range _ (List.mem_of_find?_eq_some hm)
  · exact range _ (List.mem_of_find?_eq_some h)

/-- The session that a datagram is admitted in: the one that its number has, or a new one of its triple (Table 2.5). -/
def udpEntry (old : Session) (mac ip port : Nat) : Session :=
  if old.kind == .free then { kind := .udp, mac := mac, ip := ip, port := port } else old

theorem udpEntry_kind (old : Session) (mac ip port : Nat) : (udpEntry old mac ip port).kind ≠ .free := by
  unfold udpEntry
  split
  · simp
  · rename_i hf
    simpa using hf

theorem udpAdmit_executesFrom {mac ip port seq service n : Nat} {m : OdMsg} {s t : State}
    (h : udpAdmit mac ip port seq service m s = .served n t) : ExecutesFrom s n t := by
  unfold udpAdmit at h
  simp only [] at h
  split at h
  · cases h
  · split at h
    · cases h
    · rename_i k hk
      have hopen (x : Session) (hx : x.kind ≠ .free) : ExecutesFrom s k (devTo (modSession k (fun _ => x)) (devTo netBusy s)) :=
        ⟨rfl, modSession_agrees _ _ _, by
          rw [devTo_dev, getSession_modSession_same _ _ (udpSession_lt hk)]
          exact hx⟩
      rw [← udpEntry] at h
      have hkind := udpEntry_kind (getSession (devTo netBusy s).dev k) mac ip port
      generalize udpEntry (getSession (devTo netBusy s).dev k) mac ip port = x at h hkind
      split at h
      · split at h <;> cases h
      · split at h
        · split at h
          · cases h
            exact hopen _ hkind
          · cases h
        · cases h
          exact hopen _ hkind

theorem mailboxAdmit_executesFrom {whole : Bool} {slot len n : Nat} {b : Bytes} {m : OdMsg} {s t : State}
    (h : mailboxAdmit whole slot len b m s = .served n t) : ExecutesFrom s n t := by
  unfold mailboxAdmit at h
  simp only [] at h
  split at h
  · cases h
  · rename_i hk
    split at h
    · cases h
    · split at h
      · cases h
      · split at h
        · cases h
        · cases h
          refine ⟨rfl, rfl, getSession_modSession_keeps (P := fun x => x.kind ≠ .free) (fun _ hx => hx) ?_⟩
          have hm : (getSession (netBusy s.dev) (8 + slot)).kind = .mailbox := by simpa using hk
          exact fun hf => SessionKind.noConfusion (hm.symm.trans hf)

theorem canAdmit_executesFrom {ctl ch service n : Nat} {s t : State} (h : canAdmit ctl ch service s = .served n t) :
    ExecutesFrom s n t := by
  unfold canAdmit at h
  simp only [] at h
  split at h
  · rename_i hs
    cases h
    simp only [sdoServes, Bool.and_eq_true, beq_iff_eq] at hs
    obtain ⟨⟨⟨⟨-, hkind⟩, -⟩, -⟩, -⟩ := hs
    refine abandon_executesFrom ⟨rfl, modSession_agrees _ _ _, getSession_modSession_keeps (P := fun x => x.kind ≠ .free) (fun _ hx => hx) ?_⟩
    exact fun hf => SessionKind.noConfusion (hkind.symm.trans hf)
  · cases h

theorem admission_executesFrom {whole : Bool} {via : Via} {service n : Nat} {m : OdMsg} {s t : State}
    (h : admission whole via service m s = .served n t) : ExecutesFrom s n t := by
  unfold admission at h
  split at h
  · cases h
  · cases via with
    | udp mac ip port seq =>
      simp only [] at h
      split at h
      · cases h
      · exact udpAdmit_executesFrom h
    | mailbox slot => exact mailboxAdmit_executesFrom h
    | can ctl ch => exact canAdmit_executesFrom h

theorem requestSeen_executesFrom {whole : Bool} {via : Via} {service n : Nat} {m : OdMsg} {s t : State}
    (h : requestSeen whole via service m s = some (n, t)) : ExecutesFrom s n t := by
  unfold requestSeen at h
  split at h
  · rename_i ha
    cases h
    exact admission_executesFrom ha
  · rename_i ha
    simp only [] at h
    split at h
    · obtain ⟨rfl, rfl⟩ := Prod.mk.inj (Option.some.inj h)
      split
      · exact admission_executesFrom ha
      · exact abandon_executesFrom (admission_executesFrom ha)
    · cases h
  · cases h

/-- The state in which a host's write is executed. -/
theorem writeSeen_executesFrom {via : Via} {ix sub n : Nat} {b : Bytes} {s t : State} (h : writeSeen via ix sub b s = some (n, t)) :
    ExecutesFrom s n t := requestSeen_executesFrom h

/-- The fields that a change of the communication alone leaves, as far as stacks and cells need them. -/
theorem agreeButCom_fields {a d : Dev} (h : agreeButCom a d) : a.clk = d.clk ∧ a.lcl = d.lcl ∧ a.stack = d.stack := by
  unfold agreeButCom at h
  rw [← h]
  exact ⟨rfl, rfl, rfl⟩

theorem ExecutesFrom.clk {s t : State} {n : Nat} (h : ExecutesFrom s n t) : t.dev.clk = s.dev.clk := (agreeButCom_fields h.agrees).1

/-! ### A refused write (R35, R56) -/

theorem finish_abortedWith {n service seq : Nat} {m : OdMsg} {before t : State} {a : Abort} (h : (getSession t.dev n).kind ≠ .free) :
    abortedWith n a.1 a.2 (finish n service seq m before ({ abort := some a }, t)).dev := by
  simp only [finish, Option.isNone_some, Bool.and_false, Bool.false_eq_true, if_false, Bool.not_false, if_true, afterAnswer, devTo_dev]
  exact sendResponse_abortedWith _ (recordAbort_abortedWith _ _ _ h)

theorem sdoFinish_abortedWith {n ix sub : Nat} {before t : State} {a : Abort} (h : (getSession t.dev n).kind ≠ .free) :
    abortedWith n a.1 a.2 (sdoFinish n ix sub before ({ abort := some a }, t)).dev := by
  simp only [sdoFinish, sdoAnswer, Option.isNone_some, Bool.and_false, Bool.false_eq_true, if_false, afterAnswer, devTo_dev]
  exact emit_abortedWith _ (recordAbort_abortedWith _ _ _ h)

/-- A write that its execution refuses answers the abort. -/
theorem writeWhole_refused {wr : Writer} {n ix sub offset total : Nat} {b : Bytes} {t u : State} {a : Abort}
    (h : wr (some n) ix sub b t = (some a, u)) : writeWhole wr n ix sub offset total b t = ({ abort := some a }, u) := by
  simp only [writeWhole, h]

/-- A row that is a write of a whole value, and continues no transfer, is executed as that write once the transfer in progress is
abandoned (R47). -/
theorem serveMessage_write {wr : Writer} {ix sub n : Nat} {b : Bytes} {u : State} (hix : ix < 2 ^ 16) (hsub : sub < 2 ^ 8)
    (hb : b.length < 2 ^ 32) (h : ((getSession u.dev n).transfer.filter (continues 2 ix sub)).isNone = true) :
    serveMessage wr true n 2 (writeMsg ix sub b) u = writeWhole wr n ix sub 0 b.length b (abandon n u) := by
  have eix : (writeMsg ix sub b).index.toNat = ix := Nat.mod_eq_of_lt hix
  have esub : (writeMsg ix sub b).sub.toNat = sub := Nat.mod_eq_of_lt hsub
  have elen : (writeMsg ix sub b).total.toNat = b.length := Nat.mod_eq_of_lt hb
  simp only [serveMessage, if_true, eix, esub, elen, Option.isNone_iff_eq_none.1 h]
  exact if_pos rfl

/-- A message of Table 2.7 is executed where it is admitted and continues no transfer, once the transfer in progress is abandoned. -/
theorem requestSeen_message {via : Via} {service n : Nat} {m : OdMsg} {s t : State} (hv : ∀ c k, via ≠ .can c k)
    (hservice : ¬ (service = 3 ∨ service = 4)) (h : requestSeen true via service m s = some (n, t)) :
    ∃ u, admission true via service m s = .served n u ∧
      ((getSession u.dev n).transfer.filter (continues service m.index.toNat m.sub.toNat)).isNone = true ∧ t = abandon n u := by
  unfold requestSeen at h
  split at h
  · exact absurd rfl (hv _ _)
  · rename_i ha
    simp only [hservice, if_false, Bool.true_or, Bool.and_true] at h
    split at h
    · rename_i hm
      obtain ⟨rfl, rfl⟩ := Prod.mk.inj (Option.some.inj h)
      exact ⟨_, ha, hm, rfl⟩
    · cases h
  · cases h

/-- A request that is no exchange of CAN FD is a message of Table 2.7. -/
theorem request_message {wr : Writer} {whole : Bool} {via : Via} {service : Nat} {m : OdMsg} {s : State} (hv : ∀ c k, via ≠ .can c k) :
    request wr whole via service m s = serveAdmitted wr whole service (viaSeq via) m (admission whole via service m s) := by
  cases via with
  | can c k => exact absurd rfl (hv c k)
  | udp mac ip port seq => rfl
  | mailbox slot => rfl

/-- A row that is a host's write on a server channel is executed where the exchange is admitted. -/
theorem requestSeen_can {whole : Bool} {c : Fin 2} {k : Fin 4} {service n : Nat} {m : OdMsg} {s t : State}
    (h : requestSeen whole (.can c k) service m s = some (n, t)) : admission whole (.can c k) service m s = .served n t := by
  unfold requestSeen at h
  simp only [] at h
  split at h
  · rename_i ha
    cases h
    exact ha
  · rename_i hno
    exact (hno _ _ rfl).elim
  · cases h

/-- A host's write that its execution refuses leaves the code and the detail in the abort record of its session (R56). -/
theorem hostWrite_abortedWith {via : Via} {ix sub n : Nat} {b : Bytes} {s t : State} {a : Abort} (hix : ix < 2 ^ 16) (hsub : sub < 2 ^ 8)
    (hb : b.length < 2 ^ 32) (h : writeSeen via ix sub b s = some (n, t)) (hw : writeObject (some n) ix sub b t = (some a, t)) :
    abortedWith n a.1 a.2 (hostWrite via ix sub b s).dev := by
  have hopen := (writeSeen_executesFrom h).isOpen
  have eix : (writeMsg ix sub b).index.toNat = ix := Nat.mod_eq_of_lt hix
  have esub : (writeMsg ix sub b).sub.toNat = sub := Nat.mod_eq_of_lt hsub
  by_cases hv : ∀ c k, via ≠ .can c k
  · obtain ⟨u, ha, hm, rfl⟩ := requestSeen_message hv (by decide) h
    rw [eix, esub] at hm
    rw [hostWrite, request_message hv, ha, serveAdmitted, serveMessage_write hix hsub hb hm, writeWhole_refused hw]
    exact finish_abortedWith hopen
  · push Not at hv
    obtain ⟨c, k, rfl⟩ := hv
    rw [hostWrite, request, requestSeen_can h, canServe_write, sdoWrite, eix, esub]
    rw [show (writeMsg ix sub b).payload = b from rfl, writeWhole_refused hw]
    exact sdoFinish_abortedWith hopen

/-- A host's write refused at step 9 of R35 aborts with 0x0800_0022 and the detail, and changes nothing but the communication. -/
theorem hostWrite_refused {via : Via} {ix sub n detail : Nat} {b : Bytes} {s t : State} (hix : ix < 2 ^ 16) (hsub : sub < 2 ^ 8)
    (hb : b.length < 2 ^ 32) (hr : ¬ (ix = 0x2202 ∧ sub = 1)) (hl : ¬ (ix = 0x2100 ∧ sub = 3)) (h : writeSeen via ix sub b s = some (n, t))
    (hw : writeObject (some n) ix sub b t = refuse detail t) :
    abortedWith n 0x08000022 detail (hostWrite via ix sub b s).dev ∧ (hostWrite via ix sub b s).od = t.od ∧
      agreeButCom (hostWrite via ix sub b s).dev t.dev := by
  have hseen := hostWrite_seen hix hsub hb hr hl h
  rw [hw] at hseen
  exact ⟨hostWrite_abortedWith hix hsub hb h hw, hseen⟩

end Sys2Proof.Machine
end

section
/-! The host's commands to cells (R306, R324, R326, R327): what each write does at step 9 of R35, and the end of a reinsertion. -/
namespace Sys2Proof.Machine

/-! ### The writes -/

/-- A write that passes steps 1 to 8 of R35 is its effect. -/
theorem writeObject_checked {session : Option Nat} {ix sub : Nat} {b : Bytes} {s : State} (h : writeCheck s session ix sub b = none) :
    writeObject session ix sub b s = writeEffect session ix sub b s := by simp only [writeObject, h]

theorem leNat_singleton (c : Byte) : leNat [c] = c.toNat := by simp [leNat]

theorem writeEffect_clearImplausible (session : Option Nat) (c : Byte) (s : State) :
    writeEffect session 0x3209 6 [c] s = clearImplausible c.toNat s := by
  simp [writeEffect, writeStack, arrangementObject, leNat_singleton]

theorem writeEffect_bypassCell (session : Option Nat) (c : Byte) (s : State) :
    writeEffect session 0x3308 0x0A [c] s = bypassWrite c.toNat s := by
  simp [writeEffect, writeStack, arrangementObject, leNat_singleton]

theorem writeEffect_reinsertCell (session : Option Nat) (c : Byte) (s : State) :
    writeEffect session 0x3308 0x0B [c] s = reinsertWrite c.toNat s := by
  simp [writeEffect, writeStack, arrangementObject, leNat_singleton]

/-- A write that a refusal guards and that is accepted met no refusal. -/
theorem unlessRefused_accepted {r : Option Nat} {s t u : State} (h : unlessRefused r s t = (none, u)) : r = none ∧ u = t := by
  cases r with
  | none => exact ⟨rfl, (congrArg Prod.snd h).symm⟩
  | some x => exact absurd (congrArg Prod.fst h) (by simp [unlessRefused, refuse])

/-! ### CLEAR_IMPLAUSIBLE (R306) -/

theorem getCell_of_lcl {d e : Dev} (h : d.lcl = e.lcl) (c : Nat) : getCell d c = getCell e c := by rw [getCell, getCell, h]

/-- The mark of a cell is clear once it is cleared, for a number beyond the cells too. -/
theorem modCell_clears_implausible (c : Nat) (d : Dev) :
    (getCell (modCell c (fun x => { x with implausible := false, strikes := 0 }) d) c).implausible = false := by
  by_cases hc : c < 128
  · rw [getCell, modCell_lcl, vget_vmod_same _ _ _ hc]
  · rw [getCell, vget_beyond _ (Nat.le_of_not_lt hc)]
    rfl

/-- The write ends with the mark clear, and sets no object. -/
theorem clearImplausible_clears (c : Nat) (s : State) :
    (getCell (clearImplausible c s).2.dev c).implausible = false ∧ (clearImplausible c s).2.od = s.od := by
  unfold clearImplausible
  simp only [wrote]
  split
  · refine ⟨?_, rfl⟩
    simp only [State.act_dev, getCell, record_frame]
    exact modCell_clears_implausible _ _
  · rename_i h
    exact ⟨by simpa using h, rfl⟩

/-! ### BYPASS_CELL (R324) -/

/-- A bypass that the host asks for is owed, whether it was owed already or not. -/
theorem hostBypass_owed (c : Nat) (d : Dev) : ∃ x ∈ (hostBypass c d).stack.bypass, x.1 = c := by
  unfold hostBypass
  split
  · rename_i h
    simpa using h
  · exact ⟨(c, 7, 0xFF), by simp, rfl⟩

/-! ### REINSERT_CELL (R326) -/

/-- The device once the reinsertion of a cell has begun (R327). -/
def reinsertBegun (c : Nat) (d : Dev) : Dev :=
  onStack (fun k => { k with reinserting := k.reinserting ++ [{ cell := c, start := d.clk.dt, v0 := (getCell d c).vdc }] }) d

theorem reinsertWrite_eq (c : Nat) (s : State) :
    reinsertWrite c s = unlessRefused (reinsertRefusal s.od c s.dev) s (devTo (reinsertBegun c) s) := rfl

theorem reinsertBegun_reinserting (c : Nat) (d : Dev) :
    ∃ x ∈ (reinsertBegun c d).stack.reinserting, x.cell = c ∧ x.start = d.clk.dt :=
  ⟨{ cell := c, start := d.clk.dt, v0 := (getCell d c).vdc }, by simp [reinsertBegun], rfl, rfl⟩

/-- The first of the six preconditions that fails, in the order of R326. -/
theorem reinsertRefusal_eq (o : Od) (c : Nat) (d : Dev) : reinsertRefusal o c d =
    if d.stack.state ≠ .running then some 0x200A0001
    else if (getCell d c).state ≠ .armed then some 0x200A0002
    else if stackOfCell o c = none ∨ isActive d c = true ∨ (∃ r ∈ d.stack.reinserting, r.cell = c) then some 0x200A0003
    else if (getCell d c).implausible = true ∨ (getCell d c).txn.errant = true then some 0x200A0004
    else if (getCell d c).faultBits ≠ 0 then some 0x200A0005
    else if cellCap o c = 0 then some 0x200A0006
    else none := by
  simp [reinsertRefusal, or_assoc]

/-- A reinsertion that a precondition refuses: the abort of R326, and nothing but the communication changes. -/
theorem reinsertCell_refused {via : Via} {c : Byte} {s t : State} {n detail : Nat} (h : writeSeen via 0x3308 0x0B [c] s = some (n, t))
    (hc : writeCheck t (some n) 0x3308 0x0B [c] = none) (hr : reinsertRefusal t.od c.toNat t.dev = some detail) :
    Completes (.reinsertCell via c) s (fun u => abortedWith n 0x08000022 detail u.dev ∧ u.od = t.od ∧ agreeButCom u.dev t.dev) := by
  refine ⟨_, rfl, hostWrite_refused (by decide) (by decide) (by simp) (by decide) (by decide) h ?_⟩
  rw [writeObject_checked hc, writeEffect_reinsertCell, reinsertWrite_eq, hr, unlessRefused]

/-- A reinsertion that nothing refuses begins. -/
theorem reinsertCell_begins {via : Via} {c : Byte} {s t : State} {n : Nat} (h : writeSeen via 0x3308 0x0B [c] s = some (n, t))
    (hc : writeCheck t (some n) 0x3308 0x0B [c] = none) (hr : reinsertRefusal t.od c.toNat t.dev = none) :
    Completes (.reinsertCell via c) s (fun u => (∃ x ∈ u.dev.stack.reinserting, x.cell = c.toNat ∧ x.start = s.dev.clk.dt) ∧ u.od = s.od) := by
  have hw : (writeObject (some n) 0x3308 0x0B [c] t).2 = devTo (reinsertBegun c.toNat) t := by
    rw [writeObject_checked hc, writeEffect_reinsertCell, reinsertWrite_eq, hr, unlessRefused]
  have hseen := hostWrite_seen (by decide) (by decide) (by simp) (by decide) (by decide) h
  rw [hw] at hseen
  obtain ⟨hod, hdev⟩ := hseen
  obtain ⟨-, -, hstack⟩ := agreeButCom_fields hdev
  have hx := writeSeen_executesFrom h
  refine ⟨_, rfl, ?_, hod.trans hx.od⟩
  show ∃ x ∈ (hostWrite via 0x3308 0x0B [c] s).dev.stack.reinserting, _
  rw [hstack, ← hx.clk]
  exact reinsertBegun_reinserting _ _

/-! ### REINSERT_TIMEOUT (R327) -/

/-- A wait for an instant of device time ends at that instant or later, where device time counts. -/
theorem le_dt_upTo {due : Od → Dev → Option Instant} {s : State} {t : Nat} (hdue : due s.od s.dev = some (.device t))
    (hc : s.dev.clk.counting = true) : t ≤ (s.upTo due).dev.clk.dt := by
  obtain ⟨-, hdt, -⟩ := passTicks_clock (k := ticksTo s.dev (.device t)) (s := s)
  simp only [State.upTo, hdue]
  rw [hdt, if_pos hc, ticksTo, if_pos hc]
  omega

/-- A reinsertion whose time is over ends, and a bypass is owed. -/
theorem reinsertTimeout_ends {c : Nat} {o : Od} {d : Dev} {r : Reinsert} (hr : r ∈ d.stack.reinserting) (hc : r.cell = c)
    (hover : r.start + msT (odU o 0x3308 0x0C) ≤ d.clk.dt) :
    (∃ x ∈ (reinsertTimeout c o d).stack.bypass, x.1 = c) ∧ ∀ x ∈ (reinsertTimeout c o d).stack.reinserting, x.cell ≠ c := by
  have hany : d.stack.reinserting.any (fun r => r.cell == c && decide (r.start + msT (odU o 0x3308 0x0C) ≤ d.clk.dt)) = true :=
    List.any_eq_true.2 ⟨r, hr, by simp [hc, hover]⟩
  rw [reinsertTimeout, if_pos hany]
  refine ⟨?_, fun x hx => by simpa using (List.mem_filter.1 hx).2⟩
  simp only [onStack_stack]
  split
  · rename_i h
    simpa using h
  · exact ⟨(c, 8, 0xFF), by simp, rfl⟩

/-- The instant that REINSERT_TIMEOUT of a cell stands for: the end of its reinsertion's time. -/
def reinsertDue (c : Nat) (o : Od) (d : Dev) : Option Instant :=
  (d.stack.reinserting.find? (fun r => r.cell == c)).map (fun r => .device (r.start + msT (odU o 0x3308 0x0C)))

theorem exec_reinsertTimeout (c : Fin 128) (s : State) :
    exec (.reinsertTimeout c) s = timed (reinsertDue c.val) (reinsertTimeout c.val) s := rfl

/-- The reinsertion that the timeout is due for is in progress, and its time is over once the wait has ended. -/
theorem reinsertDue_over {c : Nat} {s : State} (h : s.dev.stack.reinserting.any (fun r => r.cell == c) = true)
    (hc : s.dev.clk.counting = true) : ∃ r ∈ (s.upTo (reinsertDue c)).dev.stack.reinserting, r.cell = c ∧
      r.start + msT (odU (s.upTo (reinsertDue c)).od 0x3308 0x0C) ≤ (s.upTo (reinsertDue c)).dev.clk.dt := by
  obtain ⟨r, hr⟩ := Option.isSome_iff_exists.1 (List.find?_isSome.2 (List.any_eq_true.1 h))
  have hstack : (s.upTo (reinsertDue c)).dev.stack = s.dev.stack := by simp only [agreeButTime_fields (upTo_agrees _ s)]
  refine ⟨r, hstack ▸ List.mem_of_find?_eq_some hr, by simpa using List.find?_some hr, ?_⟩
  rw [upTo_od]
  exact le_dt_upTo (by rw [reinsertDue, hr, Option.map_some]) hc

theorem reinsertTimeout_completes {c : Fin 128} {s : State} (h : s.dev.stack.reinserting.any (fun r => r.cell == c.val) = true)
    (hc : s.dev.clk.counting = true) :
    Completes (.reinsertTimeout c) s (fun u => (∃ x ∈ u.dev.stack.bypass, x.1 = c.val) ∧
      (∀ x ∈ u.dev.stack.reinserting, x.cell ≠ c.val) ∧ u.od = s.od) := by
  obtain ⟨r, hmem, hcell, hover⟩ := reinsertDue_over h hc
  obtain ⟨howed, hended⟩ := reinsertTimeout_ends hmem hcell hover
  exact ⟨_, exec_reinsertTimeout c s, howed, hended, upTo_od (reinsertDue c.val) s⟩

/-! ### The obligation -/

theorem clearImplausible_completes {via : Via} {c : Byte} {s : State} (h : accepted via 0x3209 6 [c] s = true) :
    Completes (.clearImplausible via c) s (fun u => (getCell u.dev c.toNat).implausible = false ∧ u.od = s.od) := by
  obtain ⟨n, t, u, hseen, -, heffect, hod, hdev⟩ := hostWrite_accepted (by decide) (by decide) (by simp) (by decide) (by decide) h
  obtain ⟨-, hlcl, -⟩ := agreeButCom_fields hdev
  have hwrite := clearImplausible_clears c.toNat t
  rw [← writeEffect_clearImplausible (some n), heffect] at hwrite
  obtain ⟨hclear, hkeep⟩ := hwrite
  exact ⟨_, rfl, (congrArg Cell.implausible (getCell_of_lcl hlcl _)).trans hclear,
    hod.trans (hkeep.trans (writeSeen_executesFrom hseen).od)⟩

theorem bypassCell_completes {via : Via} {c : Byte} {s : State} (h : accepted via 0x3308 0x0A [c] s = true) :
    Completes (.bypassCell via c) s (fun u => (∃ x ∈ u.dev.stack.bypass, x.1 = c.toNat) ∧ u.od = s.od) := by
  obtain ⟨n, t, u, hseen, -, heffect, hod, hdev⟩ := hostWrite_accepted (by decide) (by decide) (by simp) (by decide) (by decide) h
  obtain ⟨-, -, hstack⟩ := agreeButCom_fields hdev
  rw [writeEffect_bypassCell] at heffect
  obtain ⟨-, rfl⟩ := unlessRefused_accepted heffect
  exact ⟨_, rfl, hstack ▸ hostBypass_owed c.toNat t.dev, hod.trans (writeSeen_executesFrom hseen).od⟩

theorem reinsertCell_completes {via : Via} {c : Byte} {s : State} (h : accepted via 0x3308 0x0B [c] s = true) :
    Completes (.reinsertCell via c) s (fun u => (∃ x ∈ u.dev.stack.reinserting, x.cell = c.toNat ∧ x.start = s.dev.clk.dt) ∧ u.od = s.od) := by
  obtain ⟨n, t, u, hseen, hcheck, heffect, -, -⟩ := hostWrite_accepted (by decide) (by decide) (by simp) (by decide) (by decide) h
  rw [writeEffect_reinsertCell, reinsertWrite_eq] at heffect
  exact reinsertCell_begins hseen hcheck (unlessRefused_accepted heffect).1

/-- Settles O37: each clause is the effect of its own command, and the clause of R326 follows the preconditions in their order. -/
theorem cellsAreBypassedAndReinserted : Obligations.CellsAreBypassedAndReinserted := by
  refine ⟨fun _ _ _ => clearImplausible_completes, fun _ _ _ => bypassCell_completes, fun _ _ _ => reinsertCell_completes,
    fun via c s t n hs hc => ?_, fun _ _ => reinsertTimeout_completes⟩
  have hr := reinsertRefusal_eq t.od c.toNat t.dev
  dsimp only
  split_ifs at hr ⊢
  iterate 6 exact reinsertCell_refused hs hc hr
  obtain ⟨u, hu, ⟨x, hx, hcell, -⟩, -⟩ := reinsertCell_begins hs hc hr
  exact ⟨u, hu, x, hx, hcell⟩

end Sys2Proof.Machine
end

section
/-! The control engine's arithmetic (R345): what `rnd` is on either side of zero and how far it lies from the exact quotient, and that
saturation answers the bound nearest to the true value. Serves O55. -/
namespace Sys2Proof.Machine

/-! ### Rounding -/

/-- The model's quotient is the spec's shift. -/
theorem rnd_of_nonneg {a : Int} (s : Nat) (h : 0 ≤ a) : rnd a s = (a + 2 ^ (s - 1)) >>> s := by
  rw [rnd, if_pos h, Int.shiftRight_eq_div_pow, Int.natCast_pow, Nat.cast_ofNat]

theorem rnd_of_neg {a : Int} (s : Nat) (h : a < 0) : rnd a s = -((-a + 2 ^ (s - 1)) >>> s) := by
  rw [rnd, if_neg (not_le.2 h), Int.shiftRight_eq_div_pow, Int.natCast_pow, Nat.cast_ofNat]

/-- Below zero rounding mirrors rounding above it, so halves go away from zero on both sides. -/
theorem rnd_eq_neg_rnd_neg {a : Int} (s : Nat) (h : a < 0) : rnd a s = -rnd (-a) s := by
  rw [rnd_of_neg s h, rnd_of_nonneg s (by omega)]

/-- Above zero: the half added before the division leaves a remainder between 0 and a unit, so the error is half a unit at most. -/
theorem rnd_error_of_nonneg {a : Int} {s : Nat} (hs : 0 < s) (h : 0 ≤ a) : 2 * |rnd a s * 2 ^ s - a| ≤ 2 ^ s := by
  have hunit : (2 : Int) ^ s = 2 * 2 ^ (s - 1) := by rw [← pow_succ', Nat.sub_add_cancel hs]
  have hpos : (0 : Int) < 2 ^ s := by positivity
  have hsplit := Int.mul_ediv_add_emod (a + 2 ^ (s - 1)) (2 ^ s)
  have hlow := Int.emod_nonneg (a + 2 ^ (s - 1)) hpos.ne'
  have hhigh := Int.emod_lt_of_pos (a + 2 ^ (s - 1)) hpos
  have herror : |rnd a s * 2 ^ s - a| ≤ 2 ^ (s - 1) := by
    rw [rnd, if_pos h, mul_comm, abs_le]
    constructor <;> linarith
  linarith

theorem rnd_error {s : Nat} (hs : 0 < s) (a : Int) : 2 * |rnd a s * 2 ^ s - a| ≤ 2 ^ s := by
  rcases le_or_gt 0 a with h | h
  · exact rnd_error_of_nonneg hs h
  · have hmirror : rnd a s * 2 ^ s - a = -(rnd (-a) s * 2 ^ s - -a) := by rw [rnd_eq_neg_rnd_neg s h]; ring
    rw [hmirror, abs_neg]
    exact rnd_error_of_nonneg hs (by omega)

/-! ### Saturation -/

/-- What `clampI` answers lies between its bounds, and no value between them is nearer to its argument. -/
theorem clampI_nearest {lo hi : Int} (hb : lo ≤ hi) (v : Int) :
    lo ≤ clampI lo hi v ∧ clampI lo hi v ≤ hi ∧ ∀ x : Int, lo ≤ x → x ≤ hi → |clampI lo hi v - v| ≤ |x - v| := by
  unfold clampI
  split_ifs with hlow hhigh
  · refine ⟨le_rfl, hb, fun x hx _ => ?_⟩
    rw [abs_of_nonneg (by omega), abs_of_nonneg (by omega)]
    omega
  · refine ⟨hb, le_rfl, fun x _ hx => ?_⟩
    rw [abs_of_nonpos (by omega), abs_of_nonpos (by omega)]
    omega
  · refine ⟨not_lt.1 hlow, not_lt.1 hhigh, fun x _ _ => ?_⟩
    rw [sub_self, abs_zero]
    exact abs_nonneg _

/-- Saturation to the raw range answers the value of that range nearest to the true one. -/
theorem sat32_nearest (v : Int) :
    -2 ^ 31 ≤ (sat32 v).1 ∧ (sat32 v).1 ≤ 2 ^ 31 - 1 ∧
      ∀ x : Int, -2 ^ 31 ≤ x → x ≤ 2 ^ 31 - 1 → |(sat32 v).1 - v| ≤ |x - v| :=
  clampI_nearest (by decide) v

/-! ### The obligation -/

/-- Settles O55: `rnd` is the spec's shift and errs by half a unit at most; a write-back and a scaled ADC sample are saturations of it. -/
theorem engineRoundsToNearest : Obligations.EngineRoundsToNearest :=
  ⟨fun a n hn => ⟨rnd_of_nonneg n, rnd_of_neg n, rnd_error hn a⟩, fun acc => sat32_nearest (rnd acc 7),
    fun o n j r => sat32_nearest (rnd (r * i32At (ceArray o n 9) j) 15)⟩

end Sys2Proof.Machine
end

section
/-! Forcing and release of the Pronghorn groups (R420, R422, R423, R426, R427): what an evaluation of the sources does to a group, how a
group is released, and the commands that force, hold and release one. -/
namespace Sys2Proof.Machine

/-! ### Words of bits, vectors, lists -/

theorem bitsOf_lt (n : Nat) (f : Nat → Bool) : bitsOf n f < 2 ^ n := by
  induction n with
  | zero => simp [bitsOf]
  | succ n ih =>
    have hbit : bitIf n (f n) ≤ 2 ^ n := by unfold bitIf; split <;> simp
    simp only [bitsOf, pow_succ]
    omega

/-- Bit `i` of a word built bit by bit. -/
theorem bitsOf_testBit {n i : Nat} (f : Nat → Bool) (h : i < n) : (bitsOf n f).testBit i = f i := by
  induction n with
  | zero => omega
  | succ n ih =>
    have hlt := bitsOf_lt n f
    have hsplit : bitsOf (n + 1) f = 2 ^ n * (if f n then 1 else 0) + bitsOf n f := by
      simp only [bitsOf, bitIf]
      split <;> simp [Nat.add_comm]
    rw [hsplit, Nat.testBit_two_pow_mul_add _ hlt]
    split
    · exact ih ‹_›
    · obtain rfl : i = n := by omega
      cases f i <;> simp

theorem clrBit_testBit_self (v i : Nat) : (clrBit v i).testBit i = false := by
  unfold clrBit
  split
  · rename_i h
    have hadd := Nat.testBit_two_pow_add_eq (v - 2 ^ i) i
    rw [Nat.add_sub_cancel' (Nat.ge_two_pow_of_testBit h), h] at hadd
    simpa using hadd.symm
  · rename_i h
    simpa using h

/-- A change that leaves an entry as it is leaves the vector. -/
theorem vmod_eq_self {α : Type} {n : Nat} [Inhabited α] {v : Vector α n} {i : Nat} {f : α → α} (h : f (vget v i) = vget v i) :
    vmod v i f = v := by
  rw [vmod, h]
  by_cases hi : i < n
  · ext j hj
    by_cases hij : i = j
    · subst hij; simp [vset, vget, hi]
    · simp [vset, hij]
  · exact vset_beyond v i _ (by omega)

/-- Where every change keeps `P` and keeps `Q`, and the change for one number of the list turns `P` into `Q`, the whole list does. -/
theorem forEach_establishes {α : Type} {P Q : Dev → Prop} {l : List α} {f : α → Dev → Dev} {a : α} {d : Dev} (ha : a ∈ l)
    (hP : ∀ b e, P e → P (f b e)) (hQ : ∀ b e, Q e → Q (f b e)) (hPQ : ∀ e, P e → Q (f a e)) (h : P d) : Q (forEach l f d) := by
  obtain ⟨front, back, rfl⟩ := List.append_of_mem ha
  have hfront : P (forEach front f d) := forEach_keeps (fun b _ e => hP b e) h
  have hback : Q (forEach back f (f a (forEach front f d))) := forEach_keeps (fun b _ e => hQ b e) (hPQ _ hfront)
  simpa [forEach] using hback

/-! ### The passing of time keeps the states of domains -/

theorem trackIdle_domState (o : Od) (d : Dev) (k : Nat) : (vget (trackIdle o d).doms k).state = (vget d.doms k).state :=
  forEach_keeps (P := fun e => (vget e.doms k).state = (vget d.doms k).state)
    (fun _ _ e he => vget_vmod_keeps (P := fun x : DomainCtl => x.state = (vget d.doms k).state) e.doms _ _ _ id he) rfl

theorem passTicks_domState (k : Nat) (s : State) (j : Nat) : (vget (passTicks k s).dev.doms j).state = (vget s.dev.doms j).state := by
  unfold passTicks
  split
  · rfl
  · exact trackIdle_domState _ _ _

@[simp] theorem upTo_isOn (due : Od → Dev → Option Instant) (s : State) (m : Domain) : (s.upTo due).dev.isOn m = s.dev.isOn m := by
  have hdoms (j : Nat) : (vget (s.upTo due).dev.doms j).state = (vget s.dev.doms j).state := by
    unfold State.upTo
    split
    · exact passTicks_domState _ _ _
    · rfl
  have hrails : (s.upTo due).dev.rails = s.dev.rails := (agreeButTime_fields (upTo_agrees due s)).1
  cases m <;> simp only [Dev.isOn, Dev.domState, hrails, hdoms]

@[simp] theorem upTo_pwm (due : Od → Dev → Option Instant) (s : State) : (s.upTo due).dev.pwm = s.dev.pwm := by
  simp only [agreeButTime_fields (upTo_agrees due s)]

@[simp] theorem upTo_deviceForcing (due : Od → Dev → Option Instant) (s : State) :
    deviceForcing (s.upTo due).dev = deviceForcing s.dev := by
  simp only [deviceForcing, upTo_isOn, agreeButTime_fields (upTo_agrees due s)]

@[simp] theorem upTo_safeStateOf (due : Od → Dev → Option Instant) (o : Od) (s : State) (g : Nat) :
    safeStateOf o (s.upTo due).dev g = safeStateOf o s.dev g := by simp only [safeStateOf, upTo_deviceForcing]

@[simp] theorem upTo_groupSources (due : Od → Dev → Option Instant) (o : Od) (s : State) (g : Nat) :
    groupSources o (s.upTo due).dev g = groupSources o s.dev g := by simp only [groupSources, upTo_pwm]

/-! ### Raised sources of a group (Table 18.2) -/

theorem mem_groupSources {o : Od} {d : Dev} {g i : Nat} :
    i ∈ groupSources o d g ↔ (i < 56 ∧ d.pwm.raised.testBit i = true) ∧ (odU o (0x4100 + i) 1).testBit g = true := by
  simp [groupSources, mem_setBits]

theorem groupSources_eq_nil {o : Od} {d : Dev} {g : Nat}
    (h : ∀ i < 56, d.pwm.raised.testBit i = true → (odU o (0x4100 + i) 1).testBit g = false) : groupSources o d g = [] := by
  refine List.eq_nil_iff_forall_not_mem.2 fun i hi => ?_
  obtain ⟨⟨hlt, hraised⟩, hmap⟩ := mem_groupSources.1 hi
  simp [h i hlt hraised] at hmap

/-- The list begins with the lowest raised source of the map. -/
theorem groupSources_eq_cons {o : Od} {d : Dev} {g i : Nat} (hi : i < 56) (hraised : d.pwm.raised.testBit i = true)
    (hmap : (odU o (0x4100 + i) 1).testBit g = true)
    (hlow : ∀ j < i, d.pwm.raised.testBit j = true → (odU o (0x4100 + j) 1).testBit g = false) :
    ∃ rest, groupSources o d g = i :: rest := by
  have hhead : (groupSources o d g).head? = some i := by
    rw [groupSources, setBits, List.filter_filter, List.head?_filter, List.find?_range_eq_some]
    refine ⟨by simp [hraised, hmap], List.mem_range.2 hi, fun j hj => ?_⟩
    by_cases hj' : d.pwm.raised.testBit j = true
    · simp [hlow j hj hj']
    · simp [hj']
  exact List.head?_eq_some_iff.1 hhead

/-! ### What a forcing does to a group (R423) -/

theorem axisEnter_pwm (o : Od) (n : Nat) (st : AxisState) (inh : Inhibit) (cause : Nat) (d : Dev) :
    (axisEnter o n st inh cause d).pwm = d.pwm := by simp [axisEnter]

theorem axisForced_pwm (o : Od) (n : Nat) (d : Dev) : (axisForced o n d).pwm = d.pwm := by
  unfold axisForced
  simp only []
  split
  · rfl
  · split
    · rfl
    · exact axisEnter_pwm _ _ _ _ _ _

theorem chopFault_pwm (o : Od) (leg kind : Nat) (d : Dev) : (chopFault o leg kind d).pwm = d.pwm := by simp [chopFault]

/-- A group once it is forced at `t` by `first`; a forced group stays as it is. -/
def latched (first t : Nat) (x : Group) : Group :=
  if x.forced then x else
    { x with forced := true, first := first, time := t, count := satInc x.count, ascOn := false, island := false, lowSince := none }

theorem latched_forced (first t : Nat) (x : Group) : (latched first t x).forced = true := by
  unfold latched
  split
  · assumption
  · rfl

/-- Of the PWM unit a forcing changes the pairs and its own group. -/
theorem forceGroup_pwm (o : Od) (g first : Nat) (d : Dev) :
    ∃ pairs, (forceGroup o g first d).pwm = { d.pwm with pairs := pairs, groups := vmod d.pwm.groups g (latched first d.clk.dt) } := by
  unfold forceGroup
  simp only []
  split
  · rename_i h
    exact ⟨d.pwm.pairs, by rw [vmod_eq_self (by simp [latched, h])]⟩
  · rename_i h
    have hlatch : vmod d.pwm.groups g (latched first d.clk.dt) = vset d.pwm.groups g { vget d.pwm.groups g with
        forced := true, first := first, time := d.clk.dt, count := satInc (vget d.pwm.groups g).count, ascOn := false,
        island := false, lowSince := none } := by simp [vmod, latched, h]
    rw [hlatch]
    refine ⟨(groupPairs o g).foldl (fun v q => vmod v q (pairStop d.clk.dt)) d.pwm.pairs, ?_⟩
    refine forEach_keeps (P := fun e => e.pwm = _) (fun _ _ e he => (chopFault_pwm _ _ _ e).trans he) ?_
    refine forEach_keeps (P := fun e => e.pwm = _) (fun _ _ e he => (axisForced_pwm _ _ e).trans he) ?_
    simp only [record_frame]

/-- A device once a group has met the first cause that forces it, where there is one. -/
def groupStruck (o : Od) (g : Nat) (d : Dev) : Dev :=
  match deviceForcing d with
  | some c => forceGroup o g c d
  | none => match groupSources o d g with
    | [] => d
    | i :: _ => forceGroup o g i d

/-- What an evaluation accounts for in a group beside its forcing. -/
def accounted (o : Od) (g : Nat) (d : Dev) (x : Group) : Group :=
  { x with
    ascOn := x.ascOn && (deviceForcing d).isNone
    island := x.island || (x.forced && (groupSources o d g).contains 55)
    lowSince := if (groupSources o d g).isEmpty then some (x.lowSince.getD d.clk.dt) else none }

theorem groupEvaluate_pwm (o : Od) (g : Nat) (d : Dev) : (groupEvaluate o g d).pwm =
    { (groupStruck o g d).pwm with groups := vmod (groupStruck o g d).pwm.groups g (accounted o g d) } := rfl

theorem groupStruck_cases (o : Od) (g : Nat) (d : Dev) :
    (∃ c, groupStruck o g d = forceGroup o g c d) ∨ groupStruck o g d = d ∧ groupSources o d g = [] := by
  unfold groupStruck
  split
  · exact .inl ⟨_, rfl⟩
  · split
    · exact .inr ⟨rfl, ‹_›⟩
    · exact .inl ⟨_, rfl⟩

/-- An evaluation changes the pairs and groups of the PWM unit alone: the pins' levels and the raised sources stay. -/
theorem groupEvaluate_levels (o : Od) (g : Nat) (d : Dev) :
    (groupEvaluate o g d).pwm.fltLevels = d.pwm.fltLevels ∧ (groupEvaluate o g d).pwm.raised = d.pwm.raised := by
  rw [groupEvaluate_pwm]
  obtain ⟨c, h⟩ | ⟨h, -⟩ := groupStruck_cases o g d
  · obtain ⟨pairs, hpwm⟩ := forceGroup_pwm o g c d
    simp only [h, hpwm, and_self]
  · simp only [h, and_self]

/-- What latching and accounting keep of a group, an evaluation of any group keeps. -/
theorem groupEvaluate_keeps {P : Group → Prop} {o : Od} {g k : Nat} {d : Dev} (hlatch : ∀ c t x, P x → P (latched c t x))
    (hacc : ∀ x, P x → P (accounted o g d x)) (h : P (vget d.pwm.groups k)) : P (vget (groupEvaluate o g d).pwm.groups k) := by
  rw [groupEvaluate_pwm]
  refine vget_vmod_keeps _ _ _ _ (hacc _) ?_
  obtain ⟨c, hs⟩ | ⟨hs, -⟩ := groupStruck_cases o g d
  · obtain ⟨pairs, hpwm⟩ := forceGroup_pwm o g c d
    rw [hs, hpwm]
    exact vget_vmod_keeps _ _ _ _ (hlatch _ _ _) h
  · rwa [hs]

/-- An evaluation forces a group that has a raised source. -/
theorem groupEvaluate_forces {o : Od} {g : Nat} {d : Dev} (hg : g < 10) (h : groupSources o d g ≠ []) :
    (vget (groupEvaluate o g d).pwm.groups g).forced = true := by
  rw [groupEvaluate_pwm]
  obtain ⟨c, hs⟩ | ⟨-, hnil⟩ := groupStruck_cases o g d
  · obtain ⟨pairs, hpwm⟩ := forceGroup_pwm o g c d
    simp only [hs, hpwm, accounted, vget_vmod_same _ _ _ hg, latched_forced]
  · exact absurd hnil h

/-! ### Pronghorn looks at its sources (R420) -/

/-- The device with the sources that are raised now. -/
def sourcesSeen (o : Od) (d : Dev) : Dev := { d with pwm := { d.pwm with raised := sourcesNow o d } }

theorem sourcesSeen_pwm (o : Od) (d : Dev) : (sourcesSeen o d).pwm = { d.pwm with raised := sourcesNow o d } := rfl

/-- The device once every group has been evaluated over them. -/
def groupsEvaluated (o : Od) (d : Dev) : Dev := forEach (List.range 10) (groupEvaluate o) (sourcesSeen o d)

/-- What the evaluation of each group keeps. -/
theorem groupsEvaluated_keeps {P : Dev → Prop} {o : Od} {d : Dev} (hev : ∀ g e, P e → P (groupEvaluate o g e)) (h : P (sourcesSeen o d)) :
    P (groupsEvaluated o d) := forEach_keeps (fun g _ => hev g) h

theorem pronghorn_eq {o : Od} {d : Dev} (h : d.isOn .drv = true) : pronghorn o d = sourcesSeen o (groupsEvaluated o d) := by
  simp [pronghorn, h, groupsEvaluated, sourcesSeen]

theorem pronghorn_groups {o : Od} {d : Dev} (h : d.isOn .drv = true) : (pronghorn o d).pwm.groups = (groupsEvaluated o d).pwm.groups := by
  rw [pronghorn_eq h, sourcesSeen_pwm]

/-- What latching and accounting keep of a group, Pronghorn keeps. -/
theorem pronghorn_keeps {P : Group → Prop} {o : Od} {k : Nat} {d : Dev} (hdrv : d.isOn .drv = true)
    (hlatch : ∀ c t x, P x → P (latched c t x)) (hacc : ∀ g e x, P x → P (accounted o g e x)) (h : P (vget d.pwm.groups k)) :
    P (vget (pronghorn o d).pwm.groups k) := by
  rw [pronghorn_groups hdrv]
  refine groupsEvaluated_keeps (P := fun e => P (vget e.pwm.groups k)) (fun g e => groupEvaluate_keeps hlatch (hacc g e)) ?_
  rwa [sourcesSeen_pwm]

theorem pronghorn_keeps_forced {o : Od} {k : Nat} {d : Dev} (hdrv : d.isOn .drv = true) (h : (vget d.pwm.groups k).forced = true) :
    (vget (pronghorn o d).pwm.groups k).forced = true :=
  pronghorn_keeps (P := fun x => x.forced = true) hdrv (fun c t x _ => latched_forced c t x) (fun _ _ _ hx => hx) h

/-- A group that was not forced has no channel held on once Pronghorn has forced it: ASC_DELAY is still to pass (R422). -/
theorem pronghorn_ascOff {o : Od} {k : Nat} {d : Dev} (hdrv : d.isOn .drv = true) (h : (vget d.pwm.groups k).forced = false)
    (hf : (vget (pronghorn o d).pwm.groups k).forced = true) : (vget (pronghorn o d).pwm.groups k).ascOn = false := by
  refine pronghorn_keeps (P := fun x => x.forced = true → x.ascOn = false) hdrv (fun c t x hx => ?_) (fun g e x hx hforced => ?_)
    (fun hforced => absurd hforced (by simp [h])) hf
  · unfold latched
    split
    · exact hx
    · exact fun _ => rfl
  · simp [accounted, hx hforced]

/-- A source raised now forces each group of its map (R423). -/
theorem pronghorn_forces {o : Od} {g i : Nat} {d : Dev} (hdrv : d.isOn .drv = true) (hg : g < 10) (hi : i < 56)
    (hs : sourceNow o d i = true) (hmap : (odU o (0x4100 + i) 1).testBit g = true) : (vget (pronghorn o d).pwm.groups g).forced = true := by
  rw [pronghorn_groups hdrv]
  refine forEach_establishes (P := fun e => e.pwm.raised.testBit i = true) (Q := fun e => (vget e.pwm.groups g).forced = true)
    (List.mem_range.2 hg) (fun b e he => ?_) (fun b e he => ?_) (fun e he => ?_) ?_
  · rwa [(groupEvaluate_levels o b e).2]
  · exact groupEvaluate_keeps (P := fun x => x.forced = true) (fun c t x _ => latched_forced c t x) (fun _ hx => hx) he
  · exact groupEvaluate_forces hg (List.ne_nil_of_mem (mem_groupSources.2 ⟨⟨hi, he⟩, hmap⟩))
  · rw [sourcesSeen_pwm, sourcesNow, bitsOf_testBit _ hi, hs]

/-- The bit of a fault pin in the raised sources: the pin is at its active level (Table 18.2). -/
theorem pronghorn_raised_pin {o : Od} {n : Nat} {d : Dev} (hdrv : d.isOn .drv = true) (hn : n < 16) :
    (pronghorn o d).pwm.raised.testBit n = (d.pwm.fltLevels.testBit n == (odU o (0x4100 + n) 2).testBit 0) := by
  have hlevels : (groupsEvaluated o d).pwm.fltLevels = d.pwm.fltLevels :=
    groupsEvaluated_keeps (P := fun e => e.pwm.fltLevels = d.pwm.fltLevels) (fun g e he => (groupEvaluate_levels o g e).1.trans he) rfl
  rw [pronghorn_eq hdrv, sourcesSeen_pwm]
  simp only [sourcesNow, bitsOf_testBit _ (show n < 56 by omega), sourceNow, hn, if_true, hlevels]

/-! ### A fault pin changes its level (R420, R423) -/

/-- The device with the level of a fault pin after its filter. -/
def pinSeen (o : Od) (n : Nat) (active : Bool) (d : Dev) : Dev :=
  { d with pwm := { d.pwm with fltLevels :=
    if (odU o (0x4100 + n) 2).testBit 0 == active then setBit d.pwm.fltLevels n else clrBit d.pwm.fltLevels n } }

theorem faultPin_eq (o : Od) (n : Nat) (active : Bool) (d : Dev) : faultPin o n active d = pronghorn o (pinSeen o n active d) := rfl

theorem pinSeen_isOn (o : Od) (n : Nat) (active : Bool) (d : Dev) (m : Domain) : (pinSeen o n active d).isOn m = d.isOn m := rfl

theorem pinSeen_groups (o : Od) (n : Nat) (active : Bool) (d : Dev) : (pinSeen o n active d).pwm.groups = d.pwm.groups := rfl

theorem pinSeen_active (o : Od) (n : Nat) (active : Bool) (d : Dev) :
    ((pinSeen o n active d).pwm.fltLevels.testBit n == (odU o (0x4100 + n) 2).testBit 0) = active := by
  unfold pinSeen
  cases hbit : (odU o (0x4100 + n) 2).testBit 0 <;> cases active <;> simp [clrBit_testBit_self]

theorem faultPin_raised {o : Od} {n : Nat} {active : Bool} {d : Dev} (hdrv : d.isOn .drv = true) (hn : n < 16) :
    (faultPin o n active d).pwm.raised.testBit n = active := by
  rw [faultPin_eq, pronghorn_raised_pin ((pinSeen_isOn ..).trans hdrv) hn, pinSeen_active]

theorem faultPin_keeps_forced {o : Od} {n g : Nat} {active : Bool} {d : Dev} (hdrv : d.isOn .drv = true)
    (h : (vget d.pwm.groups g).forced = true) : (vget (faultPin o n active d).pwm.groups g).forced = true := by
  rw [faultPin_eq]
  exact pronghorn_keeps_forced ((pinSeen_isOn ..).trans hdrv) (by rwa [pinSeen_groups])

/-- The active level of a fault pin forces each group of its map. -/
theorem faultPin_forces {o : Od} {n g : Nat} {d : Dev} (hdrv : d.isOn .drv = true) (hn : n < 16) (hg : g < 10)
    (hmap : (odU o (0x4100 + n) 1).testBit g = true) : (vget (faultPin o n true d).pwm.groups g).forced = true := by
  have hsource : sourceNow o (pinSeen o n true d) n = true := by simp only [sourceNow, hn, if_true, pinSeen_active]
  rw [faultPin_eq]
  exact pronghorn_forces ((pinSeen_isOn ..).trans hdrv) hg (by omega) hsource hmap

theorem faultPin_ascOff {o : Od} {n g : Nat} {active : Bool} {d : Dev} (hdrv : d.isOn .drv = true)
    (h : (vget d.pwm.groups g).forced = false) (hf : (vget (faultPin o n active d).pwm.groups g).forced = true) :
    (vget (faultPin o n active d).pwm.groups g).ascOn = false := by
  rw [faultPin_eq] at hf ⊢
  exact pronghorn_ascOff ((pinSeen_isOn ..).trans hdrv) (by rwa [pinSeen_groups]) hf

/-- A channel of a forced group is off while its on channels are not held on (R422). -/
theorem pwmPin_forced_off {o : Od} {d : Dev} {g c : Nat} (hc : groupOfChannel o c = some g) (hf : (vget d.pwm.groups g).forced = true)
    (hasc : (vget d.pwm.groups g).ascOn = false) : pwmPin o d c = false := by
  unfold pwmPin
  simp only [hc, hf, hasc, Bool.and_false, if_true]
  split
  · rfl
  · split <;> rfl

theorem exec_faultPinEdge (n : Fin 16) (s : State) :
    exec (.faultPinEdge n) s = .next { s with dev := faultPin s.od n.val true s.dev } := rfl

theorem exec_faultPinInactive (n : Fin 16) (s : State) :
    exec (.faultPinInactive n) s = .next { s with dev := faultPin s.od n.val false s.dev } := rfl

theorem faultPinEdge_completes {n : Fin 16} {g : Fin 10} {s : State} (hdrv : s.dev.isOn .drv = true)
    (hmap : (odU s.od (0x4100 + n.val) 1).testBit g.val = true) :
    Completes (.faultPinEdge n) s (fun u => u.od = s.od ∧ u.dev.pwm.raised.testBit n.val = true ∧
      (vget u.dev.pwm.groups g.val).forced = true ∧
      ((vget s.dev.pwm.groups g.val).forced = false →
        ∀ c : Fin 40, groupOfChannel s.od c.val = some g.val → pwmPin u.od u.dev c.val = false)) := by
  have hforced := faultPin_forces hdrv n.isLt g.isLt hmap
  exact ⟨_, exec_faultPinEdge n s, rfl, faultPin_raised hdrv n.isLt, hforced,
    fun hfree _ hc => pwmPin_forced_off hc hforced (faultPin_ascOff hdrv hfree hforced)⟩

theorem faultPinInactive_completes {n : Fin 16} {g : Fin 10} {s : State} (hdrv : s.dev.isOn .drv = true) :
    Completes (.faultPinInactive n) s (fun u => u.od = s.od ∧ u.dev.pwm.raised.testBit n.val = false ∧
      ((vget s.dev.pwm.groups g.val).forced = true → (vget u.dev.pwm.groups g.val).forced = true)) :=
  ⟨_, exec_faultPinInactive n s, rfl, faultPin_raised hdrv n.isLt, faultPin_keeps_forced hdrv⟩

/-! ### ASC_DELAY (R422) -/

/-- The instant that ASC_DELAY_EXPIRY of a group stands for. -/
def ascDue (g : Nat) (o : Od) (d : Dev) : Option Instant :=
  instantIf (d.isOn .drv && (vget d.pwm.groups g).forced && !(vget d.pwm.groups g).ascOn && safeStateOf o d g != 0)
    (.device ((vget d.pwm.groups g).time + 80 * odU o (0x4180 + g) 3))

theorem exec_ascDelayExpiry (g : Fin 10) (s : State) :
    exec (.ascDelayExpiry g) s = timed (ascDue g.val) (ascDelayExpiry · g.val) s := rfl

theorem ascDelayExpiry_over {o : Od} {g : Nat} {d : Dev} (hdrv : d.isOn .drv = true) (hf : (vget d.pwm.groups g).forced = true)
    (hss : safeStateOf o d g ≠ 0) (hover : (vget d.pwm.groups g).time + 80 * odU o (0x4180 + g) 3 ≤ d.clk.dt) :
    ascDelayExpiry o g d = { d with pwm := { d.pwm with groups := vset d.pwm.groups g { vget d.pwm.groups g with ascOn := true } } } := by
  simp [ascDelayExpiry, hdrv, hf, hss, hover]

theorem ascDelayExpiry_completes {g : Fin 10} {s : State} (hdrv : s.dev.isOn .drv = true)
    (hf : (vget s.dev.pwm.groups g.val).forced = true) (hasc : (vget s.dev.pwm.groups g.val).ascOn = false)
    (hss : safeStateOf s.od s.dev g.val ≠ 0) (hcount : s.dev.clk.counting = true) :
    Completes (.ascDelayExpiry g) s (fun u => (vget u.dev.pwm.groups g.val).ascOn = true ∧
      (vget s.dev.pwm.groups g.val).time + 80 * odU s.od (0x4180 + g.val) 3 ≤ u.dev.clk.dt ∧ u.od = s.od) := by
  have hdue : ascDue g.val s.od s.dev = some (.device ((vget s.dev.pwm.groups g.val).time + 80 * odU s.od (0x4180 + g.val) 3)) := by
    simp [ascDue, instantIf, hdrv, hf, hasc, hss]
  have hover := le_dt_upTo hdue hcount
  refine ⟨_, exec_ascDelayExpiry g s, ?_⟩
  dsimp only
  rw [ascDelayExpiry_over (by simpa using hdrv) (by simpa using hf) (by simpa using hss) (by simpa using hover)]
  exact ⟨by simp, hover, upTo_od _ s⟩

/-! ### A release (R426, R428) -/

/-- A release ends the forcing of its group; a release by the host ends its exhaustion too. -/
theorem releaseGroup_releases {o : Od} {g how : Nat} {d : Dev} (hg : g < 10) :
    (vget (releaseGroup o g how d).pwm.groups g).forced = false ∧ (vget (releaseGroup o g how d).pwm.groups g).exhausted =
      (if how = 1 then false else (vget d.pwm.groups g).exhausted) := by
  simp [releaseGroup, hg]

/-- An inserted entry is in the list. -/
theorem mem_insertBy {α : Type} (before : α → α → Bool) (a : α) (l : List α) : a ∈ insertBy before a l := by
  induction l with
  | nil => simp [insertBy]
  | cons b l ih =>
    unfold insertBy
    split
    · simp
    · simp [ih]

/-- An event numbered now ends the log. -/
theorem number_logs (o : Od) (late : Bool) (e : Event) (d : Dev) : ∃ r ∈ (number o late e d).seqr.log, r.ev = e := by
  refine ⟨{ ev := e, seq := d.seqr.next, late := late }, ?_, rfl⟩
  have hkept : d.seqr.log.length + 1 - 32768 ≤ d.seqr.log.length := by omega
  simp only [number, newest, List.length_append, List.length_singleton, List.drop_append_of_le_length hkept]
  exact List.mem_append_right _ (List.mem_singleton_self _)

/-- An event that reaches the sequencer is held or numbered (R67, R68). -/
theorem arrive_keeps_event (o : Od) (e : Event) (d : Dev) :
    e ∈ (arrive o e d).seqr.held ∨ ∃ r ∈ (arrive o e d).seqr.log, r.ev = e := by
  unfold arrive
  split
  · exact .inr (number_logs _ _ _ _)
  · split
    · exact .inr (number_logs _ _ _ _)
    · simp only []
      split
      · exact .inl (mem_insertBy _ _ _)
      · exact .inr (number_logs _ _ _ _)

/-- An event recorded while SEC is ON has reached the sequencer. -/
theorem record_eventNow {o : Od} {code source : Nat} {data : Bytes} {d : Dev} (h : d.isOn .sec = true) :
    eventNow code source (record o code source data d) := by
  have harrive := arrive_keeps_event o { time := d.clk.stamp, code := code, source := source, data := padTo 16 data } d
  have hclk : (record o code source data d).clk = d.clk := by simp
  unfold eventNow
  rw [hclk]
  simp only [record, recordAt, h, if_true]
  obtain hheld | ⟨r, hlog, hr⟩ := harrive
  · exact .inl ⟨_, hheld, rfl, rfl, rfl⟩
  · exact .inr ⟨r, hlog, by simp [hr]⟩

theorem releaseGroup_eventNow {o : Od} {g how : Nat} {d : Dev} (h : d.isOn .sec = true) :
    eventNow 0x3002 (0x320 + g) (releaseGroup o g how d) := record_eventNow h

/-! ### GROUP_RELEASE (R426) -/

theorem writeEffect_groupRelease (g : Fin 10) (session : Option Nat) (s : State) :
    writeEffect session (0x4180 + g.val) 8 (toLE 4 0x65736C72) s = groupReleaseWrite g.val s := by fin_cases g <;> rfl

/-- The write that no reason of R426 refuses releases the group. -/
theorem groupReleaseWrite_releases {g : Nat} {s : State} (hsrc : groupSources s.od s.dev g = []) (hdev : (deviceForcing s.dev).isSome = false)
    (hf : (vget s.dev.pwm.groups g).forced = true) : groupReleaseWrite g s = wrote (s.act (fun o d => releaseGroup o g 1 d)) := by
  simp [groupReleaseWrite, hsrc, hdev, hf]

/-- The one effect that an accepted write of the release can have. -/
theorem groupReleaseWrite_accepted {g : Nat} {s u : State} (h : groupReleaseWrite g s = (none, u)) :
    u = s.act (fun o d => releaseGroup o g 1 d) := by
  unfold groupReleaseWrite at h
  split at h
  · cases h
  · split_ifs at h
    · cases h
    · cases h
    · exact (congrArg Prod.snd h).symm

/-- A release that a reason of R426 refuses: the abort, and nothing but the communication changes. -/
theorem groupRelease_refused {via : Via} {g : Fin 10} {s t : State} {n detail : Nat}
    (h : writeSeen via (0x4180 + g.val) 8 (toLE 4 0x65736C72) s = some (n, t))
    (hc : writeCheck t (some n) (0x4180 + g.val) 8 (toLE 4 0x65736C72) = none) (hr : groupReleaseWrite g.val t = refuse detail t) :
    Completes (.groupRelease via g) s (fun u => abortedWith n 0x08000022 detail u.dev ∧ u.od = t.od ∧ agreeButCom u.dev t.dev) := by
  refine ⟨_, rfl, hostWrite_refused (by omega) (by decide) (by simp) (by omega) (by omega) h ?_⟩
  rw [writeObject_checked hc, writeEffect_groupRelease, hr]

/-- A change of the communication alone leaves the PWM unit, the clock and the sequencer. -/
theorem agreeButCom_pwm {a d : Dev} (h : agreeButCom a d) : a.pwm = d.pwm ∧ a.clk = d.clk ∧ a.seqr = d.seqr := by
  unfold agreeButCom at h
  rw [← h]
  exact ⟨rfl, rfl, rfl⟩

/-- A release that nothing refuses ends the forcing and the exhaustion of its group, and is recorded while SEC is ON. -/
theorem groupRelease_releases {via : Via} {g : Fin 10} {s t : State} {n : Nat}
    (h : writeSeen via (0x4180 + g.val) 8 (toLE 4 0x65736C72) s = some (n, t))
    (hc : writeCheck t (some n) (0x4180 + g.val) 8 (toLE 4 0x65736C72) = none)
    (hw : groupReleaseWrite g.val t = wrote (t.act (fun o d => releaseGroup o g.val 1 d))) :
    Completes (.groupRelease via g) s (fun u => (vget u.dev.pwm.groups g.val).forced = false ∧
      (vget u.dev.pwm.groups g.val).exhausted = false ∧ (t.dev.isOn .sec = true → eventNow 0x3002 (0x320 + g.val) u.dev) ∧ u.od = s.od) := by
  have hseen := hostWrite_seen (by omega) (by decide) (by simp) (by omega) (by omega) h
  rw [writeObject_checked hc, writeEffect_groupRelease, hw] at hseen
  obtain ⟨hod, hdev⟩ := hseen
  obtain ⟨hpwm, hclk, hseqr⟩ := agreeButCom_pwm hdev
  obtain ⟨hforced, hexhausted⟩ := releaseGroup_releases (o := t.od) (how := 1) (d := t.dev) g.isLt
  refine ⟨_, rfl, hpwm ▸ hforced, hpwm ▸ hexhausted, fun hsec => ?_, hod.trans (writeSeen_executesFrom h).od⟩
  have hevent := releaseGroup_eventNow (o := t.od) (g := g.val) (how := 1) hsec
  unfold eventNow at hevent ⊢
  dsimp only
  rwa [hclk, hseqr]

theorem groupRelease_completes {via : Via} {g : Fin 10} {s : State}
    (h : accepted via (0x4180 + g.val) 8 (toLE 4 0x65736C72) s = true) :
    Completes (.groupRelease via g) s (fun u => (vget u.dev.pwm.groups g.val).forced = false ∧
      (vget u.dev.pwm.groups g.val).exhausted = false ∧ u.od = s.od) := by
  obtain ⟨n, t, u, hseen, hcheck, heffect, -, -⟩ := hostWrite_accepted (by omega) (by decide) (by simp) (by omega) (by omega) h
  rw [writeEffect_groupRelease] at heffect
  obtain ⟨v, hv, hforced, hexhausted, -, hod⟩ :=
    groupRelease_releases hseen hcheck (by rw [heffect, groupReleaseWrite_accepted heffect, wrote])
  exact ⟨v, hv, hforced, hexhausted, hod⟩

theorem groupReleaseWrite_source {g i : Nat} {s : State} {rest : List Nat} (h : groupSources s.od s.dev g = i :: rest) :
    groupReleaseWrite g s = refuse (0x30030000 + i) s := by simp only [groupReleaseWrite, h]

theorem groupReleaseWrite_device {g : Nat} {s : State} (hsrc : groupSources s.od s.dev g = []) (h : (deviceForcing s.dev).isSome = true) :
    groupReleaseWrite g s = refuse 0x30040000 s := by simp only [groupReleaseWrite, hsrc, h, if_true]

theorem groupReleaseWrite_unforced {g : Nat} {s : State} (hsrc : groupSources s.od s.dev g = []) (hdev : (deviceForcing s.dev).isSome = false)
    (h : (vget s.dev.pwm.groups g).forced = false) : groupReleaseWrite g s = refuse (0x30080000 + g) s := by
  simp [groupReleaseWrite, hsrc, hdev, h]

/-! ### An automatic release (R427) -/

/-- The instant that AUTO_RELEASE of a group stands for. -/
def autoDue (g : Nat) (o : Od) (d : Dev) : Option Instant :=
  if (vget d.pwm.groups g).forced && odU o (0x4180 + g) 4 == 1 then
    (vget d.pwm.groups g).lowSince.map (fun t => .device (t + msT (odU o (0x4180 + g) 5)))
  else none

theorem exec_autoRelease (g : Fin 10) (s : State) : exec (.autoRelease g) s = timed (autoDue g.val) (autoRelease · g.val) s := rfl

/-- A group that an automatic release is open to at this instant: forced under RELEASE_MODE 0x01, neither exhausted nor latched by source 55,
no device forcing, and its sources low for AUTO_DELAY. -/
structure AutoReady (o : Od) (g : Nat) (d : Dev) : Prop where
  drv : d.isOn .drv = true
  forced : (vget d.pwm.groups g).forced = true
  mode : odU o (0x4180 + g) 4 = 1
  fresh : (vget d.pwm.groups g).exhausted = false
  noIsland : (vget d.pwm.groups g).island = false
  noDevice : deviceForcing d = none
  noSource : groupSources o d g = []
  quiet : ∃ t, (vget d.pwm.groups g).lowSince = some t ∧ t + msT (odU o (0x4180 + g) 5) ≤ d.clk.dt

/-- A ready group is released while its window has releases left, and else marked exhausted. -/
theorem autoRelease_outcome {o : Od} {g : Nat} {d : Dev} (hg : g < 10) (h : AutoReady o g d) :
    (0 < autosLeft o d g → (vget (autoRelease o g d).pwm.groups g).forced = false) ∧
    (autosLeft o d g = 0 → (vget (autoRelease o g d).pwm.groups g).forced = true ∧ (vget (autoRelease o g d).pwm.groups g).exhausted = true) := by
  obtain ⟨t, hlow, hover⟩ := h.quiet
  simp only [autoRelease, h.drv, h.forced, h.mode, h.fresh, h.noIsland, h.noDevice, h.noSource, hlow, hover,
    Bool.not_true, bne_self_eq_false, Bool.or_self, Option.isSome_none, List.isEmpty_nil, decide_true, Bool.false_eq_true, if_false]
  refine ⟨fun hleft => ?_, fun hnone => ?_⟩
  · rw [if_pos hleft]
    exact (releaseGroup_releases hg).1
  · rw [if_neg (by omega)]
    simp [hg]

/-- The wait for an automatic release makes its group ready. -/
theorem autoReady_upTo {g : Nat} {s : State} (hdrv : s.dev.isOn .drv = true) (hf : (vget s.dev.pwm.groups g).forced = true)
    (hmode : odU s.od (0x4180 + g) 4 = 1) (hfresh : (vget s.dev.pwm.groups g).exhausted = false)
    (hisland : (vget s.dev.pwm.groups g).island = false) (hdevice : deviceForcing s.dev = none) (hsrc : groupSources s.od s.dev g = [])
    (hlow : (vget s.dev.pwm.groups g).lowSince.isSome = true) (hcount : s.dev.clk.counting = true) :
    AutoReady s.od g (s.upTo (autoDue g)).dev := by
  obtain ⟨t, ht⟩ := Option.isSome_iff_exists.1 hlow
  have hdue : autoDue g s.od s.dev = some (.device (t + msT (odU s.od (0x4180 + g) 5))) := by simp [autoDue, hf, hmode, ht]
  exact {
    drv := by rwa [upTo_isOn]
    forced := by rwa [upTo_pwm]
    mode := hmode
    fresh := by rwa [upTo_pwm]
    noIsland := by rwa [upTo_pwm]
    noDevice := by rwa [upTo_deviceForcing]
    noSource := by rwa [upTo_groupSources]
    quiet := ⟨t, by rwa [upTo_pwm], le_dt_upTo hdue hcount⟩ }

/-! ### The obligation -/

/-- Settles O48: a fault pin's clauses are what Pronghorn's evaluation does to a group, the refusals follow the order of R426, and the two
timed clauses are the effect once the wait has ended. -/
theorem pronghornForcesAndReleases : Obligations.PronghornForcesAndReleases := by
  refine ⟨fun _ _ _ => faultPinEdge_completes, fun _ _ _ => faultPinInactive_completes, fun _ _ => ascDelayExpiry_completes,
    fun _ _ _ => groupRelease_completes, fun via g s t n hs hc => ⟨fun i hraised hmap hlow => ?_, fun hlow => ?_⟩,
    fun g s hdrv hf hmode hfresh hisland hdevice hsrc hlow hcount => ?_⟩
  · obtain ⟨rest, hrest⟩ := groupSources_eq_cons i.isLt hraised hmap hlow
    exact groupRelease_refused hs hc (groupReleaseWrite_source hrest)
  · have hsrc := groupSources_eq_nil hlow
    refine ⟨fun hdev => groupRelease_refused hs hc (groupReleaseWrite_device hsrc hdev),
      fun hdev hf => groupRelease_refused hs hc (groupReleaseWrite_unforced hsrc hdev hf), fun hdev hf hsec => ?_⟩
    obtain ⟨u, hu, hforced, -, hevent, hod⟩ := groupRelease_releases hs hc (groupReleaseWrite_releases hsrc hdev hf)
    exact ⟨u, hu, hforced, hevent hsec, hod.trans (writeSeen_executesFrom hs).od.symm⟩
  · have hready := autoReady_upTo hdrv hf hmode hfresh hisland hdevice hsrc hlow hcount
    have hout := autoRelease_outcome g.isLt hready
    refine ⟨_, exec_autoRelease g s, upTo_od _ s, ?_⟩
    dsimp only
    rw [upTo_od]
    exact hout

end Sys2Proof.Machine
end

section
/-! What a step is, what reset leaves, and a command that touches a unit that its description does not name (O54, O56, O60). -/
namespace Sys2Proof.Machine

/-! ### Steps -/

/-- Every command answers a next state with the waiting commands as they were. -/
theorem exec_next (c : Instr) (s : State) : ∃ t, exec c s = .next t ∧ t.pending = s.pending := by
  cases c <;> exact ⟨_, rfl, by simp⟩

/-- Settles O54: `exec` has an arm with a next state for each command, and `step` is `exec` or one tick. -/
theorem stepRunsTheFrontCommand : Obligations.StepRunsTheFrontCommand := by
  refine ⟨fun c rest s h => by rw [step, h], exec_next, fun s h => ⟨by rw [step, h], ?_, passTicks_od 1 s, (passTicks_pending 1 s).trans h⟩⟩
  exact passTicks_clock.1

/-! ### Reset -/

/-- Settles O56: `State.reset` is a concrete state. -/
theorem resetLeavesTheDeviceInReset : Obligations.ResetLeavesTheDeviceInReset := by
  refine ⟨⟨by decide, by decide⟩, rfl, rfl, rfl, rfl, rfl, rfl, by decide, fun c => ?_, by decide⟩
  rw [getCell, show State.reset.dev.lcl.cells = Vector.replicate 128 {} from rfl, vget, Vector.getElem?_replicate]
  split <;> rfl

/-! ### The frame of the temperature cycle -/

/-- MEAS alone is ON, VDRV has been lost, and the AMS die has read hot in one cycle. -/
def hotMeasAlone : State := { dev := {
  doms := vset (Vector.replicate 8 {}) 6 { state := .on }
  rails := { ok := vset (Vector.replicate 9 true) 8 false, lost := vset (Vector.replicate 9 false) 8 true }
  aon := { reset := { supEn := true } }
  clk := { counting := true, dt := 80000, run := 80000 }
  meas := { dies := vset (Vector.replicate 3 {}) 1 { hot := 1 } } } }

/-- The second hot cycle takes MEAS, the last domain, OFF: SUP_EN goes low, and no rail counts as lost any more (R99, R109, R141). -/
theorem hotMeasAlone_forgets_lost_rail : ∃ t, exec (.temperatureCycle (List.replicate 12 1700)) hotMeasAlone = .next t ∧
    vget t.dev.rails.lost 8 = false := by
  refine ⟨_, rfl, ?_⟩
  decide +kernel

/-- Refutes O60: a thermal shutdown that ends in standby clears the lost rails, while `touched` lists no rails for a temperature cycle. -/
theorem not_commandsTouchTheirUnits : ¬ Obligations.CommandsTouchTheirUnits := by
  intro h
  obtain ⟨t, ht, hlost⟩ := hotMeasAlone_forgets_lost_rail
  have hrails : hotMeasAlone.dev.rails = t.dev.rails := h _ _ _ .rails ht rfl
  rw [← hrails] at hlost
  exact absurd hlost (by decide)

end Sys2Proof.Machine
end

section
/-! Frames. `p.of d` is what the device holds in the unit `p`; for each function of the model that changes a device, `f_leaves` says
which units it may change: every other unit it leaves. The lemmas stand in the order in which the functions use each other, so that each
follows from those of the functions it calls. -/
namespace Sys2Proof.Machine

/-! ### The units of a device -/

/-- What a unit of the device holds; the objects are no unit of it. -/
@[reducible] def Part.Ty : Part → Type
  | .clk => Clock | .doms => Vector DomainCtl 8 | .rails => Rails | .aon => Aon | .sched => Sched | .seqr => Sequencer
  | .breach => Breach | .meas => Meas | .time => Time | .sec => Sec | .nv => Nv | .prot => Prot | .lcl => Lcl | .stack => Stack
  | .ledger => Ledger | .mram => Vector Checkpoint 16 | .engine => Engine | .acq => Acq | .pwm => Pwm | .bridges => Vector Bridge 6
  | .axes => Vector Axis 6 | .ladder => Ladder | .isl => Island | .hvLatched => Bool | .com => Com | .out => List Output | .free => Nat
  | .objects => Unit

/-- The unit `p` of a device. -/
def Part.of : (p : Part) → Dev → p.Ty
  | .clk, d => d.clk | .doms, d => d.doms | .rails, d => d.rails | .aon, d => d.aon | .sched, d => d.sched | .seqr, d => d.seqr
  | .breach, d => d.breach | .meas, d => d.meas | .time, d => d.time | .sec, d => d.sec | .nv, d => d.nv | .prot, d => d.prot
  | .lcl, d => d.lcl | .stack, d => d.stack | .ledger, d => d.ledger | .mram, d => d.mram | .engine, d => d.engine | .acq, d => d.acq
  | .pwm, d => d.pwm | .bridges, d => d.bridges | .axes, d => d.axes | .ladder, d => d.ladder | .isl, d => d.isl
  | .hvLatched, d => d.hvLatched | .com, d => d.com | .out, d => d.out | .free, d => d.free | .objects, _ => ()


variable {p : Part}

@[simp] theorem forEach_leaves {α : Type} {f : α → Dev → Dev} (hf : ∀ a e, p.of (f a e) = p.of e) (l : List α) (d : Dev) :
    p.of (forEach l f d) = p.of d := by
  unfold forEach
  induction l generalizing d with
  | nil => rfl
  | cons a l ih => exact (ih _).trans (hf a d)

@[simp] theorem foldl_leaves {α : Type} {f : Dev → α → Dev} (hf : ∀ a e, p.of (f e a) = p.of e) (l : List α) (d : Dev) :
    p.of (l.foldl f d) = p.of d := forEach_leaves (f := fun a e => f e a) hf l d

@[simp] theorem foldl_state_leaves {α : Type} {f : State → α → State} (hf : ∀ a s, p.of (f s a).dev = p.of s.dev) (l : List α) (s : State) :
    p.of (l.foldl f s).dev = p.of s.dev := by
  induction l generalizing s with
  | nil => rfl
  | cons a l ih => exact (ih _).trans (hf a s)

@[simp] theorem of_ite (c : Prop) [Decidable c] (a b : Dev) : p.of (if c then a else b) = if c then p.of a else p.of b := apply_ite _ _ _ _

@[simp] theorem of_ite_state (c : Prop) [Decidable c] (a b : State) :
    p.of (if c then a else b).dev = if c then p.of a.dev else p.of b.dev := apply_ite (fun s : State => p.of s.dev) _ _ _

@[simp] theorem of_ite_wrote (c : Prop) [Decidable c] (a b : Wrote) :
    p.of (if c then a else b).2.dev = if c then p.of a.2.dev else p.of b.2.dev := apply_ite (fun s : Wrote => p.of s.2.dev) _ _ _

/-! ### A change of some units leaves the others -/

@[simp] theorem of_clk (h : p ≠ .clk) (d : Dev) (x0 : Clock) :
    p.of { d with clk := x0 } = p.of d := by
  cases p <;> simp at h <;> rfl
@[simp] theorem of_doms (h : p ≠ .doms) (d : Dev) (x0 : Vector DomainCtl 8) :
    p.of { d with doms := x0 } = p.of d := by
  cases p <;> simp at h <;> rfl
@[simp] theorem of_rails (h : p ≠ .rails) (d : Dev) (x0 : Rails) :
    p.of { d with rails := x0 } = p.of d := by
  cases p <;> simp at h <;> rfl
@[simp] theorem of_aon (h : p ≠ .aon) (d : Dev) (x0 : Aon) :
    p.of { d with aon := x0 } = p.of d := by
  cases p <;> simp at h <;> rfl
@[simp] theorem of_seqr (h : p ≠ .seqr) (d : Dev) (x0 : Sequencer) :
    p.of { d with seqr := x0 } = p.of d := by
  cases p <;> simp at h <;> rfl
@[simp] theorem of_breach (h : p ≠ .breach) (d : Dev) (x0 : Breach) :
    p.of { d with breach := x0 } = p.of d := by
  cases p <;> simp at h <;> rfl
@[simp] theorem of_meas (h : p ≠ .meas) (d : Dev) (x0 : Meas) :
    p.of { d with meas := x0 } = p.of d := by
  cases p <;> simp at h <;> rfl
@[simp] theorem of_time (h : p ≠ .time) (d : Dev) (x0 : Time) :
    p.of { d with time := x0 } = p.of d := by
  cases p <;> simp at h <;> rfl
@[simp] theorem of_sec (h : p ≠ .sec) (d : Dev) (x0 : Sec) :
    p.of { d with sec := x0 } = p.of d := by
  cases p <;> simp at h <;> rfl
@[simp] theorem of_nv (h : p ≠ .nv) (d : Dev) (x0 : Nv) :
    p.of { d with nv := x0 } = p.of d := by
  cases p <;> simp at h <;> rfl
@[simp] theorem of_prot (h : p ≠ .prot) (d : Dev) (x0 : Prot) :
    p.of { d with prot := x0 } = p.of d := by
  cases p <;> simp at h <;> rfl
@[simp] theorem of_lcl (h : p ≠ .lcl) (d : Dev) (x0 : Lcl) :
    p.of { d with lcl := x0 } = p.of d := by
  cases p <;> simp at h <;> rfl
@[simp] theorem of_stack (h : p ≠ .stack) (d : Dev) (x0 : Stack) :
    p.of { d with stack := x0 } = p.of d := by
  cases p <;> simp at h <;> rfl
@[simp] theorem of_ledger (h : p ≠ .ledger) (d : Dev) (x0 : Ledger) :
    p.of { d with ledger := x0 } = p.of d := by
  cases p <;> simp at h <;> rfl
@[simp] theorem of_mram (h : p ≠ .mram) (d : Dev) (x0 : Vector Checkpoint 16) :
    p.of { d with mram := x0 } = p.of d := by
  cases p <;> simp at h <;> rfl
@[simp] theorem of_engine (h : p ≠ .engine) (d : Dev) (x0 : Engine) :
    p.of { d with engine := x0 } = p.of d := by
  cases p <;> simp at h <;> rfl
@[simp] theorem of_acq (h : p ≠ .acq) (d : Dev) (x0 : Acq) :
    p.of { d with acq := x0 } = p.of d := by
  cases p <;> simp at h <;> rfl
@[simp] theorem of_pwm (h : p ≠ .pwm) (d : Dev) (x0 : Pwm) :
    p.of { d with pwm := x0 } = p.of d := by
  cases p <;> simp at h <;> rfl
@[simp] theorem of_bridges (h : p ≠ .bridges) (d : Dev) (x0 : Vector Bridge 6) :
    p.of { d with bridges := x0 } = p.of d := by
  cases p <;> simp at h <;> rfl
@[simp] theorem of_axes (h : p ≠ .axes) (d : Dev) (x0 : Vector Axis 6) :
    p.of { d with axes := x0 } = p.of d := by
  cases p <;> simp at h <;> rfl
@[simp] theorem of_ladder (h : p ≠ .ladder) (d : Dev) (x0 : Ladder) :
    p.of { d with ladder := x0 } = p.of d := by
  cases p <;> simp at h <;> rfl
@[simp] theorem of_isl (h : p ≠ .isl) (d : Dev) (x0 : Island) :
    p.of { d with isl := x0 } = p.of d := by
  cases p <;> simp at h <;> rfl
@[simp] theorem of_hvLatched (h : p ≠ .hvLatched) (d : Dev) (x0 : Bool) :
    p.of { d with hvLatched := x0 } = p.of d := by
  cases p <;> simp at h <;> rfl
@[simp] theorem of_com (h : p ≠ .com) (d : Dev) (x0 : Com) :
    p.of { d with com := x0 } = p.of d := by
  cases p <;> simp at h <;> rfl
@[simp] theorem of_out (h : p ≠ .out) (d : Dev) (x0 : List Output) :
    p.of { d with out := x0 } = p.of d := by
  cases p <;> simp at h <;> rfl
@[simp] theorem of_free (h : p ≠ .free) (d : Dev) (x0 : Nat) :
    p.of { d with free := x0 } = p.of d := by
  cases p <;> simp at h <;> rfl
@[simp] theorem of_seqr_breach (h : p ≠ .seqr ∧ p ≠ .breach) (d : Dev) (x0 : Sequencer) (x1 : Breach) :
    p.of { d with seqr := x0, breach := x1 } = p.of d := by
  cases p <;> simp at h <;> rfl
@[simp] theorem of_sched_lcl (h : p ≠ .sched ∧ p ≠ .lcl) (d : Dev) (x0 : Sched) (x1 : Lcl) :
    p.of { d with sched := x0, lcl := x1 } = p.of d := by
  cases p <;> simp at h <;> rfl
@[simp] theorem of_sched_stack (h : p ≠ .sched ∧ p ≠ .stack) (d : Dev) (x0 : Sched) (x1 : Stack) :
    p.of { d with sched := x0, stack := x1 } = p.of d := by
  cases p <;> simp at h <;> rfl
@[simp] theorem of_prot_stack (h : p ≠ .prot ∧ p ≠ .stack) (d : Dev) (x0 : Prot) (x1 : Stack) :
    p.of { d with prot := x0, stack := x1 } = p.of d := by
  cases p <;> simp at h <;> rfl
@[simp] theorem of_clk_ledger (h : p ≠ .clk ∧ p ≠ .ledger) (d : Dev) (x0 : Clock) (x1 : Ledger) :
    p.of { d with clk := x0, ledger := x1 } = p.of d := by
  cases p <;> simp at h <;> rfl
@[simp] theorem of_pwm_bridges (h : p ≠ .pwm ∧ p ≠ .bridges) (d : Dev) (x0 : Pwm) (x1 : Vector Bridge 6) :
    p.of { d with pwm := x0, bridges := x1 } = p.of d := by
  cases p <;> simp at h <;> rfl
@[simp] theorem of_pwm_ladder (h : p ≠ .pwm ∧ p ≠ .ladder) (d : Dev) (x0 : Pwm) (x1 : Ladder) :
    p.of { d with pwm := x0, ladder := x1 } = p.of d := by
  cases p <;> simp at h <;> rfl
@[simp] theorem of_axes_ladder (h : p ≠ .axes ∧ p ≠ .ladder) (d : Dev) (x0 : Vector Axis 6) (x1 : Ladder) :
    p.of { d with axes := x0, ladder := x1 } = p.of d := by
  cases p <;> simp at h <;> rfl
@[simp] theorem of_lcl_isl (h : p ≠ .lcl ∧ p ≠ .isl) (d : Dev) (x0 : Lcl) (x1 : Island) :
    p.of { d with lcl := x0, isl := x1 } = p.of d := by
  cases p <;> simp at h <;> rfl
@[simp] theorem of_axes_isl (h : p ≠ .axes ∧ p ≠ .isl) (d : Dev) (x0 : Vector Axis 6) (x1 : Island) :
    p.of { d with axes := x0, isl := x1 } = p.of d := by
  cases p <;> simp at h <;> rfl
@[simp] theorem of_com_out (h : p ≠ .com ∧ p ≠ .out) (d : Dev) (x0 : Com) (x1 : List Output) :
    p.of { d with com := x0, out := x1 } = p.of d := by
  cases p <;> simp at h <;> rfl
@[simp] theorem of_axes_free (h : p ≠ .axes ∧ p ≠ .free) (d : Dev) (x0 : Vector Axis 6) (x1 : Nat) :
    p.of { d with axes := x0, free := x1 } = p.of d := by
  cases p <;> simp at h <;> rfl
@[simp] theorem of_out_free (h : p ≠ .out ∧ p ≠ .free) (d : Dev) (x0 : List Output) (x1 : Nat) :
    p.of { d with out := x0, free := x1 } = p.of d := by
  cases p <;> simp at h <;> rfl
@[simp] theorem of_aon_meas_time (h : p ≠ .aon ∧ p ≠ .meas ∧ p ≠ .time) (d : Dev) (x0 : Aon) (x1 : Meas) (x2 : Time) :
    p.of { d with aon := x0, meas := x1, time := x2 } = p.of d := by
  cases p <;> simp at h <;> rfl
@[simp] theorem of_clk_sched_lcl (h : p ≠ .clk ∧ p ≠ .sched ∧ p ≠ .lcl) (d : Dev) (x0 : Clock) (x1 : Sched) (x2 : Lcl) :
    p.of { d with clk := x0, sched := x1, lcl := x2 } = p.of d := by
  cases p <;> simp at h <;> rfl
@[simp] theorem of_clk_sched_ledger (h : p ≠ .clk ∧ p ≠ .sched ∧ p ≠ .ledger) (d : Dev) (x0 : Clock) (x1 : Sched) (x2 : Ledger) :
    p.of { d with clk := x0, sched := x1, ledger := x2 } = p.of d := by
  cases p <;> simp at h <;> rfl
@[simp] theorem of_sec_acq_com (h : p ≠ .sec ∧ p ≠ .acq ∧ p ≠ .com) (d : Dev) (x0 : Sec) (x1 : Acq) (x2 : Com) :
    p.of { d with sec := x0, acq := x1, com := x2 } = p.of d := by
  cases p <;> simp at h <;> rfl
@[simp] theorem of_seqr_out_free (h : p ≠ .seqr ∧ p ≠ .out ∧ p ≠ .free) (d : Dev) (x0 : Sequencer) (x1 : List Output) (x2 : Nat) :
    p.of { d with seqr := x0, out := x1, free := x2 } = p.of d := by
  cases p <;> simp at h <;> rfl
@[simp] theorem of_com_out_free (h : p ≠ .com ∧ p ≠ .out ∧ p ≠ .free) (d : Dev) (x0 : Com) (x1 : List Output) (x2 : Nat) :
    p.of { d with com := x0, out := x1, free := x2 } = p.of d := by
  cases p <;> simp at h <;> rfl
@[simp] theorem of_clk_sched_meas_time (h : p ≠ .clk ∧ p ≠ .sched ∧ p ≠ .meas ∧ p ≠ .time) (d : Dev) (x0 : Clock) (x1 : Sched) (x2 : Meas) (x3 : Time) :
    p.of { d with clk := x0, sched := x1, meas := x2, time := x3 } = p.of d := by
  cases p <;> simp at h <;> rfl
@[simp] theorem of_seqr_breach_time_sec (h : p ≠ .seqr ∧ p ≠ .breach ∧ p ≠ .time ∧ p ≠ .sec) (d : Dev) (x0 : Sequencer) (x1 : Breach) (x2 : Time) (x3 : Sec) :
    p.of { d with seqr := x0, breach := x1, time := x2, sec := x3 } = p.of d := by
  cases p <;> simp at h <;> rfl
@[simp] theorem of_clk_seqr_acq_pwm (h : p ≠ .clk ∧ p ≠ .seqr ∧ p ≠ .acq ∧ p ≠ .pwm) (d : Dev) (x0 : Clock) (x1 : Sequencer) (x2 : Acq) (x3 : Pwm) :
    p.of { d with clk := x0, seqr := x1, acq := x2, pwm := x3 } = p.of d := by
  cases p <;> simp at h <;> rfl
@[simp] theorem of_pwm_bridges_axes_ladder (h : p ≠ .pwm ∧ p ≠ .bridges ∧ p ≠ .axes ∧ p ≠ .ladder) (d : Dev) (x0 : Pwm) (x1 : Vector Bridge 6) (x2 : Vector Axis 6) (x3 : Ladder) :
    p.of { d with pwm := x0, bridges := x1, axes := x2, ladder := x3 } = p.of d := by
  cases p <;> simp at h <;> rfl
@[simp] theorem of_prot_stack_ledger_engine_acq (h : p ≠ .prot ∧ p ≠ .stack ∧ p ≠ .ledger ∧ p ≠ .engine ∧ p ≠ .acq) (d : Dev) (x0 : Prot) (x1 : Stack) (x2 : Ledger) (x3 : Engine) (x4 : Acq) :
    p.of { d with prot := x0, stack := x1, ledger := x2, engine := x3, acq := x4 } = p.of d := by
  cases p <;> simp at h <;> rfl

@[simp] theorem modDom_leaves (h : p ≠ .doms) (m f) (d : Dev) : p.of (modDom m f d) = p.of d := by simp [modDom, h]

@[simp] theorem trackIdle_leaves (h : p ≠ .doms) (o) (d : Dev) : p.of (trackIdle o d) = p.of d := by simp [trackIdle, h]

@[simp] theorem passTicks_leaves (h : p ≠ .clk ∧ p ≠ .doms) (k) (s : State) : p.of (passTicks k s).dev = p.of s.dev := by simp [passTicks, h]

@[simp] theorem rpdoTimeout_leaves (h : p ≠ .com) (n o) (d : Dev) : p.of (rpdoTimeout n o d) = p.of d := by simp [rpdoTimeout, h]

@[simp] theorem heartbeat_leaves (h : p ≠ .com ∧ p ≠ .out) (o) (d : Dev) : p.of (heartbeat o d) = p.of d := by simp [heartbeat, h]

@[simp] theorem onPcie_leaves (h : p ≠ .acq) (f) (d : Dev) : p.of (onPcie f d) = p.of d := by simp [onPcie, h]

@[simp] theorem streamsDown_leaves (h : p ≠ .acq) (d : Dev) : p.of (streamsDown d) = p.of d := by simp [streamsDown, h]

@[simp] theorem number_leaves (h : p ≠ .seqr ∧ p ≠ .breach) (o late e) (d : Dev) : p.of (number o late e d) = p.of d := by simp [number, h]

@[simp] theorem releaseDue_leaves (h : p ≠ .seqr ∧ p ≠ .breach) (o) (d : Dev) : p.of (releaseDue o d) = p.of d := by simp [releaseDue, h]

@[simp] theorem arrive_leaves (h : p ≠ .seqr ∧ p ≠ .breach) (o e) (d : Dev) : p.of (arrive o e d) = p.of d := by simp [arrive, h]

@[simp] theorem aonKeep_leaves (h : p ≠ .seqr) (e) (d : Dev) : p.of (aonKeep e d) = p.of d := by simp [aonKeep, h]

@[simp] theorem recordAt_leaves (h : p ≠ .seqr ∧ p ≠ .breach) (o time code source data) (d : Dev) :
    p.of (recordAt o time code source data d) = p.of d := by
  simp [recordAt, h]

@[simp] theorem record_leaves (h : p ≠ .seqr ∧ p ≠ .breach) (o code source data) (d : Dev) :
    p.of (record o code source data d) = p.of d := by
  simp [record, h]

@[simp] theorem commEnd_leaves (h : p ≠ .seqr ∧ p ≠ .breach ∧ p ≠ .sec) (o reason) (d : Dev) : p.of (commEnd o reason d) = p.of d := by
  unfold commEnd
  split <;> simp [h]

@[simp] theorem modSession_leaves (h : p ≠ .com) (n f) (d : Dev) : p.of (modSession n f d) = p.of d := by simp [modSession, h]

@[simp] theorem sessionEnds_leaves (h : p ≠ .seqr ∧ p ≠ .breach ∧ p ≠ .sec ∧ p ≠ .com) (o n) (d : Dev) :
    p.of (sessionEnds o n d) = p.of d := by
  grind [sessionEnds, commEnd_leaves, modSession_leaves, of_sec, foldl_leaves, foldl_state_leaves, State.act_dev, devTo_dev]

@[simp] theorem portInForce_leaves (h : p ≠ .com) (o) (d : Dev) : p.of (portInForce o d) = p.of d := by simp [portInForce, h]

@[simp] theorem closeSession_leaves (h : p ≠ .seqr ∧ p ≠ .breach ∧ p ≠ .sec ∧ p ≠ .com) (o n) (d : Dev) :
    p.of (closeSession o n d) = p.of d := by
  simp [closeSession, h]

@[simp] theorem followChannels_leaves (h : p ≠ .seqr ∧ p ≠ .breach ∧ p ≠ .sec ∧ p ≠ .com) (o) (d : Dev) :
    p.of (followChannels o d) = p.of d := by
  simp [followChannels, h]

@[simp] theorem linkDown_leaves (h : p ≠ .seqr ∧ p ≠ .breach ∧ p ≠ .sec ∧ p ≠ .acq ∧ p ≠ .com) (o cause) (d : Dev) :
    p.of (linkDown o cause d) = p.of d := by
  simp [linkDown, h]

@[simp] theorem configWrite_leaves (h : p ≠ .seqr ∧ p ≠ .breach ∧ p ≠ .sec ∧ p ≠ .acq ∧ p ≠ .com) (o reg v) (d : Dev) :
    p.of (configWrite o reg v d) = p.of d := by
  unfold configWrite
  split <;> simp [h]

@[simp] theorem raiseVector_leaves (h : p ≠ .acq ∧ p ≠ .out) (v) (d : Dev) : p.of (raiseVector v d) = p.of d := by simp [raiseVector, h]

@[simp] theorem modStream_leaves (h : p ≠ .acq) (s f) (d : Dev) : p.of (modStream s f d) = p.of d := by simp [modStream, h]

@[simp] theorem completionOut_leaves (h : p ≠ .acq ∧ p ≠ .out) (s i written status flags lastTime) (d : Dev) :
    p.of (completionOut s i written status flags lastTime d) = p.of d := by
  simp [completionOut, h]

@[simp] theorem modSet_leaves (h : p ≠ .acq) (a f) (d : Dev) : p.of (modSet a f d) = p.of d := by simp [modSet, h]

@[simp] theorem streamOff_leaves (h : p ≠ .seqr ∧ p ≠ .breach ∧ p ≠ .acq ∧ p ≠ .out) (o s) (d : Dev) : p.of (streamOff o s d) = p.of d := by
  simp [streamOff, h]

@[simp] theorem breachConservation_leaves (h : p ≠ .breach) (d : Dev) : p.of (breachConservation d) = p.of d := by simp [breachConservation, h]

@[simp] theorem descriptorBreach_leaves (h : p ≠ .seqr ∧ p ≠ .breach ∧ p ≠ .acq ∧ p ≠ .out) (o s i kind) (d : Dev) :
    p.of (descriptorBreach o s i kind d) = p.of d := by
  simp [descriptorBreach, h]

@[simp] theorem complete_leaves (h : p ≠ .seqr ∧ p ≠ .breach ∧ p ≠ .acq ∧ p ≠ .out) (o s i written status flags lastTime) (d : Dev) :
    p.of (complete o s i written status flags lastTime d) = p.of d := by
  simp [complete, h]

@[simp] theorem closeBuffer_leaves (h : p ≠ .seqr ∧ p ≠ .breach ∧ p ≠ .acq ∧ p ≠ .out) (o s status extra) (d : Dev) :
    p.of (closeBuffer o s status extra d) = p.of d := by
  simp [closeBuffer]
  split <;> simp [h]

@[simp] theorem flushDue_leaves (h : p ≠ .seqr ∧ p ≠ .breach ∧ p ≠ .acq ∧ p ≠ .out) (o s) (d : Dev) : p.of (flushDue o s d) = p.of d := by
  simp [flushDue]
  split <;> simp [h]

@[simp] theorem onTime_leaves (h : p ≠ .time) (f) (d : Dev) : p.of (onTime f d) = p.of d := by simp [onTime, h]

@[simp] theorem slewStep_leaves (h : p ≠ .time) (d : Dev) : p.of (slewStep d) = p.of d := by simp [slewStep, h]

@[simp] theorem callRate_leaves (h : p ≠ .time) (o r) (d : Dev) : p.of (callRate o r d) = p.of d := by simp [callRate, h]

@[simp] theorem servoRate_leaves (h : p ≠ .time) (o r) (d : Dev) : p.of (servoRate o r d) = p.of d := by simp [servoRate, h]

@[simp] theorem timeUnlock_leaves (h : p ≠ .seqr ∧ p ≠ .breach ∧ p ≠ .time) (o cause) (d : Dev) : p.of (timeUnlock o cause d) = p.of d := by
  simp [timeUnlock, h]

@[simp] theorem ptpAnnounce_leaves (h : p ≠ .seqr ∧ p ≠ .breach ∧ p ≠ .time) (o mac udp domain a) (d : Dev) :
    p.of (ptpAnnounce o mac udp domain a d) = p.of d := by
  simp [ptpAnnounce]
  split <;> simp [h]

@[simp] theorem modPath_leaves (h : p ≠ .lcl) (r p0 f) (d : Dev) : p.of (modPath r p0 f d) = p.of d := by simp [modPath, h]

@[simp] theorem dropDelay_leaves (h : p ≠ .lcl) (p0 r) (d : Dev) : p.of (dropDelay p0 r d) = p.of d := by simp [dropDelay, h]

@[simp] theorem modRing_leaves (h : p ≠ .lcl) (r f) (d : Dev) : p.of (modRing r f d) = p.of d := by simp [modRing, h]

@[simp] theorem putLane_leaves (h : p ≠ .out) (r p0 launch frame) (d : Dev) : p.of (putLane r p0 launch frame d) = p.of d := by simp [putLane, h]

@[simp] theorem sendFrame_leaves (h : p ≠ .lcl ∧ p ≠ .out) (r p0 f) (d : Dev) : p.of (sendFrame r p0 f d) = p.of d := by simp [sendFrame, h]

@[simp] theorem delayLaunch_leaves (h : p ≠ .lcl ∧ p ≠ .out) (o r) (d : Dev) : p.of (delayLaunch o r d) = p.of d := by simp [delayLaunch, h]

@[simp] theorem onLedger_leaves (h : p ≠ .ledger) (f) (d : Dev) : p.of (onLedger f d) = p.of d := by simp [onLedger, h]

@[simp] theorem checkpointDone_leaves (h : p ≠ .ledger ∧ p ≠ .mram) (d : Dev) : p.of (checkpointDone d) = p.of d := by
  unfold checkpointDone
  split <;> simp [h]

@[simp] theorem wrote_leaves (s : State) : p.of (wrote s).2.dev = p.of s.dev := by simp [wrote]

@[simp] theorem checkpointStart_leaves (h : p ≠ .ledger ∧ p ≠ .mram) (d : Dev) : p.of (checkpointStart d) = p.of d := by simp [checkpointStart, h]

@[simp] theorem put_leaves (ix sub b) (s : State) : p.of (put ix sub b s).dev = p.of s.dev := by simp [put]

@[simp] theorem setAccount_leaves (h : p ≠ .ledger) (i a) (d : Dev) : p.of (setAccount i a d) = p.of d := by simp [setAccount, h]

@[simp] theorem gapEvent_leaves (h : p ≠ .seqr ∧ p ≠ .breach) (o i start cause len) (d : Dev) :
    p.of (gapEvent o i start cause len d) = p.of d := by
  simp [gapEvent, h]

@[simp] theorem gapEnd_leaves (h : p ≠ .seqr ∧ p ≠ .breach ∧ p ≠ .ledger) (o i) (d : Dev) : p.of (gapEnd o i d) = p.of d := by
  simp [gapEnd]
  split <;> simp [h]

@[simp] theorem accountReset_leaves (h : p ≠ .seqr ∧ p ≠ .breach ∧ p ≠ .ledger) (o sel) (d : Dev) :
    p.of (accountReset o sel d) = p.of d := by
  unfold accountReset
  split <;> simp [h]

@[simp] theorem writeGuarantees_leaves (h : p ≠ .seqr ∧ p ≠ .breach ∧ p ≠ .ledger ∧ p ≠ .mram) (ix sub b) (s : State) :
    p.of (writeGuarantees ix sub b s).2.dev = p.of s.dev := by
  simp [writeGuarantees, h]

@[simp] theorem modPair_leaves (h : p ≠ .pwm) (q f) (d : Dev) : p.of (modPair q f d) = p.of d := by simp [modPair, h]

@[simp] theorem refuse_leaves (detail) (s : State) : p.of (refuse detail s).2.dev = p.of s.dev := by simp [refuse]

@[simp] theorem pwmCommitWrite_leaves (h : p ≠ .pwm) (q) (s : State) : p.of (pwmCommitWrite q s).2.dev = p.of s.dev := by simp [pwmCommitWrite, h]

@[simp] theorem chopFault_leaves (h : p ≠ .seqr ∧ p ≠ .breach ∧ p ≠ .ladder) (o leg kind) (d : Dev) :
    p.of (chopFault o leg kind d) = p.of d := by
  simp [chopFault, h]

@[simp] theorem axisEnter_leaves (h : p ≠ .seqr ∧ p ≠ .breach ∧ p ≠ .axes) (o n st inh cause) (d : Dev) :
    p.of (axisEnter o n st inh cause d) = p.of d := by
  simp [axisEnter, h]

@[simp] theorem axisForced_leaves (h : p ≠ .seqr ∧ p ≠ .breach ∧ p ≠ .axes) (o n) (d : Dev) : p.of (axisForced o n d) = p.of d := by
  simp [axisForced, h]

@[simp] theorem forceGroup_leaves (h : p ≠ .seqr ∧ p ≠ .breach ∧ p ≠ .pwm ∧ p ≠ .axes ∧ p ≠ .ladder) (o g first) (d : Dev) :
    p.of (forceGroup o g first d) = p.of d := by
  simp [forceGroup, h]

@[simp] theorem groupEvaluate_leaves (h : p ≠ .seqr ∧ p ≠ .breach ∧ p ≠ .pwm ∧ p ≠ .axes ∧ p ≠ .ladder) (o g) (d : Dev) :
    p.of (groupEvaluate o g d) = p.of d := by
  unfold groupEvaluate
  simp only []
  repeat' split
  all_goals simp [h]

@[simp] theorem pronghorn_leaves (h : p ≠ .seqr ∧ p ≠ .breach ∧ p ≠ .pwm ∧ p ≠ .axes ∧ p ≠ .ladder) (o) (d : Dev) :
    p.of (pronghorn o d) = p.of d := by
  simp [pronghorn, h]

@[simp] theorem pairSetting_leaves (ix sub q b) (s : State) : p.of (pairSetting ix sub q b s).2.dev = p.of s.dev := by simp [pairSetting]

@[simp] theorem releaseGroup_leaves (h : p ≠ .seqr ∧ p ≠ .breach ∧ p ≠ .pwm) (o g how) (d : Dev) :
    p.of (releaseGroup o g how d) = p.of d := by
  simp [releaseGroup, h]

@[simp] theorem groupReleaseWrite_leaves (h : p ≠ .seqr ∧ p ≠ .breach ∧ p ≠ .pwm) (g) (s : State) :
    p.of (groupReleaseWrite g s).2.dev = p.of s.dev := by
  unfold groupReleaseWrite
  split <;> simp [h]

@[simp] theorem pronghornAgain_leaves (h : p ≠ .seqr ∧ p ≠ .breach ∧ p ≠ .pwm ∧ p ≠ .axes ∧ p ≠ .ladder) (o) (d : Dev) :
    p.of (pronghornAgain o d) = p.of d := by
  simp [pronghornAgain, h]

@[simp] theorem bridgeInactive_leaves (h : p ≠ .bridges) (q) (d : Dev) : p.of (bridgeInactive q d) = p.of d := by
  unfold bridgeInactive
  split <;> simp [h]

@[simp] theorem pairOff_leaves (h : p ≠ .pwm ∧ p ≠ .bridges) (q) (d : Dev) : p.of (pairOff q d) = p.of d := by simp [pairOff, h]

@[simp] theorem interlockEnds_leaves (h : p ≠ .seqr ∧ p ≠ .breach ∧ p ≠ .bridges) (o k a t) (d : Dev) :
    p.of (interlockEnds o k a t d) = p.of d := by
  simp [interlockEnds, h]

@[simp] theorem interlockStarts_leaves (h : p ≠ .seqr ∧ p ≠ .breach ∧ p ≠ .bridges) (o k t) (d : Dev) :
    p.of (interlockStarts o k t d) = p.of d := by
  simp [interlockStarts, h]

@[simp] theorem interlock_leaves (h : p ≠ .seqr ∧ p ≠ .breach ∧ p ≠ .bridges) (o k t inputs) (d : Dev) :
    p.of (interlock o k t inputs d) = p.of d := by
  simp [interlock]
  split <;> simp [h]

@[simp] theorem interlocksLeave_leaves (h : p ≠ .seqr ∧ p ≠ .breach ∧ p ≠ .bridges) (o) (d : Dev) :
    p.of (interlocksLeave o d) = p.of d := by
  simp [interlocksLeave, h]

@[simp] theorem pairDisable_leaves (h : p ≠ .seqr ∧ p ≠ .breach ∧ p ≠ .pwm ∧ p ≠ .bridges ∧ p ≠ .axes ∧ p ≠ .ladder) (o q) (d : Dev) :
    p.of (pairDisable o q d) = p.of d := by
  have hoff (q) (e : Dev) : p.of (pairOff q e) = p.of e := pairOff_leaves ⟨h.2.2.1, h.2.2.2.1⟩ q e
  unfold pairDisable
  rw [interlocksLeave_leaves (by simp [h]), pronghornAgain_leaves (by simp [h]),
    foldl_leaves (fun _ e => forEach_leaves (fun q x => hoff q x) _ e), hoff]

@[simp] theorem pairDisaWrite_leaves (h : p ≠ .seqr ∧ p ≠ .breach ∧ p ≠ .pwm ∧ p ≠ .bridges ∧ p ≠ .axes ∧ p ≠ .ladder) (q) (s : State) :
    p.of (pairDisaWrite q s).2.dev = p.of s.dev := by
  simp [pairDisaWrite, h]

@[simp] theorem unlessRefused_leaves {s t : State} (ht : p.of t.dev = p.of s.dev) (r) : p.of (unlessRefused r s t).2.dev = p.of s.dev := by
  cases r
  · exact ht
  · rfl

@[simp] theorem pairEnable_leaves (h : p ≠ .pwm) (o owner q) (d : Dev) : p.of (pairEnable o owner q d) = p.of d := by simp [pairEnable, h]

@[simp] theorem pairEnabWrite_leaves (h : p ≠ .pwm) (q) (s : State) : p.of (pairEnabWrite q s).2.dev = p.of s.dev := by simp [pairEnabWrite, h]

@[simp] theorem shadowWrite_leaves (h : p ≠ .pwm) (q f) (s : State) : p.of (shadowWrite q f s).2.dev = p.of s.dev := by simp [shadowWrite, h]

@[simp] theorem writePwm_leaves (h : p ≠ .seqr ∧ p ≠ .breach ∧ p ≠ .pwm ∧ p ≠ .bridges ∧ p ≠ .axes ∧ p ≠ .ladder) (ix sub b) (s : State) :
    p.of (writePwm ix sub b s).2.dev = p.of s.dev := by
  unfold writePwm
  simp only []
  repeat' split
  all_goals simp [h]

@[simp] theorem mechEvaluate_leaves (h : p ≠ .seqr ∧ p ≠ .breach ∧ p ≠ .ladder) (o) (d : Dev) : p.of (mechEvaluate o d) = p.of d := by
  unfold mechEvaluate
  split <;> simp [h]

@[simp] theorem chopClrfWrite_leaves (h : p ≠ .seqr ∧ p ≠ .breach ∧ p ≠ .ladder) (s : State) :
    p.of (chopClrfWrite s).2.dev = p.of s.dev := by
  simp [chopClrfWrite, h]

@[simp] theorem modCe_leaves (h : p ≠ .engine) (n f) (d : Dev) : p.of (modCe n f d) = p.of d := by simp [modCe, h]

@[simp] theorem ceActivate_leaves (h : p ≠ .seqr ∧ p ≠ .breach ∧ p ≠ .engine) (o n bank mode atPower) (d : Dev) :
    p.of (ceActivate o n bank mode atPower d) = p.of d := by
  simp [ceActivate, h]

@[simp] theorem ceCommit_leaves (h : p ≠ .seqr ∧ p ≠ .breach ∧ p ≠ .engine) (o n) (d : Dev) : p.of (ceCommit o n d) = p.of d := by simp [ceCommit, h]

@[simp] theorem ceCommitWrite_leaves (h : p ≠ .seqr ∧ p ≠ .breach ∧ p ≠ .engine) (n) (s : State) :
    p.of (ceCommitWrite n s).2.dev = p.of s.dev := by
  simp [ceCommitWrite, h]

@[simp] theorem ceHostMeas_leaves (h : p ≠ .engine) (n j v) (d : Dev) : p.of (ceHostMeas n j v d) = p.of d := by simp [ceHostMeas, h]

@[simp] theorem ceDimension_leaves (h : p ≠ .engine) (n) (d : Dev) : p.of (ceDimension n d) = p.of d := by simp [ceDimension, h]

@[simp] theorem dimensionWrite_leaves (h : p ≠ .engine) (n sub b) (s : State) : p.of (dimensionWrite n sub b s).2.dev = p.of s.dev := by
  simp [dimensionWrite, h]

@[simp] theorem cePend_leaves (h : p ≠ .engine) (n p0) (d : Dev) : p.of (cePend n p0 d) = p.of d := by simp [cePend, h]

@[simp] theorem ceDisable_leaves (h : p ≠ .seqr ∧ p ≠ .breach ∧ p ≠ .engine) (o n) (d : Dev) : p.of (ceDisable o n d) = p.of d := by
  unfold ceDisable
  split <;> simp [h]

@[simp] theorem ceControlWrite_leaves (h : p ≠ .seqr ∧ p ≠ .breach ∧ p ≠ .engine) (n cmd) (s : State) :
    p.of (ceControlWrite n cmd s).2.dev = p.of s.dev := by
  unfold ceControlWrite
  split <;> simp [h]

@[simp] theorem writeEngine_leaves (h : p ≠ .seqr ∧ p ≠ .breach ∧ p ≠ .engine) (ix sub b) (s : State) :
    p.of (writeEngine ix sub b s).2.dev = p.of s.dev := by
  simp [writeEngine, h]

@[simp] theorem setStarts_leaves (h : p ≠ .acq) (o a) (d : Dev) : p.of (setStarts o a d) = p.of d := by simp [setStarts, h]

@[simp] theorem fetchRequest_leaves (h : p ≠ .acq ∧ p ≠ .out) (s) (d : Dev) : p.of (fetchRequest s d) = p.of d := by simp [fetchRequest, h]

@[simp] theorem streamOn_leaves (h : p ≠ .seqr ∧ p ≠ .breach ∧ p ≠ .acq ∧ p ≠ .out) (o s) (d : Dev) : p.of (streamOn o s d) = p.of d := by
  unfold streamOn
  split <;> simp [h]

@[simp] theorem streamRestart_leaves (h : p ≠ .seqr ∧ p ≠ .breach ∧ p ≠ .acq ∧ p ≠ .out) (o s) (d : Dev) :
    p.of (streamRestart o s d) = p.of d := by
  simp [streamRestart, h]

@[simp] theorem streamEnableWrite_leaves (h : p ≠ .seqr ∧ p ≠ .breach ∧ p ≠ .acq ∧ p ≠ .out) (n) (s : State) :
    p.of (streamEnableWrite n s).2.dev = p.of s.dev := by
  simp [streamEnableWrite, h]

@[simp] theorem armWrite_leaves (h : p ≠ .acq) (a) (s : State) : p.of (armWrite a s).2.dev = p.of s.dev := by simp [armWrite, h]

@[simp] theorem writeAcq_leaves (h : p ≠ .seqr ∧ p ≠ .breach ∧ p ≠ .acq ∧ p ≠ .out) (ix sub b) (s : State) :
    p.of (writeAcq ix sub b s).2.dev = p.of s.dev := by
  simp [writeAcq, h]

@[simp] theorem modBridge_leaves (h : p ≠ .bridges) (k f) (d : Dev) : p.of (modBridge k f d) = p.of d := by simp [modBridge, h]

@[simp] theorem bridgeTestWrite_leaves (h : p ≠ .bridges) (k) (s : State) : p.of (bridgeTestWrite k s).2.dev = p.of s.dev := by
  simp [bridgeTestWrite, h]

@[simp] theorem bridgeClrfWrite_leaves (h : p ≠ .seqr ∧ p ≠ .breach ∧ p ≠ .pwm ∧ p ≠ .bridges ∧ p ≠ .axes ∧ p ≠ .ladder) (k) (s : State) :
    p.of (bridgeClrfWrite k s).2.dev = p.of s.dev := by
  simp [bridgeClrfWrite, h]

@[simp] theorem writeBridge_leaves (h : p ≠ .seqr ∧ p ≠ .breach ∧ p ≠ .pwm ∧ p ≠ .bridges ∧ p ≠ .axes ∧ p ≠ .ladder) (ix sub b) (s : State) :
    p.of (writeBridge ix sub b s).2.dev = p.of s.dev := by
  unfold writeBridge
  simp only []
  repeat' split
  all_goals simp [h]

@[simp] theorem missEnds_leaves (h : p ≠ .seqr ∧ p ≠ .breach ∧ p ≠ .axes) (o n) (d : Dev) : p.of (missEnds o n d) = p.of d := by simp [missEnds, h]

@[simp] theorem runEdges_leaves (h : p ≠ .seqr ∧ p ≠ .breach ∧ p ≠ .axes) (o n regen fast) (d : Dev) :
    p.of (runEdges o n regen fast d) = p.of d := by
  simp [runEdges, h]

@[simp] theorem axisDisable_leaves (h : p ≠ .seqr ∧ p ≠ .breach ∧ p ≠ .pwm ∧ p ≠ .bridges ∧ p ≠ .axes ∧ p ≠ .ladder) (o n cause) (d : Dev) :
    p.of (axisDisable o n cause d) = p.of d := by
  simp [axisDisable, h]

@[simp] theorem wrongAxisState_leaves (n) (s : State) : p.of (wrongAxisState n s).2.dev = p.of s.dev := by simp [wrongAxisState]

@[simp] theorem axisDisaWrite_leaves (h : p ≠ .seqr ∧ p ≠ .breach ∧ p ≠ .pwm ∧ p ≠ .bridges ∧ p ≠ .axes ∧ p ≠ .ladder) (n) (s : State) :
    p.of (axisDisaWrite n s).2.dev = p.of s.dev := by
  simp [axisDisaWrite, h]

@[simp] theorem blockAndWait_leaves (h : p ≠ .seqr ∧ p ≠ .breach ∧ p ≠ .axes) (o n cause) (d : Dev) :
    p.of (blockAndWait o n cause d) = p.of d := by
  simp [blockAndWait, h]

@[simp] theorem axisClrfWrite_leaves (h : p ≠ .seqr ∧ p ≠ .breach ∧ p ≠ .axes) (n) (s : State) :
    p.of (axisClrfWrite n s).2.dev = p.of s.dev := by
  simp [axisClrfWrite, h]

@[simp] theorem ladderStarts_leaves (h : p ≠ .seqr ∧ p ≠ .breach ∧ p ≠ .ladder) (o before) (d : Dev) :
    p.of (ladderStarts o before d) = p.of d := by
  simp [ladderStarts, h]

@[simp] theorem enterRecatch_leaves (h : p ≠ .seqr ∧ p ≠ .breach ∧ p ≠ .axes) (o n cause) (d : Dev) :
    p.of (enterRecatch o n cause d) = p.of d := by
  simp [enterRecatch, h]

@[simp] theorem axisEnable_leaves (h : p ≠ .seqr ∧ p ≠ .breach ∧ p ≠ .pwm ∧ p ≠ .axes) (o n ecat) (d : Dev) :
    p.of (axisEnable o n ecat d) = p.of d := by
  simp [axisEnable, h]

@[simp] theorem axisEnableWrite_leaves (h : p ≠ .seqr ∧ p ≠ .breach ∧ p ≠ .pwm ∧ p ≠ .axes ∧ p ≠ .ladder) (n ecat) (s : State) :
    p.of (axisEnableWrite n ecat s).2.dev = p.of s.dev := by
  simp [axisEnableWrite, h]

@[simp] theorem axisDecel_leaves (h : p ≠ .seqr ∧ p ≠ .breach ∧ p ≠ .axes) (o n cause) (d : Dev) :
    p.of (axisDecel o n cause d) = p.of d := by
  simp [axisDecel, h]

@[simp] theorem axisDeclWrite_leaves (h : p ≠ .seqr ∧ p ≠ .breach ∧ p ≠ .axes) (n) (s : State) :
    p.of (axisDeclWrite n s).2.dev = p.of s.dev := by
  simp [axisDeclWrite, h]

@[simp] theorem writeAxis_leaves (h : p ≠ .seqr ∧ p ≠ .breach ∧ p ≠ .pwm ∧ p ≠ .bridges ∧ p ≠ .axes ∧ p ≠ .ladder) (ix sub b) (s : State) :
    p.of (writeAxis ix sub b s).2.dev = p.of s.dev := by
  unfold writeAxis
  split <;> simp [h]

@[simp] theorem onPair_leaves (h : p ≠ .isl) (n f) (d : Dev) : p.of (onPair n f d) = p.of d := by simp [onPair, h]

@[simp] theorem stoClrfWrite_leaves (h : p ≠ .seqr ∧ p ≠ .breach ∧ p ≠ .pwm ∧ p ≠ .axes ∧ p ≠ .ladder ∧ p ≠ .isl) (session n) (s : State) :
    p.of (stoClrfWrite session n s).2.dev = p.of s.dev := by
  simp [stoClrfWrite, h]

@[simp] theorem ccvRecord_leaves (h : p ≠ .seqr ∧ p ≠ .breach) (o ccv) (d : Dev) : p.of (ccvRecord o ccv d) = p.of d := by simp [ccvRecord, h]

@[simp] theorem axisSto_leaves (h : p ≠ .seqr ∧ p ≠ .breach ∧ p ≠ .axes) (o n) (d : Dev) : p.of (axisSto o n d) = p.of d := by simp [axisSto, h]

@[simp] theorem ss1End_leaves (h : p ≠ .seqr ∧ p ≠ .breach ∧ p ≠ .axes ∧ p ≠ .isl) (o n how) (d : Dev) :
    p.of (ss1End o n how d) = p.of d := by
  simp [ss1End]
  split <;> simp [h]

@[simp] theorem stoDemand_leaves (h : p ≠ .seqr ∧ p ≠ .breach ∧ p ≠ .pwm ∧ p ≠ .axes ∧ p ≠ .ladder ∧ p ≠ .isl) (o cause mask) (d : Dev) :
    p.of (stoDemand o cause mask d) = p.of d := by
  simp [stoDemand, h]

@[simp] theorem ccvTake_leaves (h : p ≠ .seqr ∧ p ≠ .breach ∧ p ≠ .pwm ∧ p ≠ .axes ∧ p ≠ .ladder ∧ p ≠ .isl) (o ccv) (d : Dev) :
    p.of (ccvTake o ccv d) = p.of d := by
  simp [ccvTake, h]

@[simp] theorem ccvWrite_leaves (h : p ≠ .seqr ∧ p ≠ .breach ∧ p ≠ .pwm ∧ p ≠ .axes ∧ p ≠ .ladder ∧ p ≠ .isl) (b) (s : State) :
    p.of (ccvWrite b s).2.dev = p.of s.dev := by
  simp [ccvWrite, h]

@[simp] theorem onConn_leaves (h : p ≠ .isl) (c f) (d : Dev) : p.of (onConn c f d) = p.of d := by simp [onConn, h]

@[simp] theorem connTo_leaves (h : p ≠ .seqr ∧ p ≠ .breach ∧ p ≠ .isl) (o c st cause) (d : Dev) :
    p.of (connTo o c st cause d) = p.of d := by
  simp [connTo, h]

@[simp] theorem connEnableWrite_leaves (h : p ≠ .seqr ∧ p ≠ .breach ∧ p ≠ .isl) (c b) (s : State) :
    p.of (connEnableWrite c b s).2.dev = p.of s.dev := by
  simp [connEnableWrite, h]

@[simp] theorem writeSafety_leaves (h : p ≠ .seqr ∧ p ≠ .breach ∧ p ≠ .pwm ∧ p ≠ .axes ∧ p ≠ .ladder ∧ p ≠ .isl) (session ix sub b) (s : State) :
    p.of (writeSafety session ix sub b s).2.dev = p.of s.dev := by
  simp [writeSafety, h]
  split <;> simp [h]

@[simp] theorem chopEnable_leaves (h : p ≠ .seqr ∧ p ≠ .breach ∧ p ≠ .pwm ∧ p ≠ .ladder) (o) (d : Dev) :
    p.of (chopEnable o d) = p.of d := by
  simp [chopEnable, h]

@[simp] theorem chopEnabWrite_leaves (h : p ≠ .seqr ∧ p ≠ .breach ∧ p ≠ .pwm ∧ p ≠ .ladder) (s : State) :
    p.of (chopEnabWrite s).2.dev = p.of s.dev := by
  simp [chopEnabWrite, h]

@[simp] theorem onStack_leaves (h : p ≠ .stack) (f) (d : Dev) : p.of (onStack f d) = p.of d := by simp [onStack, h]

@[simp] theorem connAccept_leaves (h : p ≠ .stack) (d : Dev) : p.of (connAccept d) = p.of d := by simp [connAccept, h]

@[simp] theorem wrongStackState_leaves (s : State) : p.of (wrongStackState s).2.dev = p.of s.dev := by simp [wrongStackState]

@[simp] theorem ceConn_leaves (h : p ≠ .engine) (o) (d : Dev) : p.of (ceConn o d) = p.of d := by simp [ceConn, h]

@[simp] theorem stackConnWrite_leaves (h : p ≠ .stack ∧ p ≠ .engine) (s : State) : p.of (stackConnWrite s).2.dev = p.of s.dev := by
  simp [stackConnWrite, h]

@[simp] theorem tripSet_leaves (h : p ≠ .seqr ∧ p ≠ .breach ∧ p ≠ .prot ∧ p ≠ .pwm ∧ p ≠ .axes ∧ p ≠ .ladder) (o requesters causes) (d : Dev) :
    p.of (tripSet o requesters causes d) = p.of d := by
  simp [tripSet, h]

@[simp] theorem requesterSet_leaves (h : p ≠ .seqr ∧ p ≠ .breach ∧ p ≠ .prot ∧ p ≠ .pwm ∧ p ≠ .axes ∧ p ≠ .ladder) (o bit) (d : Dev) :
    p.of (requesterSet o bit d) = p.of d := by
  simp [requesterSet, h]

@[simp] theorem tripWrite_leaves (h : p ≠ .seqr ∧ p ≠ .breach ∧ p ≠ .prot ∧ p ≠ .pwm ∧ p ≠ .axes ∧ p ≠ .ladder) (s : State) :
    p.of (tripWrite s).2.dev = p.of s.dev := by
  simp [tripWrite, h]

@[simp] theorem modCell_leaves (h : p ≠ .lcl) (c f) (d : Dev) : p.of (modCell c f d) = p.of d := by simp [modCell, h]

@[simp] theorem clearImplausible_leaves (h : p ≠ .seqr ∧ p ≠ .breach ∧ p ≠ .lcl) (c) (s : State) :
    p.of (clearImplausible c s).2.dev = p.of s.dev := by
  simp [clearImplausible, h]

@[simp] theorem settleLater_leaves (h : p ≠ .stack) (s : State) : p.of (settleLater s).dev = p.of s.dev := by simp [settleLater, h]

@[simp] theorem strtAccept_leaves (h : p ≠ .stack) (o) (d : Dev) : p.of (strtAccept o d) = p.of d := by simp [strtAccept, h]

@[simp] theorem arrCheck_leaves (h : p ≠ .stack) (o) (d : Dev) : p.of (arrCheck o d) = p.of d := by simp [arrCheck, h]

@[simp] theorem stackStartWrite_leaves (h : p ≠ .stack) (s0 : State) : p.of (stackStartWrite s0).2.dev = p.of s0.dev := by simp [stackStartWrite, h]

@[simp] theorem stackParkWrite_leaves (h : p ≠ .stack) (s : State) : p.of (stackParkWrite s).2.dev = p.of s.dev := by simp [stackParkWrite, h]

@[simp] theorem stopAccept_leaves (h : p ≠ .stack) (d : Dev) : p.of (stopAccept d) = p.of d := by simp [stopAccept, h]

@[simp] theorem stackStopWrite_leaves (h : p ≠ .stack) (s : State) : p.of (stackStopWrite s).2.dev = p.of s.dev := by simp [stackStopWrite, h]

@[simp] theorem arrangementWrite_leaves (h : p ≠ .stack) (ix sub b) (s : State) :
    p.of (arrangementWrite ix sub b s).2.dev = p.of s.dev := by
  simp [arrangementWrite, h]

@[simp] theorem reinsertWrite_leaves (h : p ≠ .stack) (c) (s : State) : p.of (reinsertWrite c s).2.dev = p.of s.dev := by simp [reinsertWrite, h]

@[simp] theorem roleWrite_leaves (ix sub b) (s : State) : p.of (roleWrite ix sub b s).2.dev = p.of s.dev := by simp [roleWrite]

@[simp] theorem tripRelease_leaves (h : p ≠ .seqr ∧ p ≠ .breach ∧ p ≠ .prot ∧ p ≠ .stack ∧ p ≠ .pwm ∧ p ≠ .axes ∧ p ≠ .ladder) (o cmpOutside) (d : Dev) :
    p.of (tripRelease o cmpOutside d).2 = p.of d := by
  simp [tripRelease]
  split <;> simp [h]

@[simp] theorem releaseWrite_leaves (h : p ≠ .seqr ∧ p ≠ .breach ∧ p ≠ .prot ∧ p ≠ .stack ∧ p ≠ .pwm ∧ p ≠ .axes ∧ p ≠ .ladder) (s : State) :
    p.of (releaseWrite s).2.dev = p.of s.dev := by
  simp [releaseWrite, h]

@[simp] theorem hostBypass_leaves (h : p ≠ .stack) (c) (d : Dev) : p.of (hostBypass c d) = p.of d := by simp [hostBypass, h]

@[simp] theorem bypassWrite_leaves (h : p ≠ .stack) (c) (s : State) : p.of (bypassWrite c s).2.dev = p.of s.dev := by simp [bypassWrite, h]

@[simp] theorem writeStack_leaves (h : p ≠ .seqr ∧ p ≠ .breach ∧ p ≠ .prot ∧ p ≠ .lcl ∧ p ≠ .stack ∧ p ≠ .engine ∧ p ≠ .pwm ∧ p ≠ .axes ∧ p ≠ .ladder) (ix sub b) (s : State) :
    p.of (writeStack ix sub b s).2.dev = p.of s.dev := by
  simp [writeStack, h]

@[simp] theorem onSec_leaves (h : p ≠ .sec) (f) (d : Dev) : p.of (onSec f d) = p.of d := by simp [onSec, h]

@[simp] theorem commResponse_leaves (h : p ≠ .aon ∧ p ≠ .seqr ∧ p ≠ .breach ∧ p ≠ .sec) (o session nonceH mac) (d : Dev) :
    p.of (commResponse o session nonceH mac d).2 = p.of d := by
  grind [commResponse, onSec_leaves, record_leaves, of_aon, of_aon, foldl_leaves, foldl_state_leaves, State.act_dev, devTo_dev]

@[simp] theorem commResponseWrite_leaves (h : p ≠ .aon ∧ p ≠ .seqr ∧ p ≠ .breach ∧ p ≠ .sec) (session b) (s : State) :
    p.of (commResponseWrite session b s).2.dev = p.of s.dev := by
  simp [commResponseWrite]
  split <;> simp [h]

@[simp] theorem onNv_leaves (h : p ≠ .nv) (f) (d : Dev) : p.of (onNv f d) = p.of d := by simp [onNv, h]

@[simp] theorem setStatus_leaves (h : p ≠ .sec) (i st) (d : Dev) : p.of (setStatus i st d) = p.of d := by simp [setStatus, h]

@[simp] theorem loadCommit_leaves (h : p ≠ .seqr ∧ p ≠ .breach ∧ p ≠ .sec ∧ p ≠ .nv) (o) (d : Dev) : p.of (loadCommit o d) = p.of d := by
  unfold loadCommit
  split <;> simp [h]

@[simp] theorem loadBegin_leaves (h : p ≠ .sec ∧ p ≠ .nv) (d : Dev) : p.of (loadBegin d) = p.of d := by simp [loadBegin, h]

@[simp] theorem secVersionRaise_leaves (h : p ≠ .seqr ∧ p ≠ .breach ∧ p ≠ .sec ∧ p ≠ .nv) (o) (d : Dev) :
    p.of (secVersionRaise o d) = p.of d := by
  unfold secVersionRaise
  split <;> simp [h]

@[simp] theorem loadData_leaves (h : p ≠ .nv) (chunk) (d : Dev) : p.of (loadData chunk d) = p.of d := by
  unfold loadData
  split <;> simp [h]

@[simp] theorem loadWrite_leaves (h : p ≠ .seqr ∧ p ≠ .breach ∧ p ≠ .sec ∧ p ≠ .nv) (session sub b) (s : State) :
    p.of (loadWrite session sub b s).2.dev = p.of s.dev := by
  simp [loadWrite, h]
  split <;> simp [h]

@[simp] theorem commEndWrite_leaves (h : p ≠ .seqr ∧ p ≠ .breach ∧ p ≠ .sec) (session) (s : State) :
    p.of (commEndWrite session s).2.dev = p.of s.dev := by
  simp [commEndWrite, h]

@[simp] theorem keepIks_leaves (h : p ≠ .sec) (d : Dev) : p.of (keepIks d) = p.of d := by simp [keepIks, h]

@[simp] theorem keyWrite_leaves (h : p ≠ .seqr ∧ p ≠ .breach ∧ p ≠ .sec ∧ p ≠ .nv) (o slot key) (d : Dev) :
    p.of (keyWrite o slot key d) = p.of d := by
  simp [keyWrite, h]

@[simp] theorem keySlotWrite_leaves (h : p ≠ .seqr ∧ p ≠ .breach ∧ p ≠ .sec ∧ p ≠ .nv) (session slot key) (s : State) :
    p.of (keySlotWrite session slot key s).2.dev = p.of s.dev := by
  simp [keySlotWrite, h]

@[simp] theorem advance_leaves (h : p ≠ .seqr ∧ p ≠ .breach ∧ p ≠ .sec ∧ p ≠ .nv) (o sealing cellA cellB) (d : Dev) :
    p.of (advance o sealing cellA cellB d).2 = p.of d := by
  simp [advance]
  split <;> simp [h]

@[simp] theorem lifecycleWrite_leaves (h : p ≠ .seqr ∧ p ≠ .breach ∧ p ≠ .sec ∧ p ≠ .nv) (session sealing cellA cellB) (s : State) :
    p.of (lifecycleWrite session sealing cellA cellB s).2.dev = p.of s.dev := by
  unfold lifecycleWrite
  split <;> simp [h]

@[simp] theorem writeSecurity_leaves (h : p ≠ .aon ∧ p ≠ .seqr ∧ p ≠ .breach ∧ p ≠ .sec ∧ p ≠ .nv) (session ix sub b) (s : State) :
    p.of (writeSecurity session ix sub b s).2.dev = p.of s.dev := by
  simp [writeSecurity, h]

@[simp] theorem nmtTo_leaves (h : p ≠ .com) (n) (d : Dev) : p.of (nmtTo n d) = p.of d := by simp [nmtTo, h]

@[simp] theorem closeSessions_leaves (h : p ≠ .seqr ∧ p ≠ .breach ∧ p ≠ .sec ∧ p ≠ .com) (o l) (d : Dev) :
    p.of (closeSessions o l d) = p.of d := by
  simp [closeSessions, h]

@[simp] theorem nmtReset_leaves (h : p ≠ .seqr ∧ p ≠ .breach ∧ p ≠ .sec ∧ p ≠ .com) (s : State) : p.of (nmtReset s).dev = p.of s.dev := by
  simp [nmtReset, h]

@[simp] theorem nmtCommand_leaves (h : p ≠ .seqr ∧ p ≠ .breach ∧ p ≠ .sec ∧ p ≠ .com) (code) (s : State) :
    p.of (nmtCommand code s).dev = p.of s.dev := by
  unfold nmtCommand
  split <;> simp [h]

@[simp] theorem storeWrite_leaves (h : p ≠ .nv ∧ p ≠ .com) (session restore sub) (s : State) :
    p.of (storeWrite session restore sub s).2.dev = p.of s.dev := by
  grind [storeWrite, onNv_leaves, wrote_leaves, refuse_leaves, of_com, foldl_leaves, foldl_state_leaves, State.act_dev, devTo_dev]

@[simp] theorem pdoRestart_leaves (h : p ≠ .com) (ix) (d : Dev) : p.of (pdoRestart ix d) = p.of d := by simp [pdoRestart, h]

@[simp] theorem mappingWrite_leaves (ix sub b) (s : State) : p.of (mappingWrite ix sub b s).2.dev = p.of s.dev := by simp [mappingWrite]

@[simp] theorem writeCom_leaves (h : p ≠ .seqr ∧ p ≠ .breach ∧ p ≠ .sec ∧ p ≠ .nv ∧ p ≠ .com) (session ix sub b) (s : State) :
    p.of (writeCom session ix sub b s).2.dev = p.of s.dev := by
  simp [writeCom, h]

@[simp] theorem profileObjectWrite_leaves (ix sub b) (s : State) : p.of (profileObjectWrite ix sub b s).2.dev = p.of s.dev := by
  unfold profileObjectWrite
  simp only []
  repeat' split
  all_goals simp

@[simp] theorem envelopeWrite_leaves (ix sub b) (s : State) : p.of (envelopeWrite ix sub b s).2.dev = p.of s.dev := by
  unfold envelopeWrite
  simp only []
  repeat' split
  all_goals simp

@[simp] theorem manualRateWrite_leaves (h : p ≠ .time) (b) (s : State) : p.of (manualRateWrite b s).2.dev = p.of s.dev := by simp [manualRateWrite, h]

@[simp] theorem stepNowWrite_leaves (h : p ≠ .time) (s : State) : p.of (stepNowWrite s).2.dev = p.of s.dev := by simp [stepNowWrite, h]

@[simp] theorem ptpModeChanged_leaves (h : p ≠ .seqr ∧ p ≠ .breach ∧ p ≠ .time) (o) (d : Dev) : p.of (ptpModeChanged o d) = p.of d := by
  simp [ptpModeChanged, h]

@[simp] theorem profileWrite_leaves (h : p ≠ .time) (n) (d : Dev) : p.of (profileWrite n d) = p.of d := by simp [profileWrite, h]

@[simp] theorem profileRunWrite_leaves (h : p ≠ .time) (n) (s : State) : p.of (profileRunWrite n s).2.dev = p.of s.dev := by simp [profileRunWrite, h]

@[simp] theorem newOrigin_leaves (h : p ≠ .sched ∧ p ≠ .lcl) (d : Dev) : p.of (newOrigin d) = p.of d := by simp [newOrigin, h]

@[simp] theorem controlPeriodWrite_leaves (h : p ≠ .sched ∧ p ≠ .lcl) (b) (s : State) :
    p.of (controlPeriodWrite b s).2.dev = p.of s.dev := by
  simp [controlPeriodWrite, h]

@[simp] theorem writeTime_leaves (h : p ≠ .sched ∧ p ≠ .seqr ∧ p ≠ .breach ∧ p ≠ .time ∧ p ≠ .lcl) (ix sub b) (s : State) :
    p.of (writeTime ix sub b s).2.dev = p.of s.dev := by
  simp [writeTime, h]

@[simp] theorem modSensor_leaves (h : p ≠ .meas) (s f) (d : Dev) : p.of (modSensor s f d) = p.of d := by simp [modSensor, h]

@[simp] theorem tsClear_leaves (h : p ≠ .seqr ∧ p ≠ .breach ∧ p ≠ .meas) (o s) (d : Dev) : p.of (tsClear o s d) = p.of d := by simp [tsClear, h]

@[simp] theorem Dev_fresh_leaves (h : p ≠ .free) (d : Dev) : p.of (Dev.fresh d) = p.of d := by simp [Dev.fresh, h]

@[simp] theorem modAdc_leaves (h : p ≠ .meas) (n f) (d : Dev) : p.of (modAdc n f d) = p.of d := by simp [modAdc, h]

@[simp] theorem triggerAt_leaves (h : p ≠ .seqr ∧ p ≠ .breach ∧ p ≠ .meas ∧ p ≠ .free) (o n t) (d : Dev) :
    p.of (triggerAt o n t d) = p.of d := by
  simp [triggerAt, h]

@[simp] theorem swTriggerWrite_leaves (h : p ≠ .seqr ∧ p ≠ .breach ∧ p ≠ .meas ∧ p ≠ .free) (n) (s : State) :
    p.of (swTriggerWrite n s).2.dev = p.of s.dev := by
  simp [swTriggerWrite, h]

@[simp] theorem modAon_leaves (h : p ≠ .aon) (f) (d : Dev) : p.of (modAon f d) = p.of d := by simp [modAon, h]

@[simp] theorem readyCheck_leaves (h : p ≠ .aon ∧ p ≠ .seqr ∧ p ≠ .breach) (o) (d : Dev) : p.of (readyCheck o d) = p.of d := by simp [readyCheck, h]

@[simp] theorem calStart_leaves (h : p ≠ .meas) (boot mask) (d : Dev) : p.of (calStart boot mask d) = p.of d := by simp [calStart, h]

@[simp] theorem calStartWrite_leaves (h : p ≠ .aon ∧ p ≠ .seqr ∧ p ≠ .breach ∧ p ≠ .meas) (mask) (s : State) :
    p.of (calStartWrite mask s).2.dev = p.of s.dev := by
  simp [calStartWrite, h]

@[simp] theorem adcEnableWrite_leaves (h : p ≠ .meas) (n on) (d : Dev) : p.of (adcEnableWrite n on d) = p.of d := by simp [adcEnableWrite, h]

@[simp] theorem adcEnableWr_leaves (h : p ≠ .meas) (n on) (s : State) : p.of (adcEnableWr n on s).2.dev = p.of s.dev := by simp [adcEnableWr, h]

@[simp] theorem cmpThreshold_leaves (h : p ≠ .meas) (n) (d : Dev) : p.of (cmpThreshold n d) = p.of d := by simp [cmpThreshold, h]

@[simp] theorem thresholdWrite_leaves (h : p ≠ .meas) (n b) (s : State) : p.of (thresholdWrite n b s).2.dev = p.of s.dev := by
  simp [thresholdWrite, h]

@[simp] theorem writeMeas_leaves (h : p ≠ .aon ∧ p ≠ .seqr ∧ p ≠ .breach ∧ p ≠ .meas ∧ p ≠ .free) (ix sub b) (s : State) :
    p.of (writeMeas ix sub b s).2.dev = p.of s.dev := by
  unfold writeMeas
  simp only []
  repeat' split
  all_goals simp [h]

@[simp] theorem rtcSource_leaves (h : p ≠ .clk) (o) (d : Dev) : p.of (rtcSource o d) = p.of d := by simp [rtcSource, h]

@[simp] theorem modReset_leaves (h : p ≠ .aon) (f) (d : Dev) : p.of (modReset f d) = p.of d := by simp [modReset, h]

@[simp] theorem bootConfirm_leaves (h : p ≠ .nv) (s : State) : p.of (bootConfirm s).2.dev = p.of s.dev := by simp [bootConfirm, h]

@[simp] theorem alarmWritten_leaves (h : p ≠ .aon) (d : Dev) : p.of (alarmWritten d) = p.of d := by simp [alarmWritten, h]

@[simp] theorem groupStart_leaves (h : p ≠ .aon) (value) (d : Dev) : p.of (groupStart value d) = p.of d := by simp [groupStart, h]

@[simp] theorem groupWrite_leaves (h : p ≠ .aon) (v) (s : State) : p.of (groupWrite v s).2.dev = p.of s.dev := by simp [groupWrite, h]

@[simp] theorem domainRefused_leaves (h : p ≠ .seqr ∧ p ≠ .breach) (o m target cause detail) (d : Dev) :
    p.of (domainRefused o m target cause detail d) = p.of d := by
  simp [domainRefused, h]

@[simp] theorem loses_leaves (h : p ≠ .aon) (d : Dev) : p.of (loses d) = p.of d := by simp [loses, h]

@[simp] theorem ledgerLeaves_leaves (h : p ≠ .ledger ∧ p ≠ .mram) (d : Dev) : p.of (ledgerLeaves d) = p.of d := by simp [ledgerLeaves, h]

@[simp] theorem releaseAll_leaves (h : p ≠ .seqr ∧ p ≠ .breach) (o) (d : Dev) : p.of (releaseAll o d) = p.of d := by simp [releaseAll, h]

@[simp] theorem requesterClear_leaves (h : p ≠ .seqr ∧ p ≠ .breach ∧ p ≠ .prot ∧ p ≠ .pwm ∧ p ≠ .axes ∧ p ≠ .ladder) (o bit) (d : Dev) :
    p.of (requesterClear o bit d) = p.of d := by
  simp [requesterClear, h]

@[simp] theorem islandRequester_leaves (h : p ≠ .seqr ∧ p ≠ .breach ∧ p ≠ .prot ∧ p ≠ .pwm ∧ p ≠ .axes ∧ p ≠ .ladder) (o) (d : Dev) :
    p.of (islandRequester o d) = p.of d := by
  simp [islandRequester, h]

@[simp] theorem debugWithdraw_leaves (h : p ≠ .seqr ∧ p ≠ .breach ∧ p ≠ .prot ∧ p ≠ .pwm ∧ p ≠ .axes ∧ p ≠ .ladder ∧ p ≠ .isl) (o) (d : Dev) :
    p.of (debugWithdraw o d) = p.of d := by
  simp [debugWithdraw, h]

@[simp] theorem debugDetach_leaves (h : p ≠ .seqr ∧ p ≠ .breach ∧ p ≠ .sec ∧ p ≠ .prot ∧ p ≠ .pwm ∧ p ≠ .axes ∧ p ≠ .ladder ∧ p ≠ .isl) (o reason) (d : Dev) :
    p.of (debugDetach o reason d) = p.of d := by
  simp [debugDetach, h]

@[simp] theorem scanEnd_leaves (h : p ≠ .seqr ∧ p ≠ .breach ∧ p ≠ .sec ∧ p ≠ .prot ∧ p ≠ .pwm ∧ p ≠ .axes ∧ p ≠ .ladder ∧ p ≠ .isl) (o) (d : Dev) :
    p.of (scanEnd o d) = p.of d := by
  grind [scanEnd, onSec_leaves, record_leaves, islandRequester_leaves, of_isl, foldl_leaves, foldl_state_leaves, State.act_dev, devTo_dev]

@[simp] theorem streamsPause_leaves (h : p ≠ .seqr ∧ p ≠ .breach ∧ p ≠ .acq ∧ p ≠ .out) (o pause) (d : Dev) :
    p.of (streamsPause o pause d) = p.of d := by
  simp [streamsPause, h]

@[simp] theorem casLost_leaves (h : p ≠ .seqr ∧ p ≠ .breach ∧ p ≠ .time ∧ p ≠ .prot ∧ p ≠ .pwm ∧ p ≠ .axes ∧ p ≠ .ladder) (o cause) (d : Dev) :
    p.of (casLost o cause d) = p.of d := by
  simp [casLost, h]
  split <;> simp [h]

@[simp] theorem tbLost_leaves (h : p ≠ .seqr ∧ p ≠ .breach ∧ p ≠ .time ∧ p ≠ .prot ∧ p ≠ .pwm ∧ p ≠ .axes ∧ p ≠ .ladder) (o cause mv) (d : Dev) :
    p.of (tbLost o cause mv d) = p.of d := by
  simp [tbLost, h]

@[simp] theorem timebaseStops_leaves (h : p ≠ .clk ∧ p ≠ .sched ∧ p ≠ .seqr ∧ p ≠ .breach ∧ p ≠ .ledger) (o) (d : Dev) :
    p.of (timebaseStops o d) = p.of d := by
  simp [timebaseStops, h]

@[simp] theorem modTxn_leaves (h : p ≠ .lcl) (c f) (d : Dev) : p.of (modTxn c f d) = p.of d := by simp [modTxn, h]

@[simp] theorem closeEpoch_leaves (h : p ≠ .seqr ∧ p ≠ .breach ∧ p ≠ .lcl) (o c) (d : Dev) : p.of (closeEpoch o c d) = p.of d := by
  simp [closeEpoch, h]

@[simp] theorem keepBaseEnd_leaves (h : p ≠ .time) (d : Dev) : p.of (keepBaseEnd d) = p.of d := by simp [keepBaseEnd, h]

@[simp] theorem tripCause_leaves (h : p ≠ .seqr ∧ p ≠ .breach ∧ p ≠ .prot ∧ p ≠ .pwm ∧ p ≠ .axes ∧ p ≠ .ladder) (o bit) (d : Dev) :
    p.of (tripCause o bit d) = p.of d := by
  simp [tripCause, h]

@[simp] theorem leaveActive_leaves (h : p ≠ .seqr ∧ p ≠ .breach ∧ p ≠ .prot ∧ p ≠ .stack ∧ p ≠ .pwm ∧ p ≠ .axes ∧ p ≠ .ladder) (o c) (d : Dev) :
    p.of (leaveActive o c d) = p.of d := by
  simp [leaveActive]
  split <;> simp [h]

@[simp] theorem masterLost_leaves (h : p ≠ .seqr ∧ p ≠ .breach ∧ p ≠ .time) (o cause) (d : Dev) : p.of (masterLost o cause d) = p.of d := by
  unfold masterLost
  split <;> simp [h]

@[simp] theorem ethernetDown_leaves (h : p ≠ .seqr ∧ p ≠ .breach ∧ p ≠ .time) (o) (d : Dev) : p.of (ethernetDown o d) = p.of d := by
  simp [ethernetDown, h]

@[simp] theorem leaveEffects_leaves (h : p ≠ .clk ∧ p ≠ .aon ∧ p ≠ .sched ∧ p ≠ .seqr ∧ p ≠ .breach ∧ p ≠ .meas ∧ p ≠ .time ∧ p ≠ .sec ∧ p ≠ .prot ∧ p ≠ .lcl ∧ p ≠ .stack ∧ p ≠ .ledger ∧ p ≠ .mram ∧ p ≠ .engine ∧ p ≠ .acq ∧ p ≠ .pwm ∧ p ≠ .bridges ∧ p ≠ .axes ∧ p ≠ .ladder ∧ p ≠ .isl ∧ p ≠ .com ∧ p ≠ .out) (requested wasOn m target o) (d : Dev) :
    p.of (leaveEffects requested wasOn m target o d) = p.of d := by
  simp [leaveEffects, h]
  split <;> simp [h]

@[simp] theorem beginTransition_leaves (h : p ≠ .clk ∧ p ≠ .doms ∧ p ≠ .aon ∧ p ≠ .sched ∧ p ≠ .seqr ∧ p ≠ .breach ∧ p ≠ .meas ∧ p ≠ .time ∧ p ≠ .sec ∧ p ≠ .prot ∧ p ≠ .lcl ∧ p ≠ .stack ∧ p ≠ .ledger ∧ p ≠ .mram ∧ p ≠ .engine ∧ p ≠ .acq ∧ p ≠ .pwm ∧ p ≠ .bridges ∧ p ≠ .axes ∧ p ≠ .ladder ∧ p ≠ .isl ∧ p ≠ .com ∧ p ≠ .out) (m target cause) (s : State) :
    p.of (beginTransition m target cause s).dev = p.of s.dev := by
  simp [beginTransition, h]

@[simp] theorem domainRequest_leaves (h : p ≠ .clk ∧ p ≠ .doms ∧ p ≠ .aon ∧ p ≠ .sched ∧ p ≠ .seqr ∧ p ≠ .breach ∧ p ≠ .meas ∧ p ≠ .time ∧ p ≠ .sec ∧ p ≠ .prot ∧ p ≠ .lcl ∧ p ≠ .stack ∧ p ≠ .ledger ∧ p ≠ .mram ∧ p ≠ .engine ∧ p ≠ .acq ∧ p ≠ .pwm ∧ p ≠ .bridges ∧ p ≠ .axes ∧ p ≠ .ladder ∧ p ≠ .isl ∧ p ≠ .com ∧ p ≠ .out) (m target) (s : State) :
    p.of (domainRequest m target s).2.dev = p.of s.dev := by
  unfold domainRequest
  simp only []
  repeat' split
  all_goals simp [h]

@[simp] theorem groupEnd_leaves (h : p ≠ .aon ∧ p ≠ .seqr ∧ p ≠ .breach) (o refused byWake) (d : Dev) :
    p.of (groupEnd o refused byWake d) = p.of d := by
  unfold groupEnd
  split <;> simp [h]

@[simp] theorem startWake_leaves (h : p ≠ .aon ∧ p ≠ .seqr ∧ p ≠ .breach) (o sources primary route preempts) (d : Dev) :
    p.of (startWake o sources primary route preempts d) = p.of d := by
  simp [startWake, h]

@[simp] theorem wakeAccept_leaves (h : p ≠ .aon ∧ p ≠ .seqr ∧ p ≠ .breach) (o edges preempts) (d : Dev) :
    p.of (wakeAccept o edges preempts d) = p.of d := by
  simp [wakeAccept, h]

@[simp] theorem wakeEnabled_leaves (h : p ≠ .aon ∧ p ≠ .seqr ∧ p ≠ .breach) (o was now) (d : Dev) :
    p.of (wakeEnabled o was now d) = p.of d := by
  simp [wakeEnabled, h]

@[simp] theorem writeAon_leaves (h : p ≠ .clk ∧ p ≠ .doms ∧ p ≠ .aon ∧ p ≠ .sched ∧ p ≠ .seqr ∧ p ≠ .breach ∧ p ≠ .meas ∧ p ≠ .time ∧ p ≠ .sec ∧ p ≠ .nv ∧ p ≠ .prot ∧ p ≠ .lcl ∧ p ≠ .stack ∧ p ≠ .ledger ∧ p ≠ .mram ∧ p ≠ .engine ∧ p ≠ .acq ∧ p ≠ .pwm ∧ p ≠ .bridges ∧ p ≠ .axes ∧ p ≠ .ladder ∧ p ≠ .isl ∧ p ≠ .com ∧ p ≠ .out) (ix sub b) (s : State) :
    p.of (writeAon ix sub b s).2.dev = p.of s.dev := by
  simp [writeAon, h]

@[simp] theorem chopDisaWrite_leaves (h : p ≠ .seqr ∧ p ≠ .breach ∧ p ≠ .pwm ∧ p ≠ .bridges ∧ p ≠ .axes ∧ p ≠ .ladder) (s : State) :
    p.of (chopDisaWrite s).2.dev = p.of s.dev := by
  simp [chopDisaWrite, h]

@[simp] theorem errantWrite_leaves (h : p ≠ .seqr ∧ p ≠ .breach ∧ p ≠ .lcl) (c) (s : State) :
    p.of (errantWrite c s).2.dev = p.of s.dev := by
  simp [errantWrite, h]

@[simp] theorem bypassCell_leaves (h : p ≠ .seqr ∧ p ≠ .breach ∧ p ≠ .prot ∧ p ≠ .stack ∧ p ≠ .pwm ∧ p ≠ .axes ∧ p ≠ .ladder) (o c trigger bit) (d : Dev) :
    p.of (bypassCell o c trigger bit d) = p.of d := by
  simp [bypassCell, h]
  split <;> simp [h]

@[simp] theorem cellAction_leaves (h : p ≠ .seqr ∧ p ≠ .breach ∧ p ≠ .prot ∧ p ≠ .stack ∧ p ≠ .pwm ∧ p ≠ .axes ∧ p ≠ .ladder) (o action c trigger bit) (d : Dev) :
    p.of (cellAction o action c trigger bit d) = p.of d := by
  simp [cellAction, h]

@[simp] theorem cellFell_leaves (h : p ≠ .seqr ∧ p ≠ .breach ∧ p ≠ .prot ∧ p ≠ .stack ∧ p ≠ .pwm ∧ p ≠ .axes ∧ p ≠ .ladder) (o c st presumed) (d : Dev) :
    p.of (cellFell o c st presumed d) = p.of d := by
  simp [cellFell]
  split <;> simp [h]

@[simp] theorem openEpoch_leaves (h : p ≠ .lcl) (o c k) (d : Dev) : p.of (openEpoch o c k d) = p.of d := by simp [openEpoch, h]

@[simp] theorem setCell_leaves (h : p ≠ .lcl) (c x) (d : Dev) : p.of (setCell c x d) = p.of d := by simp [setCell, h]

@[simp] theorem sessEnter_leaves (h : p ≠ .seqr ∧ p ≠ .breach ∧ p ≠ .prot ∧ p ≠ .lcl ∧ p ≠ .stack ∧ p ≠ .pwm ∧ p ≠ .axes ∧ p ≠ .ladder) (o c st reason k) (d : Dev) :
    p.of (sessEnter o c st reason k d) = p.of d := by
  delta sessEnter
  dsimp only
  have hopen (st : SessState) (e : Dev) : p.of (match st with
      | .fawn => openEpoch o c k e
      | .resync => openEpoch o c k (closeEpoch o c e)
      | .absent => closeEpoch o c e
      | .discover => closeEpoch o c e
      | .admitting => closeEpoch o c e
      | .blocked => closeEpoch o c e
      | .fault => closeEpoch o c e
      | _ => e) = p.of e := by cases st <;> simp [h]
  cases st <;> simp [h]

@[simp] theorem ringStop_leaves (h : p ≠ .seqr ∧ p ≠ .breach ∧ p ≠ .prot ∧ p ≠ .lcl ∧ p ≠ .stack ∧ p ≠ .pwm ∧ p ≠ .axes ∧ p ≠ .ladder) (o r) (d : Dev) :
    p.of (ringStop o r d) = p.of d := by
  simp [ringStop, h]

@[simp] theorem ringStopWrite_leaves (h : p ≠ .seqr ∧ p ≠ .breach ∧ p ≠ .prot ∧ p ≠ .lcl ∧ p ≠ .stack ∧ p ≠ .pwm ∧ p ≠ .axes ∧ p ≠ .ladder) (r) (s : State) :
    p.of (ringStopWrite r s).2.dev = p.of s.dev := by
  simp [ringStopWrite, h]

@[simp] theorem thenArrCheck_leaves (h : p ≠ .stack) (ix) (w : Wrote) : p.of (thenArrCheck ix w).2.dev = p.of w.2.dev := by
  unfold thenArrCheck
  split <;> simp [h]

@[simp] theorem queueControl_leaves (h : p ≠ .lcl) (c mtype body) (d : Dev) : p.of (queueControl c mtype body d) = p.of d := by simp [queueControl, h]

@[simp] theorem rsynWrite_leaves (h : p ≠ .lcl) (c) (s : State) : p.of (rsynWrite c s).2.dev = p.of s.dev := by simp [rsynWrite, h]

@[simp] theorem leavWrite_leaves (h : p ≠ .lcl) (c) (s : State) : p.of (leavWrite c s).2.dev = p.of s.dev := by simp [leavWrite, h]

@[simp] theorem ringStart_leaves (h : p ≠ .seqr ∧ p ≠ .breach ∧ p ≠ .lcl) (o r) (d : Dev) : p.of (ringStart o r d) = p.of d := by simp [ringStart, h]

@[simp] theorem ringStartWrite_leaves (h : p ≠ .seqr ∧ p ≠ .breach ∧ p ≠ .lcl) (r) (s : State) :
    p.of (ringStartWrite r s).2.dev = p.of s.dev := by
  simp [ringStartWrite, h]

@[simp] theorem swapWrite_leaves (h : p ≠ .lcl) (r) (s : State) : p.of (swapWrite r s).2.dev = p.of s.dev := by simp [swapWrite, h]

@[simp] theorem writeLink_leaves (h : p ≠ .seqr ∧ p ≠ .breach ∧ p ≠ .prot ∧ p ≠ .lcl ∧ p ≠ .stack ∧ p ≠ .pwm ∧ p ≠ .axes ∧ p ≠ .ladder) (ix sub b) (s : State) :
    p.of (writeLink ix sub b s).2.dev = p.of s.dev := by
  simp [writeLink, h]

@[simp] theorem emit_leaves (h : p ≠ .com ∧ p ≠ .out) (n x) (d : Dev) : p.of (emit n x d) = p.of d := by simp [emit, h]

@[simp] theorem arpAsk_leaves (h : p ≠ .out) (mac ip) (d : Dev) : p.of (arpAsk mac ip d) = p.of d := by simp [arpAsk, h]

@[simp] theorem netBusy_leaves (h : p ≠ .doms) (d : Dev) : p.of (netBusy d) = p.of d := by simp [netBusy, h]

@[simp] theorem sdoTouch_leaves (h : p ≠ .doms ∧ p ≠ .com) (n) (s : State) : p.of (sdoTouch n s).dev = p.of s.dev := by simp [sdoTouch, h]

@[simp] theorem recordAbort_leaves (h : p ≠ .com) (n ix sub a) (d : Dev) : p.of (recordAbort n ix sub a d) = p.of d := by simp [recordAbort, h]

@[simp] theorem setTransfer_leaves (h : p ≠ .com) (n t) (s : State) : p.of (setTransfer n t s).dev = p.of s.dev := by simp [setTransfer, h]

@[simp] theorem abandon_leaves (h : p ≠ .com) (n) (s : State) : p.of (abandon n s).dev = p.of s.dev := by
  unfold abandon
  split <;> simp [h]

@[simp] theorem closeNow_leaves (h : p ≠ .seqr ∧ p ≠ .breach ∧ p ≠ .sec ∧ p ≠ .com) (o n) (d : Dev) : p.of (closeNow o n d) = p.of d := by
  simp [closeNow, h]

@[simp] theorem wakeForgotten_leaves (h : p ≠ .aon) (d : Dev) : p.of (wakeForgotten d) = p.of d := by simp [wakeForgotten, h]

@[simp] theorem keepAbandoned_leaves (h : p ≠ .acq) (before) (d : Dev) : p.of (keepAbandoned before d) = p.of d := by simp [keepAbandoned, h]

@[simp] theorem amendReset_leaves (h : p ≠ .aon ∧ p ≠ .seqr) (d : Dev) : p.of (amendReset d) = p.of d := by
  grind [amendReset, modReset_leaves, of_seqr, foldl_leaves, foldl_state_leaves, State.act_dev, devTo_dev]

@[simp] theorem mailboxAnswer_leaves (h : p ≠ .acq ∧ p ≠ .com ∧ p ≠ .out ∧ p ≠ .free) (slot b) (d : Dev) :
    p.of (mailboxAnswer slot b d) = p.of d := by
  simp [mailboxAnswer, h]
  split <;> simp [h]

@[simp] theorem sendResponse_leaves (h : p ≠ .acq ∧ p ≠ .com ∧ p ≠ .out ∧ p ≠ .free) (n seq b) (d : Dev) :
    p.of (sendResponse n seq b d) = p.of d := by
  simp [sendResponse, h]

@[simp] theorem beginTransfer_leaves (h : p ≠ .com) (n t) (s : State) : p.of (beginTransfer n t s).2.dev = p.of s.dev := by simp [beginTransfer, h]

@[simp] theorem commChallenge_leaves (h : p ≠ .sec ∧ p ≠ .free) (session) (d : Dev) : p.of (commChallenge session d).2 = p.of d := by
  simp [commChallenge, h]

@[simp] theorem fetchValue_leaves (h : p ≠ .sec ∧ p ≠ .free) (n ix sub) (s : State) : p.of (fetchValue n ix sub s).2.dev = p.of s.dev := by
  unfold fetchValue
  split <;> simp [h]

@[simp] theorem tpdoSend_leaves (h : p ≠ .doms ∧ p ≠ .com ∧ p ≠ .out ∧ p ≠ .free) (n b) (s : State) :
    p.of (tpdoSend n b s).dev = p.of s.dev := by
  simp [tpdoSend, h]

@[simp] theorem tpdoChange_leaves (h : p ≠ .doms ∧ p ≠ .com ∧ p ≠ .out ∧ p ≠ .free) (n) (s : State) :
    p.of (tpdoChange n s).dev = p.of s.dev := by
  simp [tpdoChange, h]

@[simp] theorem requestFailed_leaves (h : p ≠ .seqr ∧ p ≠ .breach ∧ p ≠ .prot ∧ p ≠ .lcl ∧ p ≠ .stack ∧ p ≠ .pwm ∧ p ≠ .axes ∧ p ≠ .ladder) (o c k r cause) (d : Dev) :
    p.of (requestFailed o c k r cause d) = p.of d := by
  simp [requestFailed, h]

@[simp] theorem launchTimeout_leaves (h : p ≠ .seqr ∧ p ≠ .breach ∧ p ≠ .prot ∧ p ≠ .lcl ∧ p ≠ .stack ∧ p ≠ .pwm ∧ p ≠ .axes ∧ p ≠ .ladder) (c o) (d : Dev) :
    p.of (launchTimeout c o d) = p.of d := by
  simp [launchTimeout, h]

@[simp] theorem pdelayReq_leaves (h : p ≠ .out) (o mac domain requester seq) (d : Dev) :
    p.of (pdelayReq o mac domain requester seq d) = p.of d := by
  simp [pdelayReq, h]

@[simp] theorem perstAssert_leaves (h : p ≠ .seqr ∧ p ≠ .breach ∧ p ≠ .sec ∧ p ≠ .acq ∧ p ≠ .com) (o) (d : Dev) :
    p.of (perstAssert o d) = p.of d := by
  simp [perstAssert, h]

@[simp] theorem faultPin_leaves (h : p ≠ .seqr ∧ p ≠ .breach ∧ p ≠ .pwm ∧ p ≠ .axes ∧ p ≠ .ladder) (o n active) (d : Dev) :
    p.of (faultPin o n active d) = p.of d := by
  simp [faultPin, h]

@[simp] theorem commLockoutEnd_leaves (h : p ≠ .aon) (d : Dev) : p.of (commLockoutEnd d) = p.of d := by
  unfold commLockoutEnd
  split <;> simp [h]

@[simp] theorem groupStep_leaves (h : p ≠ .clk ∧ p ≠ .doms ∧ p ≠ .aon ∧ p ≠ .sched ∧ p ≠ .seqr ∧ p ≠ .breach ∧ p ≠ .meas ∧ p ≠ .time ∧ p ≠ .sec ∧ p ≠ .prot ∧ p ≠ .lcl ∧ p ≠ .stack ∧ p ≠ .ledger ∧ p ≠ .mram ∧ p ≠ .engine ∧ p ≠ .acq ∧ p ≠ .pwm ∧ p ≠ .bridges ∧ p ≠ .axes ∧ p ≠ .ladder ∧ p ≠ .isl ∧ p ≠ .com ∧ p ≠ .out) (s : State) :
    p.of (groupStep s).dev = p.of s.dev := by
  unfold groupStep
  simp only []
  repeat' split
  all_goals simp [h]

@[simp] theorem idleExpiry_leaves (h : p ≠ .clk ∧ p ≠ .doms ∧ p ≠ .aon ∧ p ≠ .sched ∧ p ≠ .seqr ∧ p ≠ .breach ∧ p ≠ .meas ∧ p ≠ .time ∧ p ≠ .sec ∧ p ≠ .prot ∧ p ≠ .lcl ∧ p ≠ .stack ∧ p ≠ .ledger ∧ p ≠ .mram ∧ p ≠ .engine ∧ p ≠ .acq ∧ p ≠ .pwm ∧ p ≠ .bridges ∧ p ≠ .axes ∧ p ≠ .ladder ∧ p ≠ .isl ∧ p ≠ .com ∧ p ≠ .out) (m) (s : State) :
    p.of (idleExpiry m s).dev = p.of s.dev := by
  simp [idleExpiry, h]

@[simp] theorem tapReset_leaves (h : p ≠ .seqr ∧ p ≠ .breach ∧ p ≠ .sec ∧ p ≠ .prot ∧ p ≠ .pwm ∧ p ≠ .axes ∧ p ≠ .ladder ∧ p ≠ .isl) (o reason) (d : Dev) :
    p.of (tapReset o reason d) = p.of d := by
  simp [tapReset, h]

@[simp] theorem bridgesHold_leaves (h : p ≠ .seqr ∧ p ≠ .breach ∧ p ≠ .pwm ∧ p ≠ .bridges ∧ p ≠ .axes ∧ p ≠ .ladder) (o kind) (d : Dev) :
    p.of (bridgesHold o kind d) = p.of d := by
  simp [bridgesHold, h]

@[simp] theorem vdrvLost_leaves (h : p ≠ .seqr ∧ p ≠ .breach ∧ p ≠ .pwm ∧ p ≠ .bridges ∧ p ≠ .axes ∧ p ≠ .ladder) (o) (d : Dev) :
    p.of (vdrvLost o d) = p.of d := by
  simp [vdrvLost, h]

@[simp] theorem standbyCheck_leaves (h : p ≠ .rails ∧ p ≠ .aon) (d : Dev) : p.of (standbyCheck d) = p.of d := by
  grind [standbyCheck, modReset_leaves, of_rails, foldl_leaves, foldl_state_leaves, State.act_dev, devTo_dev]

@[simp] theorem setRail_leaves (h : p ≠ .rails) (r ok lost) (d : Dev) : p.of (setRail r ok lost d) = p.of d := by simp [setRail, h]

@[simp] theorem domainChanged_leaves (h : p ≠ .seqr ∧ p ≠ .breach) (o m old new cause) (d : Dev) :
    p.of (domainChanged o m old new cause d) = p.of d := by
  simp [domainChanged, h]

@[simp] theorem wakeSees_leaves (h : p ≠ .aon ∧ p ≠ .free) (o w) (d : Dev) : p.of (wakeSees o w d).2 = p.of d := by simp [wakeSees, h]

@[simp] theorem servo_leaves (h : p ≠ .time) (o off t) (d : Dev) : p.of (servo o off t d) = p.of d := by simp [servo, h]

@[simp] theorem lockCheck_leaves (h : p ≠ .seqr ∧ p ≠ .breach ∧ p ≠ .time) (o off) (d : Dev) : p.of (lockCheck o off d) = p.of d := by
  simp [lockCheck, h]

@[simp] theorem timeStep_leaves (h : p ≠ .clk ∧ p ≠ .sched ∧ p ≠ .seqr ∧ p ≠ .breach ∧ p ≠ .time ∧ p ≠ .lcl ∧ p ≠ .ledger) (o delta) (d : Dev) :
    p.of (timeStep o delta d) = p.of d := by
  simp [timeStep, h]

@[simp] theorem beyondThreshold_leaves (h : p ≠ .clk ∧ p ≠ .sched ∧ p ≠ .seqr ∧ p ≠ .breach ∧ p ≠ .time ∧ p ≠ .lcl ∧ p ≠ .ledger) (o off gm) (d : Dev) :
    p.of (beyondThreshold o off gm d) = p.of d := by
  simp [beyondThreshold, h]
  split <;> simp [h]

@[simp] theorem syncComplete_leaves (h : p ≠ .clk ∧ p ≠ .sched ∧ p ≠ .seqr ∧ p ≠ .breach ∧ p ≠ .time ∧ p ≠ .lcl ∧ p ≠ .ledger) (o m t2 originNs correction) (d : Dev) :
    p.of (syncComplete o m t2 originNs correction d) = p.of d := by
  simp [syncComplete, h]

@[simp] theorem ptpFollowUp_leaves (h : p ≠ .clk ∧ p ≠ .sched ∧ p ≠ .seqr ∧ p ≠ .breach ∧ p ≠ .time ∧ p ≠ .lcl ∧ p ≠ .ledger) (o mac udp domain parent seq originNs correction) (d : Dev) :
    p.of (ptpFollowUp o mac udp domain parent seq originNs correction d) = p.of d := by
  simp [ptpFollowUp]
  split <;> simp [h]

@[simp] theorem violation_leaves (h : p ≠ .seqr ∧ p ≠ .breach) (o r follows) (d : Dev) : p.of (violation o r follows d) = p.of d := by
  simp [violation, h]

@[simp] theorem tellFollowers_leaves (h : p ≠ .pwm) (o q t) (d : Dev) : p.of (tellFollowers o q t d) = p.of d := by simp [tellFollowers, h]

@[simp] theorem recordFiltered_leaves (h : p ≠ .seqr ∧ p ≠ .breach ∧ p ≠ .pwm) (o q f) (d : Dev) :
    p.of (recordFiltered o q f d) = p.of d := by
  simp [recordFiltered, h]

@[simp] theorem recordPlacing_leaves (h : p ≠ .seqr ∧ p ≠ .breach ∧ p ≠ .pwm) (o q s) (d : Dev) :
    p.of (recordPlacing o q s d) = p.of d := by
  simp [recordPlacing, h]

@[simp] theorem axisResume_leaves (h : p ≠ .axes) (o q t) (d : Dev) : p.of (axisResume o q t d) = p.of d := by simp [axisResume, h]

@[simp] theorem bridgeResume_leaves (h : p ≠ .seqr ∧ p ≠ .breach ∧ p ≠ .pwm ∧ p ≠ .bridges) (o q t) (d : Dev) :
    p.of (bridgeResume o q t d) = p.of d := by
  unfold bridgeResume
  simp only []
  repeat' split
  all_goals simp [h]

@[simp] theorem countRefresh_leaves (h : p ≠ .pwm) (o q t) (d : Dev) : p.of (countRefresh o q t d) = p.of d := by
  unfold countRefresh
  split <;> simp [h]

@[simp] theorem cutoffAt_leaves (h : p ≠ .seqr ∧ p ≠ .breach ∧ p ≠ .pwm ∧ p ≠ .ladder) (o q t) (d : Dev) :
    p.of (cutoffAt o q t d) = p.of d := by
  simp [cutoffAt]
  split <;> simp [h]

@[simp] theorem bridgeActive_leaves (h : p ≠ .bridges) (q) (d : Dev) : p.of (bridgeActive q d) = p.of d := by
  unfold bridgeActive
  split <;> simp [h]

@[simp] theorem periodStart_leaves (h : p ≠ .seqr ∧ p ≠ .breach ∧ p ≠ .pwm ∧ p ≠ .bridges ∧ p ≠ .axes ∧ p ≠ .ladder) (o q t) (d0 : Dev) :
    p.of (periodStart o q t d0) = p.of d0 := by
  simp [periodStart, h]

@[simp] theorem periodInterlock_leaves (h : p ≠ .seqr ∧ p ≠ .breach ∧ p ≠ .bridges) (o q t seen) (d : Dev) :
    p.of (periodInterlock o q t seen d) = p.of d := by
  unfold periodInterlock
  split <;> simp [h]

@[simp] theorem pairStart_leaves (h : p ≠ .seqr ∧ p ≠ .breach ∧ p ≠ .pwm ∧ p ≠ .bridges ∧ p ≠ .axes ∧ p ≠ .ladder) (o q seen) (d : Dev) :
    p.of (pairStart o q seen d) = p.of d := by
  unfold pairStart
  split <;> simp [h]

@[simp] theorem ceFlag_leaves (h : p ≠ .seqr ∧ p ≠ .breach ∧ p ≠ .engine) (o n bits) (d : Dev) : p.of (ceFlag o n bits d) = p.of d := by
  simp [ceFlag, h]

@[simp] theorem cePass_leaves (h : p ≠ .engine) (n) (d : Dev) : p.of (cePass n d) = p.of d := by simp [cePass, h]

@[simp] theorem ceTake_leaves (h : p ≠ .engine) (o n t) (d : Dev) : p.of (ceTake o n t d) = p.of d := by simp [ceTake, h]

@[simp] theorem ceTakeAdc_leaves (h : p ≠ .seqr ∧ p ≠ .breach ∧ p ≠ .engine) (o n) (d : Dev) : p.of (ceTakeAdc o n d) = p.of d := by
  simp [ceTakeAdc, h]

@[simp] theorem ceJudge_leaves (h : p ≠ .seqr ∧ p ≠ .breach ∧ p ≠ .engine) (o n) (d0 : Dev) : p.of (ceJudge o n d0) = p.of d0 := by simp [ceJudge, h]

@[simp] theorem ceTrigger_leaves (h : p ≠ .seqr ∧ p ≠ .breach ∧ p ≠ .engine) (o n) (d : Dev) : p.of (ceTrigger o n d) = p.of d := by
  simp [ceTrigger, h]
  repeat' split
  all_goals simp [h]

@[simp] theorem autoRelease_leaves (h : p ≠ .seqr ∧ p ≠ .breach ∧ p ≠ .pwm) (o g) (d : Dev) : p.of (autoRelease o g d) = p.of d := by
  simp [autoRelease, h]

@[simp] theorem writeShadow_leaves (h : p ≠ .aon) (d : Dev) : p.of (writeShadow d) = p.of d := by simp [writeShadow, h]

@[simp] theorem storeAnswer_leaves (h : p ≠ .seqr ∧ p ≠ .breach ∧ p ≠ .sec ∧ p ≠ .acq ∧ p ≠ .com ∧ p ≠ .out ∧ p ≠ .free) (op ok o) (d : Dev) :
    p.of (storeAnswer op ok o d) = p.of d := by
  unfold storeAnswer
  split <;> simp [h]

@[simp] theorem storeComplete_leaves (h : p ≠ .aon ∧ p ≠ .seqr ∧ p ≠ .breach ∧ p ≠ .sec ∧ p ≠ .nv ∧ p ≠ .acq ∧ p ≠ .com ∧ p ≠ .out ∧ p ≠ .free) (ok) (s : State) :
    p.of (storeComplete ok s).dev = p.of s.dev := by
  unfold storeComplete
  split <;> simp [h]

@[simp] theorem loseRecord_leaves (h : p ≠ .acq) (s time ident mark) (d : Dev) : p.of (loseRecord s time ident mark d) = p.of d := by
  simp [loseRecord, h]

@[simp] theorem yieldEvent_leaves (h : p ≠ .seqr ∧ p ≠ .breach ∧ p ≠ .free) (o winner loser ident code source) (d : Dev) :
    p.of (yieldEvent o winner loser ident code source d) = p.of d := by
  simp [yieldEvent, h]

@[simp] theorem yieldTo_leaves (h : p ≠ .seqr ∧ p ≠ .breach ∧ p ≠ .free) (o winner loser ident code source) (d : Dev) :
    p.of (yieldTo o winner loser ident code source d) = p.of d := by
  simp [yieldTo, h]

@[simp] theorem stage_leaves (h : p ≠ .acq) (s rtype flags time payload) (d : Dev) :
    p.of (stage s rtype flags time payload d) = p.of d := by
  simp [stage, h]

@[simp] theorem endGap_leaves (h : p ≠ .seqr ∧ p ≠ .breach ∧ p ≠ .acq ∧ p ≠ .free) (o s time g) (d : Dev) :
    p.of (endGap o s time g d) = p.of d := by
  simp [endGap, h]

@[simp] theorem place_leaves (h : p ≠ .seqr ∧ p ≠ .breach ∧ p ≠ .acq ∧ p ≠ .free) (o s rtype flags time ident own payload) (d : Dev) :
    p.of (place o s rtype flags time ident own payload d) = p.of d := by
  simp [place]
  split <;> simp [h]

@[simp] theorem stageEvents_leaves (h : p ≠ .seqr ∧ p ≠ .breach ∧ p ≠ .acq ∧ p ≠ .free) (o s) (d : Dev) :
    p.of (stageEvents o s d) = p.of d := by
  simp [stageEvents, h]

@[simp] theorem stageAllEvents_leaves (h : p ≠ .seqr ∧ p ≠ .breach ∧ p ≠ .acq ∧ p ≠ .free) (o) (d : Dev) :
    p.of (stageAllEvents o d) = p.of d := by
  simp [stageAllEvents, h]

@[simp] theorem firstFault_leaves (h : p ≠ .prot) (o) (d : Dev) : p.of (firstFault o d) = p.of d := by
  simp [firstFault]
  split <;> simp [h]

@[simp] theorem windowClose_leaves (h : p ≠ .seqr ∧ p ≠ .breach ∧ p ≠ .prot ∧ p ≠ .acq ∧ p ≠ .free) (o) (d : Dev) :
    p.of (windowClose o d) = p.of d := by
  simp [windowClose, h]

@[simp] theorem orderBroken_leaves (h : p ≠ .rails ∧ p ≠ .seqr ∧ p ≠ .breach) (r follows) (d : Dev) (o) :
    p.of (orderBroken r follows d o) = p.of d := by
  simp [orderBroken, h]

@[simp] theorem vdrvRestored_leaves (h : p ≠ .seqr ∧ p ≠ .breach) (o) (d : Dev) : p.of (vdrvRestored o d) = p.of d := by simp [vdrvRestored, h]

@[simp] theorem pairCutoff_leaves (h : p ≠ .seqr ∧ p ≠ .breach ∧ p ≠ .pwm ∧ p ≠ .ladder) (o q) (d : Dev) :
    p.of (pairCutoff o q d) = p.of d := by
  unfold pairCutoff
  split <;> simp [h]

@[simp] theorem checkpointInterval_leaves (h : p ≠ .ledger ∧ p ≠ .mram) (o) (d : Dev) : p.of (checkpointInterval o d) = p.of d := by
  simp [checkpointInterval, h]

@[simp] theorem configRequest_leaves (h : p ≠ .seqr ∧ p ≠ .breach ∧ p ≠ .sec ∧ p ≠ .acq ∧ p ≠ .com ∧ p ≠ .out) (o write reg v) (d : Dev) :
    p.of (configRequest o write reg v d) = p.of d := by
  simp [configRequest, h]

@[simp] theorem whileDrv_leaves {f : Od → Dev → Dev} (hf : ∀ o e, p.of (f o e) = p.of e) (o) (d : Dev) :
    p.of (whileDrv f o d) = p.of d := by
  simp [whileDrv, hf]

@[simp] theorem axisFlag_leaves (h : p ≠ .axes) (n i) (d : Dev) : p.of (axisFlag n i d) = p.of d := by simp [axisFlag, h]

@[simp] theorem startFailed_leaves (h : p ≠ .seqr ∧ p ≠ .breach ∧ p ≠ .axes) (o n reason) (d : Dev) :
    p.of (startFailed o n reason d) = p.of d := by
  simp [startFailed, h]

@[simp] theorem axisStartTimeout_leaves (h : p ≠ .seqr ∧ p ≠ .breach ∧ p ≠ .axes) (o n) (d : Dev) :
    p.of (axisStartTimeout o n d) = p.of d := by
  simp [axisStartTimeout]
  split <;> simp [h]

@[simp] theorem partnerError_leaves (h : p ≠ .seqr ∧ p ≠ .breach ∧ p ≠ .prot ∧ p ≠ .lcl ∧ p ≠ .stack ∧ p ≠ .pwm ∧ p ≠ .axes ∧ p ≠ .ladder) (o c kind mtype tag grant k) (d : Dev) :
    p.of (partnerError o c kind mtype tag grant k d) = p.of d := by
  simp [partnerError, h]

@[simp] theorem endRequest_leaves (h : p ≠ .lcl) (c tag freed) (d : Dev) : p.of (endRequest c tag freed d) = p.of d := by simp [endRequest, h]

@[simp] theorem attemptFailed_leaves (h : p ≠ .seqr ∧ p ≠ .breach ∧ p ≠ .prot ∧ p ≠ .lcl ∧ p ≠ .stack ∧ p ≠ .pwm ∧ p ≠ .axes ∧ p ≠ .ladder) (o c k tag) (d : Dev) :
    p.of (attemptFailed o c k tag d) = p.of d := by
  unfold attemptFailed
  split <;> simp [h]

@[simp] theorem reconcileDone_leaves (h : p ≠ .seqr ∧ p ≠ .breach ∧ p ≠ .lcl ∧ p ≠ .free) (o r) (d : Dev) :
    p.of (reconcileDone o r d) = p.of d := by
  simp [reconcileDone]
  split <;> simp [h]

@[simp] theorem reconcileEnd_leaves (h : p ≠ .seqr ∧ p ≠ .breach ∧ p ≠ .lcl ∧ p ≠ .free) (o c answered) (d : Dev) :
    p.of (reconcileEnd o c answered d) = p.of d := by
  simp [reconcileEnd]
  split <;> simp [h]

@[simp] theorem rxCredit_leaves (h : p ≠ .seqr ∧ p ≠ .breach ∧ p ≠ .lcl ∧ p ≠ .free) (o c m) (d : Dev) :
    p.of (rxCredit o c m d) = p.of d := by
  simp [rxCredit, h]

@[simp] theorem nextOrd_leaves (h : p ≠ .lcl) (c) (d : Dev) : p.of (nextOrd c d).2 = p.of d := by simp [nextOrd, h]

@[simp] theorem queueReq_leaves (h : p ≠ .lcl) (c mtype body) (d : Dev) : p.of (queueReq c mtype body d) = p.of d := by simp [queueReq, h]

@[simp] theorem exEnter_leaves (h : p ≠ .lcl) (c st) (d : Dev) : p.of (exEnter c st d) = p.of d := by
  simp [exEnter]
  split <;> simp [h]

@[simp] theorem enterParam_leaves (h : p ≠ .seqr ∧ p ≠ .breach ∧ p ≠ .prot ∧ p ≠ .lcl ∧ p ≠ .stack ∧ p ≠ .pwm ∧ p ≠ .axes ∧ p ≠ .ladder) (o c k st used) (d : Dev) :
    p.of (enterParam o c k st used d) = p.of d := by
  simp [enterParam, h]

@[simp] theorem verifyFailed_leaves (h : p ≠ .seqr ∧ p ≠ .breach ∧ p ≠ .prot ∧ p ≠ .lcl ∧ p ≠ .stack ∧ p ≠ .pwm ∧ p ≠ .axes ∧ p ≠ .ladder) (o c k code again expected reported) (d : Dev) :
    p.of (verifyFailed o c k code again expected reported d) = p.of d := by
  simp [verifyFailed, h]

@[simp] theorem resendFrom_leaves (h : p ≠ .seqr ∧ p ≠ .breach ∧ p ≠ .prot ∧ p ≠ .lcl ∧ p ≠ .stack ∧ p ≠ .pwm ∧ p ≠ .axes ∧ p ≠ .ladder) (o c k off r) (d : Dev) :
    p.of (resendFrom o c k off r d) = p.of d := by
  simp [resendFrom, h]

@[simp] theorem onAnswer_leaves (h : p ≠ .seqr ∧ p ≠ .breach ∧ p ≠ .prot ∧ p ≠ .lcl ∧ p ≠ .stack ∧ p ≠ .pwm ∧ p ≠ .axes ∧ p ≠ .ladder) (o c k r m) (d : Dev) :
    p.of (onAnswer o c k r m d) = p.of d := by
  unfold onAnswer
  split <;> simp [h]

@[simp] theorem nakReceived_leaves (h : p ≠ .seqr ∧ p ≠ .breach ∧ p ≠ .prot ∧ p ≠ .lcl ∧ p ≠ .stack ∧ p ≠ .pwm ∧ p ≠ .axes ∧ p ≠ .ladder) (o c k m) (d : Dev) :
    p.of (nakReceived o c k m d) = p.of d := by
  simp [nakReceived, h]

@[simp] theorem nakRequest_leaves (h : p ≠ .seqr ∧ p ≠ .breach ∧ p ≠ .prot ∧ p ≠ .lcl ∧ p ≠ .stack ∧ p ≠ .pwm ∧ p ≠ .axes ∧ p ≠ .ladder) (o c k r) (d : Dev) :
    p.of (nakRequest o c k r d) = p.of d := by
  simp [nakRequest, h]

@[simp] theorem rxResponse_leaves (h : p ≠ .seqr ∧ p ≠ .breach ∧ p ≠ .prot ∧ p ≠ .lcl ∧ p ≠ .stack ∧ p ≠ .pwm ∧ p ≠ .axes ∧ p ≠ .ladder) (o c k m) (d : Dev) :
    p.of (rxResponse o c k m d).2 = p.of d := by
  unfold rxResponse
  simp only []
  repeat' split
  all_goals simp [h]

@[simp] theorem takeGrant_leaves (h : p ≠ .seqr ∧ p ≠ .breach ∧ p ≠ .prot ∧ p ≠ .lcl ∧ p ≠ .stack ∧ p ≠ .pwm ∧ p ≠ .axes ∧ p ≠ .ladder) (o c k m) (d : Dev) :
    p.of (takeGrant o c k m d) = p.of d := by
  simp [takeGrant, h]

@[simp] theorem resyncArm_leaves (h : p ≠ .lcl) (c) (d : Dev) : p.of (resyncArm c d) = p.of d := by simp [resyncArm, h]

@[simp] theorem queueResp_leaves (h : p ≠ .lcl) (c tag mtype body) (d : Dev) : p.of (queueResp c tag mtype body d) = p.of d := by simp [queueResp, h]

@[simp] theorem lockReport_leaves (h : p ≠ .seqr ∧ p ≠ .breach ∧ p ≠ .prot ∧ p ≠ .lcl ∧ p ≠ .stack ∧ p ≠ .pwm ∧ p ≠ .axes ∧ p ≠ .ladder) (o c k tag body) (d : Dev) :
    p.of (lockReport o c k tag body d) = p.of d := by
  simp [lockReport, h]

@[simp] theorem cellEvent_leaves (h : p ≠ .seqr ∧ p ≠ .breach ∧ p ≠ .prot ∧ p ≠ .lcl ∧ p ≠ .stack ∧ p ≠ .pwm ∧ p ≠ .axes ∧ p ≠ .ladder) (o c k e time mtype tag data) (d : Dev) :
    p.of (cellEvent o c k e time mtype tag data d) = p.of d := by
  simp [cellEvent, h]

@[simp] theorem onRequest_leaves (h : p ≠ .seqr ∧ p ≠ .breach ∧ p ≠ .prot ∧ p ≠ .lcl ∧ p ≠ .stack ∧ p ≠ .pwm ∧ p ≠ .axes ∧ p ≠ .ladder) (o c k m) (d : Dev) :
    p.of (onRequest o c k m d) = p.of d := by
  unfold onRequest
  split <;> simp [h]

@[simp] theorem admitFail_leaves (h : p ≠ .seqr ∧ p ≠ .breach ∧ p ≠ .prot ∧ p ≠ .lcl ∧ p ≠ .stack ∧ p ≠ .pwm ∧ p ≠ .axes ∧ p ≠ .ladder) (o c reason k id) (d : Dev) :
    p.of (admitFail o c reason k id d) = p.of d := by
  simp [admitFail, h]

@[simp] theorem onChallengeResp_leaves (h : p ≠ .seqr ∧ p ≠ .breach ∧ p ≠ .prot ∧ p ≠ .lcl ∧ p ≠ .stack ∧ p ≠ .pwm ∧ p ≠ .axes ∧ p ≠ .ladder) (o c k b) (d : Dev) :
    p.of (onChallengeResp o c k b d) = p.of d := by
  simp [onChallengeResp, h]

@[simp] theorem nakState_leaves (h : p ≠ .seqr ∧ p ≠ .breach ∧ p ≠ .lcl) (o c mtype request) (d : Dev) :
    p.of (nakState o c mtype request d) = p.of d := by
  unfold nakState
  split <;> simp [h]

@[simp] theorem onHello_leaves (h : p ≠ .seqr ∧ p ≠ .breach ∧ p ≠ .prot ∧ p ≠ .lcl ∧ p ≠ .stack ∧ p ≠ .pwm ∧ p ≠ .axes ∧ p ≠ .ladder ∧ p ≠ .free) (o ik c k b) (d : Dev) :
    p.of (onHello o ik c k b d) = p.of d := by
  unfold onHello
  split <;> simp [h]

@[simp] theorem rxControl_leaves (h : p ≠ .seqr ∧ p ≠ .breach ∧ p ≠ .prot ∧ p ≠ .lcl ∧ p ≠ .stack ∧ p ≠ .pwm ∧ p ≠ .axes ∧ p ≠ .ladder ∧ p ≠ .free) (o ik c k m) (d : Dev) :
    p.of (rxControl o ik c k m d) = p.of d := by
  simp [rxControl, h]

@[simp] theorem slotReleased_leaves (h : p ≠ .lcl) (c toFree) (d : Dev) : p.of (slotReleased c toFree d) = p.of d := by simp [slotReleased, h]

@[simp] theorem rxRequest_leaves (h : p ≠ .seqr ∧ p ≠ .breach ∧ p ≠ .prot ∧ p ≠ .lcl ∧ p ≠ .stack ∧ p ≠ .pwm ∧ p ≠ .axes ∧ p ≠ .ladder) (o c k m) (d : Dev) :
    p.of (rxRequest o c k m d) = p.of d := by
  simp [rxRequest, h]
  split <;> simp [h]

@[simp] theorem slotHeld_leaves (h : p ≠ .lcl) (c) (d : Dev) : p.of (slotHeld c d) = p.of d := by simp [slotHeld, h]

@[simp] theorem slotBack_leaves (h : p ≠ .lcl) (c) (d : Dev) : p.of (slotBack c d) = p.of d := by simp [slotBack, h]

@[simp] theorem rxMessage_leaves (h : p ≠ .seqr ∧ p ≠ .breach ∧ p ≠ .prot ∧ p ≠ .lcl ∧ p ≠ .stack ∧ p ≠ .pwm ∧ p ≠ .axes ∧ p ≠ .ladder ∧ p ≠ .free) (o ik c k m) (d : Dev) :
    p.of (rxMessage o ik c k m d) = p.of d := by
  simp [rxMessage, h]

@[simp] theorem messageArrives_leaves (h : p ≠ .seqr ∧ p ≠ .breach ∧ p ≠ .prot ∧ p ≠ .lcl ∧ p ≠ .stack ∧ p ≠ .pwm ∧ p ≠ .axes ∧ p ≠ .ladder ∧ p ≠ .free) (o ik r p0 i m) (d : Dev) :
    p.of (messageArrives o ik r p0 i m d) = p.of d := by
  unfold messageArrives
  simp only []
  repeat' split
  all_goals simp [h]

@[simp] theorem messageRow_leaves (h : p ≠ .seqr ∧ p ≠ .breach ∧ p ≠ .prot ∧ p ≠ .lcl ∧ p ≠ .stack ∧ p ≠ .pwm ∧ p ≠ .axes ∧ p ≠ .ladder ∧ p ≠ .free) (mtype m o) (d : Dev) :
    p.of (messageRow mtype m o d) = p.of d := by
  simp [messageRow, h]

@[simp] theorem ascDelayExpiry_leaves (h : p ≠ .pwm) (o g) (d : Dev) : p.of (ascDelayExpiry o g d) = p.of d := by simp [ascDelayExpiry, h]

@[simp] theorem seqTimeout_leaves (h : p ≠ .doms ∧ p ≠ .rails ∧ p ≠ .aon ∧ p ≠ .seqr ∧ p ≠ .breach) (s : State) :
    p.of (seqTimeout s).dev = p.of s.dev := by
  unfold seqTimeout
  simp only []
  repeat' split
  all_goals simp [h]

@[simp] theorem seqFailed_leaves (h : p ≠ .aon ∧ p ≠ .seqr ∧ p ≠ .breach) (s : State) : p.of (seqFailed s).dev = p.of s.dev := by
  simp [seqFailed]
  repeat' split
  all_goals simp [h]

@[simp] theorem seqNext_leaves (h : p ≠ .clk ∧ p ≠ .doms ∧ p ≠ .rails ∧ p ≠ .aon ∧ p ≠ .sched ∧ p ≠ .seqr ∧ p ≠ .breach ∧ p ≠ .meas ∧ p ≠ .time ∧ p ≠ .sec ∧ p ≠ .prot ∧ p ≠ .lcl ∧ p ≠ .stack ∧ p ≠ .ledger ∧ p ≠ .mram ∧ p ≠ .engine ∧ p ≠ .acq ∧ p ≠ .pwm ∧ p ≠ .bridges ∧ p ≠ .axes ∧ p ≠ .ladder ∧ p ≠ .isl ∧ p ≠ .com ∧ p ≠ .out) (s0 : State) :
    p.of (seqNext s0).dev = p.of s0.dev := by
  unfold seqNext
  simp only []
  repeat' split
  all_goals simp [h]

@[simp] theorem stopRampEnd_leaves (h : p ≠ .stack) (o) (d : Dev) : p.of (stopRampEnd o d) = p.of d := by simp [stopRampEnd, h]

@[simp] theorem bridgeFault_leaves (h : p ≠ .seqr ∧ p ≠ .breach ∧ p ≠ .pwm ∧ p ≠ .bridges ∧ p ≠ .axes ∧ p ≠ .ladder) (o k mask) (d : Dev) :
    p.of (bridgeFault o k mask d) = p.of d := by
  simp [bridgeFault]
  split <;> simp [h]

@[simp] theorem bridgeTrip_leaves (h : p ≠ .seqr ∧ p ≠ .breach ∧ p ≠ .pwm ∧ p ≠ .bridges ∧ p ≠ .axes ∧ p ≠ .ladder) (o k kinds) (d : Dev) :
    p.of (bridgeTrip o k kinds d) = p.of d := by
  simp [bridgeTrip, h]

@[simp] theorem stateTimeout_leaves (h : p ≠ .seqr ∧ p ≠ .breach ∧ p ≠ .prot ∧ p ≠ .lcl ∧ p ≠ .stack ∧ p ≠ .pwm ∧ p ≠ .axes ∧ p ≠ .ladder) (st over_ c o) (d : Dev) :
    p.of (stateTimeout st over_ c o d) = p.of d := by
  simp [stateTimeout, h]

@[simp] theorem holdPresumption_leaves (h : p ≠ .seqr ∧ p ≠ .breach ∧ p ≠ .prot ∧ p ≠ .lcl ∧ p ≠ .stack ∧ p ≠ .pwm ∧ p ≠ .axes ∧ p ≠ .ladder) (r o) (d : Dev) :
    p.of (holdPresumption r o d) = p.of d := by
  simp [holdPresumption, h]

@[simp] theorem handOver_leaves (h : p ≠ .seqr ∧ p ≠ .breach ∧ p ≠ .pwm ∧ p ≠ .axes) (o n duties) (d : Dev) :
    p.of (handOver o n duties d) = p.of d := by
  simp [handOver, h]

@[simp] theorem superviseStart_leaves (h : p ≠ .seqr ∧ p ≠ .breach ∧ p ≠ .axes) (o n) (d : Dev) : p.of (superviseStart o n d) = p.of d := by
  simp [superviseStart]
  split <;> simp [h]

@[simp] theorem trackStop_leaves (h : p ≠ .axes) (o n) (d : Dev) : p.of (trackStop o n d) = p.of d := by simp [trackStop, h]

@[simp] theorem declareLos_leaves (h : p ≠ .seqr ∧ p ≠ .breach ∧ p ≠ .axes) (o n tests) (d : Dev) :
    p.of (declareLos o n tests d) = p.of d := by
  simp [declareLos, h]

@[simp] theorem superviseAxis_leaves (h : p ≠ .seqr ∧ p ≠ .breach ∧ p ≠ .axes) (o n tests evaluated) (d : Dev) :
    p.of (superviseAxis o n tests evaluated d) = p.of d := by
  simp [superviseAxis]
  split <;> simp [h]

@[simp] theorem loopSample_leaves (h : p ≠ .seqr ∧ p ≠ .breach ∧ p ≠ .pwm ∧ p ≠ .axes ∧ p ≠ .ladder ∧ p ≠ .free) (o n) (d : Dev) :
    p.of (loopSample o n d) = p.of d := by
  simp [loopSample, h]

@[simp] theorem handTo_leaves (h : p ≠ .acq) (o kind arg v) (d : Dev) : p.of (handTo o kind arg v d) = p.of d := by simp [handTo, h]

@[simp] theorem cmpSet_leaves (h : p ≠ .seqr ∧ p ≠ .breach ∧ p ≠ .meas ∧ p ≠ .prot ∧ p ≠ .acq ∧ p ≠ .pwm ∧ p ≠ .axes ∧ p ≠ .ladder) (o n outside) (d : Dev) :
    p.of (cmpSet o n outside d) = p.of d := by
  simp [cmpSet, h]

@[simp] theorem cmpCrossing_leaves (h : p ≠ .seqr ∧ p ≠ .breach ∧ p ≠ .meas ∧ p ≠ .prot ∧ p ≠ .acq ∧ p ≠ .pwm ∧ p ≠ .axes ∧ p ≠ .ladder) (o n outside) (d : Dev) :
    p.of (cmpCrossing o n outside d) = p.of d := by
  simp [cmpCrossing, h]

@[simp] theorem casDeclared_leaves (h : p ≠ .seqr ∧ p ≠ .breach ∧ p ≠ .time ∧ p ≠ .prot ∧ p ≠ .pwm ∧ p ≠ .axes ∧ p ≠ .ladder) (o mv) (d : Dev) :
    p.of (casDeclared o mv d) = p.of d := by
  simp [casDeclared, h]

@[simp] theorem casCompared_leaves (h : p ≠ .time) (runs) (d : Dev) : p.of (casCompared runs d) = p.of d := by simp [casCompared, h]

@[simp] theorem whileSafe_leaves {f : Od → Dev → Dev} (hf : ∀ o e, p.of (f o e) = p.of e) (o) (d : Dev) :
    p.of (whileSafe f o d) = p.of d := by
  simp [whileSafe, hf]

@[simp] theorem ss1TimeLimit_leaves (h : p ≠ .seqr ∧ p ≠ .breach ∧ p ≠ .pwm ∧ p ≠ .axes ∧ p ≠ .ladder ∧ p ≠ .isl) (o n) (d : Dev) :
    p.of (ss1TimeLimit o n d) = p.of d := by
  unfold ss1TimeLimit
  split <;> simp [h]

@[simp] theorem linkChange_leaves (h : p ≠ .seqr ∧ p ≠ .breach ∧ p ≠ .time) (o mac up) (d : Dev) :
    p.of (linkChange o mac up d) = p.of d := by
  simp [linkChange, h]

@[simp] theorem debugStrobe_leaves (h : p ≠ .seqr ∧ p ≠ .breach ∧ p ≠ .prot ∧ p ≠ .pwm ∧ p ≠ .axes ∧ p ≠ .ladder ∧ p ≠ .isl) (o) (d : Dev) :
    p.of (debugStrobe o d) = p.of d := by
  simp [debugStrobe, h]

@[simp] theorem debugAttach_leaves (h : p ≠ .seqr ∧ p ≠ .breach ∧ p ≠ .sec ∧ p ≠ .prot ∧ p ≠ .lcl ∧ p ≠ .stack ∧ p ≠ .pwm ∧ p ≠ .axes ∧ p ≠ .ladder ∧ p ≠ .isl ∧ p ≠ .free) (o) (d : Dev) :
    p.of (debugAttach o d) = p.of d := by
  simp [debugAttach, h]

@[simp] theorem scanStart_leaves (h : p ≠ .seqr ∧ p ≠ .breach ∧ p ≠ .sec ∧ p ≠ .prot ∧ p ≠ .pwm ∧ p ≠ .axes ∧ p ≠ .ladder ∧ p ≠ .isl) (o instr) (d : Dev) :
    p.of (scanStart o instr d) = p.of d := by
  grind [scanStart, onSec_leaves, record_leaves, islandRequester_leaves, stoDemand_leaves, of_isl, foldl_leaves, foldl_state_leaves, State.act_dev, devTo_dev]

@[simp] theorem updateIr_leaves (h : p ≠ .seqr ∧ p ≠ .breach ∧ p ≠ .sec ∧ p ≠ .prot ∧ p ≠ .lcl ∧ p ≠ .stack ∧ p ≠ .pwm ∧ p ≠ .axes ∧ p ≠ .ladder ∧ p ≠ .isl ∧ p ≠ .free) (o instr) (d : Dev) :
    p.of (updateIr o instr d) = p.of d := by
  simp [updateIr, h]

@[simp] theorem boundaryUpdate_leaves (h : p ≠ .sec ∧ p ≠ .out ∧ p ≠ .free) (data o) (d : Dev) :
    p.of (boundaryUpdate data o d) = p.of d := by
  simp [boundaryUpdate, h]

@[simp] theorem ptpDelayTimer_leaves (h : p ≠ .time ∧ p ≠ .out) (o) (d : Dev) : p.of (ptpDelayTimer o d) = p.of d := by
  grind [ptpDelayTimer, onTime_leaves, of_out, foldl_leaves, foldl_state_leaves, State.act_dev, devTo_dev]

@[simp] theorem tbSupervised_leaves (h : p ≠ .seqr ∧ p ≠ .breach ∧ p ≠ .time ∧ p ≠ .prot ∧ p ≠ .pwm ∧ p ≠ .axes ∧ p ≠ .ladder) (o mv) (d : Dev) :
    p.of (tbSupervised o mv d) = p.of d := by
  simp [tbSupervised, h]

@[simp] theorem tbCompared_leaves (h : p ≠ .time) (runs) (d : Dev) : p.of (tbCompared runs d) = p.of d := by simp [tbCompared, h]

@[simp] theorem msixUnmask_leaves (h : p ≠ .acq ∧ p ≠ .out) (v) (d : Dev) : p.of (msixUnmask v d) = p.of d := by simp [msixUnmask, h]

@[simp] theorem timeLoRead_leaves (h : p ≠ .acq ∧ p ≠ .out) (d : Dev) : p.of (timeLoRead d) = p.of d := by
  grind [timeLoRead, onPcie_leaves, of_out, foldl_leaves, foldl_state_leaves, State.act_dev, devTo_dev]

@[simp] theorem streamRegister_leaves (h : p ≠ .acq) (s offset v) (d : Dev) : p.of (streamRegister s offset v d) = p.of d := by
  simp [streamRegister]
  split <;> simp [h]

@[simp] theorem tailWrite_leaves (h : p ≠ .seqr ∧ p ≠ .breach ∧ p ≠ .acq ∧ p ≠ .out) (o s v) (d : Dev) :
    p.of (tailWrite o s v d) = p.of d := by
  simp [tailWrite, h]

@[simp] theorem tbTimeout_leaves (h : p ≠ .aon ∧ p ≠ .seqr ∧ p ≠ .breach) (s : State) : p.of (tbTimeout s).dev = p.of s.dev := by simp [tbTimeout, h]

@[simp] theorem pllLock_leaves (h : p ≠ .seqr ∧ p ≠ .breach ∧ p ≠ .stack) (o locked cause) (d : Dev) :
    p.of (pllLock o locked cause d) = p.of d := by
  simp [pllLock, h]

@[simp] theorem pllStep_leaves (h : p ≠ .seqr ∧ p ≠ .breach ∧ p ≠ .stack) (o) (d : Dev) : p.of (pllStep o d) = p.of d := by simp [pllStep, h]

@[simp] theorem onGroup_leaves (h : p ≠ .stack) (g f) (d : Dev) : p.of (onGroup g f d) = p.of d := by simp [onGroup, h]

@[simp] theorem overWatch_leaves (h : p ≠ .seqr ∧ p ≠ .breach ∧ p ≠ .prot ∧ p ≠ .stack ∧ p ≠ .pwm ∧ p ≠ .axes ∧ p ≠ .ladder) (o) (d : Dev) :
    p.of (overWatch o d) = p.of d := by
  simp [overWatch, h]

@[simp] theorem dcLine_leaves (h : p ≠ .stack) (o) (d : Dev) : p.of (dcLine o d) = p.of d := by simp [dcLine, h]

@[simp] theorem lineWatch_leaves (h : p ≠ .seqr ∧ p ≠ .breach ∧ p ≠ .prot) (o) (d : Dev) : p.of (lineWatch o d) = p.of d := by
  unfold lineWatch
  split <;> simp [h]

@[simp] theorem rowOne_leaves (h : p ≠ .seqr ∧ p ≠ .breach ∧ p ≠ .prot ∧ p ≠ .stack ∧ p ≠ .free) (o) (d : Dev) :
    p.of (rowOne o d) = p.of d := by
  simp [rowOne, h]

@[simp] theorem handVector_leaves (h : p ≠ .engine) (n v) (d : Dev) : p.of (handVector n v d) = p.of d := by simp [handVector, h]

@[simp] theorem energyLoop_leaves (h : p ≠ .stack) (o g) (d : Dev) : p.of (energyLoop o g d) = p.of d := by simp [energyLoop, h]

@[simp] theorem chainVectors_leaves (h : p ≠ .seqr ∧ p ≠ .breach ∧ p ≠ .prot ∧ p ≠ .stack ∧ p ≠ .engine ∧ p ≠ .free) (o) (d : Dev) :
    p.of (chainVectors o d) = p.of d := by
  simp [chainVectors, h]

@[simp] theorem headroomRecord_leaves (h : p ≠ .seqr ∧ p ≠ .breach) (o what g) (d : Dev) : p.of (headroomRecord o what g d) = p.of d := by
  simp [headroomRecord, h]

@[simp] theorem headroomWatch_leaves (h : p ≠ .seqr ∧ p ≠ .breach ∧ p ≠ .stack) (o) (d : Dev) : p.of (headroomWatch o d) = p.of d := by
  unfold headroomWatch
  refine forEach_leaves (fun g e => ?_) _ d
  dsimp only
  split <;> simp [h]

@[simp] theorem stackUpdate_leaves (h : p ≠ .seqr ∧ p ≠ .breach ∧ p ≠ .prot ∧ p ≠ .stack ∧ p ≠ .engine ∧ p ≠ .pwm ∧ p ≠ .axes ∧ p ≠ .ladder ∧ p ≠ .free) (o) (d : Dev) :
    p.of (stackUpdate o d) = p.of d := by
  simp [stackUpdate, h]

@[simp] theorem countConditions_leaves (h : p ≠ .stack) (o) (d : Dev) : p.of (countConditions o d) = p.of d := by simp [countConditions, h]

@[simp] theorem stackMiss_leaves (h : p ≠ .seqr ∧ p ≠ .breach ∧ p ≠ .prot ∧ p ≠ .stack ∧ p ≠ .pwm ∧ p ≠ .axes ∧ p ≠ .ladder) (o k) (d : Dev) :
    p.of (stackMiss o k d) = p.of d := by
  simp [stackMiss, h]

@[simp] theorem keepCommands_leaves (h : p ≠ .stack) (d : Dev) : p.of (keepCommands d) = p.of d := by simp [keepCommands, h]

@[simp] theorem interleave_leaves (h : p ≠ .seqr ∧ p ≠ .breach ∧ p ≠ .stack) (o first k g) (d : Dev) :
    p.of (interleave o first k g d) = p.of d := by
  simp [interleave, h]
  split <;> simp [h]

@[simp] theorem zvsCount_leaves (h : p ≠ .seqr ∧ p ≠ .breach ∧ p ≠ .stack) (o k n) (d : Dev) : p.of (zvsCount o k n d) = p.of d := by
  simp [zvsCount, h]

@[simp] theorem headroomLimit_leaves (h : p ≠ .seqr ∧ p ≠ .breach ∧ p ≠ .stack) (o k g clamps) (d : Dev) :
    p.of (headroomLimit o k g clamps d) = p.of d := by
  simp [headroomLimit, h]

@[simp] theorem planAll_leaves (h : p ≠ .seqr ∧ p ≠ .breach ∧ p ≠ .stack) (o k st f) (d : Dev) : p.of (planAll o k st f d).2 = p.of d := by
  simp [planAll, h]

@[simp] theorem fixCarrier_leaves (h : p ≠ .seqr ∧ p ≠ .breach ∧ p ≠ .time ∧ p ≠ .stack) (o runs) (d : Dev) :
    p.of (fixCarrier o runs d) = p.of d := by
  unfold fixCarrier
  simp only []
  repeat' split
  all_goals simp [h]

@[simp] theorem balanceGroup_leaves (h : p ≠ .seqr ∧ p ≠ .breach ∧ p ≠ .stack) (o k g) (d : Dev) :
    p.of (balanceGroup o k g d) = p.of d := by
  simp [balanceGroup, h]

@[simp] theorem balanceAll_leaves (h : p ≠ .seqr ∧ p ≠ .breach ∧ p ≠ .prot ∧ p ≠ .stack ∧ p ≠ .free) (o k st) (d : Dev) :
    p.of (balanceAll o k st d) = p.of d := by
  simp [balanceAll, h]

@[simp] theorem buildRing_leaves (h : p ≠ .lcl) (o r k want freq) (d : Dev) : p.of (buildRing o r k want freq d) = p.of d := by simp [buildRing, h]

@[simp] theorem buildAll_leaves (h : p ≠ .lcl) (o k f plan park) (d : Dev) : p.of (buildAll o k f plan park d) = p.of d := by simp [buildAll, h]

@[simp] theorem frameCutoff_leaves (h : p ≠ .seqr ∧ p ≠ .breach ∧ p ≠ .time ∧ p ≠ .prot ∧ p ≠ .lcl ∧ p ≠ .stack ∧ p ≠ .pwm ∧ p ≠ .axes ∧ p ≠ .ladder ∧ p ≠ .free) (o) (d : Dev) :
    p.of (frameCutoff o d) = p.of d := by
  simp [frameCutoff, h]
  split <;> simp [h]

@[simp] theorem cutoffPassed_leaves (h : p ≠ .seqr ∧ p ≠ .breach ∧ p ≠ .time ∧ p ≠ .prot ∧ p ≠ .lcl ∧ p ≠ .stack ∧ p ≠ .pwm ∧ p ≠ .axes ∧ p ≠ .ladder ∧ p ≠ .free) (o) (d : Dev) :
    p.of (cutoffPassed o d) = p.of d := by
  simp [cutoffPassed, h]

@[simp] theorem agree_leaves (h : p ≠ .seqr ∧ p ≠ .breach ∧ p ≠ .prot ∧ p ≠ .lcl ∧ p ≠ .stack ∧ p ≠ .pwm ∧ p ≠ .axes ∧ p ≠ .ladder) (o c k code) (d : Dev) :
    p.of (agree o c k code d) = p.of d := by
  simp [agree, h]
  split <;> simp [h]

@[simp] theorem reinsertSlot_leaves (h : p ≠ .seqr ∧ p ≠ .breach ∧ p ≠ .stack) (o c k v) (d : Dev) :
    p.of (reinsertSlot o c k v d) = p.of d := by
  unfold reinsertSlot
  split <;> simp [h]

@[simp] theorem conserve_leaves (h : p ≠ .seqr ∧ p ≠ .breach ∧ p ≠ .prot ∧ p ≠ .lcl ∧ p ≠ .stack ∧ p ≠ .pwm ∧ p ≠ .axes ∧ p ≠ .ladder) (o c k t) (d : Dev) :
    p.of (conserve o c k t d) = p.of d := by
  simp [conserve, h]
  split <;> simp [h]

@[simp] theorem vdcTrip_leaves (h : p ≠ .seqr ∧ p ≠ .breach ∧ p ≠ .prot ∧ p ≠ .pwm ∧ p ≠ .axes ∧ p ≠ .ladder) (o c v) (d : Dev) :
    p.of (vdcTrip o c v d) = p.of d := by
  unfold vdcTrip
  split <;> simp [h]

@[simp] theorem faultActions_leaves (h : p ≠ .seqr ∧ p ≠ .breach ∧ p ≠ .prot ∧ p ≠ .stack ∧ p ≠ .pwm ∧ p ≠ .axes ∧ p ≠ .ladder) (o c fault old) (d : Dev) :
    p.of (faultActions o c fault old d) = p.of d := by
  simp [faultActions, h]

@[simp] theorem recastRun_leaves (h : p ≠ .seqr ∧ p ≠ .breach ∧ p ≠ .ledger) (o i run) (d : Dev) : p.of (recastRun o i run d) = p.of d := by
  simp [recastRun, h]

@[simp] theorem recast_leaves (h : p ≠ .seqr ∧ p ≠ .breach ∧ p ≠ .ledger) (o i lim n qIn qOut) (d : Dev) :
    p.of (recast o i lim n qIn qOut d) = p.of d := by
  simp [recast, h]

@[simp] theorem ledgerRefreeze_leaves (h : p ≠ .seqr ∧ p ≠ .breach ∧ p ≠ .ledger) (o c lim n qIn qOut) (d : Dev) :
    p.of (ledgerRefreeze o c lim n qIn qOut d) = p.of d := by
  unfold ledgerRefreeze
  split <;> simp [h]

@[simp] theorem lossPeriod_leaves (h : p ≠ .seqr ∧ p ≠ .breach ∧ p ≠ .prot ∧ p ≠ .lcl ∧ p ≠ .stack ∧ p ≠ .pwm ∧ p ≠ .axes ∧ p ≠ .ladder) (o c usable frozen) (d : Dev) :
    p.of (lossPeriod o c usable frozen d) = p.of d := by
  simp [lossPeriod, h]

@[simp] theorem slotUsed_leaves (h : p ≠ .seqr ∧ p ≠ .breach ∧ p ≠ .prot ∧ p ≠ .lcl ∧ p ≠ .stack ∧ p ≠ .ledger ∧ p ≠ .pwm ∧ p ≠ .axes ∧ p ≠ .ladder) (o c k t) (d : Dev) :
    p.of (slotUsed o c k t d) = p.of d := by
  simp [slotUsed, h]

@[simp] theorem telemetry_leaves (h : p ≠ .seqr ∧ p ≠ .breach ∧ p ≠ .prot ∧ p ≠ .lcl ∧ p ≠ .stack ∧ p ≠ .ledger ∧ p ≠ .pwm ∧ p ≠ .axes ∧ p ≠ .ladder) (o c k b) (d : Dev) :
    p.of (telemetry o c k b d) = p.of d := by
  simp [telemetry, h]

@[simp] theorem takeTelemetry_leaves (h : p ≠ .seqr ∧ p ≠ .breach ∧ p ≠ .prot ∧ p ≠ .lcl ∧ p ≠ .stack ∧ p ≠ .ledger ∧ p ≠ .pwm ∧ p ≠ .axes ∧ p ≠ .ladder) (o r k launch slots) (d : Dev) :
    p.of (takeTelemetry o r k launch slots d) = p.of d := by
  simp [takeTelemetry, h]

@[simp] theorem useCopy_leaves (h : p ≠ .seqr ∧ p ≠ .breach ∧ p ≠ .prot ∧ p ≠ .lcl ∧ p ≠ .stack ∧ p ≠ .ledger ∧ p ≠ .pwm ∧ p ≠ .axes ∧ p ≠ .ladder) (o r k) (d : Dev) :
    p.of (useCopy o r k d) = p.of d := by
  unfold useCopy
  split <;> simp [h]

@[simp] theorem switchNow_leaves (h : p ≠ .seqr ∧ p ≠ .breach ∧ p ≠ .lcl) (o r k launch reason late dropped) (d : Dev) :
    p.of (switchNow o r k launch reason late dropped d) = p.of d := by
  simp [switchNow, h]

@[simp] theorem creditEchoAll_leaves (h : p ≠ .lcl) (o r) (d : Dev) : p.of (creditEchoAll o r d) = p.of d := by simp [creditEchoAll, h]

@[simp] theorem lateLaunch_leaves (h : p ≠ .seqr ∧ p ≠ .breach ∧ p ≠ .lcl ∧ p ≠ .out) (o r dropped) (d : Dev) :
    p.of (lateLaunch o r dropped d) = p.of d := by
  simp [lateLaunch]
  split <;> simp [h]

@[simp] theorem reconcileStart_leaves (h : p ≠ .lcl) (o r k) (d : Dev) : p.of (reconcileStart o r k d) = p.of d := by simp [reconcileStart, h]

@[simp] theorem activeFailed_leaves (h : p ≠ .seqr ∧ p ≠ .breach ∧ p ≠ .prot ∧ p ≠ .lcl ∧ p ≠ .pwm ∧ p ≠ .axes ∧ p ≠ .ladder ∧ p ≠ .out) (o r k cause hops) (d : Dev) :
    p.of (activeFailed o r k cause hops d) = p.of d := by
  simp [activeFailed, h]

@[simp] theorem pathMiss_leaves (h : p ≠ .seqr ∧ p ≠ .breach ∧ p ≠ .prot ∧ p ≠ .lcl ∧ p ≠ .pwm ∧ p ≠ .axes ∧ p ≠ .ladder ∧ p ≠ .out) (o r p0 k cause hops) (d : Dev) :
    p.of (pathMiss o r p0 k cause hops d) = p.of d := by
  simp [pathMiss, h]
  split <;> simp [h]

@[simp] theorem cyclicLost_leaves (h : p ≠ .seqr ∧ p ≠ .breach ∧ p ≠ .prot ∧ p ≠ .lcl ∧ p ≠ .stack ∧ p ≠ .pwm ∧ p ≠ .axes ∧ p ≠ .ladder) (o r k slots) (d : Dev) :
    p.of (cyclicLost o r k slots d) = p.of d := by
  unfold cyclicLost
  refine (modRing_leaves (by simp [h]) _ _ _).trans
    ((forEach_leaves (fun u e => ?_) _ _).trans (forEach_leaves (fun c e => ?_) _ _))
  · cases u <;> simp [h]
  · simp [h]

@[simp] theorem delayReject_leaves (h : p ≠ .lcl) (r) (d : Dev) : p.of (delayReject r d) = p.of d := by simp [delayReject, h]

@[simp] theorem delayDeadline_leaves (h : p ≠ .lcl) (o r p0) (d : Dev) : p.of (delayDeadline o r p0 d) = p.of d := by
  unfold delayDeadline
  split <;> simp [h]

@[simp] theorem returnDeadline_leaves (h : p ≠ .seqr ∧ p ≠ .breach ∧ p ≠ .prot ∧ p ≠ .lcl ∧ p ≠ .stack ∧ p ≠ .ledger ∧ p ≠ .pwm ∧ p ≠ .axes ∧ p ≠ .ladder ∧ p ≠ .out) (o r p0) (d : Dev) :
    p.of (returnDeadline o r p0 d) = p.of d := by
  simp [returnDeadline]
  split <;> simp [h]

@[simp] theorem stageTelemetry_leaves (h : p ≠ .seqr ∧ p ≠ .breach ∧ p ≠ .acq ∧ p ≠ .free) (o r path k launch n slots) (d : Dev) :
    p.of (stageTelemetry o r path k launch n slots d) = p.of d := by
  simp [stageTelemetry, h]

@[simp] theorem stagesTelemetry_leaves (h : p ≠ .seqr ∧ p ≠ .breach ∧ p ≠ .acq ∧ p ≠ .free) (r p0 k launch slots o before) (d : Dev) :
    p.of (stagesTelemetry r p0 k launch slots o before d) = p.of d := by
  simp [stagesTelemetry, h]

@[simp] theorem deadlinePasses_leaves (h : p ≠ .seqr ∧ p ≠ .breach ∧ p ≠ .prot ∧ p ≠ .lcl ∧ p ≠ .stack ∧ p ≠ .ledger ∧ p ≠ .acq ∧ p ≠ .pwm ∧ p ≠ .axes ∧ p ≠ .ladder ∧ p ≠ .out ∧ p ≠ .free) (r p0 o) (d : Dev) :
    p.of (deadlinePasses r p0 o d) = p.of d := by
  unfold deadlinePasses
  split <;> simp [h]

@[simp] theorem backoffEnd_leaves (h : p ≠ .lcl) (c o) (d : Dev) : p.of (backoffEnd c o d) = p.of d := by
  unfold backoffEnd
  split <;> simp [h]

@[simp] theorem takeDelays_leaves (h : p ≠ .seqr ∧ p ≠ .breach ∧ p ≠ .lcl) (o r rtt delays) (d : Dev) :
    p.of (takeDelays o r rtt delays d) = p.of d := by
  simp [takeDelays, h]

@[simp] theorem delayReturn_leaves (h : p ≠ .seqr ∧ p ≠ .breach ∧ p ≠ .lcl) (o r fa fb rttA rttB) (d : Dev) :
    p.of (delayReturn o r fa fb rttA rttB d) = p.of d := by
  simp [delayReturn, h]

@[simp] theorem calEnd_leaves (h : p ≠ .seqr ∧ p ≠ .breach ∧ p ≠ .meas) (o ok) (d : Dev) : p.of (calEnd o ok d) = p.of d := by simp [calEnd, h]

@[simp] theorem calComplete_leaves (h : p ≠ .aon ∧ p ≠ .seqr ∧ p ≠ .breach ∧ p ≠ .meas) (factors) (s : State) :
    p.of (calComplete factors s).dev = p.of s.dev := by
  simp [calComplete, h]

@[simp] theorem tryRelease_leaves (h : p ≠ .aon ∧ p ≠ .seqr ∧ p ≠ .breach ∧ p ≠ .sec ∧ p ≠ .prot ∧ p ≠ .pwm ∧ p ≠ .axes ∧ p ≠ .ladder ∧ p ≠ .isl) (s : State) :
    p.of (tryRelease s).dev = p.of s.dev := by
  simp [tryRelease, h]

@[simp] theorem resetNRelease_leaves (h : p ≠ .aon ∧ p ≠ .seqr ∧ p ≠ .breach ∧ p ≠ .sec ∧ p ≠ .prot ∧ p ≠ .pwm ∧ p ≠ .axes ∧ p ≠ .ladder ∧ p ≠ .isl) (s : State) :
    p.of (resetNRelease s).dev = p.of s.dev := by
  simp [resetNRelease, h]

@[simp] theorem masterTimeout_leaves (h : p ≠ .seqr ∧ p ≠ .breach ∧ p ≠ .time) (o cause) (d : Dev) :
    p.of (masterTimeout o cause d) = p.of d := by
  unfold masterTimeout
  split <;> simp [h]

@[simp] theorem cePredict_leaves (h : p ≠ .seqr ∧ p ≠ .breach ∧ p ≠ .engine) (o n) (d : Dev) : p.of (cePredict o n d) = p.of d := by
  simp [cePredict, h]

@[simp] theorem ceHandOver_leaves (h : p ≠ .engine ∧ p ≠ .acq) (o n t u) (d : Dev) : p.of (ceHandOver o n t u d) = p.of d := by
  unfold ceHandOver
  refine (forEach_leaves (fun q e => forEach_leaves (fun j x => ?_) _ e) _ _).trans
    ((forEach_leaves (fun a e => ?_) _ _).trans (modCe_leaves h.1 _ _ _))
  · simp [h]
  · simp [h]

@[simp] theorem ceCutoff_leaves (h : p ≠ .seqr ∧ p ≠ .breach ∧ p ≠ .engine ∧ p ≠ .acq) (o n) (d : Dev) :
    p.of (ceCutoff o n d) = p.of d := by
  simp [ceCutoff]
  split <;> simp [h]

@[simp] theorem ceLaw_leaves (h : p ≠ .seqr ∧ p ≠ .breach ∧ p ≠ .engine) (o n) (d : Dev) : p.of (ceLaw o n d) = p.of d := by simp [ceLaw, h]

@[simp] theorem ceComputeDone_leaves (h : p ≠ .seqr ∧ p ≠ .breach ∧ p ≠ .engine) (o n) (d : Dev) : p.of (ceComputeDone o n d) = p.of d := by
  simp [ceComputeDone, h]

@[simp] theorem supplyHoldRelease_leaves (h : p ≠ .seqr ∧ p ≠ .breach ∧ p ≠ .pwm ∧ p ≠ .bridges ∧ p ≠ .axes ∧ p ≠ .ladder) (o) (d : Dev) :
    p.of (supplyHoldRelease o d) = p.of d := by
  simp [supplyHoldRelease, h]

@[simp] theorem ss1Start_leaves (h : p ≠ .seqr ∧ p ≠ .breach ∧ p ≠ .axes ∧ p ≠ .isl) (o n how) (d : Dev) :
    p.of (ss1Start o n how d) = p.of d := by
  simp [ss1Start, h]

@[simp] theorem connFault_leaves (h : p ≠ .seqr ∧ p ≠ .breach ∧ p ≠ .pwm ∧ p ≠ .axes ∧ p ≠ .ladder ∧ p ≠ .isl) (o c cause) (d : Dev) :
    p.of (connFault o c cause d) = p.of d := by
  simp [connFault, h]

@[simp] theorem connTimeout_leaves (h : p ≠ .seqr ∧ p ≠ .breach ∧ p ≠ .pwm ∧ p ≠ .axes ∧ p ≠ .ladder ∧ p ≠ .isl) (o c) (d : Dev) :
    p.of (connTimeout o c d) = p.of d := by
  simp [connTimeout, h]

@[simp] theorem dbgResponse_leaves (h : p ≠ .aon ∧ p ≠ .seqr ∧ p ≠ .breach ∧ p ≠ .sec ∧ p ≠ .prot ∧ p ≠ .lcl ∧ p ≠ .stack ∧ p ≠ .pwm ∧ p ≠ .axes ∧ p ≠ .ladder ∧ p ≠ .isl ∧ p ≠ .free) (o response) (d : Dev) :
    p.of (dbgResponse o response d) = p.of d := by
  grind [dbgResponse, debugAttach_leaves, onSec_leaves, record_leaves, updateIr_leaves, of_aon, of_aon, of_aon, foldl_leaves, foldl_state_leaves, State.act_dev, devTo_dev]

@[simp] theorem selftestDone_leaves (h : p ≠ .seqr ∧ p ≠ .breach ∧ p ≠ .bridges) (o k result) (d : Dev) :
    p.of (selftestDone o k result d) = p.of d := by
  simp [selftestDone, h]

@[simp] theorem internalStop_leaves (h : p ≠ .stack) (d : Dev) : p.of (internalStop d) = p.of d := by
  simp [internalStop]
  split <;> simp [h]

@[simp] theorem rideThroughEnd_leaves (h : p ≠ .seqr ∧ p ≠ .breach ∧ p ≠ .stack) (o) (d : Dev) : p.of (rideThroughEnd o d) = p.of d := by
  unfold rideThroughEnd
  split <;> simp [h]

@[simp] theorem resetNStuck_leaves (h : p ≠ .aon ∧ p ≠ .seqr ∧ p ≠ .breach ∧ p ≠ .sec ∧ p ≠ .prot ∧ p ≠ .pwm ∧ p ≠ .axes ∧ p ≠ .ladder ∧ p ≠ .isl) (s : State) :
    p.of (resetNStuck s).dev = p.of s.dev := by
  simp [resetNStuck, h]

@[simp] theorem resetNLimit_leaves (h : p ≠ .aon ∧ p ≠ .seqr ∧ p ≠ .breach ∧ p ≠ .sec ∧ p ≠ .prot ∧ p ≠ .pwm ∧ p ≠ .axes ∧ p ≠ .ladder ∧ p ≠ .isl) (rises) (s : State) :
    p.of (resetNLimit rises s).dev = p.of s.dev := by
  simp [resetNLimit, h]

@[simp] theorem emcySend_leaves (h : p ≠ .seqr ∧ p ≠ .out ∧ p ≠ .free) (o) (d : Dev) : p.of (emcySend o d) = p.of d := by
  simp [emcySend]
  split <;> simp [h]

@[simp] theorem tagFreed_leaves (h : p ≠ .acq ∧ p ≠ .out) (s) (d : Dev) : p.of (tagFreed s d) = p.of d := by simp [tagFreed, h]

@[simp] theorem descriptorFetched_leaves (h : p ≠ .seqr ∧ p ≠ .breach ∧ p ≠ .acq ∧ p ≠ .out) (o s b) (d : Dev) :
    p.of (descriptorFetched o s b d) = p.of d := by
  simp [descriptorFetched, h]

@[simp] theorem ptpDelayResp_leaves (h : p ≠ .time) (o mac udp domain source seq t2 t3 correction) (d : Dev) :
    p.of (ptpDelayResp o mac udp domain source seq t2 t3 correction d) = p.of d := by
  simp [ptpDelayResp]
  repeat' split
  all_goals simp [h]

@[simp] theorem dbgChallenge_leaves (h : p ≠ .seqr ∧ p ≠ .breach ∧ p ≠ .sec ∧ p ≠ .prot ∧ p ≠ .lcl ∧ p ≠ .stack ∧ p ≠ .pwm ∧ p ≠ .axes ∧ p ≠ .ladder ∧ p ≠ .isl ∧ p ≠ .out ∧ p ≠ .free) (o) (d : Dev) :
    p.of (dbgChallenge o d) = p.of d := by
  grind [dbgChallenge, Dev_fresh_leaves, onSec_leaves, updateIr_leaves, of_out, foldl_leaves, foldl_state_leaves, State.act_dev, devTo_dev]

@[simp] theorem pinlessOver_leaves (h : p ≠ .aon ∧ p ≠ .seqr ∧ p ≠ .breach ∧ p ≠ .sec ∧ p ≠ .prot ∧ p ≠ .pwm ∧ p ≠ .axes ∧ p ≠ .ladder ∧ p ≠ .isl) (s : State) :
    p.of (pinlessOver s).dev = p.of s.dev := by
  unfold pinlessOver
  split <;> simp [h]

@[simp] theorem filterCheck_leaves (h : p ≠ .seqr ∧ p ≠ .breach ∧ p ≠ .time) (o tauTb tauCas) (d : Dev) :
    p.of (filterCheck o tauTb tauCas d) = p.of d := by
  simp [filterCheck, h]

@[simp] theorem discoverCell_leaves (h : p ≠ .seqr ∧ p ≠ .breach ∧ p ≠ .prot ∧ p ≠ .lcl ∧ p ≠ .stack ∧ p ≠ .pwm ∧ p ≠ .axes ∧ p ≠ .ladder) (r n k c o) (d : Dev) :
    p.of (discoverCell r n k c o d) = p.of d := by
  simp [discoverCell]
  split <;> simp [h]

@[simp] theorem discoverRings_leaves (h : p ≠ .seqr ∧ p ≠ .breach ∧ p ≠ .prot ∧ p ≠ .lcl ∧ p ≠ .stack ∧ p ≠ .pwm ∧ p ≠ .axes ∧ p ≠ .ladder) (o) (d : Dev) :
    p.of (discoverRings o d) = p.of d := by
  simp only [discoverRings, of_ite]
  refine ite_eq_left_iff.2 (fun _ => forEach_leaves (fun r e => ?_) _ _)
  simp only [of_ite]
  refine ite_eq_right_iff.2 (fun _ => forEach_leaves (fun c x => ?_) _ _)
  simp [h]

@[simp] theorem mechHold_leaves (h : p ≠ .seqr ∧ p ≠ .breach ∧ p ≠ .ladder) (o) (d : Dev) : p.of (mechHold o d) = p.of d := by simp [mechHold, h]

@[simp] theorem icmpEcho_leaves (h : p ≠ .out) (mac sourceIp targetIp body) (d : Dev) :
    p.of (icmpEcho mac sourceIp targetIp body d) = p.of d := by
  simp [icmpEcho, h]

@[simp] theorem statusSend_leaves (h : p ≠ .isl ∧ p ≠ .out) (o c) (d : Dev) : p.of (statusSend o c d) = p.of d := by
  unfold statusSend
  split <;> simp [h]

@[simp] theorem streamCapture_leaves (h : p ≠ .seqr ∧ p ≠ .breach ∧ p ≠ .acq ∧ p ≠ .free) (o s own w) (d : Dev) :
    p.of (streamCapture o s own w d) = p.of d := by
  unfold streamCapture
  split <;> simp [h]

@[simp] theorem captureNow_leaves (h : p ≠ .seqr ∧ p ≠ .breach ∧ p ≠ .acq ∧ p ≠ .free) (o a s) (d : Dev) :
    p.of (captureNow o a s d) = p.of d := by
  simp [captureNow, h]

@[simp] theorem captureDue_leaves (h : p ≠ .seqr ∧ p ≠ .breach ∧ p ≠ .acq ∧ p ≠ .free) (o a) (d : Dev) :
    p.of (captureDue o a d) = p.of d := by
  unfold captureDue
  split <;> simp [h]

@[simp] theorem rtcAlarm_leaves (h : p ≠ .aon ∧ p ≠ .seqr ∧ p ≠ .breach) (o) (d : Dev) : p.of (rtcAlarm o d) = p.of d := by simp [rtcAlarm, h]

@[simp] theorem idleSession_leaves (h : p ≠ .seqr ∧ p ≠ .breach ∧ p ≠ .sec ∧ p ≠ .com) (n o) (d : Dev) :
    p.of (idleSession n o d) = p.of d := by
  simp [idleSession, h]

@[simp] theorem stoPermit_leaves (h : p ≠ .isl) (n) (d : Dev) : p.of (stoPermit n d) = p.of d := by simp [stoPermit, h]

@[simp] theorem acceptPair_leaves (h : p ≠ .seqr ∧ p ≠ .breach ∧ p ≠ .pwm ∧ p ≠ .axes ∧ p ≠ .ladder ∧ p ≠ .isl) (o c pdu mac) (d : Dev) :
    p.of (acceptPair o c pdu mac d) = p.of d := by
  simp [acceptPair, h]

@[simp] theorem copyArrival_leaves (h : p ≠ .seqr ∧ p ≠ .breach ∧ p ≠ .pwm ∧ p ≠ .axes ∧ p ≠ .ladder ∧ p ≠ .isl) (o eth port cobId mac pdu) (d : Dev) :
    p.of (copyArrival o eth port cobId mac pdu d) = p.of d := by
  simp [copyArrival, h]
  split <;> simp [h]

@[simp] theorem timebaseWindow_leaves (h : p ≠ .seqr ∧ p ≠ .breach ∧ p ≠ .prot ∧ p ≠ .pwm ∧ p ≠ .axes ∧ p ≠ .ladder ∧ p ≠ .isl) (ppb o) (d0 : Dev) :
    p.of (timebaseWindow ppb o d0) = p.of d0 := by
  simp [timebaseWindow, h]

@[simp] theorem recordToBuffer_leaves (h : p ≠ .seqr ∧ p ≠ .breach ∧ p ≠ .acq ∧ p ≠ .out ∧ p ≠ .free) (o s) (d0 : Dev) :
    p.of (recordToBuffer o s d0) = p.of d0 := by
  simp [recordToBuffer, h]
  split <;> simp [h]

@[simp] theorem commNonceExpiry_leaves (h : p ≠ .sec) (session) (d : Dev) : p.of (commNonceExpiry session d) = p.of d := by
  unfold commNonceExpiry
  split <;> simp [h]

@[simp] theorem recatchDelay_leaves (h : p ≠ .seqr ∧ p ≠ .breach ∧ p ≠ .axes) (o n) (d : Dev) : p.of (recatchDelay o n d) = p.of d := by
  simp [recatchDelay, h]

@[simp] theorem windowExpiry_leaves (h : p ≠ .isl) (o c) (d : Dev) : p.of (windowExpiry o c d) = p.of d := by simp [windowExpiry, h]

@[simp] theorem debugLockoutEnd_leaves (h : p ≠ .aon ∧ p ≠ .seqr ∧ p ≠ .breach ∧ p ≠ .sec ∧ p ≠ .prot ∧ p ≠ .pwm ∧ p ≠ .axes ∧ p ≠ .ladder ∧ p ≠ .isl) (o) (d : Dev) :
    p.of (debugLockoutEnd o d) = p.of d := by
  unfold debugLockoutEnd
  split <;> simp [h]

@[simp] theorem casSupervised_leaves (h : p ≠ .seqr ∧ p ≠ .breach ∧ p ≠ .time ∧ p ≠ .prot ∧ p ≠ .pwm ∧ p ≠ .axes ∧ p ≠ .ladder) (o found) (d : Dev) :
    p.of (casSupervised o found d) = p.of d := by
  unfold casSupervised
  split <;> simp [h]

@[simp] theorem commTimeout_leaves (h : p ≠ .seqr ∧ p ≠ .breach ∧ p ≠ .sec) (o) (d : Dev) : p.of (commTimeout o d) = p.of d := by
  unfold commTimeout
  split <;> simp [h]

@[simp] theorem retryWaitExpiry_leaves (h : p ≠ .bridges) (o k) (d : Dev) : p.of (retryWaitExpiry o k d) = p.of d := by simp [retryWaitExpiry, h]

@[simp] theorem tpdoTimer_leaves (h : p ≠ .doms ∧ p ≠ .com ∧ p ≠ .out ∧ p ≠ .free) (n) (s : State) :
    p.of (tpdoTimer n s).dev = p.of s.dev := by
  simp [tpdoTimer, h]

@[simp] theorem startFails_leaves (h : p ≠ .stack) (cause) (d : Dev) : p.of (startFails cause d) = p.of d := by simp [startFails, h]

@[simp] theorem startTimeout_leaves (h : p ≠ .stack) (st ms cause) (d : Dev) : p.of (startTimeout st ms cause d) = p.of d := by simp [startTimeout, h]

@[simp] theorem ledgerSecond_leaves (h : p ≠ .seqr ∧ p ≠ .breach ∧ p ≠ .ledger) (o i) (d : Dev) : p.of (ledgerSecond o i d) = p.of d := by
  simp [ledgerSecond]
  split <;> simp [h]

@[simp] theorem admitTimeout_leaves (h : p ≠ .seqr ∧ p ≠ .breach ∧ p ≠ .prot ∧ p ≠ .lcl ∧ p ≠ .stack ∧ p ≠ .pwm ∧ p ≠ .axes ∧ p ≠ .ladder) (c o) (d : Dev) :
    p.of (admitTimeout c o d) = p.of d := by
  simp [admitTimeout]
  split <;> simp [h]

@[simp] theorem decelStop_leaves (h : p ≠ .seqr ∧ p ≠ .breach ∧ p ≠ .pwm ∧ p ≠ .bridges ∧ p ≠ .axes ∧ p ≠ .ladder) (o n) (d : Dev) :
    p.of (decelStop o n d) = p.of d := by
  simp [decelStop, h]

@[simp] theorem speedWindowEnd_leaves (h : p ≠ .seqr ∧ p ≠ .breach ∧ p ≠ .pwm ∧ p ≠ .axes ∧ p ≠ .ladder ∧ p ≠ .isl) (o n samples) (d : Dev) :
    p.of (speedWindowEnd o n samples d) = p.of d := by
  simp [speedWindowEnd]
  split <;> simp [h]

@[simp] theorem tpdosAtStart_leaves (h : p ≠ .doms ∧ p ≠ .com ∧ p ≠ .out ∧ p ≠ .free) (s : State) :
    p.of (tpdosAtStart s).dev = p.of s.dev := by
  simp [tpdosAtStart, h]

@[simp] theorem rpdoRefused_leaves (h : p ≠ .com) (n) (d : Dev) : p.of (rpdoRefused n d) = p.of d := by simp [rpdoRefused, h]

@[simp] theorem delayTick_leaves (h : p ≠ .lcl) (o r) (d : Dev) : p.of (delayTick o r d) = p.of d := by simp [delayTick, h]

@[simp] theorem closePowerMeans_leaves (h : p ≠ .axes ∧ p ≠ .ladder) (d : Dev) : p.of (closePowerMeans d) = p.of d := by simp [closePowerMeans, h]

@[simp] theorem delayResult_leaves (h : p ≠ .lcl ∧ p ≠ .out) (o r k t) (d : Dev) : p.of (delayResult o r k t d) = p.of d := by simp [delayResult, h]

@[simp] theorem carrierStart_leaves (h : p ≠ .seqr ∧ p ≠ .breach ∧ p ≠ .time) (o runs) (d : Dev) :
    p.of (carrierStart o runs d) = p.of d := by
  simp [carrierStart, h]
  split <;> simp [h]

@[simp] theorem stageLedger_leaves (h : p ≠ .seqr ∧ p ≠ .breach ∧ p ≠ .acq ∧ p ≠ .free) (o k t) (d : Dev) :
    p.of (stageLedger o k t d) = p.of d := by
  simp [stageLedger, h]

@[simp] theorem ledgerCount_leaves (h : p ≠ .seqr ∧ p ≠ .breach ∧ p ≠ .ledger) (o i qIn qOut len) (d : Dev) :
    p.of (ledgerCount o i qIn qOut len d) = p.of d := by
  simp [ledgerCount, h]

@[simp] theorem ledgerMiss_leaves (h : p ≠ .seqr ∧ p ≠ .breach ∧ p ≠ .ledger) (o i cause start len) (d : Dev) :
    p.of (ledgerMiss o i cause start len d) = p.of d := by
  simp [ledgerMiss, h]

@[simp] theorem postCell_leaves (h : p ≠ .seqr ∧ p ≠ .breach ∧ p ≠ .ledger) (o t len c) (d : Dev) :
    p.of (postCell o t len c d) = p.of d := by
  unfold postCell
  split <;> simp [h]

@[simp] theorem postBus_leaves (h : p ≠ .seqr ∧ p ≠ .breach ∧ p ≠ .ledger) (o t len) (d : Dev) : p.of (postBus o t len d) = p.of d := by
  simp [postBus, h]

@[simp] theorem postStack_leaves (h : p ≠ .seqr ∧ p ≠ .breach ∧ p ≠ .ledger) (o t len s) (d : Dev) :
    p.of (postStack o t len s d) = p.of d := by
  simp [postStack, h]

@[simp] theorem ledgerBreach_leaves (h : p ≠ .seqr ∧ p ≠ .breach) (o src sel cause) (d : Dev) :
    p.of (ledgerBreach o src sel cause d) = p.of d := by
  simp [ledgerBreach, h]

@[simp] theorem ledgerAway_leaves (h : p ≠ .seqr ∧ p ≠ .breach ∧ p ≠ .ledger) (o cause t) (d : Dev) :
    p.of (ledgerAway o cause t d) = p.of d := by
  simp [ledgerAway]
  split <;> simp [h]

@[simp] theorem ledgerPeriod_leaves (h : p ≠ .seqr ∧ p ≠ .breach ∧ p ≠ .lcl ∧ p ≠ .ledger) (o t) (d : Dev) :
    p.of (ledgerPeriod o t d) = p.of d := by
  unfold ledgerPeriod
  dsimp only
  split
  · rfl
  · rw [of_lcl h.2.2.1, onLedger_leaves h.2.2.2]
    split
    · simp [h]
    · simp [h]
    · rw [postBus_leaves (by simp [h]), forEach_leaves (fun s e => postStack_leaves (by simp [h]) _ _ _ _ _),
        forEach_leaves (fun c e => postCell_leaves (by simp [h]) _ _ _ _ _)]

@[simp] theorem delayClaim_leaves (h : p ≠ .lcl) (r) (d : Dev) : p.of (delayClaim r d) = p.of d := by simp [delayClaim, h]

@[simp] theorem startExchanges_leaves (h : p ≠ .seqr ∧ p ≠ .breach ∧ p ≠ .prot ∧ p ≠ .lcl ∧ p ≠ .stack ∧ p ≠ .pwm ∧ p ≠ .axes ∧ p ≠ .ladder) (o r k) (d : Dev) :
    p.of (startExchanges o r k d) = p.of d := by
  simp [startExchanges, h]

@[simp] theorem slotLaunched_leaves (h : p ≠ .seqr ∧ p ≠ .breach ∧ p ≠ .prot ∧ p ≠ .lcl ∧ p ≠ .stack ∧ p ≠ .pwm ∧ p ≠ .axes ∧ p ≠ .ladder) (o r k u) (d : Dev) :
    p.of (slotLaunched o r k u d) = p.of d := by
  simp [slotLaunched]
  repeat' split
  all_goals simp [h]

@[simp] theorem commandLaunched_leaves (h : p ≠ .seqr ∧ p ≠ .breach ∧ p ≠ .prot ∧ p ≠ .lcl ∧ p ≠ .stack ∧ p ≠ .pwm ∧ p ≠ .axes ∧ p ≠ .ladder) (o k c s) (d : Dev) :
    p.of (commandLaunched o k c s d) = p.of d := by
  unfold commandLaunched
  split <;> simp [h]

@[simp] theorem launchRing_leaves (h : p ≠ .seqr ∧ p ≠ .breach ∧ p ≠ .prot ∧ p ≠ .lcl ∧ p ≠ .stack ∧ p ≠ .pwm ∧ p ≠ .axes ∧ p ≠ .ladder ∧ p ≠ .out ∧ p ≠ .free) (o r k t trip) (d : Dev) :
    p.of (launchRing o r k t trip d) = p.of d := by
  unfold launchRing
  simp only []
  repeat' split
  all_goals simp [h]

@[simp] theorem enterStack_leaves (h : p ≠ .seqr ∧ p ≠ .breach ∧ p ≠ .stack) (o st cause k t) (d : Dev) :
    p.of (enterStack o st cause k t d) = p.of d := by
  simp [enterStack, h]

@[simp] theorem launchState_leaves (h : p ≠ .seqr ∧ p ≠ .breach ∧ p ≠ .stack) (o k t) (d : Dev) : p.of (launchState o k t d) = p.of d := by
  simp [launchState, h]
  split <;> simp [h]

@[simp] theorem periodBegins_leaves (h : p ≠ .sched ∧ p ≠ .seqr ∧ p ≠ .breach ∧ p ≠ .time ∧ p ≠ .prot ∧ p ≠ .lcl ∧ p ≠ .stack ∧ p ≠ .ledger ∧ p ≠ .acq ∧ p ≠ .pwm ∧ p ≠ .axes ∧ p ≠ .ladder ∧ p ≠ .out ∧ p ≠ .free) (k t o) (d : Dev) :
    p.of (periodBegins k t o d) = p.of d := by
  simp [periodBegins, h]

@[simp] theorem pathFaultNow_leaves (h : p ≠ .seqr ∧ p ≠ .breach ∧ p ≠ .prot ∧ p ≠ .lcl ∧ p ≠ .pwm ∧ p ≠ .axes ∧ p ≠ .ladder ∧ p ≠ .out) (o r p0 cause) (d : Dev) :
    p.of (pathFaultNow o r p0 cause d) = p.of d := by
  simp [pathFaultNow]
  split <;> simp [h]

@[simp] theorem creditBreach_leaves (h : p ≠ .seqr ∧ p ≠ .breach ∧ p ≠ .lcl) (c o) (d : Dev) : p.of (creditBreach c o d) = p.of d := by
  simp [creditBreach, h]

@[simp] theorem pulseEnd_leaves (h : p ≠ .isl) (o n isB) (d : Dev) : p.of (pulseEnd o n isB d) = p.of d := by
  simp [pulseEnd]
  split <;> simp [h]

@[simp] theorem nonceExpiry_leaves (h : p ≠ .sec) (d : Dev) : p.of (nonceExpiry d) = p.of d := by
  unfold nonceExpiry
  split <;> simp [h]

@[simp] theorem pairFault_leaves (h : p ≠ .seqr ∧ p ≠ .breach ∧ p ≠ .pwm ∧ p ≠ .axes ∧ p ≠ .ladder ∧ p ≠ .isl) (o n isB fb) (d : Dev) :
    p.of (pairFault o n isB fb d) = p.of d := by
  simp [pairFault, h]

@[simp] theorem feedbackCheck_leaves (h : p ≠ .seqr ∧ p ≠ .breach ∧ p ≠ .pwm ∧ p ≠ .axes ∧ p ≠ .ladder ∧ p ≠ .isl) (o fbA fbB) (d : Dev) :
    p.of (feedbackCheck o fbA fbB d) = p.of d := by
  simp [feedbackCheck, h]

@[simp] theorem porstRelease_leaves (h : p ≠ .aon ∧ p ≠ .seqr ∧ p ≠ .breach ∧ p ≠ .sec ∧ p ≠ .prot ∧ p ≠ .pwm ∧ p ≠ .axes ∧ p ≠ .ladder ∧ p ≠ .isl) (s : State) :
    p.of (porstRelease s).dev = p.of s.dev := by
  simp [porstRelease, h]

@[simp] theorem suppressClear_leaves (h : p ≠ .lcl) (r) (d : Dev) : p.of (suppressClear r d) = p.of d := by
  unfold suppressClear
  split <;> simp [h]

@[simp] theorem rateSlewStep_leaves (h : p ≠ .time) (d : Dev) : p.of (rateSlewStep d) = p.of d := by simp [rateSlewStep, h]

@[simp] theorem headroomEnd_leaves (h : p ≠ .seqr ∧ p ≠ .breach ∧ p ≠ .stack) (g o) (d : Dev) : p.of (headroomEnd g o d) = p.of d := by
  unfold headroomEnd
  split <;> simp [h]

@[simp] theorem irqDue_leaves (h : p ≠ .acq ∧ p ≠ .out) (s) (d : Dev) : p.of (irqDue s d) = p.of d := by
  simp [irqDue]
  split <;> simp [h]

@[simp] theorem startRetry_leaves (h : p ≠ .axes) (n) (d : Dev) : p.of (startRetry n d) = p.of d := by
  simp [startRetry]
  split <;> simp [h]

@[simp] theorem reconcileLimit_leaves (h : p ≠ .seqr ∧ p ≠ .breach ∧ p ≠ .lcl ∧ p ≠ .free) (r o) (d : Dev) :
    p.of (reconcileLimit r o d) = p.of d := by
  unfold reconcileLimit
  split <;> simp [h]

@[simp] theorem syncLost_leaves (h : p ≠ .seqr ∧ p ≠ .breach ∧ p ≠ .prot ∧ p ≠ .lcl ∧ p ≠ .pwm ∧ p ≠ .axes ∧ p ≠ .ladder ∧ p ≠ .out) (o r p0) (d : Dev) :
    p.of (syncLost o r p0 d) = p.of d := by
  simp [syncLost, h]

@[simp] theorem nakRetry_leaves (h : p ≠ .lcl) (c) (d : Dev) : p.of (nakRetry c d) = p.of d := by simp [nakRetry, h]

@[simp] theorem reinsertTimeout_leaves (h : p ≠ .stack) (c o) (d : Dev) : p.of (reinsertTimeout c o d) = p.of d := by simp [reinsertTimeout, h]

@[simp] theorem adcTriggered_leaves (h : p ≠ .seqr ∧ p ≠ .breach ∧ p ≠ .meas ∧ p ≠ .free) (o n) (d : Dev) :
    p.of (adcTriggered o n d) = p.of d := by
  simp [adcTriggered]
  split <;> simp [h]

@[simp] theorem cmpSettled_leaves (h : p ≠ .seqr ∧ p ≠ .breach ∧ p ≠ .meas ∧ p ≠ .prot ∧ p ≠ .acq ∧ p ≠ .pwm ∧ p ≠ .axes ∧ p ≠ .ladder) (o n outside) (d : Dev) :
    p.of (cmpSettled o n outside d) = p.of d := by
  unfold cmpSettled
  split <;> simp [h]

@[simp] theorem validReturn_leaves (h : p ≠ .lcl) (r p0 rttPs f) (d : Dev) : p.of (validReturn r p0 rttPs f d) = p.of d := by simp [validReturn, h]

@[simp] theorem invalidReturn_leaves (h : p ≠ .lcl) (r p0 cause f hops) (d : Dev) : p.of (invalidReturn r p0 cause f hops d) = p.of d := by
  simp [invalidReturn, h]

@[simp] theorem pathGood_leaves (h : p ≠ .seqr ∧ p ≠ .breach ∧ p ≠ .lcl) (o r p0 k) (d : Dev) : p.of (pathGood o r p0 k d) = p.of d := by
  simp [pathGood, h]
  split <;> simp [h]

@[simp] theorem standbyReturn_leaves (h : p ≠ .seqr ∧ p ≠ .breach ∧ p ≠ .lcl) (o r p0 b rttPs) (d : Dev) :
    p.of (standbyReturn o r p0 b rttPs d) = p.of d := by
  simp [standbyReturn]
  repeat' split
  all_goals simp [h]

@[simp] theorem modDie_leaves (h : p ≠ .meas) (k f) (d : Dev) : p.of (modDie k f d) = p.of d := by simp [modDie, h]

@[simp] theorem thermalLatch_leaves (h : p ≠ .seqr ∧ p ≠ .breach ∧ p ≠ .meas) (o die cause) (d : Dev) :
    p.of (thermalLatch o die cause d) = p.of d := by
  simp [thermalLatch, h]

@[simp] theorem numberAon_leaves (h : p ≠ .seqr ∧ p ≠ .breach) (o) (d : Dev) : p.of (numberAon o d) = p.of d := by simp [numberAon, h]

@[simp] theorem calInterrupted_leaves (h : p ≠ .seqr ∧ p ≠ .breach ∧ p ≠ .meas) (o) (d : Dev) : p.of (calInterrupted o d) = p.of d := by
  simp [calInterrupted, h]

@[simp] theorem timeResumes_leaves (h : p ≠ .clk ∧ p ≠ .sched ∧ p ≠ .lcl) (d : Dev) : p.of (timeResumes d) = p.of d := by simp [timeResumes, h]

@[simp] theorem rateStarts_leaves (h : p ≠ .time) (o) (d : Dev) : p.of (rateStarts o d) = p.of d := by simp [rateStarts, h]

@[simp] theorem resumeEffects_leaves (h : p ≠ .clk ∧ p ≠ .sched ∧ p ≠ .seqr ∧ p ≠ .breach ∧ p ≠ .meas ∧ p ≠ .time ∧ p ≠ .sec ∧ p ≠ .lcl ∧ p ≠ .ledger ∧ p ≠ .acq ∧ p ≠ .pwm ∧ p ≠ .axes ∧ p ≠ .ladder ∧ p ≠ .out) (m o) (d : Dev) :
    p.of (resumeEffects m o d) = p.of d := by
  unfold resumeEffects
  split <;> simp [h]

@[simp] theorem reloadDomain_leaves (h : p ≠ .aon) (m) (s : State) : p.of (reloadDomain m s).dev = p.of s.dev := by
  unfold reloadDomain
  split <;> simp [h]

@[simp] theorem calPersisted_leaves (h : p ≠ .meas) (o) (d : Dev) : p.of (calPersisted o d) = p.of d := by simp [calPersisted, h]

@[simp] theorem ledgerPowerOn_leaves (h : p ≠ .seqr ∧ p ≠ .breach ∧ p ≠ .ledger) (o) (d : Dev) : p.of (ledgerPowerOn o d) = p.of d := by
  unfold ledgerPowerOn
  split <;> simp [h]

@[simp] theorem netFresh_leaves (h : p ≠ .seqr ∧ p ≠ .breach ∧ p ≠ .sec ∧ p ≠ .com) (o) (d : Dev) : p.of (netFresh o d) = p.of d := by
  simp [netFresh, h]

@[simp] theorem cePowerOn_leaves (h : p ≠ .seqr ∧ p ≠ .breach ∧ p ≠ .engine) (o) (d : Dev) : p.of (cePowerOn o d) = p.of d := by simp [cePowerOn, h]

@[simp] theorem islandPowerOn_leaves (h : p ≠ .seqr ∧ p ≠ .breach ∧ p ≠ .pwm ∧ p ≠ .axes ∧ p ≠ .ladder ∧ p ≠ .isl) (o failed) (d : Dev) :
    p.of (islandPowerOn o failed d) = p.of d := by
  simp [islandPowerOn, h]

@[simp] theorem powerOnEffects_leaves (h : p ≠ .aon ∧ p ≠ .seqr ∧ p ≠ .breach ∧ p ≠ .meas ∧ p ≠ .time ∧ p ≠ .sec ∧ p ≠ .prot ∧ p ≠ .lcl ∧ p ≠ .stack ∧ p ≠ .ledger ∧ p ≠ .engine ∧ p ≠ .pwm ∧ p ≠ .axes ∧ p ≠ .ladder ∧ p ≠ .isl ∧ p ≠ .com) (m failed o) (d : Dev) :
    p.of (powerOnEffects m failed o d) = p.of d := by
  unfold powerOnEffects
  split <;> simp [h]

@[simp] theorem epochStart_leaves (h : p ≠ .seqr ∧ p ≠ .breach) (o) (d : Dev) : p.of (epochStart o d) = p.of d := by simp [epochStart, h]

@[simp] theorem selectBank_leaves (h : p ≠ .seqr ∧ p ≠ .breach ∧ p ≠ .sec) (o) (d : Dev) : p.of (selectBank o d) = p.of d := by
  simp [selectBank]
  split <;> simp [h]

@[simp] theorem senseFuses_leaves (h : p ≠ .seqr ∧ p ≠ .breach ∧ p ≠ .sec) (o) (d : Dev) : p.of (senseFuses o d) = p.of d := by simp [senseFuses, h]

@[simp] theorem selectImage_leaves (h : p ≠ .seqr ∧ p ≠ .breach ∧ p ≠ .sec ∧ p ≠ .nv) (o) (d0 : Dev) :
    p.of (selectImage o d0) = p.of d0 := by
  simp [selectImage, h]

@[simp] theorem bootChoice_leaves (h : p ≠ .seqr ∧ p ≠ .breach ∧ p ≠ .sec ∧ p ≠ .nv) (o) (d : Dev) : p.of (bootChoice o d) = p.of d := by
  simp [bootChoice, h]

@[simp] theorem pulseStart_leaves (h : p ≠ .isl) (o n isB) (d : Dev) : p.of (pulseStart o n isB d) = p.of d := by simp [pulseStart, h]

@[simp] theorem takeSlots_leaves (h : p ≠ .seqr ∧ p ≠ .breach ∧ p ≠ .prot ∧ p ≠ .lcl ∧ p ≠ .stack ∧ p ≠ .pwm ∧ p ≠ .axes ∧ p ≠ .ladder ∧ p ≠ .free) (o ik r k seg f) (d : Dev) :
    p.of (takeSlots o ik r k seg f d) = p.of d := by
  unfold takeSlots
  refine forEach_leaves (fun a e => ?_) _ d
  dsimp only
  repeat' split
  all_goals simp [h]

@[simp] theorem cyclicReturn_leaves (h : p ≠ .seqr ∧ p ≠ .breach ∧ p ≠ .prot ∧ p ≠ .lcl ∧ p ≠ .stack ∧ p ≠ .ledger ∧ p ≠ .pwm ∧ p ≠ .axes ∧ p ≠ .ladder ∧ p ≠ .free) (o ik r p0 b rttPs) (d : Dev) :
    p.of (cyclicReturn o ik r p0 b rttPs d) = p.of d := by
  unfold cyclicReturn
  simp only []
  repeat' split
  all_goals simp [h]

@[simp] theorem frameReturns_leaves (h : p ≠ .seqr ∧ p ≠ .breach ∧ p ≠ .prot ∧ p ≠ .lcl ∧ p ≠ .stack ∧ p ≠ .ledger ∧ p ≠ .acq ∧ p ≠ .pwm ∧ p ≠ .axes ∧ p ≠ .ladder ∧ p ≠ .free) (r p0 b rtt o) (d : Dev) :
    p.of (frameReturns r p0 b rtt o d) = p.of d := by
  unfold frameReturns
  split <;> simp [h]

@[simp] theorem ptpSync_leaves (h : p ≠ .clk ∧ p ≠ .sched ∧ p ≠ .seqr ∧ p ≠ .breach ∧ p ≠ .time ∧ p ≠ .lcl ∧ p ≠ .ledger) (o mac udp domain parent seq logSync twoStep originNs correction) (d : Dev) :
    p.of (ptpSync o mac udp domain parent seq logSync twoStep originNs correction d) = p.of d := by
  simp [ptpSync]
  split <;> simp [h]

@[simp] theorem d3hotEntry_leaves (h : p ≠ .seqr ∧ p ≠ .breach ∧ p ≠ .sec ∧ p ≠ .acq ∧ p ≠ .com) (o) (d : Dev) :
    p.of (d3hotEntry o d) = p.of d := by
  simp [d3hotEntry, h]

@[simp] theorem busSample_leaves (h : p ≠ .ledger) (o time) (d : Dev) : p.of (busSample o time d) = p.of d := by
  unfold busSample
  split <;> simp [h]

@[simp] theorem hardAction_leaves (h : p ≠ .seqr ∧ p ≠ .breach ∧ p ≠ .axes ∧ p ≠ .free) (o v) (d : Dev) :
    p.of (hardAction o v d) = p.of d := by
  simp [hardAction, h]

@[simp] theorem hardClear_leaves (h : p ≠ .axes) (d : Dev) : p.of (hardClear d) = p.of d := by simp [hardClear, h]

@[simp] theorem ladderTo_leaves (h : p ≠ .seqr ∧ p ≠ .breach ∧ p ≠ .axes ∧ p ≠ .ladder ∧ p ≠ .free) (o step v) (d : Dev) :
    p.of (ladderTo o step v d) = p.of d := by
  simp [ladderTo, h]

@[simp] theorem ladderResult_leaves (h : p ≠ .seqr ∧ p ≠ .breach ∧ p ≠ .axes ∧ p ≠ .ladder ∧ p ≠ .free) (o) (d : Dev) :
    p.of (ladderResult o d) = p.of d := by
  simp [ladderResult, h]

@[simp] theorem legSample_leaves (h : p ≠ .seqr ∧ p ≠ .breach ∧ p ≠ .ladder) (o leg) (d : Dev) : p.of (legSample o leg d) = p.of d := by
  simp [legSample, h]

@[simp] theorem resultConsumers_leaves (h : p ≠ .seqr ∧ p ≠ .breach ∧ p ≠ .ledger ∧ p ≠ .acq ∧ p ≠ .axes ∧ p ≠ .ladder ∧ p ≠ .free) (o n e time) (d : Dev) :
    p.of (resultConsumers o n e time d) = p.of d := by
  simp [resultConsumers, h]

@[simp] theorem entryResult_leaves (h : p ≠ .seqr ∧ p ≠ .breach ∧ p ≠ .meas ∧ p ≠ .ledger ∧ p ≠ .acq ∧ p ≠ .axes ∧ p ≠ .ladder ∧ p ≠ .free) (o n samples) (d : Dev) :
    p.of (entryResult o n samples d) = p.of d := by
  unfold entryResult
  split <;> simp [h]

@[simp] theorem hvLatch_leaves (h : p ≠ .seqr ∧ p ≠ .breach ∧ p ≠ .pwm ∧ p ≠ .bridges ∧ p ≠ .axes ∧ p ≠ .ladder ∧ p ≠ .hvLatched) (o) (d : Dev) :
    p.of (hvLatch o d) = p.of d := by
  simp [hvLatch, h]

@[simp] theorem dieCycle_leaves (h : p ≠ .meas) (die) (d : Dev) : p.of (dieCycle die d).2 = p.of d := by simp [dieCycle, h]

@[simp] theorem senseDie_leaves (h : p ≠ .seqr ∧ p ≠ .breach ∧ p ≠ .meas) (o die) (d : Dev) : p.of (senseDie o die d) = p.of d := by
  unfold senseDie
  simp only []
  repeat' split
  all_goals simp [h]

@[simp] theorem thermalRelease_leaves (h : p ≠ .aon ∧ p ≠ .seqr ∧ p ≠ .breach ∧ p ≠ .meas ∧ p ≠ .hvLatched) (o die) (d : Dev) :
    p.of (thermalRelease o die d) = p.of d := by
  grind [thermalRelease, modDie_leaves, modAon_leaves, record_leaves, startWake_leaves, of_hvLatched, foldl_leaves, foldl_state_leaves, State.act_dev, devTo_dev]

@[simp] theorem arpReceived_leaves (h : p ≠ .time ∧ p ≠ .out) (mac reply senderIp senderMac targetIp) (d : Dev) :
    p.of (arpReceived mac reply senderIp senderMac targetIp d) = p.of d := by
  simp [arpReceived, h]

@[simp] theorem recatchTimeout_leaves (h : p ≠ .seqr ∧ p ≠ .breach ∧ p ≠ .axes) (o n) (d : Dev) : p.of (recatchTimeout o n d) = p.of d := by
  simp [recatchTimeout, h]

@[simp] theorem timebaseStarts_leaves (h : p ≠ .clk ∧ p ≠ .sched ∧ p ≠ .seqr ∧ p ≠ .breach ∧ p ≠ .time ∧ p ≠ .lcl) (o) (d : Dev) :
    p.of (timebaseStarts o d) = p.of d := by
  simp [timebaseStarts, h]

@[simp] theorem tbDeclared_leaves (h : p ≠ .clk ∧ p ≠ .sched ∧ p ≠ .seqr ∧ p ≠ .breach ∧ p ≠ .time ∧ p ≠ .prot ∧ p ≠ .lcl ∧ p ≠ .pwm ∧ p ≠ .axes ∧ p ≠ .ladder) (o mv) (d : Dev) :
    p.of (tbDeclared o mv d) = p.of d := by
  simp [tbDeclared, h]

@[simp] theorem bootCalibration_leaves (h : p ≠ .aon ∧ p ≠ .meas) (o) (d : Dev) : p.of (bootCalibration o d) = p.of d := by simp [bootCalibration, h]

@[simp] theorem grantHold_leaves (h : p ≠ .lcl) (c o) (d : Dev) : p.of (grantHold c o d) = p.of d := by simp [grantHold, h]

@[simp] theorem resetNRearm_leaves (h : p ≠ .aon ∧ p ≠ .seqr ∧ p ≠ .breach) (o) (d : Dev) : p.of (resetNRearm o d) = p.of d := by
  simp [resetNRearm, h]

@[simp] theorem ladderStale_leaves (h : p ≠ .seqr ∧ p ≠ .breach ∧ p ≠ .axes ∧ p ≠ .ladder ∧ p ≠ .free) (o) (d : Dev) :
    p.of (ladderStale o d) = p.of d := by
  grind [ladderStale, ladderTo_leaves, mechEvaluate_leaves, record_leaves, of_axes, of_ladder, foldl_leaves, foldl_state_leaves, State.act_dev, devTo_dev]

@[simp] theorem requestTimeout_leaves (h : p ≠ .seqr ∧ p ≠ .breach ∧ p ≠ .prot ∧ p ≠ .lcl ∧ p ≠ .stack ∧ p ≠ .pwm ∧ p ≠ .axes ∧ p ≠ .ladder) (c o) (d : Dev) :
    p.of (requestTimeout c o d) = p.of d := by
  simp [requestTimeout, h]

@[simp] theorem linkUp_leaves (h : p ≠ .seqr ∧ p ≠ .breach ∧ p ≠ .sec ∧ p ≠ .acq ∧ p ≠ .com) (o speed width) (d : Dev) :
    p.of (linkUp o speed width d) = p.of d := by
  simp [linkUp, h]

end Sys2Proof.Machine
end

section
/-! The frame of writes (O59): what a write of the objects of each chapter leaves. -/
namespace Sys2Proof.Machine
variable {p : Part}

theorem Part.same_of_leaves {s t : State} (ho : p ≠ .objects) (h : p.of t.dev = p.of s.dev) : p.same s t := by
  cases p
  case objects => exact absurd rfl ho
  all_goals exact h.symm

/-- NET apart, a domain that leaves ON sends nothing. -/
theorem leaveEffects_out {m : Domain} (hm : m ≠ .net) (requested wasOn : Bool) (target : DomState) (o : Od) (d : Dev) :
    Part.out.of (leaveEffects requested wasOn m target o d) = Part.out.of d := by
  cases m
  case net => exact absurd rfl hm
  all_goals
    unfold leaveEffects
    split
    · simp
    · simp

theorem beginTransition_out {m : Domain} {target : DomState} (h : m ≠ .net ∨ target = .on) (cause : Nat) (s : State) :
    Part.out.of (beginTransition m target cause s).dev = Part.out.of s.dev := by
  rcases h with hm | rfl
  · simp [beginTransition, leaveEffects_out hm]
  · simp [beginTransition]

theorem domainRequest_out (m : Domain) (target : DomState) (s : State) :
    Part.out.of (domainRequest m target s).2.dev = Part.out.of s.dev := by
  by_cases hm : m ≠ .net ∨ target = .on
  · unfold domainRequest
    dsimp only
    repeat' split
    all_goals simp [beginTransition_out hm]
  · obtain ⟨rfl, ht⟩ : m = .net ∧ target ≠ .on := by simpa [not_or] using hm
    unfold domainRequest
    have hl : (target != .on) = true := by simpa using ht
    simp only [hl, Bool.true_and, beq_self_eq_true, if_true]
    repeat' split
    all_goals simp

theorem writeAon_out (ix sub : Nat) (b : Bytes) (s : State) : Part.out.of (writeAon ix sub b s).2.dev = Part.out.of s.dev := by
  unfold writeAon
  dsimp only
  split_ifs
  case pos => exact domainRequest_out _ _ _
  all_goals simp


/-- Where the table of writes speaks of a list of units, a unit that it does not name is neither the objects nor one of the list. -/
theorem not_mem_of_within {l : List Part} (h : (p == .objects || (Part.records ++ l).contains p) = false) :
    p ≠ .objects ∧ p ≠ .seqr ∧ p ≠ .breach ∧ p ∉ l := by
  simpa [Part.records, and_assoc] using h

/-- What a write of the objects of each chapter leaves: the frames of the chapters' writes at the indices of the table. -/
theorem writeEffect_leaves (session : Option Nat) (ix sub : Nat) (b : Bytes) (s : State) (h : touchedByWrite ix p = false) :
    p ≠ .objects ∧ p.of (writeEffect session ix sub b s).2.dev = p.of s.dev := by
  have region : ix ≤ 0x2010 ∨ (0x2010 < ix ∧ ix < 0x2300) ∨ (0x2300 ≤ ix ∧ ix < 0x2400) ∨ (0x2400 ≤ ix ∧ ix < 0x2500) ∨
      (0x2500 ≤ ix ∧ ix < 0x2600) ∨ (0x2600 ≤ ix ∧ ix < 0x2700) ∨ (0x2700 ≤ ix ∧ ix < 0x2800) ∨ (0x2810 ≤ ix ∧ ix < 0x2820) ∨
      (0x3100 ≤ ix ∧ ix ≤ 0x31FF ∨ 0x3480 ≤ ix ∧ ix ≤ 0x34FF) ∨ (0x3000 ≤ ix ∧ ix < 0x3100 ∨ 0x3200 ≤ ix ∧ ix < 0x3400) ∨
      (0x4000 ≤ ix ∧ ix < 0x4200) ∨ (0x4200 ≤ ix ∧ ix ≤ 0x4205) ∨ (0x4206 ≤ ix ∧ ix < 0x4400) ∨ (0x4400 ≤ ix ∧ ix < 0x4580) ∨
      ix = 0x4600 ∨ (0x5000 ≤ ix ∧ ix ≤ 0x58FF) ∨
      (0x2800 ≤ ix ∧ ¬(0x2810 ≤ ix ∧ ix < 0x2820) ∧ ¬(0x3000 ≤ ix ∧ ix < 0x3400) ∧
        ¬(0x3480 ≤ ix ∧ ix ≤ 0x34FF) ∧ ¬(0x4000 ≤ ix ∧ ix < 0x4580) ∧ ix ≠ 0x4600 ∧
        ¬(0x5000 ≤ ix ∧ ix ≤ 0x58FF)) := by omega
  rcases region with com | aon | security | time | guarantees | meas | acq | engine | link | stack | pwm | bridge | spare | axis | rfl |
    safety | plain
  all_goals simp (disch := omega) only [touchedByWrite, writeEffect, if_pos, if_neg, ite_self, or_true, true_and] at h ⊢
  case inr.inl =>
    obtain rfl | rfl | rfl | rfl : p = .rails ∨ p = .hvLatched ∨ p = .out ∨ p = .free := by
      simp only [Bool.not_eq_false', List.contains_eq_mem, decide_eq_true_eq] at h
      simpa using h
    · simp
    · simp
    · simp [writeAon_out]
    · simp
  all_goals
    obtain ⟨ho, hs, hb, hl⟩ := not_mem_of_within h
    simp only [Part.cells, Part.switches, List.mem_append, List.mem_cons, List.not_mem_nil, or_false, not_or] at hl
    simp [ho, hs, hb, hl]

/-- Settles O59, by the frame of each chapter's write. -/
theorem writesTouchTheirUnits : Obligations.WritesTouchTheirUnits := by
  intro session ix sub b s p h
  obtain ⟨ho, hp⟩ := writeEffect_leaves session ix sub b s h
  apply Part.same_of_leaves ho
  unfold writeObject
  split
  · rfl
  · exact hp
end Sys2Proof.Machine
end

section
/-! What every step keeps (O57): the objects in canonical form, and no STO output high outside PERMIT. First the island's functions. -/
namespace Sys2Proof.Machine

/-- No STO output of the island is high outside PERMIT. -/
def Island.StoOff (i : Island) : Prop := ∀ n : Fin 4, (vget i.pairs n.val).sound = true

theorem sound_iff (s : State) : s.Sound ↔ s.od.wf = true ∧ (Part.isl.of s.dev).StoOff := Iff.rfl

/-- What only the pairs decide: every island with these pairs. -/
theorem stoOff_of_pairs {i j : Island} (h : i.StoOff) (hp : j.pairs = i.pairs) : j.StoOff := by
  unfold Island.StoOff at *
  rwa [hp]

/-- An island that starts anew has its pairs at their off level. -/
theorem stoOff_of_fresh {i : Island} (hp : i.pairs = Vector.replicate 4 {}) : i.StoOff := by
  unfold Island.StoOff
  rw [hp]
  decide

@[simp] theorem stoOff_ite (c : Prop) [Decidable c] (a b : Island) : (if c then a else b).StoOff ↔ if c then a.StoOff else b.StoOff := by
  split <;> rfl

/-! ### Changes of pairs -/

theorem onPair_pairs (n : Nat) (f : StoPair → StoPair) (d : Dev) : (Part.isl.of (onPair n f d)).pairs = vmod (Part.isl.of d).pairs n f := rfl

/-- A change that keeps each pair sound keeps the pairs sound. -/
theorem onPair_stoOff {n : Nat} {f : StoPair → StoPair} {d : Dev} (h : (Part.isl.of d).StoOff)
    (hf : (vget (Part.isl.of d).pairs n).sound = true → (f (vget (Part.isl.of d).pairs n)).sound = true) :
    (Part.isl.of (onPair n f d)).StoOff := fun m => by
  rw [onPair_pairs]
  exact vget_vmod_keeps (P := fun p : StoPair => p.sound = true) _ _ _ _ hf (h m)

theorem sound_of_permit {p : StoPair} (h : p.state = .permit) : p.sound = true := by simp [StoPair.sound, h]

/-- Both outputs low and no pulse that would raise one: sound in every state of the pair. -/
theorem sound_of_low {p : StoPair} (ha : p.a.level = false) (hb : p.b.level = false) (qa : p.a.quiet = true) (qb : p.b.quiet = true) :
    p.sound = true := by simp [StoPair.sound, ha, hb, qa, qb]

@[simp] theorem drive_level (t : Nat) (level : Bool) (x : StoOut) : (drive t level x).level = level := by
  unfold drive
  split
  · next h => simpa using h
  · rfl

theorem quiet_of_pulse_none {x : StoOut} (h : x.pulse = none) : x.quiet = true := by simp [StoOut.quiet, h]

/-! ### A demand lowers the pairs that it names (R486) -/

theorem ss1End_pairs (o : Od) (n how : Nat) (d : Dev) : (Part.isl.of (ss1End o n how d)).pairs = (Part.isl.of d).pairs := by
  unfold ss1End
  dsimp only
  split
  · rfl
  · rw [record_leaves (by decide)]
    rfl

theorem forEach_ss1End_pairs (o : Od) (l : List Nat) (how : Nat) (d : Dev) :
    (Part.isl.of (forEach l (fun n => ss1End o n how) d)).pairs = (Part.isl.of d).pairs := by
  unfold forEach
  induction l generalizing d with
  | nil => rfl
  | cons n l ih => exact (ih _).trans (ss1End_pairs o n how d)

/-- Changes of pairs, one after another: a pair that is sound before, or that is changed, is sound after. -/
theorem forEach_onPair_sound {f : Nat → StoPair → StoPair} (hf : ∀ n p, (f n p).sound = true) (l : List Nat) (d : Dev) (m : Nat)
    (h : (vget (Part.isl.of d).pairs m).sound = true ∨ m ∈ l ∧ m < 4) :
    (vget (Part.isl.of (forEach l (fun n => onPair n (f n)) d)).pairs m).sound = true := by
  unfold forEach
  induction l generalizing d with
  | nil => simpa using h
  | cons n l ih =>
    apply ih
    rw [onPair_pairs]
    by_cases hm : n = m
    · subst hm
      by_cases hlt : n < 4
      · left; rw [vget_vmod_same _ _ _ hlt]; exact hf _ _
      · left
        refine vget_vmod_keeps (P := fun p : StoPair => p.sound = true) _ _ _ _ (fun _ => hf _ _) ?_
        exact h.resolve_right (fun x => hlt x.2)
    · rw [vget_vmod_other _ _ hm]
      rcases h with h | ⟨hin, hlt⟩
      · exact .inl h
      · exact .inr ⟨(List.mem_cons.mp hin).resolve_left (fun e => hm e.symm), hlt⟩

/-- A demand leaves each pair sound that was sound, and makes each enabled pair sound that it names. -/
theorem stoDemand_pair_sound (o : Od) (cause mask : Nat) (d : Dev) (m : Nat)
    (h : (vget (Part.isl.of d).pairs m).sound = true ∨ (m < 4 ∧ mask.testBit m = true ∧ pairEnabled o m = true)) :
    (vget (Part.isl.of (stoDemand o cause mask d)).pairs m).sound = true := by
  have hmem : (vget (Part.isl.of d).pairs m).sound = true ∨ m ∈ (setBits 4 mask).filter (pairEnabled o) ∧ m < 4 :=
    h.imp_right (fun ⟨hm, hb, he⟩ => ⟨List.mem_filter.mpr ⟨(mem_setBits _ _ _).mpr ⟨hm, hb⟩, he⟩, hm⟩)
  unfold stoDemand
  dsimp only
  split
  · next hempty =>
    rw [List.isEmpty_iff.mp hempty] at hmem
    simpa using hmem
  · rw [pronghorn_leaves (by decide), forEach_leaves (fun n e => axisSto_leaves (by decide) o n e)]
    have hlow := forEach_onPair_sound (f := fun n p =>
      { p with
        state := if p.state == .permit then .off else p.state
        causes := setBit p.causes (cause - 1)
        a := { drive d.clk.run false p.a with pulse := none }
        b := { drive d.clk.run false p.b with pulse := none }
        demand := some (d.clk.run, cause)
        discarded := if pulseOpen o d.clk.run (vget d.isl.pairs n).a || pulseOpen o d.clk.run (vget d.isl.pairs n).b
          then satInc p.discarded else p.discarded })
      (fun n p => sound_of_low (by simp) (by simp) rfl rfl) _ d m hmem
    split
    · rw [record_leaves (by decide)]; exact hlow
    · rw [forEach_ss1End_pairs, record_leaves (by decide)]; exact hlow

theorem stoDemand_stoOff {o : Od} {cause mask : Nat} {d : Dev} (h : (Part.isl.of d).StoOff) :
    (Part.isl.of (stoDemand o cause mask d)).StoOff := fun m => stoDemand_pair_sound o cause mask d m (.inl (h m))

end Sys2Proof.Machine
end

section
/-! The island's functions keep every STO output outside PERMIT low (O57). -/
namespace Sys2Proof.Machine

/-! ### Changes that leave the pairs -/

/-- The island of a device that is put together from its units. -/
@[simp] theorem islOf_mk (clk doms rails aon sched seqr breach meas time sec nv prot lcl stack ledger mram engine acq pwm bridges axes ladder
    isl hvLatched com out free) :
    Part.isl.of ⟨clk, doms, rails, aon, sched, seqr, breach, meas, time, sec, nv, prot, lcl, stack, ledger, mram, engine, acq, pwm, bridges,
      axes, ladder, isl, hvLatched, com, out, free⟩ = isl := rfl

/-- Only the pairs count. -/
@[simp] theorem stoOff_mk (i : Island) (state result ccv speed conns windowAt timebaseHold debugHold scanHold vio33Hold failHold ccvSame) :
    Island.StoOff ⟨state, result, ccv, i.pairs, speed, conns, windowAt, timebaseHold, debugHold, scanHold, vio33Hold, failHold, ccvSame⟩ ↔
      i.StoOff := Iff.rfl

/-- An island whose pairs are at their first state. -/
@[simp] theorem stoOff_mk_fresh (state result ccv speed conns windowAt timebaseHold debugHold scanHold vio33Hold failHold ccvSame) :
    Island.StoOff ⟨state, result, ccv, Vector.replicate 4 {}, speed, conns, windowAt, timebaseHold, debugHold, scanHold, vio33Hold, failHold,
      ccvSame⟩ := stoOff_of_fresh rfl

theorem isl_eq (d : Dev) : d.isl = Part.isl.of d := rfl

@[simp] theorem onConn_stoOff (c : Nat) (f : Conn → Conn) (d : Dev) :
    (Part.isl.of (onConn c f d)).StoOff ↔ (Part.isl.of d).StoOff := Iff.rfl

theorem forEach_stoOff {α : Type} {f : α → Dev → Dev} (hf : ∀ a e, (Part.isl.of e).StoOff → (Part.isl.of (f a e)).StoOff) {l : List α}
    {d : Dev} (h : (Part.isl.of d).StoOff) : (Part.isl.of (forEach l f d)).StoOff :=
  forEach_keeps (P := fun e => (Part.isl.of e).StoOff) (fun a _ => hf a) h

theorem ss1End_stoOff {o : Od} {n how : Nat} {d : Dev} (h : (Part.isl.of d).StoOff) : (Part.isl.of (ss1End o n how d)).StoOff :=
  stoOff_of_pairs h (ss1End_pairs o n how d)

theorem ss1Start_stoOff {o : Od} {n how : Nat} {d : Dev} (h : (Part.isl.of d).StoOff) : (Part.isl.of (ss1Start o n how d)).StoOff := by
  unfold ss1Start
  dsimp only
  split
  · exact h
  · simpa [isl_eq] using h

theorem connTo_stoOff {o : Od} {c cause : Nat} {st : ConnState} {d : Dev} (h : (Part.isl.of d).StoOff) :
    (Part.isl.of (connTo o c st cause d)).StoOff := by
  simpa [connTo] using h

/-! ### The check value, holds, power -/

theorem ccvTake_stoOff {o : Od} {ccv : Nat} {d : Dev} (h : (Part.isl.of d).StoOff) : (Part.isl.of (ccvTake o ccv d)).StoOff := by
  unfold ccvTake
  dsimp only
  split
  · simpa [isl_eq] using h
  · split
    · simpa [isl_eq] using h
    · exact stoDemand_stoOff (by simpa [isl_eq] using h)

theorem debugWithdraw_stoOff {o : Od} {d : Dev} (h : (Part.isl.of d).StoOff) : (Part.isl.of (debugWithdraw o d)).StoOff := by
  unfold debugWithdraw
  split
  · simpa [isl_eq] using h
  · exact h

theorem debugDetach_stoOff {o : Od} {reason : Nat} {d : Dev} (h : (Part.isl.of d).StoOff) :
    (Part.isl.of (debugDetach o reason d)).StoOff := by
  unfold debugDetach
  dsimp only
  split
  · exact debugWithdraw_stoOff (by simpa using h)
  · simpa using h

theorem scanEnd_stoOff {o : Od} {d : Dev} (h : (Part.isl.of d).StoOff) : (Part.isl.of (scanEnd o d)).StoOff := by
  unfold scanEnd
  dsimp only
  split
  · exact h
  · simpa [isl_eq] using h

theorem debugStrobe_stoOff {o : Od} {d : Dev} (h : (Part.isl.of d).StoOff) : (Part.isl.of (debugStrobe o d)).StoOff := by
  unfold debugStrobe
  dsimp only
  split
  · simpa using stoDemand_stoOff (by simpa [isl_eq] using h)
  · simpa [isl_eq] using h

theorem debugAttach_stoOff {o : Od} {d : Dev} (h : (Part.isl.of d).StoOff) : (Part.isl.of (debugAttach o d)).StoOff := by
  simpa [debugAttach] using debugStrobe_stoOff (by simpa using h)

theorem scanStart_stoOff {o : Od} {instr : Nat} {d : Dev} (h : (Part.isl.of d).StoOff) : (Part.isl.of (scanStart o instr d)).StoOff := by
  unfold scanStart
  dsimp only
  split
  · simpa using stoDemand_stoOff (by simpa [isl_eq] using h)
  · simpa [isl_eq] using h

theorem updateIr_stoOff {o : Od} {instr : Nat} {d : Dev} (h : (Part.isl.of d).StoOff) : (Part.isl.of (updateIr o instr d)).StoOff := by
  unfold updateIr
  split
  · exact h
  · extract_lets d1 d2
    have h1 : (Part.isl.of d1).StoOff := by
      unfold d1
      split
      · exact scanEnd_stoOff h
      · exact h
    have h2 : (Part.isl.of d2).StoOff := by
      unfold d2
      split
      · exact scanStart_stoOff h1
      · simpa using h1
    split
    · exact debugAttach_stoOff h2
    · exact h2

theorem tapReset_stoOff {o : Od} {reason : Nat} {d : Dev} (h : (Part.isl.of d).StoOff) : (Part.isl.of (tapReset o reason d)).StoOff := by
  simpa [tapReset] using debugDetach_stoOff (scanEnd_stoOff h)

theorem dbgChallenge_stoOff {o : Od} {d : Dev} (h : (Part.isl.of d).StoOff) : (Part.isl.of (dbgChallenge o d)).StoOff := by
  unfold dbgChallenge
  split
  · exact h
  · extract_lets d1 n d2
    simpa [d2, isl_eq] using updateIr_stoOff h

theorem dbgResponse_stoOff {o : Od} {response : Bytes} {d : Dev} (h : (Part.isl.of d).StoOff) :
    (Part.isl.of (dbgResponse o response d)).StoOff := by
  unfold dbgResponse
  split
  · exact h
  · extract_lets d1 good n nn d2
    have h1 : (Part.isl.of d1).StoOff := updateIr_stoOff h
    have h2 : (Part.isl.of d2).StoOff := by simpa [d2] using h1
    split
    · exact debugAttach_stoOff (by simpa using h1)
    · split
      · exact h2
      · simpa using h2

theorem debugLockoutEnd_stoOff {o : Od} {d : Dev} (h : (Part.isl.of d).StoOff) : (Part.isl.of (debugLockoutEnd o d)).StoOff := by
  unfold debugLockoutEnd
  split
  · exact h
  · split
    · exact h
    · exact debugWithdraw_stoOff (by simpa using h)

theorem timebaseWindow_stoOff {ppb : Int} {o : Od} {d : Dev} (h : (Part.isl.of d).StoOff) :
    (Part.isl.of (timebaseWindow ppb o d)).StoOff := by
  unfold timebaseWindow
  dsimp only
  split_ifs
  · exact h
  · simpa using stoDemand_stoOff (by simpa [isl_eq] using h)
  all_goals simpa [isl_eq] using h

theorem islandPowerOn_stoOff (o : Od) (failed : Nat) (d : Dev) : (Part.isl.of (islandPowerOn o failed d)).StoOff := by
  unfold islandPowerOn
  exact forEach_stoOff (fun _ _ h => stoDemand_stoOff h) (by simp)

theorem powerOnEffects_stoOff {m : Domain} {failed : Nat} {o : Od} {d : Dev} (h : (Part.isl.of d).StoOff) :
    (Part.isl.of (powerOnEffects m failed o d)).StoOff := by
  cases m
  case safe => simpa [powerOnEffects, isl_eq] using islandPowerOn_stoOff _ _ _
  all_goals simpa [powerOnEffects] using h

theorem leaveEffects_stoOff {requested wasOn : Bool} {m : Domain} {target : DomState} {o : Od} {d : Dev} (h : (Part.isl.of d).StoOff) :
    (Part.isl.of (leaveEffects requested wasOn m target o d)).StoOff := by
  unfold leaveEffects
  split
  · simpa using h
  · cases m
    case sec =>
      have h1 := debugDetach_stoOff (o := o) (reason := 1) (d := onSec (fun s => { s with instr := 1 }) (scanEnd o d))
        (by simpa using scanEnd_stoOff h)
      cases requested
      · exact h
      · simpa using h1
    case safe => simp
    all_goals simpa using h

theorem dropContents_stoOff {requested : Bool} {m : Domain} {d : Dev} (h : (Part.isl.of d).StoOff) :
    (Part.isl.of (dropContents requested m d)).StoOff := by
  cases m
  case safe => simp [dropContents]
  all_goals exact h

/-! ### Connections, speed monitors, comparisons, pulses -/

theorem statusSend_stoOff {o : Od} {c : Nat} {d : Dev} (h : (Part.isl.of d).StoOff) : (Part.isl.of (statusSend o c d)).StoOff := by
  unfold statusSend
  split
  · exact h
  · simpa using h

theorem windowExpiry_stoOff {o : Od} {c : Nat} {d : Dev} (h : (Part.isl.of d).StoOff) : (Part.isl.of (windowExpiry o c d)).StoOff := h

theorem connFault_stoOff {o : Od} {c cause : Nat} {d : Dev} (h : (Part.isl.of d).StoOff) : (Part.isl.of (connFault o c cause d)).StoOff := by
  have h1 : (Part.isl.of (onConn c (fun k => { k with faultCause := cause })
      (if (vget d.isl.conns c).state == .fault then d else connTo o c .fault cause d))).StoOff := by
    rw [onConn_stoOff]
    split
    · exact h
    · exact connTo_stoOff h
  unfold connFault
  dsimp only
  split
  · exact stoDemand_stoOff h1
  · exact forEach_stoOff (fun _ _ he => ss1Start_stoOff he) h1

theorem connTimeout_stoOff {o : Od} {c : Nat} {d : Dev} (h : (Part.isl.of d).StoOff) : (Part.isl.of (connTimeout o c d)).StoOff := by
  unfold connTimeout
  dsimp only
  split
  · exact h
  · exact connFault_stoOff h

theorem stoPermit_stoOff {n : Nat} {d : Dev} (h : (Part.isl.of d).StoOff) : (Part.isl.of (stoPermit n d)).StoOff :=
  onPair_stoOff h (fun _ => sound_of_permit rfl)

theorem acceptPair_stoOff {o : Od} {c : Nat} {pdu mac : Bytes} {d : Dev} (h : (Part.isl.of d).StoOff) :
    (Part.isl.of (acceptPair o c pdu mac d)).StoOff := by
  unfold acceptPair
  extract_lets k seq cmd prev d0 d1 inPermit stop slow d2 ask bad good d3
  have h1 : (Part.isl.of d1).StoOff := by
    unfold d1
    split
    · exact h
    · exact connTo_stoOff h
  have h2 : (Part.isl.of d2).StoOff := forEach_stoOff (fun _ _ he => ss1Start_stoOff he) (stoDemand_stoOff h1)
  have h3 : (Part.isl.of d3).StoOff := forEach_stoOff (fun _ _ he => by simpa using he) h2
  split
  · exact h3
  · simpa using forEach_stoOff (fun _ _ he => stoPermit_stoOff he) h3

theorem copyArrival_stoOff {o : Od} {eth : Bool} {port cobId : Nat} {mac pdu : Bytes} {d : Dev} (h : (Part.isl.of d).StoOff) :
    (Part.isl.of (copyArrival o eth port cobId mac pdu d)).StoOff := by
  unfold copyArrival
  dsimp only
  repeat' split
  all_goals simp only [onConn_stoOff, h, connFault_stoOff, acceptPair_stoOff]

theorem speed_stoOff {d : Dev} (h : (Part.isl.of d).StoOff) (v : Vector SpeedMon 4) :
    (Part.isl.of { d with isl := { d.isl with speed := v } }).StoOff := h

theorem speedWindowEnd_stoOff {o : Od} {n : Nat} {samples : List (Int × Int)} {d : Dev} (h : (Part.isl.of d).StoOff) :
    (Part.isl.of (speedWindowEnd o n samples d)).StoOff := by
  unfold speedWindowEnd
  dsimp only
  repeat' split
  all_goals simp only [speed_stoOff h, stoDemand_stoOff, ss1End_stoOff]

theorem ss1TimeLimit_stoOff {o : Od} {n : Nat} {d : Dev} (h : (Part.isl.of d).StoOff) : (Part.isl.of (ss1TimeLimit o n d)).StoOff := by
  unfold ss1TimeLimit
  repeat' split
  all_goals simp only [h, stoDemand_stoOff, ss1End_stoOff]

theorem pulseStart_stoOff {o : Od} {n : Nat} {isB : Bool} {d : Dev} (h : (Part.isl.of d).StoOff) :
    (Part.isl.of (pulseStart o n isB d)).StoOff := by
  by_cases hpermit : (vget d.isl.pairs n).state = .permit
  · unfold pulseStart
    extract_lets p other go
    refine iteInduction (motive := fun e => (Part.isl.of e).StoOff) (fun _ => h) (fun _ => ?_)
    refine onPair_stoOff h (fun _ => sound_of_permit ?_)
    cases isB <;> exact hpermit
  · have hd : pulseStart o n isB d = d := by simp [pulseStart, hpermit]
    rwa [hd]

/-- Judging a pulse leaves the level, and no pulse open that was not. -/
theorem judgePulse_level (o : Od) (t : Nat) (x : StoOut) : (judgePulse o t x).1.level = x.level := by
  unfold judgePulse
  repeat' split
  all_goals rfl

theorem judgePulse_quiet {o : Od} {t : Nat} {x : StoOut} (h : x.quiet = true) : (judgePulse o t x).1.quiet = true := by
  unfold judgePulse
  repeat' split
  all_goals simp_all [StoOut.quiet]

theorem compareOut_level (o : Od) (t : Nat) (fb : Bool) (x : StoOut) : (compareOut o t fb x).1.level = x.level := by
  unfold compareOut
  repeat' split
  all_goals rfl

theorem compareOut_quiet {o : Od} {t : Nat} {fb : Bool} {x : StoOut} (h : x.quiet = true) : (compareOut o t fb x).1.quiet = true := by
  unfold compareOut
  repeat' split
  all_goals exact h

/-- Outputs that stay low where they were low, with no pulse that was not open before. -/
theorem sound_of_outputs {p : StoPair} {a b : StoOut} (h : p.sound = true) (ha : a.level = p.a.level) (hb : b.level = p.b.level)
    (qa : p.a.quiet = true → a.quiet = true) (qb : p.b.quiet = true → b.quiet = true) (passed : Nat) :
    ({ p with a := a, b := b, passed := passed } : StoPair).sound = true := by
  simp only [StoPair.sound, Bool.or_eq_true, Bool.and_eq_true, ha, hb] at h ⊢
  exact h.imp_right fun ⟨⟨⟨la, pa⟩, lb⟩, pb⟩ => ⟨⟨⟨la, qa pa⟩, lb⟩, qb pb⟩

theorem pulseEnd_stoOff {o : Od} {n : Nat} {isB : Bool} {d : Dev} (h : (Part.isl.of d).StoOff) :
    (Part.isl.of (pulseEnd o n isB d)).StoOff := by
  unfold pulseEnd
  dsimp only
  split
  · next s hopen =>
    split
    · exact h
    · refine onPair_stoOff h (fun hs => sound_of_permit ?_)
      have hpermit : (vget d.isl.pairs n).state = .permit := by
        by_contra hne
        cases isB <;> simp_all [StoPair.sound, StoOut.quiet, isl_eq]
      cases isB <;> exact hpermit
  · refine onPair_stoOff h (fun hs => ?_)
    cases isB
    · exact sound_of_outputs hs (judgePulse_level _ _ _) rfl judgePulse_quiet id _
    · exact sound_of_outputs hs rfl (judgePulse_level _ _ _) id judgePulse_quiet _
  · exact h

/-- A pair that its feedback faults is lowered by the demand that follows (R475). -/
theorem pairFault_stoOff {o : Od} {n : Nat} {isB fb : Bool} {d : Dev} (hen : pairEnabled o n = true) (h : (Part.isl.of d).StoOff) :
    (Part.isl.of (pairFault o n isB fb d)).StoOff := by
  unfold pairFault
  dsimp only
  split
  · exact h
  · intro m
    refine stoDemand_pair_sound _ _ _ _ _ ?_
    rw [record_leaves (by decide), onPair_pairs]
    by_cases hm : n = m.val
    · exact .inr ⟨m.isLt, by simp [hm], hm ▸ hen⟩
    · rw [vget_vmod_other _ _ hm]
      exact .inl (h m)

theorem feedbackCheck_stoOff {o : Od} {fbA fbB : Nat} {d : Dev} (h : (Part.isl.of d).StoOff) :
    (Part.isl.of (feedbackCheck o fbA fbB d)).StoOff := by
  unfold feedbackCheck
  refine forEach_keeps (P := fun e => (Part.isl.of e).StoOff) (fun n hn e he => ?_) h
  have hen : pairEnabled o n = true := (List.mem_filter.mp hn).2
  have hn4 : n < 4 := List.mem_range.mp (List.mem_filter.mp hn).1
  dsimp only
  have h1 : (Part.isl.of (onPair n (fun p => { p with
      a := (compareOut o e.clk.run (fbA.testBit n) (vget e.isl.pairs n).a).1
      b := (compareOut o e.clk.run (fbB.testBit n) (vget e.isl.pairs n).b).1 }) e)).StoOff :=
    onPair_stoOff he (fun hs => sound_of_outputs hs (compareOut_level _ _ _ _) (compareOut_level _ _ _ _) compareOut_quiet compareOut_quiet _)
  split
  · exact pairFault_stoOff hen h1
  · split
    · exact pairFault_stoOff hen h1
    · refine onPair_stoOff h1 (fun hs => ?_)
      rw [onPair_pairs, vget_vmod_same _ _ _ hn4] at hs ⊢
      exact sound_of_outputs hs (judgePulse_level _ _ _) (judgePulse_level _ _ _) judgePulse_quiet judgePulse_quiet _

end Sys2Proof.Machine
end

section
/-! The functions of the model that leave the objects as they are. -/
namespace Sys2Proof.Machine

@[simp] theorem od_ite (c : Prop) [Decidable c] (s t : State) : (if c then s else t).od = if c then s.od else t.od := apply_ite _ _ _ _

@[simp] theorem od_ite_wrote (c : Prop) [Decidable c] (s t : Wrote) :
    (if c then s else t).2.od = if c then s.2.od else t.2.od := apply_ite (fun w : Wrote => w.2.od) _ _ _

@[simp] theorem wrote_snd (s : State) : (wrote s).2 = s := rfl

@[simp] theorem refuse_snd (detail : Nat) (s : State) : (refuse detail s).2 = s := rfl

@[simp] theorem unlessRefused_od (r : Option Nat) (s t : State) :
    (unlessRefused r s t).2.od = if r.isSome then s.od else t.od := by
  cases r <;> rfl

@[simp] theorem foldl_od {α : Type} {f : State → α → State} (hf : ∀ a s, (f s a).od = s.od) (l : List α) (s : State) :
    (l.foldl f s).od = s.od := by
  induction l generalizing s with
  | nil => rfl
  | cons a l ih => exact (ih _).trans (hf a s)

@[simp] theorem pwmCommitWrite_od (q) (s : State) : (pwmCommitWrite q s).2.od = s.od := by
  simp [pwmCommitWrite]

@[simp] theorem groupReleaseWrite_od (g) (s : State) : (groupReleaseWrite g s).2.od = s.od := by
  unfold groupReleaseWrite
  split <;> simp

@[simp] theorem pairDisaWrite_od (q) (s : State) : (pairDisaWrite q s).2.od = s.od := by
  simp [pairDisaWrite]

@[simp] theorem pairEnabWrite_od (q) (s : State) : (pairEnabWrite q s).2.od = s.od := by
  simp [pairEnabWrite]

@[simp] theorem shadowWrite_od (q f) (s : State) : (shadowWrite q f s).2.od = s.od := by
  simp [shadowWrite]

@[simp] theorem chopClrfWrite_od (s : State) : (chopClrfWrite s).2.od = s.od := by
  simp [chopClrfWrite]

@[simp] theorem ceCommitWrite_od (n) (s : State) : (ceCommitWrite n s).2.od = s.od := by
  simp [ceCommitWrite]

@[simp] theorem ceControlWrite_od (n cmd) (s : State) : (ceControlWrite n cmd s).2.od = s.od := by
  unfold ceControlWrite
  split <;> simp

@[simp] theorem streamEnableWrite_od (n) (s : State) : (streamEnableWrite n s).2.od = s.od := by
  simp [streamEnableWrite]

@[simp] theorem armWrite_od (a) (s : State) : (armWrite a s).2.od = s.od := by
  simp [armWrite]

@[simp] theorem bridgeTestWrite_od (k) (s : State) : (bridgeTestWrite k s).2.od = s.od := by
  simp [bridgeTestWrite]

@[simp] theorem bridgeClrfWrite_od (k) (s : State) : (bridgeClrfWrite k s).2.od = s.od := by
  simp [bridgeClrfWrite]

@[simp] theorem wrongAxisState_od (n : Nat) (s : State) : (wrongAxisState n s).2.od = s.od := by
  simp [wrongAxisState]

@[simp] theorem axisDisaWrite_od (n) (s : State) : (axisDisaWrite n s).2.od = s.od := by
  simp [axisDisaWrite]

@[simp] theorem axisClrfWrite_od (n) (s : State) : (axisClrfWrite n s).2.od = s.od := by
  simp [axisClrfWrite]

@[simp] theorem axisEnableWrite_od (n ecat) (s : State) : (axisEnableWrite n ecat s).2.od = s.od := by
  simp [axisEnableWrite]

@[simp] theorem axisDeclWrite_od (n) (s : State) : (axisDeclWrite n s).2.od = s.od := by
  simp [axisDeclWrite]

@[simp] theorem stoClrfWrite_od (session n) (s : State) : (stoClrfWrite session n s).2.od = s.od := by
  simp [stoClrfWrite]

@[simp] theorem chopEnabWrite_od (s : State) : (chopEnabWrite s).2.od = s.od := by
  simp [chopEnabWrite]

@[simp] theorem wrongStackState_od (s : State) : (wrongStackState s).2.od = s.od := by
  simp [wrongStackState]

@[simp] theorem stackConnWrite_od (s : State) : (stackConnWrite s).2.od = s.od := by
  simp [stackConnWrite]

@[simp] theorem tripWrite_od (s : State) : (tripWrite s).2.od = s.od := by
  simp [tripWrite]

@[simp] theorem clearImplausible_od (c) (s : State) : (clearImplausible c s).2.od = s.od := by
  simp [clearImplausible]

@[simp] theorem stackParkWrite_od (s : State) : (stackParkWrite s).2.od = s.od := by
  simp [stackParkWrite]

@[simp] theorem stackStopWrite_od (s : State) : (stackStopWrite s).2.od = s.od := by
  simp [stackStopWrite]

@[simp] theorem reinsertWrite_od (c) (s : State) : (reinsertWrite c s).2.od = s.od := by
  simp [reinsertWrite]

@[simp] theorem releaseWrite_od (s : State) : (releaseWrite s).2.od = s.od := by
  simp [releaseWrite]

@[simp] theorem bypassWrite_od (c) (s : State) : (bypassWrite c s).2.od = s.od := by
  simp [bypassWrite]

@[simp] theorem commResponseWrite_od (session b) (s : State) : (commResponseWrite session b s).2.od = s.od := by
  unfold commResponseWrite
  dsimp only
  repeat' split
  all_goals simp

@[simp] theorem loadWrite_od (session sub b) (s : State) : (loadWrite session sub b s).2.od = s.od := by
  unfold loadWrite
  repeat' split
  all_goals simp

@[simp] theorem commEndWrite_od (session) (s : State) : (commEndWrite session s).2.od = s.od := by
  simp [commEndWrite]

@[simp] theorem keySlotWrite_od (session slot key) (s : State) : (keySlotWrite session slot key s).2.od = s.od := by
  simp [keySlotWrite]

@[simp] theorem lifecycleWrite_od (session sealing cellA cellB) (s : State) : (lifecycleWrite session sealing cellA cellB s).2.od = s.od := by
  unfold lifecycleWrite
  split <;> simp

@[simp] theorem storeWrite_od (session restore sub) (s : State) : (storeWrite session restore sub s).2.od = s.od := by
  simp [storeWrite]

@[simp] theorem stepNowWrite_od (s : State) : (stepNowWrite s).2.od = s.od := by
  simp [stepNowWrite]

@[simp] theorem profileRunWrite_od (n) (s : State) : (profileRunWrite n s).2.od = s.od := by
  simp [profileRunWrite]

@[simp] theorem swTriggerWrite_od (n) (s : State) : (swTriggerWrite n s).2.od = s.od := by
  simp [swTriggerWrite]

@[simp] theorem calStartWrite_od (mask) (s : State) : (calStartWrite mask s).2.od = s.od := by
  simp [calStartWrite]

@[simp] theorem bootConfirm_od (s : State) : (bootConfirm s).2.od = s.od := by
  simp [bootConfirm]

@[simp] theorem groupWrite_od (v) (s : State) : (groupWrite v s).2.od = s.od := by
  simp [groupWrite]

@[simp] theorem beginTransition_od (m target cause) (s : State) : (beginTransition m target cause s).od = s.od := by
  simp [beginTransition]

@[simp] theorem domainRequest_od (m target) (s : State) : (domainRequest m target s).2.od = s.od := by
  unfold domainRequest
  dsimp only
  repeat' split
  all_goals simp

@[simp] theorem chopDisaWrite_od (s : State) : (chopDisaWrite s).2.od = s.od := by
  simp [chopDisaWrite]

@[simp] theorem errantWrite_od (c) (s : State) : (errantWrite c s).2.od = s.od := by
  simp [errantWrite]

@[simp] theorem ringStopWrite_od (r) (s : State) : (ringStopWrite r s).2.od = s.od := by
  simp [ringStopWrite]

@[simp] theorem rsynWrite_od (c) (s : State) : (rsynWrite c s).2.od = s.od := by
  simp [rsynWrite]

@[simp] theorem leavWrite_od (c) (s : State) : (leavWrite c s).2.od = s.od := by
  simp [leavWrite]

@[simp] theorem ringStartWrite_od (r) (s : State) : (ringStartWrite r s).2.od = s.od := by
  simp [ringStartWrite]

@[simp] theorem swapWrite_od (r) (s : State) : (swapWrite r s).2.od = s.od := by
  simp [swapWrite]

@[simp] theorem abandon_od (n) (s : State) : (abandon n s).od = s.od := by
  unfold abandon
  split <;> simp

@[simp] theorem readNext_od (n : Nat) (t : Transfer) (s : State) : (readNext n t s).2.od = s.od := by
  simp [readNext]

@[simp] theorem beginTransfer_od (n t) (s : State) : (beginTransfer n t s).2.od = s.od := by
  simp [beginTransfer]

@[simp] theorem fetchValue_od (n ix sub) (s : State) : (fetchValue n ix sub s).2.od = s.od := by
  unfold fetchValue
  dsimp only
  split_ifs <;> simp

/-- What a read that needs segments answers is of no account for the state it leaves. -/
theorem beginTransfer_snd {n : Nat} {t : Transfer} {s u : State} {a : Option Abort} (h : beginTransfer n t s = (a, u)) :
    u = (beginTransfer n t s).2 := by rw [h]

@[simp] theorem readFirst_od (n ix sub : Nat) (s : State) : (readFirst n ix sub s).2.od = s.od := by
  unfold readFirst
  split
  · rfl
  · dsimp only
    split
    · simp
    · split
      · next h => simp [beginTransfer_snd h]
      · next h => simp [beginTransfer_snd h]

@[simp] theorem commService_od (n service : Nat) (m : OdMsg) (s : State) : (commService n service m s).2.od = s.od := by
  have h1 := commResponseWrite_od (some n) m.payload s
  have h2 := commEndWrite_od (some n) s
  unfold commService
  dsimp only
  repeat' refine iteInduction (motive := fun w : Answer × State => w.2.od = s.od) (fun _ => rfl) (fun _ => ?_)
  split
  · rfl
  · split
    · next h => rwa [h] at h1
    · next h => rwa [h] at h1
  · split
    · next h => rwa [h] at h2
    · next h => rwa [h] at h2
  · rfl

@[simp] theorem tpdoSend_od (n b) (s : State) : (tpdoSend n b s).od = s.od := by
  simp [tpdoSend]

@[simp] theorem tpdoChange_od (n) (s : State) : (tpdoChange n s).od = s.od := by
  simp [tpdoChange]

@[simp] theorem groupStep_od (s : State) : (groupStep s).od = s.od := by
  unfold groupStep
  dsimp only
  repeat' split
  all_goals simp

@[simp] theorem idleExpiry_od (m) (s : State) : (idleExpiry m s).od = s.od := by
  simp [idleExpiry]

@[simp] theorem cycleWakes_od (seen : Option WakeSeen) (preempts : Bool) (s : State) : (cycleWakes seen preempts s).od = s.od := by
  unfold cycleWakes
  split <;> simp

@[simp] theorem storeComplete_od (ok) (s : State) : (storeComplete ok s).od = s.od := by
  unfold storeComplete
  split <;> simp

@[simp] theorem seqTimeout_od (s : State) : (seqTimeout s).od = s.od := by
  unfold seqTimeout
  repeat' split
  all_goals simp

@[simp] theorem seqFailed_od (s : State) : (seqFailed s).od = s.od := by
  unfold seqFailed
  repeat' split
  all_goals simp

@[simp] theorem seqNext_od (s0 : State) : (seqNext s0).od = s0.od := by
  unfold seqNext
  dsimp only
  repeat' split
  all_goals simp

@[simp] theorem tbTimeout_od (s : State) : (tbTimeout s).od = s.od := by
  simp [tbTimeout]

@[simp] theorem tryRelease_od (s : State) : (tryRelease s).od = s.od := by
  simp [tryRelease]

@[simp] theorem resetNRelease_od (s : State) : (resetNRelease s).od = s.od := by
  simp [resetNRelease]

@[simp] theorem resetNStuck_od (s : State) : (resetNStuck s).od = s.od := by
  simp [resetNStuck]

@[simp] theorem resetNLimit_od (rises) (s : State) : (resetNLimit rises s).od = s.od := by
  simp [resetNLimit]

@[simp] theorem pinlessOver_od (s : State) : (pinlessOver s).od = s.od := by
  unfold pinlessOver
  split <;> simp

@[simp] theorem tpdoTimer_od (n) (s : State) : (tpdoTimer n s).od = s.od := by
  simp [tpdoTimer]

@[simp] theorem tpdosAtStart_od (s : State) : (tpdosAtStart s).od = s.od := by
  simp [tpdosAtStart]

@[simp] theorem porstRelease_od (s : State) : (porstRelease s).od = s.od := by
  simp [porstRelease]

end Sys2Proof.Machine
end

section
/-! Writes of objects keep the state sound (O57). -/
namespace Sys2Proof.Machine

/-! ### States put together -/

/-- `State.act_od`, with a proof by cases of the state: the kernel then never compares the two devices. -/
theorem od_act (f : Od → Dev → Dev) (s : State) : (s.act f).od = s.od := by cases s; rfl

theorem od_devTo (f : Dev → Dev) (s : State) : (devTo f s).od = s.od := by cases s; rfl

@[simp] theorem sound_mk (od : Od) (dev : Dev) (pending : List Instr) :
    State.Sound ⟨od, dev, pending⟩ ↔ od.wf = true ∧ (Part.isl.of dev).StoOff := Iff.rfl

@[simp] theorem act_sound (f : Od → Dev → Dev) (s : State) :
    (s.act f).Sound ↔ s.od.wf = true ∧ (Part.isl.of (f s.od s.dev)).StoOff := Iff.rfl

@[simp] theorem devTo_sound (f : Dev → Dev) (s : State) : (devTo f s).Sound ↔ s.od.wf = true ∧ (Part.isl.of (f s.dev)).StoOff := Iff.rfl

@[simp] theorem sound_ite (c : Prop) [Decidable c] (s t : State) : (if c then s else t).Sound ↔ if c then s.Sound else t.Sound := by
  split <;> rfl

@[simp] theorem sound_ite_wrote (c : Prop) [Decidable c] (s t : Wrote) :
    (if c then s else t).2.Sound ↔ if c then s.2.Sound else t.2.Sound := by
  split <;> rfl

theorem put_sound {ix sub : Nat} {b : Bytes} {s : State} (h : s.Sound) : (put ix sub b s).Sound := ⟨odSet_wf h.1, h.2⟩

theorem unlessRefused_sound {r : Option Nat} {s t : State} (hs : s.Sound) (ht : t.Sound) : (unlessRefused r s t).2.Sound := by
  cases r
  · exact ht
  · exact hs

@[simp] theorem wf_ite (c : Prop) [Decidable c] (a b : Od) : (if c then a else b).wf = if c then a.wf else b.wf := apply_ite _ _ _ _

theorem ite_od_wf {c : Prop} [Decidable c] {v w : Wrote} (hv : v.2.od.wf = true) (hw : w.2.od.wf = true) :
    (if c then v else w).2.od.wf = true :=
  iteInduction (motive := fun x : Wrote => x.2.od.wf = true) (fun _ => hv) (fun _ => hw)

/-- What every object's change keeps, all keep. -/
theorem foldl_odSet_wf {α : Type} {f : Od → α → Od} (hf : ∀ o a, o.wf = true → (f o a).wf = true) (l : List α) {o : Od}
    (h : o.wf = true) : (l.foldl f o).wf = true := by
  induction l generalizing o with
  | nil => exact h
  | cons a l ih => exact ih (hf o a h)

theorem odErase_wf {k : Nat} {o : Od} (h : o.wf = true) : (odErase k o).wf = true := filter_wf _ h

theorem odDrop_wf {own : Nat → Bool} {o : Od} (h : o.wf = true) : (odDrop own o).wf = true := filter_wf _ h

theorem odReload_wf {own : Nat → Bool} {c o : Od} (h : o.wf = true) : (odReload own c o).wf = true := by
  unfold odReload odPut
  refine foldl_odSet_wf (fun o p ho => ?_) _ (odDrop_wf h)
  split
  · exact odSet_wf ho
  · exact ho

theorem withLater_wf {o : Od} {d : Dev} (h : o.wf = true) : (withLater o d).wf = true := foldl_odSet_wf (fun _ _ => odSet_wf) _ h

/-! ### The writes of each chapter -/

section
variable {ix sub n : Nat} {b : Bytes} {s : State}

theorem put_wf (h : s.od.wf = true) : (put ix sub b s).od.wf = true := odSet_wf h

theorem pairSetting_wf {q : Nat} (h : s.od.wf = true) : (pairSetting ix sub q b s).2.od.wf = true := by
  simp [pairSetting, h, put_wf, -put_od]

theorem writeGuarantees_wf (h : s.od.wf = true) : (writeGuarantees ix sub b s).2.od.wf = true := by
  simp [writeGuarantees, h, put_wf, -put_od]

theorem writePwm_wf (h : s.od.wf = true) : (writePwm ix sub b s).2.od.wf = true := by
  unfold writePwm
  dsimp only
  refine ite_od_wf ?pair (ite_od_wf ?channel (ite_od_wf ?source (ite_od_wf ?group ?_)))
  case pair => split <;> simp [h, put_wf, od_devTo, -put_od, -State.act_od, -devTo_od, pairSetting_wf]
  case channel => split <;> simp [h, put_wf, -put_od, -State.act_od, -devTo_od, pairSetting_wf]
  case group =>
    split
    · split
      · exact h
      · exact put_wf h
    · simp [h]
    · simp [h, put_wf, -put_od, -State.act_od, -devTo_od]
  all_goals simp [h, put_wf, od_act, -put_od, -State.act_od, -devTo_od]

theorem dimensionWrite_wf (h : s.od.wf = true) : (dimensionWrite n sub b s).2.od.wf = true := by
  unfold dimensionWrite
  exact foldl_odSet_wf (fun _ _ => odErase_wf) _ (odSet_wf h)

theorem writeEngine_wf (h : s.od.wf = true) : (writeEngine ix sub b s).2.od.wf = true := by
  simp [writeEngine, h, put_wf, od_devTo, -put_od, -State.act_od, -devTo_od, dimensionWrite_wf]

theorem writeAcq_wf (h : s.od.wf = true) : (writeAcq ix sub b s).2.od.wf = true := by
  simp [writeAcq, h, put_wf, od_act, -put_od, -State.act_od, -devTo_od]

theorem writeBridge_wf (h : s.od.wf = true) : (writeBridge ix sub b s).2.od.wf = true := by
  unfold writeBridge
  dsimp only
  split
  case h_3 => exact ite_od_wf (put_wf h) h
  all_goals simp [h, put_wf, od_act, od_devTo, -put_od, -State.act_od, -devTo_od]

theorem writeAxis_wf (h : s.od.wf = true) : (writeAxis ix sub b s).2.od.wf = true := by
  unfold writeAxis
  dsimp only
  split <;> simp [h, put_wf, od_devTo, -put_od, -State.act_od, -devTo_od]

theorem connEnableWrite_wf (h : s.od.wf = true) : (connEnableWrite n b s).2.od.wf = true := by
  simp [connEnableWrite, h, put_wf, -put_od]

theorem ccvWrite_wf (h : s.od.wf = true) : (ccvWrite b s).2.od.wf = true := by
  simp [ccvWrite, h, put_wf, -put_od]

theorem writeSafety_wf {session : Option Nat} (h : s.od.wf = true) : (writeSafety session ix sub b s).2.od.wf = true := by
  unfold writeSafety
  refine ite_od_wf (ccvWrite_wf h) (ite_od_wf (by simp [h]) ?_)
  split
  · exact h
  · simp [h, put_wf, -put_od, connEnableWrite_wf]

theorem settleLater_wf (h : s.od.wf = true) : (settleLater s).od.wf = true := by
  simp [settleLater, h, withLater_wf]

theorem stackStartWrite_wf (h : s.od.wf = true) : (stackStartWrite s).2.od.wf = true := by
  simp [stackStartWrite, settleLater_wf h]

theorem arrangementWrite_wf (h : s.od.wf = true) : (arrangementWrite ix sub b s).2.od.wf = true := by
  simp [arrangementWrite, h, put_wf, -put_od]

theorem roleWrite_wf (h : s.od.wf = true) : (roleWrite ix sub b s).2.od.wf = true := by
  simp [roleWrite, h, put_wf, -put_od]

theorem writeStack_wf (h : s.od.wf = true) : (writeStack ix sub b s).2.od.wf = true := by
  simp [writeStack, h, put_wf, -put_od, arrangementWrite_wf, stackStartWrite_wf, roleWrite_wf]

theorem writeSecurity_wf {session : Option Nat} (h : s.od.wf = true) : (writeSecurity session ix sub b s).2.od.wf = true := by
  simp [writeSecurity, h, put_wf, -put_od]

theorem nmtReset_wf (h : s.od.wf = true) : (nmtReset s).od.wf = true := by
  simp [nmtReset, h, odReload_wf]

theorem nmtCommand_wf {code : Nat} (h : s.od.wf = true) : (nmtCommand code s).od.wf = true := by
  unfold nmtCommand
  split <;> simp [h, nmtReset_wf]

theorem mappingWrite_wf (h : s.od.wf = true) : (mappingWrite ix sub b s).2.od.wf = true := by
  simp [mappingWrite, h, put_wf, -put_od]

theorem writeCom_wf {session : Option Nat} (h : s.od.wf = true) : (writeCom session ix sub b s).2.od.wf = true := by
  simp [writeCom, h, put_wf, -put_od, mappingWrite_wf, nmtCommand_wf]

theorem profileObjectWrite_wf (h : s.od.wf = true) : (profileObjectWrite ix sub b s).2.od.wf = true := by
  unfold profileObjectWrite
  dsimp only
  refine ite_od_wf h (ite_od_wf ?_ (ite_od_wf (ite_od_wf (put_wf h) h) (put_wf h)))
  split
  · exact h
  · exact ite_od_wf (put_wf h) h

theorem envelopeWrite_wf (h : s.od.wf = true) : (envelopeWrite ix sub b s).2.od.wf = true := by
  unfold envelopeWrite
  exact ite_od_wf (put_wf h) h

theorem manualRateWrite_wf (h : s.od.wf = true) : (manualRateWrite b s).2.od.wf = true := by
  simp [manualRateWrite, h, put_wf, -put_od]

theorem controlPeriodWrite_wf (h : s.od.wf = true) : (controlPeriodWrite b s).2.od.wf = true := by
  simp [controlPeriodWrite, h, put_wf, -put_od]

theorem writeTime_wf (h : s.od.wf = true) : (writeTime ix sub b s).2.od.wf = true := by
  simp [writeTime, h, put_wf, -put_od, profileObjectWrite_wf, envelopeWrite_wf, manualRateWrite_wf, controlPeriodWrite_wf]

theorem adcEnableWr_wf {on : Bool} (h : s.od.wf = true) : (adcEnableWr n on s).2.od.wf = true := by
  simp [adcEnableWr, h, put_wf, -put_od]

theorem thresholdWrite_wf (h : s.od.wf = true) : (thresholdWrite n b s).2.od.wf = true := by
  simp [thresholdWrite, h, put_wf, -put_od]

theorem writeMeas_wf (h : s.od.wf = true) : (writeMeas ix sub b s).2.od.wf = true := by
  unfold writeMeas
  dsimp only
  refine ite_od_wf ?adc (ite_od_wf ?_ (ite_od_wf ?comparator ?_))
  case adc => split <;> simp [h, put_wf, od_devTo, -put_od, -State.act_od, -devTo_od, adcEnableWr_wf]
  case comparator => split <;> simp [h, put_wf, -put_od, -State.act_od, -devTo_od, thresholdWrite_wf]
  all_goals simp [h, put_wf, od_act, -put_od, -State.act_od, -devTo_od]

theorem writeAon_wf (h : s.od.wf = true) : (writeAon ix sub b s).2.od.wf = true := by
  simp [writeAon, h, put_wf, -put_od]

theorem thenArrCheck_wf {w : Wrote} (h : w.2.od.wf = true) : (thenArrCheck ix w).2.od.wf = true := by
  simp [thenArrCheck, h]

theorem writeLink_wf (h : s.od.wf = true) : (writeLink ix sub b s).2.od.wf = true :=
  thenArrCheck_wf (by simp [h, put_wf, -put_od])

end

end Sys2Proof.Machine
end

section
/-! Writes, resets and requests keep the state sound (O57). -/
namespace Sys2Proof.Machine

theorem State.Sound.wf {s : State} (h : s.Sound) : s.od.wf = true := h.1

theorem State.Sound.stoOff {s : State} (h : s.Sound) : (Part.isl.of s.dev).StoOff := h.2

theorem sound_of {s : State} (hw : s.od.wf = true) (hi : (Part.isl.of s.dev).StoOff) : s.Sound := ⟨hw, hi⟩

/-- A change of the device alone that keeps the outputs. -/
theorem act_keeps_sound {f : Od → Dev → Dev} {s : State} (h : s.Sound)
    (hf : (Part.isl.of s.dev).StoOff → (Part.isl.of (f s.od s.dev)).StoOff) : (s.act f).Sound := ⟨h.1, hf h.2⟩

theorem ite_sound {c : Prop} [Decidable c] {v w : Wrote} (hv : v.2.Sound) (hw : w.2.Sound) : (if c then v else w).2.Sound :=
  iteInduction (motive := fun x : Wrote => x.2.Sound) (fun _ => hv) (fun _ => hw)

theorem wrote_sound {t : State} (h : t.Sound) : (wrote t).2.Sound := h

/-- What every element's step keeps, a fold of states keeps. -/
theorem foldl_sound {α : Type} {f : State → α → State} (hf : ∀ s a, s.Sound → (f s a).Sound) (l : List α) {s : State} (h : s.Sound) :
    (l.foldl f s).Sound := by
  induction l generalizing s with
  | nil => exact h
  | cons a l ih => exact ih (hf s a h)

/-! ### Domains -/

theorem beginTransition_stoOff {m : Domain} {target : DomState} {cause : Nat} {s : State} (h : (Part.isl.of s.dev).StoOff) :
    (Part.isl.of (beginTransition m target cause s).dev).StoOff := by
  unfold beginTransition
  extract_lets old s1 s2 s3
  have h1 : (Part.isl.of s1.dev).StoOff := by
    unfold s1
    split
    · exact h
    · split
      · exact h
      · exact leaveEffects_stoOff h
  have h2 : (Part.isl.of s2.dev).StoOff := by simpa [s2] using h1
  have h3 : (Part.isl.of s3.dev).StoOff := by
    unfold s3
    split
    · exact leaveEffects_stoOff h2
    · exact h2
  simpa using h3

theorem beginTransition_sound {m : Domain} {target : DomState} {cause : Nat} {s : State} (h : s.Sound) :
    (beginTransition m target cause s).Sound := sound_of (by simpa using h.wf) (beginTransition_stoOff h.stoOff)

theorem domainRequest_stoOff {m : Domain} {target : DomState} {s : State} (h : (Part.isl.of s.dev).StoOff) :
    (Part.isl.of (domainRequest m target s).2.dev).StoOff := by
  unfold domainRequest
  dsimp only
  repeat' split
  all_goals simp [h, beginTransition_stoOff]

theorem dropDomain_od (requested : Bool) (m : Domain) (s : State) :
    (dropDomain requested m s).od = odDrop (fun ix => ownerOf ix == m) s.od := rfl

theorem dropDomain_sound {requested : Bool} {m : Domain} {s : State} (h : s.Sound) : (dropDomain requested m s).Sound := by
  have hd := dropContents_stoOff (requested := requested) (m := m) h.stoOff
  refine sound_of (by rw [dropDomain_od]; exact odDrop_wf h.wf) ?_
  unfold dropDomain
  dsimp only
  split
  · simpa using hd
  · exact hd

/-! ### Writes -/

section
variable {session : Option Nat} {ix sub n : Nat} {b : Bytes} {s : State}

theorem writeAon_sound (h : s.Sound) : (writeAon ix sub b s).2.Sound := by
  refine sound_of (writeAon_wf h.wf) ?_
  unfold writeAon
  dsimp only
  refine iteInduction (motive := fun x : Wrote => (Part.isl.of x.2.dev).StoOff) (fun _ => domainRequest_stoOff h.stoOff) (fun _ => ?_)
  simp [h.stoOff]

/-- ENABLED of a pair is an object that a pair in PERMIT refuses (R488). -/
theorem accessOf_pairEnabled : ∀ n : Fin 4, accessOf (0x5010 + n.val) 7 = .rwC := by decide +kernel

theorem pairDisabled_stoOff {d : Dev} (h : (Part.isl.of d).StoOff) (hp : (vget (Part.isl.of d).pairs n).state ≠ .permit) :
    (Part.isl.of (onPair n (fun p => { p with state := .off }) d)).StoOff :=
  onPair_stoOff h (fun hs => by simpa [StoPair.sound, hp] using hs)

theorem stoClrfWrite_sound (h : s.Sound) : (stoClrfWrite session n s).2.Sound := by
  unfold stoClrfWrite
  refine ite_sound h (iteInduction (motive := fun x : Wrote => x.2.Sound) (fun _ => h) (fun hf => wrote_sound (act_keeps_sound h (fun hs => ?_))))
  have hfault : (vget (Part.isl.of s.dev).pairs n).state = .fault := by simpa [isl_eq] using hf
  rw [pronghorn_leaves (by decide), record_leaves (by decide)]
  exact pairDisabled_stoOff hs (by simp [hfault])

theorem ccvWrite_sound (h : s.Sound) : (ccvWrite b s).2.Sound := by
  unfold ccvWrite
  exact ite_sound h (wrote_sound (act_keeps_sound (put_sound h) ccvTake_stoOff))

theorem connEnableWrite_sound (h : s.Sound) : (connEnableWrite n b s).2.Sound := by
  unfold connEnableWrite
  exact ite_sound (put_sound h) (wrote_sound (act_keeps_sound (put_sound h) (fun hs => connTo_stoOff hs)))

theorem writeSafety_sound (h : s.Sound) : (writeSafety session ix sub b s).2.Sound := by
  unfold writeSafety
  refine ite_sound (ccvWrite_sound h) (ite_sound (stoClrfWrite_sound h) ?_)
  split
  · exact h
  · next hnone =>
    refine ite_sound h (ite_sound h (ite_sound (connEnableWrite_sound h)
      (iteInduction (motive := fun x : Wrote => x.2.Sound) (fun hc => ?_) (fun _ => put_sound h))))
    obtain ⟨hlo, hhi, rfl⟩ := hc
    refine wrote_sound (act_keeps_sound (put_sound h) (fun hs => ?_))
    rw [pronghorn_leaves (by decide)]
    split
    · refine pairDisabled_stoOff hs (fun hpermit => ?_)
      have hacc := accessOf_pairEnabled ⟨ix - 0x5010, by omega⟩
      have hix : 0x5010 + (ix - 0x5010) = ix := by omega
      have := List.find?_eq_none.mp hnone (ix - 0x5010) (List.mem_range.mpr (by omega))
      simp only [hix] at hacc
      simp [hacc] at this
      exact this hpermit
    · exact hs

theorem writeEffect_sound (h : s.Sound) : (writeEffect session ix sub b s).2.Sound := by
  have hi := h.stoOff
  unfold writeEffect
  exact ite_sound (sound_of (writeCom_wf h.wf) (by simpa using hi)) <|
    ite_sound (writeAon_sound h) <|
    ite_sound (sound_of (writeSecurity_wf h.wf) (by simpa using hi)) <|
    ite_sound (sound_of (writeTime_wf h.wf) (by simpa using hi)) <|
    ite_sound (sound_of (writeGuarantees_wf h.wf) (by simpa using hi)) <|
    ite_sound (sound_of (writeMeas_wf h.wf) (by simpa using hi)) <|
    ite_sound (sound_of (writeAcq_wf h.wf) (by simpa using hi)) <|
    ite_sound (put_sound h) <|
    ite_sound (sound_of (writeEngine_wf h.wf) (by simpa using hi)) <|
    ite_sound (sound_of (writeLink_wf h.wf) (by simpa using hi)) <|
    ite_sound (sound_of (writeLink_wf h.wf) (by simpa using hi)) <|
    ite_sound (sound_of (writeStack_wf h.wf) (by simpa using hi)) <|
    ite_sound (sound_of (writePwm_wf h.wf) (by simpa using hi)) <|
    ite_sound (sound_of (writeBridge_wf h.wf) (by simpa using hi)) <|
    ite_sound (sound_of (writeAxis_wf h.wf) (by simpa using hi)) <|
    ite_sound (ite_sound (sound_of (by simpa using h.wf) (by simpa using hi)) <|
      ite_sound (sound_of (by simpa using h.wf) (by simpa using hi)) (sound_of (by simpa using h.wf) (by simpa using hi))) <|
    ite_sound (writeSafety_sound h) (put_sound h)

theorem writeObject_sound (h : s.Sound) : (writeObject session ix sub b s).2.Sound := by
  unfold writeObject
  split
  · exact h
  · exact writeEffect_sound h
end

/-! ### Resets -/

theorem foldl_act_sound {α : Type} {f : α → Od → Dev → Dev} (hf : ∀ a o d, (Part.isl.of d).StoOff → (Part.isl.of (f a o d)).StoOff)
    (l : List α) {s : State} (h : s.Sound) : (l.foldl (fun s a => s.act (f a)) s).Sound :=
  foldl_sound (fun _ a hs => act_keeps_sound hs (hf a _ _)) l h

theorem resetDomains_sound {whole : Bool} {s : State} (h : s.Sound) : (resetDomains whole s).Sound := by
  unfold resetDomains
  extract_lets s0 olds s1 s2 s3 s4 src s5
  have h1 : s1.Sound := sound_of h.wf (by simpa [s1, s0] using h.stoOff)
  have h2 : s2.Sound := by
    unfold s2
    split
    · exact act_keeps_sound h1 (fun hs => debugDetach_stoOff (scanEnd_stoOff hs))
    · exact h1
  have h3 : s3.Sound := foldl_sound (fun s p hs => by
    split
    · exact hs
    · exact dropDomain_sound (act_keeps_sound hs leaveEffects_stoOff)) _ h2
  have h5 : s5.Sound := sound_of h3.wf (by simpa [s5, src, s4, isl_eq] using h3.stoOff)
  clear_value s5
  split
  · exact sound_of (by dsimp only; exact odDrop_wf h5.wf) (by simpa using h5.stoOff)
  · exact h5

theorem acceptReset_sound {code : Nat} {s : State} (h : s.Sound) : (acceptReset code s).Sound := by
  unfold acceptReset
  extract_lets r whole hold pinless merge s1 d1 s2
  have h1 : s1.Sound := resetDomains_sound h
  have h2 : s2.Sound := by
    unfold s2
    split
    · exact resetDomains_sound h
    · exact h
  split
  · exact sound_of h1.wf (by simpa [d1] using h1.stoOff)
  · exact sound_of h2.wf (by simpa using h2.stoOff)

/-! ### Answers and requests -/

theorem afterAnswer_sound {a : Answer} {s : State} (h : s.Sound) : (afterAnswer a s).Sound := by
  have h1 : (if a.reset then acceptReset 5 s else s).Sound := by
    split
    · exact acceptReset_sound h
    · exact h
  unfold afterAnswer
  dsimp only
  split
  · exact beginTransition_sound h1
  · exact h1

theorem devTo_keeps_sound {f : Dev → Dev} {s : State} (h : s.Sound) (hf : Part.isl.of (f s.dev) = Part.isl.of s.dev) : (devTo f s).Sound :=
  sound_of h.wf (by rw [devTo_dev, hf]; exact h.stoOff)

theorem finish_sound {n service seq : Nat} {m : OdMsg} {before : State} {r : Answer × State} (h : r.2.Sound) :
    (finish n service seq m before r).Sound := by
  obtain ⟨a, s⟩ := r
  unfold finish
  dsimp -zeta only
  extract_lets stored s1 s2 s3
  have h1 : s1.Sound := by
    unfold s1
    split
    · exact devTo_keeps_sound h (by simp)
    · exact h
  have h2 : s2.Sound := devTo_keeps_sound h1 (by simp)
  have h3 : s3.Sound := by
    unfold s3
    split
    · exact h2
    · split
      · exact devTo_keeps_sound h2 (by simp)
      · exact act_keeps_sound h2 (fun hs => by simpa using hs)
  split
  · exact devTo_keeps_sound h (by simp)
  · exact afterAnswer_sound h3

theorem sdoAnswer_sound {n ix sub : Nat} {a : Answer} {s : State} (h : s.Sound) : (sdoAnswer n ix sub a s).Sound := by
  unfold sdoAnswer
  extract_lets s1 s2
  have h1 : s1.Sound := by
    unfold s1
    split
    · exact devTo_keeps_sound h (by simp)
    · exact h
  exact afterAnswer_sound (devTo_keeps_sound h1 (by simp))

theorem sdoFinish_sound {n ix sub : Nat} {before : State} {r : Answer × State} (h : r.2.Sound) : (sdoFinish n ix sub before r).Sound := by
  unfold sdoFinish
  split
  · exact devTo_keeps_sound h (by simp)
  · exact sdoAnswer_sound h

theorem setTransfer_sound {n : Nat} {t : Option Transfer} {s : State} (h : s.Sound) : (setTransfer n t s).Sound :=
  sound_of (by simpa using h.wf) (by simpa using h.stoOff)

theorem sdoTouch_sound {n : Nat} {s : State} (h : s.Sound) : (sdoTouch n s).Sound := sound_of h.wf (by simpa using h.stoOff)

theorem abandon_sound {n : Nat} {s : State} (h : s.Sound) : (abandon n s).Sound := sound_of (by simpa using h.wf) (by simpa using h.stoOff)

theorem beginTransfer_sound {n : Nat} {t : Transfer} {s : State} (h : s.Sound) : (beginTransfer n t s).2.Sound :=
  sound_of (by simpa using h.wf) (by simpa using h.stoOff)

theorem fetchValue_sound {n ix sub : Nat} {s : State} (h : s.Sound) : (fetchValue n ix sub s).2.Sound :=
  sound_of (by simpa using h.wf) (by simpa using h.stoOff)

/-- A way to execute writes that keeps states sound. -/
def Writer.KeepsSound (wr : Writer) : Prop :=
  ∀ (session : Option Nat) (ix sub : Nat) (b : Bytes) (s : State), s.Sound → (wr session ix sub b s).2.Sound

theorem writeObject_keepsSound : Writer.KeepsSound writeObject := fun _ _ _ _ _ h => writeObject_sound h

theorem advanceWriter_keepsSound (cellA cellB : Bool) : Writer.KeepsSound (advanceWriter cellA cellB) := by
  intro session ix sub b s h
  unfold advanceWriter
  split
  · exact h
  · exact sound_of (by simpa using h.wf) (by simpa using h.stoOff)

section
variable {wr : Writer} (hwr : wr.KeepsSound)
include hwr

theorem writeWhole_sound {n ix sub offset total : Nat} {b : Bytes} {s : State} (h : s.Sound) :
    (writeWhole wr n ix sub offset total b s).2.Sound := by
  rw [writeWhole_state]
  exact hwr _ _ _ _ _ h

theorem writeNext_sound {n : Nat} {t : Transfer} {b : Bytes} {s : State} (h : s.Sound) : (writeNext wr n t b s).2.Sound := by
  unfold writeNext
  dsimp only
  split
  · exact writeWhole_sound hwr (setTransfer_sound h)
  · exact setTransfer_sound h

theorem writeFirst_sound {n ix sub total : Nat} {b : Bytes} {s : State} (h : s.Sound) :
    (writeFirst wr n ix sub total b s).2.Sound := by
  unfold writeFirst
  dsimp only
  split
  · exact writeWhole_sound hwr h
  · split
    · next hb => rw [beginTransfer_snd hb]; exact beginTransfer_sound h
    · next hb => rw [beginTransfer_snd hb]; exact beginTransfer_sound h

omit hwr in
theorem readFirst_sound {n ix sub : Nat} {s : State} (h : s.Sound) : (readFirst n ix sub s).2.Sound := by
  unfold readFirst
  split
  · exact h
  · dsimp only
    split
    · exact fetchValue_sound h
    · split
      · next hb => rw [beginTransfer_snd hb]; exact beginTransfer_sound (fetchValue_sound h)
      · next hb => rw [beginTransfer_snd hb]; exact beginTransfer_sound (fetchValue_sound h)

omit hwr in
theorem readNext_sound {n : Nat} {t : Transfer} {s : State} (h : s.Sound) : (readNext n t s).2.Sound := setTransfer_sound h

omit hwr in
theorem commService_sound {n service : Nat} {m : OdMsg} {s : State} (h : s.Sound) : (commService n service m s).2.Sound := by
  have h1 : (commResponseWrite (some n) m.payload s).2.Sound := sound_of (by simpa using h.wf) (by simpa using h.stoOff)
  have h2 : (commEndWrite (some n) s).2.Sound := sound_of (by simpa using h.wf) (by simpa using h.stoOff)
  unfold commService
  dsimp only
  repeat' refine iteInduction (motive := fun w : Answer × State => w.2.Sound) (fun _ => h) (fun _ => ?_)
  split
  · exact sound_of h.wf (by simpa using h.stoOff)
  · split
    · next e => rwa [e] at h1
    · next e => rwa [e] at h1
  · split
    · next e => rwa [e] at h2
    · next e => rwa [e] at h2
  · exact h

theorem serveMessage_sound {whole : Bool} {n service : Nat} {m : OdMsg} {s : State} (h : s.Sound) :
    (serveMessage wr whole n service m s).2.Sound := by
  unfold serveMessage
  extract_lets ix sub t mine s1
  have h1 : s1.Sound := by
    unfold s1
    split
    · exact h
    · exact abandon_sound h
  clear_value s1 mine
  split
  · exact setTransfer_sound h
  · split
    · split
      · exact setTransfer_sound h
      · split
        · exact readNext_sound h
        · exact writeNext_sound hwr h
    · split
      · exact readFirst_sound h1
      · exact writeFirst_sound hwr h1
      · exact h1
      · exact h1
      iterate 4 exact commService_sound h1
      exact h1

theorem sdoWrite_sound {n ix sub : Nat} {b : Bytes} {s : State} (h : s.Sound) : (sdoWrite wr n ix sub b s).Sound :=
  sdoFinish_sound (writeWhole_sound hwr h)

omit hwr in
theorem sdoRead_sound {n ix sub : Nat} {s : State} (h : s.Sound) : (sdoRead n ix sub s).Sound := by
  unfold sdoRead
  split
  · exact sdoAnswer_sound h
  · exact sdoAnswer_sound (fetchValue_sound h)

end

end Sys2Proof.Machine
end

section
/-! Requests, supplies, the AON cycle and the domains keep the state sound (O57). -/
namespace Sys2Proof.Machine

/-! ### Admission and service -/

/-- The state that an admission leaves is sound. -/
def Admission.Sound : Admission → Prop
  | .dropped s => s.Sound
  | .turnedAway _ _ s => s.Sound
  | .served _ s => s.Sound

theorem udpAdmit_sound {mac ip port seq service : Nat} {m : OdMsg} {s : State} (h : s.Sound) :
    (udpAdmit mac ip port seq service m s).Sound := by
  have hs : (devTo netBusy s).Sound := devTo_keeps_sound h (by simp)
  unfold udpAdmit
  extract_lets s0
  split
  · exact hs
  · split
    · exact devTo_keeps_sound hs (by simp)
    · extract_lets old x take s1 b s2
      have htake : ∀ y, (take y).Sound := fun y => devTo_keeps_sound hs (by simp)
      split
      · split
        · exact htake _
        · exact devTo_keeps_sound (htake _) (by simp)
      · split
        · split
          · exact htake _
          · exact htake _
        · exact htake _

theorem mailboxAdmit_sound {whole : Bool} {slot msgLen : Nat} {message : Bytes} {m : OdMsg} {s : State} (h : s.Sound) :
    (mailboxAdmit whole slot msgLen message m s).Sound := by
  have hs : (devTo netBusy s).Sound := devTo_keeps_sound h (by simp)
  unfold mailboxAdmit
  extract_lets n s0 x setSlot s1
  have hset : ∀ y t, t.Sound → (setSlot y t).Sound := fun y t ht => devTo_keeps_sound ht (by simp)
  have h1 : s1.Sound := devTo_keeps_sound (hset _ _ hs) (by simp)
  split
  · exact hs
  · split
    · exact hset _ _ hs
    · split
      · exact h1
      · split
        · exact hset _ _ h1
        · exact h1

theorem canAdmit_sound {ctl ch service : Nat} {s : State} (h : s.Sound) : (canAdmit ctl ch service s).Sound := by
  unfold canAdmit
  dsimp only
  split
  · exact abandon_sound (sdoTouch_sound h)
  · exact h

theorem admission_sound {whole : Bool} {via : Via} {service : Nat} {m : OdMsg} {s : State} (h : s.Sound) :
    (admission whole via service m s).Sound := by
  unfold admission
  split
  · exact h
  · cases via
    · dsimp only
      split
      · exact h
      · exact udpAdmit_sound h
    · exact mailboxAdmit_sound h
    · exact canAdmit_sound h

section
variable {wr : Writer} (hwr : wr.KeepsSound)
include hwr

theorem serveAdmitted_sound {whole : Bool} {service seq : Nat} {m : OdMsg} {a : Admission} (h : a.Sound) :
    (serveAdmitted wr whole service seq m a).Sound := by
  cases a with
  | dropped s => exact h
  | turnedAway n a s => exact finish_sound (r := (a, s)) h
  | served n s => exact finish_sound (serveMessage_sound hwr h)

theorem canServe_sound {service : Nat} {m : OdMsg} {a : Admission} (h : a.Sound) : (canServe wr service m a).Sound := by
  cases a with
  | dropped s => exact h
  | turnedAway n a s => exact h
  | served n s =>
    unfold canServe
    dsimp only
    split
    · exact sdoRead_sound h
    · exact sdoWrite_sound hwr h
    · exact sdoRead_sound h
    · exact sdoWrite_sound hwr h
    · exact sdoWrite_sound hwr h
    · exact sdoRead_sound h

theorem request_sound {whole : Bool} {via : Via} {service : Nat} {m : OdMsg} {s : State} (h : s.Sound) :
    (request wr whole via service m s).Sound := by
  unfold request
  split
  · exact canServe_sound hwr (admission_sound h)
  · exact serveAdmitted_sound hwr (admission_sound h)

end

theorem hostWrite_sound {via : Via} {ix sub : Nat} {b : Bytes} {s : State} (h : s.Sound) : (hostWrite via ix sub b s).Sound :=
  request_sound writeObject_keepsSound h

theorem ownerSet_sound {slot msgLen : Nat} {message : Bytes} {s : State} (h : s.Sound) : (ownerSet slot msgLen message s).Sound := by
  unfold ownerSet
  split
  · exact h
  · exact serveAdmitted_sound writeObject_keepsSound (mailboxAdmit_sound h)

theorem barServe_sound {s : State} {a : BarAccess} (h : s.Sound) : (barServe s a).Sound := by
  cases a with
  | mailbox slot n b => exact ownerSet_sound h
  | tail n v => exact act_keeps_sound h (fun hs => by simpa using hs)
  | register n off v => exact act_keeps_sound h (fun hs => by simpa using hs)
  | timeLo => exact act_keeps_sound h (fun hs => by simpa using hs)
  | unmask v => exact act_keeps_sound h (fun hs => by simpa using hs)

theorem barAccess_sound {a : BarAccess} {s : State} (h : s.Sound) : (barAccess a s).Sound := by
  unfold barAccess
  split
  · exact devTo_keeps_sound h (by simp)
  · exact barServe_sound h

theorem barReplay_sound {s : State} (h : s.Sound) : (barReplay s).Sound := by
  unfold barReplay
  split
  · exact foldl_sound (fun _ _ => barServe_sound) _ (devTo_keeps_sound h (by simp))
  · exact h

theorem transferTimeout_sound {n : Nat} {s : State} (h : s.Sound) : (transferTimeout n s).Sound := by
  unfold transferTimeout
  split
  · split
    · exact h
    · dsimp only
      split
      · exact sdoAnswer_sound (setTransfer_sound h)
      · exact devTo_keeps_sound (setTransfer_sound h) (by simp)
  · exact h

theorem sdoUpload_sound {ctl ch : Nat} {step : SdoUp} {s : State} (h : s.Sound) : (sdoUpload ctl ch step s).Sound := by
  have hs : (sdoTouch (4 * ctl + ch) s).Sound := sdoTouch_sound h
  unfold sdoUpload
  extract_lets n s0
  split
  · exact h
  · cases step with
    | initiate index sub =>
      dsimp only
      split
      · exact sdoAnswer_sound (abandon_sound hs)
      · split
        · exact sdoAnswer_sound (fetchValue_sound (abandon_sound hs))
        · split
          · next hb => exact sdoAnswer_sound (by rw [beginTransfer_snd hb]; exact beginTransfer_sound (fetchValue_sound (abandon_sound hs)))
          · next hb => exact sdoAnswer_sound (by rw [beginTransfer_snd hb]; exact beginTransfer_sound (fetchValue_sound (abandon_sound hs)))
    | segment toggle =>
      dsimp only
      split
      · split
        · exact sdoAnswer_sound (setTransfer_sound hs)
        · split
          · exact sdoAnswer_sound (setTransfer_sound hs)
          · exact sdoAnswer_sound (setTransfer_sound hs)
      · exact sdoAnswer_sound hs

theorem sdoDownload_sound {ctl ch : Nat} {step : SdoDown} {s : State} (h : s.Sound) : (sdoDownload ctl ch step s).Sound := by
  have hs : (sdoTouch (4 * ctl + ch) s).Sound := sdoTouch_sound h
  unfold sdoDownload
  extract_lets n s0
  split
  · exact h
  · cases step with
    | expedited index sub b => exact sdoFinish_sound (writeWhole_sound writeObject_keepsSound (abandon_sound hs))
    | initiate index sub total =>
      dsimp only
      split
      · next hb => exact sdoAnswer_sound (by rw [beginTransfer_snd hb]; exact beginTransfer_sound (abandon_sound hs))
      · next hb => exact sdoAnswer_sound (by rw [beginTransfer_snd hb]; exact beginTransfer_sound (abandon_sound hs))
    | segment toggle last b =>
      dsimp only
      split
      · split_ifs
        · exact sdoAnswer_sound (setTransfer_sound hs)
        · exact sdoAnswer_sound (setTransfer_sound hs)
        · exact sdoAnswer_sound (setTransfer_sound hs)
        · exact sdoFinish_sound (writeWhole_sound writeObject_keepsSound (setTransfer_sound hs))
        · exact sdoAnswer_sound (setTransfer_sound hs)
      · exact sdoAnswer_sound hs

/-! ### The NMT, process data -/

theorem nmtReset_sound {s : State} (h : s.Sound) : (nmtReset s).Sound := sound_of (nmtReset_wf h.wf) (by simpa using h.stoOff)

theorem nmtCommand_sound {code : Nat} {s : State} (h : s.Sound) : (nmtCommand code s).Sound :=
  sound_of (nmtCommand_wf h.wf) (by simpa using h.stoOff)

theorem nmtRow_sound {code : Nat} {src : NmtSrc} {s : State} (h : s.Sound) : (nmtRow code src s).Sound := by
  cases src with
  | bus c node =>
    unfold nmtRow nmtBus
    dsimp only
    split
    · exact nmtCommand_sound (devTo_keeps_sound h (by simp))
    · exact h
  | host via => exact hostWrite_sound h

theorem writeMapped_sound {l : List (Nat × Nat × Nat)} {b : Bytes} {s t : State} (h : s.Sound) (ht : writeMapped l b s = some t) : t.Sound := by
  induction l generalizing b s with
  | nil => exact Option.some.inj ht ▸ h
  | cons x l ih =>
    obtain ⟨ix, sub, n⟩ := x
    unfold writeMapped at ht
    split at ht
    · cases ht
    · next s1 hw =>
      refine ih ?_ ht
      have := writeObject_sound (session := none) (ix := ix) (sub := sub) (b := b.take n) h
      rwa [hw] at this

theorem rpdoApply_sound {n : Nat} {b : Bytes} {s : State} (h : s.Sound) : (rpdoApply n b s).Sound := by
  unfold rpdoApply
  split
  · next ht => exact writeMapped_sound h ht
  · exact devTo_keeps_sound h (by simp)

theorem rpdosAtStart_sound {s : State} (h : s.Sound) : (rpdosAtStart s).Sound := by
  unfold rpdosAtStart
  split
  · exact h
  · refine foldl_sound (fun t n ht => ?_) _ h
    split
    · exact rpdoApply_sound (devTo_keeps_sound ht (by simp))
    · exact ht

theorem tpdosAtStart_sound {s : State} (h : s.Sound) : (tpdosAtStart s).Sound := sound_of (by simpa using h.wf) (by simpa using h.stoOff)

theorem settleLater_sound {s : State} (h : s.Sound) : (settleLater s).Sound := sound_of (settleLater_wf h.wf) (by simpa using h.stoOff)

theorem controlPeriodStart_sound {s : State} (h : s.Sound) : (controlPeriodStart s).Sound := by
  unfold controlPeriodStart
  dsimp only
  split
  · exact h
  · refine tpdosAtStart_sound (rpdosAtStart_sound (settleLater_sound ?_))
    exact act_keeps_sound (act_keeps_sound h (fun hs => by simpa using hs)) (fun hs => by simpa using hs)

theorem rpdoTake_sound {n : Nat} {b : Bytes} {s : State} (h : s.Sound) : (rpdoTake n b s).Sound := by
  unfold rpdoTake
  extract_lets t sync s1
  have h1 : s1.Sound := devTo_keeps_sound h (by simp)
  split
  · exact h1
  · exact rpdoApply_sound h1

theorem rpdoReceived_sound {src : PdoSrc} {data : Bytes} {s : State} (h : s.Sound) : (rpdoReceived src data s).Sound := by
  unfold rpdoReceived
  split
  · exact h
  · dsimp only
    split
    · exact h
    · exact foldl_sound (fun _ _ => rpdoTake_sound) _ (devTo_keeps_sound h (by simp))

/-! ### Domain requests (R132 to R135) -/

theorem groupStep_sound {s : State} (h : s.Sound) : (groupStep s).Sound := by
  refine sound_of (by simpa using h.wf) ?_
  unfold groupStep
  dsimp only
  repeat' split
  all_goals simp [h.stoOff, beginTransition_stoOff]

theorem idleExpiry_sound {m : Domain} {s : State} (h : s.Sound) : (idleExpiry m s).Sound := by
  refine sound_of (by simpa using h.wf) ?_
  unfold idleExpiry
  dsimp only
  repeat' split
  all_goals simp [h.stoOff, beginTransition_stoOff]

theorem serveItem_sound {s : State} {i : AonItem} (h : s.Sound) : (serveItem s i).Sound := by
  cases i with
  | ask a => exact hostWrite_sound h
  | step => exact groupStep_sound h
  | idle m => exact idleExpiry_sound h

theorem seqNext_sound {s : State} (h : s.Sound) : (seqNext s).Sound := by
  refine sound_of (by simpa using h.wf) ?_
  unfold seqNext
  dsimp only
  repeat' split
  all_goals simp [h.stoOff, beginTransition_stoOff]

/-! ### Supplies (R95 to R98) -/

theorem vaonLost_sound (s : State) : (vaonLost s).Sound := sound_of rfl (by simp [vaonLost])

theorem loseDomains_sound {ms : List Domain} {cause : Nat} {s : State} (h : s.Sound) : (loseDomains ms cause s).Sound := by
  unfold loseDomains
  extract_lets hit olds s0 s1 s2 s3
  have h0 : s0.Sound := by
    unfold s0
    split
    · exact act_keeps_sound h (fun hs => by simpa using hs)
    · exact h
  have h1 : s1.Sound := sound_of h0.wf (by simpa [s1] using h0.stoOff)
  have h2 : s2.Sound := by
    unfold s2
    split
    · exact act_keeps_sound h1 (fun hs => debugDetach_stoOff (scanEnd_stoOff hs))
    · exact h1
  have h3 : s3.Sound := foldl_sound (fun _ _ hs => dropDomain_sound (act_keeps_sound hs leaveEffects_stoOff)) _ h2
  exact foldl_act_sound (fun _ _ _ hs => by simpa using hs) _ h3

theorem railLost_sound {r : Nat} {s : State} (h : s.Sound) : (railLost r s).Sound := by
  unfold railLost
  refine iteInduction (motive := State.Sound) (fun _ => h) (fun _ => iteInduction (fun _ => vaonLost_sound s) (fun _ => ?_))
  extract_lets early confirmed d0 src s1 ms data s2 s3 s4 s5 s6
  have h1 : s1.Sound := sound_of h.wf (by simpa [s1, d0, src] using h.stoOff)
  have h2 : s2.Sound := by
    unfold s2
    split
    · exact h1
    · split
      · exact act_keeps_sound h1 (fun hs => by simpa using hs)
      · exact h1
  have h3 : s3.Sound := loseDomains_sound h2
  have h4 : s4.Sound := by
    unfold s4
    split
    · exact act_keeps_sound h3 (fun hs => by simpa using hs)
    · exact h3
  clear_value s4
  have h5 : s5.Sound := by
    unfold s5
    split_ifs
    · exact act_keeps_sound h4 (fun hs => by simpa using hs)
    · refine act_keeps_sound h4 (fun hs => ?_)
      unfold railLost.tapDown
      split
      · exact tapReset_stoOff (by simpa using hs)
      · simpa using hs
    · refine act_keeps_sound h4 (fun hs => ?_)
      rw [pronghorn_leaves (by decide)]
      split
      · exact stoDemand_stoOff (by simpa [isl_eq] using hs)
      · simpa [isl_eq] using hs
    · exact act_keeps_sound h4 (fun hs => by simpa using hs)
    · exact h4
  exact sound_of h5.wf (by simpa [s6] using h5.stoOff)

theorem railsLost_sound {l : List (Fin 9)} {s : State} (h : s.Sound) : (railsLost l s).Sound := by
  have h1 : ∀ ids : List Nat, (ids.foldl (fun s r => railLost r s) s).Sound := fun ids => foldl_sound (fun _ _ => railLost_sound) _ h
  unfold railsLost
  exact sound_of (h1 _).wf (by simpa using (h1 _).stoOff)

theorem cycleWakes_sound {seen : Option WakeSeen} {preempts : Bool} {s : State} (h : s.Sound) : (cycleWakes seen preempts s).Sound := by
  cases seen with
  | none => exact h
  | some w => exact act_keeps_sound h (fun hs => by simpa using hs)

theorem aonCycle_sound {c : AonCycle} {s : State} (h : s.Sound) : (aonCycle c s).Sound := by
  unfold aonCycle
  extract_lets s1 serve s2 s3
  have h1 : s1.Sound := railsLost_sound h
  have hserve : ∀ p, (serve p).Sound := fun p => foldl_sound (fun _ _ => serveItem_sound) _ (cycleWakes_sound h1)
  have h3 : s3.Sound := by
    unfold s3
    split
    · exact hserve _
    · exact hserve _
  clear_value s3
  exact sound_of h3.wf (by simpa using h3.stoOff)

theorem vaonPowerOn_sound {s : State} (h : s.Sound) : (vaonPowerOn s).Sound := by
  unfold vaonPowerOn
  split
  · exact h
  · exact sound_of (vaonLost_sound s).wf (by simpa using (vaonLost_sound s).stoOff)

theorem railRestored_sound {r : Nat} {s : State} (h : s.Sound) : (railRestored r s).Sound := by
  unfold railRestored
  refine iteInduction (motive := State.Sound) (fun _ => h) (fun _ => iteInduction (fun _ => ?_) (fun _ => ?_))
  · exact sound_of h.wf (by simpa using h.stoOff)
  · extract_lets was d0 d0' rails d1 d2 lcl isl d3 d4 s1
    have hd2 : (Part.isl.of d2).StoOff := by simpa [d2, d1, rails, d0', d0] using h.stoOff
    have hd3 : (Part.isl.of d3).StoOff := by
      unfold d3
      split
      · split
        · simpa using hd2
        · exact hd2
      · split
        · simpa [isl, lcl, isl_eq] using hd2
        · exact hd2
    clear_value d3
    have h1 : s1.Sound := sound_of h.wf (by simpa [s1, d4] using hd3)
    clear_value s1
    split
    · exact acceptReset_sound h1
    · exact h1

/-! ### Resets and their release -/

theorem tryRelease_sound {s : State} (h : s.Sound) : (tryRelease s).Sound := by
  refine sound_of (by simpa using h.wf) ?_
  unfold tryRelease
  dsimp only
  split
  · exact h.stoOff
  · simpa using debugWithdraw_stoOff (by simpa using h.stoOff)

theorem resetNRelease_sound {s : State} (h : s.Sound) : (resetNRelease s).Sound := by
  unfold resetNRelease
  dsimp only
  split
  · exact h
  · exact tryRelease_sound (sound_of h.wf (by simpa using h.stoOff))

theorem resetNStuck_sound {s : State} (h : s.Sound) : (resetNStuck s).Sound := by
  unfold resetNStuck
  extract_lets r limit mode stuck
  have h1 : stuck.Sound := act_keeps_sound h (fun hs => by simpa using hs)
  split
  · exact h
  · split
    · exact h1
    · exact tryRelease_sound (sound_of h1.wf (by simpa using h1.stoOff))

theorem resetNLimit_sound {rises : Bool} {s : State} (h : s.Sound) : (resetNLimit rises s).Sound := by
  cases rises
  · exact resetNStuck_sound h
  · exact resetNRelease_sound h

theorem resetNAssert_sound {s : State} (h : s.Sound) : (resetNAssert s).Sound := by
  unfold resetNAssert
  extract_lets r s1 s2
  have h1 : s1.Sound := sound_of h.wf (by simpa [s1] using h.stoOff)
  have h2 : s2.Sound := acceptReset_sound h1
  split
  · exact h
  · split
    · exact h1
    · exact sound_of h2.wf (by simpa using h2.stoOff)

theorem pinlessOver_sound {s : State} (h : s.Sound) : (pinlessOver s).Sound := by
  unfold pinlessOver
  split
  · exact h
  · dsimp only
    split
    · exact h
    · exact tryRelease_sound (sound_of h.wf (by simpa using h.stoOff))

theorem porstAssert_sound {s : State} (h : s.Sound) : (porstAssert s).Sound := by
  unfold porstAssert
  split
  · exact h
  · exact acceptReset_sound (sound_of h.wf (by simpa using h.stoOff))

theorem porstRelease_sound {s : State} (h : s.Sound) : (porstRelease s).Sound := by
  unfold porstRelease
  split
  · exact h
  · exact tryRelease_sound (sound_of h.wf (by simpa using h.stoOff))

theorem watchdog_sound {core : Nat} {s : State} (h : s.Sound) : (watchdog core s).Sound := by
  unfold watchdog
  dsimp only
  split
  · exact h
  · exact act_keeps_sound (acceptReset_sound h) (fun hs => by simpa using hs)

theorem debugReset_sound {s : State} (h : s.Sound) : (debugReset s).Sound := by
  unfold debugReset
  split
  · exact acceptReset_sound h
  · exact h

/-! ### Domains that come back -/

theorem reloadDomain_sound {m : Domain} {s : State} (h : s.Sound) : (reloadDomain m s).Sound := by
  unfold reloadDomain
  split
  · exact sound_of (by dsimp only; exact odReload_wf h.wf) h.stoOff
  · exact sound_of (by dsimp only; exact odDrop_wf h.wf) (by simpa using h.stoOff)

theorem sectionFails_sound {m : Domain} {core : Nat} {s : State} (h : s.Sound) : (sectionFails m core s).Sound := by
  unfold sectionFails
  extract_lets c d0 inSeq s1
  have h1 : s1.Sound := by
    refine sound_of h.wf ?_
    unfold s1
    rw [State.act_dev]
    extract_lets d1 d2
    have hd2 : (Part.isl.of d2).StoOff := by simpa [d2, d1, d0] using h.stoOff
    split
    · simpa using hd2
    · exact hd2
  refine acceptReset_sound ?_
  split
  · exact dropDomain_sound h1
  · exact h1

theorem loadAonObjects_sound {s : State} (h : s.Sound) : (loadAonObjects s).Sound := by
  unfold loadAonObjects
  extract_lets d s1 s2
  have h1 : s1.Sound := by
    unfold s1
    split
    · exact h
    · exact sound_of (by dsimp only; exact odReload_wf h.wf) h.stoOff
  have h2 : s2.Sound := by
    unfold s2
    split
    · exact h1
    · exact sound_of (by dsimp only; exact odReload_wf h1.wf) h1.stoOff
  clear_value s2
  exact sound_of h2.wf (by simpa using h2.stoOff)

theorem reloadLate_sound {s : State} (h : s.Sound) : (reloadLate s).Sound := by
  unfold reloadLate
  extract_lets s1 s2 s3
  have h1 : s1.Sound := foldl_sound (fun t m ht => by
    split
    · exact sound_of (by dsimp only; exact odReload_wf ht.wf) ht.stoOff
    · exact ht) _ h
  have h2 : s2.Sound := by
    unfold s2
    split
    · exact act_keeps_sound h1 (fun hs => by simpa using hs)
    · exact h1
  have h3 : s3.Sound := by
    unfold s3
    split
    · exact act_keeps_sound h2 ccvTake_stoOff
    · exact h2
  clear_value s3
  exact sound_of h3.wf (by simpa using h3.stoOff)

theorem secPowerOn_sound {s : State} (h : s.Sound) : (secPowerOn s).Sound := by
  unfold secPowerOn
  extract_lets d0 bank d1 s1 s2 s3
  have h1 : s1.Sound := sound_of (by dsimp only [s1]; exact odReload_wf h.wf) (by simpa [s1, d1, d0] using h.stoOff)
  have h2 : s2.Sound := act_keeps_sound h1 (fun hs => debugWithdraw_stoOff (by simpa using hs))
  have h3 : s3.Sound := loadAonObjects_sound (sound_of h2.wf (by simpa using h2.stoOff))
  clear_value s3
  exact reloadLate_sound (sound_of h3.wf (by simpa using h3.stoOff))

end Sys2Proof.Machine
end

section
/-! Every step keeps the objects canonical and the STO outputs low outside PERMIT (O57). -/
namespace Sys2Proof.Machine

/-! ### The completion of transitions, temperatures, calibration, stores -/

theorem completeTransition_sound {m : Domain} {readings : List Int} {selfTest : Nat} {bad : Bool} {s : State} (h : s.Sound) :
    (completeTransition m readings selfTest bad s).Sound := by
  unfold completeTransition
  extract_lets c reached arrive note hot on1 on2
  have harrive : ∀ st t, t.Sound → (arrive st t).Sound := by
    intro st t ht
    refine sound_of ht.wf ?_
    unfold arrive
    dsimp only
    split
    · simpa using ht.stoOff
    · simpa using ht.stoOff
  have hnote : ∀ t, t.Sound → (note t).Sound := fun t ht => act_keeps_sound ht (fun hs => by simpa using hs)
  have hhot : hot.Sound := act_keeps_sound (dropDomain_sound (harrive _ _ h)) (fun hs => by simpa using hs)
  have hon1 : on1.Sound := harrive _ _ h
  have hon2 : on2.Sound := by
    unfold on2
    split
    · exact act_keeps_sound hon1 (fun hs => by simpa using hs)
    · split
      · exact secPowerOn_sound hon1
      · exact act_keeps_sound (reloadDomain_sound hon1) (fun hs => powerOnEffects_stoOff hs)
  clear_value arrive note hot on2
  split
  · exact h
  · split
    · split
      · exact h
      · split
        · exact hhot
        · split
          · exact sectionFails_sound h
          · exact act_keeps_sound (hnote _ hon2) (fun hs => by simpa using hs)
    · have h1 := harrive c.target s h
      have h2 : (if c.target == .off then dropDomain true m (arrive c.target s) else arrive c.target s).Sound := by
        split
        · exact dropDomain_sound h1
        · exact h1
      exact sound_of (hnote _ h2).wf (by simpa using (hnote _ h2).stoOff)

theorem stands_sound {s : State} (h : s.Sound) : (thermalShutdown.stands s).Sound :=
  sound_of h.wf (by simpa [thermalShutdown.stands] using h.stoOff)

theorem thermalShutdown_sound {die cause : Nat} {s : State} (h : s.Sound) : (thermalShutdown die cause s).Sound := by
  unfold thermalShutdown
  extract_lets taken latch abandons s1 s1' s2
  have hlatch : ∀ t, t.Sound → (latch t).Sound := fun t ht => act_keeps_sound ht (fun hs => by simpa using hs)
  have h1 : s1.Sound := hlatch _ (loseDomains_sound h)
  have h2 : s2.Sound := by
    unfold s2
    split
    · exact act_keeps_sound (hlatch _ h) (fun hs => by simpa using hs)
    · exact hlatch _ h
  clear_value s1 s2
  split
  · exact act_keeps_sound (hlatch _ h) (fun hs => by simpa using hs)
  · split
    · refine stands_sound ?_
      split
      · exact act_keeps_sound h1 (fun hs => by simpa using hs)
      · exact h1
    · exact stands_sound (loseDomains_sound h2)

theorem dieCycles_isl (dies : List Nat) (f : List (Nat × Nat) × Dev → Nat → List (Nat × Nat) × Dev)
    (hf : ∀ a k, Part.isl.of (f a k).2 = Part.isl.of a.2) (a : List (Nat × Nat) × Dev) :
    Part.isl.of (dies.foldl f a).2 = Part.isl.of a.2 := by
  induction dies generalizing a with
  | nil => rfl
  | cons k l ih => exact (ih _).trans (hf a k)

theorem temperatureCycle_sound {readings : List Int} {s : State} (h : s.Sound) : (temperatureCycle readings s).Sound := by
  unfold temperatureCycle
  dsimp only
  split
  · exact h
  · refine foldl_sound (fun _ _ => thermalShutdown_sound) _ (sound_of h.wf ?_)
    rw [forEach_leaves (fun k e => by simp)]
    rw [dieCycles_isl _ _ (fun a k => by split <;> simp)]
    simpa using h.stoOff

theorem calFactors_wf {d : Dev} {fs : List CalFactors} {o : Od} (h : o.wf = true) : (calFactors d fs o).wf = true := by
  unfold calFactors
  split
  · exact h
  · refine foldl_odSet_wf (fun o n ho => ?_) _ h
    dsimp only
    split
    · exact odSet_wf (odSet_wf ho)
    · exact ho

theorem calComplete_sound {factors : List CalFactors} {s : State} (h : s.Sound) : (calComplete factors s).Sound := by
  unfold calComplete
  exact sound_of (by dsimp only; exact calFactors_wf h.wf) (by simpa using h.stoOff)

/-! ### Every command -/

/-- Whatever next state the result holds is sound. -/
def NextSound (r : Result) : Prop := ∀ t, r = .next t → t.Sound

theorem acts_sound {f : State → State} {s : State} (h : (f s).Sound) : NextSound (acts f s) := by
  intro t ht
  cases ht
  exact h

theorem upTo_sound {due : Od → Dev → Option Instant} {s : State} (h : s.Sound) : (s.upTo due).Sound := by
  obtain ⟨-, -, -, -, -, -, -, -, -, -, -, -, -, -, -, -, -, -, -, -, hisl, -⟩ := agreeButTime_fields (upTo_agrees due s)
  exact sound_of (by rw [upTo_od]; exact h.wf) (stoOff_of_pairs h.stoOff (congrArg Island.pairs hisl))

theorem timedAct_sound {due : Od → Dev → Option Instant} {f : State → State} {s : State} (h : s.Sound)
    (hf : ∀ {t : State}, t.Sound → (f t).Sound) : NextSound (timedAct due f s) := acts_sound (hf (upTo_sound h))

theorem drives_sound {f : Od → Dev → Dev} {s : State} (h : s.Sound)
    (hf : ∀ o d, (Part.isl.of d).StoOff → (Part.isl.of (f o d)).StoOff) : NextSound (drives f s) := by
  intro t ht
  cases ht
  exact ⟨h.1, hf _ _ h.2⟩

theorem timed_sound {due : Od → Dev → Option Instant} {f : Od → Dev → Dev} {s : State} (h : s.Sound)
    (hf : ∀ o d, (Part.isl.of d).StoOff → (Part.isl.of (f o d)).StoOff) : NextSound (timed due f s) := drives_sound (upTo_sound h) hf

/-- A command of the device that leaves the island. -/
theorem drives_off_island {f : Od → Dev → Dev} {s : State} (h : s.Sound) (hf : ∀ o d, Part.isl.of (f o d) = Part.isl.of d) :
    NextSound (drives f s) := drives_sound h (fun o d hd => (hf o d).symm ▸ hd)

/-- A timed command of the device that leaves the island. -/
theorem timed_off_island {due : Od → Dev → Option Instant} {f : Od → Dev → Dev} {s : State} (h : s.Sound)
    (hf : ∀ o d, Part.isl.of (f o d) = Part.isl.of d) : NextSound (timed due f s) := drives_off_island (upTo_sound h) hf

/-- The island's logic acts while SAFE is ON (`whileSafe`). -/
theorem whileSafe_stoOff {f : Od → Dev → Dev} (hf : ∀ o d, (Part.isl.of d).StoOff → (Part.isl.of (f o d)).StoOff) (o : Od) (d : Dev)
    (h : (Part.isl.of d).StoOff) : (Part.isl.of (whileSafe f o d)).StoOff := by
  unfold whileSafe
  split
  · exact hf o d h
  · exact h

theorem whileDrv_off_island {f : Od → Dev → Dev} (hf : ∀ o d, Part.isl.of (f o d) = Part.isl.of d) (o : Od) (d : Dev) :
    Part.isl.of (whileDrv f o d) = Part.isl.of d := by
  unfold whileDrv
  split
  · exact hf o d
  · rfl

/-- Every command answers a sound state from a sound one. -/
theorem exec_sound (c : Instr) {s : State} (h : s.Sound) : NextSound (exec c s) := by
  cases c <;> dsimp only [exec]
  case storeSave | restoreLoad | checkpointNow | accountReset | deviceReset | bootConfirm | groupRequest | keyWrite | loadBegin |
    loadData | loadCommit | secVersionRaise | controlPeriodWrite | profileRunStart | profileRunHold | timeStepNow | manualRateWrite |
    ringStart | ringStop | pathSwap | cellRsyn | cellLeav | errantClear | stackStrt | stackConn | stackStop | stackPark | clearImplausible |
    bypassCell | reinsertCell | tripCommandTrip | tripCommandRlse | ceEnab | ceDisa | ceRset | ceRsum | ceCommit | ceDimensionWrite |
    swTrigger | adcEnable | adcDisable | calStart | cmpThresholdWrite | tsClear | arms | streamEnable | streamDisable | pairEnab | pairDisa
    | pwmCommit | groupRelease | bridgeClrf | bridgeTest | axisEnab | axisEcat | axisDisa | axisDecl | axisClrf | chopEnab | chopDisa |
    chopClrf | pairClrf | ccvConfirmedWrite =>
    exact acts_sound (hostWrite_sound h)
  case nmtStart | nmtStop | nmtEnterPreoperational | nmtResetNode | nmtResetCommunication =>
    exact acts_sound (nmtRow_sound h)
  case mailboxOwnerSet | tailWrite | msixUnmask | barTimeLoRead | streamRegisterWrite =>
    exact acts_sound (barAccess_sound h)
  case emcySend | creditBreach | ledgerUnaccountedSecond | ledgerCheckpointDone | sequenceViolation | boundaryScanUpdateDr |
    tblockDeclared | tblockLost | caslockDeclared | caslockLost | ptpSync | ptpFollowUp | ptpDelayResp | pdelayReqReceived | ptpAnnounce |
    ethLinkChange | arpReceived | icmpEcho | laneSyncLost | laneSyncGained | faultOrderedSet | discoverInterval | hello | challengeResp |
    admitTimeout | lockReport | lockTimeout | paramAck | commitAck | calData | armAck | resyncTimeout | leaveReq | nakStateReceived |
    eventReport | cellCreditReceived | reqTimeout | requestLaunchTimeout | nakRetryDelay | grantHoldExpiry | reconcileLimit |
    stackUpdateComplete | ceTrigger | ceComputeDone | comparatorCrossing | descriptorFetchComplete | recordToBuffer | pciePerstNAssert |
    pciePerstNRelease | pcieLinkDown | pcieLinkUp | pcieD3hot | busMasterClear | pcieConfigRequest | faultPinEdge | faultPinInactive |
    bridgeFault | selftestDone =>
    exact drives_off_island h (fun o d => by simp)
  case axisLoopSample =>
    exact drives_off_island h (whileDrv_off_island (fun o d => by simp))
  case udpSessionIdleTimeout | rpdoTimeout | heartbeatProducerTimer | sequencerWindowClose | ledgerCheckpointInterval | resetNRearmed
    | rtcAlarm | debugNonceExpiry | commTimeout | commNonceExpiry | commLockoutEnd | ptpDelayReqTimer | ptpMasterLost | rateSlewStep |
    frameBuildCutoff | cyclicFrameReturn | standbyFrameReturn | returnDeadline | switchSuppressClear | delayFrameLaunch | delayFrameReturn |
    admitBackoffEnd | paramTimeout | holdPresumption | prechargeTimeout | syncTimeout | connectTimeout | stopRampEnd | reinsertTimeout |
    lineRideThroughExpiry | headroomTimeExpiry | ceCutoff | adcTrigger | adcEntryResult | cmpSettleEnd | thermalRelease | captureInstant |
    flushTimeout | irqTimeExpiry | pwmCutoff | pwmPeriodStart | ascDelayExpiry | autoRelease | retryWaitExpiry | supplyHoldRelease =>
    exact timed_off_island h (fun o d => by simp)
  case startRetryDelayExpiry | startTimeout | recatchDelayExpiry | recatchTimeout | decelStopComplete | ladderStale | mechHoldExpiry =>
    exact timed_off_island h (whileDrv_off_island (fun o d => by simp))
  case supplyLost | domainStateWrite | groupStep | wake => exact acts_sound (aonCycle_sound h)
  case idleTimeExpiry => exact timedAct_sound h aonCycle_sound
  case odRead | odWrite | keepalive | close | commChallenge | commResponse | commEnd | commStatus =>
    exact acts_sound (request_sound writeObject_keepsSound h)
  case lifecycleLock | lifecycleSeal => exact acts_sound (request_sound (advanceWriter_keepsSound _ _) h)
  case sdoUpload => exact acts_sound (sdoUpload_sound h)
  case sdoDownload => exact acts_sound (sdoDownload_sound h)
  case transferTimeout => exact timedAct_sound h transferTimeout_sound
  case rpdoReceived => exact acts_sound (rpdoReceived_sound h)
  case tpdoChangeTransmit => exact timedAct_sound h (fun ht => sound_of (by simpa using ht.wf) (by simpa using ht.stoOff))
  case tpdoEventTimer => exact timedAct_sound h (fun ht => sound_of (by simpa using ht.wf) (by simpa using ht.stoOff))
  case configStoreComplete => exact acts_sound (sound_of (by simpa using h.wf) (by simpa using h.stoOff))
  case vaonPowerOn => exact acts_sound (vaonPowerOn_sound h)
  case supplyRestored => exact acts_sound (railRestored_sound h)
  case lockFilterCheckDone => exact acts_sound (sound_of h.wf (by simpa using h.stoOff))
  case porstNAssert => exact acts_sound (porstAssert_sound h)
  case porstNRelease => exact acts_sound (porstRelease_sound h)
  case resetNAssert => exact acts_sound (resetNAssert_sound h)
  case resetNRelease => exact acts_sound (resetNRelease_sound h)
  case resetNLimitExpiry => exact timedAct_sound h resetNLimit_sound
  case watchdog => exact timedAct_sound h watchdog_sound
  case debugReset => exact acts_sound (debugReset_sound h)
  case warmResetRelease => exact timedAct_sound h pinlessOver_sound
  case sequencerDomainRequest => exact acts_sound (seqNext_sound h)
  case bootDomainFailed => exact timedAct_sound h (fun ht => sound_of (by simpa using ht.wf) (by simpa using ht.stoOff))
  case tblockDeclareTimeout => exact timedAct_sound h (fun ht => sound_of (by simpa using ht.wf) (by simpa using ht.stoOff))
  case domainTransitionComplete domain readings selfTest sectionBad =>
    refine acts_sound ?_
    dsimp only
    split
    · exact barReplay_sound (completeTransition_sound h)
    · exact completeTransition_sound h
  case debugAttach => exact drives_sound h (fun o d hd => by split; exacts [updateIr_stoOff hd, hd])
  case dbgChallengeCapture => exact drives_sound h (fun o d => dbgChallenge_stoOff)
  case dbgResponseUpdate => exact drives_sound h (fun o d => dbgResponse_stoOff)
  case debugLockoutEnd => exact timed_sound h (fun o d => debugLockoutEnd_stoOff)
  case tapReset => exact drives_sound h (fun o d hd => by split; exacts [tapReset_stoOff hd, hd])
  case scanTakeoverStart => exact drives_sound h (fun o d hd => by split; exacts [updateIr_stoOff hd, hd])
  case scanTakeoverEnd => exact drives_sound h (fun o d hd => by split; exacts [updateIr_stoOff hd, hd])
  case timebaseCheckWindow => exact timed_sound h (fun o d => timebaseWindow_stoOff)
  case periodStart => exact timedAct_sound h controlPeriodStart_sound
  case adcCalComplete => exact timedAct_sound h calComplete_sound
  case temperatureCycle => exact timedAct_sound h temperatureCycle_sound
  case safetyCopyArrival =>
    refine drives_sound h (whileSafe_stoOff fun o d hd => ?_)
    exact iteInduction (motive := fun e => (Part.isl.of e).StoOff) (fun _ => copyArrival_stoOff hd) (fun _ => hd)
  case statusPduSend => exact drives_sound h (whileSafe_stoOff fun o d => statusSend_stoOff)
  case compareWindowExpiry => exact timed_sound h (whileSafe_stoOff fun o d => windowExpiry_stoOff)
  case connTimeout => exact timed_sound h (whileSafe_stoOff fun o d => connTimeout_stoOff)
  case speedWindowEnd => exact drives_sound h (whileSafe_stoOff fun o d => speedWindowEnd_stoOff)
  case ss1TimeLimit => exact timed_sound h (whileSafe_stoOff fun o d => ss1TimeLimit_stoOff)
  case feedbackCheck => exact drives_sound h (whileSafe_stoOff fun o d => feedbackCheck_stoOff)
  case testPulseStart => exact timed_sound h (whileSafe_stoOff fun o d => pulseStart_stoOff)
  case testPulseEnd => exact timed_sound h (whileSafe_stoOff fun o d => pulseEnd_stoOff)
  case ccvUpdate => exact drives_sound h (whileSafe_stoOff fun o d => ccvTake_stoOff)

/-- Settles O57: every command keeps the objects canonical and the STO outputs low outside PERMIT, and so does the tick on an empty queue. -/
theorem everyStepKeepsSoundness : Obligations.EveryStepKeepsSoundness := by
  intro s t h hstep
  unfold step at hstep
  split at hstep
  case h_2 c rest _ => exact exec_sound c (s := { s with pending := rest }) h t hstep
  case h_1 =>
    cases hstep
    exact sound_of (by simpa using h.wf) (by simpa using h.stoOff)

end Sys2Proof.Machine
end

section
/-! Rows that are a host's write of an object: what holds of the state after one follows from the effect of the write, in the units
beside the communication with hosts. -/
namespace Sys2Proof.Machine

/-- A change of the communication alone leaves every unit beside the communication. -/
theorem agreeButCom_part {a b : Dev} (h : agreeButCom a b) {p : Part} (hp : p ≠ .com ∧ p ≠ .acq ∧ p ≠ .out ∧ p ≠ .free) :
    p.of a = p.of b := by
  unfold agreeButCom at h
  rw [← h]
  cases p <;> simp at hp <;> rfl

/-- A request is executed in a state that agrees with the present one beside the communication and the idle times. -/
theorem ExecutesFrom.part {s t : State} {n : Nat} (h : ExecutesFrom s n t) {p : Part}
    (hp : p ≠ .com ∧ p ≠ .acq ∧ p ≠ .out ∧ p ≠ .free ∧ p ≠ .doms) : p.of t.dev = p.of s.dev := by
  obtain ⟨hcom, hacq, hout, hfree, hdoms⟩ := hp
  rw [agreeButCom_part h.agrees ⟨hcom, hacq, hout, hfree⟩]
  simp [netBusy, hdoms]

/-- An object whose write is neither DEVICE_RESET nor the state of NET: what it does, it does before its answer. -/
structure PlainRow (ix sub : Nat) (b : Bytes) : Prop where
  index : ix < 2 ^ 16
  subindex : sub < 2 ^ 8
  length : b.length < 2 ^ 32
  noReset : ¬ (ix = 0x2202 ∧ sub = 1)
  noNet : ¬ (ix = 0x2100 ∧ sub = 3)

/-- `v` is a state that an accepted write can leave whose effect, in session `n` from `t`, left `u`. -/
structure WriteOutcome (ix sub : Nat) (b : Bytes) (s : State) (n : Nat) (t u v : State) : Prop where
  seen : ExecutesFrom s n t
  check : writeCheck t (some n) ix sub b = none
  effect : writeEffect (some n) ix sub b t = (none, u)
  od : v.od = u.od
  agrees : agreeButCom v.dev u.dev

theorem hostWrite_outcome {via : Via} {ix sub : Nat} {b : Bytes} {s : State} (hrow : PlainRow ix sub b)
    (h : accepted via ix sub b s = true) : ∃ n t u, WriteOutcome ix sub b s n t u (hostWrite via ix sub b s) := by
  obtain ⟨n, t, u, hseen, hcheck, heffect, hod, hdev⟩ :=
    hostWrite_accepted hrow.index hrow.subindex hrow.length hrow.noReset hrow.noNet h
  exact ⟨n, t, u, writeSeen_executesFrom hseen, hcheck, heffect, hod, hdev⟩

/-- What every state that the accepted write can leave satisfies, the row completes with. -/
theorem completes_of_write {c : Instr} {via : Via} {ix sub : Nat} {b : Bytes} {s : State} {P : State → Prop}
    (hexec : exec c s = acts (hostWrite via ix sub b) s) (hrow : PlainRow ix sub b) (h : accepted via ix sub b s = true)
    (hP : ∀ n t u v, WriteOutcome ix sub b s n t u v → P v) : Completes c s P := by
  obtain ⟨n, t, u, hout⟩ := hostWrite_outcome hrow h
  exact ⟨_, hexec, hP n t u _ ⟨hout.seen, hout.check, hout.effect, hout.od, hout.agrees⟩⟩

namespace WriteOutcome
variable {ix sub n : Nat} {b : Bytes} {s t u v : State}

theorem part (h : WriteOutcome ix sub b s n t u v) {p : Part} (hp : p ≠ .com ∧ p ≠ .acq ∧ p ≠ .out ∧ p ≠ .free) :
    p.of v.dev = p.of u.dev := agreeButCom_part h.agrees hp

/-- Where the write's effect leaves the objects, so does the row. -/
theorem od_kept (h : WriteOutcome ix sub b s n t u v) (hu : (writeEffect (some n) ix sub b t).2.od = t.od) : v.od = s.od := by
  rw [h.effect] at hu
  exact h.od.trans (hu.trans h.seen.od)

end WriteOutcome

/-! ### Commands that come at an instant of their own -/

/-- A wait leaves every unit beside the clock and the idle times. -/
theorem upTo_part (due : Od → Dev → Option Instant) (s : State) {p : Part} (hp : p ≠ .clk ∧ p ≠ .doms) :
    p.of (s.upTo due).dev = p.of s.dev := by
  have h := upTo_agrees due s
  unfold agreeButTime at h
  rw [← h]
  cases p <;> simp at hp <;> rfl

@[simp] theorem upTo_counting (due : Od → Dev → Option Instant) (s : State) : (s.upTo due).dev.clk.counting = s.dev.clk.counting := by
  unfold State.upTo
  split
  · exact passTicks_clock.2.2
  · rfl

theorem completes_drives {c : Instr} {f : Od → Dev → Dev} {s : State} {P : State → Prop} (hexec : exec c s = drives f s)
    (h : P { s with dev := f s.od s.dev }) : Completes c s P := ⟨_, hexec, h⟩

/-- A command of its own instant acts on the state at the end of the wait, whose objects are those of its beginning. -/
theorem completes_timed {c : Instr} {due : Od → Dev → Option Instant} {f : Od → Dev → Dev} {s : State} {P : State → Prop}
    (hexec : exec c s = timed due f s) (h : P { od := s.od, dev := f s.od (s.upTo due).dev, pending := s.pending }) : Completes c s P := by
  refine ⟨_, hexec, ?_⟩
  rw [upTo_od, upTo_pending]
  exact h

end Sys2Proof.Machine
end

section
/-! Rows that write the stack trip (O38), a session of the LCL (O33), and the schedule, the profiles and the rate (O22). -/
namespace Sys2Proof.Machine

/-! ### The stack trip (R333) -/

theorem tripSet_requesters (o : Od) (requesters causes : Nat) (d : Dev) :
    (tripSet o requesters causes d).prot.requesters = if causes = 0 then clrBit requesters 0 else setBit requesters 0 := by
  have hpron : ∀ e, (pronghorn o e).prot = e.prot := fun e => pronghorn_leaves (p := .prot) (by decide) o e
  have hagain : ∀ e, (pronghornAgain o e).prot = e.prot := fun e => pronghornAgain_leaves (p := .prot) (by decide) o e
  unfold tripSet
  dsimp only
  split_ifs <;> simp [hpron, hagain]

theorem setBit_testBit_of (v : Nat) {i j : Nat} (h : v.testBit j = true) : (setBit v i).testBit j = true := by
  simp [setBit_testBit, h]

theorem clrBit_zero_testBit_succ (v j : Nat) : (clrBit v 0).testBit (j + 1) = v.testBit (j + 1) := by
  unfold clrBit
  split
  · rename_i h
    have hodd : v % 2 = 1 := by simpa using h
    rw [Nat.testBit_succ, Nat.testBit_succ, pow_zero]
    congr 1
    omega
  · rfl

theorem requesterSet_testBit (o : Od) (k : Nat) (d : Dev) :
    (requesterSet o (k + 1) d).prot.requesters.testBit (k + 1) = true := by
  rw [requesterSet, tripSet_requesters]
  split
  · rw [clrBit_zero_testBit_succ, setBit_testBit_self]
  · exact setBit_testBit_of _ (setBit_testBit_self _ _)

/-- A requester drives TRIP_OUT_N low. -/
theorem tripOutLow_of_requester {o : Od} {d : Dev} {i : Nat} (h : d.prot.requesters.testBit i = true) : tripOutLow o d = true := by
  have hne : d.prot.requesters ≠ 0 := fun h0 => by simp [h0] at h
  simp [tripOutLow, tripRequesters, hne]

theorem tripCommandTrip_completes {via : Via} {s : State} (h : accepted via 0x3300 1 (toLE 4 0x70697274) s = true) :
    Completes (.tripCommandTrip via) s (fun u => u.dev.prot.requesters.testBit 4 = true ∧ tripOutLow u.od u.dev = true ∧ u.od = s.od) := by
  refine completes_of_write rfl ⟨by decide, by decide, by decide, by decide, by decide⟩ h fun n t u v ho => ?_
  have heff : writeEffect (some n) 0x3300 1 (toLE 4 0x70697274) t = tripWrite t := rfl
  have hu : u = t.act (requesterSet · 4) := (congrArg Prod.snd (heff.symm.trans ho.effect)).symm
  have hprot : v.dev.prot = u.dev.prot := ho.part (p := .prot) (by decide)
  have hbit : v.dev.prot.requesters.testBit 4 = true := by
    rw [hprot, hu]
    exact requesterSet_testBit _ 3 _
  exact ⟨hbit, tripOutLow_of_requester hbit, ho.od_kept rfl⟩

/-- A release that is accepted leaves no requester; from TRIPPED it makes STOPPED due. -/
theorem tripRelease_accepted {o : Od} {cmp : Bool} {d e : Dev} (h : tripRelease o cmp d = (none, e)) :
    e.prot.requesters = 0 ∧ (d.stack.state = .tripped → e.stack.due = some (.stopped, 5, none)) := by
  unfold tripRelease at h
  extract_lets keep was left d1 d2 at h
  have hstack : d1.stack = d.stack := tripSet_leaves (p := .stack) (by decide) o _ left d
  have hstack2 : d2.stack = d1.stack := record_leaves (p := .stack) (by decide) o _ _ _ d1
  have hprot2 : d2.prot = d1.prot := record_leaves (p := .prot) (by decide) o _ _ _ d1
  split_ifs at h with hreq htripped
  · obtain rfl : onStack (fun s => { s with due := some (.stopped, 5, none) }) d2 = e := (Prod.mk.inj h).2
    exact ⟨(congrArg Prot.requesters hprot2).trans hreq, fun _ => rfl⟩
  · obtain rfl : d2 = e := (Prod.mk.inj h).2
    refine ⟨(congrArg Prot.requesters hprot2).trans hreq, fun hs => absurd ?_ htripped⟩
    rw [hstack2, hstack, hs]
    rfl
  · cases (Prod.mk.inj h).1

theorem releaseWrite_accepted {s u : State} (h : releaseWrite s = (none, u)) :
    u.dev.prot.requesters = 0 ∧ (s.dev.stack.state = .tripped → u.dev.stack.due = some (.stopped, 5, none)) := by
  unfold releaseWrite at h
  dsimp only at h
  split_ifs at h
  · rw [Prod.mk.injEq, Option.map_eq_none_iff] at h
    obtain ⟨hr, rfl⟩ := h
    exact tripRelease_accepted (Prod.ext hr rfl)
  · cases h

theorem tripCommandRlse_completes {via : Via} {s : State} (h : accepted via 0x3300 1 (toLE 4 0x65736C72) s = true) :
    Completes (.tripCommandRlse via) s (fun u => u.dev.prot.requesters = 0 ∧ u.od = s.od ∧
      (s.dev.stack.state = .tripped → u.dev.stack.due = some (.stopped, 5, none))) := by
  refine completes_of_write rfl ⟨by decide, by decide, by decide, by decide, by decide⟩ h fun n t u v ho => ?_
  have heff : writeEffect (some n) 0x3300 1 (toLE 4 0x65736C72) t = releaseWrite t := rfl
  obtain ⟨hreq, hdue⟩ := releaseWrite_accepted (heff.symm.trans ho.effect)
  have hprot : v.dev.prot = u.dev.prot := ho.part (p := .prot) (by decide)
  have hstack : v.dev.stack = u.dev.stack := ho.part (p := .stack) (by decide)
  have hstack0 : t.dev.stack = s.dev.stack := ho.seen.part (p := .stack) (by decide)
  exact ⟨hprot ▸ hreq, ho.od_kept (by rw [heff]; simp), fun hs => hstack ▸ hdue (hstack0 ▸ hs)⟩

/-- Settles O38: a trip sets the host's requester, and a release is accepted only where it leaves none. -/
theorem tripIsSetAndReleased : Obligations.TripIsSetAndReleased :=
  ⟨fun _ _ => tripCommandTrip_completes, fun _ _ => tripCommandRlse_completes⟩

/-! ### Sessions of the LCL (R244, R245, R267) -/

theorem writeEffect_cellRsyn (c : Fin 128) (session : Option Nat) (s : State) :
    writeEffect session (0x3100 + c.val) 5 (toLE 4 0x6E797372) s = rsynWrite c.val s := by
  fin_cases c <;> rfl

theorem writeEffect_cellLeav (c : Fin 128) (session : Option Nat) (s : State) :
    writeEffect session (0x3100 + c.val) 5 (toLE 4 0x7661656C) s = leavWrite c.val s := by
  fin_cases c <;> rfl

theorem writeEffect_errantClear (c : Fin 128) (session : Option Nat) (s : State) :
    writeEffect session (0x3480 + c.val) 1 [0, 0] s = errantWrite c.val s := by
  fin_cases c <;> rfl

theorem getCell_modCell_same {c : Nat} (f : Cell → Cell) (d : Dev) (h : c < 128) : getCell (modCell c f d) c = f (getCell d c) :=
  vget_vmod_same _ _ _ h

theorem getCell_queueControl_same {c : Nat} (mtype : Nat) (body : Bytes) (d : Dev) (h : c < 128) :
    (getCell (queueControl c mtype body d) c).control.getLast? = some { mtype := mtype, body := body } := by
  simp [queueControl, getCell_modCell_same _ _ h]

theorem cellRsyn_completes {via : Via} {c : Fin 128} {s : State} (h : accepted via (0x3100 + c.val) 5 (toLE 4 0x6E797372) s = true) :
    Completes (.cellRsyn via c) s (fun u => (getCell u.dev c.val).control.getLast? = some { mtype := 0x09 } ∧ u.od = s.od) := by
  refine completes_of_write rfl ⟨by omega, by decide, by decide, by omega, by omega⟩ h fun n t u v ho => ?_
  have heff := (writeEffect_cellRsyn c (some n) t).symm.trans ho.effect
  unfold rsynWrite at heff
  dsimp only at heff
  split_ifs at heff
  · cases heff
  · cases heff
  · cases heff
    refine ⟨?_, ho.od_kept (by rw [writeEffect_cellRsyn]; simp)⟩
    rw [getCell_of_lcl (ho.part (p := .lcl) (by decide))]
    exact getCell_queueControl_same _ _ _ c.isLt

theorem cellLeav_completes {via : Via} {c : Fin 128} {s : State} (h : accepted via (0x3100 + c.val) 5 (toLE 4 0x7661656C) s = true) :
    Completes (.cellLeav via c) s (fun u => (getCell u.dev c.val).control.getLast? = some { mtype := 0x0A, body := [0x10] } ∧ u.od = s.od) := by
  refine completes_of_write rfl ⟨by omega, by decide, by decide, by omega, by omega⟩ h fun n t u v ho => ?_
  have heff := (writeEffect_cellLeav c (some n) t).symm.trans ho.effect
  unfold leavWrite at heff
  dsimp only at heff
  split_ifs at heff
  · cases heff
  · cases heff
  · cases heff
    refine ⟨?_, ho.od_kept (by rw [writeEffect_cellLeav]; simp)⟩
    rw [getCell_of_lcl (ho.part (p := .lcl) (by decide))]
    exact getCell_queueControl_same _ _ _ c.isLt

/-- What a pardoned cell's transactions hold: no errant mark and an empty window. -/
theorem errantWrite_clears {c : Nat} (s : State) (h : c < 128) :
    (getCell (errantWrite c s).2.dev c).txn.errant = false ∧ (getCell (errantWrite c s).2.dev c).txn.window = [] := by
  have hclear : ∀ e : Dev, e.lcl = (modTxn c (fun t => { t with window := [], errant := false }) s.dev).lcl →
      (getCell e c).txn.errant = false ∧ (getCell e c).txn.window = [] := fun e he => by
    rw [getCell_of_lcl he, modTxn, getCell_modCell_same _ _ h]
    exact ⟨rfl, rfl⟩
  unfold errantWrite
  dsimp only
  split
  · exact hclear _ (record_leaves (p := .lcl) (by decide) _ _ _ _ _)
  · exact hclear _ rfl

theorem errantClear_completes {via : Via} {c : Fin 128} {s : State} (h : accepted via (0x3480 + c.val) 1 [0, 0] s = true) :
    Completes (.errantClear via c) s (fun u => (getCell u.dev c.val).txn.errant = false ∧ (getCell u.dev c.val).txn.window = [] ∧ u.od = s.od) := by
  refine completes_of_write rfl ⟨by omega, by decide, by decide, by omega, by omega⟩ h fun n t u v ho => ?_
  have heff := (writeEffect_errantClear c (some n) t).symm.trans ho.effect
  obtain ⟨herrant, hwindow⟩ := errantWrite_clears t c.isLt
  rw [heff] at herrant hwindow
  rw [getCell_of_lcl (ho.part (p := .lcl) (by decide))]
  exact ⟨herrant, hwindow, ho.od_kept (by rw [writeEffect_errantClear]; simp)⟩

/-- Settles O33: each row has the effect of its write. -/
theorem hostsDriveSessions : Obligations.HostsDriveSessions :=
  ⟨fun _ _ _ => cellRsyn_completes, fun _ _ _ => cellLeav_completes, fun _ _ _ => errantClear_completes⟩

/-! ### The schedule, the profiles and the rate (R175, R182, R187, R188) -/

/-- An object reads as the number written to it. -/
theorem odU_odSet_toLE (o : Od) {ix sub n v : Nat} (hsub : sub < 256) (hn : 0 < n) (hv : v < 256 ^ n) :
    odU (odSet o ix sub (toLE n v)) ix sub = v := by
  have hne : toLE n v ≠ [] := List.ne_nil_of_length_pos (by rwa [toLE_length])
  rw [odU, odGet_odSet_same o hsub hne, leNat_toLE_of_lt hv]

theorem controlPeriodWrite_completes {via : Via} {w : BitVec 32} {s : State} (h : accepted via 0x2413 1 (toLE 4 w.toNat) s = true) :
    Completes (.controlPeriodWrite via w) s (fun u => period u.od = w.toNat ∧ (s.dev.sched.running = true → u.dev.sched.j = 0)) := by
  refine completes_of_write rfl ⟨by decide, by decide, by simp, by decide, by decide⟩ h fun n t u v ho => ?_
  have heff : writeEffect (some n) 0x2413 1 (toLE 4 w.toNat) t = wrote (devTo newOrigin (put 0x2413 1 (toLE 4 w.toNat) t)) := rfl
  obtain rfl : devTo newOrigin (put 0x2413 1 (toLE 4 w.toNat) t) = u := congrArg Prod.snd (heff.symm.trans ho.effect)
  have hsched : t.dev.sched = s.dev.sched := ho.seen.part (p := .sched) (by decide)
  refine ⟨?_, fun hrun => ?_⟩
  · rw [ho.od]
    exact odU_odSet_toLE _ (by decide) (by decide) w.isLt
  · have hj : (newOrigin t.dev).sched.j = 0 := by rw [newOrigin, hsched, if_pos hrun]
    exact (congrArg Sched.j (ho.part (p := .sched) (by decide))).trans hj

theorem profileRunStart_completes {via : Via} {w : BitVec 8} {s : State} (h : accepted via 0x2412 1 [w] s = true) (hw : w ≠ 0xFF) :
    Completes (.profileRunStart via w) s (fun u => u.dev.time.want = some (some w.toNat) ∧ u.dev.time.profileRun = w.toNat ∧ u.od = s.od) := by
  refine completes_of_write rfl ⟨by decide, by decide, by simp, by decide, by decide⟩ h fun n t u v ho => ?_
  have hne : leNat [w] ≠ 0xFF := fun hx => hw (BitVec.eq_of_toNat_eq (by simpa [leNat] using hx))
  have heff : writeEffect (some n) 0x2412 1 [w] t = unlessRefused (profileRefusal t.od t.dev w.toNat) t (devTo (profileWrite (some w.toNat)) t) := by
    rw [show writeEffect (some n) 0x2412 1 [w] t = profileRunWrite (leNat [w]) t from rfl, profileRunWrite, if_neg hne, leNat_singleton]
  obtain ⟨-, rfl⟩ := unlessRefused_accepted (heff.symm.trans ho.effect)
  have htime : v.dev.time = _ := ho.part (p := .time) (by decide)
  rw [htime]
  exact ⟨rfl, rfl, ho.od_kept (by rw [heff]; simp)⟩

theorem profileRunHold_completes {via : Via} {s : State} (h : accepted via 0x2412 1 [0xFF] s = true) :
    Completes (.profileRunHold via) s (fun u => u.dev.time.want = some none ∧ u.dev.time.profileRun = 0xFF ∧ u.od = s.od) := by
  refine completes_of_write rfl ⟨by decide, by decide, by simp, by decide, by decide⟩ h fun n t u v ho => ?_
  have heff : writeEffect (some n) 0x2412 1 [0xFF] t = wrote (devTo (profileWrite none) t) := rfl
  obtain rfl : devTo (profileWrite none) t = u := congrArg Prod.snd (heff.symm.trans ho.effect)
  have htime : v.dev.time = _ := ho.part (p := .time) (by decide)
  rw [htime]
  exact ⟨rfl, rfl, ho.od_kept rfl⟩

theorem timeStepNow_completes {via : Via} {s : State} (h : accepted via 0x2400 5 (toLE 4 0x70657473) s = true) :
    Completes (.timeStepNow via) s (fun u => u.dev.time.stepNow = true ∧ u.od = s.od) := by
  refine completes_of_write rfl ⟨by decide, by decide, by simp, by decide, by decide⟩ h fun n t u v ho => ?_
  have heff : writeEffect (some n) 0x2400 5 (toLE 4 0x70657473) t = stepNowWrite t := rfl
  have hkept : v.od = s.od := ho.od_kept (by rw [heff]; simp)
  rw [ho.effect, stepNowWrite] at heff
  split_ifs at heff
  · cases heff
  · cases heff
  · cases heff
    exact ⟨congrArg Time.stepNow (ho.part (p := .time) (by decide)), hkept⟩

/-- A 32-bit word's signed reading. -/
theorem toSigned_toNat (w : BitVec 32) : toSigned 32 w.toNat = w.toInt := by
  have hlt := w.isLt
  rw [BitVec.toInt_eq_toNat_cond, toSigned, Nat.mod_eq_of_lt hlt]
  split <;> split <;> omega

theorem manualRateWrite_completes {via : Via} {w : BitVec 32} {s : State} (h : accepted via 0x2401 3 (toLE 4 w.toNat) s = true) :
    Completes (.manualRateWrite via w) s (fun u => odU u.od 0x2401 3 = w.toNat ∧ u.dev.time.rateTarget = limitRate u.od w.toInt) := by
  refine completes_of_write rfl ⟨by decide, by decide, by simp, by decide, by decide⟩ h fun n t u v ho => ?_
  have heff : writeEffect (some n) 0x2401 3 (toLE 4 w.toNat) t = manualRateWrite (toLE 4 w.toNat) t := rfl
  rw [ho.effect, manualRateWrite] at heff
  split_ifs at heff
  · cases heff
  · obtain rfl := congrArg Prod.snd heff
    have hread : odU (odSet t.od 0x2401 3 (toLE 4 w.toNat)) 0x2401 3 = w.toNat := odU_odSet_toLE _ (by decide) (by decide) w.isLt
    have hod : v.od = odSet t.od 0x2401 3 (toLE 4 w.toNat) := ho.od
    have htarget : ∀ (o : Od) (r : Int) (d : Dev), (callRate o r d).time.rateTarget = limitRate o r := fun o r d => by
      unfold callRate
      dsimp only
      split <;> rfl
    have htime : v.dev.time = _ := ho.part (p := .time) (by decide)
    refine ⟨hod ▸ hread, ?_⟩
    rw [htime, hod]
    refine (htarget _ _ _).trans (congrArg _ ?_)
    rw [put_od, odI, hread, toSigned_toNat]

/-- The instant of the next slew step (R188). -/
def slewDue (_ : Od) (d : Dev) : Option Instant :=
  instantIf (d.time.tb.declared && d.time.rate != d.time.rateTarget) (.device (d.time.rateAt + msT 1))

theorem rateSlewStep_completes {s : State} (hdecl : s.dev.time.tb.declared = true) (hrate : s.dev.time.rate ≠ s.dev.time.rateTarget)
    (hcount : s.dev.clk.counting = true) :
    Completes .rateSlewStep s (fun u => u.dev.time.rateAt = u.dev.clk.dt ∧
      u.dev.time.rate = s.dev.time.rate + clampI (-250000000) 250000000 (s.dev.time.rateTarget - s.dev.time.rate)) := by
  refine completes_timed (due := slewDue) (f := fun _ => rateSlewStep) rfl ?_
  have hdue : slewDue s.od s.dev = some (.device (s.dev.time.rateAt + msT 1)) := by simp [slewDue, instantIf, hdecl, hrate]
  have hover := le_dt_upTo hdue hcount
  have htime : (s.upTo slewDue).dev.time = s.dev.time := upTo_part slewDue s (p := .time) (by decide)
  rw [← htime] at hover hdecl hrate ⊢
  have hstep : rateSlewStep (s.upTo slewDue).dev = slewStep (s.upTo slewDue).dev := if_neg (by simp [hdecl, hrate, hover])
  rw [hstep]
  exact ⟨rfl, rfl⟩

/-- Settles O22: the rows have the effect of their writes, and a slew step that is due moves the rate once. -/
theorem scheduleAndRateFollow : Obligations.ScheduleAndRateFollow :=
  ⟨fun _ _ _ => controlPeriodWrite_completes, fun _ _ _ => profileRunStart_completes, fun _ _ => profileRunHold_completes,
    fun _ _ => timeStepNow_completes, fun _ => rateSlewStep_completes, fun _ _ _ => manualRateWrite_completes⟩

end Sys2Proof.Machine
end

section
/-! The measurement unit: converters run (O41) and are calibrated (O42), comparators follow their conditions (O43). -/
namespace Sys2Proof.Machine

/-! ### Comparators (R375 to R378) -/

/-- A comparator's output is `outside`, and it settles until `t`, where it settles. -/
def CmpShows (n : Nat) (outside : Bool) (t : Option Nat) (d : Dev) : Prop :=
  d.meas.cmpOut.testBit n = outside ∧ (vget d.meas.cmps n).settle = t

/-- A comparator that is set shows the condition it was set to, and settles as it did. -/
theorem cmpSet_follows (o : Od) (n : Nat) (outside : Bool) (d : Dev) :
    CmpShows n outside (vget d.meas.cmps n).settle (cmpSet o n outside d) := by
  unfold cmpSet
  split
  · rename_i h
    exact ⟨by simpa using h, rfl⟩
  · extract_lets m0 d0 d1 d2 c modC
    have hmeas1 : d1.meas = d0.meas := handTo_leaves (p := .meas) (by decide) o _ _ _ d0
    have hmeas : d2.meas = d0.meas := by
      refine (pronghorn_leaves (p := .meas) (by decide) o _).trans (Eq.trans ?_ hmeas1)
      split
      · exact tripCause_leaves (p := .meas) (by decide) o _ d1
      · rfl
    have hout : d2.meas.cmpOut.testBit n = outside := by
      rw [hmeas]
      cases outside <;> simp [d0, clrBit_testBit_self]
    have hsettle : (vget d2.meas.cmps n).settle = (vget d.meas.cmps n).settle := by rw [hmeas]
    have hmod : ∀ f : Cmp → Cmp, (∀ x, (f x).settle = x.settle) → (vget (modC f d2).meas.cmps n).settle = (vget d.meas.cmps n).settle :=
      fun f hf => (vget_vmod_keeps (P := fun x : Cmp => x.settle = (vget d2.meas.cmps n).settle) _ n n f (fun h => (hf _).trans h) rfl).trans hsettle
    clear_value d2
    have hrec : ∀ e data, (record o 0x6010 (0x20 + n) data e).meas = e.meas := fun e data => record_leaves (p := .meas) (by decide) o _ _ _ e
    refine iteInduction (motive := CmpShows n outside (vget d.meas.cmps n).settle) (fun _ => ⟨hout, hsettle⟩) fun _ =>
      iteInduction (motive := CmpShows n outside (vget d.meas.cmps n).settle) (fun _ => ⟨hout, hmod _ fun _ => rfl⟩) fun _ => ?_
    rw [CmpShows, hrec]
    exact ⟨hout, hmod _ fun _ => rfl⟩

theorem comparatorCrossing_completes {n : Fin 32} {outside : Bool} {s : State} (hmeas : s.dev.isOn .meas = true)
    (hmode : cmpMode s.od n.val ≠ 0) (hsettle : (vget s.dev.meas.cmps n.val).settle = none) :
    Completes (.comparatorCrossing n outside) s (fun u => u.dev.meas.cmpOut.testBit n.val = outside ∧ u.od = s.od) := by
  refine completes_drives (f := (cmpCrossing · n.val outside)) rfl ⟨?_, rfl⟩
  have hset : cmpCrossing s.od n.val outside s.dev = cmpSet s.od n.val outside s.dev := by simp [cmpCrossing, hmeas, hmode, hsettle]
  rw [hset]
  exact (cmpSet_follows _ _ _ _).1

theorem writeEffect_cmpThreshold (n : Fin 32) (b : Bytes) (session : Option Nat) (s : State) :
    writeEffect session (0x2630 + n.val) 3 b s = thresholdWrite n.val b s := by
  fin_cases n <;> rfl

theorem cmpThresholdWrite_completes {via : Via} {n : Fin 32} {w : BitVec 32} {s : State}
    (h : accepted via (0x2630 + n.val) 3 (toLE 4 w.toNat) s = true) :
    Completes (.cmpThresholdWrite via n w) s (fun u => (vget u.dev.meas.cmps n.val).settle = some (s.dev.clk.dt + usT 1) ∧
      odU u.od (0x2630 + n.val) 3 = w.toNat) := by
  refine completes_of_write rfl ⟨by omega, by decide, by simp, by omega, by omega⟩ h fun k t u v ho => ?_
  have heff := (writeEffect_cmpThreshold n _ (some k) t).symm.trans ho.effect
  obtain rfl : devTo (cmpThreshold n.val) (put (0x2630 + n.val) 3 (toLE 4 w.toNat) t) = u := congrArg Prod.snd heff
  have hmeas : v.dev.meas = (cmpThreshold n.val t.dev).meas := ho.part (p := .meas) (by decide)
  refine ⟨?_, ?_⟩
  · rw [hmeas, ← ho.seen.clk]
    exact congrArg Cmp.settle (vget_vmod_same _ _ _ n.isLt)
  · rw [ho.od]
    exact odU_odSet_toLE _ (by decide) (by decide) w.isLt

/-- The end of a comparator's settling. -/
def settleDue (n : Nat) (_ : Od) (d : Dev) : Option Instant := (vget d.meas.cmps n).settle.map Instant.device

theorem cmpSettleEnd_completes {n : Fin 32} {outside : Bool} {s : State} (hsettle : (vget s.dev.meas.cmps n.val).settle.isSome = true)
    (hcount : s.dev.clk.counting = true) (hmode : cmpMode s.od n.val ≠ 0) :
    Completes (.cmpSettleEnd n outside) s (fun u => u.dev.meas.cmpOut.testBit n.val = outside ∧
      (vget u.dev.meas.cmps n.val).settle = none ∧ u.od = s.od) := by
  refine completes_timed (due := settleDue n.val) (f := (cmpSettled · n.val outside)) rfl ?_
  obtain ⟨t, ht⟩ := Option.isSome_iff_exists.1 hsettle
  have hover := le_dt_upTo (s := s) (show settleDue n.val s.od s.dev = some (.device t) by rw [settleDue, ht]; rfl) hcount
  have hmeas : (s.upTo (settleDue n.val)).dev.meas = s.dev.meas := upTo_part _ s (p := .meas) (by decide)
  rw [← hmeas] at ht
  generalize (s.upTo (settleDue n.val)).dev = w at ht hover
  have hset : cmpSettled s.od n.val outside w = cmpSet s.od n.val outside
      { w with meas := { w.meas with cmps := vmod w.meas.cmps n.val (fun c => { c with settle := none }) } } := by
    simp [cmpSettled, ht, not_lt.2 hover, hmode]
  obtain ⟨hout, hkeep⟩ := cmpSet_follows s.od n.val outside
    { w with meas := { w.meas with cmps := vmod w.meas.cmps n.val (fun c => { c with settle := none }) } }
  dsimp only
  rw [hset]
  exact ⟨hout, hkeep.trans (congrArg Cmp.settle (vget_vmod_same _ _ _ n.isLt)), rfl⟩

/-- Settles O43: a comparator that does not settle follows its condition, and a threshold write makes it settle. -/
theorem comparatorsFollow : Obligations.ComparatorsFollow :=
  ⟨fun _ _ _ => comparatorCrossing_completes, fun _ _ _ _ => cmpThresholdWrite_completes, fun _ _ _ => cmpSettleEnd_completes⟩

/-! ### Self-calibration (R373, R374) -/

theorem getAdc_modAdc_same {n : Nat} (f : Adc → Adc) (d : Dev) (h : n < 8) : getAdc (modAdc n f d) n = f (getAdc d n) :=
  vget_vmod_same _ _ _ h

theorem getAdc_modAdc_keeps {P : Adc → Prop} {n m : Nat} {f : Adc → Adc} {d : Dev} (hf : n = m → P (f (getAdc d n)))
    (h : P (getAdc d m)) : P (getAdc (modAdc n f d) m) := by
  by_cases hnm : n = m
  · by_cases hn : n < 8
    · rw [← hnm, getAdc_modAdc_same f d hn]
      exact hf hnm
    · rw [getAdc, modAdc, vmod, vset_beyond _ _ _ (by omega)]
      exact h
  · rw [getAdc, modAdc, vget_vmod_other _ _ hnm]
    exact h

/-- Converter `n` is in a calibration that began at `t`, the present instant. -/
def CalBegun (n t : Nat) (d : Dev) : Prop := d.clk.dt = t ∧ (getAdc d n).cal = .calibrating ∧ (getAdc d n).calFrom = t

theorem calStart_begins {boot : Bool} {mask n : Nat} {d : Dev} (hn : n < 8) (h : mask.testBit n = true) :
    CalBegun n d.clk.dt (calStart boot mask d) := by
  refine forEach_establishes (P := fun e => e.clk.dt = d.clk.dt) ((mem_setBits _ _ _).2 ⟨hn, h⟩) (fun _ _ he => he)
    (fun b e ⟨hclk, hcal, hfrom⟩ => ?_) (fun e he => ?_) rfl
  · exact ⟨hclk, getAdc_modAdc_keeps (P := fun a => a.cal = .calibrating) (fun _ => rfl) hcal,
      getAdc_modAdc_keeps (P := fun a => a.calFrom = d.clk.dt) (fun _ => hclk) hfrom⟩
  · rw [CalBegun, getAdc_modAdc_same _ _ hn]
    exact ⟨he, rfl, he⟩

theorem calStart_completes {via : Via} {mask : BitVec 8} {s : State} (h : accepted via 0x2610 1 [mask] s = true) :
    Completes (.calStart via mask) s (fun u => u.od = s.od ∧
      ∀ n : Fin 8, mask.toNat.testBit n.val = true → (getAdc u.dev n.val).cal = .calibrating ∧ (getAdc u.dev n.val).calFrom = s.dev.clk.dt) := by
  refine completes_of_write rfl ⟨by decide, by decide, by simp, by decide, by decide⟩ h fun k t u v ho => ?_
  have heff : writeEffect (some k) 0x2610 1 [mask] t = calStartWrite mask.toNat t := by rw [← leNat_singleton]; rfl
  refine ⟨ho.od_kept (by rw [heff]; simp), fun n hn => ?_⟩
  obtain ⟨-, rfl⟩ := unlessRefused_accepted (heff.symm.trans ho.effect)
  obtain ⟨-, hcal, hfrom⟩ := calStart_begins (boot := false) (d := t.dev) n.isLt hn
  have hmeas : v.dev.meas = (calStart false mask.toNat t.dev).meas :=
    (ho.part (p := .meas) (by decide)).trans (readyCheck_leaves (p := .meas) (by decide) _ _)
  rw [getAdc, hmeas, ← ho.seen.clk]
  exact ⟨hcal, hfrom⟩

theorem calEnd_ends {o : Od} {ok : Nat → Bool} {n : Nat} {d : Dev} (hn : n ∈ calDue d) (hmeas : d.isOn .meas = true) :
    (getAdc (calEnd o ok d) n).cal = if ok n then .calibrated else .failed := by
  have hlt : n < 8 := by simpa using (List.mem_filter.1 hn).1
  have hne : (calDue d).isEmpty = false := by simpa using List.ne_nil_of_mem hn
  unfold calEnd
  simp only [hne, hmeas, Bool.not_true, Bool.or_self, Bool.false_eq_true, if_false]
  refine (congrArg (fun m : Meas => (vget m.adcs n).cal) (record_leaves (p := .meas) (by decide) _ _ _ _ _)).trans ?_
  refine forEach_establishes (P := fun _ => True) (Q := fun e => (getAdc e n).cal = if ok n then .calibrated else .failed) hn
    (fun _ _ _ => trivial) (fun b e he => getAdc_modAdc_keeps (P := fun a => a.cal = if ok n then .calibrated else .failed) (fun hb => ?_) he)
    (fun e _ => congrArg Adc.cal (getAdc_modAdc_same _ _ hlt)) trivial
  rw [hb]

/-- The converter that has calibrated longest is due once the wait has ended. -/
theorem calDue_upTo {n : Fin 8} {s : State} (hcount : s.dev.clk.counting = true) (hcal : (getAdc s.dev n.val).cal = .calibrating)
    (hfirst : ∀ m : Fin 8, (getAdc s.dev m.val).cal = .calibrating → (getAdc s.dev n.val).calFrom ≤ (getAdc s.dev m.val).calFrom) :
    n.val ∈ calDue (s.upTo calibrationDue).dev := by
  have hmin : (((List.range 8).filter (fun n => (getAdc s.dev n).cal == .calibrating)).map (fun n => (getAdc s.dev n).calFrom)).min?
      = some (getAdc s.dev n.val).calFrom := by
    refine List.min?_eq_some_iff.2 ⟨List.mem_map.2 ⟨n.val, by simp [hcal, n.isLt], rfl⟩, fun b hb => ?_⟩
    obtain ⟨m, hm, rfl⟩ := List.mem_map.1 hb
    obtain ⟨hlt, hm⟩ := List.mem_filter.1 hm
    exact hfirst ⟨m, by simpa using hlt⟩ (by simpa using hm)
  have hover := le_dt_upTo (due := calibrationDue) (s := s) (by rw [calibrationDue, hmin]; rfl) hcount
  have hmeas : (s.upTo calibrationDue).dev.meas = s.dev.meas := upTo_part _ s (p := .meas) (by decide)
  simp only [calDue, getAdc, List.mem_filter, List.mem_range, hmeas] at hcal hover ⊢
  simp [n.isLt, hcal, hover]

theorem adcCalComplete_completes {factors : List CalFactors} {n : Fin 8} {s : State} (hon : s.dev.isOn .meas = true)
    (hcount : s.dev.clk.counting = true) (hcal : (getAdc s.dev n.val).cal = .calibrating)
    (hfirst : ∀ m : Fin 8, (getAdc s.dev m.val).cal = .calibrating → (getAdc s.dev n.val).calFrom ≤ (getAdc s.dev m.val).calFrom) :
    Completes (.adcCalComplete factors) s (fun u => (getAdc u.dev n.val).cal =
      (if factorsOk (factors.getD n.val { offsets := [], gains := [] }) then .calibrated else .failed)) := by
  refine ⟨_, rfl, ?_⟩
  have hmeas := readyCheck_leaves (p := .meas) (by decide) (s.upTo calibrationDue).od
    (calEnd (s.upTo calibrationDue).od (fun n => factorsOk (factors.getD n { offsets := [], gains := [] })) (s.upTo calibrationDue).dev)
  refine (congrArg (fun m : Meas => (vget m.adcs n.val).cal) hmeas).trans ?_
  exact calEnd_ends (calDue_upTo hcount hcal hfirst) (by rwa [upTo_isOn])

/-- Settles O42: a calibration begins for each selected converter and ends with the judgement of its factors. -/
theorem convertersCalibrate : Obligations.ConvertersCalibrate :=
  ⟨fun _ _ _ => calStart_completes, fun _ _ _ => adcCalComplete_completes⟩

/-! ### Triggers and runs (R366 to R370) -/

theorem triggerAt_adc {o : Od} {n t : Nat} {d : Dev} (hn : n < 8) : (getAdc (triggerAt o n t d) n).lastTrig = some t ∧
    ((getAdc d n).run = none → ∃ r, (getAdc (triggerAt o n t d) n).run = some r ∧ r.trig = t ∧ r.entry = 0) ∧
    ((getAdc d n).run.isSome = true → (getAdc (triggerAt o n t d) n).overruns = satInc (getAdc d n).overruns) := by
  have hrec : ∀ code src data e, getAdc (record o code src data e) n = getAdc e n := fun code src data e =>
    congrArg (fun m : Meas => vget m.adcs n) (record_leaves (p := .meas) (by decide) o code src data e)
  have hfresh : getAdc d.fresh n = getAdc d n := rfl
  cases hrun : (getAdc d n).run with
  | some r =>
    unfold triggerAt
    dsimp only
    rw [hrun, Option.isSome_some, if_pos rfl]
    split <;> simp [hrec, getAdc_modAdc_same _ _ hn]
  | none =>
    unfold triggerAt
    dsimp only
    rw [hrun, Option.isSome_none, if_neg Bool.false_ne_true]
    split <;> simp [hrec, getAdc_modAdc_same _ _ hn]

theorem adcTrigger_completes {n : Fin 8} {s : State} {t : Nat} (hen : adcEnabled s.od n.val = true)
    (hcan : canConvert (s.upTo (adcDue n.val)).dev n.val = true) (htrig : triggerInstant s.od n.val (s.upTo (adcDue n.val)).dev = some t) :
    Completes (.adcTrigger n) s (fun u => u.od = s.od ∧ (getAdc u.dev n.val).lastTrig = some t ∧
      ((getAdc s.dev n.val).run = none → ∃ r, (getAdc u.dev n.val).run = some r ∧ r.trig = t ∧ r.entry = 0) ∧
      ((getAdc s.dev n.val).run.isSome = true → (getAdc u.dev n.val).overruns = satInc (getAdc s.dev n.val).overruns)) := by
  refine completes_timed (due := adcDue n.val) (f := (adcTriggered · n.val)) rfl ⟨rfl, ?_⟩
  have hadc : getAdc (s.upTo (adcDue n.val)).dev n.val = getAdc s.dev n.val :=
    congrArg (fun m : Meas => vget m.adcs n.val) (upTo_part _ s (p := .meas) (by decide))
  have hstep : adcTriggered s.od n.val (s.upTo (adcDue n.val)).dev = triggerAt s.od n.val t (s.upTo (adcDue n.val)).dev := by
    simp [adcTriggered, hen, hcan, htrig]
  dsimp only
  rw [hstep, ← hadc]
  exact triggerAt_adc n.isLt

theorem writeEffect_swTrigger (n : Fin 8) (b : Bytes) (session : Option Nat) (s : State) :
    writeEffect session (adcIx n.val) 0x0D b s = swTriggerWrite n.val s := by
  fin_cases n <;> rfl

theorem swTrigger_completes {via : Via} {n : Fin 8} {s : State} (h : accepted via (adcIx n.val) 0x0D [1] s = true) :
    Completes (.swTrigger via n) s (fun u => u.od = s.od ∧ ∃ r, (getAdc u.dev n.val).run = some r ∧ r.trig = s.dev.clk.dt) := by
  have hix : adcIx n.val = 0x2601 + n.val := rfl
  refine completes_of_write rfl ⟨by omega, by decide, by simp, by omega, by omega⟩ h fun k t u v ho => ?_
  have heff := (writeEffect_swTrigger n _ (some k) t).symm.trans ho.effect
  refine ⟨ho.od_kept (by rw [writeEffect_swTrigger]; simp), ?_⟩
  obtain ⟨hnone, rfl⟩ := unlessRefused_accepted heff
  have hidle : (getAdc t.dev n.val).run = none := by
    unfold swTriggerRefusal at hnone
    split at hnone
    · cases hnone
    · rename_i hr
      simp only [Bool.or_eq_true, not_or] at hr
      simpa using hr.2
  obtain ⟨r, hrun, htrig, -⟩ := (triggerAt_adc (o := t.od) (t := t.dev.clk.dt) n.isLt).2.1 hidle
  have hmeas : v.dev.meas = (triggerAt t.od n.val t.dev.clk.dt t.dev).meas := ho.part (p := .meas) (by decide)
  rw [getAdc, hmeas, ← ho.seen.clk]
  exact ⟨r, hrun, htrig⟩

theorem writeEffect_adcEnable (n : Fin 8) (on : Bool) (session : Option Nat) (s : State) :
    writeEffect session (adcIx n.val) 1 [if on then 1 else 0] s = adcEnableWr n.val on s := by
  fin_cases n <;> cases on <;> rfl

/-- After an accepted write of ENABLE the converter is enabled as the write says. -/
theorem adcEnableWr_enabled {n : Nat} {on : Bool} {s u : State} (h : adcEnableWr n on s = (none, u)) : adcEnabled u.od n = on := by
  have hput : adcEnabled (odSet s.od (adcIx n) 1 [b8 (if on then 1 else 0)]) n = on := by
    rw [adcEnabled, odU, odGet_odSet_same _ (by decide) (by simp)]
    cases on <;> rfl
  unfold adcEnableWr at h
  dsimp only at h
  split_ifs at h with hsame hon
  · obtain rfl := congrArg Prod.snd h
    exact (beq_iff_eq.1 hsame).symm
  · obtain ⟨-, rfl⟩ := unlessRefused_accepted h
    subst hon
    exact hput
  · cases h
  · obtain rfl := congrArg Prod.snd h
    obtain rfl := Bool.eq_false_iff.2 hon
    exact hput

theorem adcEnable_completes {via : Via} {n : Fin 8} {s : State} (h : accepted via (adcIx n.val) 1 [1] s = true) :
    Completes (.adcEnable via n) s (fun u => adcEnabled u.od n.val = true) := by
  have hix : adcIx n.val = 0x2601 + n.val := rfl
  refine completes_of_write rfl ⟨by omega, by decide, by simp, by omega, by omega⟩ h fun k t u v ho => ?_
  rw [ho.od]
  exact adcEnableWr_enabled ((writeEffect_adcEnable n true (some k) t).symm.trans ho.effect)

theorem adcDisable_completes {via : Via} {n : Fin 8} {s : State} (h : accepted via (adcIx n.val) 1 [0] s = true) :
    Completes (.adcDisable via n) s (fun u => adcEnabled u.od n.val = false) := by
  have hix : adcIx n.val = 0x2601 + n.val := rfl
  refine completes_of_write rfl ⟨by omega, by decide, by simp, by omega, by omega⟩ h fun k t u v ho => ?_
  rw [ho.od]
  exact adcEnableWr_enabled ((writeEffect_adcEnable n false (some k) t).symm.trans ho.effect)

/-- The value of an entry: the sum of its corrected samples, shifted (R368). -/
def entrySum (o : Od) (n e : Nat) (samples : List Int) : Int :=
  (samples.map (correct o n (seqEntry o n e).gain)).sum / (2 ^ (seqEntry o n e).shift : Int)

/-- What a converter holds once the result of the entry of its run stands. -/
theorem entryResult_adc {o : Od} {n : Nat} {samples : List Int} {d : Dev} {r : AdcRun} (hn : n < 8) (hentry : r.entry < 16)
    (hrun : (getAdc d n).run = some r) (hen : adcEnabled o n = true) (hcan : canConvert d n = true)
    (hlen : samples.length = (seqEntry o n r.entry).samples) (hover : r.first + resultOf o n r.entry ≤ d.clk.dt) :
    let a := getAdc (entryResult o n samples d) n
    vget a.entries r.entry = { value := ofSigned 16 (clampI (-32768) 32767 (entrySum o n r.entry samples))
                               time := r.first + holdOf o n r.entry, trig := some r.trig } ∧
    (r.entry + 1 = seqLen o n → a.run = none ∧ a.seqCount = wrapInc (getAdc d n).seqCount) ∧
    (r.entry + 1 ≠ seqLen o n → a.run = some { r with entry := r.entry + 1 }) := by
  have hcons : ∀ e time d', getAdc (resultConsumers o n e time d') n = getAdc d' n := fun e time d' =>
    congrArg (fun m : Meas => vget m.adcs n) (resultConsumers_leaves (p := .meas) (by decide) o n e time d')
  unfold entryResult
  simp only [hrun, hen, hcan, hlen, Bool.not_true, Bool.or_self, bne_self_eq_false, not_lt.2 hover, decide_false,
    Bool.false_eq_true, if_false]
  rw [hcons, getAdc_modAdc_same _ _ hn]
  exact ⟨by simp [hentry, entrySum], fun hlast => by simp [hlast], fun hlast => by simp [hlast]⟩

/-- The instant of the result of a converter's run. -/
def entryDue (n : Nat) (o : Od) (d : Dev) : Option Instant := (getAdc d n).run.map (fun r => .device (r.first + resultOf o n r.entry))

theorem adcEntryResult_completes {n : Fin 8} {samples : List Int} {s : State} {r : AdcRun} (hrun : (getAdc s.dev n.val).run = some r)
    (hen : adcEnabled s.od n.val = true) (hcan : canConvert s.dev n.val = true)
    (hlen : samples.length = (seqEntry s.od n.val r.entry).samples) (hentry : r.entry < 16) :
    Completes (.adcEntryResult n samples) s (fun u => u.od = s.od ∧
      vget (getAdc u.dev n.val).entries r.entry = { value := ofSigned 16 (clampI (-32768) 32767 (entrySum s.od n.val r.entry samples))
                                                    time := r.first + holdOf s.od n.val r.entry, trig := some r.trig } ∧
      (r.entry + 1 = seqLen s.od n.val → (getAdc u.dev n.val).run = none ∧
        (getAdc u.dev n.val).seqCount = wrapInc (getAdc s.dev n.val).seqCount) ∧
      (r.entry + 1 ≠ seqLen s.od n.val → (getAdc u.dev n.val).run = some { r with entry := r.entry + 1 })) := by
  refine completes_timed (due := entryDue n.val) (f := (entryResult · n.val samples)) rfl ⟨rfl, ?_⟩
  have hmeas : (s.upTo (entryDue n.val)).dev.meas = s.dev.meas := upTo_part _ s (p := .meas) (by decide)
  have hadc : getAdc (s.upTo (entryDue n.val)).dev n.val = getAdc s.dev n.val := congrArg (fun m : Meas => vget m.adcs n.val) hmeas
  have hcount : s.dev.clk.counting = true := by
    simp only [canConvert, Bool.and_eq_true] at hcan
    exact hcan.1.2
  have hover := le_dt_upTo (due := entryDue n.val) (s := s) (by rw [entryDue, hrun]; rfl) hcount
  have hcan' : canConvert (s.upTo (entryDue n.val)).dev n.val = true := by
    rw [canConvert, upTo_isOn, upTo_counting, hadc]
    exact hcan
  rw [← hadc] at hrun ⊢
  exact entryResult_adc n.isLt hentry hrun hen hcan' hlen hover

/-- Settles O41: a trigger begins a run or counts an overrun, and the result of each entry goes on to the next or ends the run. -/
theorem convertersRun : Obligations.ConvertersRun :=
  ⟨fun _ _ _ => adcTrigger_completes, fun _ _ _ _ => adcEntryResult_completes, fun _ _ _ => swTrigger_completes,
    fun _ _ _ => adcEnable_completes, fun _ _ _ => adcDisable_completes⟩

end Sys2Proof.Machine
end

section
/-! The control engine: the commands of its instances (O40), and their triggers, computations and cut-offs (O39). -/
namespace Sys2Proof.Machine

/-! ### The instances beside their flags and measurements -/

/-- One of the instances but for its flags and its measurement slots. -/
def CeInst.core (i : CeInst) : CeInst := { i with flags := 0, meas := Vector.replicate 12 {} }

theorem getCe_of_engine {d e : Dev} (h : d.engine = e.engine) (n : Nat) : getCe d n = getCe e n := by rw [getCe, getCe, h]

theorem getCe_modCe_same {n : Nat} (f : CeInst → CeInst) (d : Dev) (h : n < 16) : getCe (modCe n f d) n = f (getCe d n) :=
  vget_vmod_same _ _ _ h

@[simp] theorem getCe_record (o : Od) (code src : Nat) (data : Bytes) (d : Dev) (n : Nat) : getCe (record o code src data d) n = getCe d n :=
  getCe_of_engine (record_leaves (p := .engine) (by decide) o code src data d) n

/-- A change of one of the instances that keeps a property keeps it of each, whichever changes. -/
theorem getCe_modCe_keeps {α : Type} {g : CeInst → α} {f : CeInst → CeInst} (hf : ∀ i, g (f i) = g i) (n m : Nat) (d : Dev) :
    g (getCe (modCe m f d) n) = g (getCe d n) :=
  vget_vmod_keeps (P := fun i => g i = g (getCe d n)) _ m n f (fun h => (hf _).trans h) rfl

@[simp] theorem ceFlag_core (o : Od) (m bits : Nat) (d : Dev) (n : Nat) : (getCe (ceFlag o m bits d) n).core = (getCe d n).core := by
  unfold ceFlag
  dsimp only
  split
  · rfl
  · rw [getCe_record]
    exact getCe_modCe_keeps (g := CeInst.core) (by intro i; rfl) n m d

@[simp] theorem ceActivate_frame (o : Od) (n : Nat) (b : Bytes) (mode at_ : Nat) (d : Dev) (h : n < 16) :
    getCe (ceActivate o n b mode at_ d) n =
      { getCe d n with bank := b, commit := none, xbar := if mode = 1 then ceX0 o n else (getCe d n).xbar } := by
  rw [ceActivate, getCe_record, getCe_modCe_same _ _ h]

/-! ### Commands (R359, R360, R342) -/

/-- The code of a control command as the write of CONTROL reads it. -/
theorem writeEffect_ceControl (n : Fin 16) (session : Option Nat) (s : State) :
    writeEffect session (ceIx n.val) 1 (toLE 4 0x62616E65) s = ceControlWrite n.val 0 s ∧
    writeEffect session (ceIx n.val) 1 (toLE 4 0x61736964) s = ceControlWrite n.val 1 s ∧
    writeEffect session (ceIx n.val) 1 (toLE 4 0x74657372) s = ceControlWrite n.val 2 s ∧
    writeEffect session (ceIx n.val) 1 (toLE 4 0x6D757372) s = ceControlWrite n.val 3 s := by
  fin_cases n <;> exact ⟨rfl, rfl, rfl, rfl⟩

/-- The pending command after a control write that pends one. -/
theorem cePend_pending {n : Nat} (p : CePending) (d : Dev) (h : n < 16) : (getCe (cePend n p d) n).pending = some p := by
  rw [cePend, getCe_modCe_same _ _ h]

theorem ceDisable_disables {o : Od} {n : Nat} {d : Dev} (h : n < 16) :
    (getCe (ceDisable o n d) n).state = .disabled ∧ (getCe (ceDisable o n d) n).pending = none := by
  unfold ceDisable
  dsimp only
  cases (getCe d n).commit with
  | none => split <;> simp [getCe_modCe_same _ _ h]
  | some x => split <;> simp [getCe_modCe_same _ _ h, h]

theorem plainRow_ce (n : Fin 16) {sub : Nat} {b : Bytes} (hsub : sub < 2 ^ 8) (hb : b.length < 2 ^ 32) : PlainRow (ceIx n.val) sub b := by
  have hix : ceIx n.val = 0x2810 + n.val := rfl
  exact ⟨by omega, hsub, hb, by omega, by omega⟩

/-- A row whose write of CONTROL pends a command. -/
theorem cePend_completes {c : Instr} {via : Via} {n : Fin 16} {b : Bytes} {cmd : Nat} {p : CePending} {s : State}
    (hexec : exec c s = acts (hostWrite via (ceIx n.val) 1 b) s) (hb : b.length < 2 ^ 32)
    (hw : ∀ k t, writeEffect (some k) (ceIx n.val) 1 b t =
      unlessRefused (ceControlRefusal t.od n.val cmd t.dev) t (devTo (cePend n.val p) t))
    (h : accepted via (ceIx n.val) 1 b s = true) : Completes c s (fun u => (getCe u.dev n.val).pending = some p ∧ u.od = s.od) := by
  refine completes_of_write hexec (plainRow_ce n (by decide) hb) h fun k t u v ho => ?_
  obtain ⟨-, rfl⟩ := unlessRefused_accepted ((hw k t).symm.trans ho.effect)
  rw [getCe_of_engine (ho.part (p := .engine) (by decide))]
  exact ⟨cePend_pending _ _ n.isLt, ho.od_kept (by rw [hw]; simp)⟩

theorem ceDisa_completes {via : Via} {n : Fin 16} {s : State} (h : accepted via (ceIx n.val) 1 (toLE 4 0x61736964) s = true) :
    Completes (.ceDisa via n) s (fun u => (getCe u.dev n.val).state = .disabled ∧ (getCe u.dev n.val).pending = none ∧ u.od = s.od) := by
  refine completes_of_write rfl (plainRow_ce n (by decide) (by simp)) h fun k t u v ho => ?_
  have hw := (writeEffect_ceControl n (some k) t).2.1
  obtain ⟨-, rfl⟩ := unlessRefused_accepted (hw.symm.trans ho.effect)
  rw [getCe_of_engine (ho.part (p := .engine) (by decide))]
  obtain ⟨hstate, hpending⟩ := ceDisable_disables (o := t.od) (d := t.dev) n.isLt
  exact ⟨hstate, hpending, ho.od_kept (by rw [hw]; simp)⟩

theorem writeEffect_ceCommit (n : Fin 16) (b : Bytes) (session : Option Nat) (s : State) :
    writeEffect session (ceIx n.val) 0x15 b s = ceCommitWrite n.val s := by
  fin_cases n <;> rfl

theorem ceCommit_takes {o : Od} {n : Nat} {d : Dev} (h : n < 16) :
    ((getCe d n).state = .disabled → (getCe (ceCommit o n d) n).bank = odGet o (ceIx n) 0x13) ∧
    ((getCe d n).state ≠ .disabled → (getCe (ceCommit o n d) n).commit = some (odGet o (ceIx n) 0x13, odU o (ceIx n) 0x16)) := by
  refine ⟨fun hs => ?_, fun hs => ?_⟩
  · simp [ceCommit, hs, ceActivate_frame, h]
  · simp [ceCommit, hs, getCe_modCe_same _ _ h]

theorem ceCommit_completes {via : Via} {n : Fin 16} {s : State} (h : accepted via (ceIx n.val) 0x15 (toLE 4 0x74696D63) s = true) :
    Completes (.ceCommit via n) s (fun u => u.od = s.od ∧
      ((getCe s.dev n.val).state = .disabled → (getCe u.dev n.val).bank = odGet s.od (ceIx n.val) 0x13) ∧
      ((getCe s.dev n.val).state ≠ .disabled →
        (getCe u.dev n.val).commit = some (odGet s.od (ceIx n.val) 0x13, odU s.od (ceIx n.val) 0x16))) := by
  refine completes_of_write rfl (plainRow_ce n (by decide) (by simp)) h fun k t u v ho => ?_
  have hw := writeEffect_ceCommit n (toLE 4 0x74696D63) (some k) t
  obtain ⟨-, rfl⟩ := unlessRefused_accepted (hw.symm.trans ho.effect)
  have hs : getCe t.dev n.val = getCe s.dev n.val := getCe_of_engine (ho.seen.part (p := .engine) (by decide)) _
  rw [getCe_of_engine (ho.part (p := .engine) (by decide)), ← hs, ← ho.seen.od]
  exact ⟨ho.seen.od ▸ ho.od_kept (by rw [hw]; simp), ceCommit_takes n.isLt⟩

theorem writeEffect_ceDimension (n : Fin 16) (w : Fin 3) (b : Bytes) (session : Option Nat) (s : State) :
    writeEffect session (ceIx n.val) (3 + w.val) b s = dimensionWrite n.val (3 + w.val) b s := by
  fin_cases n <;> fin_cases w <;> rfl

/-- An object that is not among those erased reads as before. -/
theorem odGet_foldl_odErase {ix : Nat} {subs : List Nat} {jx jsub : Nat} (h : ∀ k ∈ subs, odKey ix k ≠ odKey jx jsub) (o : Od) :
    odGet (subs.foldl (fun o k => odErase (odKey ix k) o) o) jx jsub = odGet o jx jsub := by
  induction subs generalizing o with
  | nil => rfl
  | cons k subs ih =>
    rw [List.foldl_cons, ih fun j hj => h j (List.mem_cons_of_mem k hj)]
    unfold odGet
    rw [odFind_odErase_other o (h k (List.mem_cons_self ..))]

theorem ceDimensionWrite_completes {via : Via} {n : Fin 16} {w : Fin 3} {x : BitVec 8} {s : State}
    (h : accepted via (ceIx n.val) (3 + w.val) [x] s = true) :
    Completes (.ceDimensionWrite via n w x) s (fun u => odU u.od (ceIx n.val) (3 + w.val) = x.toNat ∧
      (getCe u.dev n.val).bank = [] ∧ (getCe u.dev n.val).xhat = []) := by
  refine completes_of_write rfl (plainRow_ce n (by omega) (by simp)) h fun k t u v ho => ?_
  have hw := (writeEffect_ceDimension n w [x] (some k) t).symm.trans ho.effect
  obtain rfl := congrArg Prod.snd hw
  have hkeep : ∀ k ∈ dimensionSubs, odKey (ceIx n.val) k ≠ odKey (ceIx n.val) (3 + w.val) := by
    have hw := w.isLt
    simp only [dimensionSubs, odKey, List.forall_mem_cons, List.not_mem_nil, false_imp_iff, implies_true, and_true]
    omega
  refine ⟨?_, ?_⟩
  · rw [ho.od, odU]
    refine (congrArg leNat ((odGet_foldl_odErase hkeep _).trans (odGet_odSet_same _ (by omega) (by simp)))).trans (leNat_singleton x)
  · rw [getCe_of_engine (ho.part (p := .engine) (by decide))]
    have hce : getCe (ceDimension n.val t.dev) n.val = _ := getCe_modCe_same _ t.dev n.isLt
    exact ⟨congrArg CeInst.bank hce, congrArg CeInst.xhat hce⟩

/-- Settles O40: each row has the effect of its write on the one that it names. -/
theorem controlEngineTakesCommands : Obligations.ControlEngineTakesCommands :=
  ⟨fun _ n _ => cePend_completes rfl (by simp) fun k t => (writeEffect_ceControl n (some k) t).1, fun _ _ _ => ceDisa_completes,
    fun _ n _ => cePend_completes rfl (by simp) fun k t => (writeEffect_ceControl n (some k) t).2.2.1,
    fun _ n _ => cePend_completes rfl (by simp) fun k t => (writeEffect_ceControl n (some k) t).2.2.2,
    fun _ _ _ => ceCommit_completes, fun _ _ _ _ _ => ceDimensionWrite_completes⟩

/-! ### What the parts of a sample leave of the instances -/

theorem forEach_eq {α β : Type} (g : Dev → β) {l : List α} {f : α → Dev → Dev} (d : Dev) (hf : ∀ a e, g (f a e) = g e) :
    g (forEach l f d) = g d := forEach_keeps (P := fun e => g e = g d) (fun a _ e he => (hf a e).trans he) rfl

@[simp] theorem cePass_core (m : Nat) (d : Dev) (n : Nat) : (getCe (cePass m d) n).core = (getCe d n).core :=
  getCe_modCe_keeps (g := CeInst.core) (by intro i; rfl) n m d

@[simp] theorem ceTake_core (o : Od) (m t : Nat) (d : Dev) (n : Nat) : (getCe (ceTake o m t d) n).core = (getCe d n).core :=
  forEach_eq (fun e => (getCe e n).core) d fun _ e => getCe_modCe_keeps (g := CeInst.core) (by intro i; rfl) n m e

@[simp] theorem ceTakeAdc_core (o : Od) (m : Nat) (d : Dev) (n : Nat) : (getCe (ceTakeAdc o m d) n).core = (getCe d n).core := by
  refine forEach_eq (fun e => (getCe e n).core) d fun j e => ?_
  rcases ceSource o m j with ⟨k, a⟩
  dsimp only
  split_ifs
  · rfl
  · rw [ceFlag_core]
    exact getCe_modCe_keeps (g := CeInst.core) (by intro i; rfl) n m e
  · exact getCe_modCe_keeps (g := CeInst.core) (by intro i; rfl) n m e
  · rfl

/-- What the judgement of a sample's freshness leaves of the instances. -/
def CeInst.unjudged (i : CeInst) : CeInst :=
  { i.core with judged := false, state := .disabled, predictRun := 0, sampled := false, predicted := 0 }

theorem unjudged_of_core {i j : CeInst} (h : i.core = j.core) : i.unjudged = j.unjudged := by
  rw [CeInst.unjudged, CeInst.unjudged, h]

theorem ceJudge_unjudged (o : Od) (m : Nat) (d : Dev) (n : Nat) : (getCe (ceJudge o m d) n).unjudged = (getCe d n).unjudged := by
  have hmod : ∀ f : CeInst → CeInst, (∀ i, (f i).unjudged = i.unjudged) → ∀ e, (getCe (modCe m f e) n).unjudged = (getCe e n).unjudged :=
    fun f hf e => getCe_modCe_keeps hf n m e
  have hflag : ∀ bits e, (getCe (ceFlag o m bits e) n).unjudged = (getCe e n).unjudged := fun bits e => unjudged_of_core (ceFlag_core o m bits e n)
  unfold ceJudge
  dsimp only
  have hjudged : ∀ bits (meas : CeInst → Vector CeMeas 12), (getCe (ceFlag o m bits (modCe m (fun i => { i with judged := true, meas := meas i })
      (ceTakeAdc o m d))) n).unjudged = (getCe d n).unjudged := fun bits meas => by
    rw [hflag, hmod _ (by intro i; rfl), unjudged_of_core (ceTakeAdc_core o m d n)]
  split
  · split
    · rw [hmod _ (by intro i; rfl)]
      exact hjudged _ _
    · rw [getCe_record, hmod _ (by intro i; rfl)]
      exact hjudged _ _
  · split
    · rw [getCe_record, hmod _ (by intro i; rfl)]
      exact hjudged _ _
    · split
      · rw [getCe_record, hmod _ (by intro i; rfl)]
        exact hjudged _ _
      · rw [hmod _ (by intro i; rfl)]
        exact hjudged _ _

/-! ### Triggers (R349, R350) -/

/-- The trigger of the present period start is taken: the divider hits, or there is a role (R349). -/
structure CeDue (o : Od) (n : Nat) (d : Dev) : Prop where
  ctrl : d.isOn .ctrl = true
  running : d.sched.running = true
  counted : d.sched.count ≠ 0
  fresh : (getCe d n).trig ≠ some d.sched.last
  hits : ceRole o n = true ∨ (d.sched.count - 1) % 2 ^ 32 % odU o (ceIx n) 6 = 0

theorem CeDue.open {o : Od} {n : Nat} {d : Dev} (h : CeDue o n d) :
    (!d.isOn .ctrl || !d.sched.running || d.sched.count == 0 || (getCe d n).trig == some d.sched.last
      || (!ceRole o n && (d.sched.count - 1) % 2 ^ 32 % odU o (ceIx n) 6 != 0)) = false := by
  have hhits : (!ceRole o n && (d.sched.count - 1) % 2 ^ 32 % odU o (ceIx n) 6 != 0) = false := by
    rcases h.hits with hr | hr
    · rw [hr]
      rfl
    · rw [hr, bne_self_eq_false, Bool.and_false]
  rw [hhits, Bool.or_false]
  simp [h.ctrl, h.running, h.counted, h.fresh]

theorem ceTrigger_trig {o : Od} {n : Nat} {d : Dev} (hn : n < 16) (h : CeDue o n d) :
    (getCe (ceTrigger o n d) n).trig = some d.sched.last := by
  have hpass : ∀ e, (getCe (cePass n e) n).trig = (getCe e n).trig := fun e => (congrArg CeInst.trig (cePass_core n e n) :)
  have hflag : ∀ b e, (getCe (ceFlag o n b e) n).trig = (getCe e n).trig := fun b e => (congrArg CeInst.trig (ceFlag_core o n b e n) :)
  have htake : ∀ t e, (getCe (ceTake o n t e) n).trig = (getCe e n).trig := fun t e => (congrArg CeInst.trig (ceTake_core o n t e n) :)
  have hjudge : ∀ e, (getCe (ceJudge o n e) n).trig = (getCe e n).trig := fun e => (congrArg CeInst.trig (ceJudge_unjudged o n e n) :)
  unfold ceTrigger
  extract_lets i t role d1 d2 j run d3 d4 d5
  rw [if_neg (Bool.eq_false_iff.1 h.open)]
  clear_value d1 d2
  split
  · simp [t, hpass, getCe_modCe_same _ _ hn]
  · split
    · simp [t, hpass, getCe_modCe_same _ _ hn]
    · split
      · split <;> simp [t, d3, hpass, hflag, getCe_modCe_same _ _ hn]
      · have hd4 : (getCe d4 n).trig = some d.sched.last := by simp [t, d4, htake, getCe_modCe_same _ _ hn]
        have hd5 : (getCe d5 n).trig = some d.sched.last := by
          simp only [d5]
          split <;> simp [hd4]
        split <;> simp [hjudge, hd5]

/-- One of the instances that runs on at its trigger: no command and no commit takes effect, and it is not in HOLD (R350). -/
structure CeRunsOn (i : CeInst) : Prop where
  enabled : i.state ≠ .disabled
  notHeld : i.state ≠ .hold
  noCommand : i.pending = none
  noCommit : i.commit = none

/-- A trigger that comes while the previous computation is unfinished is skipped, and counted. -/
theorem ceTrigger_skips {o : Od} {n : Nat} {d : Dev} (hn : n < 16) (h : CeDue o n d) (hr : CeRunsOn (getCe d n))
    (hsampled : (getCe d n).sampled = true) (hdone : (getCe d n).done = false) :
    (getCe (ceTrigger o n d) n).core = { (getCe d n).core with
      resumed := false, trig := some d.sched.last, skipRun := (getCe d n).skipRun + 1, skipped := satInc (getCe d n).skipped } := by
  unfold ceTrigger
  extract_lets i t role d1 d2 j run d3 d4 d5
  have hd1 : d1 = d := by simp only [d1, i, hr.noCommit]
  have hd2 : d2 = modCe n (fun i => { i with resumed := false }) d := by simp only [d2, i, hr.noCommand, hd1]
  have hj : j = { getCe d n with resumed := false } := by
    simp only [j, hd2]
    exact getCe_modCe_same _ _ hn
  have hd3 : (getCe d3 n).core = { (getCe d n).core with
      resumed := false, trig := some d.sched.last, skipRun := (getCe d n).skipRun + 1, skipped := satInc (getCe d n).skipped } := by
    simp only [d3, ceFlag_core, cePass_core, hd2, getCe_modCe_same _ _ hn, run, hj]
    rfl
  rw [if_neg (Bool.eq_false_iff.1 h.open), if_neg (by simp [i, hr.enabled]), if_neg (by simp [hj, hr.notHeld]),
    if_pos (by simp [hj, hsampled, hdone])]
  split
  · rw [getCe_record, hd3]
  · exact hd3

/-- A trigger that finds its computation over samples: the cut-off is set, and the computation is to begin with the active bank. -/
theorem ceTrigger_takes {o : Od} {n : Nat} {d : Dev} (hn : n < 16) (h : CeDue o n d) (hr : CeRunsOn (getCe d n))
    (hfree : (getCe d n).sampled = false ∨ (getCe d n).done = true) :
    (getCe (ceTrigger o n d) n).cut = some (ceCutOf o n d d.sched.last) ∧ (getCe (ceTrigger o n d) n).done = false ∧
    (getCe (ceTrigger o n d) n).work = (getCe d n).bank ∧ (ceRole o n = true → (getCe (ceTrigger o n d) n).sampled = true) := by
  unfold ceTrigger
  extract_lets i t role d1 d2 j run d3 d4 d5
  have hd1 : d1 = d := by simp only [d1, i, hr.noCommit]
  have hd2 : d2 = modCe n (fun i => { i with resumed := false }) d := by simp only [d2, i, hr.noCommand, hd1]
  have hj : j = { getCe d n with resumed := false } := by
    simp only [j, hd2]
    exact getCe_modCe_same _ _ hn
  have hd4 : (getCe d4 n).core = ({ getCe d n with
      resumed := false, trig := some t, cut := some (ceCutOf o n d t), sampled := true, judged := false, done := false, late := false
      work := (getCe d n).bank, skipRun := 0, roleReady := false } : CeInst).core := by
    simp only [d4, ceTake_core, getCe_modCe_same _ _ hn, hd2]
  have hd5 : (getCe d5 n).core = (getCe d4 n).core := by
    simp only [d5]
    split
    · rfl
    · rw [getCe_record]
  have hcore := hd5.trans hd4
  have hunjudged := (ceJudge_unjudged o n d5 n).trans (unjudged_of_core hcore)
  have hbusy : (j.sampled && !j.done) = false := by rcases hfree with hf | hf <;> simp [hj, hf]
  rw [if_neg (Bool.eq_false_iff.1 h.open), if_neg (by simp [i, hr.enabled]), if_neg (by simp [hj, hr.notHeld]),
    if_neg (Bool.eq_false_iff.1 hbusy)]
  split
  · exact ⟨(congrArg CeInst.cut hcore :), (congrArg CeInst.done hcore :), (congrArg CeInst.work hcore :),
      fun _ => (congrArg CeInst.sampled hcore :)⟩
  · rename_i hrole
    refine ⟨(congrArg CeInst.cut hunjudged :), (congrArg CeInst.done hunjudged :), (congrArg CeInst.work hunjudged :), fun hx => ?_⟩
    exact absurd (by simp [role, hx]) hrole

/-! ### Computations (R351) -/

/-- The control law completes a computation, and sets its values alone. -/
theorem ceLaw_core (o : Od) {n : Nat} (d : Dev) (hn : n < 16) : ∃ y x u c, (getCe (ceLaw o n d) n).core =
    { (getCe d n).core with y := y, xhat := x, u := u, clampHit := c, done := true } := by
  unfold ceLaw
  extract_lets i N m p ys mon sub y e ev xh xv v lim u clamp bits
  refine ⟨y, xv, u, clamp, ?_⟩
  rw [ceFlag_core, getCe_modCe_same _ _ hn]
  rfl

/-- A prediction sets the predicted state, and the sample is over. -/
theorem cePredict_core (o : Od) {n : Nat} (d : Dev) (hn : n < 16) : ∃ x, (getCe (cePredict o n d) n).core =
    { (getCe d n).core with xbar := x, sampled := false, late := false } := by
  unfold cePredict
  extract_lets i N m p aw ua rows d1
  have hd1 : (getCe d1 n).core = { (getCe d n).core with xbar := rows.map (·.1), sampled := false, late := false } := by
    simp only [d1]
    rw [getCe_modCe_same _ _ hn]
    rfl
  refine ⟨rows.map (·.1), ?_⟩
  split
  · rw [ceFlag_core, hd1]
  · exact hd1

/-- Without a monitor no measurement is lost or frozen: the sample is judged good and stays. -/
theorem ceJudge_unmonitored {o : Od} {n : Nat} {d : Dev} (hn : n < 16) (h : ceMonitor o n = 0) :
    (getCe (ceJudge o n d) n).sampled = (getCe d n).sampled := by
  have hnone : bitsOf 12 (fun _ => false) = 0 := rfl
  have htake : (getCe (ceTakeAdc o n d) n).sampled = (getCe d n).sampled := (congrArg CeInst.sampled (ceTakeAdc_core o n d n) :)
  have hflag : ∀ bits e, (getCe (ceFlag o n bits e) n).sampled = (getCe e n).sampled := fun bits e =>
    (congrArg CeInst.sampled (ceFlag_core o n bits e n) :)
  unfold ceJudge
  simp only [h, Nat.zero_testBit, Bool.false_and, hnone, and_self, if_true]
  split
  · rw [getCe_modCe_same _ _ hn, hflag, getCe_modCe_same _ _ hn]
    exact htake
  · rw [getCe_record, getCe_modCe_same _ _ hn, hflag, getCe_modCe_same _ _ hn]
    exact htake

theorem ceComputeDone_done {o : Od} {n : Nat} {d : Dev} (hn : n < 16) (hctrl : d.isOn .ctrl = true) (hsampled : (getCe d n).sampled = true)
    (hdone : (getCe d n).done = false) (hrole : ceRole o n = true → (getCe d n).roleReady = true)
    (hjudged : (getCe d n).judged = true ∨ ceMonitor o n = 0) : (getCe (ceComputeDone o n d) n).done = true := by
  have hready : (ceRole o n && !(getCe d n).roleReady) = false := by
    cases hr : ceRole o n
    · rfl
    · rw [hrole hr]
      rfl
  unfold ceComputeDone
  extract_lets i d1 d2
  have hkeeps : (getCe d1 n).sampled = true := by
    simp only [d1]
    split
    · exact hsampled
    · rename_i hj
      have hmon : ceMonitor o n = 0 := hjudged.resolve_left fun hx => hj (by simp [i, hx])
      rw [ceJudge_unmonitored hn hmon, hsampled]
  have hlaw : (getCe d2 n).done = true := by
    obtain ⟨_, _, _, _, hcore⟩ := ceLaw_core o d1 hn
    exact (congrArg CeInst.done hcore :)
  rw [if_neg (by simp [i, hctrl, hsampled, hdone, hready]), if_neg (by simp [hkeeps])]
  split
  · obtain ⟨x, hx⟩ := cePredict_core o d2 hn
    exact (congrArg CeInst.done hx :).trans hlaw
  · exact hlaw

/-- Before the cut-off, its end does nothing. -/
theorem ceCutoff_early {o : Od} {n : Nat} {d : Dev} (h : ∀ t, (getCe d n).cut = some t → d.clk.dt < t) : ceCutoff o n d = d := by
  unfold ceCutoff
  dsimp only
  cases hc : (getCe d n).cut with
  | none => rfl
  | some t => exact if_pos (h t hc)

theorem ceComputeDone_completes {n : Fin 16} {s : State} (hctrl : s.dev.isOn .ctrl = true) (hsampled : (getCe s.dev n.val).sampled = true)
    (hdone : (getCe s.dev n.val).done = false) (hrole : ceRole s.od n.val = true → (getCe s.dev n.val).roleReady = true)
    (hjudged : (getCe s.dev n.val).judged = true ∨ ceMonitor s.od n.val = 0)
    (hcut : ∀ t, (getCe s.dev n.val).cut = some t → s.dev.clk.dt < t) :
    Completes (.ceComputeDone n) s (fun u => (getCe u.dev n.val).done = true ∧ u.od = s.od) := by
  refine completes_drives (f := fun o d => ceComputeDone o n.val (ceCutoff o n.val d)) rfl ⟨?_, rfl⟩
  dsimp only
  rw [ceCutoff_early hcut]
  exact ceComputeDone_done n.isLt hctrl hsampled hdone hrole hjudged

/-! The values of a sample whose measurements are taken as they are (R345, R351). -/

/-- The predicted outputs. -/
def lawYhat (o : Od) (n : Nat) (i : CeInst) : List Int :=
  (List.range (ceP o n)).map (fun j => (writeBack (rowDot i.work (offC (ceN o n) (ceM o n) (ceP o n)) (ceN o n) j i.xbar)).1)

/-- The measurements. -/
def lawY (o : Od) (n : Nat) (i : CeInst) : List Int := (List.range (ceP o n)).map (fun j => (vget i.meas j).value)

/-- The errors of the prediction. -/
def lawE (o : Od) (n : Nat) (i : CeInst) : List Int :=
  (List.range (ceP o n)).map (fun j => (writeBack (accOf ((lawY o n i).getD j 0) - accOf ((lawYhat o n i).getD j 0))).1)

/-- The estimate. -/
def lawX (o : Od) (n : Nat) (i : CeInst) : List Int :=
  (List.range (ceN o n)).map (fun r => (writeBack (accOf (i.xbar.getD r 0)
    + rowDot i.work (offL (ceN o n) (ceM o n) (ceP o n)) (ceP o n) r (lawE o n i))).1)

/-- The outputs before their limits. -/
def lawV (o : Od) (n : Nat) (i : CeInst) : List Int :=
  (List.range (ceM o n)).map (fun r => (writeBack (rowDot i.work (offK (ceN o n) (ceM o n) (ceP o n)) (ceN o n) r (lawX o n i)
    + rowDot i.work (offD (ceN o n) (ceM o n) (ceP o n)) (ceP o n) r (lawY o n i))).1)

/-- The outputs within their limits. -/
def lawU (o : Od) (n : Nat) (i : CeInst) : List Int := (lawV o n i).zipIdx.map (fun (x, k) =>
  clampI (i32At (ceArray o n 0x0A) (2 * k)) (i32At (ceArray o n 0x0A) (2 * k + 1)) x)

theorem ceLaw_values {o : Od} {n : Nat} {d : Dev} (hn : n < 16) (hrole : ceRole o n = false) (hmon : ceMonitor o n = 0) :
    (getCe (ceLaw o n d) n).late = (getCe d n).late ∧ (getCe (ceLaw o n d) n).y = lawY o n (getCe d n) ∧ (getCe (ceLaw o n d) n).xhat = lawX o n (getCe d n) ∧
    (getCe (ceLaw o n d) n).u = lawU o n (getCe d n) := by
  unfold ceLaw
  extract_lets i N m p ys mon sub y e ev xh xv v lim u clamp bits
  have hys : ∀ j, (ys.getD j (0, false)).1 = (lawYhat o n i).getD j 0 := fun j => by
    have hmap : lawYhat o n i = ys.map (·.1) := by
      simp only [ys, ceYhat, lawYhat, List.map_map]
      rfl
    rw [hmap]
    exact (List.getD_map ys (d := (0, false)) (f := (·.1))).symm
  have hy : y = lawY o n i := by
    simp only [y, sub, mon, hrole, hmon, Nat.zero_testBit, Bool.false_and, Bool.false_eq_true, if_false]
    rfl
  have hev : ev = lawE o n i := by
    simp only [ev, e, hy, hys, List.map_map]
    rfl
  have hxv : xv = lawX o n i := by
    simp only [xv, xh, hev, List.map_map]
    rfl
  have hu : u = lawU o n i := by
    have hv : v.map (·.1) = lawV o n i := by
      simp only [v, hxv, hy, List.map_map]
      rfl
    simp only [u, lawU, ← hv, List.zipIdx_map, List.map_map]
    rfl
  have hcore : (getCe (ceFlag o n bits (modCe n (fun i => { i with y := y, xhat := xv, u := u, clampHit := clamp, done := true }) d)) n).core
      = { i.core with y := lawY o n i, xhat := lawX o n i, u := lawU o n i, clampHit := clamp, done := true } := by
    rw [ceFlag_core, getCe_modCe_same _ _ hn, hy, hxv, hu]
    rfl
  exact ⟨(congrArg CeInst.late hcore :), (congrArg CeInst.y hcore :), (congrArg CeInst.xhat hcore :), (congrArg CeInst.u hcore :)⟩

theorem ceComputeDone_values {n : Fin 16} {s : State} (hctrl : s.dev.isOn .ctrl = true) (hsampled : (getCe s.dev n.val).sampled = true)
    (hdone : (getCe s.dev n.val).done = false) (hrole : ceRole s.od n.val = false) (hmon : ceMonitor s.od n.val = 0)
    (hjudged : (getCe s.dev n.val).judged = true) (hlate : (getCe s.dev n.val).late = false)
    (hcut : ∀ t, (getCe s.dev n.val).cut = some t → s.dev.clk.dt < t) :
    Completes (.ceComputeDone n) s (fun u => (getCe u.dev n.val).y = lawY s.od n.val (getCe s.dev n.val) ∧
      (getCe u.dev n.val).xhat = lawX s.od n.val (getCe s.dev n.val) ∧ (getCe u.dev n.val).u = lawU s.od n.val (getCe s.dev n.val)) := by
  refine completes_drives (f := fun o d => ceComputeDone o n.val (ceCutoff o n.val d)) rfl ?_
  dsimp only
  obtain ⟨hlaw, hvalues⟩ := ceLaw_values (d := s.dev) n.isLt hrole hmon
  have hnotlate : (getCe (ceLaw s.od n.val s.dev) n.val).late = false := hlaw.trans hlate
  have hstep : ceComputeDone s.od n.val s.dev = ceLaw s.od n.val s.dev := by
    simp [ceComputeDone, hctrl, hsampled, hdone, hrole, hjudged, hnotlate]
  rw [ceCutoff_early hcut, hstep]
  exact hvalues

/-! ### Cut-offs (R351, R354) -/

/-- Handing outputs over sets them, and leaves the rest of the instances but the measurement slots. -/
theorem ceHandOver_core (o : Od) {n : Nat} (t : Nat) (u : List Int) (d : Dev) (hn : n < 16) : (getCe (ceHandOver o n t u d) n).core =
    { (getCe d n).core with uOut := u.zipIdx.foldl (fun v (x, k) => vset v k x) (getCe d n).uOut } := by
  unfold ceHandOver
  extract_lets d0 d1
  have hd0 : (getCe d0 n).core = { (getCe d n).core with uOut := u.zipIdx.foldl (fun v (x, k) => vset v k x) (getCe d n).uOut } := by
    simp only [d0]
    rw [getCe_modCe_same _ _ hn]
    rfl
  have hd1 : (getCe d1 n).core = (getCe d0 n).core := forEach_eq (fun e => (getCe e n).core) d0 fun a e =>
    congrArg CeInst.core (getCe_of_engine (handTo_leaves (p := .engine) (by decide) o _ _ _ e) n)
  refine Eq.trans ?_ (hd1.trans hd0)
  refine forEach_eq (fun e => (getCe e n).core) d1 fun q e => forEach_eq (fun e => (getCe e n).core) e fun j e => ?_
  rcases ceSource o q j with ⟨k, a⟩
  dsimp only
  split
  · exact getCe_modCe_keeps (g := CeInst.core) (by intro i; rfl) n q e
  · rfl

theorem vget_foldl_vset_before {u : List Int} {i k : Nat} (v : Vector Int 6) (h : k < i) :
    vget ((u.zipIdx i).foldl (fun v (x, k) => vset v k x) v) k = vget v k := by
  induction u generalizing i v with
  | nil => rfl
  | cons x u ih =>
    rw [List.zipIdx_cons, List.foldl_cons, ih _ (by omega)]
    exact vget_vset_other _ _ (by omega)

/-- The outputs handed over stand in their places. -/
theorem vget_foldl_vset {u : List Int} {i k : Nat} (v : Vector Int 6) (hk : i + k < 6) (hu : k < u.length) :
    vget ((u.zipIdx i).foldl (fun v (x, k) => vset v k x) v) (i + k) = u.getD k 0 := by
  induction u generalizing i k v with
  | nil => simp at hu
  | cons x u ih =>
    rw [List.zipIdx_cons, List.foldl_cons]
    cases k with
    | zero =>
      exact (vget_foldl_vset_before _ (Nat.lt_succ_self i)).trans (vget_vset_same _ _ _ hk)
    | succ k =>
      rw [show i + (k + 1) = i + 1 + k by omega, ih _ (by omega) (by simpa using hu), List.getD_cons_succ]

/-- Whatever a cut-off that is due finds, it is passed. -/
theorem ceCutoff_passes {o : Od} {n t : Nat} {d : Dev} (hn : n < 16) (hcut : (getCe d n).cut = some t) (hdue : t ≤ d.clk.dt) :
    (getCe (ceCutoff o n d) n).cut = none := by
  have hhand : ∀ t u e, (getCe (ceHandOver o n t u e) n).cut = (getCe e n).cut := fun t u e => (congrArg CeInst.cut (ceHandOver_core o t u e hn) :)
  have hflag : ∀ b e, (getCe (ceFlag o n b e) n).cut = (getCe e n).cut := fun b e => (congrArg CeInst.cut (ceFlag_core o n b e n) :)
  have hpredict : ∀ e, (getCe (cePredict o n e) n).cut = (getCe e n).cut := fun e => by
    obtain ⟨x, hx⟩ := cePredict_core o e hn
    exact (congrArg CeInst.cut hx :)
  have hmod : ∀ f e, getCe (modCe n f e) n = f (getCe e n) := fun f e => getCe_modCe_same f e hn
  unfold ceCutoff
  extract_lets i m d1 ramp u run idle d2 src d3
  have hd1 : (getCe d1 n).cut = none := by simp only [d1, hmod]
  have hd3 : (getCe d3 n).cut = none := by
    have hd2 : (getCe d2 n).cut = none := by simp only [d2, hmod, hd1]
    exact (hflag _ _).trans hd2
  clear_value d1 d3
  simp only [i, hcut, not_lt.2 hdue, if_false]
  split
  · simp only [hhand, hmod, hd1]
  · split
    · simp only [hhand, hmod, hd1]
    · split
      · exact hd1
      · split
        · split <;> simp only [getCe_record, hpredict, hhand, hmod, hd1]
        · split
          · simp only [hmod, hd1]
          · split <;> simp only [getCe_record, hd3]

/-- A cut-off that is due, where no safe outputs are owed and a sample was taken outside HOLD. -/
structure CeCut (n t : Nat) (d : Dev) : Prop where
  cut : (getCe d n).cut = some t
  due : t ≤ d.clk.dt
  notOwed : (getCe d n).safeOwed = false
  notHeld : (getCe d n).state ≠ .hold
  sampled : (getCe d n).sampled = true

/-- A cut-off hands a complete computation over, and the prediction follows. -/
theorem ceCutoff_hands {o : Od} {n t : Nat} {d : Dev} (hn : n < 16) (h : CeCut n t d) (hdone : (getCe d n).done = true) :
    ∃ x, (getCe (ceCutoff o n d) n).core = { (getCe d n).core with
      cut := none, miss := false, missRun := 0, xbar := x, sampled := false, late := false
      uOut := (getCe d n).u.zipIdx.foldl (fun v (x, k) => vset v k x) (getCe d n).uOut } := by
  unfold ceCutoff
  extract_lets i m d1 ramp u run idle d2 src d3
  obtain ⟨x, hx⟩ := cePredict_core o (ceHandOver o n t i.u (modCe n (fun i => { i with miss := false, missRun := 0 }) d1)) hn
  have hd1 : getCe d1 n = { getCe d n with cut := none } := getCe_modCe_same _ _ hn
  have hcore : (getCe (cePredict o n (ceHandOver o n t i.u (modCe n (fun i => { i with miss := false, missRun := 0 }) d1))) n).core =
      { (getCe d n).core with
        cut := none, miss := false, missRun := 0, xbar := x, sampled := false, late := false
        uOut := (getCe d n).u.zipIdx.foldl (fun v (x, k) => vset v k x) (getCe d n).uOut } := by
    rw [hx, ceHandOver_core _ _ _ _ hn, getCe_modCe_same _ _ hn, hd1]
    rfl
  clear_value d1 d3
  refine ⟨x, ?_⟩
  simp only [i, h.cut, not_lt.2 h.due, if_false]
  rw [if_neg (by simp [h.notOwed]), if_neg (by simp [h.notHeld]), if_neg (by simp [h.sampled]), if_pos hdone]
  split
  · exact hcore
  · rw [getCe_record]
    exact hcore

theorem ceFlag_missTotal (o : Od) (n bits : Nat) (d : Dev) : (ceFlag o n bits d).engine.missTotal = d.engine.missTotal := by
  unfold ceFlag
  dsimp only
  split
  · rfl
  · exact (congrArg Engine.missTotal (record_leaves (p := .engine) (by decide) o _ _ _ _)).trans rfl

/-- A cut-off that finds a computation without a role incomplete counts a miss; the outputs stay. -/
theorem ceCutoff_misses {o : Od} {n t : Nat} {d : Dev} (hn : n < 16) (h : CeCut n t d) (hdone : (getCe d n).done = false)
    (hrole : ceRole o n = false) :
    (getCe (ceCutoff o n d) n).core = { (getCe d n).core with
      cut := none, miss := true, missRun := (getCe d n).missRun + 1, misses := satInc (getCe d n).misses, late := true, sampled := true } ∧
    (ceCutoff o n d).engine.missTotal = satInc d.engine.missTotal := by
  unfold ceCutoff
  extract_lets i m d1 ramp u run idle d2 src d3
  have hd3 : (getCe d3 n).core = { (getCe d n).core with
      cut := none, miss := true, missRun := (getCe d n).missRun + 1, misses := satInc (getCe d n).misses, late := true, sampled := true } := by
    have hd2 : getCe d2 n = { getCe d n with
        cut := none, miss := true, missRun := (getCe d n).missRun + 1, misses := satInc (getCe d n).misses, late := true, sampled := true } := by
      simp only [d2, d1, getCe_modCe_same _ _ hn, run, idle, hrole]
      rfl
    refine (ceFlag_core o n _ _ n).trans ?_
    exact congrArg CeInst.core hd2
  have htotal : d3.engine.missTotal = satInc d.engine.missTotal := ceFlag_missTotal _ _ _ _
  clear_value d3
  simp only [i, h.cut, not_lt.2 h.due, if_false]
  rw [if_neg (by simp [h.notOwed]), if_neg (by simp [h.notHeld]), if_neg (by simp [h.sampled]), if_neg (by simp [hdone]),
    if_neg (by simp [hrole])]
  split
  · rw [getCe_record]
    exact ⟨hd3, (congrArg Engine.missTotal (record_leaves (p := .engine) (by decide) o _ _ _ d3)).trans htotal⟩
  · exact ⟨hd3, htotal⟩

/-- The instant of a cut-off. -/
def ceCutDue (n : Nat) (_ : Od) (d : Dev) : Option Instant := (getCe d n).cut.map Instant.device

/-- The wait for a cut-off ends with the cut-off due, and leaves the engine. -/
theorem ceCutDue_over {n t : Nat} {s : State} (hcut : (getCe s.dev n).cut = some t) (hcount : s.dev.clk.counting = true) :
    (s.upTo (ceCutDue n)).dev.engine = s.dev.engine ∧ t ≤ (s.upTo (ceCutDue n)).dev.clk.dt :=
  ⟨upTo_part _ s (p := .engine) (by decide), le_dt_upTo (by rw [ceCutDue, hcut]; rfl) hcount⟩

theorem ceCutoff_cut_completes {n : Fin 16} {s : State} (hcut : (getCe s.dev n.val).cut.isSome = true) (hcount : s.dev.clk.counting = true) :
    Completes (.ceCutoff n) s (fun u => (getCe u.dev n.val).cut = none ∧ u.od = s.od) := by
  obtain ⟨t, ht⟩ := Option.isSome_iff_exists.1 hcut
  obtain ⟨hengine, hover⟩ := ceCutDue_over ht hcount
  refine completes_timed (due := ceCutDue n.val) (f := (ceCutoff · n.val)) rfl ⟨?_, rfl⟩
  rw [← getCe_of_engine hengine] at ht
  exact ceCutoff_passes n.isLt ht hover

/-- The cut-off after a sample, at its instant. -/
theorem ceCut_upTo {n : Nat} {s : State} (hcut : (getCe s.dev n).cut.isSome = true) (hcount : s.dev.clk.counting = true)
    (howed : (getCe s.dev n).safeOwed = false) (hheld : (getCe s.dev n).state ≠ .hold) (hsampled : (getCe s.dev n).sampled = true) :
    getCe (s.upTo (ceCutDue n)).dev n = getCe s.dev n ∧ ∃ t, CeCut n t (s.upTo (ceCutDue n)).dev := by
  obtain ⟨t, ht⟩ := Option.isSome_iff_exists.1 hcut
  obtain ⟨hengine, hover⟩ := ceCutDue_over ht hcount
  have hce := getCe_of_engine hengine n
  exact ⟨hce, t, by rwa [hce], hover, by rwa [hce], by rwa [hce], by rwa [hce]⟩

theorem ceCutoff_hand_completes {n : Fin 16} {s : State} (hcut : (getCe s.dev n.val).cut.isSome = true) (hcount : s.dev.clk.counting = true)
    (howed : (getCe s.dev n.val).safeOwed = false) (hheld : (getCe s.dev n.val).state ≠ .hold)
    (hsampled : (getCe s.dev n.val).sampled = true) (hdone : (getCe s.dev n.val).done = true) :
    Completes (.ceCutoff n) s (fun u => (getCe u.dev n.val).miss = false ∧ (getCe u.dev n.val).missRun = 0 ∧
      (getCe u.dev n.val).sampled = false ∧
      ∀ k : Fin 6, k.val < (getCe s.dev n.val).u.length → vget (getCe u.dev n.val).uOut k.val = (getCe s.dev n.val).u.getD k.val 0) := by
  obtain ⟨hce, t, ht⟩ := ceCut_upTo hcut hcount howed hheld hsampled
  refine completes_timed (due := ceCutDue n.val) (f := (ceCutoff · n.val)) rfl ?_
  obtain ⟨x, hx⟩ := ceCutoff_hands (o := s.od) n.isLt ht (hce ▸ hdone)
  refine ⟨(congrArg CeInst.miss hx :), (congrArg CeInst.missRun hx :), (congrArg CeInst.sampled hx :), fun k hk => ?_⟩
  have hout := (congrArg CeInst.uOut hx :)
  refine (congrArg (vget · k.val) hout :).trans ?_
  have hplace := vget_foldl_vset (i := 0) (getCe s.dev n.val).uOut (by omega) hk
  rw [Nat.zero_add] at hplace
  rw [hce]
  exact hplace

theorem ceCutoff_miss_completes {n : Fin 16} {s : State} (hcut : (getCe s.dev n.val).cut.isSome = true) (hcount : s.dev.clk.counting = true)
    (howed : (getCe s.dev n.val).safeOwed = false) (hheld : (getCe s.dev n.val).state ≠ .hold)
    (hsampled : (getCe s.dev n.val).sampled = true) (hdone : (getCe s.dev n.val).done = false) (hrole : ceRole s.od n.val = false) :
    Completes (.ceCutoff n) s (fun u => (getCe u.dev n.val).miss = true ∧ (getCe u.dev n.val).missRun = (getCe s.dev n.val).missRun + 1 ∧
      (getCe u.dev n.val).misses = satInc (getCe s.dev n.val).misses ∧ (getCe u.dev n.val).uOut = (getCe s.dev n.val).uOut ∧
      u.dev.engine.missTotal = satInc s.dev.engine.missTotal) := by
  obtain ⟨hce, t, ht⟩ := ceCut_upTo hcut hcount howed hheld hsampled
  refine completes_timed (due := ceCutDue n.val) (f := (ceCutoff · n.val)) rfl ?_
  obtain ⟨hx, htotal⟩ := ceCutoff_misses (o := s.od) n.isLt ht (hce ▸ hdone) hrole
  rw [hce] at hx
  have hengine : (s.upTo (ceCutDue n.val)).dev.engine = s.dev.engine := upTo_part _ s (p := .engine) (by decide)
  exact ⟨(congrArg CeInst.miss hx :), (congrArg CeInst.missRun hx :), (congrArg CeInst.misses hx :), (congrArg CeInst.uOut hx :),
    htotal.trans (by rw [hengine])⟩

theorem ceTrigger_completes {n : Fin 16} {s : State} (h : CeDue s.od n.val s.dev) :
    Completes (.ceTrigger n) s (fun u => (getCe u.dev n.val).trig = some s.dev.sched.last ∧ u.od = s.od ∧
      (CeRunsOn (getCe s.dev n.val) → (getCe s.dev n.val).sampled = true → (getCe s.dev n.val).done = false →
        (getCe u.dev n.val).core = { (getCe s.dev n.val).core with
          resumed := false, trig := some s.dev.sched.last, skipRun := (getCe s.dev n.val).skipRun + 1
          skipped := satInc (getCe s.dev n.val).skipped }) ∧
      (CeRunsOn (getCe s.dev n.val) → (getCe s.dev n.val).sampled = false ∨ (getCe s.dev n.val).done = true →
        (getCe u.dev n.val).cut = some (ceCutOf s.od n.val s.dev s.dev.sched.last) ∧ (getCe u.dev n.val).done = false ∧
        (getCe u.dev n.val).work = (getCe s.dev n.val).bank ∧ (ceRole s.od n.val = true → (getCe u.dev n.val).sampled = true))) :=
  completes_drives (f := (ceTrigger · n.val)) rfl ⟨ceTrigger_trig n.isLt h, rfl, ceTrigger_skips n.isLt h, ceTrigger_takes n.isLt h⟩

/-- Settles O39: the trigger's outcomes, a computation and its values, and what a cut-off finds. -/
theorem controlEngineSamples : Obligations.ControlEngineSamples := by
  refine ⟨fun n s hctrl hrun hcount hfresh hhits => ?_, fun n s => ceComputeDone_completes, fun n s => ceComputeDone_values,
    fun _ _ => ceCutoff_cut_completes, fun _ _ => ceCutoff_hand_completes, fun _ _ => ceCutoff_miss_completes⟩
  obtain ⟨u, hu, htrig, hod, hskips, htakes⟩ := ceTrigger_completes ⟨hctrl, hrun, hcount, hfresh, hhits⟩
  refine ⟨u, hu, htrig, hod, fun hen hheld hcmd hsampled hdone hcommit => ?_, fun hen hheld hcmd hcommit => htakes ⟨hen, hheld, hcmd, hcommit⟩⟩
  have hcore := hskips ⟨hen, hheld, hcmd, hcommit⟩ hsampled hdone
  exact ⟨(congrArg CeInst.skipRun hcore :), (congrArg CeInst.skipped hcore :), (congrArg CeInst.cut hcore :)⟩

end Sys2Proof.Machine
end

section
/-! PWM pairs (O47): what a pair's course - enabled, active, the start and number of its period - is left by. -/
namespace Sys2Proof.Machine

/-! ### The course of a pair -/

/-- Whether a pair is enabled and active, the start of its period and its number. -/
def Pair.course (p : Pair) : Bool × Bool × Nat × Nat := (p.enabled, p.active, p.start, p.j)

/-- The course of pair `q` of a device. -/
def courseOf (q : Nat) (d : Dev) : Bool × Bool × Nat × Nat := (vget d.pwm.pairs q).course

theorem courseOf_of_pwm {d e : Dev} (h : d.pwm = e.pwm) (q : Nat) : courseOf q d = courseOf q e := by rw [courseOf, courseOf, h]

/-- A property of every entry, kept by setting one. -/
theorem vget_vset_keeps {α : Type} {n : Nat} [Inhabited α] {P : α → Prop} (v : Vector α n) (i j : Nat) (a : α)
    (ha : P (vget v i) → P a) (hj : P (vget v j)) : P (vget (vset v i a) j) :=
  vget_vmod_keeps (P := P) v i j (fun _ => a) ha hj

theorem course_vmod {q r : Nat} {f : Pair → Pair} {v : Vector Pair 20} (hf : ∀ p, (f p).course = p.course) :
    (vget (vmod v r f) q).course = (vget v q).course :=
  vget_vmod_keeps (P := fun p => p.course = (vget v q).course) v r q f (fun h => (hf _).trans h) rfl

theorem course_vset {q r : Nat} {p : Pair} {v : Vector Pair 20} (hp : p.course = (vget v r).course) :
    (vget (vset v r p) q).course = (vget v q).course :=
  vget_vset_keeps (P := fun p => p.course = (vget v q).course) v r q p (fun h => hp.trans h) rfl

theorem forceGroup_course (o : Od) (g first : Nat) (d : Dev) (q : Nat) : courseOf q (forceGroup o g first d) = courseOf q d := by
  unfold forceGroup
  extract_lets gr n prs pairs src d1 d2 d3
  split
  · rfl
  · have hstop : ∀ (l : List Nat) (v : Vector Pair 20), (vget (l.foldl (fun v q => vmod v q (pairStop d.clk.dt)) v) q).course = (vget v q).course := by
      intro l
      induction l with
      | nil => exact fun _ => rfl
      | cons r l ih => exact fun v => (ih _).trans (course_vmod fun _ => rfl)
    have h1 : courseOf q d1 = courseOf q d := hstop prs d.pwm.pairs
    have h2 : courseOf q d2 = courseOf q d1 := courseOf_of_pwm (record_leaves (p := .pwm) (by decide) _ _ _ _ _) q
    have h3 : courseOf q d3 = courseOf q d2 := forEach_eq (courseOf q) d2 fun a e => courseOf_of_pwm (axisForced_pwm o a e) q
    exact (forEach_eq (courseOf q) d3 fun l e => courseOf_of_pwm (chopFault_pwm o l 3 e) q).trans (h3.trans (h2.trans h1))

theorem groupEvaluate_course (o : Od) (g : Nat) (d : Dev) (q : Nat) : courseOf q (groupEvaluate o g d) = courseOf q d := by
  have hpairs : courseOf q (groupEvaluate o g d) = courseOf q (groupStruck o g d) := by
    rw [courseOf, groupEvaluate_pwm]
    rfl
  rw [hpairs]
  obtain ⟨c, h⟩ | ⟨h, -⟩ := groupStruck_cases o g d
  · rw [h, forceGroup_course]
  · rw [h]

@[simp] theorem pronghorn_course (o : Od) (d : Dev) (q : Nat) : courseOf q (pronghorn o d) = courseOf q d := by
  cases hdrv : d.isOn .drv with
  | false => simp [pronghorn, hdrv]
  | true =>
    have hseen : ∀ e, courseOf q (sourcesSeen o e) = courseOf q e := fun _ => rfl
    have hgroups : courseOf q (groupsEvaluated o d) = courseOf q (sourcesSeen o d) :=
      forEach_eq (courseOf q) (sourcesSeen o d) fun g e => groupEvaluate_course o g e q
    rw [pronghorn_eq hdrv, hseen, hgroups, hseen]

@[simp] theorem pronghornAgain_course (o : Od) (d : Dev) (q : Nat) : courseOf q (pronghornAgain o d) = courseOf q d := by
  unfold pronghornAgain
  split
  · rfl
  · exact pronghorn_course o d q

/-! ### Enabling and disabling (R409, R411) -/

theorem writeEffect_pairControl (q : Fin 20) (session : Option Nat) (s : State) :
    writeEffect session (0x4000 + q.val) 1 (toLE 4 0x62616E65) s = pairEnabWrite q.val s ∧
    writeEffect session (0x4000 + q.val) 1 (toLE 4 0x61736964) s = pairDisaWrite q.val s ∧
    writeEffect session (0x4000 + q.val) 0x0D (toLE 4 0x74696D63) s = pwmCommitWrite q.val s := by
  fin_cases q <;> exact ⟨rfl, rfl, rfl⟩

theorem pairEnab_completes {via : Via} {q : Fin 20} {s : State} (h : accepted via (0x4000 + q.val) 1 (toLE 4 0x62616E65) s = true) :
    Completes (.pairEnab via q) s (fun u => (vget u.dev.pwm.pairs q.val).enabled = true ∧ u.od = s.od) := by
  refine completes_of_write rfl ⟨by omega, by decide, by simp, by omega, by omega⟩ h fun k t u v ho => ?_
  have hw := (writeEffect_pairControl q (some k) t).1
  obtain ⟨-, rfl⟩ := unlessRefused_accepted (hw.symm.trans ho.effect)
  have hpwm : v.dev.pwm = _ := ho.part (p := .pwm) (by decide)
  refine ⟨?_, ho.od_kept (by rw [hw]; simp)⟩
  rw [hpwm]
  split
  · assumption
  · exact congrArg Pair.enabled (vget_vset_same _ _ _ q.isLt)

/-- A pair that is neither enabled nor active. -/
def PairAtRest (q : Nat) (d : Dev) : Prop := (vget d.pwm.pairs q).enabled = false ∧ (vget d.pwm.pairs q).active = false

theorem pairAtRest_of_course {q : Nat} {d e : Dev} (h : courseOf q d = courseOf q e) (he : PairAtRest q e) : PairAtRest q d := by
  simp only [courseOf, Pair.course, Prod.mk.injEq] at h
  obtain ⟨henabled, hactive, -, -⟩ := h
  exact ⟨henabled.trans he.1, hactive.trans he.2⟩

theorem pairOff_pairs (r : Nat) (d : Dev) : (pairOff r d).pwm.pairs = vmod d.pwm.pairs r (fun p => { pairStop (d.clk.dt + 1) p with
    enabled := false, active := false, owner := .host, next := none, heldSet := none, live := false, refreshOwed := false }) :=
  congrArg Pwm.pairs (bridgeInactive_leaves (p := .pwm) (by decide) r _)

theorem pairOff_rests {q : Nat} (d : Dev) (hq : q < 20) : PairAtRest q (pairOff q d) := by
  rw [PairAtRest, pairOff_pairs, vget_vmod_same _ _ _ hq]
  exact ⟨rfl, rfl⟩

theorem pairOff_keeps_rest {q : Nat} (r : Nat) {d : Dev} (h : PairAtRest q d) : PairAtRest q (pairOff r d) := by
  rw [PairAtRest, pairOff_pairs]
  exact vget_vmod_keeps (P := fun p : Pair => p.enabled = false ∧ p.active = false) _ _ _ _ (fun _ => ⟨rfl, rfl⟩) h

/-- What ends the disabling of a pair, from a state in which `q` rests. -/
theorem pairDisable_of_off {o : Od} {q r : Nat} {d : Dev} (h : PairAtRest q (pairOff r d)) : PairAtRest q (pairDisable o r d) := by
  unfold pairDisable
  refine pairAtRest_of_course (courseOf_of_pwm (interlocksLeave_leaves (p := .pwm) (by decide) o _) q) ?_
  refine pairAtRest_of_course (pronghornAgain_course o _ q) ?_
  refine forEach_keeps (P := PairAtRest q) (f := fun _ d => forEach (orphans o d) pairOff d) (fun _ _ e he => ?_) h
  exact forEach_keeps (fun r _ _ => pairOff_keeps_rest r) he

/-- Disabling a pair puts it to rest; the pairs that then have no master follow it. -/
theorem pairDisable_rests {o : Od} {q : Nat} (d : Dev) (hq : q < 20) : PairAtRest q (pairDisable o q d) :=
  pairDisable_of_off (pairOff_rests d hq)

theorem pairDisable_keeps_rest {o : Od} {q : Nat} (r : Nat) {d : Dev} (h : PairAtRest q d) : PairAtRest q (pairDisable o r d) :=
  pairDisable_of_off (pairOff_keeps_rest r h)

/-- A channel of a pair that is not active is off. -/
theorem pwmPin_inactive {o : Od} {d : Dev} {c : Nat} (h : (vget d.pwm.pairs (c / 2)).active = false) : pwmPin o d c = false := by
  simp [pwmPin, h]

theorem pairDisa_completes {via : Via} {q : Fin 20} {s : State} (h : accepted via (0x4000 + q.val) 1 (toLE 4 0x61736964) s = true) :
    Completes (.pairDisa via q) s (fun u => (vget u.dev.pwm.pairs q.val).enabled = false ∧ (vget u.dev.pwm.pairs q.val).active = false ∧
      pwmPin u.od u.dev (2 * q.val) = false ∧ pwmPin u.od u.dev (2 * q.val + 1) = false ∧ u.od = s.od) := by
  refine completes_of_write rfl ⟨by omega, by decide, by simp, by omega, by omega⟩ h fun k t u v ho => ?_
  have hw := (writeEffect_pairControl q (some k) t).2.1
  have heff := hw.symm.trans ho.effect
  unfold pairDisaWrite at heff
  split at heff
  · cases heff
  · obtain rfl := congrArg Prod.snd heff
    have hpwm : v.dev.pwm = (pairDisable t.od q.val t.dev).pwm := ho.part (p := .pwm) (by decide)
    obtain ⟨henabled, hactive⟩ := pairAtRest_of_course (courseOf_of_pwm hpwm q.val) (pairDisable_rests t.dev q.isLt)
    have hhigh : 2 * q.val / 2 = q.val := by omega
    have hlow : (2 * q.val + 1) / 2 = q.val := by omega
    exact ⟨henabled, hactive, pwmPin_inactive (by rwa [hhigh]), pwmPin_inactive (by rwa [hlow]), ho.od_kept (by rw [hw]; simp)⟩

theorem pwmCommit_completes {via : Via} {q : Fin 20} {s : State} (h : accepted via (0x4000 + q.val) 0x0D (toLE 4 0x74696D63) s = true) :
    Completes (.pwmCommit via q) s (fun u => u.od = s.od ∧ (vget u.dev.pwm.pairs q.val).dirty = {} ∧
      (vget u.dev.pwm.pairs q.val).sets = (vget s.dev.pwm.pairs q.val).sets ++ [(s.dev.clk.dt, (vget s.dev.pwm.pairs q.val).dirty)]) := by
  refine completes_of_write rfl ⟨by omega, by decide, by simp, by omega, by omega⟩ h fun k t u v ho => ?_
  have hw := (writeEffect_pairControl q (some k) t).2.2
  have heff := hw.symm.trans ho.effect
  unfold pwmCommitWrite at heff
  split at heff
  · cases heff
  · obtain rfl := congrArg Prod.snd heff
    have hpwm : v.dev.pwm = _ := ho.part (p := .pwm) (by decide)
    have hseen : t.dev.pwm = s.dev.pwm := ho.seen.part (p := .pwm) (by decide)
    have hpair : vget v.dev.pwm.pairs q.val = { vget s.dev.pwm.pairs q.val with
        sets := (vget s.dev.pwm.pairs q.val).sets ++ [(s.dev.clk.dt, (vget s.dev.pwm.pairs q.val).dirty)], dirty := {} } := by
      rw [hpwm, ← ho.seen.clk, ← hseen]
      exact vget_vmod_same _ _ _ q.isLt
    rw [hpair]
    exact ⟨ho.od_kept (by rw [hw]; simp), rfl, rfl⟩

/-! ### Cut-offs and period starts (R410, R416, R417) -/

theorem pairDue_upTo (due : Od → Dev → Option Instant) (q : Nat) (s : State) : pairDue q (s.upTo due).dev = pairDue q s.dev := by
  simp only [pairDue, upTo_pwm, upTo_isOn]

theorem cutoffAt_notes {o : Od} {q t : Nat} {d : Dev} (hq : q < 20) : (vget (cutoffAt o q t d).pwm.pairs q).cutDone = some t := by
  unfold cutoffAt
  dsimp only
  split
  · assumption
  · split
    · exact congrArg Pair.cutDone (vget_vset_same _ _ _ hq)
    · simp only [record_frame]
      exact congrArg Pair.cutDone (vget_vset_same _ _ _ hq)

/-- The instant of a pair's cut-off. -/
def pairCutDue (q : Nat) (_ : Od) (d : Dev) : Option Instant := (pairDue q d).map (fun t => .device (t - 160))

theorem pwmCutoff_completes {q : Fin 20} {s : State} {t : Nat} (hdue : pairDue q.val s.dev = some t) (hcount : s.dev.clk.counting = true) :
    Completes (.pwmCutoff q) s (fun u => (vget u.dev.pwm.pairs q.val).cutDone = some t ∧ u.od = s.od) := by
  refine completes_timed (due := pairCutDue q.val) (f := (pairCutoff · q.val)) rfl ⟨?_, rfl⟩
  have hover := le_dt_upTo (due := pairCutDue q.val) (s := s) (by rw [pairCutDue, hdue]; rfl) hcount
  have hstep : pairCutoff s.od q.val (s.upTo (pairCutDue q.val)).dev = cutoffAt s.od q.val t (s.upTo (pairCutDue q.val)).dev := by
    rw [pairCutoff, pairDue_upTo, hdue]
    exact if_pos (by omega)
  dsimp only
  rw [hstep]
  exact cutoffAt_notes q.isLt

theorem closePulse_course (c : PlaceCfg) (complementary high : Bool) (t : Nat) (s : Placing) :
    (closePulse c complementary high t s).p.course = s.p.course := by
  unfold closePulse
  split
  · rfl
  · cases high <;> cases complementary <;> dsimp only <;> split_ifs <;> rfl

theorem commandTo_course (c : PlaceCfg) (t : Nat) (hi : Bool) (s : Placing) : (commandTo c t hi s).p.course = s.p.course := by
  have hclose := closePulse_course c true (!hi) t s
  unfold commandTo
  dsimp only
  split
  · rfl
  · split
    · exact hclose
    · exact hclose

theorem levelsTo_course (c : PlaceCfg) (t : Nat) (h l : Bool) (s : Placing) : (levelsTo c t h l s).p.course = s.p.course := by
  unfold levelsTo
  extract_lets both oh ol p1 s1 p2 s2
  have h1 : s1.p.course = s.p.course := by
    simp only [s1]
    split
    · split <;> rfl
    · exact closePulse_course _ _ _ _ _
  have h2 : s2.p.course = s1.p.course := by
    simp only [s2]
    split
    · split <;> rfl
    · exact closePulse_course _ _ _ _ _
  refine Eq.trans ?_ (h2.trans h1)
  clear_value s2
  split
  · split <;> rfl
  · split <;> rfl

theorem placeIndependent_course (c : PlaceCfg) (t e rh fh rl fl : Nat) (p : Pair) : (placeIndependent c t e rh fh rl fl p).p.course = p.course := by
  have hfold : ∀ (l : List Nat) (s : Placing), (l.foldl (fun s x => levelsTo c x (decide (rh ≤ x ∧ x < fh)) (decide (rl ≤ x ∧ x < fl)) s) s).p.course
      = s.p.course := by
    intro l
    induction l with
    | nil => exact fun _ => rfl
    | cons x l ih => exact fun s => (ih _).trans (levelsTo_course _ _ _ _ _)
  exact hfold _ _

theorem placeComplementary_course (c : PlaceCfg) (t e r f : Nat) (p : Pair) : (placeComplementary c t e r f p).p.course = p.course := by
  unfold placeComplementary
  dsimp only
  split_ifs <;> simp [commandTo_course]

theorem recordAt_course (o : Od) (time code source : Nat) (data : Bytes) (d : Dev) (q : Nat) :
    courseOf q (recordAt o time code source data d) = courseOf q d :=
  courseOf_of_pwm (recordAt_leaves (p := .pwm) (by decide) o time code source data d) q

theorem recordPlacing_course (o : Od) (r : Nat) (s : Placing) (d : Dev) (q : Nat) : courseOf q (recordPlacing o r s d) = courseOf q d := by
  unfold recordPlacing
  refine (forEach_eq (courseOf q) _ fun m e => recordAt_course _ _ _ _ _ _ _).trans (forEach_eq (courseOf q) d fun f e => ?_)
  unfold recordFiltered
  extract_lets c ch quiet ch1
  split
  · rfl
  · rw [recordAt_course]
    rfl

theorem tellFollowers_course (o : Od) (r t : Nat) (d : Dev) (q : Nat) : courseOf q (tellFollowers o r t d) = courseOf q d := by
  have hfold : ∀ (l : List Nat) (v : Vector Pair 20),
      (vget (l.foldl (fun v r => vmod v r (fun p => { p with next := some (t + pairPhase o r) })) v) q).course = (vget v q).course := by
    intro l
    induction l with
    | nil => exact fun _ => rfl
    | cons r l ih => exact fun v => (ih _).trans (course_vmod fun _ => rfl)
  exact hfold _ _

theorem cutoffAt_course (o : Od) (r t : Nat) (d : Dev) (q : Nat) : courseOf q (cutoffAt o r t d) = courseOf q d := by
  unfold cutoffAt
  dsimp only
  split
  · rfl
  · split
    · exact course_vset rfl
    · exact (recordAt_course _ _ _ _ _ _ _).trans (course_vset rfl)

theorem countRefresh_course (o : Od) (r t : Nat) (d : Dev) (q : Nat) : courseOf q (countRefresh o r t d) = courseOf q d := by
  unfold countRefresh
  split
  · rfl
  · exact course_vset rfl

theorem bridgeResume_course (o : Od) (r t : Nat) (d : Dev) (q : Nat) : courseOf q (bridgeResume o r t d) = courseOf q d := by
  unfold bridgeResume
  split
  · rfl
  · dsimp only
    split
    · split
      · rfl
      · split
        · rw [recordAt_course]
          exact course_vmod fun _ => rfl
        · exact course_vmod fun _ => rfl
    · rfl

/-- A period start makes its pair active from its instant, and numbers the period. -/
theorem periodStart_course {o : Od} {q t : Nat} {d : Dev} (hq : q < 20) : courseOf q (periodStart o q t d) =
    ((vget d.pwm.pairs q).enabled, true, t, if (vget d.pwm.pairs q).active then (vget d.pwm.pairs q).j + 1 else 0) := by
  unfold periodStart
  extract_lets d1 p first v0 v1 j forced live src dither tick c
  have h1 : courseOf q d1 = courseOf q d :=
    (bridgeResume_course _ _ _ _ _).trans ((countRefresh_course _ _ _ _ _).trans (cutoffAt_course _ _ _ _ _))
  clear_value v1
  generalize clampVals (if (masterOf o q).isSome = true then 0 else odU o (0x4000 + q) 7) v1 = vc
  obtain ⟨v, clamps⟩ := vc
  dsimp -zeta only
  extract_lets p1 d2 d3 refresh rise e s src3 srcp d4
  have hp : p = vget d1.pwm.pairs q := rfl
  have hcourse1 : p1.course = ((vget d.pwm.pairs q).enabled, true, t, if (vget d.pwm.pairs q).active then (vget d.pwm.pairs q).j + 1 else 0) := by
    simp only [courseOf, Pair.course, ← hp, Prod.mk.injEq] at h1
    obtain ⟨henabled, hactive, -, hj⟩ := h1
    simp only [p1, Pair.course, j, first, henabled, hactive, hj, Bool.not_eq_true', Prod.mk.injEq, true_and]
    cases (vget d.pwm.pairs q).active <;> rfl
  have hplaced : s.p.course = p1.course := by
    simp only [s]
    split
    · rfl
    · split
      · exact placeIndependent_course _ _ _ _ _ _ _ _
      · exact placeComplementary_course _ _ _ _ _ _
  have h4 : courseOf q d4 = s.p.course := (congrArg Pair.course (vget_vset_same _ _ _ hq)).trans rfl
  have hresume : ∀ e, courseOf q (axisResume o q t e) = courseOf q e := fun e =>
    courseOf_of_pwm (axisResume_leaves (p := .pwm) (by decide) o q t e) q
  rw [hresume, tellFollowers_course, recordPlacing_course, h4, hplaced, hcourse1]

/-- The instant of a pair's period start. -/
def pairStartDue (q : Nat) (_ : Od) (d : Dev) : Option Instant := (pairDue q d).map Instant.device

theorem pairStart_course {o : Od} {q t : Nat} {seen : Option (Bool × Bool)} {d : Dev} (hq : q < 20) (hdue : pairDue q d = some t)
    (hover : t ≤ d.clk.dt) : courseOf q (pairStart o q seen d) =
    ((vget d.pwm.pairs q).enabled, true, t, if (vget d.pwm.pairs q).active then (vget d.pwm.pairs q).j + 1 else 0) := by
  have hlock : ∀ e, courseOf q (periodInterlock o q t seen e) = courseOf q e := fun e => by
    unfold periodInterlock
    split
    · rfl
    · exact courseOf_of_pwm (interlock_leaves (p := .pwm) (by decide) _ _ _ _ _) q
  have hstep : pairStart o q seen d = periodInterlock o q t seen (pronghornAgain o (periodStart o q t d)) := by
    rw [pairStart, hdue]
    exact if_pos hover
  rw [hstep, hlock, pronghornAgain_course, periodStart_course hq]

theorem pwmPeriodStart_completes {q : Fin 20} {seen : Option (Bool × Bool)} {s : State} {t : Nat} (hdue : pairDue q.val s.dev = some t)
    (hcount : s.dev.clk.counting = true) :
    Completes (.pwmPeriodStart q seen) s (fun u => (vget u.dev.pwm.pairs q.val).active = true ∧ (vget u.dev.pwm.pairs q.val).start = t ∧
      (vget u.dev.pwm.pairs q.val).j = (if (vget s.dev.pwm.pairs q.val).active then (vget s.dev.pwm.pairs q.val).j + 1 else 0) ∧ u.od = s.od) := by
  refine completes_timed (due := pairStartDue q.val) (f := fun o => pairStart o q.val seen) rfl ?_
  have hover := le_dt_upTo (due := pairStartDue q.val) (s := s) (by rw [pairStartDue, hdue]; rfl) hcount
  have hcourse := pairStart_course (o := s.od) (seen := seen) q.isLt ((pairDue_upTo (pairStartDue q.val) q.val s).trans hdue) hover
  rw [upTo_pwm] at hcourse
  simp only [courseOf, Pair.course, Prod.mk.injEq] at hcourse
  obtain ⟨-, hactive, hstart, hj⟩ := hcourse
  exact ⟨hactive, hstart, hj, rfl⟩

/-- Settles O47: the rows have the effect of their writes on their pair, and the cut-off and the period start are those of the pair's
next period. -/
theorem pwmPairsRun : Obligations.PwmPairsRun :=
  ⟨fun _ _ _ => pairEnab_completes, fun _ _ _ => pairDisa_completes, fun _ _ _ => pwmCommit_completes, fun _ _ _ => pwmCutoff_completes,
    fun _ _ _ _ => pwmPeriodStart_completes⟩

end Sys2Proof.Machine
end

section
/-! Half-bridges (O49): trips, retries, the clear, the self-test and the release from the supply hold. -/
namespace Sys2Proof.Machine

/-! ### A bridge beside its interlock -/

/-- A bridge but for its interlock's start and its flags. -/
def Bridge.core (b : Bridge) : Bridge := { b with shootFrom := none, flags := 0 }

/-- Bridge `k` of a device, beside its interlock. -/
def bridgeCore (k : Nat) (d : Dev) : Bridge := (vget d.bridges k).core

theorem bridgeCore_of_bridges {d e : Dev} (h : d.bridges = e.bridges) (k : Nat) : bridgeCore k d = bridgeCore k e := by
  rw [bridgeCore, bridgeCore, h]

theorem bridgeCore_vmod {k j : Nat} {f : Bridge → Bridge} {v : Vector Bridge 6} (hf : ∀ b, (f b).core = b.core) :
    (vget (vmod v j f) k).core = (vget v k).core :=
  vget_vmod_keeps (P := fun b => b.core = (vget v k).core) v j k f (fun h => (hf _).trans h) rfl

theorem interlock_core (o : Od) (j t : Nat) (inputs : Bool × Bool) (d : Dev) (k : Nat) :
    bridgeCore k (interlock o j t inputs d) = bridgeCore k d := by
  have hrec : ∀ data e, bridgeCore k (recordAt o t 0x3105 (0x380 + j) data e) = bridgeCore k e := fun data e =>
    bridgeCore_of_bridges (recordAt_leaves (p := .bridges) (by decide) o _ _ _ _ e) k
  unfold interlock
  dsimp only
  split
  · split
    · exact (hrec _ _).trans (bridgeCore_vmod fun _ => rfl)
    · rfl
  · split
    · rfl
    · exact (hrec _ _).trans (bridgeCore_vmod fun _ => rfl)

theorem interlocksLeave_core (o : Od) (d : Dev) (k : Nat) : bridgeCore k (interlocksLeave o d) = bridgeCore k d :=
  forEach_eq (bridgeCore k) d fun j e => by
    split
    · rfl
    · exact interlock_core _ _ _ _ _ _

theorem pronghorn_bridges (o : Od) (d : Dev) : (pronghorn o d).bridges = d.bridges := pronghorn_leaves (p := .bridges) (by decide) o d

theorem pronghornAgain_bridges (o : Od) (d : Dev) : (pronghornAgain o d).bridges = d.bridges :=
  pronghornAgain_leaves (p := .bridges) (by decide) o d

/-! ### Faults and retries (R438 to R440) -/

/-- The lowest kind of a fault that has one. -/
theorem setBits_of_ne_zero {kinds : BitVec 4} (h : kinds ≠ 0) : ∃ low rest, setBits 4 kinds.toNat = low :: rest := by
  have hne : ∀ kinds : BitVec 4, kinds ≠ 0 → setBits 4 kinds.toNat ≠ [] := by decide
  exact List.exists_cons_of_ne_nil (hne kinds h)

theorem bridgeFault_trips {o : Od} {k mask low : Nat} {rest : List Nat} {d : Dev} (hk : k < 6) (hkinds : setBits 4 mask = low :: rest)
    (hrun : (vget d.bridges k).state = .run) :
    (bridgeCore k (bridgeFault o k mask d)).faultCount = satInc (vget d.bridges k).faultCount ∧
    (bridgeCore k (bridgeFault o k mask d)).faultTime = d.clk.dt ∧
    (bridgeCore k (bridgeFault o k mask d)).state = if retriesLeft o d k = 0 then .lockout else .retryWait := by
  unfold bridgeFault
  extract_lets x kinds
  simp only [kinds, hkinds, x, hrun, bne_self_eq_false, Bool.false_eq_true, if_false]
  rw [interlocksLeave_core]
  split
  · simp only [bridgeCore, record_frame, pronghorn_bridges, vget_vset_same _ _ _ hk]
    exact ⟨rfl, rfl, rfl⟩
  · simp only [bridgeCore, record_frame, pronghorn_bridges, vget_vset_same _ _ _ hk]
    exact ⟨rfl, rfl, rfl⟩

theorem bridgeFault_completes {k : Fin 6} {kinds : BitVec 4} {s : State} (hdrv : s.dev.isOn .drv = true)
    (hrun : (vget s.dev.bridges k.val).state = .run) (hkinds : kinds ≠ 0) :
    Completes (.bridgeFault k kinds) s (fun u => u.od = s.od ∧
      (vget u.dev.bridges k.val).faultCount = satInc (vget s.dev.bridges k.val).faultCount ∧
      (vget u.dev.bridges k.val).faultTime = s.dev.clk.dt ∧
      (vget u.dev.bridges k.val).state = (if retriesLeft s.od s.dev k.val = 0 then .lockout else .retryWait)) := by
  obtain ⟨low, rest, hlow⟩ := setBits_of_ne_zero hkinds
  refine completes_drives (f := (bridgeTrip · k.val kinds.toNat)) rfl ⟨rfl, ?_⟩
  have hstep : bridgeTrip s.od k.val kinds.toNat s.dev = bridgeFault s.od k.val kinds.toNat s.dev := if_pos hdrv
  dsimp only
  rw [hstep]
  exact bridgeFault_trips k.isLt hlow hrun

/-- The end of a bridge's retry wait. -/
def retryWaitDue (k : Nat) (o : Od) (d : Dev) : Option Instant :=
  instantIf ((vget d.bridges k).state == .retryWait) (.device (retryDue o k d))

theorem retryWaitExpiry_completes {k : Fin 6} {s : State} (hdrv : s.dev.isOn .drv = true)
    (hwait : (vget s.dev.bridges k.val).state = .retryWait) (hfrom : (vget s.dev.bridges k.val).resumeFrom = none)
    (hcount : s.dev.clk.counting = true) :
    Completes (.retryWaitExpiry k) s (fun u =>
      (vget u.dev.bridges k.val).resumeFrom = some (retryDue s.od k.val s.dev + 800) ∧ u.od = s.od) := by
  refine completes_timed (due := retryWaitDue k.val) (f := (retryWaitExpiry · k.val)) rfl ⟨?_, rfl⟩
  have hbridges : (s.upTo (retryWaitDue k.val)).dev.bridges = s.dev.bridges := upTo_part _ s (p := .bridges) (by decide)
  have hover := le_dt_upTo (due := retryWaitDue k.val) (s := s) (by rw [retryWaitDue, hwait]; rfl) hcount
  have hdue : retryDue s.od k.val (s.upTo (retryWaitDue k.val)).dev = retryDue s.od k.val s.dev := by rw [retryDue, retryDue, hbridges]
  have hstep : retryWaitExpiry s.od k.val (s.upTo (retryWaitDue k.val)).dev =
      modBridge k.val (fun b => { b with resumeFrom := some (retryDue s.od k.val s.dev + 800) }) (s.upTo (retryWaitDue k.val)).dev := by
    simp [retryWaitExpiry, hbridges, hdue, hwait, hfrom, hover, hdrv]
  dsimp only
  rw [hstep]
  exact congrArg Bridge.resumeFrom (vget_vmod_same _ _ _ k.isLt)

/-! ### The clear and the self-test (R441, R442) -/

theorem writeEffect_bridgeControl (k : Fin 6) (session : Option Nat) (s : State) :
    writeEffect session (0x4200 + k.val) 1 (toLE 4 0x66726C63) s = bridgeClrfWrite k.val s ∧
    writeEffect session (0x4200 + k.val) 1 (toLE 4 0x74736574) s = bridgeTestWrite k.val s := by
  fin_cases k <;> exact ⟨rfl, rfl⟩

theorem bridgeClrf_completes {via : Via} {k : Fin 6} {s : State} (h : accepted via (0x4200 + k.val) 1 (toLE 4 0x66726C63) s = true) :
    Completes (.bridgeClrf via k) s (fun u => u.od = s.od ∧ (vget u.dev.bridges k.val).retries = [] ∧
      ((vget s.dev.pwm.pairs (14 + k.val)).active = true → (vget u.dev.bridges k.val).resumeFrom = some (s.dev.clk.dt + 800)) ∧
      ((vget s.dev.pwm.pairs (14 + k.val)).active = false → (vget u.dev.bridges k.val).state = .off)) := by
  refine completes_of_write rfl ⟨by omega, by decide, by simp, by omega, by omega⟩ h fun n t u v ho => ?_
  have hw := (writeEffect_bridgeControl k (some n) t).1
  have heff := hw.symm.trans ho.effect
  refine ⟨ho.od_kept (by rw [hw]; simp), ?_⟩
  have hpwm : t.dev.pwm = s.dev.pwm := ho.seen.part (p := .pwm) (by decide)
  have hbridges : v.dev.bridges = u.dev.bridges := ho.part (p := .bridges) (by decide)
  unfold bridgeClrfWrite at heff
  split at heff
  · cases heff
  · obtain rfl := congrArg Prod.snd heff
    simp only [wrote, State.act_dev, pronghornAgain_bridges, record_frame] at hbridges
    rw [hbridges, modBridge_bridges, vget_vmod_same _ _ _ k.isLt, hpwm, ho.seen.clk]
    cases (vget s.dev.pwm.pairs (14 + k.val)).active <;> simp

theorem bridgeTest_completes {via : Via} {k : Fin 6} {s : State} (h : accepted via (0x4200 + k.val) 1 (toLE 4 0x74736574) s = true) :
    Completes (.bridgeTest via k) s (fun u => (vget u.dev.bridges k.val).state = .selfTest ∧ u.od = s.od) := by
  refine completes_of_write rfl ⟨by omega, by decide, by simp, by omega, by omega⟩ h fun n t u v ho => ?_
  have hw := (writeEffect_bridgeControl k (some n) t).2
  have heff := hw.symm.trans ho.effect
  refine ⟨?_, ho.od_kept (by rw [hw]; simp)⟩
  have hbridges : v.dev.bridges = u.dev.bridges := ho.part (p := .bridges) (by decide)
  unfold bridgeTestWrite at heff
  dsimp only at heff
  split_ifs at heff
  · cases heff
  · cases heff
  · obtain rfl := congrArg Prod.snd heff
    rw [hbridges]
    exact congrArg Bridge.state (vget_vmod_same _ _ _ k.isLt)

theorem selftestDone_completes {k : Fin 6} {r : BitVec 8} {s : State} (hdrv : s.dev.isOn .drv = true)
    (htest : (vget s.dev.bridges k.val).state = .selfTest) :
    Completes (.selftestDone k r) s (fun u => (vget u.dev.bridges k.val).state = .off ∧
      (vget u.dev.bridges k.val).selfTest = selftestResult r.toNat ∧ u.od = s.od) := by
  refine completes_drives (f := (selftestDone · k.val r.toNat)) rfl ?_
  have hbridges : (selftestDone s.od k.val r.toNat s.dev).bridges =
      vmod s.dev.bridges k.val (fun b => { b with state := .off, selfTest := selftestResult r.toNat }) := by
    simp [selftestDone, hdrv, htest]
  dsimp only
  rw [hbridges, vget_vmod_same _ _ _ k.isLt]
  exact ⟨rfl, rfl, rfl⟩

/-! ### The end of a supply hold (R443, R444) -/

/-- Every entry of a vector is changed once, by the change for its number. -/
theorem vget_foldl_vmod {α : Type} {n : Nat} [Inhabited α] (f : Nat → α → α) (v : Vector α n) {m k : Nat} (hm : m ≤ n) :
    vget ((List.range m).foldl (fun v k => vmod v k (f k)) v) k = if k < m then f k (vget v k) else vget v k := by
  induction m with
  | zero => rfl
  | succ m ih =>
    rw [List.range_succ, List.foldl_append, List.foldl_cons, List.foldl_nil]
    by_cases hk : m = k
    · subst hk
      rw [vget_vmod_same _ _ _ (by omega), ih (by omega), if_neg (by omega), if_pos (by omega)]
    · rw [vget_vmod_other _ _ hk, ih (by omega)]
      by_cases hlt : k < m
      · rw [if_pos hlt, if_pos (by omega)]
      · rw [if_neg hlt, if_neg (by omega)]

/-- A wait for an instant of the AON oscillator ends at that instant or later. -/
theorem le_run_upTo {due : Od → Dev → Option Instant} {s : State} {t : Nat} (hdue : due s.od s.dev = some (.aon t)) :
    t ≤ (s.upTo due).dev.clk.run := by
  obtain ⟨hrun, -, -⟩ := passTicks_clock (k := ticksTo s.dev (.aon t)) (s := s)
  simp only [State.upTo, hdue]
  rw [hrun, ticksTo]
  omega

/-- The end of the hold that follows VDRV (R443). -/
def supplyHoldDue (_ : Od) (d : Dev) : Option Instant :=
  instantIf (vget d.rails.ok 8 && !d.hvLatched) (.aon (d.rails.vdrvSince + msT 1))

theorem supplyHoldRelease_completes {k : Fin 6} {s : State} (hdrv : s.dev.isOn .drv = true) (hrail : vget s.dev.rails.ok 8 = true)
    (hlatch : s.dev.hvLatched = false) (hhold : (vget s.dev.bridges k.val).state = .supplyHold)
    (hfrom : (vget s.dev.bridges k.val).resumeFrom = none) :
    Completes .supplyHoldRelease s (fun u => u.od = s.od ∧
      ((vget s.dev.bridges k.val).wasLockout = true → (vget u.dev.bridges k.val).state = .lockout) ∧
      ((vget s.dev.bridges k.val).wasLockout = false → (vget s.dev.pwm.pairs (14 + k.val)).active = false →
        (vget u.dev.bridges k.val).state = .off) ∧
      ((vget s.dev.bridges k.val).wasLockout = false → (vget s.dev.pwm.pairs (14 + k.val)).active = true →
        (vget u.dev.bridges k.val).resumeFrom = some (u.dev.clk.dt + 800))) := by
  refine completes_timed (due := supplyHoldDue) (f := fun o d => if d.isOn .drv then supplyHoldRelease o d else d) rfl ⟨rfl, ?_⟩
  have hrails : (s.upTo supplyHoldDue).dev.rails = s.dev.rails := upTo_part _ s (p := .rails) (by decide)
  have hhv : (s.upTo supplyHoldDue).dev.hvLatched = s.dev.hvLatched := upTo_part _ s (p := .hvLatched) (by decide)
  have hbridges : (s.upTo supplyHoldDue).dev.bridges = s.dev.bridges := upTo_part _ s (p := .bridges) (by decide)
  have hpwm := upTo_pwm supplyHoldDue s
  have hover := le_run_upTo (due := supplyHoldDue) (s := s) (t := s.dev.rails.vdrvSince + msT 1) (by simp [supplyHoldDue, instantIf, hrail, hlatch])
  have hclk : ∀ e, (pronghorn s.od e).clk = e.clk := fun e => pronghorn_leaves (p := .clk) (by decide) s.od e
  have hdrv' := (upTo_isOn supplyHoldDue s .drv).trans hdrv
  simp only [hdrv', if_true]
  generalize (s.upTo supplyHoldDue).dev = w at hrails hhv hbridges hpwm hover
  unfold supplyHoldRelease
  rw [if_neg (by simp [hrails, hrail, hhv, hlatch, hover])]
  simp only [pronghorn_bridges, hclk, vget_foldl_vmod _ _ (le_refl 6), k.isLt, if_true, hbridges, hpwm, hhold, hfrom]
  refine ⟨fun hlock => ?_, fun hlock hidle => ?_, fun hlock hactive => ?_⟩
  · simp [hlock]
  · simp [hlock, hidle]
  · simp [hlock, hactive]

/-- Settles O49: a trip, its retry, the two host's rows, the self-test's result and the release act on their bridge. -/
theorem bridgesTripAndRecover : Obligations.BridgesTripAndRecover :=
  ⟨fun _ _ _ => bridgeFault_completes, fun _ _ => retryWaitExpiry_completes, fun _ _ _ => bridgeClrf_completes,
    fun _ _ _ => bridgeTest_completes, fun _ _ _ => selftestDone_completes, fun _ _ => supplyHoldRelease_completes⟩

end Sys2Proof.Machine
end

section
/-! Traction axes (O50): commands, the loop sample and the times of a start, a re-catch and a deceleration. -/
namespace Sys2Proof.Machine

/-! ### Entries to a state -/

/-- An axis once it has entered `st` at `now`. -/
def Axis.entered (st : AxisState) (inh : Inhibit) (cause now : Nat) (a : Axis) : Axis :=
  { a with
    state := st, cause := cause, since := now, inhibit := inh,
    inhibitAt := if inh == a.inhibit then a.inhibitAt else now,
    implausible := 0, plausible := 0, slowSince := none, delayFrom := none,
    pElec := if st == .disabled || st == .asc || st == .blocked then 0 else a.pElec }

theorem axisEnter_axes (o : Od) (n : Nat) (st : AxisState) (inh : Inhibit) (cause : Nat) (d : Dev) :
    (axisEnter o n st inh cause d).axes = vset d.axes n ((vget d.axes n).entered st inh cause d.clk.dt) :=
  record_leaves (p := .axes) (by decide) o _ _ _ _

theorem axisEnter_axis {o : Od} {n : Nat} {st : AxisState} {inh : Inhibit} {cause : Nat} (d : Dev) (hn : n < 6) :
    vget (axisEnter o n st inh cause d).axes n = (vget d.axes n).entered st inh cause d.clk.dt := by
  rw [axisEnter_axes, vget_vset_same _ _ _ hn]

theorem mechEvaluate_axes (o : Od) (d : Dev) : (mechEvaluate o d).axes = d.axes := mechEvaluate_leaves (p := .axes) (by decide) o d

theorem mechEvaluate_pwm (o : Od) (d : Dev) : (mechEvaluate o d).pwm = d.pwm := mechEvaluate_leaves (p := .pwm) (by decide) o d

theorem ladderStarts_axes (o : Od) (before d : Dev) : (ladderStarts o before d).axes = d.axes :=
  ladderStarts_leaves (p := .axes) (by decide) o before d

/-- A re-catch enters RECATCH, or FAULT when it is one too many of the last 10 s (R459). -/
theorem enterRecatch_axis {o : Od} {n cause : Nat} (d : Dev) (hn : n < 6) :
    (vget (enterRecatch o n cause d).axes n).state =
      (if odU o (axisIx n) 0x23 < ((vget d.axes n).recatches.filter (fun t => d.clk.dt < t + secT 10)).length + 1
       then .fault else .recatch) ∧
    (vget (enterRecatch o n cause d).axes n).stoHeld = (vget d.axes n).stoHeld ∧
    (vget (enterRecatch o n cause d).axes n).forcedHeld = (vget d.axes n).forcedHeld := by
  unfold enterRecatch
  dsimp only
  rw [List.length_append, List.length_singleton]
  split
  · rw [axisEnter_axis _ hn, vget_vset_same _ _ _ hn]
    exact ⟨rfl, rfl, rfl⟩
  · rw [axisEnter_axis _ hn, vget_vset_same _ _ _ hn]
    exact ⟨rfl, rfl, rfl⟩

theorem blockAndWait_axis {o : Od} {n cause : Nat} (d : Dev) (hn : n < 6) :
    vget (blockAndWait o n cause d).axes n = { (vget d.axes n).entered .blocked .block cause d.clk.dt with delayFrom := some d.clk.dt } := by
  unfold blockAndWait
  dsimp only
  rw [vget_vmod_same _ _ _ hn, axisEnter_axis _ hn]

/-! ### Commands (R453, R454) -/

theorem writeEffect_axisControl (n : Fin 6) (session : Option Nat) (s : State) :
    writeEffect session (axisIx n.val) 1 (toLE 4 0x62616E65) s = axisEnableWrite n.val false s ∧
    writeEffect session (axisIx n.val) 1 (toLE 4 0x74616365) s = axisEnableWrite n.val true s ∧
    writeEffect session (axisIx n.val) 1 (toLE 4 0x61736964) s = axisDisaWrite n.val s ∧
    writeEffect session (axisIx n.val) 1 (toLE 4 0x6C636564) s = axisDeclWrite n.val s ∧
    writeEffect session (axisIx n.val) 1 (toLE 4 0x66726C63) s = axisClrfWrite n.val s := by
  fin_cases n <;> exact ⟨rfl, rfl, rfl, rfl, rfl⟩

theorem axisControl_row (n : Fin 6) (v : Nat) : PlainRow (axisIx n.val) 1 (toLE 4 v) := by
  have hn := n.isLt
  refine ⟨?_, by decide, by simp, ?_, ?_⟩ <;> unfold axisIx <;> omega

/-- What an enabling leaves an axis: held back where a group of its pairs is forced, or on its way. -/
def AxisEnabled (ecat : Bool) (a : Axis) : Prop :=
  a.stoHeld = false ∧ (a.forcedHeld = true → a.state = .blocked) ∧
    (a.forcedHeld = false → if ecat then a.state = .recatch ∨ a.state = .fault else a.state = .starting ∧ a.start = .polarity 0)

theorem axisEnable_enables {o : Od} {n : Nat} {ecat : Bool} (d : Dev) (hn : n < 6) : AxisEnabled ecat (vget (axisEnable o n ecat d).axes n) := by
  unfold axisEnable
  extract_lets a d1 pairs pwm d0 d2 d3
  have hready : (vget d2.axes n).stoHeld = false ∧ (vget d2.axes n).start = .polarity 0 := by
    simp only [d2, vget_vmod_same _ _ _ hn, and_self]
  clear_value d2
  have hstep : (vget d3.axes n).stoHeld = false ∧
      if ecat then (vget d3.axes n).state = .recatch ∨ (vget d3.axes n).state = .fault
      else (vget d3.axes n).state = .starting ∧ (vget d3.axes n).start = .polarity 0 := by
    simp only [d3]
    cases ecat with
    | false =>
      simp only [Bool.false_eq_true, if_false, axisEnter_axis _ hn]
      exact ⟨hready.1, rfl, hready.2⟩
    | true =>
      obtain ⟨hstate, hsto, -⟩ := enterRecatch_axis (o := o) (cause := 0x01) d2 hn
      simp only [if_true]
      refine ⟨hsto.trans hready.1, ?_⟩
      rw [hstate]
      split <;> simp
  obtain ⟨hsto, hstate⟩ := hstep
  split
  case isTrue hforced =>
    rw [axisEnter_axis _ hn]
    exact ⟨hsto, fun _ => rfl, fun h => absurd (hforced.symm.trans h) (by decide)⟩
  case isFalse hforced => exact ⟨hsto, fun h => absurd h hforced, fun _ => hstate⟩

theorem axisEnable_completes {c : Instr} {via : Via} {n : Fin 6} {v : Nat} {ecat : Bool} {s : State}
    (hexec : exec c s = acts (hostWrite via (axisIx n.val) 1 (toLE 4 v)) s)
    (heffect : ∀ k t, writeEffect (some k) (axisIx n.val) 1 (toLE 4 v) t = axisEnableWrite n.val ecat t)
    (h : accepted via (axisIx n.val) 1 (toLE 4 v) s = true) :
    Completes c s (fun u => AxisEnabled ecat (vget u.dev.axes n.val) ∧ u.od = s.od) := by
  refine completes_of_write hexec (axisControl_row n v) h fun k t u w ho => ?_
  have hw := heffect k t
  obtain ⟨-, rfl⟩ := unlessRefused_accepted (hw.symm.trans ho.effect)
  refine ⟨?_, ho.od_kept (by rw [hw]; simp [axisEnableWrite])⟩
  have haxes : w.dev.axes = (axisEnable t.od n.val ecat t.dev).axes := (ho.part (p := .axes) (by decide)).trans (ladderStarts_axes _ _ _)
  rw [haxes]
  exact axisEnable_enables t.dev n.isLt

theorem axisPair_lt {n : Nat} : axisPair n + 3 ≤ 20 := by
  unfold axisPair
  split_ifs <;> omega

theorem axisDisable_disables {o : Od} {n cause : Nat} (d : Dev) (hn : n < 6) :
    (vget (axisDisable o n cause d).axes n).state = .disabled ∧ (vget (axisDisable o n cause d).axes n).cause = cause ∧
    (vget (axisDisable o n cause d).pwm.pairs (axisPair n)).enabled = false := by
  have hoff : PairAtRest (axisPair n) (forEach (axisPairs n) (pairDisable o) (missEnds o n (runEdges o n false false d))) := by
    have hlt := axisPair_lt (n := n)
    refine forEach_establishes (P := fun _ => True) (by simp [axisPairs]) (fun _ _ _ => trivial) (fun r e he => ?_)
      (fun e _ => pairDisable_rests e (by omega)) trivial
    exact pairDisable_keeps_rest r he
  unfold axisDisable
  generalize forEach (axisPairs n) (pairDisable o) (missEnds o n (runEdges o n false false d)) = e at hoff ⊢
  dsimp only
  rw [mechEvaluate_axes, mechEvaluate_pwm, vget_vmod_same _ _ _ hn, axisEnter_axis _ hn, axisEnter_pwm]
  exact ⟨rfl, rfl, hoff.1⟩

theorem axisDisa_completes {via : Via} {n : Fin 6} {s : State} (h : accepted via (axisIx n.val) 1 (toLE 4 0x61736964) s = true) :
    Completes (.axisDisa via n) s (fun u => (vget u.dev.axes n.val).state = .disabled ∧ (vget u.dev.axes n.val).cause = 0x01 ∧
      (vget u.dev.pwm.pairs (axisPair n.val)).enabled = false ∧ u.od = s.od) := by
  refine completes_of_write rfl (axisControl_row n _) h fun k t u v ho => ?_
  have hw := (writeEffect_axisControl n (some k) t).2.2.1
  have heff := hw.symm.trans ho.effect
  have hod := ho.od_kept (by rw [hw]; simp)
  unfold axisDisaWrite at heff
  split at heff
  · cases heff
  · obtain rfl := congrArg Prod.snd heff
    obtain ⟨hstate, hcause, hpair⟩ := axisDisable_disables (o := t.od) (cause := 0x01) t.dev n.isLt
    have haxes : v.dev.axes = (axisDisable t.od n.val 0x01 t.dev).axes := ho.part (p := .axes) (by decide)
    have hpwm : v.dev.pwm = (axisDisable t.od n.val 0x01 t.dev).pwm := ho.part (p := .pwm) (by decide)
    rw [haxes, hpwm]
    exact ⟨hstate, hcause, hpair, hod⟩

theorem axisDecl_completes {via : Via} {n : Fin 6} {s : State} (h : accepted via (axisIx n.val) 1 (toLE 4 0x6C636564) s = true) :
    Completes (.axisDecl via n) s (fun u => (vget u.dev.axes n.val).state = .decel ∧ (vget u.dev.axes n.val).cause = 0x01 ∧ u.od = s.od) := by
  refine completes_of_write rfl (axisControl_row n _) h fun k t u v ho => ?_
  have hw := (writeEffect_axisControl n (some k) t).2.2.2.1
  have heff := hw.symm.trans ho.effect
  have hod := ho.od_kept (by rw [hw]; simp)
  unfold axisDeclWrite at heff
  split at heff
  · cases heff
  next hrunning =>
    obtain rfl := congrArg Prod.snd heff
    have haxes : v.dev.axes = (axisDecel t.od n.val 0x01 t.dev).axes := ho.part (p := .axes) (by decide)
    have hstate : (vget t.dev.axes n.val).state = .running := by simpa using hrunning
    rw [haxes, axisDecel, if_pos (by simp [hstate]), axisEnter_axis _ n.isLt]
    exact ⟨rfl, rfl, hod⟩

theorem axisClrf_completes {via : Via} {n : Fin 6} {s : State} (h : accepted via (axisIx n.val) 1 (toLE 4 0x66726C63) s = true) :
    Completes (.axisClrf via n) s (fun u => u.od = s.od ∧ (vget u.dev.axes n.val).recatches = [] ∧
      (vget u.dev.axes n.val).state = (if (vget s.dev.axes n.val).inhibit = .short then .asc else .blocked)) := by
  refine completes_of_write rfl (axisControl_row n _) h fun k t u v ho => ?_
  have hw := (writeEffect_axisControl n (some k) t).2.2.2.2
  have heff := hw.symm.trans ho.effect
  refine ⟨ho.od_kept (by rw [hw]; simp), ?_⟩
  have hseen : t.dev.axes = s.dev.axes := ho.seen.part (p := .axes) (by decide)
  unfold axisClrfWrite at heff
  dsimp only at heff
  split at heff
  · cases heff
  · obtain rfl := congrArg Prod.snd heff
    have haxes : v.dev.axes = _ := ho.part (p := .axes) (by decide)
    rw [haxes, ← hseen]
    simp only [wrote, State.act_dev, beq_iff_eq, Part.of]
    split
    · rw [axisEnter_axis _ n.isLt, vget_vmod_same _ _ _ n.isLt]
      exact ⟨rfl, rfl⟩
    · rw [blockAndWait_axis _ n.isLt, vget_vmod_same _ _ _ n.isLt]
      exact ⟨rfl, rfl⟩

/-! ### The loop sample (R451, R455 to R461) -/

/-- What a loop sample measures of an axis: the sample's number, the speed, the angles and the currents. -/
def Axis.motion (a : Axis) : Nat × Rat × Rat × Rat × Rat × Rat := (a.pCount, a.speed, a.theta, a.iD, a.iQ, a.thetaMech)

/-- The measures of axis `n` of a device. -/
def motionOf (n : Nat) (d : Dev) : Nat × Rat × Rat × Rat × Rat × Rat := (vget d.axes n).motion

theorem motionOf_of_axes {d e : Dev} (h : d.axes = e.axes) (n : Nat) : motionOf n d = motionOf n e := by rw [motionOf, motionOf, h]

theorem motion_vset {n m : Nat} {a : Axis} {v : Vector Axis 6} (ha : a.motion = (vget v m).motion) :
    (vget (vset v m a) n).motion = (vget v n).motion :=
  vget_vset_keeps (P := fun a => a.motion = (vget v n).motion) v m n a (fun h => ha.trans h) rfl

theorem motion_vmod {n m : Nat} {f : Axis → Axis} {v : Vector Axis 6} (hf : ∀ a, (f a).motion = a.motion) :
    (vget (vmod v m f) n).motion = (vget v n).motion := motion_vset (hf _)

theorem record_motion (o : Od) (code source : Nat) (data : Bytes) (d : Dev) (n : Nat) :
    motionOf n (record o code source data d) = motionOf n d :=
  motionOf_of_axes (record_leaves (p := .axes) (by decide) o _ _ _ d) n

theorem axisEnter_motion (o : Od) (m : Nat) (st : AxisState) (inh : Inhibit) (cause : Nat) (d : Dev) (n : Nat) :
    motionOf n (axisEnter o m st inh cause d) = motionOf n d := by
  rw [motionOf, axisEnter_axes]
  exact motion_vset rfl

theorem blockAndWait_motion (o : Od) (m cause : Nat) (d : Dev) (n : Nat) : motionOf n (blockAndWait o m cause d) = motionOf n d :=
  Eq.trans (motion_vmod fun _ => rfl) (axisEnter_motion ..)

theorem enterRecatch_motion (o : Od) (m cause : Nat) (d : Dev) (n : Nat) : motionOf n (enterRecatch o m cause d) = motionOf n d := by
  unfold enterRecatch
  dsimp only
  split
  · exact (axisEnter_motion ..).trans (motion_vset rfl)
  · exact (axisEnter_motion ..).trans (motion_vset rfl)

theorem runEdges_motion (o : Od) (m : Nat) (regen fast : Bool) (d : Dev) (n : Nat) : motionOf n (runEdges o m regen fast d) = motionOf n d := by
  have hset : motionOf n { d with axes := vset d.axes m { vget d.axes m with regenRun := regen, overRun := fast } } = motionOf n d :=
    motion_vset rfl
  unfold runEdges
  extract_lets a d1 d2
  have hregen : motionOf n d2 = motionOf n d := by
    simp only [d2]
    split
    · exact hset
    · exact (record_motion ..).trans hset
  split
  · exact hregen
  · exact (record_motion ..).trans hregen

theorem missEnds_motion (o : Od) (m : Nat) (d : Dev) (n : Nat) : motionOf n (missEnds o m d) = motionOf n d := by
  unfold missEnds
  dsimp only
  split
  · rfl
  · exact (record_motion ..).trans (motion_vset rfl)

theorem handOver_motion (o : Od) (m : Nat) (duties : List Rat) (d : Dev) (n : Nat) : motionOf n (handOver o m duties d) = motionOf n d := by
  unfold handOver
  extract_lets u late a d1 pairs
  split
  · have hmiss : motionOf n d1 = motionOf n d := motion_vset rfl
    split
    · exact (record_motion ..).trans hmiss
    · exact hmiss
  · exact missEnds_motion ..

theorem startFailed_motion (o : Od) (m reason : Nat) (d : Dev) (n : Nat) : motionOf n (startFailed o m reason d) = motionOf n d := by
  unfold startFailed
  extract_lets a k d1
  have hcount : motionOf n d1 = motionOf n d := motion_vset rfl
  split
  · exact (axisEnter_motion ..).trans (Eq.trans (motion_vmod fun _ => rfl) hcount)
  · exact (record_motion ..).trans (Eq.trans (motion_vmod fun _ => rfl) hcount)

theorem declareLos_motion (o : Od) (m tests : Nat) (d : Dev) (n : Nat) : motionOf n (declareLos o m tests d) = motionOf n d := by
  unfold declareLos
  extract_lets a block d1
  have hflag : motionOf n d1 = motionOf n d := (record_motion ..).trans (motion_vmod fun _ => rfl)
  split
  · exact (blockAndWait_motion ..).trans hflag
  · split
    · exact (blockAndWait_motion ..).trans hflag
    · exact (axisEnter_motion ..).trans hflag

theorem superviseStart_motion (o : Od) (m : Nat) (d : Dev) (n : Nat) : motionOf n (superviseStart o m d) = motionOf n d := by
  unfold superviseStart
  extract_lets a ix cyc put t lim
  split
  next k hk =>
    extract_lets a1 big
    have ha1 : a1.motion = (vget d.axes m).motion := by
      simp only [a1]
      split_ifs <;> rfl
    clear_value a1
    split
    · exact motion_vset ha1
    · split
      · exact (startFailed_motion ..).trans (motion_vset ha1)
      · exact motion_vset ha1
  next th first hk =>
    extract_lets first1 move rb d1
    have hput : motionOf n d1 = motionOf n d := motion_vset rfl
    split
    · exact (axisEnter_motion ..).trans hput
    · split
      · exact (startFailed_motion ..).trans hput
      · exact hput
  · rfl

theorem superviseAxis_motion (o : Od) (m tests : Nat) (evaluated : Bool) (d : Dev) (n : Nat) :
    motionOf n (superviseAxis o m tests evaluated d) = motionOf n d := by
  unfold superviseAxis
  extract_lets a cnt bad a1 d1 los
  have hput : motionOf n d1 = motionOf n d := motion_vset rfl
  have hlos : motionOf n (declareLos o m tests d1) = motionOf n d := (declareLos_motion ..).trans hput
  clear_value d1
  split
  · split
    · exact hlos
    · exact hput
  · split
    · exact hlos
    · exact hput
  · split
    · exact hlos
    · split
      · exact Eq.trans (motion_vmod fun _ => rfl) ((axisEnter_motion ..).trans hput)
      · exact hput
  · split
    · exact (enterRecatch_motion ..).trans hput
    · exact hput
  · exact hput

theorem trackStop_motion (o : Od) (m : Nat) (d : Dev) (n : Nat) : motionOf n (trackStop o m d) = motionOf n d := by
  refine motion_vmod fun a => ?_
  split <;> rfl

theorem loopSample_motion {o : Od} {n : Nat} {d : Dev} (hn : n < 6) (hon : axisOn (vget d.axes n) = true)
    (hactive : (vget d.pwm.pairs (axisPair n)).active = true) :
    motionOf n (loopSample o n d) = (loopStep o n d).axis.motion ∧ (loopSample o n d).free = d.free + 1 := by
  unfold loopSample
  extract_lets a w tests st axis d1 d2 d3 back d4 d5
  have hd1 : motionOf n d1 = st.axis.motion := by
    rw [motionOf, vget_vset_same _ _ _ hn]
    rfl
  have hd3 : motionOf n (back d3) = st.axis.motion := (handOver_motion ..).trans ((runEdges_motion ..).trans hd1)
  have hd4 : motionOf n d4 = st.axis.motion ∧ d4.free = d.free := by
    simp only [d4]
    split
    · exact ⟨(superviseStart_motion ..).trans hd3, superviseStart_leaves (p := .free) (by decide) o n (back d3)⟩
    · exact ⟨(superviseAxis_motion ..).trans hd3, superviseAxis_leaves (p := .free) (by decide) o n _ _ (back d3)⟩
  clear_value d4
  have hd5 : motionOf n d5 = st.axis.motion ∧ d5.free = d.free := by
    simp only [d5]
    split
    · exact ⟨(axisEnter_motion ..).trans hd4.1, (axisEnter_leaves (p := .free) (by decide) o n _ _ _ d4).trans hd4.2⟩
    · exact hd4
  clear_value d5
  rw [if_neg (by simp [a, hon, hactive])]
  constructor
  · exact (motionOf_of_axes (mechEvaluate_axes ..) n).trans ((trackStop_motion ..).trans hd5.1)
  · refine (mechEvaluate_leaves (p := .free) (by decide) o _).trans ?_
    exact congrArg (· + 1) hd5.2

theorem loopStep_pCount (o : Od) (n : Nat) (d : Dev) : (loopStep o n d).axis.pCount = (vget d.axes n).pCount + 1 := rfl

theorem axisLoopSample_completes {n : Fin 6} {s : State} (hdrv : s.dev.isOn .drv = true) (hon : (vget s.dev.axes n.val).state ≠ .disabled)
    (hactive : (vget s.dev.pwm.pairs (axisPair n.val)).active = true) :
    Completes (.axisLoopSample n) s (fun u => motionOf n.val u.dev = (loopStep s.od n.val s.dev).axis.motion ∧
      u.dev.free = s.dev.free + 1 ∧ u.od = s.od) := by
  refine completes_drives (f := whileDrv (loopSample · n.val)) rfl ?_
  dsimp only
  rw [whileDrv, if_pos hdrv]
  obtain ⟨hmotion, hfree⟩ := loopSample_motion (o := s.od) n.isLt (by simpa [axisOn] using hon) hactive
  exact ⟨hmotion, hfree, rfl⟩

/-! ### The times of an axis (R454, R459, R460) -/

/-- While DRV is ON, a command of its own instant does what its function does at the end of the wait. -/
theorem completes_whileDrv {c : Instr} {due : Od → Dev → Option Instant} {f : Od → Dev → Dev} {s : State} {P : State → Prop}
    (hexec : exec c s = timed due (whileDrv f) s) (hdrv : s.dev.isOn .drv = true)
    (h : P { od := s.od, dev := f s.od (s.upTo due).dev, pending := s.pending }) : Completes c s P := by
  refine completes_timed hexec ?_
  have hon : (s.upTo due).dev.isOn .drv = true := by
    simpa using hdrv
  rwa [whileDrv, if_pos hon]

/-- A delay is over at the end of the wait for it. -/
theorem elapsed_upTo {due : Od → Dev → Option Instant} {s : State} {since : Option Nat} {span : Nat}
    (hdue : due s.od s.dev = afterDue since span) (hsince : since.isSome = true) (hcount : s.dev.clk.counting = true) :
    elapsed since span (s.upTo due).dev = true := by
  obtain ⟨t, rfl⟩ := Option.isSome_iff_exists.1 hsince
  exact decide_eq_true (le_dt_upTo (t := t + span) hdue hcount)

theorem upTo_axes (due : Od → Dev → Option Instant) (s : State) : (s.upTo due).dev.axes = s.dev.axes :=
  upTo_part due s (p := .axes) (by decide)

theorem startRetryDelayExpiry_completes {n : Fin 6} {s : State} {t : Nat} (hdrv : s.dev.isOn .drv = true)
    (hcount : s.dev.clk.counting = true) (hstate : (vget s.dev.axes n.val).state = .starting)
    (hstart : (vget s.dev.axes n.val).start = .wait t) :
    Completes (.startRetryDelayExpiry n) s (fun u => (vget u.dev.axes n.val).start = .polarity 0 ∧
      (vget u.dev.axes n.val).inhibit = .none ∧ u.od = s.od) := by
  refine completes_whileDrv (due := fun _ => retryStartDue n.val) (f := fun _ => startRetry n.val) rfl hdrv ?_
  have hover := elapsed_upTo (due := fun _ => retryStartDue n.val) (s := s) (since := some t) (span := msT 50)
    (by simp [retryStartDue, hstate, hstart, afterDue]) rfl hcount
  generalize hv : s.upTo (fun _ => retryStartDue n.val) = v at hover
  have haxes : v.dev.axes = s.dev.axes := hv ▸ upTo_axes _ s
  simp only [startRetry, haxes, hstate, hstart, hover, if_true, vget_vset_same _ _ _ n.isLt, and_self]

theorem startFailed_axis {o : Od} {n reason : Nat} {d : Dev} (hn : n < 6) :
    (vget (startFailed o n reason d).axes n).attempts = (vget d.axes n).attempts + 1 ∧
    (odU o (axisIx n) 0x1B < (vget d.axes n).attempts + 1 → (vget (startFailed o n reason d).axes n).state = .fault) ∧
    ((vget d.axes n).attempts + 1 ≤ odU o (axisIx n) 0x1B →
      (vget (startFailed o n reason d).axes n).start = .wait (startFailed o n reason d).clk.dt) := by
  have hclk : (startFailed o n reason d).clk = d.clk := startFailed_leaves (p := .clk) (by decide) o n reason d
  rw [hclk]
  unfold startFailed
  extract_lets a k d1
  have hd1 : vget d1.axes n = _ := vget_vset_same d.axes n _ hn
  split
  case isTrue hlast =>
    simp only [axisEnter_axis _ hn, axisFlag, vget_vmod_same _ _ _ hn, hd1]
    exact ⟨rfl, fun _ => rfl, fun h => absurd hlast (Nat.not_lt.2 h)⟩
  case isFalse hmore =>
    simp only [record_frame, vget_vmod_same _ _ _ hn, hd1]
    exact ⟨rfl, fun h => absurd h hmore, fun _ => trivial⟩

theorem startTimeout_completes {n : Fin 6} {s : State} {th : Rat} {t : Nat} (hdrv : s.dev.isOn .drv = true)
    (hcount : s.dev.clk.counting = true) (hstate : (vget s.dev.axes n.val).state = .starting)
    (hstart : (vget s.dev.axes n.val).start = .torque th (some t)) :
    Completes (.startTimeout n) s (fun u => (vget u.dev.axes n.val).attempts = (vget s.dev.axes n.val).attempts + 1 ∧ u.od = s.od ∧
      (odU s.od (axisIx n.val) 0x1B < (vget s.dev.axes n.val).attempts + 1 → (vget u.dev.axes n.val).state = .fault) ∧
      ((vget s.dev.axes n.val).attempts + 1 ≤ odU s.od (axisIx n.val) 0x1B → (vget u.dev.axes n.val).start = .wait u.dev.clk.dt)) := by
  refine completes_whileDrv (due := axisStartDue n.val) (f := (axisStartTimeout · n.val)) rfl hdrv ?_
  have hover := elapsed_upTo (due := axisStartDue n.val) (s := s) (since := some t) (span := msT (odU s.od (axisIx n.val) 0x1A))
    (by simp [axisStartDue, hstate, hstart]) rfl hcount
  have haxes := upTo_axes (axisStartDue n.val) s
  generalize s.upTo (axisStartDue n.val) = v at hover haxes
  have hstep : axisStartTimeout s.od n.val v.dev = startFailed s.od n.val 3 v.dev := by
    simp only [axisStartTimeout, haxes, hstate, hstart, hover, if_true]
  dsimp only
  rw [hstep, ← haxes]
  obtain ⟨hattempts, hfault, hwait⟩ := startFailed_axis (o := s.od) (reason := 3) (d := v.dev) n.isLt
  exact ⟨hattempts, rfl, hfault, hwait⟩

/-- The end of an axis's RECATCH_DELAY, where nothing holds the axis. -/
def recatchDelayDue (n : Nat) (o : Od) (d : Dev) : Option Instant :=
  if (vget d.axes n).state == .blocked && !(vget d.axes n).stoHeld && !(vget d.axes n).hardHeld && !(vget d.axes n).forcedHeld
  then afterDue (vget d.axes n).delayFrom (msT (odU o (axisIx n) 0x22)) else none

theorem recatchDelayExpiry_completes {n : Fin 6} {s : State} (hdrv : s.dev.isOn .drv = true) (hcount : s.dev.clk.counting = true)
    (hstate : (vget s.dev.axes n.val).state = .blocked) (hsto : (vget s.dev.axes n.val).stoHeld = false)
    (hhard : (vget s.dev.axes n.val).hardHeld = false) (hforced : (vget s.dev.axes n.val).forcedHeld = false)
    (hdelay : (vget s.dev.axes n.val).delayFrom.isSome = true) :
    Completes (.recatchDelayExpiry n) s (fun u => u.od = s.od ∧ (vget u.dev.axes n.val).state =
      (if odU s.od (axisIx n.val) 0x23 < ((vget s.dev.axes n.val).recatches.filter (fun t => u.dev.clk.dt < t + secT 10)).length + 1
       then .fault else .recatch)) := by
  refine completes_whileDrv (due := recatchDelayDue n.val) (f := (recatchDelay · n.val)) rfl hdrv ⟨rfl, ?_⟩
  have hover := elapsed_upTo (due := recatchDelayDue n.val) (s := s) (span := msT (odU s.od (axisIx n.val) 0x22))
    (by simp [recatchDelayDue, hstate, hsto, hhard, hforced]) hdelay hcount
  have haxes := upTo_axes (recatchDelayDue n.val) s
  generalize s.upTo (recatchDelayDue n.val) = v at hover haxes
  dsimp only
  rw [recatchDelay]
  simp only [haxes, hstate, hsto, hhard, hforced, hover, beq_self_eq_true, Bool.not_false, Bool.and_self, if_true]
  generalize hd : ({ v.dev with axes := vset s.dev.axes n.val _ } : Dev) = d
  have hrecatches : (vget d.axes n.val).recatches = (vget s.dev.axes n.val).recatches := by
    rw [← hd, vget_vset_same _ _ _ n.isLt]
  have hclk : (enterRecatch s.od n.val (recatchCause (vget s.dev.axes n.val).cause) d).clk = d.clk :=
    enterRecatch_leaves (p := .clk) (by decide) _ _ _ d
  rw [hclk, ← hrecatches]
  exact (enterRecatch_axis d n.isLt).1

/-- The end of the time for a re-catch. -/
def recatchTimeoutDue (n : Nat) (_ : Od) (d : Dev) : Option Instant :=
  if (vget d.axes n).state == .recatch then afterDue (some (vget d.axes n).since) (msT 100) else none

theorem recatchTimeout_completes {n : Fin 6} {s : State} (hdrv : s.dev.isOn .drv = true) (hcount : s.dev.clk.counting = true)
    (hstate : (vget s.dev.axes n.val).state = .recatch) :
    Completes (.recatchTimeout n) s (fun u => (vget u.dev.axes n.val).state = .blocked ∧
      (vget u.dev.axes n.val).delayFrom = some u.dev.clk.dt ∧ u.od = s.od) := by
  refine completes_whileDrv (due := recatchTimeoutDue n.val) (f := (recatchTimeout · n.val)) rfl hdrv ?_
  have hover := elapsed_upTo (due := recatchTimeoutDue n.val) (s := s) (span := msT 100) (since := some (vget s.dev.axes n.val).since)
    (by simp [recatchTimeoutDue, hstate]) rfl hcount
  have haxes := upTo_axes (recatchTimeoutDue n.val) s
  generalize s.upTo (recatchTimeoutDue n.val) = v at hover haxes
  have hstep : recatchTimeout s.od n.val v.dev = blockAndWait s.od n.val 0x06 v.dev := by
    simp only [recatchTimeout, haxes, hstate, hover, beq_self_eq_true, Bool.and_self, if_true]
  have hclk : (blockAndWait s.od n.val 0x06 v.dev).clk = v.dev.clk := blockAndWait_leaves (p := .clk) (by decide) _ _ _ v.dev
  dsimp only
  rw [hstep, hclk, blockAndWait_axis _ n.isLt]
  exact ⟨rfl, rfl, rfl⟩

/-- The end of 10 ms at or below STOP_SPEED. -/
def decelStopDue (n : Nat) (_ : Od) (d : Dev) : Option Instant :=
  if (vget d.axes n).state == .decel then afterDue (vget d.axes n).slowSince (msT 10) else none

theorem decelStopComplete_completes {n : Fin 6} {s : State} (hdrv : s.dev.isOn .drv = true) (hcount : s.dev.clk.counting = true)
    (hstate : (vget s.dev.axes n.val).state = .decel) (hslow : (vget s.dev.axes n.val).slowSince.isSome = true) :
    Completes (.decelStopComplete n) s (fun u => (vget u.dev.axes n.val).state = .disabled ∧ (vget u.dev.axes n.val).cause = 0x0C ∧
      (vget u.dev.pwm.pairs (axisPair n.val)).enabled = false ∧ u.od = s.od) := by
  refine completes_whileDrv (due := decelStopDue n.val) (f := (decelStop · n.val)) rfl hdrv ?_
  have hover := elapsed_upTo (due := decelStopDue n.val) (s := s) (span := msT 10) (by simp [decelStopDue, hstate]) hslow hcount
  have haxes := upTo_axes (decelStopDue n.val) s
  generalize s.upTo (decelStopDue n.val) = v at hover haxes
  have hstep : decelStop s.od n.val v.dev = axisDisable s.od n.val 0x0C v.dev := by
    simp only [decelStop, haxes, hstate, hover, beq_self_eq_true, Bool.and_self, if_true]
  dsimp only
  rw [hstep]
  obtain ⟨hdisabled, hcause, hpair⟩ := axisDisable_disables (o := s.od) (cause := 0x0C) v.dev n.isLt
  exact ⟨hdisabled, hcause, hpair, rfl⟩

/-- Settles O50: an enabling is read off its four steps, a loop sample off the measures that its supervision keeps, and each time off the
wait that reaches it. -/
theorem axesChangeState : Obligations.AxesChangeState := by
  refine ⟨fun via n s h => ?_, fun via n s h => ?_, fun via n s => axisDisa_completes, fun via n s => axisDecl_completes,
    fun via n s => axisClrf_completes, fun n s hdrv hon hactive => ?_, fun n s t => startRetryDelayExpiry_completes,
    fun n s th t => startTimeout_completes, fun n s => recatchDelayExpiry_completes, fun n s => recatchTimeout_completes,
    fun n s => decelStopComplete_completes⟩
  · obtain ⟨u, hexec, ⟨-, hforced, hfree⟩, hod⟩ :=
      axisEnable_completes (c := .axisEnab via n) rfl (fun k t => (writeEffect_axisControl n (some k) t).1) h
    exact ⟨u, hexec, by simpa using hfree, hforced, hod⟩
  · obtain ⟨u, hexec, ⟨hsto, hforced, hfree⟩, hod⟩ :=
      axisEnable_completes (c := .axisEcat via n) rfl (fun k t => (writeEffect_axisControl n (some k) t).2.1) h
    exact ⟨u, hexec, by simpa using hfree, hforced, hsto, hod⟩
  · obtain ⟨u, hexec, hmotion, hfree, hod⟩ := axisLoopSample_completes hdrv hon hactive
    simp only [motionOf, Axis.motion, Prod.mk.injEq] at hmotion
    obtain ⟨hcount, hspeed, htheta, hiD, hiQ, hmech⟩ := hmotion
    exact ⟨u, hexec, hcount.trans (loopStep_pCount ..), hspeed, htheta, hiD, hiQ, hmech, hfree, hod⟩

end Sys2Proof.Machine
end

section
/-! The brake chopper (O51): an enabling while a forced group holds a leg. -/
namespace Sys2Proof.Machine

/-- The objects of a chopper that may be enabled (R462), with channel 24, leg 0's, in group 0. -/
def chopperObjects : Od :=
  [(0x400D, 5, [0x8C]), (0x400D, 6, toLE 4 40000), (0x4038, 5, toLE 4 40000), (0x403A, 5, toLE 4 40000), (0x4600, 3, [0x00]),
    (0x4600, 4, [0x20]), (0x2601, 2, [2]), (0x2601, 3, [24]), (0x2602, 2, [2]), (0x2602, 3, [26]), (0x4610, 1, [0]),
    (0x4600, 8, toLE 4 0x3F800000), (0x4600, 9, toLE 4 0x40000000), (0x4610, 3, toLE 4 0x40400000), (0x4610, 4, toLE 4 0x40800000),
    (0x4610, 5, toLE 4 0x40A00000), (0x4180, 1, toLE 8 (2 ^ 24))].foldl (fun o (ix, sub, b) => odSet o ix sub b) []

/-- Every domain is ON, a mailbox session is open, and group 0 is forced. -/
def chopperForced : State :=
  { od := chopperObjects
    dev := {
      doms := Vector.replicate 8 { state := .on }
      com := { sessions := vset (Vector.replicate 64 {}) 8 { kind := .mailbox } }
      pwm := { groups := vset (Vector.replicate 10 {}) 0 { forced := true } } } }

theorem chopEnab_accepted_while_forced : accepted (.mailbox 0) 0x4600 1 (toLE 4 0x62616E65) chopperForced = true := by
  decide +kernel

/-- A leg whose group is forced is declared FORCED at once (R463): the enabling leaves it in FAULT. -/
theorem chopEnab_leaves_forced_leg_in_fault :
    ∃ t, exec (.chopEnab (.mailbox 0)) chopperForced = .next t ∧ (vget t.dev.ladder.legs 0).state = .fault := by
  refine ⟨_, rfl, ?_⟩
  decide +kernel

/-- Refutes O51: "enab" is accepted while the group of a leg is forced, and leaves that leg in FAULT, not READY. -/
theorem not_chopperAndLadderAct : ¬ Obligations.ChopperAndLadderAct := by
  rintro ⟨henab, -⟩
  obtain ⟨t, ht, hfault⟩ := chopEnab_leaves_forced_leg_in_fault
  obtain ⟨u, hu, -, hready, -⟩ := henab (.mailbox 0) chopperForced chopEnab_accepted_while_forced
  obtain rfl : t = u := by simpa [ht] using hu
  exact absurd (hfault.symm.trans (hready 0)) (by decide)

end Sys2Proof.Machine
end

section
/-! Security: the lifecycle (O16), and the keys and images that accepted writes change (O17). -/
namespace Sys2Proof.Machine

/-! ### The lifecycle (R146) -/

/-- A row that is a host's write by a writer of its own, where it is executed: it leaves the objects, and everything but the communication,
as the writer leaves them. -/
theorem requestWrite_seen {wr : Writer} {via : Via} {ix sub n : Nat} {b : Bytes} {s t : State} (hrow : PlainRow ix sub b)
    (h : writeSeen via ix sub b s = some (n, t)) :
    (request wr true via 2 (writeMsg ix sub b) s).od = (wr (some n) ix sub b t).2.od ∧
      agreeButCom (request wr true via 2 (writeMsg ix sub b) s).dev (wr (some n) ix sub b t).2.dev := by
  have hix : (writeMsg ix sub b).index.toNat = ix := Nat.mod_eq_of_lt hrow.index
  have hsub : (writeMsg ix sub b).sub.toNat = sub := Nat.mod_eq_of_lt hrow.subindex
  have htotal : (writeMsg ix sub b).total.toNat = b.length := Nat.mod_eq_of_lt hrow.length
  have hpayload : (writeMsg ix sub b).payload = b := rfl
  have hleaves : ∀ n s, (writeWhole wr n ix sub 0 b.length b s).1.leaves = none := fun n s => writeWhole_leaves _ _ _ _ _ _ _ _ hrow.noNet
  have hreset : ∀ n s, (writeWhole wr n ix sub 0 b.length b s).1.reset = false := fun n s => writeWhole_reset _ _ _ _ _ _ _ _ hrow.noReset
  rw [← writeWhole_state wr n ix sub 0 b.length b]
  unfold writeSeen requestSeen at h
  unfold request
  generalize admission true via 2 (writeMsg ix sub b) s = answer at h ⊢
  have hserved : ∀ m u, (if ((getSession u.dev m).transfer.filter (continues 2 ix sub)).isNone then some (m, abandon m u) else none) =
      some (n, t) → (serveAdmitted wr true 2 (viaSeq via) (writeMsg ix sub b) (.served m u)).od = (writeWhole wr n ix sub 0 b.length b t).2.od ∧
      agreeButCom (serveAdmitted wr true 2 (viaSeq via) (writeMsg ix sub b) (.served m u)).dev
        (writeWhole wr n ix sub 0 b.length b t).2.dev := by
    intro m u hseen
    split at hseen
    next hnone =>
      cases hseen
      simp only [serveAdmitted, serveMessage, writeFirst, if_true, hix, hsub, htotal, hpayload, Option.isNone_iff_eq_none.1 hnone]
      exact finish_agrees _ _ _ _ _ _ (writeWhole_close _ _ _ _ _ _ _ _) (hreset _ _) (hleaves _ _)
    next => cases hseen
  cases answer with
  | dropped u => cases via <;> cases h
  | turnedAway m a u => cases via <;> cases h
  | served m u =>
    cases via with
    | can c k =>
      cases h
      rw [canServe_write, hix, hsub, hpayload, sdoWrite]
      exact sdoFinish_agrees _ _ _ _ _ (hreset _ _) (hleaves _ _)
    | udp mac ip port seq => exact hserved m u (by simpa [hix, hsub] using h)
    | mailbox slot => exact hserved m u (by simpa [hix, hsub] using h)

/-- The fuse cells of an advance: LOCK_A and LOCK_B of "lock", DIS_A and DIS_B of "seal". -/
def blown (sealing cellA cellB : Bool) (v : Nv) : Bool × Bool × Bool × Bool :=
  if sealing then (v.lockA, v.lockB, v.disA || cellA, v.disB || cellB) else (v.lockA || cellA, v.lockB || cellB, v.disA, v.disB)

theorem advance_fuses (o : Od) (sealing cellA cellB : Bool) (d : Dev) :
    ((advance o sealing cellA cellB d).2.nv.lockA, (advance o sealing cellA cellB d).2.nv.lockB,
      (advance o sealing cellA cellB d).2.nv.disA, (advance o sealing cellA cellB d).2.nv.disB) = blown sealing cellA cellB d.nv ∧
    (advance o sealing cellA cellB d).2.sec.lifecycle = lifecycleOf (advance o sealing cellA cellB d).2.nv ∧
    (sealing = true → cellA = true → cellB = true → vget (advance o sealing cellA cellB d).2.nv.keys 2 = none) := by
  unfold advance
  extract_lets old d1 d2
  have hd1 : (d1.nv.lockA, d1.nv.lockB, d1.nv.disA, d1.nv.disB) = blown sealing cellA cellB d.nv := by
    cases sealing <;> rfl
  cases hcells : cellA && cellB
  · simp only [Bool.false_eq_true, if_false]
    exact ⟨hd1, rfl, fun _ ha hb => by simp [ha, hb] at hcells⟩
  · simp only [if_true, record_frame]
    cases sealing
    · exact ⟨hd1, rfl, fun h => by cases h⟩
    · exact ⟨hd1, rfl, fun _ _ _ => vget_vset_same _ _ _ (by decide)⟩

/-- Where no check refuses an advance, it leaves the cells as they took, and LIFECYCLE as they read. -/
theorem lifecycleAdvance_completes {c : Instr} {via : Via} {cellA cellB : Bool} {v n : Nat} {s t : State}
    (hexec : exec c s = acts (request (advanceWriter cellA cellB) true via 2 (writeMsg 0x2300 2 (toLE 4 v))) s)
    (h : writeSeen via 0x2300 2 (toLE 4 v) s = some (n, t)) (hcheck : writeCheck t (some n) 0x2300 2 (toLE 4 v) = none)
    (hrefusal : advanceRefusal (leNat (toLE 4 v) == 0x6C616573) n t.dev = none) :
    Completes c s (fun u => u.od = s.od ∧
      (u.dev.nv.lockA, u.dev.nv.lockB, u.dev.nv.disA, u.dev.nv.disB) = blown (leNat (toLE 4 v) == 0x6C616573) cellA cellB s.dev.nv ∧
      u.dev.sec.lifecycle = lifecycleOf u.dev.nv ∧
      ((leNat (toLE 4 v) == 0x6C616573) = true → cellA = true → cellB = true → vget u.dev.nv.keys 2 = none)) := by
  refine ⟨_, hexec, ?_⟩
  obtain ⟨hod, hdev⟩ := requestWrite_seen (wr := advanceWriter cellA cellB) ⟨by decide, by decide, by simp, by decide, by decide⟩ h
  have hseen := writeSeen_executesFrom h
  have heffect : (advanceWriter cellA cellB (some n) 0x2300 2 (toLE 4 v) t).2 =
      { t with dev := (advance t.od (leNat (toLE 4 v) == 0x6C616573) cellA cellB t.dev).2 } := by
    simp only [advanceWriter, hcheck, lifecycleWrite, Option.getD_some, hrefusal]
  rw [heffect] at hod hdev
  generalize request (advanceWriter cellA cellB) true via 2 (writeMsg 0x2300 2 (toLE 4 v)) s = u at hod hdev
  have hnv : u.dev.nv = _ := agreeButCom_part hdev (p := .nv) (by decide)
  have hsec : u.dev.sec = _ := agreeButCom_part hdev (p := .sec) (by decide)
  have hnvSeen : t.dev.nv = s.dev.nv := hseen.part (p := .nv) (by decide)
  refine ⟨hod.trans hseen.od, ?_⟩
  dsimp only
  rw [hnv, hsec, ← hnvSeen]
  exact advance_fuses _ _ _ _ _

/-- Settles O16: both advances are one change of fuse cells, from which LIFECYCLE is read. -/
theorem lifecycleAdvances : Obligations.LifecycleAdvances := by
  intro via a b s t n
  constructor
  · intro h hcheck hrefusal
    obtain ⟨u, hexec, hod, hcells, hlife, -⟩ := lifecycleAdvance_completes (c := .lifecycleLock via a b) rfl h hcheck hrefusal
    simp only [blown, show (leNat (toLE 4 0x6B636F6C) == 0x6C616573) = false from by decide, Bool.false_eq_true, if_false,
      Prod.mk.injEq] at hcells
    obtain ⟨hA, hB, -, -⟩ := hcells
    exact ⟨u, hexec, hod, hA, hB, hlife⟩
  · intro h hcheck hrefusal
    obtain ⟨u, hexec, hod, hcells, hlife, hkey⟩ := lifecycleAdvance_completes (c := .lifecycleSeal via a b) rfl h hcheck hrefusal
    simp only [blown, show (leNat (toLE 4 0x6C616573) == 0x6C616573) = true from by decide, if_true, Prod.mk.injEq] at hcells
    obtain ⟨-, -, hA, hB⟩ := hcells
    exact ⟨u, hexec, hod, hA, hB, hlife, hkey (by decide)⟩

/-! ### Keys and images (R150, R161 to R165) -/

theorem writeEffect_keySlot (k : Fin 3) (key : Bytes) (session : Option Nat) (s : State) :
    writeEffect session 0x2330 (k.val + 2) key s = keySlotWrite session k.val key s := by
  fin_cases k <;> rfl

theorem keyWrite_slot {o : Od} {k : Nat} {key : Bytes} {d : Dev} (hk : k < 3) : vget (keyWrite o k key d).nv.keys k = some key := by
  simp only [keyWrite, record_frame]
  exact vget_vset_same _ _ _ hk

/-- The length of an accepted value is one that its object takes. -/
theorem accepted_length {via : Via} {ix sub : Nat} {b : Bytes} {s : State} {r : OdRow} (hrow : odRow ix sub = some r)
    (h : accepted via ix sub b s = true) : ∃ t : State, lengthOk t.od r ix sub b.length = true := by
  unfold accepted at h
  split at h
  next n t _ =>
    have hcheck : writeCheck t (some n) ix sub b = none := by
      cases hc : writeCheck t (some n) ix sub b with
      | none => rfl
      | some a => simp [writeObject, hc] at h
    refine ⟨t, ?_⟩
    by_contra hlen
    simp only [writeCheck, hrow, Option.or_eq_none_iff, Bool.not_eq_true] at hcheck hlen
    obtain ⟨-, hcheck⟩ := hcheck
    split at hcheck
    · cases hcheck
    · simp [hlen] at hcheck
  next => cases h

/-- The row of the three key slots, which take 32 bytes. -/
theorem keySlot_row (k : Fin 3) : odRow 0x2330 (k.val + 2) = some ⟨0x2330, 1, 1, 0x02, 0x04, .oct 32, .wo, .num 0, false, false, .any⟩ := by
  fin_cases k <;> rfl

theorem keyWrite_completes {via : Via} {k : Fin 3} {key : Bytes} {s : State} (h : accepted via 0x2330 (k.val + 2) key s = true) :
    Completes (.keyWrite via k key) s (fun u => vget u.dev.nv.keys k.val = some key ∧ u.od = s.od) := by
  obtain ⟨_, hlen⟩ := accepted_length (keySlot_row k) h
  have hlen : key.length = 32 := by simpa [lengthOk, OdType.size] using hlen
  refine completes_of_write rfl ⟨by decide, by omega, by omega, by omega, by omega⟩ h fun n t u v ho => ?_
  have hw := writeEffect_keySlot k key (some n) t
  obtain ⟨-, rfl⟩ := unlessRefused_accepted (hw.symm.trans ho.effect)
  have hnv : v.dev.nv = (keyWrite t.od k.val key t.dev).nv := ho.part (p := .nv) (by decide)
  rw [hnv]
  exact ⟨keyWrite_slot k.isLt, ho.od_kept (by rw [hw]; simp [keySlotWrite])⟩

/-- The effect of a write of the load's objects, by the session that may load. -/
theorem writeEffect_load (sub : Nat) (b : Bytes) (session : Option Nat) (s : State) (hsub : sub ≠ 6) :
    writeEffect session 0x2340 sub b s = loadWrite session sub b s := by
  simp [writeEffect, writeSecurity, hsub]

/-- A load that is not refused for its session, and is neither LOAD_BEGIN nor LOAD_DATA nor the raise. -/
theorem loadWrite_load {session : Option Nat} {sub : Nat} {b : Bytes} {s u : State} (hsub : sub ≠ 7)
    (h : loadWrite session sub b s = (none, u)) :
    (sub = 1 → u = devTo loadBegin s) ∧ (sub = 2 → u = devTo (loadData b) s) ∧ (sub ≠ 1 → sub ≠ 2 → u = s.act loadCommit) := by
  unfold loadWrite at h
  dsimp only at h
  rw [if_neg hsub] at h
  split at h
  · cases h
  · split at h
    · split at h
      · cases h
      · exact ⟨fun _ => (congrArg Prod.snd h).symm, fun h => absurd h (by decide), fun h => absurd rfl h⟩
    · split at h
      · cases h
      · split at h
        · cases h
        · exact ⟨fun h => absurd h (by decide), fun _ => (congrArg Prod.snd h).symm, fun _ h => absurd rfl h⟩
    next hone htwo =>
      split at h
      · cases h
      · exact ⟨fun h => absurd h hone, fun h => absurd h htwo, fun _ _ => (congrArg Prod.snd h).symm⟩

theorem loadBegin_empties (d : Dev) : ∃ i, (loadBegin d).sec.load = some i ∧ (vget (loadBegin d).nv.images i).data = [] := by
  unfold loadBegin
  extract_lets t
  refine ⟨t, rfl, ?_⟩
  have himages : (vget (vset d.nv.images t { data := [], mark := some 4 }) t).data = [] := by
    by_cases ht : t < 2
    · rw [vget_vset_same _ _ _ ht]
    · rw [vget, Vector.getElem?_eq_none (by omega)]
      rfl
  exact himages

theorem loadBegin_completes {via : Via} {s : State} (h : accepted via 0x2340 1 (toLE 4 0x6E65706F) s = true) :
    Completes (.loadBegin via) s (fun u => u.od = s.od ∧ ∃ i, u.dev.sec.load = some i ∧ (vget u.dev.nv.images i).data = []) := by
  refine completes_of_write rfl ⟨by decide, by decide, by simp, by decide, by decide⟩ h fun n t u v ho => ?_
  have hw := writeEffect_load 1 (toLE 4 0x6E65706F) (some n) t (by decide)
  obtain rfl := (loadWrite_load (by decide) (hw.symm.trans ho.effect)).1 rfl
  refine ⟨ho.od_kept (by rw [ho.effect]; simp), ?_⟩
  have hnv : v.dev.nv = (loadBegin t.dev).nv := ho.part (p := .nv) (by decide)
  have hsec : v.dev.sec = (loadBegin t.dev).sec := ho.part (p := .sec) (by decide)
  rw [hnv, hsec]
  exact loadBegin_empties t.dev

theorem loadData_row : odRow 0x2340 2 = some ⟨0x2340, 1, 1, 0x02, 0x02, .dom, .wo, .zeros 0, false, false, .len 1 65536 1⟩ := rfl

theorem loadData_completes {via : Via} {chunk : Bytes} {s : State} {i : Nat} (h : accepted via 0x2340 2 chunk s = true)
    (hload : s.dev.sec.load = some i) (hi : i < 2) :
    Completes (.loadData via chunk) s (fun u => u.od = s.od ∧ (vget u.dev.nv.images i).data = (vget s.dev.nv.images i).data ++ chunk) := by
  obtain ⟨_, hlen⟩ := accepted_length loadData_row h
  have hlen : chunk.length ≤ 65536 := by
    simp only [lengthOk, Bool.and_eq_true, decide_eq_true_eq] at hlen
    exact hlen.1.2
  refine completes_of_write rfl ⟨by decide, by decide, by omega, by decide, by decide⟩ h fun n t u v ho => ?_
  have hw := writeEffect_load 2 chunk (some n) t (by decide)
  obtain rfl := (loadWrite_load (by decide) (hw.symm.trans ho.effect)).2.1 rfl
  refine ⟨ho.od_kept (by rw [ho.effect]; simp), ?_⟩
  have hnv : v.dev.nv = (loadData chunk t.dev).nv := ho.part (p := .nv) (by decide)
  have hsecSeen : t.dev.sec = s.dev.sec := ho.seen.part (p := .sec) (by decide)
  have hnvSeen : t.dev.nv = s.dev.nv := ho.seen.part (p := .nv) (by decide)
  rw [hnv, loadData, hsecSeen, hload, ← hnvSeen]
  exact congrArg Image.data (vget_vmod_same _ _ _ hi)

/-- The boot block that is read after a change is the changed one (R115): it was written to the other copy, with the next count. -/
theorem boot_setBoot (f : BootCopy → BootCopy) (v : Nv) :
    (v.setBoot f).boot = { f v.boot with counter := v.boot.counter + 1, valid := true } := by
  generalize hx : ({ f v.boot with counter := v.boot.counter + 1, valid := true } : BootCopy) = x
  have hcount : x.counter = v.boot.counter + 1 := by rw [← hx]
  have hvalid : x.valid = true := by rw [← hx]
  rw [Nv.setBoot, hx]
  clear hx
  generalize hfirst : vget v.boots 0 = first
  generalize hsecond : vget v.boots 1 = second
  cases hnew : first.valid && (!second.valid || decide (second.counter ≤ first.counter)) with
  | true =>
    have htarget : v.bootTarget = 1 := by simp only [Nv.bootTarget, hfirst, hsecond, hnew, if_true]
    have hused : first.valid = true := (Bool.and_eq_true_iff.1 hnew).1
    have hboot : v.boot = first := by simp [Nv.boot, htarget, hfirst, hused]
    rw [htarget]
    rw [hboot] at hcount
    simp [Nv.boot, Nv.bootTarget, vget_vset_other, hfirst, hvalid, hcount]
  | false =>
    have htarget : v.bootTarget = 0 := by simp only [Nv.bootTarget, hfirst, hsecond, hnew, Bool.false_eq_true, if_false]
    have hboot : v.boot = if second.valid then second else {} := by simp [Nv.boot, htarget, hsecond]
    have hnext : (!second.valid || decide (second.counter ≤ x.counter)) = true := by
      cases hused : second.valid
      · rfl
      · rw [hcount, hboot, hused, if_pos rfl]
        simp
    rw [htarget]
    simp [Nv.boot, Nv.bootTarget, vget_vset_other, hsecond, hvalid, hnext]

/-- A commit ends the load; with code 0 it prefers the loaded image, on trial. -/
theorem loadCommit_ends {o : Od} {d : Dev} {i : Nat} (h : d.sec.load = some i) : (loadCommit o d).sec.load = none ∧
    ((loadCommit o d).sec.loadCode = 0 → (loadCommit o d).nv.boot.preferred = i ∧ (loadCommit o d).nv.boot.trial = true) := by
  unfold loadCommit
  simp -zeta only [h]
  extract_lets st d1
  split
  next hgood =>
    simp only [record_frame]
    refine ⟨rfl, fun _ => ?_⟩
    have hboot := boot_setBoot (fun b => { b with preferred := i, trial := true, attempts := 3 }) d.nv
    exact ⟨congrArg BootCopy.preferred hboot, congrArg BootCopy.trial hboot⟩
  next hbad => exact ⟨rfl, fun hcode => absurd hcode hbad⟩

theorem loadCommit_completes {via : Via} {s : State} {i : Nat} (h : accepted via 0x2340 4 (toLE 4 0x74696D63) s = true)
    (hload : s.dev.sec.load = some i) :
    Completes (.loadCommit via) s (fun u => u.od = s.od ∧ u.dev.sec.load = none ∧
      (u.dev.sec.loadCode = 0 → u.dev.nv.boot.preferred = i ∧ u.dev.nv.boot.trial = true)) := by
  refine completes_of_write rfl ⟨by decide, by decide, by simp, by decide, by decide⟩ h fun n t u v ho => ?_
  have hw := writeEffect_load 4 (toLE 4 0x74696D63) (some n) t (by decide)
  obtain rfl := (loadWrite_load (by decide) (hw.symm.trans ho.effect)).2.2 (by decide) (by decide)
  refine ⟨ho.od_kept (by rw [ho.effect]; simp), ?_⟩
  have hnv : v.dev.nv = (loadCommit t.od t.dev).nv := ho.part (p := .nv) (by decide)
  have hsec : v.dev.sec = (loadCommit t.od t.dev).sec := ho.part (p := .sec) (by decide)
  have hsecSeen : t.dev.sec = s.dev.sec := ho.seen.part (p := .sec) (by decide)
  rw [hnv, hsec]
  exact loadCommit_ends (by rw [hsecSeen, hload])

theorem secVersionRaise_completes {via : Via} {s : State} {r : Nat} (h : accepted via 0x2340 7 (toLE 4 0x73696172) s = true)
    (hrun : s.dev.sec.running = some r) :
    Completes (.secVersionRaise via) s (fun u => u.od = s.od ∧ u.dev.nv.minVersion = imageSecVersion s.dev r) := by
  refine completes_of_write rfl ⟨by decide, by decide, by simp, by decide, by decide⟩ h fun n t u v ho => ?_
  have hw := writeEffect_load 7 (toLE 4 0x73696172) (some n) t (by decide)
  have heff := hw.symm.trans ho.effect
  unfold loadWrite at heff
  dsimp only at heff
  rw [if_pos rfl] at heff
  split at heff
  · cases heff
  · split at heff
    · cases heff
    · obtain rfl := congrArg Prod.snd heff
      refine ⟨ho.od_kept (by rw [ho.effect]; simp [wrote]), ?_⟩
      have hnv : v.dev.nv = (secVersionRaise t.od t.dev).nv := ho.part (p := .nv) (by decide)
      have hsecSeen : t.dev.sec = s.dev.sec := ho.seen.part (p := .sec) (by decide)
      have hnvSeen : t.dev.nv = s.dev.nv := ho.seen.part (p := .nv) (by decide)
      rw [hnv, secVersionRaise, hsecSeen, hrun]
      simp only [record_frame, imageSecVersion, imageData, ← hnvSeen]
      rfl

/-- Settles O17: each accepted write is one change of the key slots, the images or the load. -/
theorem keysAndImagesAreWritten : Obligations.KeysAndImagesAreWritten :=
  ⟨fun _ _ _ _ => keyWrite_completes, fun _ _ => loadBegin_completes, fun _ _ _ _ => loadData_completes,
    fun _ _ _ => loadCommit_completes, fun _ _ _ => secVersionRaise_completes⟩

end Sys2Proof.Machine
end

section
/-! What the sessions' functions leave of the link: the paths of the rings. -/
namespace Sys2Proof.Machine

/-! ### The paths of the rings -/

@[simp] theorem lcl_paths (d : Dev) (x : Lcl) : (Part.lcl.of { d with lcl := x }).paths = x.paths := rfl

@[simp] theorem paths_ite (c : Prop) [Decidable c] (a b : Lcl) : (if c then a else b).paths = if c then a.paths else b.paths :=
  apply_ite _ _ _ _

@[simp] theorem forEach_paths {α : Type} {f : α → Dev → Dev} (hf : ∀ a e, (Part.lcl.of (f a e)).paths = (Part.lcl.of e).paths) (l : List α)
    (d : Dev) : (Part.lcl.of (forEach l f d)).paths = (Part.lcl.of d).paths :=
  forEach_eq (fun e => (Part.lcl.of e).paths) d hf

@[simp] theorem foldl_paths {α : Type} {f : Dev → α → Dev} (hf : ∀ a e, (Part.lcl.of (f e a)).paths = (Part.lcl.of e).paths) (l : List α)
    (d : Dev) : (Part.lcl.of (l.foldl f d)).paths = (Part.lcl.of d).paths := forEach_paths (f := fun a e => f e a) hf l d

@[simp] theorem modRing_paths (r f) (d : Dev) : (Part.lcl.of (modRing r f d)).paths = (Part.lcl.of d).paths := rfl

@[simp] theorem modCell_paths (c f) (d : Dev) : (Part.lcl.of (modCell c f d)).paths = (Part.lcl.of d).paths := rfl

@[simp] theorem modTxn_paths (c f) (d : Dev) : (Part.lcl.of (modTxn c f d)).paths = (Part.lcl.of d).paths := rfl

@[simp] theorem closeEpoch_paths (o c) (d : Dev) : (Part.lcl.of (closeEpoch o c d)).paths = (Part.lcl.of d).paths := by
  simp [closeEpoch]

@[simp] theorem openEpoch_paths (o c k) (d : Dev) : (Part.lcl.of (openEpoch o c k d)).paths = (Part.lcl.of d).paths := rfl

@[simp] theorem setCell_paths (c x) (d : Dev) : (Part.lcl.of (setCell c x d)).paths = (Part.lcl.of d).paths := rfl

@[simp] theorem sessEnter_paths (o c st reason k) (d : Dev) :
    (Part.lcl.of (sessEnter o c st reason k d)).paths = (Part.lcl.of d).paths := by
  delta sessEnter
  dsimp only
  cases st <;> simp

@[simp] theorem queueControl_paths (c mtype body) (d : Dev) : (Part.lcl.of (queueControl c mtype body d)).paths = (Part.lcl.of d).paths := by simp [queueControl]

@[simp] theorem requestFailed_paths (o c k r cause) (d : Dev) :
    (Part.lcl.of (requestFailed o c k r cause d)).paths = (Part.lcl.of d).paths := by
  simp [requestFailed]

@[simp] theorem partnerError_paths (o c kind mtype tag grant k) (d : Dev) :
    (Part.lcl.of (partnerError o c kind mtype tag grant k d)).paths = (Part.lcl.of d).paths := by
  simp [partnerError]

@[simp] theorem endRequest_paths (c tag freed) (d : Dev) : (Part.lcl.of (endRequest c tag freed d)).paths = (Part.lcl.of d).paths := by simp [endRequest]

@[simp] theorem attemptFailed_paths (o c k tag) (d : Dev) :
    (Part.lcl.of (attemptFailed o c k tag d)).paths = (Part.lcl.of d).paths := by
  unfold attemptFailed
  split <;> simp

@[simp] theorem reconcileDone_paths (o r) (d : Dev) :
    (Part.lcl.of (reconcileDone o r d)).paths = (Part.lcl.of d).paths := by
  simp [reconcileDone]
  split <;> simp

@[simp] theorem reconcileEnd_paths (o c answered) (d : Dev) :
    (Part.lcl.of (reconcileEnd o c answered d)).paths = (Part.lcl.of d).paths := by
  simp [reconcileEnd]
  split <;> simp

@[simp] theorem rxCredit_paths (o c m) (d : Dev) :
    (Part.lcl.of (rxCredit o c m d)).paths = (Part.lcl.of d).paths := by
  simp [rxCredit]

@[simp] theorem nextOrd_paths (c) (d : Dev) : (Part.lcl.of (nextOrd c d).2).paths = (Part.lcl.of d).paths := by simp [nextOrd]

@[simp] theorem queueReq_paths (c mtype body) (d : Dev) : (Part.lcl.of (queueReq c mtype body d)).paths = (Part.lcl.of d).paths := by simp [queueReq]

@[simp] theorem exEnter_paths (c st) (d : Dev) : (Part.lcl.of (exEnter c st d)).paths = (Part.lcl.of d).paths := by
  simp [exEnter]
  split <;> simp

@[simp] theorem enterParam_paths (o c k st used) (d : Dev) :
    (Part.lcl.of (enterParam o c k st used d)).paths = (Part.lcl.of d).paths := by
  simp [enterParam]

@[simp] theorem verifyFailed_paths (o c k code again expected reported) (d : Dev) :
    (Part.lcl.of (verifyFailed o c k code again expected reported d)).paths = (Part.lcl.of d).paths := by
  simp [verifyFailed]

@[simp] theorem resendFrom_paths (o c k off r) (d : Dev) :
    (Part.lcl.of (resendFrom o c k off r d)).paths = (Part.lcl.of d).paths := by
  simp [resendFrom]

@[simp] theorem onAnswer_paths (o c k r m) (d : Dev) :
    (Part.lcl.of (onAnswer o c k r m d)).paths = (Part.lcl.of d).paths := by
  unfold onAnswer
  split <;> simp

@[simp] theorem nakReceived_paths (o c k m) (d : Dev) :
    (Part.lcl.of (nakReceived o c k m d)).paths = (Part.lcl.of d).paths := by
  simp [nakReceived]

@[simp] theorem nakRequest_paths (o c k r) (d : Dev) :
    (Part.lcl.of (nakRequest o c k r d)).paths = (Part.lcl.of d).paths := by
  simp [nakRequest]

@[simp] theorem rxResponse_paths (o c k m) (d : Dev) :
    (Part.lcl.of (rxResponse o c k m d).2).paths = (Part.lcl.of d).paths := by
  unfold rxResponse
  simp only []
  repeat' split
  all_goals simp

@[simp] theorem takeGrant_paths (o c k m) (d : Dev) :
    (Part.lcl.of (takeGrant o c k m d)).paths = (Part.lcl.of d).paths := by
  simp [takeGrant]

@[simp] theorem resyncArm_paths (c) (d : Dev) : (Part.lcl.of (resyncArm c d)).paths = (Part.lcl.of d).paths := by simp [resyncArm]

@[simp] theorem queueResp_paths (c tag mtype body) (d : Dev) : (Part.lcl.of (queueResp c tag mtype body d)).paths = (Part.lcl.of d).paths := by simp [queueResp]

@[simp] theorem lockReport_paths (o c k tag body) (d : Dev) :
    (Part.lcl.of (lockReport o c k tag body d)).paths = (Part.lcl.of d).paths := by
  simp [lockReport]

@[simp] theorem cellEvent_paths (o c k e time mtype tag data) (d : Dev) :
    (Part.lcl.of (cellEvent o c k e time mtype tag data d)).paths = (Part.lcl.of d).paths := by
  simp [cellEvent]

@[simp] theorem onRequest_paths (o c k m) (d : Dev) :
    (Part.lcl.of (onRequest o c k m d)).paths = (Part.lcl.of d).paths := by
  unfold onRequest
  split <;> simp

@[simp] theorem admitFail_paths (o c reason k id) (d : Dev) :
    (Part.lcl.of (admitFail o c reason k id d)).paths = (Part.lcl.of d).paths := by
  simp [admitFail]

@[simp] theorem onChallengeResp_paths (o c k b) (d : Dev) :
    (Part.lcl.of (onChallengeResp o c k b d)).paths = (Part.lcl.of d).paths := by
  simp [onChallengeResp]

@[simp] theorem nakState_paths (o c mtype request) (d : Dev) :
    (Part.lcl.of (nakState o c mtype request d)).paths = (Part.lcl.of d).paths := by
  unfold nakState
  split <;> simp

@[simp] theorem onHello_paths (o ik c k b) (d : Dev) :
    (Part.lcl.of (onHello o ik c k b d)).paths = (Part.lcl.of d).paths := by
  unfold onHello
  split <;> simp

@[simp] theorem rxControl_paths (o ik c k m) (d : Dev) :
    (Part.lcl.of (rxControl o ik c k m d)).paths = (Part.lcl.of d).paths := by
  simp [rxControl]

@[simp] theorem slotReleased_paths (c toFree) (d : Dev) : (Part.lcl.of (slotReleased c toFree d)).paths = (Part.lcl.of d).paths := by simp [slotReleased]

@[simp] theorem rxRequest_paths (o c k m) (d : Dev) :
    (Part.lcl.of (rxRequest o c k m d)).paths = (Part.lcl.of d).paths := by
  simp [rxRequest]
  split <;> simp

@[simp] theorem slotHeld_paths (c) (d : Dev) : (Part.lcl.of (slotHeld c d)).paths = (Part.lcl.of d).paths := by simp [slotHeld]

@[simp] theorem slotBack_paths (c) (d : Dev) : (Part.lcl.of (slotBack c d)).paths = (Part.lcl.of d).paths := by simp [slotBack]

@[simp] theorem rxMessage_paths (o ik c k m) (d : Dev) :
    (Part.lcl.of (rxMessage o ik c k m d)).paths = (Part.lcl.of d).paths := by
  simp [rxMessage]

@[simp] theorem holdPresumption_paths (r o) (d : Dev) :
    (Part.lcl.of (holdPresumption r o d)).paths = (Part.lcl.of d).paths := by
  simp [holdPresumption]

@[simp] theorem agree_paths (o c k code) (d : Dev) :
    (Part.lcl.of (agree o c k code d)).paths = (Part.lcl.of d).paths := by
  simp [agree]
  split <;> simp

@[simp] theorem conserve_paths (o c k t) (d : Dev) :
    (Part.lcl.of (conserve o c k t d)).paths = (Part.lcl.of d).paths := by
  simp [conserve]
  split <;> simp

@[simp] theorem lossPeriod_paths (o c usable frozen) (d : Dev) :
    (Part.lcl.of (lossPeriod o c usable frozen d)).paths = (Part.lcl.of d).paths := by
  simp [lossPeriod]

@[simp] theorem slotUsed_paths (o c k t) (d : Dev) :
    (Part.lcl.of (slotUsed o c k t d)).paths = (Part.lcl.of d).paths := by
  simp [slotUsed]

@[simp] theorem telemetry_paths (o c k b) (d : Dev) :
    (Part.lcl.of (telemetry o c k b d)).paths = (Part.lcl.of d).paths := by
  simp [telemetry]

@[simp] theorem takeTelemetry_paths (o r k launch slots) (d : Dev) :
    (Part.lcl.of (takeTelemetry o r k launch slots d)).paths = (Part.lcl.of d).paths := by
  simp [takeTelemetry]

@[simp] theorem useCopy_paths (o r k) (d : Dev) :
    (Part.lcl.of (useCopy o r k d)).paths = (Part.lcl.of d).paths := by
  unfold useCopy
  split <;> simp

@[simp] theorem creditEchoAll_paths (o r) (d : Dev) : (Part.lcl.of (creditEchoAll o r d)).paths = (Part.lcl.of d).paths := 
  forEach_paths (fun _ _ => modTxn_paths ..) _ d

@[simp] theorem reconcileStart_paths (o r k) (d : Dev) : (Part.lcl.of (reconcileStart o r k d)).paths = (Part.lcl.of d).paths := 
  forEach_paths (fun _ _ => modTxn_paths ..) _ _

end Sys2Proof.Machine
end

section
/-! The paths of the rings: frames that return or miss (O26), the receivers' sync (O27). -/
namespace Sys2Proof.Machine

/-! ### Paths and rings read back -/

theorem pathIx_lt (r : Fin 8) (p : Fin 2) : pathIx r.val p.val < 16 := by
  unfold pathIx
  omega

theorem getPath_modPath_same {r p : Nat} (f : Path → Path) (d : Dev) (h : pathIx r p < 16) : getPath (modPath r p f d) r p = f (getPath d r p) :=
  vget_vmod_same _ _ _ h

theorem getPath_of_paths {d e : Dev} (h : (Part.lcl.of d).paths = (Part.lcl.of e).paths) (r p : Nat) : getPath d r p = getPath e r p := by
  rw [getPath, getPath]
  exact congrArg (vget · (pathIx r p)) h

theorem getPath_of_lcl {d e : Dev} (h : d.lcl = e.lcl) (r p : Nat) : getPath d r p = getPath e r p := by rw [getPath, getPath, h]

theorem getRing_of_lcl {d e : Dev} (h : d.lcl = e.lcl) (r : Nat) : getRing d r = getRing e r := by rw [getRing, getRing, h]

theorem upTo_lcl (due : Od → Dev → Option Instant) (s : State) : (s.upTo due).dev.lcl = s.dev.lcl := upTo_part due s (p := .lcl) (by decide)

theorem record_lcl (o : Od) (code source : Nat) (data : Bytes) (d : Dev) : (record o code source data d).lcl = d.lcl :=
  record_leaves (p := .lcl) (by decide) o _ _ _ d

theorem tripCause_lcl (o : Od) (bit : Nat) (d : Dev) : (tripCause o bit d).lcl = d.lcl := tripCause_leaves (p := .lcl) (by decide) o _ d

/-! ### The tally of a path: its sync, its counters and its last valid frame -/

/-- What only frames that return or miss, and the receiver's sync, change of a path. -/
def Path.tally (q : Path) : Path := { q with state := .disabled, rttRef := 0, okRun := 0, missRun := 0, fault := none, flights := [], delays := [] }

/-- The tally of a ring's path. -/
def tallyOf (r p : Nat) (d : Dev) : Path := (getPath d r p).tally

theorem tallyOf_of_paths {d e : Dev} (h : (Part.lcl.of d).paths = (Part.lcl.of e).paths) (r p : Nat) : tallyOf r p d = tallyOf r p e := by
  rw [tallyOf, tallyOf, getPath_of_paths h]

theorem tallyOf_of_lcl {d e : Dev} (h : d.lcl = e.lcl) (r p : Nat) : tallyOf r p d = tallyOf r p e := by
  rw [tallyOf, tallyOf, getPath_of_lcl h]

theorem modPath_tally {r p r' p' : Nat} {f : Path → Path} (d : Dev) (hf : ∀ q, (f q).tally = q.tally) :
    tallyOf r p (modPath r' p' f d) = tallyOf r p d :=
  vget_vmod_keeps (P := fun q => q.tally = tallyOf r p d) d.lcl.paths (pathIx r' p') (pathIx r p) f (fun h => (hf _).trans h) rfl

theorem record_tally (o : Od) (code source : Nat) (data : Bytes) (d : Dev) (r p : Nat) :
    tallyOf r p (record o code source data d) = tallyOf r p d := tallyOf_of_lcl (record_lcl ..) r p

theorem modRing_tally (f : Ring → Ring) (d : Dev) (q r p : Nat) : tallyOf r p (modRing q f d) = tallyOf r p d := rfl

theorem sendFrame_tally (r' p' : Nat) (f : Flight) (d : Dev) (r p : Nat) : tallyOf r p (sendFrame r' p' f d) = tallyOf r p d := by
  unfold sendFrame
  refine (tallyOf_of_lcl (putLane_leaves (p := .lcl) (by decide) r' p' _ _ _) r p).trans ?_
  exact modPath_tally d fun _ => rfl

theorem switchNow_tally (o : Od) (q k launch reason : Nat) (late dropped : Bool) (d : Dev) (r p : Nat) :
    tallyOf r p (switchNow o q k launch reason late dropped d) = tallyOf r p d := by
  unfold switchNow
  dsimp only
  rw [record_tally, modRing_tally, modPath_tally, modPath_tally]
  · intro x
    split <;> rfl
  · exact fun _ => rfl

theorem lateLaunch_tally (o : Od) (q : Nat) (dropped : Bool) (d : Dev) (r p : Nat) : tallyOf r p (lateLaunch o q dropped d) = tallyOf r p d := by
  unfold lateLaunch
  dsimp only
  split
  · rfl
  · rw [sendFrame_tally, tallyOf_of_paths (creditEchoAll_paths ..), switchNow_tally]

theorem tripCause_tally (o : Od) (bit : Nat) (d : Dev) (r p : Nat) : tallyOf r p (tripCause o bit d) = tallyOf r p d :=
  tallyOf_of_lcl (tripCause_lcl ..) r p

theorem activeFailed_tally (o : Od) (q k cause hops : Nat) (d : Dev) (r p : Nat) : tallyOf r p (activeFailed o q k cause hops d) = tallyOf r p d := by
  unfold activeFailed
  extract_lets g a was d1 first d2 standby blocked n spent lose dropped d3 d4
  have hd1 : tallyOf r p d1 = tallyOf r p d := (modRing_tally _ _ q r p).trans (modPath_tally d fun _ => rfl)
  have hd2 : tallyOf r p d2 = tallyOf r p d := by
    simp only [d2]
    split
    · exact (record_tally ..).trans hd1
    · exact hd1
  have hlose : ∀ e, tallyOf r p (lose e) = tallyOf r p e := by
    intro e
    simp only [lose]
    split
    · rfl
    · split
      · exact (tripCause_tally ..).trans ((record_tally ..).trans (modRing_tally ..))
      · exact (record_tally ..).trans (modRing_tally ..)
  have hd4 : tallyOf r p d4 = tallyOf r p d :=
    (tallyOf_of_paths (forEach_paths (fun _ _ => modCell_paths ..) _ _) r p).trans ((tallyOf_of_paths (reconcileStart_paths ..) r p).trans hd2)
  split
  · exact (hlose _).trans hd2
  · split
    · exact (hlose _).trans ((record_tally ..).trans hd2)
    · split
      · exact (lateLaunch_tally ..).trans hd4
      · exact (tallyOf_of_paths (creditEchoAll_paths ..) r p).trans hd4

theorem pathMiss_tally (o : Od) (q x k cause hops : Nat) (d : Dev) (r p : Nat) : tallyOf r p (pathMiss o q x k cause hops d) = tallyOf r p d := by
  unfold pathMiss
  extract_lets g y d1 n d2 d3
  split
  · rfl
  split
  · split
    · exact activeFailed_tally ..
    · exact modPath_tally d1 fun _ => rfl
  split
  · have hd2 : tallyOf r p d2 = tallyOf r p d := (record_tally ..).trans (modPath_tally d1 fun _ => rfl)
    have hd3 : tallyOf r p d3 = tallyOf r p d :=
      (record_tally ..).trans ((modRing_tally ..).trans ((tallyOf_of_paths (forEach_paths (fun _ _ => modTxn_paths ..) _ _) r p).trans hd2))
    split
    · split
      · exact (tripCause_tally ..).trans hd3
      · exact hd3
    · exact hd2
  · exact modPath_tally d1 fun _ => rfl
  · rfl

theorem pathFaultNow_tally (o : Od) (q x cause : Nat) (d : Dev) (r p : Nat) : tallyOf r p (pathFaultNow o q x cause d) = tallyOf r p d := by
  unfold pathFaultNow
  dsimp only
  split
  · rfl
  split
  · exact (pathMiss_tally ..).trans (modPath_tally d fun _ => rfl)
  · split
    · exact pathMiss_tally ..
    · exact modPath_tally d fun _ => rfl

/-! ### Sync and fault ordered sets (O27) -/

theorem laneSyncLost_completes {r : Fin 8} {p : Fin 2} {s : State} (hsync : (getPath s.dev r.val p.val).sync = true) :
    Completes (.laneSyncLost r p) s (fun u => (getPath u.dev r.val p.val).sync = false ∧
      (getPath u.dev r.val p.val).syncLosses = satInc (getPath s.dev r.val p.val).syncLosses ∧ u.od = s.od) := by
  refine completes_drives (f := (syncLost · r.val p.val)) rfl ?_
  dsimp only
  unfold syncLost
  dsimp only
  rw [if_neg (by simp [hsync])]
  generalize he : modPath r.val p.val _ s.dev = e
  have hpath : getPath e r.val p.val = _ := he ▸ getPath_modPath_same _ _ (pathIx_lt r p)
  have htally := pathFaultNow_tally s.od r.val p.val 5 e r.val p.val
  rw [tallyOf, tallyOf, hpath] at htally
  exact ⟨(congrArg Path.sync htally :), (congrArg Path.syncLosses htally :), rfl⟩

theorem laneSyncGained_completes {r : Fin 8} {p : Fin 2} {s : State} (hlink : s.dev.isOn .link = true) :
    Completes (.laneSyncGained r p) s (fun u => (getPath u.dev r.val p.val).sync = true ∧ u.od = s.od) := by
  refine ⟨_, rfl, ?_, rfl⟩
  dsimp only
  rw [if_pos hlink, getPath_modPath_same _ _ (pathIx_lt r p)]

/-- A miss on a path that is STANDBY, and not the ring's active one, fails it (R215). -/
theorem pathMiss_standby {o : Od} {r p k cause hops : Nat} {d : Dev} (hix : pathIx r p < 16) (hsafe : d.isOn .safe = true)
    (hactive : (getRing d r).activePath ≠ p) (hstate : (getPath d r p).state = .standby) :
    (getPath (pathMiss o r p k cause hops d) r p).state = .failed := by
  unfold pathMiss
  extract_lets g q d1 n d2 d3
  rw [if_neg (by simp [hsafe]), if_neg (Ne.symm hactive)]
  simp only [q, hstate]
  have hd2 : (getPath d2 r p).state = .failed := by
    rw [getPath_of_lcl (record_lcl ..), getPath_modPath_same _ _ hix]
  have hd3 : getPath d3 r p = getPath d2 r p :=
    (getPath_of_lcl (record_lcl ..) r p).trans (getPath_of_paths (forEach_paths (fun _ _ => modTxn_paths ..) _ d2) r p)
  split
  · split
    · rw [getPath_of_lcl (tripCause_lcl ..), hd3, hd2]
    · rw [hd3, hd2]
  · exact hd2

/-- A miss on the active path, below the limit of misses, is counted in its run. -/
theorem pathMiss_active {o : Od} {r p k cause hops : Nat} {d : Dev} (hix : pathIx r p < 16) (hsafe : d.isOn .safe = true)
    (hactive : (getRing d r).activePath = p) (hfew : (getPath d r p).missRun + 1 < odU o 0x31F0 6) :
    getPath (pathMiss o r p k cause hops d) r p = { getPath d r p with missRun := (getPath d r p).missRun + 1 } := by
  unfold pathMiss
  extract_lets g q d1 n d2 d3
  rw [if_neg (by simp [hsafe]), if_pos hactive.symm, if_neg (Nat.not_le.2 hfew), getPath_modPath_same _ _ hix]
  rfl

/-- A fault ordered set on a path that is not DISABLED is a miss on the path, whose flights alone have changed. -/
theorem pathFaultNow_ordered {o : Od} {r p : Nat} {d : Dev} (hix : pathIx r p < 16) (hstate : (getPath d r p).state ≠ .disabled) :
    ∃ k fl e, pathFaultNow o r p 6 d = pathMiss o r p k 6 0 e ∧ e.isOn .safe = d.isOn .safe ∧ getRing e r = getRing d r ∧
      getPath e r p = { getPath d r p with flights := fl } := by
  unfold pathFaultNow
  dsimp only
  rw [if_neg (by simp [hstate])]
  split
  · exact ⟨_, _, _, rfl, rfl, rfl, getPath_modPath_same _ _ hix⟩
  · exact ⟨_, _, _, if_pos rfl, rfl, rfl, rfl⟩

/-- Settles O27: the sync is part of a path's tally, which a miss keeps; a fault ordered set is a miss. -/
theorem lanesLoseAndGainSync : Obligations.LanesLoseAndGainSync := by
  refine ⟨fun r p s => laneSyncLost_completes, fun r p s => laneSyncGained_completes, fun r p s hsafe hactive hstate => ?_,
    fun r p s hsafe hactive hstate hfew => ?_⟩
  · refine completes_drives (f := (pathFaultNow · r.val p.val 6)) rfl ⟨?_, rfl⟩
    obtain ⟨k, fl, e, hmiss, hon, hring, hpath⟩ :=
      pathFaultNow_ordered (o := s.od) (d := s.dev) (pathIx_lt r p) (by rw [hstate]; decide)
    dsimp only
    rw [hmiss]
    exact pathMiss_standby (pathIx_lt r p) (hon.trans hsafe) (by rwa [hring]) (by rwa [hpath])
  · refine completes_drives (f := (pathFaultNow · r.val p.val 6)) rfl ?_
    obtain ⟨k, fl, e, hmiss, hon, hring, hpath⟩ :=
      pathFaultNow_ordered (o := s.od) (d := s.dev) (pathIx_lt r p) (by rw [hstate]; decide)
    have hcounted := pathMiss_active (o := s.od) (k := k) (cause := 6) (hops := 0) (d := e) (pathIx_lt r p) (hon.trans hsafe)
      (by rwa [hring]) (by rwa [hpath])
    dsimp only
    rw [hmiss, hcounted, hpath]
    exact ⟨hstate, rfl, rfl⟩

end Sys2Proof.Machine
end

section
/-! Frames that return valid or with a fault, and frames that miss their return deadline (O26). -/
namespace Sys2Proof.Machine

/-! ### What follows a return keeps the tally -/

theorem pathGood_tally (o : Od) (q x k : Nat) (d : Dev) (r p : Nat) : tallyOf r p (pathGood o q x k d) = tallyOf r p d := by
  unfold pathGood
  extract_lets g y d1
  split
  · rfl
  split
  · have hd1 : tallyOf r p d1 = tallyOf r p d := (modRing_tally ..).trans (modPath_tally d fun _ => rfl)
    split
    · exact (record_tally ..).trans hd1
    · exact hd1
  split
  · exact (record_tally ..).trans (modPath_tally d fun _ => rfl)
  · split
    · exact (record_tally ..).trans ((modRing_tally ..).trans (modPath_tally d fun _ => rfl))
    · exact modPath_tally d fun _ => rfl
  · rfl

theorem takeSlots_paths (o : Od) (ik : Option Bytes) (r k : Nat) (seg : Bytes) (f : Flight) (d : Dev) :
    (Part.lcl.of (takeSlots o ik r k seg f d)).paths = (Part.lcl.of d).paths := by
  unfold takeSlots
  dsimp only
  refine forEach_paths (fun a e => ?_) _ d
  repeat' split
  all_goals simp

theorem cyclicLost_paths (o : Od) (r k : Nat) (slots : List SlotUse) (d : Dev) :
    (Part.lcl.of (cyclicLost o r k slots d)).paths = (Part.lcl.of d).paths := by
  unfold cyclicLost
  dsimp only
  refine (modRing_paths ..).trans ((forEach_paths (fun a e => ?_) _ _).trans (forEach_paths (fun c e => ?_) _ _))
  · split <;> simp
  · exact (modCell_paths ..).trans (by split <;> simp)

theorem delayReject_tally (q : Nat) (d : Dev) (r p : Nat) : tallyOf r p (delayReject q d) = tallyOf r p d :=
  (modRing_tally ..).trans (forEach_eq (tallyOf r p) d fun _ e => modPath_tally e fun _ => rfl)

theorem delayDeadline_tally (o : Od) (q x : Nat) (d : Dev) (r p : Nat) : tallyOf r p (delayDeadline o q x d) = tallyOf r p d := by
  unfold delayDeadline
  split
  · split
    · rfl
    · exact delayReject_tally ..
  · rfl

theorem stagesTelemetry_lcl (r p k launch : Nat) (slots : Bytes) (o : Od) (before d : Dev) :
    (stagesTelemetry r p k launch slots o before d).lcl = d.lcl := stagesTelemetry_leaves (p := .lcl) (by decide) r p k launch slots o before d

/-! ### A return -/

/-- A path once a frame has returned valid on it: the frame is counted, its round trip and its launch are kept. -/
def Path.returned (rtt launch : Nat) (q : Path) : Path := { q.tally with ok := wrapInc q.ok, rttLast := rtt, lastValid := launch }

theorem validReturn_tally {r p rtt : Nat} {f : Flight} {d : Dev} (hix : pathIx r p < 16) :
    tallyOf r p (validReturn r p rtt f d) = (getPath d r p).returned rtt f.launch := by
  unfold validReturn
  extract_lets q off d1
  have hd1 : tallyOf r p d1 = (getPath d r p).returned rtt f.launch := congrArg Path.tally (getPath_modPath_same _ _ hix)
  split
  · exact (modRing_tally ..).trans hd1
  · exact hd1

theorem cyclicReturn_tally {o : Od} {ik : Option Bytes} {r p rtt : Nat} {b : Bytes} {f : Flight} {d : Dev} (hix : pathIx r p < 16)
    (hflight : (getPath d r p).flights.find? (fun f => f.ftype == 1) = some f) (hreturn : canReturn d r p f = true)
    (hlaunching : (getRing d r).launching = true) (hlate : tooLate o r p f rtt b.length d = false)
    (hgood : frameFault o d r p f b rtt = none) :
    tallyOf r p (cyclicReturn o ik r p b rtt d) = (getPath d r p).returned rtt f.launch := by
  unfold cyclicReturn
  simp -zeta only [hflight, hreturn, hlaunching, hlate, hgood, Bool.not_true, Bool.or_self, Bool.false_eq_true, if_false]
  extract_lets k n d1 slots waits d2
  have hd1 : tallyOf r p d1 = (getPath d r p).returned rtt f.launch := validReturn_tally hix
  have hd2 : tallyOf r p d2 = (getPath d r p).returned rtt f.launch := (pathGood_tally ..).trans hd1
  split
  · split
    · exact hd1
    · split
      · exact (modRing_tally ..).trans hd1
      · exact (tallyOf_of_paths (by simp) r p).trans hd1
  · split
    · exact hd2
    · exact (tallyOf_of_paths ((takeSlots_paths ..).trans (by simp)) r p).trans hd2

theorem frameReturns_tally (r p : Nat) (b : Bytes) (rtt : Nat) (o : Od) (d : Dev) :
    tallyOf r p (frameReturns r p b rtt o d) = tallyOf r p (cyclicReturn o (ikInForce d) r p b rtt d) := by
  unfold frameReturns
  dsimp only
  split
  · exact tallyOf_of_lcl (stagesTelemetry_lcl ..) r p
  · rfl

theorem standbyReturn_tally {o : Od} {r p rtt : Nat} {b : Bytes} {f : Flight} {d : Dev} (hix : pathIx r p < 16)
    (hflight : (getPath d r p).flights.find? (fun f => f.ftype == 2) = some f) (hreturn : canReturn d r p f = true)
    (hlate : tooLate o r p f rtt b.length d = false) (hgood : frameFault o d r p f b rtt = none) :
    tallyOf r p (standbyReturn o r p b rtt d) = (getPath d r p).returned rtt f.launch := by
  unfold standbyReturn
  simp only [hflight, hreturn, hlate, hgood, Bool.not_true, Bool.or_self, Bool.false_eq_true, if_false]
  exact (pathGood_tally ..).trans (validReturn_tally hix)

theorem standbyReturn_faulty {o : Od} {r p rtt cause : Nat} {b : Bytes} {f : Flight} {d : Dev}
    (hflight : (getPath d r p).flights.find? (fun f => f.ftype == 2) = some f) (hreturn : canReturn d r p f = true)
    (hlate : tooLate o r p f rtt b.length d = false) (hfault : frameFault o d r p f b rtt = some cause) :
    standbyReturn o r p b rtt d = invalidReturn r p cause f (leAt b 30 1) d := by
  unfold standbyReturn
  simp only [hflight, hreturn, hlate, hfault, Bool.not_true, Bool.or_self, Bool.false_eq_true, if_false]

/-- A wait changes nothing that decides whether a flight can return. -/
theorem canReturn_upTo (due : Od → Dev → Option Instant) (s : State) (r p : Nat) (f : Flight) :
    canReturn (s.upTo due).dev r p f = canReturn s.dev r p f := by
  rw [canReturn, canReturn, getPath_of_lcl (upTo_lcl due s), show (s.upTo due).dev.sec = s.dev.sec from upTo_part due s (p := .sec) (by decide)]

/-! ### A missed deadline -/

theorem returnDeadline_tally {o : Od} {r p : Nat} {f : Flight} {d : Dev} (hix : pathIx r p < 16)
    (hflight : (getPath d r p).flights.find? (fun f => f.ftype != 3) = some f) (hover : deadlinePs o d r p f < d.clk.dt * 1250) :
    tallyOf r p (returnDeadline o r p d) = { (getPath d r p).tally with missed := satInc (getPath d r p).missed } := by
  unfold returnDeadline
  extract_lets q
  simp -zeta only [show q.flights.find? (fun f => f.ftype != 3) = some f from hflight]
  extract_lets d1 cause d2 d3
  rw [if_neg (Nat.not_le.2 hover), delayDeadline_tally]
  have hd1 : tallyOf r p d1 = { (getPath d r p).tally with missed := satInc (getPath d r p).missed } :=
    congrArg Path.tally (getPath_modPath_same _ _ hix)
  have hd2 : tallyOf r p d2 = tallyOf r p d1 := by
    simp only [d2]
    split
    · rfl
    · exact pathMiss_tally ..
  have hd3 : tallyOf r p d3 = tallyOf r p d2 := by
    simp only [d3]
    split
    · exact tallyOf_of_paths (useCopy_paths ..) r p
    · rfl
  split
  · exact (tallyOf_of_paths (cyclicLost_paths ..) r p).trans (hd3.trans (hd2.trans hd1))
  · exact hd3.trans (hd2.trans hd1)

theorem deadlinePasses_tally (r p : Nat) (o : Od) (d : Dev) : tallyOf r p (deadlinePasses r p o d) = tallyOf r p (returnDeadline o r p d) := by
  unfold deadlinePasses
  dsimp only
  split
  · exact tallyOf_of_lcl (stagesTelemetry_lcl ..) r p
  · rfl

theorem returnDeadline_completes {r : Fin 8} {p : Fin 2} {s : State} {f : Flight}
    (hflight : (getPath s.dev r.val p.val).flights.find? (fun f => f.ftype != 3) = some f) (hcount : s.dev.clk.counting = true) :
    Completes (.returnDeadline r p) s (fun u => u.od = s.od ∧
      (getPath u.dev r.val p.val).missed = satInc (getPath s.dev r.val p.val).missed) := by
  refine completes_timed (due := deadlineDue r.val p.val) (f := deadlinePasses r.val p.val) rfl ⟨rfl, ?_⟩
  have hreached := le_dt_upTo (due := deadlineDue r.val p.val) (s := s) (t := deadlinePs s.od s.dev r.val p.val f / 1250 + 1)
    (by simp [deadlineDue, flightOf, hflight]) hcount
  have hlcl := upTo_lcl (deadlineDue r.val p.val) s
  generalize s.upTo (deadlineDue r.val p.val) = w at hreached hlcl
  have hpath := getPath_of_lcl hlcl r.val p.val
  have hps : deadlinePs s.od w.dev r.val p.val f = deadlinePs s.od s.dev r.val p.val f := by rw [deadlinePs, deadlinePs, hpath, hlcl]
  have htally := returnDeadline_tally (o := s.od) (d := w.dev) (f := f) (pathIx_lt r p) (by rw [hpath, hflight]) (by rw [hps]; omega)
  rw [← deadlinePasses_tally, hpath] at htally
  exact (congrArg Path.missed htally :)

/-- Settles O26: what a return or a miss counts, the rest of the device's answer to it keeps. -/
theorem framesReturnOrMiss : Obligations.FramesReturnOrMiss := by
  refine ⟨?_, ?_, ?_, fun r p s f => returnDeadline_completes⟩
  · intro r p b rtt s f w hflight hreturn hlaunching hlate hgood
    refine completes_timed (due := returnDue r.val p.val 1 rtt b.length) (f := frameReturns r.val p.val b rtt) rfl ⟨rfl, ?_⟩
    have hpath := getPath_of_lcl (upTo_lcl (returnDue r.val p.val 1 rtt b.length) s) r.val p.val
    have htally := cyclicReturn_tally (ik := ikInForce w.dev) (d := w.dev) (pathIx_lt r p) (by rw [hpath, hflight])
      ((canReturn_upTo ..).trans hreturn) (by rw [getRing_of_lcl (upTo_lcl ..), hlaunching]) hlate hgood
    rw [← frameReturns_tally, hpath] at htally
    exact ⟨(congrArg Path.ok htally :), (congrArg Path.rttLast htally :), (congrArg Path.lastValid htally :)⟩
  · intro r p b rtt s f w hflight hreturn hlate hgood
    refine completes_timed (due := returnDue r.val p.val 2 rtt b.length) (f := (standbyReturn · r.val p.val b rtt)) rfl ⟨rfl, ?_⟩
    have hpath := getPath_of_lcl (upTo_lcl (returnDue r.val p.val 2 rtt b.length) s) r.val p.val
    have htally := standbyReturn_tally (d := w.dev) (pathIx_lt r p) (by rw [hpath, hflight]) ((canReturn_upTo ..).trans hreturn) hlate hgood
    rw [hpath] at htally
    exact ⟨(congrArg Path.ok htally :), (congrArg Path.rttLast htally :), (congrArg Path.lastValid htally :)⟩
  · intro r p b rtt cause s f w q hflight hreturn hlate hfault
    refine completes_timed (due := returnDue r.val p.val 2 rtt b.length) (f := (standbyReturn · r.val p.val b rtt)) rfl ⟨rfl, ?_⟩
    have hpath := getPath_of_lcl (upTo_lcl (returnDue r.val p.val 2 rtt b.length) s) r.val p.val
    dsimp only
    rw [standbyReturn_faulty (d := w.dev) (by rw [hpath, hflight]) ((canReturn_upTo ..).trans hreturn) hlate hfault, invalidReturn,
      getPath_modPath_same _ _ (pathIx_lt r p), hpath]
    exact ⟨rfl, fun h => if_pos h, fun h => if_pos h, fun h => if_pos h⟩

end Sys2Proof.Machine
end

section
/-! Rings (O28): start, stop, swap, the suppression of switches, and the delay measurement. -/
namespace Sys2Proof.Machine

theorem getRing_modRing_same {r : Nat} (f : Ring → Ring) (d : Dev) (h : r < 8) : getRing (modRing r f d) r = f (getRing d r) :=
  vget_vmod_same _ _ _ h

theorem modRing_path (r q p : Nat) (f : Ring → Ring) (d : Dev) : getPath (modRing r f d) q p = getPath d q p := rfl

/-! ### Commands (R215, R221) -/

theorem writeEffect_ringControl (r : Fin 8) (session : Option Nat) (s : State) :
    writeEffect session (0x3180 + r.val) 4 (toLE 4 0x74727473) s = thenArrCheck (0x3180 + r.val) (ringStartWrite r.val s) ∧
    writeEffect session (0x3180 + r.val) 4 (toLE 4 0x706F7473) s = thenArrCheck (0x3180 + r.val) (ringStopWrite r.val s) ∧
    writeEffect session (0x3180 + r.val) 6 (toLE 4 0x70617773) s = thenArrCheck (0x3180 + r.val) (swapWrite r.val s) := by
  fin_cases r <;> exact ⟨rfl, rfl, rfl⟩

/-- The arrangement check that follows a write of a ring's objects leaves the link (R271). -/
theorem thenArrCheck_lcl {ix : Nat} {w : Wrote} {u : State} (h : thenArrCheck ix w = (none, u)) :
    ∃ v, w = (none, v) ∧ u.dev.lcl = v.dev.lcl := by
  unfold thenArrCheck at h
  split at h
  next hw =>
    refine ⟨w.2, Prod.ext hw.2.2 rfl, ?_⟩
    obtain rfl := congrArg Prod.snd h
    exact arrCheck_leaves (p := .lcl) (by decide) _ _
  · exact ⟨u, h, rfl⟩

@[simp] theorem thenArrCheck_od (ix : Nat) (w : Wrote) : (thenArrCheck ix w).2.od = w.2.od := by
  unfold thenArrCheck
  split <;> simp

theorem ringStart_started {o : Od} {r : Nat} (d : Dev) (hr : r < 8) : (getRing (ringStart o r d) r).started = true := by
  unfold ringStart
  extract_lets paths a off lcl d1 ring d2 fresh d3
  split
  next h => exact h
  next =>
    have hd2 : (getRing d2 r).started = true := congrArg Ring.started (getRing_modRing_same _ d1 hr)
    have hfresh : ∀ st p e, getRing (fresh st p e) r = getRing e r := fun st p e => rfl
    have hd3 : getRing d3 r = getRing d2 r := (getRing_of_lcl (record_lcl ..) r).trans (hfresh ..)
    split
    · rw [getRing_of_lcl (record_lcl ..), hfresh, hd3, hd2]
    · rw [hd3, hd2]

theorem ringStop_stopped {o : Od} {r : Nat} (d : Dev) (hr : r < 8) : (getRing (ringStop o r d) r).started = false := by
  unfold ringStop
  extract_lets g k d1 d2 d3
  split
  next h => simpa [g] using h
  next => exact congrArg Ring.started (getRing_modRing_same _ d3 hr)

theorem ringStart_completes {via : Via} {r : Fin 8} {s : State} (h : accepted via (0x3180 + r.val) 4 (toLE 4 0x74727473) s = true) :
    Completes (.ringStart via r) s (fun u => (getRing u.dev r.val).started = true ∧ u.od = s.od) := by
  refine completes_of_write rfl ⟨by omega, by decide, by simp, by omega, by omega⟩ h fun n t u v ho => ?_
  have hw := (writeEffect_ringControl r (some n) t).1
  obtain ⟨x, hx, hlcl⟩ := thenArrCheck_lcl (hw.symm.trans ho.effect)
  obtain ⟨-, rfl⟩ := unlessRefused_accepted hx
  refine ⟨?_, ho.od_kept (by rw [hw]; simp [ringStartWrite])⟩
  rw [getRing_of_lcl ((ho.part (p := .lcl) (by decide)).trans hlcl)]
  exact ringStart_started t.dev r.isLt

theorem ringStop_completes {via : Via} {r : Fin 8} {s : State} (h : accepted via (0x3180 + r.val) 4 (toLE 4 0x706F7473) s = true) :
    Completes (.ringStop via r) s (fun u => (getRing u.dev r.val).started = false ∧ u.od = s.od) := by
  refine completes_of_write rfl ⟨by omega, by decide, by simp, by omega, by omega⟩ h fun n t u v ho => ?_
  have hw := (writeEffect_ringControl r (some n) t).2.1
  obtain ⟨x, hx, hlcl⟩ := thenArrCheck_lcl (hw.symm.trans ho.effect)
  refine ⟨?_, ho.od_kept (by rw [hw]; simp [ringStopWrite])⟩
  rw [getRing_of_lcl ((ho.part (p := .lcl) (by decide)).trans hlcl)]
  unfold ringStopWrite at hx
  split at hx
  · cases hx
  · obtain rfl := congrArg Prod.snd hx
    exact ringStop_stopped t.dev r.isLt

theorem pathSwap_completes {via : Via} {r : Fin 8} {s : State} (h : accepted via (0x3180 + r.val) 6 (toLE 4 0x70617773) s = true) :
    Completes (.pathSwap via r) s (fun u => (getRing u.dev r.val).swap = true ∧ u.od = s.od) := by
  refine completes_of_write rfl ⟨by omega, by decide, by simp, by omega, by omega⟩ h fun n t u v ho => ?_
  have hw := (writeEffect_ringControl r (some n) t).2.2
  obtain ⟨x, hx, hlcl⟩ := thenArrCheck_lcl (hw.symm.trans ho.effect)
  refine ⟨?_, ho.od_kept (by rw [hw]; simp [swapWrite])⟩
  rw [getRing_of_lcl ((ho.part (p := .lcl) (by decide)).trans hlcl)]
  unfold swapWrite at hx
  dsimp only at hx
  split at hx
  · cases hx
  split at hx
  · cases hx
  split at hx
  · cases hx
  · obtain rfl := congrArg Prod.snd hx
    exact congrArg Ring.swap (getRing_modRing_same _ t.dev r.isLt)

/-! ### The suppression of switches (R218) -/

/-- The end of the second in which a ring suppresses switches. -/
def suppressDue (r : Nat) (_ : Od) (d : Dev) : Option Instant := (getRing d r).suppressed.map (fun t => .device (t + secT 1))

theorem switchSuppressClear_completes {r : Fin 8} {s : State} (hsup : (getRing s.dev r.val).suppressed.isSome = true)
    (hcount : s.dev.clk.counting = true) :
    Completes (.switchSuppressClear r) s (fun u => (getRing u.dev r.val).suppressed = none ∧ u.od = s.od) := by
  refine completes_timed (due := suppressDue r.val) (f := fun _ => suppressClear r.val) rfl ⟨?_, rfl⟩
  obtain ⟨t, ht⟩ := Option.isSome_iff_exists.1 hsup
  have hreached := le_dt_upTo (due := suppressDue r.val) (s := s) (t := t + secT 1) (by simp [suppressDue, ht]) hcount
  have hring := getRing_of_lcl (upTo_lcl (suppressDue r.val) s) r.val
  dsimp only
  simp only [suppressClear, hring, ht, hreached, if_true]
  exact congrArg Ring.suppressed (getRing_modRing_same _ _ r.isLt)

/-! ### The delay measurement (R210) -/

theorem pathIx_inj {r p q : Nat} (h : pathIx r p = pathIx r q) : p = q := by
  unfold pathIx at h
  omega

theorem getPath_modPath_other {r p q : Nat} (f : Path → Path) (d : Dev) (h : p ≠ q) : getPath (modPath r p f d) r q = getPath d r q :=
  vget_vmod_other _ _ fun hix => h (pathIx_inj hix)

theorem sendFrame_path {r p : Nat} (f : Flight) (d : Dev) (hix : pathIx r p < 16) :
    (getPath (sendFrame r p f d) r p).flights = (getPath d r p).flights ++ [{ f with lost := d.sec.scan }] := by
  unfold sendFrame
  rw [getPath_of_lcl (putLane_leaves (p := .lcl) (by decide) r p _ _ _), getPath_modPath_same _ _ hix]

theorem sendFrame_other {r p q : Nat} (f : Flight) (d : Dev) (h : p ≠ q) : getPath (sendFrame r p f d) r q = getPath d r q := by
  unfold sendFrame
  rw [getPath_of_lcl (putLane_leaves (p := .lcl) (by decide) r p _ _ _), getPath_modPath_other _ _ h]

/-- A flight of a DELAY frame of period `k` launched at `t` is on the path. -/
def DelayInFlight (r p k t : Nat) (d : Dev) : Prop := ∃ f ∈ (getPath d r p).flights, f.ftype = 3 ∧ f.period = k ∧ f.launch = t

theorem delayLaunch_launches {o : Od} {r : Nat} {d : Dev} (hr : r < 8) (hlaunching : (getRing d r).launching = true)
    (hdue : (getRing d r).delayDue = true) :
    (getRing (delayLaunch o r d) r).delayDue = false ∧ (getRing (delayLaunch o r d) r).delaySince = 0 ∧
      (getRing (delayLaunch o r d) r).delayPeriod = some (d.sched.count - 1) ∧
      ∀ p ∈ enabledPaths d r, DelayInFlight r p (d.sched.count - 1) (d.sched.last + 3200) (delayLaunch o r d) := by
  unfold delayLaunch
  extract_lets g n k t d1
  rw [if_neg (by simp [g, hlaunching, hdue])]
  have hring := getRing_modRing_same (fun g : Ring => { g with delayDue := false, delaySince := 0, delayPeriod := some k }) d1 hr
  refine ⟨congrArg Ring.delayDue hring, congrArg Ring.delaySince hring, congrArg Ring.delayPeriod hring, fun p hp => ?_⟩
  have hix : pathIx r p < 16 := by
    have hp2 : p < 2 := List.mem_range.1 (List.mem_of_mem_filter hp)
    unfold pathIx
    omega
  have hd1 : DelayInFlight r p k t d1 := by
    refine forEach_establishes (P := fun _ => True) hp (fun _ _ _ => trivial) (fun q e he => ?_) (fun e _ => ?_) trivial
    · by_cases hq : q = p
      · subst hq
        exact ⟨_, by rw [sendFrame_path _ _ hix]; exact List.mem_append_right _ (List.mem_singleton_self _), rfl, rfl, rfl⟩
      · rw [DelayInFlight, sendFrame_other _ _ hq, dropDelay, getPath_modPath_other _ _ hq]
        exact he
    · exact ⟨_, by rw [sendFrame_path _ _ hix]; exact List.mem_append_right _ (List.mem_singleton_self _), rfl, rfl, rfl⟩
  exact hd1

/-- The instant of a DELAY frame's launch in the present period. -/
def delayLaunchDue (_ : Od) (d : Dev) : Option Instant := instantIf d.sched.running (.device (d.sched.last + 3200))

/-- What the launch does at its instant. -/
def delayLaunches (r : Nat) (o : Od) (d : Dev) : Dev :=
  if d.sched.running && decide (d.sched.last + 3200 ≤ d.clk.dt) then delayLaunch o r d else d

theorem delayFrameLaunch_completes {r : Fin 8} {s : State} (hrun : s.dev.sched.running = true) (hcount : s.dev.clk.counting = true)
    (hlaunching : (getRing s.dev r.val).launching = true) (hdue : (getRing s.dev r.val).delayDue = true) :
    Completes (.delayFrameLaunch r) s (fun u => (getRing u.dev r.val).delayDue = false ∧ (getRing u.dev r.val).delaySince = 0 ∧
      (getRing u.dev r.val).delayPeriod = some (s.dev.sched.count - 1) ∧ u.od = s.od ∧
      ∀ p ∈ enabledPaths s.dev r.val, ∃ f ∈ (getPath u.dev r.val p).flights, f.ftype = 3 ∧ f.period = s.dev.sched.count - 1 ∧
        f.launch = s.dev.sched.last + 3200) := by
  refine completes_timed (due := delayLaunchDue) (f := delayLaunches r.val) rfl ?_
  have hreached := le_dt_upTo (due := delayLaunchDue) (s := s) (t := s.dev.sched.last + 3200) (by rw [delayLaunchDue, hrun]; rfl) hcount
  have hlcl := upTo_lcl delayLaunchDue s
  have hsched : (s.upTo delayLaunchDue).dev.sched = s.dev.sched := upTo_part _ s (p := .sched) (by decide)
  generalize s.upTo delayLaunchDue = w at hreached hlcl hsched
  have hpaths : enabledPaths s.dev r.val = enabledPaths w.dev r.val := by simp only [enabledPaths, getPath_of_lcl hlcl]
  have hstep : delayLaunches r.val s.od w.dev = delayLaunch s.od r.val w.dev := by
    simp [delayLaunches, hsched, hrun, hreached]
  dsimp only
  rw [hstep, hpaths, ← hsched]
  have hring := getRing_of_lcl hlcl r.val
  obtain ⟨hnotDue, hsince, hperiod, hflights⟩ := delayLaunch_launches (o := s.od) (d := w.dev) r.isLt (by rw [hring, hlaunching])
    (by rw [hring, hdue])
  exact ⟨hnotDue, hsince, hperiod, rfl, hflights⟩

theorem takeDelays_ring {o : Od} {r : Nat} {rtt : List (Nat × Nat)} {delays : List (Nat × List Nat)} (d : Dev) (hr : r < 8) :
    (getRing (takeDelays o r rtt delays d) r).delayPeriod = none ∧ (getRing (takeDelays o r rtt delays d) r).resultDue = true := by
  unfold takeDelays
  extract_lets changes worst had d1 d2 d3
  have hd3 := getRing_modRing_same (fun g : Ring => { g with resultDue := true, delayPeriod := none }) d2 hr
  split
  · rw [getRing_of_lcl (record_lcl ..)]
    exact ⟨congrArg Ring.delayPeriod hd3, congrArg Ring.resultDue hd3⟩
  · exact ⟨congrArg Ring.delayPeriod hd3, congrArg Ring.resultDue hd3⟩

theorem delayReject_ring {r : Nat} (d : Dev) (hr : r < 8) : (getRing (delayReject r d) r).delayPeriod = none :=
  congrArg Ring.delayPeriod (getRing_modRing_same _ _ hr)

/-- Every return of a DELAY frame ends the measurement, taken or rejected. -/
theorem delayReturn_ends {o : Od} {r rttA rttB : Nat} {fa fb : Bytes} {d : Dev} (hr : r < 8) (hlaunching : (getRing d r).launching = true)
    (hperiod : (getRing d r).delayPeriod.isSome = true) : (getRing (delayReturn o r fa fb rttA rttB d) r).delayPeriod = none := by
  have hsome : (getRing d r).delayPeriod.isNone = false := by simpa using hperiod
  unfold delayReturn
  extract_lets g n flightOf drop reject ok entries p b rtt single
  rw [if_neg (by simp [g, hlaunching, hsome])]
  split
  · split
    · exact delayReject_ring d hr
    · split
      extract_lets err
      split
      · rw [getRing_of_lcl (record_lcl ..)]
        exact delayReject_ring d hr
      · exact (takeDelays_ring _ hr).1
  · split
    · exact delayReject_ring d hr
    · exact (takeDelays_ring _ hr).1

theorem delayFrameReturn_completes {r : Fin 8} {fa fb : Bytes} {rttA rttB : Nat} {s : State}
    (hlaunching : (getRing s.dev r.val).launching = true) (hperiod : (getRing s.dev r.val).delayPeriod.isSome = true) :
    Completes (.delayFrameReturn r fa fb rttA rttB) s (fun u => (getRing u.dev r.val).delayPeriod = none ∧ u.od = s.od) := by
  refine completes_timed (due := delayDue r.val rttA rttB fa.length fb.length) (f := fun o d => delayReturn o r.val fa fb rttA rttB d) rfl
    ⟨?_, rfl⟩
  have hring := getRing_of_lcl (upTo_lcl (delayDue r.val rttA rttB fa.length fb.length) s) r.val
  exact delayReturn_ends r.isLt (by rw [hring, hlaunching]) (by rw [hring, hperiod])

/-- Taken delays of a dual ring: each path holds its round trip and its delays. -/
theorem takeDelays_paths {o : Od} {r rttA rttB : Nat} {la lb : List Nat} (d : Dev) (hr : r < 8) :
    (getPath (takeDelays o r [(0, rttA), (1, rttB)] [(0, la), (1, lb)] d) r 0).rttRef = rttA ∧
    (getPath (takeDelays o r [(0, rttA), (1, rttB)] [(0, la), (1, lb)] d) r 1).rttRef = rttB ∧
    (getPath (takeDelays o r [(0, rttA), (1, rttB)] [(0, la), (1, lb)] d) r 0).delays = la ∧
    (getPath (takeDelays o r [(0, rttA), (1, rttB)] [(0, la), (1, lb)] d) r 1).delays = lb := by
  have h0 : pathIx r 0 < 16 := by unfold pathIx; omega
  have h1 : pathIx r 1 < 16 := by unfold pathIx; omega
  unfold takeDelays
  extract_lets changes worst had d1 d2 d3
  have hpath0 : getPath d3 r 0 = { getPath d r 0 with rttRef := rttA, delays := la } := by
    simp only [d3, d2, d1, forEach, List.foldl_cons, List.foldl_nil, modRing_path]
    rw [getPath_modPath_other _ _ (by decide), getPath_modPath_same _ _ h0, getPath_modPath_other _ _ (by decide), getPath_modPath_same _ _ h0]
  have hpath1 : getPath d3 r 1 = { getPath d r 1 with rttRef := rttB, delays := lb } := by
    simp only [d3, d2, d1, forEach, List.foldl_cons, List.foldl_nil, modRing_path]
    rw [getPath_modPath_same _ _ h1, getPath_modPath_other _ _ (by decide), getPath_modPath_same _ _ h1, getPath_modPath_other _ _ (by decide)]
  split
  · rw [getPath_of_lcl (record_lcl ..), getPath_of_lcl (record_lcl ..), hpath0, hpath1]
    exact ⟨rfl, rfl, rfl, rfl⟩
  · rw [hpath0, hpath1]
    exact ⟨rfl, rfl, rfl, rfl⟩

/-- Two valid frames of a dual ring, whose round trips agree, are solved and taken (R210). -/
theorem delayReturn_taken {o : Od} {r rttA rttB : Nat} {fa fb : Bytes} {f0 f1 : Flight} {d : Dev}
    (hlaunching : (getRing d r).launching = true) (hperiod : (getRing d r).delayPeriod.isSome = true) (hdual : dualRing o r = true)
    (h0 : (getPath d r 0).flights.find? (fun f => f.ftype == 3) = some f0) (h1 : (getPath d r 1).flights.find? (fun f => f.ftype == 3) = some f1)
    (hok0 : delayFrameOk o d r 0 f0 fa rttA = true) (hok1 : delayFrameOk o d r 1 f1 fb rttB = true)
    (hbroken : (getRing d r).delayBroken = false)
    (hentries : ((List.range (ringCells o r)).map (delayEntry fa fb)).any Option.isNone = false)
    (hclose : ((rttB : Int) - (solveDelays o r (ringCells o r) rttA
      (((List.range (ringCells o r)).map (delayEntry fa fb)).map (fun e => e.getD (0, 0, 0)))).2).natAbs ≤ 2000) :
    ∃ e, delayReturn o r fa fb rttA rttB d = takeDelays o r [(0, rttA), (1, rttB)]
      [(0, (solveDelays o r (ringCells o r) rttA
          (((List.range (ringCells o r)).map (delayEntry fa fb)).map (fun e => e.getD (0, 0, 0)))).1.map (fun x => x.1.toNat)),
        (1, (solveDelays o r (ringCells o r) rttA
          (((List.range (ringCells o r)).map (delayEntry fa fb)).map (fun e => e.getD (0, 0, 0)))).1.map (fun x => x.2.toNat))] e := by
  have hsome : (getRing d r).delayPeriod.isNone = false := by simpa using hperiod
  unfold delayReturn
  extract_lets g n flightOf drop reject ok entries p b rtt single
  have hboth : ok 0 fa = true ∧ ok 1 fb = true := by
    simp only [ok, flightOf, h0, h1]
    exact ⟨hok0, hok1⟩
  rw [if_neg (by simp [g, hlaunching, hsome]), if_pos hdual, if_neg]
  · exact ⟨drop d, if_neg (Nat.not_lt.2 hclose)⟩
  · simp only [hboth, g, hbroken, entries, n, hentries, Bool.not_true, Bool.or_self, Bool.false_eq_true, not_false_eq_true]

/-- Settles O28: the last write of a ring, by a command or a measurement, stands. -/
theorem ringsAct : Obligations.RingsAct := by
  refine ⟨fun via r s => ringStart_completes, fun via r s => ringStop_completes, fun via r s => pathSwap_completes,
    fun r s => switchSuppressClear_completes, fun r s => delayFrameLaunch_completes,
    fun r fa fb rttA rttB s => delayFrameReturn_completes, ?_⟩
  intro r fa fb rttA rttB s f0 f1 w entries
  dsimp only
  intro hlaunching hperiod hdual h0 h1 hok0 hok1 hbroken hentries hclose
  refine completes_timed (due := delayDue r.val rttA rttB fa.length fb.length) (f := fun o d => delayReturn o r.val fa fb rttA rttB d) rfl
    ⟨rfl, ?_⟩
  have hlcl := upTo_lcl (delayDue r.val rttA rttB fa.length fb.length) s
  have hring := getRing_of_lcl hlcl r.val
  obtain ⟨e, htaken⟩ := delayReturn_taken (o := s.od) (d := w.dev) (by rw [hring, hlaunching]) (by rw [hring, hperiod]) hdual
    (by rw [getPath_of_lcl hlcl, h0]) (by rw [getPath_of_lcl hlcl, h1]) hok0 hok1 (by rw [hring, hbroken]) hentries hclose
  dsimp only
  rw [htaken]
  exact ⟨(takeDelays_ring e r.isLt).2, takeDelays_paths e r.isLt⟩

end Sys2Proof.Machine
end

section
/-! A cell's session: what an entry to a state, and the end and the beginning of an epoch, leave of the cell. -/
namespace Sys2Proof.Machine

theorem getCell_setCell_same {c : Nat} (x : Cell) (d : Dev) (h : c < 128) : getCell (setCell c x d) c = x := vget_vset_same _ _ _ h

theorem getCell_modTxn_same {c : Nat} (f : Txn → Txn) (d : Dev) (h : c < 128) :
    getCell (modTxn c f d) c = { getCell d c with txn := f (getCell d c).txn } := getCell_modCell_same _ _ h

theorem getCell_modCell_other {b c : Nat} (f : Cell → Cell) (d : Dev) (h : b ≠ c) : getCell (modCell b f d) c = getCell d c :=
  vget_vmod_other _ _ h

theorem getCell_setCell_other {b c : Nat} (x : Cell) (d : Dev) (h : b ≠ c) : getCell (setCell b x d) c = getCell d c :=
  vget_vset_other _ _ h

@[simp] theorem getCell_modRing (r : Nat) (f : Ring → Ring) (d : Dev) (c : Nat) : getCell (modRing r f d) c = getCell d c := rfl

@[simp] theorem getCell_modPath (r p : Nat) (f : Path → Path) (d : Dev) (c : Nat) : getCell (modPath r p f d) c = getCell d c := rfl

@[simp] theorem getCell_record (o : Od) (code source : Nat) (data : Bytes) (d : Dev) (c : Nat) :
    getCell (record o code source data d) c = getCell d c := getCell_of_lcl (record_lcl ..) c

/-! ### Epochs -/

/-- The transactions of a cell once its epoch is closed. -/
def Txn.shut (t : Txn) : Txn := if t.isOpen then t.retire else t

/-- The transactions of a cell once an epoch is opened in period `k` (R251, R255). -/
def Txn.opened (o : Od) (k : Nat) (t : Txn) : Txn :=
  { t.retire with
    isOpen := true, epoch := nextEpoch t.epoch, pool := txnPar o 3, free := txnPar o 3 - txnPar o 3 / 2, granted := txnPar o 3 / 2
    grant := txnPar o 3 / 2, carried := txnPar o 3 / 2, changedAt := k, peerGrant := t.cellPool / 2, newReqs := 0, cellReqs := 0
    tagNext := 0, high := 0xFF, seen := [] }

@[simp] theorem shut_isOpen (t : Txn) : t.shut.isOpen = false := by
  unfold Txn.shut
  split
  · rfl
  next h => simpa using h

@[simp] theorem shut_failed (t : Txn) : t.shut.failed = t.failed := by
  unfold Txn.shut
  split <;> rfl

theorem closeEpoch_cell {o : Od} {c : Nat} (d : Dev) (h : c < 128) :
    getCell (closeEpoch o c d) c = { getCell d c with txn := (getCell d c).txn.shut } := by
  unfold closeEpoch
  dsimp only
  unfold Txn.shut
  cases hopen : (getCell d c).txn.isOpen with
  | false => simp
  | true =>
    simp only [Bool.not_true, Bool.false_eq_true, if_false, if_true]
    rw [getCell_modTxn_same _ _ h, getCell_record]

theorem openEpoch_cell {o : Od} {c k : Nat} (d : Dev) (h : c < 128) :
    getCell (openEpoch o c k d) c = { getCell d c with txn := (getCell d c).txn.opened o k } := getCell_modTxn_same _ _ h

theorem closeEpoch_other {o : Od} {b c : Nat} (d : Dev) (h : b ≠ c) : getCell (closeEpoch o b d) c = getCell d c := by
  unfold closeEpoch
  dsimp only
  split
  · rfl
  · exact (getCell_modCell_other _ _ h).trans (getCell_record ..)

theorem openEpoch_other {o : Od} {b c k : Nat} (d : Dev) (h : b ≠ c) : getCell (openEpoch o b k d) c = getCell d c :=
  getCell_modCell_other _ _ h

/-! ### Entries to a state (R229) -/

/-- A cell once its session has entered `st` in period `k` at `now`, but for its epoch. -/
def Cell.enters (st : SessState) (reason k now : Nat) (x : Cell) : Cell :=
  { x with
    state := st, reason := reason, prev := x.state.code, since := now, sincePeriod := k, resyncOwed := x.resyncOwed && st.awaitsResync
    nakSentSeen := false, nakReceivedSeen := false, control := if x.resyncOwed && st.awaitsResync then [{ mtype := 0x09 }] else []
    waitSince := none, awaitAnswer := false, differ := 0, fawnUnseen := false
    holdCount := if st == .hold then satInc x.holdCount else x.holdCount
    ex := .idle, exRetries := 0, exResends := []
    seqBase := if st.allFields then x.seqBase else none
    prevV := if st.allFields then x.prevV else none
    lastSlot := if st.allFields then x.lastSlot else none
    lossRun := if st.allFields then x.lossRun else 0
    txn := { x.txn with kindsSeen := [] } }

/-- What an entry to a state does with the cell's epoch: FAWN and RESYNC open one, the states without one close it. -/
def SessState.epochStep (o : Od) (k : Nat) : SessState → Txn → Txn
  | .fawn, t => t.opened o k
  | .resync, t => t.shut.opened o k
  | .absent, t => t.shut
  | .discover, t => t.shut
  | .admitting, t => t.shut
  | .blocked, t => t.shut
  | .fault, t => t.shut
  | _, t => t

theorem cellFell_lcl (o : Od) (c : Nat) (st : SessState) (presumed : Bool) (d : Dev) : (cellFell o c st presumed d).lcl = d.lcl :=
  cellFell_leaves (p := .lcl) (by decide) o c st presumed d

theorem leaveActive_lcl (o : Od) (c : Nat) (d : Dev) : (leaveActive o c d).lcl = d.lcl := leaveActive_leaves (p := .lcl) (by decide) o c d

/-- The last steps of an entry, by which the stacks take note of a cell that is no longer in service. -/
theorem stacksNote_lcl (o : Od) (c : Nat) (st : SessState) (b presumed : Bool) (d : Dev) :
    (match st with
      | .blocked => leaveActive o c (if b then cellFell o c st presumed d else d)
      | .bypassed => leaveActive o c (if b then cellFell o c st presumed d else d)
      | .fault => leaveActive o c (if b then cellFell o c st presumed d else d)
      | .absent => leaveActive o c (if b then cellFell o c st presumed d else d)
      | _ => if b then cellFell o c st presumed d else d).lcl = d.lcl := by
  have hfell : (if b then cellFell o c st presumed d else d).lcl = d.lcl := by
    split
    · exact cellFell_lcl ..
    · rfl
  split
  all_goals simp only [leaveActive_lcl, hfell]

/-- The step of an entry that ends or begins the epoch. -/
theorem epochStep_cell {o : Od} {c k : Nat} (st : SessState) (d : Dev) (h : c < 128) :
    getCell (match st with
      | .fawn => openEpoch o c k d
      | .resync => openEpoch o c k (closeEpoch o c d)
      | .absent => closeEpoch o c d
      | .discover => closeEpoch o c d
      | .admitting => closeEpoch o c d
      | .blocked => closeEpoch o c d
      | .fault => closeEpoch o c d
      | _ => d) c = { getCell d c with txn := st.epochStep o k (getCell d c).txn } := by
  cases st
  case resync => simp only [openEpoch_cell _ h, closeEpoch_cell _ h, SessState.epochStep]
  case fawn => exact openEpoch_cell d h
  case absent => exact closeEpoch_cell d h
  case discover => exact closeEpoch_cell d h
  case admitting => exact closeEpoch_cell d h
  case blocked => exact closeEpoch_cell d h
  case fault => exact closeEpoch_cell d h
  all_goals rfl

theorem sessEnter_cell {o : Od} {c reason k : Nat} {st : SessState} (d : Dev) (h : c < 128) :
    getCell (sessEnter o c st reason k d) c =
      { (getCell d c).enters st reason k d.clk.dt with txn := st.epochStep o k { (getCell d c).txn with kindsSeen := [] } } := by
  unfold sessEnter
  extract_lets x owed y d1 d2 d3 d4
  have hd2 : getCell d2 c = (getCell d c).enters st reason k d.clk.dt := (getCell_record ..).trans (getCell_setCell_same _ _ h)
  have hd3 := epochStep_cell (o := o) (k := k) st d2 h
  rw [hd2] at hd3
  exact (getCell_of_lcl (stacksNote_lcl ..) c).trans hd3

theorem epochStep_other {o : Od} {b c k : Nat} (st : SessState) (d : Dev) (h : b ≠ c) :
    getCell (match st with
      | .fawn => openEpoch o b k d
      | .resync => openEpoch o b k (closeEpoch o b d)
      | .absent => closeEpoch o b d
      | .discover => closeEpoch o b d
      | .admitting => closeEpoch o b d
      | .blocked => closeEpoch o b d
      | .fault => closeEpoch o b d
      | _ => d) c = getCell d c := by
  split
  all_goals simp only [openEpoch_other _ h, closeEpoch_other _ h]

/-- An entry of another cell's session leaves the cell. -/
theorem sessEnter_other {o : Od} {b c reason k : Nat} {st : SessState} (d : Dev) (h : b ≠ c) :
    getCell (sessEnter o b st reason k d) c = getCell d c := by
  unfold sessEnter
  extract_lets x owed y d1 d2 d3 d4
  have hd2 : getCell d2 c = getCell d c := (getCell_record ..).trans (getCell_setCell_other _ _ h)
  exact (getCell_of_lcl (stacksNote_lcl ..) c).trans ((epochStep_other st d2 h).trans hd2)

/-- An entry to a state without an epoch: the state, its reason, and the epoch closed. -/
theorem sessEnter_closes {o : Od} {c reason k : Nat} {st : SessState} (d : Dev) (h : c < 128)
    (hst : st ∈ [SessState.absent, .discover, .admitting, .blocked, .fault]) :
    (getCell (sessEnter o c st reason k d) c).state = st ∧ (getCell (sessEnter o c st reason k d) c).reason = reason ∧
    (getCell (sessEnter o c st reason k d) c).txn.isOpen = false ∧
    (getCell (sessEnter o c st reason k d) c).txn.failed = (getCell d c).txn.failed := by
  rw [sessEnter_cell d h]
  simp only [List.mem_cons, List.not_mem_nil, or_false] at hst
  obtain rfl | rfl | rfl | rfl | rfl := hst
  all_goals exact ⟨rfl, rfl, shut_isOpen _, shut_failed _⟩

end Sys2Proof.Machine
end

section
/-! The limits of a transaction (O34): timeouts, retries, held grants and reconciliations. -/
namespace Sys2Proof.Machine

/-! ### A request without answer (R261) -/

/-- A request whose last attempt failed without answer. -/
def LclReq.again (q : LclReq) : LclReq := { q with resend := true, retries := q.retries + 1, cause := 1 }

/-- Where no request of the tag has used up its retries, an attempt's failure marks them for another. -/
theorem attemptFailed_out {o : Od} {c k tag : Nat} {d : Dev} (hc : c < 128)
    (hfew : ∀ x ∈ (getCell d c).txn.out, x.tag = tag → x.retries < txnPar o 2) :
    (getCell (attemptFailed o c k tag d) c).txn.out = (getCell d c).txn.out.map (fun x => if x.tag = tag then x.again else x) := by
  unfold attemptFailed
  split
  next hnone =>
    have hid : ∀ x ∈ (getCell d c).txn.out, (if x.tag = tag then x.again else x) = x := fun x hx =>
      if_neg (by simpa using List.find?_eq_none.1 hnone x hx)
    exact (List.map_id'' (fun _ => rfl) _).symm.trans (List.map_congr_left fun x hx => (hid x hx).symm)
  next r hr =>
    have htag : r.tag = tag := by simpa using List.find?_some hr
    rw [if_pos (hfew r (List.mem_of_find?_eq_some hr) htag), getCell_modTxn_same _ _ hc]
    simp [LclReq.again]

/-- Requests of different tags fail one after another: each that had retries left is marked once. -/
theorem attemptsFailed_out {o : Od} {c k : Nat} (hc : c < 128) (l : List LclReq) (d : Dev) (htags : (l.map (·.tag)).Nodup)
    (hfew : ∀ x ∈ (getCell d c).txn.out, x.tag ∈ l.map (·.tag) → x.retries < txnPar o 2) :
    (getCell (forEach l (fun q d => attemptFailed o c k q.tag d) d) c).txn.out =
      (getCell d c).txn.out.map (fun x => if x.tag ∈ l.map (·.tag) then x.again else x) := by
  induction l generalizing d with
  | nil => simp [forEach]
  | cons q l ih =>
    obtain ⟨hq, hl⟩ := List.nodup_cons.1 htags
    have hfirst := attemptFailed_out (o := o) (k := k) (tag := q.tag) (d := d) hc fun x hx htag => hfew x hx (by simp [htag])
    have hrest := ih (attemptFailed o c k q.tag d) hl fun x hx htag => by
      rw [hfirst] at hx
      obtain ⟨y, hy, rfl⟩ := List.mem_map.1 hx
      split at htag
      next hyq =>
        have htail : y.tag ∈ l.map (·.tag) := htag
        rw [hyq] at htail
        exact absurd htail hq
      next hyq =>
        rw [if_neg hyq]
        exact hfew y hy (List.mem_cons_of_mem _ htag)
    refine (hrest.trans (congrArg _ hfirst)).trans ?_
    rw [List.map_map]
    refine List.map_congr_left fun x _ => ?_
    by_cases hxq : x.tag = q.tag
    · have htag : x.again.tag = q.tag := hxq
      have hnot : q.tag ∉ l.map (·.tag) := hq
      simp only [Function.comp_apply, hxq, htag, if_true, hnot, if_false, List.map_cons, List.mem_cons, true_or]
    · simp [hxq]

theorem reqTimeout_completes {c : Fin 128} {s : State} {q : LclReq} (hrec : (getCell s.dev c.val).txn.reconciling = false)
    (htags : ((getCell s.dev c.val).txn.out.map (·.tag)).Nodup) (hfew : ∀ x ∈ (getCell s.dev c.val).txn.out, x.retries < txnPar s.od 2)
    (hq : q ∈ (getCell s.dev c.val).txn.out) (hresend : q.resend = false)
    (hdue : q.launched + txnPar s.od 1 + q.suspended ≤ (getRing s.dev (ringOf c.val)).lastDone) :
    Completes (.reqTimeout c) s (fun u => (∃ x ∈ (getCell u.dev c.val).txn.out, x.tag = q.tag ∧ x.resend = true ∧
      x.retries = q.retries + 1) ∧ u.od = s.od) := by
  refine completes_drives (f := requestTimeout c.val) rfl ⟨?_, rfl⟩
  have hq' : q ∈ (getCell s.dev c.val).txn.out.filter (fun q => !q.resend &&
      decide (q.launched + txnPar s.od 1 + q.suspended ≤ (getRing s.dev (ringOf c.val)).lastDone)) := by
    simp [hq, hresend, hdue]
  dsimp only
  unfold requestTimeout
  dsimp only
  rw [if_neg (by simp [hrec]), attemptsFailed_out c.isLt _ _ (htags.sublist (List.filter_sublist.map _)) fun x hx _ => hfew x hx]
  exact ⟨q.again, List.mem_map.2 ⟨q, hq, if_pos (List.mem_map_of_mem hq')⟩, rfl, rfl, rfl⟩

/-! ### A request that could not be launched in time (R263) -/

theorem requestFailed_cell {o : Od} {c k cause : Nat} {r : LclReq} {d : Dev} (hc : c < 128) :
    (getCell (requestFailed o c k r cause d) c).txn.failed = satInc (getCell d c).txn.failed ∧
    ((getCell d c).state = .param ∨ (getCell d c).state = .resync → (getCell (requestFailed o c k r cause d) c).state = .fault ∧
      (getCell (requestFailed o c k r cause d) c).reason = 0x15) ∧
    ((getCell d c).state ≠ .param → (getCell d c).state ≠ .resync →
      (getCell (requestFailed o c k r cause d) c).txn.queue = (getCell d c).txn.queue) := by
  unfold requestFailed
  extract_lets d1 d2 st
  have hd2 : getCell d2 c = { getCell d c with txn := { (getCell d c).txn with failed := satInc (getCell d c).txn.failed } } :=
    (getCell_record ..).trans (getCell_modTxn_same _ _ hc)
  have hst : st = (getCell d c).state := (congrArg Cell.state hd2 :)
  obtain ⟨hstate, hreason, -, hfailed⟩ := sessEnter_closes (o := o) (reason := 0x15) (k := k) (st := .fault) d2 hc (by decide)
  split
  next h =>
    refine ⟨hfailed.trans (by rw [hd2]), fun _ => ⟨hstate, hreason⟩, fun hp hr => ?_⟩
    simp [hst, hp, hr] at h
  next h =>
    refine ⟨by rw [hd2], fun hor => ?_, fun _ _ => by rw [hd2]⟩
    rw [hst] at h
    exact absurd (by simpa using hor) h

theorem requestLaunchTimeout_completes {c : Fin 128} {s : State} {q : LclReq} {rest : List LclReq} {j : Nat}
    (hqueue : (getCell s.dev c.val).txn.queue = q :: rest) (hq : q.due = some j) (hlate : j + txnPar s.od 1 ≤ s.dev.sched.count)
    (hrest : ∀ x ∈ rest, x.due = none) :
    Completes (.requestLaunchTimeout c) s (fun u => u.od = s.od ∧
      (getCell u.dev c.val).txn.failed = satInc (getCell s.dev c.val).txn.failed ∧
      ((getCell s.dev c.val).state = .param ∨ (getCell s.dev c.val).state = .resync →
        (getCell u.dev c.val).state = .fault ∧ (getCell u.dev c.val).reason = 0x15) ∧
      ((getCell s.dev c.val).state ≠ .param → (getCell s.dev c.val).state ≠ .resync → (getCell u.dev c.val).txn.queue = rest)) := by
  refine completes_drives (f := launchTimeout c.val) rfl ⟨rfl, ?_⟩
  have hstep : launchTimeout c.val s.od s.dev = requestFailed s.od c.val s.dev.sched.count q 3
      (modTxn c.val (fun t => { t with queue := t.queue.erase q }) s.dev) := by
    unfold launchTimeout
    extract_lets k late
    have hone : late = [q] := by
      simp only [late, hqueue]
      rw [List.filter_cons_of_pos (by simp [hq, hlate, k]), List.filter_eq_nil_iff.2 fun x hx => by simp [hrest x hx]]
    rw [hone]
    rfl
  dsimp only
  rw [hstep]
  have hcell : getCell (modTxn c.val (fun t => { t with queue := t.queue.erase q }) s.dev) c.val =
      { getCell s.dev c.val with txn := { (getCell s.dev c.val).txn with queue := rest } } := by
    rw [getCell_modTxn_same _ _ c.isLt, hqueue, List.erase_cons_head]
  obtain ⟨hfailed, hfault, hkept⟩ := requestFailed_cell (o := s.od) (k := s.dev.sched.count) (cause := 3) (r := q)
    (d := modTxn c.val (fun t => { t with queue := t.queue.erase q }) s.dev) c.isLt
  rw [hcell] at hfailed hfault hkept
  exact ⟨hfailed, hfault, hkept⟩

/-! ### A delayed retry, and a grant held to its limit (R255, R262) -/

theorem nakRetryDelay_completes {c : Fin 128} {s : State} {q : LclReq} (hnap : (getCell s.dev c.val).txn.napping = [q])
    (hready : q.notBefore ≤ s.dev.sched.count) :
    Completes (.nakRetryDelay c) s (fun u => (getCell u.dev c.val).txn.napping = [] ∧ u.od = s.od ∧
      ∃ i, (getCell u.dev c.val).txn.queue = (getCell s.dev c.val).txn.queue ++ [{ q with ord := i, due := none }]) := by
  refine completes_drives (f := fun _ => nakRetry c.val) rfl ?_
  have hstep : getCell (nakRetry c.val s.dev) c.val = { getCell s.dev c.val with txn := { (getCell s.dev c.val).txn with
      napping := [], queue := (getCell s.dev c.val).txn.queue ++
        [{ q with ord := (getRing s.dev (ringOf c.val)).ord, due := none }] } } := by
    simp [nakRetry, hnap, hready, forEach, nextOrd, getCell_modTxn_same _ _ c.isLt]
  dsimp only
  rw [hstep]
  exact ⟨rfl, rfl, _, rfl⟩

theorem grantHoldExpiry_completes {c : Fin 128} {s : State} (hopen : (getCell s.dev c.val).txn.isOpen = true)
    (hgrant : (getCell s.dev c.val).txn.grant ≠ (getCell s.dev c.val).txn.carried)
    (hheld : (getCell s.dev c.val).txn.changedAt + txnPar s.od 8 ≤ s.dev.sched.count) :
    Completes (.grantHoldExpiry c) s (fun u => (getCell u.dev c.val).txn.creditDue = true ∧ u.od = s.od) := by
  refine completes_drives (f := grantHold c.val) rfl ⟨?_, rfl⟩
  dsimp only
  unfold grantHold
  dsimp only
  rw [if_pos (by simp [hopen, hgrant, hheld]), getCell_modTxn_same _ _ c.isLt]

/-! ### The limit of a reconciliation (R265) -/

/-- A cell's reconciliation has ended, or its ring's is still going on. -/
def ReconGoesOn (r c : Nat) (d : Dev) : Prop := (getRing d r).recon.isSome = true ∨ (getCell d c).txn.reconciling = false

theorem yieldTo_lcl (o : Od) (winner loser ident code source : Nat) (d : Dev) : (yieldTo o winner loser ident code source d).lcl = d.lcl :=
  yieldTo_leaves (p := .lcl) (by decide) o winner loser ident code source d

theorem reconcileDone_cell (o : Od) (r : Nat) (d : Dev) (c : Nat) : getCell (reconcileDone o r d) c = getCell d c := by
  unfold reconcileDone
  dsimp only
  split
  · rfl
  · split
    · rfl
    · split
      · exact getCell_record ..
      · exact (getCell_of_lcl (yieldTo_lcl ..) c).trans (getCell_record ..)

/-- A reconciliation is over once no cell of its ring reconciles; another ring's end leaves it. -/
theorem reconcileDone_goesOn {o : Od} {r b c : Nat} {d : Dev} (hr : r < 8) (hc : c ∈ ringCellList o r) (h : ReconGoesOn r c d) :
    ReconGoesOn r c (reconcileDone o b d) := by
  by_cases hrec : (getCell d c).txn.reconciling = true
  · have hsome : (getRing d r).recon.isSome = true := h.resolve_right (by simp [hrec])
    refine Or.inl ?_
    unfold reconcileDone
    dsimp only
    split
    · exact hsome
    · split
      · exact hsome
      next hnone =>
        have hb : b ≠ r := by
          rintro rfl
          exact hnone (List.any_eq_true.2 ⟨c, hc, hrec⟩)
        have hother : ∀ f, getRing (modRing b f d) r = getRing d r := fun f => vget_vmod_other _ _ hb
        split
        · rw [getRing_of_lcl (record_lcl ..), hother, hsome]
        · rw [getRing_of_lcl (yieldTo_lcl ..), getRing_of_lcl (record_lcl ..), hother, hsome]
  · exact Or.inr (by rw [reconcileDone_cell]; simpa using hrec)

theorem getRing_modCell (c : Nat) (f : Cell → Cell) (d : Dev) (r : Nat) : getRing (modCell c f d) r = getRing d r := rfl

/-- A cell that reconciles no more stays so at the end of another's reconciliation. -/
theorem reconcileEnd_reconciling {o : Od} {b c : Nat} {answered : Bool} {d : Dev} (h : (getCell d c).txn.reconciling = false) :
    (getCell (reconcileEnd o b answered d) c).txn.reconciling = false := by
  unfold reconcileEnd
  dsimp only
  split
  · exact h
  · split
    · exact h
    · rw [reconcileDone_cell]
      exact vget_vmod_keeps (P := fun x : Cell => x.txn.reconciling = false) _ _ _ _ (fun _ => rfl) h

theorem reconcileEnd_goesOn {o : Od} {r b c : Nat} {answered : Bool} {d : Dev} (hr : r < 8) (hc : c ∈ ringCellList o r) (h : ReconGoesOn r c d) :
    ReconGoesOn r c (reconcileEnd o b answered d) := by
  rcases h with hsome | hover
  · unfold reconcileEnd
    dsimp only
    split
    · exact Or.inl hsome
    · split
      · exact Or.inl hsome
      · refine reconcileDone_goesOn hr hc (Or.inl ?_)
        exact vget_vmod_keeps (P := fun g : Ring => g.recon.isSome = true) _ _ _ _ (fun h => by split <;> exact h) hsome
  · exact Or.inr (reconcileEnd_reconciling hover)

theorem reconcileEnd_ends {o : Od} {r c : Nat} {answered : Bool} {d : Dev} (hc : c < 128) (hring : ringOf c = r) (h : ReconGoesOn r c d) :
    (getCell (reconcileEnd o c answered d) c).txn.reconciling = false := by
  unfold reconcileEnd
  dsimp only
  rw [hring]
  split
  next hnone => exact h.resolve_left (by simp [hnone])
  · split
    next hover => simpa using hover
    next =>
      rw [reconcileDone_cell, getCell_modRing, getCell_modTxn_same _ _ hc]

theorem reconcileLimit_completes {r : Fin 8} {p : Fin 16} {s : State} {a b : Nat} (hrecon : (getRing s.dev r.val).recon = some (a, b))
    (hlimit : b + txnPar s.od 4 < s.dev.sched.count) (hp : p.val < ringCells s.od r.val) :
    Completes (.reconcileLimit r) s (fun u => (getCell u.dev (16 * r.val + p.val)).txn.reconciling = false ∧ u.od = s.od) := by
  refine completes_drives (f := reconcileLimit r.val) rfl ⟨?_, rfl⟩
  have hmem : 16 * r.val + p.val ∈ ringCellList s.od r.val := List.mem_map.2 ⟨p.val, List.mem_range.2 hp, rfl⟩
  have hlt : 16 * r.val + p.val < 128 := by omega
  have hring : ringOf (16 * r.val + p.val) = r.val := by unfold ringOf; omega
  have hstep : reconcileLimit r.val s.od s.dev = forEach (ringCellList s.od r.val) (fun c d => reconcileEnd s.od c false d) s.dev := by
    simp [reconcileLimit, hrecon, hlimit]
  dsimp only
  rw [hstep]
  exact forEach_establishes (P := ReconGoesOn r.val (16 * r.val + p.val)) (Q := fun d => (getCell d (16 * r.val + p.val)).txn.reconciling = false)
    hmem (fun _ _ => reconcileEnd_goesOn r.isLt hmem) (fun _ _ => reconcileEnd_reconciling) (fun _ => reconcileEnd_ends hlt hring)
    (Or.inl (by rw [hrecon]; rfl))

/-- Settles O34: each limit acts on the transactions of one cell, and what follows keeps them. -/
theorem transactionLimits : Obligations.TransactionLimits :=
  ⟨fun _ _ _ => reqTimeout_completes, fun _ _ _ _ _ => requestLaunchTimeout_completes, fun _ _ _ => nakRetryDelay_completes,
    fun _ _ => grantHoldExpiry_completes, fun _ _ _ _ _ => reconcileLimit_completes⟩

end Sys2Proof.Machine
end

section
/-! Stack conditions (O36): starts that take too long, the stop ramp, internal stops, and the update of a period. -/
namespace Sys2Proof.Machine

theorem record_stack (o : Od) (code source : Nat) (data : Bytes) (d : Dev) : (record o code source data d).stack = d.stack :=
  record_leaves (p := .stack) (by decide) o _ _ _ d

theorem upTo_stack (due : Od → Dev → Option Instant) (s : State) : (s.upTo due).dev.stack = s.dev.stack :=
  upTo_part due s (p := .stack) (by decide)

theorem upTo_prot (due : Od → Dev → Option Instant) (s : State) : (s.upTo due).dev.prot = s.dev.prot :=
  upTo_part due s (p := .prot) (by decide)

/-! ### Times of a state (R283 to R286) -/

/-- The timeout of a state of the start fails the start with its cause. -/
theorem stackStartTimeout_completes {c : Instr} {st : StackState} {ms : Od → Nat} {cause : Nat} {s : State}
    (hexec : exec c s = timed (fun o => startDue st (ms o)) (fun o => startTimeout st (ms o) cause) s)
    (hstate : s.dev.stack.state = st) (hcount : s.dev.clk.counting = true) :
    Completes c s (fun u => u.dev.stack.due = some (.stopped, 3, some (cause, 0xFF)) ∧ u.od = s.od) := by
  refine completes_timed hexec ⟨?_, rfl⟩
  have hreached := le_dt_upTo (due := fun o => startDue st (ms o)) (s := s) (t := s.dev.stack.since + msT (ms s.od))
    (by simp [startDue, hstate, instantIf]) hcount
  have hstack := upTo_stack (fun o => startDue st (ms o)) s
  generalize s.upTo (fun o => startDue st (ms o)) = w at hreached hstack
  dsimp only
  rw [startTimeout, if_pos (by simp [hstack, hstate, hreached])]
  rfl

/-- The end of the stop ramp, where no power is forced out. -/
def stopRampDue (o : Od) (d : Dev) : Option Instant :=
  instantIf (d.stack.state == .stopping && !d.prot.exportForced) (.device (rampEnd o d))

theorem stopRampEnd_completes {s : State} (hstate : s.dev.stack.state = .stopping) (hforced : s.dev.prot.exportForced = false)
    (hcount : s.dev.clk.counting = true) :
    Completes .stopRampEnd s (fun u => u.dev.stack.due = some (.stopped, 2, none) ∧ u.od = s.od) := by
  refine completes_timed (due := stopRampDue) (f := stopRampEnd) rfl ⟨?_, rfl⟩
  have hreached := le_dt_upTo (due := stopRampDue) (s := s) (t := rampEnd s.od s.dev) (by simp [stopRampDue, hstate, hforced, instantIf]) hcount
  have hstack := upTo_stack stopRampDue s
  have hprot := upTo_prot stopRampDue s
  generalize s.upTo stopRampDue = w at hreached hstack hprot
  have hend : rampEnd s.od w.dev = rampEnd s.od s.dev := by rw [rampEnd, rampEnd, hstack]
  dsimp only
  rw [stopRampEnd, if_pos (by simp [hstack, hprot, hstate, hforced, hend, hreached])]
  rfl

/-! ### Internal stops (R285, R316) -/

/-- An internal stop of a running stack that has no command waiting begins its stop ramp. -/
theorem internalStop_running {d : Dev} (hstate : d.stack.state = .running) (hcmd : d.stack.cmd = none) :
    (internalStop d).stack.due = some (.stopping, 2, none) ∧ (internalStop d).stack.stopFrom = d.clk.dt ∧ (internalStop d).clk = d.clk := by
  simp [internalStop, hstate, hcmd, StackState.runs, onStack]

/-- The end of the line ride-through. -/
def rideThroughDue (o : Od) (d : Dev) : Option Instant := d.prot.lineLostAt.map (fun t => .device (t + msT (odU o 0x3300 0x0B)))

theorem lineRideThroughExpiry_completes {s : State} (hstate : s.dev.stack.state = .running) (hcmd : s.dev.stack.cmd = none)
    (hdue : s.dev.stack.due = none) (hlost : s.dev.prot.lineLostAt.isSome = true) (hcount : s.dev.clk.counting = true) :
    Completes .lineRideThroughExpiry s (fun u => u.dev.stack.due = some (.stopping, 2, none) ∧
      u.dev.stack.stopFrom = u.dev.clk.dt ∧ u.od = s.od) := by
  refine completes_timed (due := rideThroughDue) (f := rideThroughEnd) rfl ?_
  obtain ⟨t, ht⟩ := Option.isSome_iff_exists.1 hlost
  have hreached := le_dt_upTo (due := rideThroughDue) (s := s) (t := t + msT (odU s.od 0x3300 0x0B)) (by simp [rideThroughDue, ht]) hcount
  have hstack := upTo_stack rideThroughDue s
  have hprot := upTo_prot rideThroughDue s
  generalize s.upTo rideThroughDue = w at hreached hstack hprot
  have hstep : ∃ data, rideThroughEnd s.od w.dev = internalStop (record s.od 0x2026 0 data w.dev) := by
    refine ⟨[2, 0, 0, 0] ++ toLE 4 (msBetween t w.dev.clk.dt), ?_⟩
    simp [rideThroughEnd, hstack, hprot, ht, hstate, hdue, hreached]
  obtain ⟨data, hstep⟩ := hstep
  obtain ⟨hstopping, hfrom, hclk⟩ := internalStop_running (d := record s.od 0x2026 0 data w.dev) (by rw [record_stack, hstack, hstate])
    (by rw [record_stack, hstack, hcmd])
  dsimp only
  rw [hstep, hclk]
  exact ⟨hstopping, hfrom, rfl⟩

/-- The end of a group's headroom time. -/
def headroomDue (g : Nat) (o : Od) (d : Dev) : Option Instant :=
  (vget d.stack.groups g).shortSince.map (fun t => .device (t + msT (odU o 0x3300 0x0C)))

theorem headroomTimeExpiry_completes {g : Fin 4} {s : State} (hstate : s.dev.stack.state = .running) (hcmd : s.dev.stack.cmd = none)
    (hdue : s.dev.stack.due = none) (hshort : (vget s.dev.stack.groups g.val).shortSince.isSome = true) (hcount : s.dev.clk.counting = true) :
    Completes (.headroomTimeExpiry g) s (fun u => u.dev.stack.due = some (.stopping, 2, none) ∧
      u.dev.stack.stopFrom = u.dev.clk.dt ∧ u.od = s.od) := by
  refine completes_timed (due := headroomDue g.val) (f := headroomEnd g.val) rfl ?_
  obtain ⟨t, ht⟩ := Option.isSome_iff_exists.1 hshort
  have hreached := le_dt_upTo (due := headroomDue g.val) (s := s) (t := t + msT (odU s.od 0x3300 0x0C)) (by simp [headroomDue, ht]) hcount
  have hstack := upTo_stack (headroomDue g.val) s
  generalize s.upTo (headroomDue g.val) = w at hreached hstack
  have hstep : headroomEnd g.val s.od w.dev = internalStop (headroomRecord s.od 2 g.val w.dev) := by
    simp [headroomEnd, hstack, ht, hstate, hdue, hreached, StackState.runs]
  obtain ⟨hstopping, hfrom, hclk⟩ := internalStop_running (d := headroomRecord s.od 2 g.val w.dev)
    (by rw [headroomRecord, record_stack, hstack, hstate]) (by rw [headroomRecord, record_stack, hstack, hcmd])
  dsimp only
  rw [hstep, hclk]
  exact ⟨hstopping, hfrom, rfl⟩

/-! ### The update of a period (R276, R277) -/

/-- What an update takes in: that it was handed over, the bus voltage and the line samples. -/
def intakeOf (d : Dev) : Bool × Rat × List Rat × Rat × Rat :=
  (d.stack.handed, d.stack.busV, d.stack.lineSamples, d.stack.vab, d.stack.vbc)

theorem intakeOf_of_stack {d e : Dev} (h : d.stack = e.stack) : intakeOf d = intakeOf e := by rw [intakeOf, intakeOf, h]

theorem record_intake (o : Od) (code source : Nat) (data : Bytes) (d : Dev) : intakeOf (record o code source data d) = intakeOf d :=
  intakeOf_of_stack (record_stack ..)

theorem pllLock_intake (o : Od) (locked : Bool) (cause : Nat) (d : Dev) : intakeOf (pllLock o locked cause d) = intakeOf d :=
  (record_intake ..).trans rfl

theorem tripCause_intake (o : Od) (bit : Nat) (d : Dev) : intakeOf (tripCause o bit d) = intakeOf d :=
  intakeOf_of_stack (tripCause_leaves (p := .stack) (by decide) o bit d)

theorem pllStep_intake {o : Od} {d : Dev} :
    intakeOf (pllStep o d) = (d.stack.handed, d.stack.busV, d.stack.lineSamples, (lineSample o d).1, (lineSample o d).2) := by
  unfold pllStep
  extract_lets p theta bw
  split
  next vab vbc hline =>
  split
  extract_lets amp err q integ freq mHz inRange lockRun phaseRun d1
  have hd1 : intakeOf d1 = (d.stack.handed, d.stack.busV, d.stack.lineSamples, (lineSample o d).1, (lineSample o d).2) := by
    rw [hline]
    rfl
  clear_value d1
  split
  · split
    · exact (pllLock_intake ..).trans hd1
    · split
      · exact (pllLock_intake ..).trans hd1
      · split
        · exact (pllLock_intake ..).trans hd1
        · exact hd1
  · split
    · exact (pllLock_intake ..).trans hd1
    · exact hd1

theorem lineWatch_intake (o : Od) (d : Dev) : intakeOf (lineWatch o d) = intakeOf d :=
  intakeOf_of_stack (lineWatch_leaves (p := .stack) (by decide) o d)

theorem headroomRecord_intake (o : Od) (what g : Nat) (d : Dev) : intakeOf (headroomRecord o what g d) = intakeOf d := record_intake ..

theorem headroomWatch_intake (o : Od) (d : Dev) : intakeOf (headroomWatch o d) = intakeOf d := by
  unfold headroomWatch
  refine forEach_eq intakeOf d fun g e => ?_
  dsimp only
  split
  · split
    · exact (headroomRecord_intake ..).trans rfl
    · rfl
  · split
    · rfl
    · exact (headroomRecord_intake ..).trans rfl

theorem overWatch_intake (o : Od) (d : Dev) : intakeOf (overWatch o d) = intakeOf d := by
  unfold overWatch
  refine forEach_eq intakeOf d fun g e => ?_
  extract_lets entry base i oc ov d1 d2
  have hd2 : intakeOf d2 = intakeOf e := by
    simp only [d2]
    split
    · exact tripCause_intake ..
    · rfl
  split
  · exact (tripCause_intake ..).trans hd2
  · exact hd2

theorem rowOne_intake (o : Od) (d : Dev) : intakeOf (rowOne o d) = intakeOf d := by
  unfold rowOne
  extract_lets p base cap dem floor forced stack prot d1 d2
  have hd2 : intakeOf d2 = intakeOf d := by
    simp only [d2]
    split
    · rfl
    · exact (record_intake ..).trans rfl
  clear_value d2
  split
  · exact (intakeOf_of_stack (yieldTo_leaves (p := .stack) (by decide) o _ _ _ _ _ _)).trans hd2
  · exact hd2

theorem handVector_intake (n : Nat) (v : List Rat) (d : Dev) : intakeOf (handVector n v d) = intakeOf d :=
  intakeOf_of_stack (handVector_leaves (p := .stack) (by decide) n v d)

theorem chainVectors_intake (o : Od) (d : Dev) : intakeOf (chainVectors o d) = intakeOf d := by
  unfold chainVectors
  extract_lets pb vb d1 bus
  have hd1 : intakeOf d1 = intakeOf d := (rowOne_intake ..).trans rfl
  have hbus : intakeOf (bus d1) = intakeOf d := (handVector_intake ..).trans hd1
  split
  · refine (forEach_eq intakeOf (bus d1) fun g e => ?_).trans hbus
    exact (handVector_intake ..).trans rfl
  · exact hbus

/-- An update that comes before the cut-off, once in its period. -/
theorem stackUpdateComplete_completes {s : State} (hctrl : s.dev.isOn .ctrl = true) (hrun : s.dev.sched.running = true)
    (hcount : s.dev.sched.count ≠ 0) (hhanded : s.dev.stack.handed = false) (hearly : s.dev.clk.dt + 1600 < nextStart s.od s.dev) :
    Completes .stackUpdateComplete s (fun u => u.dev.stack.handed = true ∧ u.od = s.od ∧
      (arrCode s.od = 0 → u.dev = { s.dev with stack := { s.dev.stack with handed := true } }) ∧
      (arrCode s.od ≠ 0 → u.dev.stack.busV = scaled s.od s.dev (odU s.od 0x3020 4) 0x3020 5) ∧
      (arrCode s.od = 3 → u.dev.stack.lineSamples =
        newest 8 (s.dev.stack.lineSamples ++ [scaled s.od s.dev (odU s.od 0x3020 1) 0x3020 3])) ∧
      (arrCode s.od ≠ 0 → arrCode s.od ≠ 3 → (u.dev.stack.vab, u.dev.stack.vbc) = lineSample s.od s.dev)) := by
  refine completes_drives (f := fun o d => stackUpdate o (cutoffPassed o d)) rfl ?_
  have hearly' : cutoffPassed s.od s.dev = s.dev := if_neg (by simp [hrun, hearly])
  dsimp only
  rw [hearly']
  unfold stackUpdate
  extract_lets d0 d1 d2 d3
  rw [if_neg (by simp [hctrl, hrun, hcount, hhanded])]
  by_cases harr : arrCode s.od = 0
  · rw [if_pos harr]
    exact ⟨rfl, rfl, fun _ => rfl, fun h => absurd harr h, fun h => absurd (harr.symm.trans h) (by decide), fun h => absurd harr h⟩
  · rw [if_neg harr]
    have hd3 : intakeOf d3 = intakeOf d2 := (overWatch_intake ..).trans ((headroomWatch_intake ..).trans (lineWatch_intake ..))
    generalize hu : (if d3.stack.state.runs = true then chainVectors s.od d3 else _) = u
    have hintake : intakeOf u = intakeOf d2 := by
      rw [← hu, ← hd3]
      split
      · exact chainVectors_intake ..
      · rfl
    have hd2 : intakeOf d2 = if arrCode s.od = 3 then
        (true, scaled s.od s.dev (odU s.od 0x3020 4) 0x3020 5,
          newest 8 (s.dev.stack.lineSamples ++ [scaled s.od s.dev (odU s.od 0x3020 1) 0x3020 3]), s.dev.stack.vab, s.dev.stack.vbc)
      else (true, scaled s.od s.dev (odU s.od 0x3020 4) 0x3020 5, s.dev.stack.lineSamples, (lineSample s.od s.dev).1, (lineSample s.od s.dev).2) := by
      simp only [d2]
      split
      · rfl
      · exact pllStep_intake
    have h := hintake.trans hd2
    by_cases hthree : arrCode s.od = 3
    · rw [if_pos hthree] at h
      simp only [intakeOf, Prod.mk.injEq] at h
      obtain ⟨hhand, hbus, hlines, -, -⟩ := h
      exact ⟨hhand, rfl, fun h => absurd h harr, fun _ => hbus, fun _ => hlines, fun _ h => absurd hthree h⟩
    · rw [if_neg hthree] at h
      simp only [intakeOf, Prod.mk.injEq] at h
      obtain ⟨hhand, hbus, -, hab, hbc⟩ := h
      exact ⟨hhand, rfl, fun h => absurd h harr, fun _ => hbus, fun h => absurd h hthree, fun _ _ => Prod.ext hab hbc⟩

/-- Settles O36: the times of the stack's states, and what an update takes in, which the watches that follow keep. -/
theorem stackConditionsStop : Obligations.StackConditionsStop :=
  ⟨fun _ => stackStartTimeout_completes (ms := fun o => odU o 0x3010 6) rfl,
    fun _ => stackStartTimeout_completes (ms := fun o => odU o 0x3010 7 + odU o 0x3010 6) rfl,
    fun _ => stackStartTimeout_completes (ms := fun o => odU o 0x3010 8) rfl, fun _ => stopRampEnd_completes,
    fun _ => lineRideThroughExpiry_completes, fun _ _ => headroomTimeExpiry_completes, fun _ => stackUpdateComplete_completes⟩

end Sys2Proof.Machine
end

section
/-! Period starts and frame-build cut-offs (O25). -/
namespace Sys2Proof.Machine

/-! ### A ring's launching: what only its own cut-off and launch change -/

/-- Whether a ring is started and launching, its active path, the frame built for it and the switch decided for it. -/
def Ring.course (g : Ring) : Bool × Bool × Nat × Option Build × Option (Nat × Bool) :=
  (g.started, g.launching, g.activePath, g.build, g.pendingSwitch)

/-- The course of ring `r` of a device. -/
def ringCourse (r : Nat) (d : Dev) : Bool × Bool × Nat × Option Build × Option (Nat × Bool) := (getRing d r).course

theorem ringCourse_of_lcl {d e : Dev} (h : d.lcl = e.lcl) (r : Nat) : ringCourse r d = ringCourse r e := by
  rw [ringCourse, ringCourse, getRing_of_lcl h]

theorem ringCourse_of_rings {d e : Dev} (h : d.lcl.rings = e.lcl.rings) (r : Nat) : ringCourse r d = ringCourse r e := by
  rw [ringCourse, ringCourse, getRing, getRing, h]

theorem modRing_course {r q : Nat} {f : Ring → Ring} (d : Dev) (hf : ∀ g, (f g).course = g.course) :
    ringCourse r (modRing q f d) = ringCourse r d :=
  vget_vmod_keeps (P := fun g => g.course = ringCourse r d) d.lcl.rings q r f (fun h => (hf _).trans h) rfl

theorem modRing_course_other {r q : Nat} (f : Ring → Ring) (d : Dev) (h : q ≠ r) : ringCourse r (modRing q f d) = ringCourse r d :=
  congrArg Ring.course (vget_vmod_other _ _ h)

theorem record_course (o : Od) (code source : Nat) (data : Bytes) (d : Dev) (r : Nat) :
    ringCourse r (record o code source data d) = ringCourse r d := ringCourse_of_lcl (record_lcl ..) r

theorem modCell_course (c : Nat) (f : Cell → Cell) (d : Dev) (r : Nat) : ringCourse r (modCell c f d) = ringCourse r d := rfl

theorem modTxn_course (c : Nat) (f : Txn → Txn) (d : Dev) (r : Nat) : ringCourse r (modTxn c f d) = ringCourse r d := rfl

theorem closeEpoch_course (o : Od) (c : Nat) (d : Dev) (r : Nat) : ringCourse r (closeEpoch o c d) = ringCourse r d := by
  unfold closeEpoch
  dsimp only
  split
  · rfl
  · exact (modTxn_course ..).trans (record_course ..)

theorem openEpoch_course (o : Od) (c k : Nat) (d : Dev) (r : Nat) : ringCourse r (openEpoch o c k d) = ringCourse r d := rfl

theorem epochStep_course (o : Od) (c k : Nat) (st : SessState) (d : Dev) (r : Nat) :
    ringCourse r (match st with
      | .fawn => openEpoch o c k d
      | .resync => openEpoch o c k (closeEpoch o c d)
      | .absent => closeEpoch o c d
      | .discover => closeEpoch o c d
      | .admitting => closeEpoch o c d
      | .blocked => closeEpoch o c d
      | .fault => closeEpoch o c d
      | _ => d) = ringCourse r d := by
  split
  all_goals simp only [openEpoch_course, closeEpoch_course]

theorem sessEnter_course (o : Od) (c : Nat) (st : SessState) (reason k : Nat) (d : Dev) (r : Nat) :
    ringCourse r (sessEnter o c st reason k d) = ringCourse r d := by
  unfold sessEnter
  extract_lets x owed y d1 d2 d3 d4
  have hd2 : ringCourse r d2 = ringCourse r d := (record_course ..).trans rfl
  exact (ringCourse_of_lcl (stacksNote_lcl ..) r).trans ((epochStep_course o c k st d2 r).trans hd2)

theorem queueReq_course (c mtype : Nat) (body : Bytes) (d : Dev) (r : Nat) : ringCourse r (queueReq c mtype body d) = ringCourse r d :=
  (modTxn_course ..).trans (modRing_course d fun _ => rfl)

theorem exEnter_course (c : Nat) (st : ExStep) (d : Dev) (r : Nat) : ringCourse r (exEnter c st d) = ringCourse r d := by
  have hall : ∀ (mtype : Nat) (body : Nat → Bytes) (l : List Nat) (e : Dev),
      ringCourse r (l.foldl (fun d off => queueReq c mtype (body off) d) e) = ringCourse r e := fun mtype body l e =>
    forEach_eq (ringCourse r) (f := fun off d => queueReq c mtype (body off) d) e fun off d => queueReq_course ..
  unfold exEnter
  extract_lets x st1 st2
  clear_value st2
  split
  · exact (hall ..).trans rfl
  · exact (queueReq_course ..).trans rfl
  · exact (hall ..).trans rfl
  · exact (queueReq_course ..).trans rfl
  · rfl

theorem enterParam_course (o : Od) (c k : Nat) (st : ExStep) (used : Nat) (d : Dev) (r : Nat) :
    ringCourse r (enterParam o c k st used d) = ringCourse r d :=
  (exEnter_course ..).trans ((modCell_course ..).trans (sessEnter_course ..))

theorem startExchanges_course (o : Od) (q k : Nat) (d : Dev) (r : Nat) : ringCourse r (startExchanges o q k d) = ringCourse r d := by
  unfold startExchanges
  split
  · rfl
  · refine forEach_eq (ringCourse r) d fun c e => ?_
    split
    · exact enterParam_course ..
    · rfl

theorem reconcileDone_course (o : Od) (q : Nat) (d : Dev) (r : Nat) : ringCourse r (reconcileDone o q d) = ringCourse r d := by
  unfold reconcileDone
  dsimp only
  split
  · rfl
  · split
    · rfl
    · split
      · exact (record_course ..).trans (modRing_course d fun _ => rfl)
      · exact (ringCourse_of_lcl (yieldTo_lcl ..) r).trans ((record_course ..).trans (modRing_course d fun _ => rfl))

theorem slotLaunched_course (o : Od) (q k : Nat) (u : SlotUse) (d : Dev) (r : Nat) : ringCourse r (slotLaunched o q k u d) = ringCourse r d := by
  unfold slotLaunched
  extract_lets offer
  have hoffer : ∀ p e, ringCourse r (offer p e) = ringCourse r e := fun p e => rfl
  clear_value offer
  have howe : ∀ e, ringCourse r (modRing q (fun g => { g with delayOwed := true }) e) = ringCourse r e := fun e => modRing_course e fun _ => rfl
  split
  · rfl
  · exact hoffer ..
  next p m =>
    extract_lets c x owe d1 d2 echo
    rw [modTxn_course, hoffer]
    have hd1 : ringCourse r d1 = ringCourse r d := by
      simp only [d1]
      split
      · split
        · rfl
        · split
          · rfl
          · rfl
          · exact (howe _).trans ((modCell_course ..).trans (sessEnter_course ..))
          · exact (howe _).trans (sessEnter_course ..)
          · split
            · rfl
            · exact sessEnter_course ..
          · rfl
      · split
        · split <;> rfl
        · split <;> rfl
    simp only [d2]
    split
    · exact hd1
    · exact hd1

theorem commandLaunched_course (o : Od) (k c : Nat) (s : CmdSlot) (d : Dev) (r : Nat) :
    ringCourse r (commandLaunched o k c s d) = ringCourse r d := by
  unfold commandLaunched
  extract_lets x d1 d2 stack d3
  have hd1 : ringCourse r d1 = ringCourse r d := rfl
  have hd2 : ringCourse r d2 = ringCourse r d := (sessEnter_course ..).trans hd1
  split
  · exact (sessEnter_course ..).trans hd1
  split
  · split
    · exact hd2
    · extract_lets d4
      refine (record_course ..).trans ?_
      simp only [d4]
      split
      · exact (record_course ..).trans hd2
      · exact hd2
  split
  · split
    · exact (record_course ..).trans ((sessEnter_course ..).trans hd1)
    · exact (sessEnter_course ..).trans hd1
  split
  · exact (sessEnter_course ..).trans hd1
  · exact hd1

theorem sendFrame_course (q p : Nat) (f : Flight) (d : Dev) (r : Nat) : ringCourse r (sendFrame q p f d) = ringCourse r d :=
  (ringCourse_of_lcl (putLane_leaves (p := .lcl) (by decide) q p _ _ _) r).trans rfl

theorem switchNow_course_other {o : Od} {q k launch reason : Nat} {late dropped : Bool} {r : Nat} (d : Dev) (h : q ≠ r) :
    ringCourse r (switchNow o q k launch reason late dropped d) = ringCourse r d :=
  (record_course ..).trans ((modRing_course_other _ _ h).trans rfl)

/-- The launch of another ring leaves the ring's course. -/
theorem launchRing_course_other {o : Od} {q k t : Nat} {trip : Bool} {r : Nat} (d : Dev) (h : q ≠ r) :
    ringCourse r (launchRing o q k t trip d) = ringCourse r d := by
  unfold launchRing
  extract_lets g0 n d1 g switched other
  split
  · rfl
  split
  · rfl
  extract_lets cmds b main d2 d3 d4 d5 d6 ended
  have hd1 : ringCourse r d1 = ringCourse r d := by
    simp only [d1]
    split
    · split
      · exact switchNow_course_other d h
      · rfl
    · rfl
  have hd2 : ringCourse r d2 = ringCourse r d := (sendFrame_course ..).trans hd1
  have hd3 : ringCourse r d3 = ringCourse r d := by
    simp only [d3]
    split
    · exact hd2
    · split
      · exact (sendFrame_course ..).trans hd2
      · exact (sendFrame_course ..).trans hd2
  have hd4 : ringCourse r d4 = ringCourse r d := (modRing_course_other _ _ h).trans hd3
  have hd5 : ringCourse r d5 = ringCourse r d4 := forEach_eq (ringCourse r) d4 fun _ _ => slotLaunched_course ..
  have hd6 : ringCourse r d6 = ringCourse r d5 := forEach_eq (ringCourse r) d5 fun _ _ => commandLaunched_course ..
  split
  · exact (reconcileDone_course ..).trans (hd6.trans (hd5.trans hd4))
  · exact hd6.trans (hd5.trans hd4)

/-! ### A frame in flight -/

/-- A frame of period `k`, launched at `t`, is in flight on a path. -/
def CyclicInFlight (r p k t : Nat) (d : Dev) : Prop := ∃ f ∈ (getPath d r p).flights, f.ftype = 1 ∧ f.period = k ∧ f.launch = t

theorem CyclicInFlight.of_paths {r p k t : Nat} {d e : Dev} (h : CyclicInFlight r p k t e) (hp : (Part.lcl.of d).paths = (Part.lcl.of e).paths) :
    CyclicInFlight r p k t d := by
  rw [CyclicInFlight, getPath_of_paths hp]
  exact h

theorem CyclicInFlight.of_lcl {r p k t : Nat} {d e : Dev} (h : CyclicInFlight r p k t e) (hl : d.lcl = e.lcl) : CyclicInFlight r p k t d :=
  h.of_paths (congrArg Lcl.paths hl)

/-- A change that takes no flight of its path leaves the frame. -/
theorem CyclicInFlight.modPath {r p k t q x : Nat} {f : Path → Path} {d : Dev} (h : CyclicInFlight r p k t d)
    (hf : ∀ y, ∀ z ∈ y.flights, z ∈ (f y).flights) : CyclicInFlight r p k t (modPath q x f d) :=
  vget_vmod_keeps (P := fun y : Path => ∃ z ∈ y.flights, z.ftype = 1 ∧ z.period = k ∧ z.launch = t) _ _ _ _
    (fun ⟨z, hz, hfacts⟩ => ⟨z, hf _ z hz, hfacts⟩) h

theorem CyclicInFlight.sendFrame {r p k t : Nat} {d : Dev} (h : CyclicInFlight r p k t d) (q x : Nat) (f : Flight) :
    CyclicInFlight r p k t (sendFrame q x f d) :=
  CyclicInFlight.of_lcl (h.modPath fun _ _ hz => List.mem_append_left _ hz) (putLane_leaves (p := .lcl) (by decide) q x _ _ _)

theorem CyclicInFlight.switchNow {r p k t : Nat} {d : Dev} (h : CyclicInFlight r p k t d) (o : Od) (q j launch reason : Nat) (late dropped : Bool) :
    CyclicInFlight r p k t (switchNow o q j launch reason late dropped d) := by
  refine CyclicInFlight.of_lcl ?_ (record_lcl ..)
  refine CyclicInFlight.of_paths ?_ (modRing_paths ..)
  refine (h.modPath fun y z hz => ?_).modPath fun _ _ hz => hz
  split <;> exact hz

theorem slotLaunched_paths (o : Od) (q k : Nat) (u : SlotUse) (d : Dev) :
    (Part.lcl.of (slotLaunched o q k u d)).paths = (Part.lcl.of d).paths := by
  simp [slotLaunched]
  repeat' split
  all_goals simp

theorem commandLaunched_paths (o : Od) (k c : Nat) (s : CmdSlot) (d : Dev) :
    (Part.lcl.of (commandLaunched o k c s d)).paths = (Part.lcl.of d).paths := by
  simp [commandLaunched]
  repeat' split
  all_goals simp

/-- The launch of a ring keeps the frames in flight. -/
theorem launchRing_keepsFlight {o : Od} {q k t : Nat} {trip : Bool} {r p j u : Nat} {d : Dev} (h : CyclicInFlight r p j u d) :
    CyclicInFlight r p j u (launchRing o q k t trip d) := by
  unfold launchRing
  extract_lets g0 n d1 g switched other
  split
  · exact h
  split
  · exact h
  extract_lets cmds b main d2 d3 d4 d5 d6 ended
  have hd1 : CyclicInFlight r p j u d1 := by
    simp only [d1]
    split
    · split
      · exact h.switchNow ..
      · exact h
    · exact h
  have hd2 : CyclicInFlight r p j u d2 := hd1.sendFrame ..
  have hd3 : CyclicInFlight r p j u d3 := by
    simp only [d3]
    split
    · exact hd2
    · split
      · exact hd2.sendFrame ..
      · exact hd2.sendFrame ..
  have hd6 : CyclicInFlight r p j u d6 := hd3.of_paths
    ((forEach_paths (fun _ _ => commandLaunched_paths ..) _ _).trans (forEach_paths (fun _ _ => slotLaunched_paths ..) _ _))
  split
  · exact hd6.of_paths (reconcileDone_paths ..)
  · exact hd6

/-- The launch of a started ring with a frame built, and no switch decided: it launches, and its frame is in flight on its active path. -/
theorem launchRing_launches {o : Od} {r k t : Nat} {trip : Bool} {b : Build} {d : Dev} (hr : r < 8) (hstarted : (getRing d r).started = true)
    (hbuild : (getRing d r).build = some b) (hswitch : (getRing d r).pendingSwitch = none) (hactive : (getRing d r).activePath < 2) :
    ringCourse r (launchRing o r k t trip d) = (true, true, (getRing d r).activePath, none, none) ∧
    CyclicInFlight r (getRing d r).activePath k t (launchRing o r k t trip d) := by
  have hix : pathIx r (getRing d r).activePath < 16 := by
    unfold pathIx
    omega
  unfold launchRing
  extract_lets g0 n d1 g switched other
  have hd1 : d1 = d := by simp only [d1, g0, hswitch]
  clear_value d1
  subst hd1
  simp -zeta only [show g0.build = some b from hbuild, show g0.started = true from hstarted, Bool.not_true, Bool.false_eq_true, if_false]
  extract_lets cmds b main d2 d3 d4 d5 d6 ended
  have hflights : (getPath d2 r g.activePath).flights = (getPath d1 r g.activePath).flights ++ [{ main with lost := d1.sec.scan }] :=
    sendFrame_path main d1 hix
  have hd2 : CyclicInFlight r g.activePath k t d2 :=
    ⟨{ main with lost := d1.sec.scan }, hflights ▸ List.mem_append_right _ (List.mem_singleton_self _), rfl, rfl, rfl⟩
  have hc2 : ringCourse r d2 = (getRing d1 r).course := sendFrame_course ..
  have hd3 : CyclicInFlight r g.activePath k t d3 ∧ ringCourse r d3 = (getRing d1 r).course := by
    simp only [d3]
    split
    · exact ⟨hd2, hc2⟩
    · split
      · exact ⟨hd2.sendFrame .., (sendFrame_course ..).trans hc2⟩
      · exact ⟨hd2.sendFrame .., (sendFrame_course ..).trans hc2⟩
  have hcourse3 : (getRing d3 r).started = true ∧ (getRing d3 r).activePath = g.activePath ∧ (getRing d3 r).pendingSwitch = none := by
    have hc := hd3.2
    simp only [ringCourse, Ring.course, Prod.mk.injEq] at hc
    obtain ⟨hs, -, ha, -, hp⟩ := hc
    exact ⟨hs.trans hstarted, ha, hp.trans hswitch⟩
  have hd4 : ringCourse r d4 = (true, true, g.activePath, none, none) := by
    rw [ringCourse, getRing_modRing_same _ _ hr]
    simp only [Ring.course, hcourse3]
  have hd6 : CyclicInFlight r g.activePath k t d6 := hd3.1.of_paths
    ((forEach_paths (fun _ _ => commandLaunched_paths ..) _ _).trans (forEach_paths (fun _ _ => slotLaunched_paths ..) _ _))
  have hc6 : ringCourse r d6 = (true, true, g.activePath, none, none) :=
    ((forEach_eq (ringCourse r) d5 fun _ _ => commandLaunched_course ..).trans (forEach_eq (ringCourse r) d4 fun _ _ => slotLaunched_course ..)).trans hd4
  split
  · exact ⟨(reconcileDone_course ..).trans hc6, hd6.of_paths (reconcileDone_paths ..)⟩
  · exact ⟨hc6, hd6⟩

end Sys2Proof.Machine
end

section
/-! Period starts and frame-build cut-offs (O25): the whole start of a period, the cut-off, and the two rows. -/
namespace Sys2Proof.Machine

/-! ### The start of a period (R175, R205) -/

/-- What a period start does with one ring. -/
def ringBegins (o : Od) (k t : Nat) (trip : Nat → Bool) (r : Nat) (d : Dev) : Dev :=
  startExchanges o r k (launchRing o r k t (trip r) (delayClaim r d))

/-- A ring that has launched in the period: no frame is built for it, and its frame is in flight on its active path. -/
def RingLaunched (r a k t : Nat) (d : Dev) : Prop := ringCourse r d = (true, true, a, none, none) ∧ CyclicInFlight r a k t d

theorem RingLaunched.of_lcl {r a k t : Nat} {d e : Dev} (h : RingLaunched r a k t e) (hl : d.lcl = e.lcl) : RingLaunched r a k t d :=
  ⟨(ringCourse_of_lcl hl r).trans h.1, h.2.of_lcl hl⟩

theorem delayClaim_course (q : Nat) (d : Dev) (r : Nat) : ringCourse r (delayClaim q d) = ringCourse r d := modRing_course d fun _ => rfl

theorem startExchanges_paths (o : Od) (q k : Nat) (d : Dev) : (Part.lcl.of (startExchanges o q k d)).paths = (Part.lcl.of d).paths := by
  unfold startExchanges
  split
  · rfl
  · refine forEach_paths (fun c e => ?_) _ d
    split
    · exact enterParam_paths ..
    · rfl

/-- A ring without a frame built does not launch. -/
theorem launchRing_idle {o : Od} {r k t : Nat} {trip : Bool} {d : Dev} (h : (getRing d r).build = none) : launchRing o r k t trip d = d := by
  unfold launchRing
  simp only [h]

theorem ringBegins_keepsLaunched {o : Od} {k t : Nat} {trip : Nat → Bool} {r a q : Nat} {d : Dev} (h : RingLaunched r a k t d) :
    RingLaunched r a k t (ringBegins o k t trip q d) := by
  obtain ⟨hcourse, hflight⟩ := h
  have hclaim : ringCourse r (delayClaim q d) = (true, true, a, none, none) := (delayClaim_course ..).trans hcourse
  have hflight' : CyclicInFlight r a k t (delayClaim q d) := hflight.of_paths (modRing_paths ..)
  refine ⟨(startExchanges_course ..).trans ?_, CyclicInFlight.of_paths (launchRing_keepsFlight hflight') (startExchanges_paths ..)⟩
  by_cases hq : q = r
  · subst hq
    have hbuild : (getRing (delayClaim q d) q).build = none := by
      simp only [ringCourse, Ring.course, Prod.mk.injEq] at hclaim
      exact hclaim.2.2.2.1
    rw [launchRing_idle hbuild, hclaim]
  · exact (launchRing_course_other _ hq).trans hclaim

/-- A ring that is to launch: started, with a frame built and no switch decided. -/
def RingToLaunch (r a : Nat) (b : Build) (d : Dev) : Prop :=
  (getRing d r).started = true ∧ (getRing d r).activePath = a ∧ (getRing d r).build = some b ∧ (getRing d r).pendingSwitch = none

theorem RingToLaunch.of_course {r a : Nat} {b : Build} {d e : Dev} (h : RingToLaunch r a b e) (hc : ringCourse r d = ringCourse r e) :
    RingToLaunch r a b d := by
  simp only [ringCourse, Ring.course, Prod.mk.injEq] at hc
  obtain ⟨hs, -, ha, hb, hp⟩ := hc
  exact ⟨hs.trans h.1, ha.trans h.2.1, hb.trans h.2.2.1, hp.trans h.2.2.2⟩

theorem ringBegins_launches {o : Od} {k t : Nat} {trip : Nat → Bool} {r a : Nat} {b : Build} {d : Dev} (hr : r < 8) (ha : a < 2)
    (h : RingToLaunch r a b d) : RingLaunched r a k t (ringBegins o k t trip r d) := by
  obtain ⟨hs, hactive, hb, hp⟩ := h.of_course (delayClaim_course r d r)
  obtain ⟨hcourse, hflight⟩ := launchRing_launches (o := o) (k := k) (t := t) (trip := trip r) hr hs hb hp (by rwa [hactive])
  rw [hactive] at hcourse hflight
  exact ⟨(startExchanges_course ..).trans hcourse, CyclicInFlight.of_paths hflight (startExchanges_paths ..)⟩

theorem ringsBegin_launch {o : Od} {k t : Nat} {trip : Nat → Bool} {r a : Nat} {b : Build} {d : Dev} (hr : r < 8) (ha : a < 2)
    (h : RingToLaunch r a b d) : RingLaunched r a k t (forEach (List.range 8) (ringBegins o k t trip) d) := by
  refine forEach_establishes (P := fun e => RingToLaunch r a b e ∨ RingLaunched r a k t e) (List.mem_range.2 hr) (fun q e he => ?_)
    (fun q e => ringBegins_keepsLaunched) (fun e he => ?_) (Or.inl h)
  · rcases he with hto | hdone
    · by_cases hq : q = r
      · subst hq
        exact Or.inr (ringBegins_launches hr ha hto)
      · refine Or.inl (hto.of_course ((startExchanges_course ..).trans ((launchRing_course_other _ hq).trans (delayClaim_course ..))))
    · exact Or.inr (ringBegins_keepsLaunched hdone)
  · rcases he with hto | hdone
    · exact ringBegins_launches hr ha hto
    · exact ringBegins_keepsLaunched hdone

theorem delayResult_course (o : Od) (q k t : Nat) (d : Dev) (r : Nat) : ringCourse r (delayResult o q k t d) = ringCourse r d := by
  unfold delayResult
  dsimp only
  split
  · rfl
  · refine Eq.trans (modRing_course _ fun _ => rfl) ?_
    exact forEach_eq (ringCourse r) d fun p x => ringCourse_of_lcl (putLane_leaves (p := .lcl) (by decide) q p _ _ x) r

theorem delayResult_paths (o : Od) (q k t : Nat) (d : Dev) : (Part.lcl.of (delayResult o q k t d)).paths = (Part.lcl.of d).paths := by
  unfold delayResult
  dsimp only
  split
  · rfl
  · refine Eq.trans (modRing_paths ..) ?_
    exact forEach_paths (fun p x => congrArg Lcl.paths (putLane_leaves (p := .lcl) (by decide) q p _ _ x)) _ d

theorem delayTick_course (o : Od) (q : Nat) (d : Dev) (r : Nat) : ringCourse r (delayTick o q d) = ringCourse r d := by
  refine modRing_course d fun g => ?_
  split <;> rfl

/-- The delay measurement's step of a period start keeps a launched ring. -/
theorem delayStep_keepsLaunched {o : Od} {k t r a j u q : Nat} {d : Dev} (h : RingLaunched r a j u d) :
    RingLaunched r a j u (delayTick o q (delayResult o q k t d)) :=
  ⟨(delayTick_course ..).trans ((delayResult_course ..).trans h.1),
    CyclicInFlight.of_paths h.2 ((modRing_paths ..).trans (delayResult_paths ..))⟩

/-- The ledger's step of a period start changes no part of the link but the cells' marks. -/
theorem ledgerPeriod_lcl (o : Od) (t : Nat) (d : Dev) : ∃ cells, (ledgerPeriod o t d).lcl = { d.lcl with cells := cells } := by
  unfold ledgerPeriod
  split
  · exact ⟨_, rfl⟩
  · extract_lets len cellsDone booked done link
    have hcells : cellsDone.lcl = d.lcl := forEach_eq Dev.lcl d fun c e => postCell_leaves (p := .lcl) (by decide) o t len c e
    have hbooked : booked.lcl = d.lcl := by
      simp only [booked]
      split
      · rfl
      · exact ledgerAway_leaves (p := .lcl) (by decide) o _ t _
      · refine (postBus_leaves (p := .lcl) (by decide) o t len _).trans (Eq.trans ?_ hcells)
        exact forEach_eq Dev.lcl cellsDone fun c e => postStack_leaves (p := .lcl) (by decide) o t len c e
    have hl : done.lcl = d.lcl := hbooked
    exact ⟨_, by simp only [link, hl]; rfl⟩

theorem ledgerPeriod_keepsLaunched {o : Od} {t r a j u : Nat} {d : Dev} (h : RingLaunched r a j u d) : RingLaunched r a j u (ledgerPeriod o t d) := by
  obtain ⟨cells, hl⟩ := ledgerPeriod_lcl o t d
  exact ⟨(ringCourse_of_rings (by rw [hl]) r).trans h.1, h.2.of_paths (congrArg Lcl.paths hl :)⟩

theorem delayStep_sched (o : Od) (k t r : Nat) (d : Dev) : (delayTick o r (delayResult o r k t d)).sched = d.sched :=
  (delayTick_leaves (p := .sched) (by decide) ..).trans (delayResult_leaves (p := .sched) (by decide) ..)

theorem ringBegins_sched (o : Od) (k t : Nat) (trip : Nat → Bool) (r : Nat) (d : Dev) : (ringBegins o k t trip r d).sched = d.sched :=
  (startExchanges_leaves (p := .sched) (by decide) ..).trans ((launchRing_leaves (p := .sched) (by decide) ..).trans rfl)

/-- The rings' part of a period start, and what the carrier and the delay measurement add, keep the schedule. -/
theorem periodBegins_sched (k t : Nat) (o : Od) (d : Dev) :
    (periodBegins k t o d).sched = { d.sched with count := d.sched.count + 1, j := d.sched.j + 1, last := t } := by
  unfold periodBegins
  extract_lets rings d1 trip sched stack d2 d3 d4 d5 d6
  have h1 : d1.sched = d.sched := launchState_leaves (p := .sched) (by decide) ..
  have h2 : d2.sched = { d1.sched with count := d1.sched.count + 1, j := d1.sched.j + 1, last := t } :=
    closePowerMeans_leaves (p := .sched) (by decide) _
  have h3 : d3.sched = d2.sched := forEach_eq Dev.sched d2 fun r e => ringBegins_sched o k t trip r e
  have h4 : d4.sched = d3.sched := carrierStart_leaves (p := .sched) (by decide) ..
  have h5 : d5.sched = d4.sched := forEach_eq Dev.sched d4 fun r e => delayStep_sched o k t r e
  have h6 : d6.sched = d5.sched := ledgerPeriod_leaves (p := .sched) (by decide) ..
  have hall : d6.sched = { d.sched with count := d.sched.count + 1, j := d.sched.j + 1, last := t } := by
    rw [h6, h5, h4, h3, h2, h1]
  split
  · exact (stageLedger_leaves (p := .sched) (by decide) ..).trans hall
  · exact hall

theorem periodBegins_launches {k t r a : Nat} {b : Build} {o : Od} {d : Dev} (hr : r < 8) (ha : a < 2) (h : RingToLaunch r a b d) :
    RingLaunched r a k t (periodBegins k t o d) := by
  unfold periodBegins
  extract_lets rings d1 trip sched stack d2 d3 d4 d5 d6
  have h1 : d1.lcl = d.lcl := launchState_leaves (p := .lcl) (by decide) ..
  have h2 : d2.lcl = d1.lcl := closePowerMeans_leaves (p := .lcl) (by decide) _
  have hto : RingToLaunch r a b d2 := h.of_course (ringCourse_of_lcl (h2.trans h1) r)
  have h3 : RingLaunched r a k t d3 := ringsBegin_launch hr ha hto
  have h4 : RingLaunched r a k t d4 := h3.of_lcl (carrierStart_leaves (p := .lcl) (by decide) ..)
  have h5 : RingLaunched r a k t d5 := forEach_keeps (fun q _ e he => delayStep_keepsLaunched he) h4
  have h6 : RingLaunched r a k t d6 := ledgerPeriod_keepsLaunched h5
  split
  · exact h6.of_lcl (stageLedger_leaves (p := .lcl) (by decide) ..)
  · exact h6

/-! ### The cut-off (R207) -/

theorem record_time (o : Od) (code source : Nat) (data : Bytes) (d : Dev) : (record o code source data d).time = d.time :=
  record_leaves (p := .time) (by decide) ..

theorem fixCarrier_uncertain (o : Od) (runs : Bool) (d : Dev) : (fixCarrier o runs d).time.uncertain = d.time.uncertain := by
  unfold fixCarrier
  split
  · rfl
  · split
    · rfl
    · dsimp only
      split
      · rfl
      · simp only [onTime, record_time, onStack]

end Sys2Proof.Machine
end

section
/-! Frame-build cut-offs and the rows of the period (O25). -/
namespace Sys2Proof.Machine

/-! ### The cut-off builds the frame of every started ring (R205) -/

/-- What the header of a frame says of the device when the frame is built: the uncertain mark, the safety unit and the apply offset. -/
def Dev.frameSays (d : Dev) : Bool × Bool × Nat := (d.time.uncertain, d.isOn .safe, d.lcl.applyOffset)

/-- Ring `r` is started. -/
def RingStarted (r : Nat) (d : Dev) : Prop := (getRing d r).started = true

/-- A frame is built for ring `r` in period `k`, with what the device says of the header. -/
def RingBuilt (o : Od) (r k : Nat) (d : Dev) : Prop :=
  ∃ b, (getRing d r).build = some b ∧ b.period = k ∧ b.length = period o ∧ (b.uncertain, b.standby, b.apply) = d.frameSays ∧
    b.cmds.length = ringCells o r

/-- The requests at the heads of a ring's queues become due. -/
theorem dueHeads_keeps {α : Type} (F : Dev → α) (hF : ∀ c f e, F (modTxn c f e) = F e) (l : List Nat) (g : Txn → Txn) (d : Dev) :
    F (forEach l (fun c e => modTxn c g e) d) = F d := forEach_eq F d fun c e => hF c g e

theorem modTxn_frameSays (c : Nat) (f : Txn → Txn) (d : Dev) : (modTxn c f d).frameSays = d.frameSays := rfl

theorem buildRing_frameSays (o : Od) (q k : Nat) (want : Nat → CmdSlot) (freq : Nat) (d : Dev) :
    (buildRing o q k want freq d).frameSays = d.frameSays := by
  unfold buildRing
  split
  · rfl
  · exact dueHeads_keeps Dev.frameSays modTxn_frameSays _ _ d

theorem buildRing_cutDone (o : Od) (q k : Nat) (want : Nat → CmdSlot) (freq : Nat) (d : Dev) :
    (buildRing o q k want freq d).lcl.cutDone = d.lcl.cutDone := by
  unfold buildRing
  split
  · rfl
  · exact dueHeads_keeps (fun e => e.lcl.cutDone) (fun _ _ _ => rfl) _ _ d

theorem buildRing_other {o : Od} {r q k : Nat} {want : Nat → CmdSlot} {freq : Nat} (d : Dev) (h : q ≠ r) :
    ringCourse r (buildRing o q k want freq d) = ringCourse r d := by
  unfold buildRing
  split
  · rfl
  · exact (modRing_course_other _ _ h).trans (dueHeads_keeps (ringCourse r) (fun c f e => modTxn_course c f e r) _ _ d)

theorem buildRing_builds {o : Od} {r k : Nat} {want : Nat → CmdSlot} {freq : Nat} {d : Dev} (hr : r < 8) (h : RingStarted r d) :
    RingStarted r (buildRing o r k want freq d) ∧ RingBuilt o r k (buildRing o r k want freq d) := by
  unfold buildRing
  rw [if_neg (by simp [show (getRing d r).started = true from h])]
  extract_lets d1 slots cmds g other swapNow
  have hs : RingStarted r d1 := (dueHeads_keeps (fun e => (getRing e r).started) (fun _ _ _ => rfl) _ _ d).trans h
  refine ⟨?_, ?_⟩
  · rw [RingStarted, getRing_modRing_same _ _ hr]
    exact hs
  · rw [RingBuilt, getRing_modRing_same _ _ hr]
    exact ⟨_, rfl, rfl, rfl, rfl, by simp [cmds, ringCellList]⟩

/-- Ring `r` is started, and, where `built`, its frame is. -/
theorem buildRing_keepsBuilt {o : Od} {r q k : Nat} {want : Nat → CmdSlot} {freq : Nat} {d : Dev} (hr : r < 8) (h : RingStarted r d)
    (hb : RingBuilt o r k d) : RingStarted r (buildRing o q k want freq d) ∧ RingBuilt o r k (buildRing o q k want freq d) := by
  by_cases hq : q = r
  · subst hq
    exact buildRing_builds hr h
  · have hc := buildRing_other (o := o) (k := k) (want := want) (freq := freq) d hq
    simp only [ringCourse, Ring.course, Prod.mk.injEq] at hc
    obtain ⟨hs, -, -, hbuild, -⟩ := hc
    obtain ⟨b, hb, hrest⟩ := hb
    exact ⟨hs.trans h, b, hbuild.trans hb, by rwa [buildRing_frameSays]⟩

theorem buildRing_keepsStarted {o : Od} {r q k : Nat} {want : Nat → CmdSlot} {freq : Nat} {d : Dev} (hr : r < 8) (h : RingStarted r d) :
    RingStarted r (buildRing o q k want freq d) := by
  by_cases hq : q = r
  · subst hq
    exact (buildRing_builds hr h).1
  · have hc := buildRing_other (o := o) (k := k) (want := want) (freq := freq) d hq
    simp only [ringCourse, Ring.course, Prod.mk.injEq] at hc
    exact hc.1.trans h

theorem buildAll_builds {o : Od} {r k f : Nat} {plan : List SlotPlan} {park : Bool} {d : Dev} (hr : r < 8) (h : RingStarted r d) :
    RingBuilt o r k (buildAll o k f plan park d) := by
  suffices hboth : RingStarted r (buildAll o k f plan park d) ∧ RingBuilt o r k (buildAll o k f plan park d) from hboth.2
  unfold buildAll
  refine forEach_establishes (P := RingStarted r) (Q := fun e => RingStarted r e ∧ RingBuilt o r k e) (List.mem_range.2 hr)
    (fun q e he => buildRing_keepsStarted hr he) (fun q e he => buildRing_keepsBuilt hr he.1 he.2) (fun e he => buildRing_builds hr he) h

/-- The end of a cut-off: the frames are built from the plan, and the commands kept. -/
def cutoffEnds (o : Od) (k : Nat) (plan : List SlotPlan) (f : Nat) (d : Dev) : Dev :=
  keepCommands (onStack (fun s => { s with park := false }) (buildAll o k f plan d.stack.park d))

theorem keepCommands_frameSays (d : Dev) : (keepCommands d).frameSays = d.frameSays := rfl

theorem onStack_frameSays (f : Stack → Stack) (d : Dev) : (onStack f d).frameSays = d.frameSays := rfl

theorem keepCommands_lcl (d : Dev) : (keepCommands d).lcl = d.lcl := rfl

theorem onStack_lcl (f : Stack → Stack) (d : Dev) : (onStack f d).lcl = d.lcl := rfl

theorem cutoffEnds_lcl (o : Od) (k : Nat) (plan : List SlotPlan) (f : Nat) (d : Dev) :
    (cutoffEnds o k plan f d).lcl = (buildAll o k f plan d.stack.park d).lcl := (keepCommands_lcl _).trans (onStack_lcl _ _)

theorem cutoffEnds_says (o : Od) (k : Nat) (plan : List SlotPlan) (f : Nat) (d : Dev) :
    (cutoffEnds o k plan f d).frameSays = (buildAll o k f plan d.stack.park d).frameSays :=
  (keepCommands_frameSays _).trans (onStack_frameSays _ _)

theorem buildAll_frameSays (o : Od) (k f : Nat) (plan : List SlotPlan) (park : Bool) (d : Dev) :
    (buildAll o k f plan park d).frameSays = d.frameSays := by
  unfold buildAll
  exact forEach_eq Dev.frameSays d fun r e => buildRing_frameSays ..

theorem buildAll_cutDone (o : Od) (k f : Nat) (plan : List SlotPlan) (park : Bool) (d : Dev) :
    (buildAll o k f plan park d).lcl.cutDone = d.lcl.cutDone := by
  unfold buildAll
  extract_lets slot
  exact forEach_eq (fun e => e.lcl.cutDone) d fun r e => buildRing_cutDone o r k slot f e

theorem RingBuilt.of_lcl {o : Od} {r k : Nat} {d e : Dev} (h : RingBuilt o r k e) (hl : d.lcl = e.lcl) (hs : d.frameSays = e.frameSays) :
    RingBuilt o r k d := by
  obtain ⟨b, hb, hk, hlen, hsays, hcmds⟩ := h
  exact ⟨b, (by rw [getRing_of_lcl hl]; exact hb), hk, hlen, hsays.trans hs.symm, hcmds⟩

theorem cutoffEnds_builds {o : Od} {r k f : Nat} {plan : List SlotPlan} {d : Dev} (hr : r < 8) (h : RingStarted r d) :
    RingBuilt o r k (cutoffEnds o k plan f d) :=
  (buildAll_builds (k := k) (f := f) (plan := plan) (park := d.stack.park) hr h).of_lcl (cutoffEnds_lcl ..) (cutoffEnds_says ..)

/-- Two states of the device whose link, domains and uncertain mark are the same. -/
structure SameFrames (d e : Dev) : Prop where
  lcl : d.lcl = e.lcl
  uncertain : d.time.uncertain = e.time.uncertain
  doms : d.doms = e.doms

theorem SameFrames.trans {d e g : Dev} (h : SameFrames d e) (h' : SameFrames e g) : SameFrames d g :=
  ⟨h.lcl.trans h'.lcl, h.uncertain.trans h'.uncertain, h.doms.trans h'.doms⟩

theorem fixCarrier_sameFrames (o : Od) (runs : Bool) (d : Dev) : SameFrames (fixCarrier o runs d) d :=
  ⟨fixCarrier_leaves (p := .lcl) (by decide) .., fixCarrier_uncertain .., fixCarrier_leaves (p := .doms) (by decide) ..⟩

theorem SameFrames.onStack {d e : Dev} (h : SameFrames d e) (f : Stack → Stack) : SameFrames (onStack f d) e := ⟨h.lcl, h.uncertain, h.doms⟩

theorem SameFrames.fixCarrier {d e : Dev} (h : SameFrames d e) (o : Od) (runs : Bool) : SameFrames (fixCarrier o runs d) e :=
  (fixCarrier_sameFrames o runs d).trans h

theorem SameFrames.record {d e : Dev} (h : SameFrames d e) (o : Od) (code source : Nat) (data : Bytes) :
    SameFrames (record o code source data d) e :=
  ⟨(record_lcl ..).trans h.lcl, (congrArg Time.uncertain (record_time o code source data d)).trans h.uncertain,
    (record_leaves (p := .doms) (by decide) ..).trans h.doms⟩

theorem SameFrames.stackMiss {d e : Dev} (h : SameFrames d e) (o : Od) (k : Nat) : SameFrames (stackMiss o k d) e :=
  ⟨(stackMiss_leaves (p := .lcl) (by decide) o k d).trans h.lcl,
    (congrArg Time.uncertain (stackMiss_leaves (p := .time) (by decide) o k d :)).trans h.uncertain,
    (stackMiss_leaves (p := .doms) (by decide) o k d).trans h.doms⟩

theorem SameFrames.balanceAll {d e : Dev} (h : SameFrames d e) (o : Od) (k : Nat) (st : StackState) : SameFrames (balanceAll o k st d) e :=
  ⟨(balanceAll_leaves (p := .lcl) (by decide) o k st d).trans h.lcl,
    (congrArg Time.uncertain (balanceAll_leaves (p := .time) (by decide) o k st d :)).trans h.uncertain,
    (balanceAll_leaves (p := .doms) (by decide) o k st d).trans h.doms⟩

theorem SameFrames.zvsCount {d e : Dev} (h : SameFrames d e) (o : Od) (k n : Nat) : SameFrames (zvsCount o k n d) e :=
  ⟨(zvsCount_leaves (p := .lcl) (by decide) o k n d).trans h.lcl,
    (congrArg Time.uncertain (zvsCount_leaves (p := .time) (by decide) o k n d :)).trans h.uncertain,
    (zvsCount_leaves (p := .doms) (by decide) o k n d).trans h.doms⟩

theorem SameFrames.planAll {d e : Dev} (h : SameFrames d e) (o : Od) (k : Nat) (st : StackState) (f : Nat) :
    SameFrames (planAll o k st f d).2 e :=
  ⟨(planAll_leaves (p := .lcl) (by decide) o k st f d).trans h.lcl,
    (congrArg Time.uncertain (planAll_leaves (p := .time) (by decide) o k st f d :)).trans h.uncertain,
    (planAll_leaves (p := .doms) (by decide) o k st f d).trans h.doms⟩

theorem SameFrames.countConditions {d e : Dev} (h : SameFrames d e) (o : Od) : SameFrames (countConditions o d) e :=
  ⟨(countConditions_leaves (p := .lcl) (by decide) o d).trans h.lcl,
    (congrArg Time.uncertain (countConditions_leaves (p := .time) (by decide) o d :)).trans h.uncertain,
    (countConditions_leaves (p := .doms) (by decide) o d).trans h.doms⟩

theorem SameFrames.ite {c : Prop} [Decidable c] {d d' e : Dev} (h : SameFrames d e) (h' : SameFrames d' e) :
    SameFrames (if c then d else d') e := by
  split
  · exact h
  · exact h'

/-- The cut-off of a period that is not done yet notes the period, and ends in the building of the frames. -/
theorem frameCutoff_ends {o : Od} {d : Dev} (h : d.lcl.cutDone ≠ some d.sched.count) :
    ∃ plan f e, frameCutoff o d = cutoffEnds o d.sched.count plan f e ∧
      SameFrames e { d with lcl := { d.lcl with cutDone := some d.sched.count } } := by
  unfold frameCutoff
  rw [if_neg (by simpa using h)]
  extract_lets src d0 finish freq dMiss dCond dec st dRec dNext dFix
  have h0 : SameFrames d0 { d with lcl := { d.lcl with cutDone := some d.sched.count } } := ⟨rfl, rfl, rfl⟩
  have hCond : SameFrames dCond { d with lcl := { d.lcl with cutDone := some d.sched.count } } := h0.countConditions o
  have hRec : SameFrames dRec { d with lcl := { d.lcl with cutDone := some d.sched.count } } := by
    simp only [dRec]
    clear_value dec
    split
    · exact hCond.record ..
    · exact hCond
  have hFix : SameFrames dFix { d with lcl := { d.lcl with cutDone := some d.sched.count } } :=
    (SameFrames.ite ((hRec.onStack _).balanceAll ..) (hRec.onStack _)).fixCarrier ..
  by_cases hctrl : (!d.isOn .ctrl) = true
  · rw [if_pos hctrl]
    exact ⟨_, _, _, rfl, h0.fixCarrier ..⟩
  rw [if_neg hctrl]
  by_cases hmiss : (d.stack.state.runs && !d.stack.handed) = true
  · rw [if_pos hmiss]
    exact ⟨_, _, _, rfl, (h0.stackMiss ..).fixCarrier ..⟩
  rw [if_neg hmiss]
  by_cases hruns : st.runs = true
  · rw [if_pos hruns]
    exact ⟨_, _, _, rfl, hFix.planAll ..⟩
  · rw [if_neg hruns]
    exact ⟨_, _, _, rfl, (hFix.onStack _).zvsCount ..⟩

/-! ### The rows -/

/-- R205: a cut-off of a period that is not done yet notes it and builds the frame of a started ring. -/
theorem frameCutoff_builds {o : Od} {r : Nat} {d : Dev} (hr : r < 8) (h : d.lcl.cutDone ≠ some d.sched.count) (hs : RingStarted r d) :
    ∃ b, (getRing (frameCutoff o d) r).build = some b ∧ b.period = d.sched.count ∧ b.length = period o ∧
      (b.uncertain, b.standby, b.apply) = d.frameSays ∧ b.cmds.length = ringCells o r := by
  obtain ⟨plan, f, e, hends, hsame⟩ := frameCutoff_ends (o := o) h
  have hes : RingStarted r e := Eq.trans (congrArg Ring.started (getRing_of_lcl hsame.lcl r)) hs
  obtain ⟨b, hb, hk, hlen, hsays, hcmds⟩ := cutoffEnds_builds (o := o) (k := d.sched.count) (f := f) (plan := plan) hr hes
  refine ⟨b, by rw [hends]; exact hb, hk, hlen, hsays.trans ?_, hcmds⟩
  rw [cutoffEnds_says, buildAll_frameSays]
  have hon : e.isOn .safe = d.isOn .safe := by
    simp only [Dev.isOn, Dev.domState, hsame.doms]
  simp only [Dev.frameSays, hsame.uncertain, hsame.lcl, hon]

theorem frameCutoff_notes (o : Od) (d : Dev) : (frameCutoff o d).lcl.cutDone = some d.sched.count := by
  by_cases h : d.lcl.cutDone = some d.sched.count
  · simp only [frameCutoff, h, beq_self_eq_true, if_true]
  · obtain ⟨plan, f, e, hends, hsame⟩ := frameCutoff_ends (o := o) h
    rw [hends, cutoffEnds_lcl, buildAll_cutDone, hsame.lcl]

theorem frameCutoff_done {o : Od} {d : Dev} (h : d.lcl.cutDone = some d.sched.count) : frameCutoff o d = d := by
  simp only [frameCutoff, h, beq_self_eq_true, if_true]

/-- The start of a control period where its instant has come and no RPDO is held: the cut-off, the start, and what has waited for it. -/
theorem rpdosAtStart_of_none {s : State} (h : ∀ n, (vget s.dev.com.rpdos n).held = none) : rpdosAtStart s = s := by
  unfold rpdosAtStart
  split
  · rfl
  · refine List.foldlRecOn (motive := fun t => t = s) _ _ rfl fun t ht n _ => ?_
    subst ht
    simp only [h n]

/-- The state at a period start after its cut-off and its own step. -/
def startedAt (s : State) : State := (s.act frameCutoff).act (periodBegins s.dev.sched.count (nextStart s.od s.dev))

theorem startedAt_dev (s : State) :
    (startedAt s).dev = periodBegins s.dev.sched.count (nextStart s.od s.dev) s.od (frameCutoff s.od s.dev) := by
  simp only [startedAt, State.act]

/-- Where its instant has come and no RPDO is held, the start of a control period is its own step and what has waited for it. -/
theorem controlPeriodStart_runs {s : State} (hrun : s.dev.sched.running = true) (hdt : nextStart s.od s.dev ≤ s.dev.clk.dt)
    (hheld : ∀ n, (vget s.dev.com.rpdos n).held = none) : controlPeriodStart s = tpdosAtStart (settleLater (startedAt s)) := by
  have hcom : (settleLater (startedAt s)).dev.com = s.dev.com := by
    refine (settleLater_leaves (p := .com) (by decide) _).trans ?_
    rw [startedAt_dev]
    exact (periodBegins_leaves (p := .com) (by decide) ..).trans (frameCutoff_leaves (p := .com) (by decide) ..)
  have hnone : rpdosAtStart (settleLater (startedAt s)) = settleLater (startedAt s) := rpdosAtStart_of_none (by rw [hcom]; exact hheld)
  unfold controlPeriodStart
  rw [if_neg (by simp [hrun]; omega)]
  exact congrArg tpdosAtStart hnone

/-- The schedule and the link after a period start are those its own step leaves. -/
theorem controlPeriodStart_part {s : State} (hrun : s.dev.sched.running = true) (hdt : nextStart s.od s.dev ≤ s.dev.clk.dt)
    (hheld : ∀ n, (vget s.dev.com.rpdos n).held = none) {p : Part} (hp : p = .sched ∨ p = .lcl) :
    p.of (controlPeriodStart s).dev =
      p.of (periodBegins s.dev.sched.count (nextStart s.od s.dev) s.od (frameCutoff s.od s.dev)) := by
  have hne : p ≠ .stack ∧ p ≠ .doms ∧ p ≠ .com ∧ p ≠ .out ∧ p ≠ .free := by rcases hp with rfl | rfl <;> decide
  obtain ⟨hstack, hrest⟩ := hne
  rw [controlPeriodStart_runs hrun hdt hheld, ← startedAt_dev]
  exact (tpdosAtStart_leaves hrest _).trans (settleLater_leaves hstack _)

/-- The instant the row of a period start waits for. -/
def periodDue (o : Od) (d : Dev) : Option Instant := instantIf d.sched.running (.device (nextStart o d))

theorem nextStart_upTo (due : Od → Dev → Option Instant) (s : State) : nextStart s.od (s.upTo due).dev = nextStart s.od s.dev := by
  have hsched : (s.upTo due).dev.sched = s.dev.sched := upTo_part due s (p := .sched) (by decide)
  simp only [nextStart, hsched]

theorem dt_upTo_of_stopped {due : Od → Dev → Option Instant} {s : State} (h : s.dev.clk.counting = false) :
    (s.upTo due).dev.clk.dt = s.dev.clk.dt := by
  unfold State.upTo
  split
  · rw [passTicks_clock.2.1, if_neg (by simp [h])]
  · rfl

theorem periodDue_reached {s : State} (hrun : s.dev.sched.running = true)
    (hc : s.dev.clk.counting = true ∨ nextStart s.od s.dev ≤ s.dev.clk.dt) : nextStart s.od s.dev ≤ (s.upTo periodDue).dev.clk.dt := by
  by_cases hcount : s.dev.clk.counting = true
  · exact le_dt_upTo (by simp only [periodDue, instantIf, hrun, if_true]) hcount
  · rw [dt_upTo_of_stopped (by simpa using hcount)]
    exact hc.resolve_left hcount

/-- The schedule and the link after the row of a period start. -/
theorem periodStart_part {s : State} (hrun : s.dev.sched.running = true)
    (hc : s.dev.clk.counting = true ∨ nextStart s.od s.dev ≤ s.dev.clk.dt) (hheld : ∀ n, (vget s.dev.com.rpdos n).held = none)
    {p : Part} (hp : p = .sched ∨ p = .lcl) :
    p.of (controlPeriodStart (s.upTo periodDue)).dev =
      p.of (periodBegins s.dev.sched.count (nextStart s.od s.dev) s.od (frameCutoff s.od (s.upTo periodDue).dev)) := by
  have hsched : (s.upTo periodDue).dev.sched = s.dev.sched := upTo_part periodDue s (p := .sched) (by decide)
  have hcom : (s.upTo periodDue).dev.com = s.dev.com := upTo_part periodDue s (p := .com) (by decide)
  have hstart := nextStart_upTo periodDue s
  have h := controlPeriodStart_part (s := s.upTo periodDue) (by rw [hsched]; exact hrun)
    (by rw [upTo_od, hstart]; exact periodDue_reached hrun hc) (by rw [hcom]; exact hheld) hp
  rwa [upTo_od, hstart, hsched] at h

theorem controlPeriodStart_completes {s : State} {P : State → Prop}
    (h : P { controlPeriodStart (s.upTo periodDue) with pending := (s.upTo periodDue).pending }) : Completes .periodStart s P :=
  ⟨_, rfl, h⟩

/-- The instant the row of a frame-build cut-off waits for. -/
def cutoffDue (o : Od) (d : Dev) : Option Instant := instantIf d.sched.running (.device (nextStart o d - 1600))

theorem cutoffPassed_upTo {s : State} (hrun : s.dev.sched.running = true) (hc : s.dev.clk.counting = true) :
    cutoffPassed s.od (s.upTo cutoffDue).dev = frameCutoff s.od (s.upTo cutoffDue).dev := by
  have hsched : (s.upTo cutoffDue).dev.sched = s.dev.sched := upTo_part cutoffDue s (p := .sched) (by decide)
  have hreached : nextStart s.od s.dev - 1600 ≤ (s.upTo cutoffDue).dev.clk.dt :=
    le_dt_upTo (by simp only [cutoffDue, instantIf, hrun, if_true]) hc
  unfold cutoffPassed
  rw [nextStart_upTo, hsched, if_pos (by simp [hrun]; omega)]

/-- Settles O25: the start of a period and the cut-off act once their instant has come, and each ring's frame is its own. -/
theorem periodsStart : Obligations.PeriodsStart := by
  unfold Obligations.PeriodsStart
  refine ⟨fun s hrun hheld hc => ?_, fun r b s hrun hc hheld hdone hs hb hp ha => ?_, fun s hrun hc => ?_⟩
  · have hafter : (controlPeriodStart (s.upTo periodDue)).dev.sched = { s.dev.sched with
        count := s.dev.sched.count + 1, j := s.dev.sched.j + 1, last := nextStart s.od s.dev } := by
      have hsched : (frameCutoff s.od (s.upTo periodDue).dev).sched = s.dev.sched :=
        (frameCutoff_leaves (p := .sched) (by decide) ..).trans (upTo_part periodDue s (p := .sched) (by decide))
      refine (periodStart_part hrun hc hheld (p := .sched) (Or.inl rfl)).trans ?_
      rw [← hsched]
      exact periodBegins_sched ..
    refine controlPeriodStart_completes ?_
    simp only [hafter, and_self]
  · have hl : (s.upTo periodDue).dev.lcl = s.dev.lcl := upTo_lcl ..
    have hsched : (s.upTo periodDue).dev.sched = s.dev.sched := upTo_part periodDue s (p := .sched) (by decide)
    have hcut : frameCutoff s.od (s.upTo periodDue).dev = (s.upTo periodDue).dev := frameCutoff_done (by rw [hl, hsched]; exact hdone)
    have hto : RingToLaunch r.val (getRing s.dev r.val).activePath b (s.upTo periodDue).dev := by
      rw [RingToLaunch, getRing_of_lcl hl]
      exact ⟨hs, rfl, hb, hp⟩
    have hlaunched : RingLaunched r.val (getRing s.dev r.val).activePath s.dev.sched.count (nextStart s.od s.dev)
        (controlPeriodStart (s.upTo periodDue)).dev := by
      refine RingLaunched.of_lcl ?_ (periodStart_part hrun (Or.inl hc) hheld (p := .lcl) (Or.inr rfl))
      rw [hcut]
      exact periodBegins_launches r.isLt ha hto
    obtain ⟨hcourse, hflight⟩ := hlaunched
    simp only [ringCourse, Ring.course, Prod.mk.injEq] at hcourse
    obtain ⟨-, hlaunching, -, hbuild, -⟩ := hcourse
    exact controlPeriodStart_completes ⟨hlaunching, hbuild, hflight⟩
  · refine completes_timed (due := cutoffDue) (f := cutoffPassed) rfl ?_
    have hl : (s.upTo cutoffDue).dev.lcl = s.dev.lcl := upTo_lcl ..
    have hsched : (s.upTo cutoffDue).dev.sched = s.dev.sched := upTo_part cutoffDue s (p := .sched) (by decide)
    have htime : (s.upTo cutoffDue).dev.time = s.dev.time := upTo_part cutoffDue s (p := .time) (by decide)
    rw [cutoffPassed_upTo hrun hc]
    refine ⟨(frameCutoff_notes ..).trans (by rw [hsched]), rfl, fun r hnot hs => ?_⟩
    obtain ⟨b, hb, hk, hlen, hsays, hcmds⟩ := frameCutoff_builds (o := s.od) (d := (s.upTo cutoffDue).dev) r.isLt
      (by rw [hl, hsched]; exact hnot) (by rw [RingStarted, getRing_of_lcl hl]; exact hs)
    simp only [Dev.frameSays, htime, upTo_isOn, hl, Prod.mk.injEq] at hsays
    obtain ⟨huncertain, hsafe, happly⟩ := hsays
    exact ⟨b, hb, hk.trans (by rw [hsched]), hlen, happly, huncertain, hsafe, hcmds⟩

end Sys2Proof.Machine
end

section
/-! The limits of a session's states (O32). -/
namespace Sys2Proof.Machine

/-- A cell whose session has ended in a state, with its reason and its epoch closed. -/
def SessionEnded (c : Nat) (st : SessState) (reason : Nat) (d : Dev) : Prop :=
  (getCell d c).state = st ∧ (getCell d c).reason = reason ∧ (getCell d c).txn.isOpen = false

theorem sessEnter_ends {o : Od} {c reason k : Nat} {st : SessState} (d : Dev) (h : c < 128)
    (hst : st ∈ [SessState.absent, .discover, .admitting, .blocked, .fault]) : SessionEnded c st reason (sessEnter o c st reason k d) := by
  obtain ⟨hstate, hreason, hopen, -⟩ := sessEnter_closes (o := o) (reason := reason) (k := k) d h hst
  exact ⟨hstate, hreason, hopen⟩

/-- A session whose time in a state is over faults with reason 0x13. -/
theorem stateTimeout_faults {st : SessState} {past : Od → Dev → Cell → Bool} {c : Nat} {o : Od} {d : Dev} (h : c < 128)
    (hst : (getCell d c).state = st) (hover : past o d (getCell d c) = true) : SessionEnded c .fault 0x13 (stateTimeout st past c o d) := by
  unfold stateTimeout
  simp only [hst, hover, beq_self_eq_true, Bool.and_self, if_true]
  exact sessEnter_ends d h (by simp)

/-! ### Frames presumed held (R243) -/

/-- A state whose session a presumption of hold blocks. -/
def SessState.presumed (st : SessState) : Bool := st.inService || st == .resync

/-- What the presumption does with one cell. -/
def presumeHeld (o : Od) (c : Nat) (d : Dev) : Dev :=
  if (getCell d c).state.presumed then sessEnter o c .blocked 0x0D (d.sched.count - 1) d else d

theorem presumeHeld_other {o : Od} {b c : Nat} (d : Dev) (h : b ≠ c) : getCell (presumeHeld o b d) c = getCell d c := by
  unfold presumeHeld
  split
  · exact sessEnter_other d h
  · rfl

theorem presumeHeld_blocks {o : Od} {c : Nat} {d : Dev} (h : c < 128) (hst : (getCell d c).state.presumed = true) :
    SessionEnded c .blocked 0x0D (presumeHeld o c d) := by
  unfold presumeHeld
  rw [if_pos hst]
  exact sessEnter_ends d h (by simp)

theorem presumeHeld_keepsBlocked {o : Od} {b c : Nat} {d : Dev} (h : SessionEnded c .blocked 0x0D d) :
    SessionEnded c .blocked 0x0D (presumeHeld o b d) := by
  by_cases hb : b = c
  · subst hb
    unfold presumeHeld
    rwa [if_neg (by simp [h.1, SessState.presumed, SessState.inService])]
  · rwa [SessionEnded, presumeHeld_other d hb]

/-- Each running session of the ring is blocked. -/
theorem presumeAll_blocks {o : Od} {l : List Nat} {c : Nat} {d : Dev} (hc : c < 128) (hl : c ∈ l) (hst : (getCell d c).state.presumed = true) :
    SessionEnded c .blocked 0x0D (forEach l (presumeHeld o) d) := by
  refine forEach_establishes (P := fun e => (getCell e c).state.presumed = true ∨ SessionEnded c .blocked 0x0D e) hl (fun b e he => ?_)
    (fun b e => presumeHeld_keepsBlocked) (fun e he => ?_) (Or.inl hst)
  · rcases he with he | he
    · by_cases hb : b = c
      · subst hb
        exact Or.inr (presumeHeld_blocks hc he)
      · exact Or.inl (by rwa [presumeHeld_other e hb])
    · exact Or.inr (presumeHeld_keepsBlocked he)
  · exact he.elim (presumeHeld_blocks hc) presumeHeld_keepsBlocked

theorem holdPresumption_blocks {r p : Nat} {o : Od} {d : Dev} (hc : 16 * r + p < 128) (hp : p < ringCells o r)
    (hlaunching : (getRing d r).launching = true) (hdt : (getRing d r).lc + 4 * period o ≤ d.clk.dt)
    (hst : (getCell d (16 * r + p)).state.presumed = true) : SessionEnded (16 * r + p) .blocked 0x0D (holdPresumption r o d) := by
  unfold holdPresumption
  dsimp only
  rw [if_neg (by simp [hlaunching, hdt])]
  exact presumeAll_blocks hc (List.mem_map.2 ⟨p, List.mem_range.2 hp, rfl⟩) hst

/-! ### The rows -/

/-- The instant the row of a parameter timeout waits for. -/
def paramDue (c : Nat) (o : Od) (d : Dev) : Option Instant :=
  instantIf ((getCell d c).state == .param) (.device ((getCell d c).since + msT (lclPar o 9)))

/-- The instant the row of a presumption of hold waits for. -/
def presumptionDue (r : Nat) (o : Od) (d : Dev) : Option Instant :=
  instantIf (getRing d r).launching (.device ((getRing d r).lc + 4 * period o))

theorem SessionEnded.and_od {c reason : Nat} {st : SessState} {u : State} {o : Od} (h : SessionEnded c st reason u.dev) (ho : u.od = o) :
    (getCell u.dev c).state = st ∧ (getCell u.dev c).reason = reason ∧ (getCell u.dev c).txn.isOpen = false ∧ u.od = o :=
  ⟨h.1, h.2.1, h.2.2, ho⟩

/-- Settles O32: the three timeouts are one lemma; the presumption blocks each cell of its ring that runs. -/
theorem sessionTimeouts : Obligations.SessionTimeouts := by
  unfold Obligations.SessionTimeouts
  refine ⟨fun c s hst hover => ?_, fun c s hst hcount => ?_, fun c s hst hover => ?_, fun r p s hlaunching hcount hp hst => ?_⟩
  · exact completes_drives rfl ((stateTimeout_faults c.isLt hst (by simpa using hover)).and_od rfl)
  · have hl : (s.upTo (paramDue c.val)).dev.lcl = s.dev.lcl := upTo_lcl ..
    have hdt : (getCell s.dev c.val).since + msT (lclPar s.od 9) ≤ (s.upTo (paramDue c.val)).dev.clk.dt :=
      le_dt_upTo (by simp only [paramDue, hst, beq_self_eq_true, instantIf, if_true]) hcount
    refine completes_timed (due := paramDue c.val) rfl (SessionEnded.and_od ?_ rfl)
    refine stateTimeout_faults c.isLt ?_ ?_
    · rwa [getCell_of_lcl hl]
    · rw [getCell_of_lcl hl]
      exact decide_eq_true hdt
  · exact completes_drives rfl ((stateTimeout_faults c.isLt hst (by simpa using hover)).and_od rfl)
  · have hl : (s.upTo (presumptionDue r.val)).dev.lcl = s.dev.lcl := upTo_lcl ..
    have hdt : (getRing s.dev r.val).lc + 4 * period s.od ≤ (s.upTo (presumptionDue r.val)).dev.clk.dt :=
      le_dt_upTo (by simp only [presumptionDue, hlaunching, instantIf, if_true]) hcount
    have hpresumed : (getCell s.dev (16 * r.val + p.val)).state.presumed = true := by
      simp only [List.mem_cons, List.not_mem_nil, or_false] at hst
      obtain h | h | h | h := hst
      all_goals rw [h]; rfl
    refine completes_timed (due := presumptionDue r.val) rfl (SessionEnded.and_od ?_ rfl)
    refine holdPresumption_blocks (by omega) hp ?_ ?_ ?_
    · rwa [getRing_of_lcl hl]
    · rwa [getRing_of_lcl hl]
    · rwa [getCell_of_lcl hl]

end Sys2Proof.Machine
end

section
/-! Messages of the cell nodes: how one arrives, and the answers to the device's requests (O31). -/
namespace Sys2Proof.Machine

/-! ### The arrival of a message that a slot was offered for -/

/-- A message of a cell node as its type and its slot give it. -/
def readMsg (mtype : Nat) (m : CellMsg) : LclMsg := {
  mtype := mtype, kind := m.kind.toNat, retry := m.retry, echo := m.echo, tag := m.tag.toNat
  epoch := m.epoch.toNat, grant := m.grant.toNat, body := m.body, overlong := decide (48 < m.body.length) }

/-- The flight whose slot a message came in notes the slot as taken. -/
def slotTaken (m : CellMsg) (f : Flight) (d : Dev) : Dev :=
  modPath m.ring.val (getRing d m.ring.val).activePath
    (fun q => { q with flights := q.flights.map (fun x => if x == f then { x with taken := m.slot.val :: x.taken } else x) }) d

/-- A message in a slot offered for it is received. -/
theorem messageRow_offered {mtype : Nat} {m : CellMsg} {o : Od} {d : Dev} {f : Flight} (h : slotOffered o d m = some f) :
    messageRow mtype m o d = rxMessage o (ikInForce d) (cellOf m) f.period (readMsg mtype m) (slotTaken m f d) := by
  unfold slotOffered at h
  extract_lets r at h
  split at h
  · exact absurd h (by simp)
  next hscan =>
    split at h
    · exact absurd h (by simp)
    next g hfind =>
      extract_lets mine at h
      by_cases hno : (g.lost || g.taken.contains m.slot.val || decide (ringCells o r ≤ m.position.val) || !mine) = true
      · rw [if_pos hno] at h
        exact absurd h (by simp)
      · rw [if_neg hno] at h
        obtain rfl : g = f := Option.some.inj h
        have hrefused : ¬ (g.taken.contains m.slot.val || decide (ringCells o r ≤ m.position.val) || d.sec.scan || g.lost) = true := by
          simp_all
        have hmine : mine = true := by
          cases hm : mine
          · simp [hm] at hno
          · rfl
        have hcyclic : (getPath d m.ring.val (getRing d m.ring.val).activePath).flights.find? (fun x => x.ftype == 1) = some g := hfind
        unfold messageRow messageArrives
        simp only [hcyclic]
        exact (if_neg hrefused).trans (if_pos hmine)

theorem cellOf_lt (m : CellMsg) : cellOf m < 128 := by
  have := m.ring.isLt
  have := m.position.isLt
  unfold cellOf
  omega

@[simp] theorem getCell_slotTaken (m : CellMsg) (f : Flight) (d : Dev) (c : Nat) : getCell (slotTaken m f d) c = getCell d c := rfl

/-! ### What a message's slot and its errors do to the cell -/

/-- The transactions of a cell once the buffer of an offered slot goes back to granted. -/
def Txn.slotBack (t : Txn) : Txn := if t.inFlight = 0 then t else { t with inFlight := t.inFlight - 1, granted := t.granted + 1 }

/-- The transactions of a cell once the buffer of a slot is held. -/
def Txn.slotHeld (t : Txn) : Txn := if t.inFlight = 0 then t else { t with inFlight := t.inFlight - 1, held := t.held + 1 }

/-- The transactions of a cell once a held buffer is released. -/
def Txn.slotReleased (toFree : Bool) (t : Txn) : Txn :=
  if t.held = 0 then t else { t with
    held := t.held - 1, free := if toFree then t.free + 1 else t.free, granted := if toFree then t.granted else t.granted + 1 }

theorem slotBack_cell {c : Nat} (d : Dev) (h : c < 128) :
    getCell (slotBack c d) c = { getCell d c with txn := (getCell d c).txn.slotBack } := getCell_modTxn_same _ d h

theorem slotHeld_cell {c : Nat} (d : Dev) (h : c < 128) :
    getCell (slotHeld c d) c = { getCell d c with txn := (getCell d c).txn.slotHeld } := getCell_modTxn_same _ d h

theorem slotReleased_cell {c : Nat} (b : Bool) (d : Dev) (h : c < 128) :
    getCell (slotReleased c b d) c = { getCell d c with txn := (getCell d c).txn.slotReleased b } := getCell_modTxn_same _ d h

/-- What two states of a cell's transactions share where only buffers and errors are counted between them. -/
structure Txn.SameTraffic (t u : Txn) : Prop where
  isOpen : t.isOpen = u.isOpen
  epoch : t.epoch = u.epoch
  out : t.out = u.out
  respDue : t.respDue = u.respDue
  high : t.high = u.high
  seen : t.seen = u.seen
  cellReqs : t.cellReqs = u.cellReqs
  grant : t.grant = u.grant
  newReqs : t.newReqs = u.newReqs
  cellPool : t.cellPool = u.cellPool
  completed : t.completed = u.completed

theorem Txn.SameTraffic.refl (t : Txn) : t.SameTraffic t := ⟨rfl, rfl, rfl, rfl, rfl, rfl, rfl, rfl, rfl, rfl, rfl⟩

theorem Txn.slotBack_traffic (t : Txn) : t.slotBack.SameTraffic t := by
  unfold Txn.slotBack
  split
  · exact .refl t
  · exact ⟨rfl, rfl, rfl, rfl, rfl, rfl, rfl, rfl, rfl, rfl, rfl⟩

theorem Txn.slotHeld_traffic (t : Txn) : t.slotHeld.SameTraffic t := by
  unfold Txn.slotHeld
  split
  · exact .refl t
  · exact ⟨rfl, rfl, rfl, rfl, rfl, rfl, rfl, rfl, rfl, rfl, rfl⟩

theorem Txn.slotReleased_traffic (b : Bool) (t : Txn) : (t.slotReleased b).SameTraffic t := by
  unfold Txn.slotReleased
  split
  · exact .refl t
  · exact ⟨rfl, rfl, rfl, rfl, rfl, rfl, rfl, rfl, rfl, rfl, rfl⟩

theorem cellAction_lcl (o : Od) (action c trigger bit : Nat) (d : Dev) : (cellAction o action c trigger bit d).lcl = d.lcl :=
  cellAction_leaves (p := .lcl) (by decide) ..

/-- The transactions of a cell once an error of kind `kind` is counted. -/
def Txn.errs (kind n : Nat) (win : List Nat) (t : Txn) : Txn :=
  { t with
    errors := satInc t.errors, kinds := vset t.kinds (kind - 1) n, window := win, lastKind := kind
    kindsSeen := if t.kindsSeen.contains kind then t.kindsSeen else kind :: t.kindsSeen }

theorem Txn.errs_traffic (kind n : Nat) (win : List Nat) (t : Txn) : (t.errs kind n win).SameTraffic t :=
  ⟨rfl, rfl, rfl, rfl, rfl, rfl, rfl, rfl, rfl, rfl, rfl⟩

theorem Txn.errant_traffic {t u : Txn} (h : t.SameTraffic u) : Txn.SameTraffic { t with errant := true } u :=
  ⟨h.isOpen, h.epoch, h.out, h.respDue, h.high, h.seen, h.cellReqs, h.grant, h.newReqs, h.cellPool, h.completed⟩

/-- An error of a partner is counted in the transactions of its cell, whose traffic it leaves. -/
theorem partnerError_cell {o : Od} {c : Nat} (kind mtype tag grant k : Nat) (d : Dev) (h : c < 128) :
    ∃ t, getCell (partnerError o c kind mtype tag grant k d) c = { getCell d c with txn := t } ∧ t.SameTraffic (getCell d c).txn := by
  unfold partnerError
  extract_lets x t n win d1 d2
  have hd1 : getCell d1 c = { x with txn := t.errs kind n win } := getCell_setCell_same _ d h
  have hd2 : getCell d2 c = { x with txn := t.errs kind n win } := by
    refine Eq.trans ?_ hd1
    simp only [d2]
    split
    · rfl
    · exact getCell_record ..
  split
  · refine ⟨{ t.errs kind n win with errant := true }, (getCell_of_lcl (cellAction_lcl ..) c).trans ?_,
      Txn.errant_traffic (t.errs_traffic ..)⟩
    rw [getCell_record, getCell_modTxn_same _ _ h, hd2]
  · exact ⟨_, hd2, t.errs_traffic ..⟩

/-! ### The course of a received message (R227, R251) -/

/-- A message without credit that is well formed is taken as a control message. -/
theorem rxMessage_control {o : Od} {ik : Option Bytes} {c k : Nat} {m : LclMsg} {d : Dev} (hkind : m.kind = 0)
    (hok : cellMsgOk (getCell d c).txn.isOpen m = true) : rxMessage o ik c k m d = rxControl o ik c k m (slotBack c d) := by
  unfold rxMessage
  simp only [hkind, hok, ne_eq, not_true_eq_false, false_and, if_false, Bool.not_true, Bool.false_eq_true, if_true]

/-- The GRANT of a message is taken. -/
def grantTaken (c grant : Nat) (d : Dev) : Dev := modTxn c (fun t => { t with peerGrant := grant }) d

/-- A credited message that is well formed, of the open epoch, and not discarded, whose GRANT is taken before it is processed. -/
structure Credited (c : Nat) (m : LclMsg) (d : Dev) : Prop where
  ok : cellMsgOk (getCell d c).txn.isOpen m = true
  isOpen : (getCell d c).txn.isOpen = true
  epoch : (getCell d c).txn.epoch % 256 = m.epoch
  kept : (getCell d c).txn.discards m = false
  ahead : (m.grant + 65536 - (getCell d c).txn.newReqs % 65536) % 65536 ≤ (getCell d c).txn.cellPool
  forward : (m.grant + 65536 - (getCell d c).txn.peerGrant) % 65536 < 32768

theorem Credited.takeGrant {o : Od} {c k : Nat} {m : LclMsg} {d : Dev} (h : Credited c m d) : takeGrant o c k m d = grantTaken c m.grant d := by
  unfold Machine.takeGrant
  dsimp only
  rw [if_neg (by have := h.forward; omega), if_neg (by have := h.ahead; omega)]
  rfl

theorem Credited.rxMessage {o : Od} {ik : Option Bytes} {c k : Nat} {m : LclMsg} {d : Dev} (h : Credited c m d) (hkind : m.kind ≠ 0) :
    rxMessage o ik c k m d =
      if m.kind = 1 then slotReleased c false (rxRequest o c k m (slotHeld c (grantTaken c m.grant d)))
      else if m.kind = 2 then
        slotReleased c (rxResponse o c k m (slotHeld c (grantTaken c m.grant d))).1 (rxResponse o c k m (slotHeld c (grantTaken c m.grant d))).2
      else rxCredit o c m (slotBack c (grantTaken c m.grant d)) := by
  unfold Machine.rxMessage
  dsimp only
  rw [if_neg (by simp [h.isOpen, h.epoch]), if_neg (by simp [h.ok]), if_neg hkind, h.kept, if_neg Bool.false_ne_true, h.takeGrant]

theorem grantTaken_cell {c grant : Nat} (d : Dev) (h : c < 128) :
    getCell (grantTaken c grant d) c = { getCell d c with txn := { (getCell d c).txn with peerGrant := grant } } := getCell_modTxn_same _ d h

/-- A cell as a credited request or answer finds it: its GRANT is taken and its slot held. -/
theorem slotHeld_grantTaken_cell {c grant : Nat} (d : Dev) (h : c < 128) :
    ∃ t, getCell (slotHeld c (grantTaken c grant d)) c = { getCell d c with txn := t } ∧ t.SameTraffic (getCell d c).txn := by
  refine ⟨Txn.slotHeld { (getCell d c).txn with peerGrant := grant }, ?_, ?_⟩
  · rw [slotHeld_cell _ h, grantTaken_cell _ h]
  · have ht := Txn.slotHeld_traffic { (getCell d c).txn with peerGrant := grant }
    exact ⟨ht.isOpen, ht.epoch, ht.out, ht.respDue, ht.high, ht.seen, ht.cellReqs, ht.grant, ht.newReqs, ht.cellPool, ht.completed⟩

/-- The credit checks that `epochFits` makes of a message. -/
theorem credited_of_epochFits {c mtype : Nat} {m : CellMsg} {d : Dev} (hfits : epochFits (getCell d c).txn m = true)
    (hok : cellMsgOk true (readMsg mtype m) = true) (hkept : (getCell d c).txn.discards (readMsg mtype m) = false) :
    Credited c (readMsg mtype m) d := by
  simp only [epochFits, Bool.and_eq_true, beq_iff_eq, decide_eq_true_eq] at hfits
  obtain ⟨⟨⟨hopen, hepoch⟩, hahead⟩, hforward⟩ := hfits
  exact ⟨by rw [hopen]; exact hok, hopen, hepoch, hkept, hahead, hforward⟩

/-! ### Outstanding requests end or stay (R256, R264) -/

/-- The outstanding requests of a cell. -/
def outOf (c : Nat) (d : Dev) : List LclReq := (getCell d c).txn.out

/-- Each request outstanding in one state is outstanding in another. -/
def OutWithin (c : Nat) (d e : Dev) : Prop := outOf c d ⊆ outOf c e

theorem OutWithin.refl (c : Nat) (d : Dev) : OutWithin c d d := List.Subset.refl _

theorem OutWithin.trans {c : Nat} {d e g : Dev} (h : OutWithin c d e) (h' : OutWithin c e g) : OutWithin c d g := List.Subset.trans h h'

theorem OutWithin.of_eq {c : Nat} {d e : Dev} (h : outOf c d = outOf c e) : OutWithin c d e := by
  rw [OutWithin, h]
  exact List.Subset.refl _

theorem outOf_modTxn {c : Nat} {f : Txn → Txn} (d : Dev) (hc : c < 128) (hf : ∀ t, (f t).out ⊆ t.out) : OutWithin c (modTxn c f d) d := by
  rw [OutWithin, outOf, getCell_modTxn_same _ _ hc]
  exact hf _

theorem outOf_modCell {c : Nat} {f : Cell → Cell} (d : Dev) (hc : c < 128) (hf : ∀ x, (f x).txn.out ⊆ x.txn.out) :
    OutWithin c (modCell c f d) d := by
  rw [OutWithin, outOf, getCell_modCell_same _ _ hc]
  exact hf _

theorem outOf_setCell {c : Nat} (x : Cell) (d : Dev) (hc : c < 128) : outOf c (setCell c x d) = x.txn.out := by
  rw [outOf, getCell_setCell_same _ _ hc]

@[simp] theorem outOf_record (o : Od) (code source : Nat) (data : Bytes) (d : Dev) (c : Nat) :
    outOf c (record o code source data d) = outOf c d := by rw [outOf, getCell_record, outOf]

theorem queueReq_out {c mtype : Nat} {body : Bytes} (d : Dev) (hc : c < 128) : OutWithin c (queueReq c mtype body d) d :=
  outOf_modTxn _ hc fun _ => List.Subset.refl _

theorem epochStep_out {o : Od} {k : Nat} (st : SessState) (t : Txn) : (st.epochStep o k t).out ⊆ t.out := by
  have hshut : t.shut.out ⊆ t.out := by
    unfold Txn.shut
    split
    · exact List.nil_subset _
    · exact List.Subset.refl _
  cases st
  case fawn => exact List.nil_subset _
  case resync => exact List.nil_subset _
  case absent => exact hshut
  case discover => exact hshut
  case admitting => exact hshut
  case blocked => exact hshut
  case fault => exact hshut
  all_goals exact List.Subset.refl _

theorem sessEnter_out {o : Od} {c reason k : Nat} {st : SessState} (d : Dev) (hc : c < 128) :
    OutWithin c (sessEnter o c st reason k d) d := by
  rw [OutWithin, outOf, sessEnter_cell d hc]
  exact epochStep_out st _

theorem foldl_out {α : Type} {c : Nat} {f : Dev → α → Dev} (hf : ∀ d a, OutWithin c (f d a) d) (l : List α) (d : Dev) :
    OutWithin c (l.foldl f d) d :=
  List.foldlRecOn (motive := fun e => OutWithin c e d) l f (OutWithin.refl c d) fun e he a _ => (hf e a).trans he

/-- A step of the exchange queues requests and ends none. -/
theorem exEnter_out {c : Nat} (st : ExStep) (d : Dev) (hc : c < 128) : OutWithin c (exEnter c st d) d := by
  unfold exEnter
  extract_lets x st1 st2
  have hset : ∀ y : Cell, y.txn = x.txn → OutWithin c (setCell c y d) d := fun y hy =>
    OutWithin.of_eq (by rw [outOf_setCell y d hc, hy]; rfl)
  clear_value st2
  cases st2
  case write => exact (foldl_out (fun e _ => queueReq_out e hc) _ _).trans (hset _ rfl)
  case commit => exact (queueReq_out _ hc).trans (hset _ rfl)
  case cal => exact (foldl_out (fun e _ => queueReq_out e hc) _ _).trans (hset _ rfl)
  case arm => exact (queueReq_out _ hc).trans (hset _ rfl)
  case idle => exact .refl c d

theorem enterParam_out {o : Od} {c k : Nat} (st : ExStep) (used : Nat) (d : Dev) (hc : c < 128) : OutWithin c (enterParam o c k st used d) d := by
  unfold enterParam
  extract_lets d1 d2
  have hd1 : OutWithin c d1 d := sessEnter_out d hc
  have hd2 : OutWithin c d2 d1 := outOf_modCell d1 hc fun _ => List.Subset.refl _
  exact (exEnter_out st d2 hc).trans (hd2.trans hd1)

theorem verifyFailed_out {o : Od} {c k code : Nat} (again : ExStep) (expected reported : Nat) (d : Dev) (hc : c < 128) :
    OutWithin c (verifyFailed o c k code again expected reported d) d := by
  unfold verifyFailed
  extract_lets x used d1
  have hd1 : OutWithin c d1 d := .of_eq (outOf_record ..)
  split
  · split
    · refine (exEnter_out _ _ hc).trans (OutWithin.trans ?_ hd1)
      exact outOf_modCell d1 hc fun _ => List.Subset.refl _
    · exact (enterParam_out _ _ _ hc).trans hd1
  · exact (sessEnter_out _ hc).trans hd1

theorem requestFailed_out {o : Od} {c k cause : Nat} (r : LclReq) (d : Dev) (hc : c < 128) : OutWithin c (requestFailed o c k r cause d) d := by
  unfold requestFailed
  extract_lets d1 d2 st
  have hd2 : OutWithin c d2 d := by
    have hd1 : OutWithin c d1 d := outOf_modTxn d hc fun _ => List.Subset.refl _
    exact (OutWithin.of_eq (outOf_record ..)).trans hd1
  split
  · exact (sessEnter_out _ hc).trans hd2
  · exact hd2

theorem endRequest_out {c tag : Nat} (freed : Bool) (d : Dev) (hc : c < 128) :
    outOf c (endRequest c tag freed d) = (outOf c d).filter (fun r => r.tag != tag) := by
  rw [outOf, endRequest, getCell_modTxn_same _ _ hc]
  rfl

theorem endRequest_within {c tag : Nat} (freed : Bool) (d : Dev) (hc : c < 128) : OutWithin c (endRequest c tag freed d) d := by
  rw [OutWithin, endRequest_out freed d hc]
  exact List.filter_subset_self _

theorem resendFrom_out {o : Od} {c k off : Nat} (r : LclReq) (d : Dev) (hc : c < 128) : OutWithin c (resendFrom o c k off r d) d := by
  unfold resendFrom
  extract_lets x n tags d1 d2
  have hd1 : OutWithin c d1 d := foldl_out (fun e tag => endRequest_within _ e hc) _ _
  have hd2 : OutWithin c d2 d1 := outOf_modCell d1 hc fun _ => List.Subset.refl _
  split
  · exact (requestFailed_out _ _ hc).trans (hd2.trans hd1)
  · exact (foldl_out (fun e _ => queueReq_out e hc) _ _).trans (hd2.trans hd1)

/-- Acting on an answer makes no request outstanding. -/
theorem onAnswer_out {o : Od} {c k : Nat} (r : LclReq) (m : LclMsg) (d : Dev) (hc : c < 128) : OutWithin c (onAnswer o c k r m d) d := by
  have hkeep : OutWithin c d d := .refl c d
  unfold onAnswer
  extract_lets x d1 res
  split
  · split
    · split
      · exact resendFrom_out _ _ hc
      · exact hkeep
    · split
      · exact exEnter_out _ _ hc
      · exact hkeep
  · split
    · exact hkeep
    · split
      · exact exEnter_out _ _ hc
      · exact verifyFailed_out _ _ _ _ hc
  · have hd1 : OutWithin c d1 d := outOf_modCell d hc fun _ => List.Subset.refl _
    split
    · exact (exEnter_out _ _ hc).trans hd1
    · exact hd1
  · split
    · exact hkeep
    · split
      · refine (sessEnter_out _ hc).trans ?_
        exact outOf_modCell d hc fun _ => List.Subset.refl _
      · exact verifyFailed_out _ _ _ _ hc
  · exact hkeep

/-! ### The rows -/

/-- A response that fits its outstanding request ends it. -/
theorem rxResponse_ends {o : Od} {c k : Nat} {m : LclMsg} {r : LclReq} {d : Dev} (hc : c < 128) (hout : (getCell d c).txn.outstanding m.tag = some r)
    (htype : m.mtype ≠ 0x4B) (hok : answerOk r m = true) : ∀ q ∈ outOf c (rxResponse o c k m d).2, q.tag ≠ m.tag := by
  unfold rxResponse
  simp only [hout, htype, if_false, hok, Bool.not_true, Bool.false_eq_true]
  intro q hq
  have hmem := onAnswer_out _ _ _ hc hq
  rw [endRequest_out _ _ hc, List.mem_filter] at hmem
  simpa using hmem.2

/-- What `answerFits` says of a message: its request is outstanding, and the message answers it. -/
theorem answerFits_some {mtype req : Nat} {t : Txn} {m : CellMsg} (hreq : answerType req = mtype) (h : answerFits t req m = true) :
    epochFits t m = true ∧ ∃ r, t.outstanding m.tag.toNat = some r ∧ answerOk r (readMsg mtype m) = true := by
  unfold answerFits at h
  rw [Bool.and_eq_true] at h
  obtain ⟨hfits, hanswer⟩ := h
  split at hanswer
  next r hr =>
    rw [hreq] at hanswer
    exact ⟨hfits, r, hr, hanswer⟩
  · exact absurd hanswer Bool.false_ne_true

/-- An answer to an outstanding request is not discarded. -/
theorem discards_answer {t : Txn} {m : LclMsg} {r : LclReq} (hkind : m.kind = 2) (hr : t.outstanding m.tag = some r)
    (hok : answerOk r m = true) : t.discards m = false := by
  unfold Txn.discards
  simp [hkind, hr, hok]

theorem outstanding_of_out {t u : Txn} (h : t.out = u.out) (tag : Nat) : t.outstanding tag = u.outstanding tag := by
  rw [Txn.outstanding, Txn.outstanding, h]

/-- R256: an answer of the right form to an outstanding request ends the request. -/
theorem answer_completes {mtype req : Nat} {m : CellMsg} {s : State} {f : Flight} {instr : Instr} (hexec : exec instr s = drives (messageRow mtype m) s)
    (hreq : answerType req = mtype) (htype : mtype ≠ 0x4B) (hslot : slotOffered s.od s.dev m = some f) (hkind : m.kind = 2)
    (hok : cellMsgOk true (readMsg mtype m) = true) (hfits : answerFits (getCell s.dev (cellOf m)).txn req m = true) :
    Completes instr s (fun u => (∀ q ∈ (getCell u.dev (cellOf m)).txn.out, q.tag ≠ m.tag.toNat) ∧ u.od = s.od) := by
  have hc := cellOf_lt m
  obtain ⟨hepoch, r, hr, hanswer⟩ := answerFits_some hreq hfits
  have hkind2 : (readMsg mtype m).kind = 2 := by simp [readMsg, hkind]
  have hcred : Credited (cellOf m) (readMsg mtype m) (slotTaken m f s.dev) :=
    credited_of_epochFits hepoch hok (discards_answer hkind2 hr hanswer)
  refine completes_drives hexec ⟨?_, rfl⟩
  dsimp only
  rw [messageRow_offered hslot, hcred.rxMessage (by rw [hkind2]; decide), if_neg (by rw [hkind2]; decide), if_pos hkind2]
  obtain ⟨t, hheld, hsame⟩ := slotHeld_grantTaken_cell (grant := (readMsg mtype m).grant) (slotTaken m f s.dev) hc
  have hout : (getCell (slotHeld (cellOf m) (grantTaken (cellOf m) (readMsg mtype m).grant (slotTaken m f s.dev))) (cellOf m)).txn.outstanding
      (readMsg mtype m).tag = some r := by
    rw [hheld]
    exact (outstanding_of_out hsame.out _).trans hr
  rw [slotReleased_cell _ _ hc]
  intro q hq
  rw [(Txn.slotReleased_traffic ..).out] at hq
  exact rxResponse_ends hc hout htype hanswer q hq

/-- Settles O31: each of the four rows is an answer that fits its request. -/
theorem answersCompleteRequests : Obligations.AnswersCompleteRequests := by
  unfold Obligations.AnswersCompleteRequests
  intro m s f c ends hslot hkind
  have hnat : m.kind.toNat = 2 := by rw [hkind]; rfl
  refine ⟨fun hlen hfits => ?_, fun hlen hfits => ?_, fun hlen hmax hfits => ?_, fun hlen hfits => ?_⟩
  · exact answer_completes rfl rfl (by decide) hslot hkind (by simp [cellMsgOk, readMsg, hlen, hnat]) hfits
  · exact answer_completes rfl rfl (by decide) hslot hkind (by simp [cellMsgOk, readMsg, hlen, hnat]) hfits
  · exact answer_completes rfl rfl (by decide) hslot hkind (by simp [cellMsgOk, readMsg, ← hlen, hnat, hmax]; omega) hfits
  · exact answer_completes rfl rfl (by decide) hslot hkind (by simp [cellMsgOk, readMsg, hlen, hnat]) hfits

end Sys2Proof.Machine
end

section
/-! The messages an admitted session takes from its cell node (O30). -/
namespace Sys2Proof.Machine

/-! ### A new request (R256, R266) -/

/-- What `requestFits` says of a message: it is of the epoch, new, and within the credit. -/
theorem requestFits_iff {t : Txn} {m : CellMsg} : requestFits t m = true ↔ epochFits t m = true ∧
    (1 ≤ (m.tag.toNat + 256 - t.high) % 256 ∧ (m.tag.toNat + 256 - t.high) % 256 ≤ 128) ∧ t.cellReqs % 65536 ≠ t.grant % 65536 := by
  unfold requestFits
  simp only [Bool.and_eq_true, decide_eq_true_eq, bne_iff_ne, and_assoc]

theorem isCopy_of_ahead {t : Txn} {tag : Nat} (h : 1 ≤ (tag + 256 - t.high) % 256 ∧ (tag + 256 - t.high) % 256 ≤ 128) : t.isCopy tag = false := by
  unfold Txn.isCopy
  simp [h]

/-- Device state after which only the cell's transactions differ: rings and time are the same. -/
structure TxnOnly (c : Nat) (d e : Dev) : Prop where
  cell : ∃ t, getCell d c = { getCell e c with txn := t }
  rings : d.lcl.rings = e.lcl.rings
  time : d.time = e.time

theorem TxnOnly.trans {c : Nat} {d e g : Dev} (h : TxnOnly c d e) (h' : TxnOnly c e g) : TxnOnly c d g := by
  obtain ⟨t, ht⟩ := h.cell
  obtain ⟨u, hu⟩ := h'.cell
  exact ⟨⟨t, by rw [ht, hu]⟩, h.rings.trans h'.rings, h.time.trans h'.time⟩

theorem modTxn_txnOnly {c : Nat} (f : Txn → Txn) (d : Dev) (hc : c < 128) : TxnOnly c (modTxn c f d) d :=
  ⟨⟨_, getCell_modTxn_same f d hc⟩, rfl, rfl⟩

theorem TxnOnly.state {c : Nat} {d e : Dev} (h : TxnOnly c d e) : (getCell d c).state = (getCell e c).state := by
  obtain ⟨t, ht⟩ := h.cell
  rw [ht]

/-- A new request within its credit that is legal in the state of its session is executed. -/
theorem rxRequest_new {o : Od} {c k : Nat} {m : LclMsg} {d : Dev} (hc : c < 128)
    (hahead : 1 ≤ (m.tag + 256 - (getCell d c).txn.high) % 256 ∧ (m.tag + 256 - (getCell d c).txn.high) % 256 ≤ 128)
    (hcredit : (getCell d c).txn.cellReqs % 65536 ≠ (getCell d c).txn.grant % 65536) (hlegal : legalFromCell m.mtype (getCell d c).state = true) :
    ∃ e, rxRequest o c k m d = onRequest o c k m e ∧ TxnOnly c e d := by
  unfold rxRequest
  extract_lets t ahead isNew dCopy dError high d1 d2
  have hnew : isNew = true := by simpa [isNew, ahead] using hahead
  have hd2 : d2 = d1 := by simp only [d2, hnew, Bool.true_or, if_true]
  have hd1 : TxnOnly c d1 d := modTxn_txnOnly _ d hc
  rw [isCopy_of_ahead hahead, if_neg Bool.false_ne_true, if_neg (by simpa using hcredit), hd2, hd1.state, if_pos hlegal]
  exact ⟨d1, rfl, hd1⟩

/-- The state in which an accepted request is executed. -/
theorem request_executes {mtype : Nat} {m : CellMsg} {s : State} {f : Flight} (hslot : slotOffered s.od s.dev m = some f) (hkind : m.kind = 1)
    (hok : cellMsgOk true (readMsg mtype m) = true) (hfits : requestFits (getCell s.dev (cellOf m)).txn m = true)
    (hlegal : legalFromCell mtype (getCell s.dev (cellOf m)).state = true) :
    ∃ e, messageRow mtype m s.od s.dev = slotReleased (cellOf m) false (onRequest s.od (cellOf m) f.period (readMsg mtype m) e) ∧
      TxnOnly (cellOf m) e s.dev := by
  have hc := cellOf_lt m
  obtain ⟨hepoch, hahead, hcredit⟩ := requestFits_iff.1 hfits
  have hkind1 : (readMsg mtype m).kind = 1 := by simp [readMsg, hkind]
  have hkept : (getCell s.dev (cellOf m)).txn.discards (readMsg mtype m) = false := by
    have hcopy := isCopy_of_ahead (tag := (readMsg mtype m).tag) hahead
    simpa [Txn.discards, hkind1, hcopy] using hcredit
  have hcred : Credited (cellOf m) (readMsg mtype m) (slotTaken m f s.dev) := credited_of_epochFits hepoch hok hkept
  obtain ⟨t, hheld, hsame⟩ := slotHeld_grantTaken_cell (grant := (readMsg mtype m).grant) (slotTaken m f s.dev) hc
  have hbefore : TxnOnly (cellOf m) (slotHeld (cellOf m) (grantTaken (cellOf m) (readMsg mtype m).grant (slotTaken m f s.dev))) s.dev :=
    ⟨⟨t, hheld⟩, rfl, rfl⟩
  obtain ⟨e, he, hetxn⟩ := rxRequest_new (o := s.od) (k := f.period) (m := readMsg mtype m) hc
    (by rw [hheld, hsame.high]; exact hahead) (by rw [hheld, hsame.cellReqs, hsame.grant]; exact hcredit) (by rw [hheld]; exact hlegal)
  refine ⟨e, ?_, hetxn.trans hbefore⟩
  rw [messageRow_offered hslot, hcred.rxMessage (by rw [hkind1]; decide), if_pos hkind1, he]

/-! ### Responses and control messages queued -/

theorem queueResp_due {c tag mtype : Nat} {body : Bytes} (d : Dev) (hc : c < 128) :
    ∃ x ∈ (getCell (queueResp c tag mtype body d) c).txn.respDue, x.2 = { mtype := mtype, kind := 2, tag := tag, body := body } := by
  unfold queueResp
  dsimp only
  rw [getCell_modTxn_same _ _ hc]
  exact ⟨_, List.mem_append_right _ (List.mem_singleton.2 rfl), rfl⟩

theorem queueResp_state {c tag mtype : Nat} {body : Bytes} (d : Dev) (hc : c < 128) :
    (getCell (queueResp c tag mtype body d) c).state = (getCell d c).state := by
  unfold queueResp
  dsimp only
  rw [getCell_modTxn_same _ _ hc]
  rfl

theorem queueControl_cell {c mtype : Nat} {body : Bytes} (d : Dev) (hc : c < 128) :
    getCell (queueControl c mtype body d) c = { getCell d c with control := (getCell d c).control ++ [{ mtype := mtype, body := body }] } :=
  getCell_modCell_same _ _ hc

/-- A good lock report locks a session in FAWN. -/
theorem lockReport_locks {o : Od} {c k tag : Nat} {body : Bytes} {d : Dev} (hc : c < 128) (hst : (getCell d c).state = .fawn)
    (herr : leAt body 0 2 ≤ lclPar o 6) (hframes : (getCell d c).lockWindow ≤ leAt body 2 2) (hdelay : (getRing d (ringOf c)).delayValid = true)
    (htime : d.time.uncertain = false) : (getCell (lockReport o c k tag body d) c).state = .locked ∧
      ∃ x ∈ (getCell (lockReport o c k tag body d) c).txn.respDue, x.2 = { mtype := 0x04, kind := 2, tag := tag, body := [0] } := by
  unfold lockReport
  extract_lets x maxErr frames res d1 d2
  have hres : res = 0 := by
    simp only [res]
    rw [if_neg (by simp [maxErr, frames, x, herr, hframes]), if_neg (by simp [hdelay]), if_neg (by simp [htime])]
  have hd2 : (getCell d2 c).state = .locked := by
    have hfawn : (x.state == SessState.fawn) = true := by rw [show x.state = .fawn from hst]; rfl
    simp only [d2]
    rw [if_pos hfawn, sessEnter_cell d1 hc]
    rfl
  rw [if_pos hres]
  exact ⟨(queueResp_state d2 hc).trans hd2, queueResp_due d2 hc⟩

theorem slotReleased_due {c : Nat} {b : Bool} {p : Nat × LclMsg → Prop} (d : Dev) (hc : c < 128)
    (h : ∃ x ∈ (getCell d c).txn.respDue, p x) : ∃ x ∈ (getCell (slotReleased c b d) c).txn.respDue, p x := by
  rw [slotReleased_cell _ d hc]
  simp only [(Txn.slotReleased_traffic b (getCell d c).txn).respDue]
  exact h

/-! ### NAK_STATE and CREDIT -/

/-- R229: a NAK_STATE is counted, and ends the wait for an answer. -/
theorem nakReceived_cell {o : Od} {c k : Nat} {m : LclMsg} {d : Dev} (hc : c < 128) :
    (getCell (nakReceived o c k m d) c).nakReceived = satInc (getCell d c).nakReceived ∧
    (getCell (nakReceived o c k m d) c).awaitAnswer = false := by
  unfold nakReceived
  extract_lets x d1 d2 ty st d3
  have hd1 := getCell_setCell_same { x with nakReceived := satInc x.nakReceived, nakReceivedSeen := true, awaitAnswer := false } d hc
  have hd2 : getCell d2 c = getCell d1 c := by
    simp only [d2]
    split
    · rfl
    · exact getCell_record ..
  have hd3 : (getCell d3 c).nakReceived = satInc (getCell d c).nakReceived ∧ (getCell d3 c).awaitAnswer = false := by
    simp only [d3]
    split
    · obtain ⟨t, ht, -⟩ := partnerError_cell (o := o) 9 0x4B m.tag 0 k d2 hc
      rw [ht, hd2, hd1]
      exact ⟨rfl, rfl⟩
    · rw [hd2, hd1]
      exact ⟨rfl, rfl⟩
  split
  · rw [sessEnter_cell d3 hc]
    exact ⟨hd3.1, rfl⟩
  · exact hd3

/-- The end of a reconciliation keeps the grant of the partner and the credit owed. -/
theorem reconcileEnd_credit {o : Od} {c : Nat} {answered : Bool} {d : Dev} (hc : c < 128) :
    (getCell (reconcileEnd o c answered d) c).txn.peerGrant = (getCell d c).txn.peerGrant ∧
    (getCell (reconcileEnd o c answered d) c).txn.creditDue = (getCell d c).txn.creditDue := by
  unfold reconcileEnd
  extract_lets r now
  split
  · exact ⟨rfl, rfl⟩
  · split
    · exact ⟨rfl, rfl⟩
    · extract_lets d1 d2
      have hcell : getCell (reconcileDone o r d2) c = getCell d1 c := reconcileDone_cell ..
      rw [hcell, getCell_modTxn_same _ _ hc]
      exact ⟨rfl, rfl⟩

/-- A CREDIT of the cell node in the epoch: its grant is taken, and an ECHO owes one back. -/
theorem credit_taken {m : CellMsg} {s : State} {f : Flight} (hslot : slotOffered s.od s.dev m = some f) (hkind : m.kind = 3)
    (hok : cellMsgOk true (readMsg 0x4D m) = true) (hfits : epochFits (getCell s.dev (cellOf m)).txn m = true) :
    (getCell (messageRow 0x4D m s.od s.dev) (cellOf m)).txn.peerGrant = m.grant.toNat ∧
    (m.echo = true → (getCell (messageRow 0x4D m s.od s.dev) (cellOf m)).txn.creditDue = true) := by
  have hc := cellOf_lt m
  have hkind3 : (readMsg 0x4D m).kind = 3 := by simp [readMsg, hkind]
  have hcred : Credited (cellOf m) (readMsg 0x4D m) (slotTaken m f s.dev) :=
    credited_of_epochFits hfits hok (by simp [Txn.discards, hkind3])
  rw [messageRow_offered hslot, hcred.rxMessage (by rw [hkind3]; decide), if_neg (by rw [hkind3]; decide), if_neg (by rw [hkind3]; decide)]
  have hback : (getCell (slotBack (cellOf m) (grantTaken (cellOf m) (readMsg 0x4D m).grant (slotTaken m f s.dev))) (cellOf m)).txn.peerGrant =
      m.grant.toNat := by
    rw [slotBack_cell _ hc, grantTaken_cell _ hc]
    unfold Txn.slotBack
    split <;> rfl
  unfold rxCredit
  extract_lets d1
  obtain ⟨hgrant, hdue⟩ := reconcileEnd_credit (o := s.od) (answered := true) (d := d1) hc
  rw [hgrant, hdue]
  have hecho : (readMsg 0x4D m).echo = m.echo := rfl
  cases h : m.echo
  · have hd1 : d1 = slotBack (cellOf m) (grantTaken (cellOf m) (readMsg 0x4D m).grant (slotTaken m f s.dev)) := by
      simp only [d1, hecho, h, Bool.false_eq_true, if_false]
    rw [hd1]
    exact ⟨hback, fun h => absurd h Bool.false_ne_true⟩
  · have hd1 : d1 = modTxn (cellOf m) (fun t => { t with creditDue := true })
        (slotBack (cellOf m) (grantTaken (cellOf m) (readMsg 0x4D m).grant (slotTaken m f s.dev))) := by
      simp only [d1, hecho, h, if_true]
    rw [hd1, getCell_modTxn_same _ _ hc]
    exact ⟨hback, fun _ => rfl⟩

/-! ### The rows -/

/-- A control message that is legal is taken in the state in which its slot has gone back. -/
theorem control_taken {mtype : Nat} {m : CellMsg} {s : State} {f : Flight} (hslot : slotOffered s.od s.dev m = some f) (hkind : m.kind = 0)
    (hok : cellMsgOk (getCell s.dev (cellOf m)).txn.isOpen (readMsg mtype m) = true) :
    ∃ e, messageRow mtype m s.od s.dev = rxControl s.od (ikInForce s.dev) (cellOf m) f.period (readMsg mtype m) e ∧ TxnOnly (cellOf m) e s.dev := by
  have hkind0 : (readMsg mtype m).kind = 0 := by simp [readMsg, hkind]
  refine ⟨_, ?_, ⟨_, slotBack_cell (slotTaken m f s.dev) (cellOf_lt m)⟩, rfl, rfl⟩
  rw [messageRow_offered hslot]
  exact rxMessage_control hkind0 hok

theorem slotReleased_control {c : Nat} {b : Bool} (d : Dev) (hc : c < 128) : (getCell (slotReleased c b d) c).control = (getCell d c).control := by
  rw [slotReleased_cell _ d hc]

/-- Settles O30: requests, control messages and credit, each by the course its message takes. -/
theorem sessionsTakeMessages : Obligations.SessionsTakeMessages := by
  unfold Obligations.SessionsTakeMessages
  refine ⟨fun m s f => ?_, fun m s f => ?_, fun m s f => ?_, fun m s f => ?_, fun m s f => ?_, fun m s f => ?_⟩
  · intro c hslot hkind hlen hfits hst herr hframes hdelay htime
    have hc : c < 128 := cellOf_lt m
    obtain ⟨e, hrow, hetxn⟩ := request_executes (mtype := 0x43) hslot hkind (by simp [cellMsgOk, readMsg, hlen, hkind]) hfits
      (by rw [show (getCell s.dev (cellOf m)).state = .fawn from hst]; rfl)
    obtain ⟨t, ht⟩ := hetxn.cell
    have hring : ringOf c = m.ring.val := by
      have := m.position.isLt
      simp only [ringOf, c, cellOf]
      omega
    obtain ⟨hstate, hdue⟩ := lockReport_locks (o := s.od) (c := c) (k := f.period) (tag := m.tag.toNat) (body := m.body) (d := e) hc
      (hetxn.state.trans hst) herr (by rw [ht]; exact hframes)
      (by rw [hring, getRing, hetxn.rings]; exact hdelay) (by rw [hetxn.time]; exact htime)
    refine completes_drives (f := messageRow 0x43 m) rfl ?_
    dsimp only
    rw [hrow]
    refine ⟨?_, slotReleased_due _ hc hdue, rfl⟩
    rw [slotReleased_cell _ _ hc]
    exact hstate
  · intro c hslot hkind hlen hfits hlegal
    have hc : c < 128 := cellOf_lt m
    obtain ⟨e, hrow, -⟩ := request_executes (mtype := 0x4C) hslot hkind (by simp [cellMsgOk, readMsg, hlen, hkind]) hfits hlegal
    refine completes_drives (f := messageRow 0x4C m) rfl ⟨?_, rfl⟩
    dsimp only
    rw [hrow]
    exact slotReleased_due _ hc (queueResp_due _ hc)
  · intro c hslot hkind hlen hfits hlegal
    have hc : c < 128 := cellOf_lt m
    obtain ⟨e, hrow, -⟩ := request_executes (mtype := 0x48) hslot hkind (by simp [cellMsgOk, readMsg, hlen, hkind]) hfits hlegal
    refine completes_drives (f := messageRow 0x48 m) rfl ⟨?_, rfl⟩
    dsimp only
    rw [hrow, slotReleased_control _ hc]
    exact (congrArg (fun x : Cell => x.control.getLast?) (queueControl_cell (mtype := 0x0A) (body := [0x10]) e hc)).trans
      List.getLast?_concat
  · intro c hslot hkind hlen hopen hlegal
    have hc : c < 128 := cellOf_lt m
    obtain ⟨e, hrow, hetxn⟩ := control_taken (mtype := 0x48) hslot hkind
      (by rw [show (getCell s.dev (cellOf m)).txn.isOpen = false from hopen]; simp [cellMsgOk, readMsg, hlen, hkind])
    have hcontrol : rxControl s.od (ikInForce s.dev) c f.period (readMsg 0x48 m) e = queueControl c 0x0A [0x10] e := by
      unfold rxControl
      simp [readMsg, hetxn.state, hlegal, c, onRequest]
    refine completes_drives (f := messageRow 0x48 m) rfl ⟨?_, rfl⟩
    dsimp only
    rw [hrow, hcontrol]
    exact (congrArg (fun x : Cell => x.control.getLast?) (queueControl_cell (mtype := 0x0A) (body := [0x10]) e hc)).trans
      List.getLast?_concat
  · intro c hslot hkind hlen
    have hc : c < 128 := cellOf_lt m
    obtain ⟨e, hrow, hetxn⟩ := control_taken (mtype := 0x4B) hslot hkind (by simp [cellMsgOk, readMsg, hlen, hkind])
    obtain ⟨t, ht⟩ := hetxn.cell
    obtain ⟨hcount, hwait⟩ := nakReceived_cell (o := s.od) (k := f.period) (m := readMsg 0x4B m) (d := e) hc
    refine completes_drives (f := messageRow 0x4B m) rfl ?_
    dsimp only
    rw [hrow]
    refine ⟨hcount.trans (by rw [ht]), hwait, rfl⟩
  · intro c hslot hkind hlen hlow hhigh hfits
    obtain ⟨hgrant, hdue⟩ := credit_taken hslot hkind (by simp [cellMsgOk, readMsg, hlen, hkind, hlow, hhigh]) hfits
    exact completes_drives (f := messageRow 0x4D m) rfl ⟨hgrant, hdue, rfl⟩

end Sys2Proof.Machine
end

section
/-! The admission of a cell (O29). -/
namespace Sys2Proof.Machine

/-! ### Discovery (R231) -/

/-- A cell whose discovery has been queued. -/
def Discovered (c : Nat) (d : Dev) : Prop :=
  (getCell d c).state = .discover ∧ ((getCell d c).control.head?.map (·.mtype)) = some 0x01 ∧ (getCell d c).backoffFrom = none

/-- A cell that is absent and may be discovered. -/
def Discoverable (c : Nat) (d : Dev) : Prop := (getCell d c).state = .absent ∧ (getCell d c).backoffFrom = none

theorem discoverCell_other {r n k b c : Nat} {o : Od} (d : Dev) (h : b ≠ c) : getCell (discoverCell r n k b o d) c = getCell d c := by
  unfold discoverCell
  extract_lets x body
  split
  · rfl
  · split
    · exact (getCell_modCell_other _ _ h).trans (sessEnter_other d h)
    · split
      · rfl
      · exact getCell_modCell_other _ _ h
    · rfl

theorem discoverCell_course (r n k c : Nat) (o : Od) (d : Dev) (q : Nat) : ringCourse q (discoverCell r n k c o d) = ringCourse q d := by
  unfold discoverCell
  extract_lets x body
  split
  · rfl
  · split
    · exact (modCell_course ..).trans (sessEnter_course ..)
    · split
      · rfl
      · exact modCell_course ..
    · rfl

theorem discoverCell_discovers {r n k c : Nat} {o : Od} {d : Dev} (hc : c < 128) (h : Discoverable c d) :
    Discovered c (discoverCell r n k c o d) := by
  obtain ⟨hst, hback⟩ := h
  unfold discoverCell
  dsimp only
  rw [if_neg (by simp [hback]), hst]
  dsimp only
  rw [Discovered, queueControl_cell _ hc, sessEnter_cell d hc]
  exact ⟨rfl, by simp [Cell.enters, SessState.awaitsResync, SessState.code], hback⟩

theorem discoverCell_keeps {r n k b c : Nat} {o : Od} {d : Dev} (h : Discovered c d) : Discovered c (discoverCell r n k b o d) := by
  by_cases hb : b = c
  · subst hb
    obtain ⟨hst, hhead, hback⟩ := h
    have hany : (getCell d b).control.any (·.mtype == 0x01) = true := by
      obtain ⟨q, hq, hty⟩ := Option.map_eq_some_iff.1 hhead
      exact List.any_eq_true.2 ⟨q, List.mem_of_head? hq, by simp [hty]⟩
    unfold discoverCell
    simp only [hback, hst, hany, if_true, Option.isSome_none, Bool.false_eq_true, if_false]
    exact ⟨hst, hhead, hback⟩
  · rwa [Discovered, discoverCell_other d hb]

/-- What a discovery interval does with one ring. -/
def discoverRing (o : Od) (k r : Nat) (d : Dev) : Dev :=
  if ringActive d r then forEach (ringCellList o r) (fun c d => discoverCell r (ringCells o r) k c o d) d else d

theorem discoverRing_keeps {o : Od} {k r c : Nat} {d : Dev} (h : Discovered c d) : Discovered c (discoverRing o k r d) := by
  unfold discoverRing
  split
  · exact forEach_keeps (fun b _ e he => discoverCell_keeps he) h
  · exact h

/-- A cell that may be discovered on an active ring. -/
def Waiting (r c : Nat) (d : Dev) : Prop := Discoverable c d ∧ ringActive d r = true

theorem ringActive_of_course {d e : Dev} {r : Nat} (h : ringCourse r d = ringCourse r e) : ringActive d r = ringActive e r := by
  simp only [ringCourse, Ring.course, Prod.mk.injEq] at h
  exact h.2.1

theorem discoverCell_waiting {q n k b r c : Nat} {o : Od} {d : Dev} (hb : b ≠ c) (h : Waiting r c d) : Waiting r c (discoverCell q n k b o d) := by
  obtain ⟨hcell, hring⟩ := h
  exact ⟨by rwa [Discoverable, discoverCell_other d hb], (ringActive_of_course (discoverCell_course ..)).trans hring⟩

theorem discoverRing_waiting {o : Od} {k q r c : Nat} {d : Dev} (hq : c ∉ ringCellList o q) (h : Waiting r c d) :
    Waiting r c (discoverRing o k q d) := by
  unfold discoverRing
  split
  · exact forEach_keeps (fun b hb e he => discoverCell_waiting (fun hbc => hq (hbc ▸ hb)) he) h
  · exact h

theorem discoverRing_discovers {o : Od} {k r c : Nat} {d : Dev} (hc : c < 128) (hl : c ∈ ringCellList o r) (h : Waiting r c d) :
    Discovered c (discoverRing o k r d) := by
  unfold discoverRing
  rw [if_pos h.2]
  refine forEach_establishes (P := fun e => Discoverable c e ∨ Discovered c e) hl (fun b e he => ?_) (fun b e => discoverCell_keeps)
    (fun e he => he.elim (discoverCell_discovers hc) discoverCell_keeps) (Or.inl h.1)
  rcases he with he | he
  · by_cases hb : b = c
    · subst hb
      exact Or.inr (discoverCell_discovers hc he)
    · exact Or.inl (by rwa [Discoverable, discoverCell_other e hb])
  · exact Or.inr (discoverCell_keeps he)

/-- A cell of one ring is in no other ring's list, where no ring has more than 16 positions. -/
theorem not_mem_ringCellList {o : Od} {q r p : Nat} (hq : ringCells o q ≤ 16) (hp : p < 16) (hqr : q ≠ r) : 16 * r + p ∉ ringCellList o q := by
  simp only [ringCellList, List.mem_map, List.mem_range, not_exists, not_and]
  intro j hj
  omega

theorem discoverRings_discovers {o : Od} {r p : Nat} {d : Dev} (hlink : d.isOn .link = true) (hrun : d.sched.running = true)
    (hk : d.sched.count % max 1 (lclPar o 1) = 0) (hactive : ringActive d r = true) (hr : r < 8) (hp : p < ringCells o r)
    (hsmall : ∀ q : Fin 8, ringCells o q.val ≤ 16) (hcell : Discoverable (16 * r + p) d) : Discovered (16 * r + p) (discoverRings o d) := by
  have hp16 : p < 16 := lt_of_lt_of_le hp (hsmall ⟨r, hr⟩)
  unfold discoverRings
  dsimp only
  rw [if_neg (by simp [hlink, hrun, hk])]
  have hl : 16 * r + p ∈ ringCellList o r := List.mem_map.2 ⟨p, List.mem_range.2 hp, rfl⟩
  have hother (q : Nat) (hq : q ≠ r) : 16 * r + p ∉ ringCellList o q := by
    by_cases hq8 : q < 8
    · exact not_mem_ringCellList (hsmall ⟨q, hq8⟩) hp16 hq
    · simp only [ringCellList, List.mem_map, List.mem_range, not_exists, not_and]
      intro j _
      omega
  refine forEach_establishes (f := discoverRing o d.sched.count) (P := fun e => Waiting r (16 * r + p) e ∨ Discovered (16 * r + p) e)
    (List.mem_range.2 hr) (fun q e he => ?_) (fun q e => discoverRing_keeps)
    (fun e he => he.elim (discoverRing_discovers (by omega) hl) discoverRing_keeps) (Or.inl ⟨hcell, hactive⟩)
  rcases he with he | he
  · by_cases hq : q = r
    · subst hq
      exact Or.inr (discoverRing_discovers (by omega) hl he)
    · exact Or.inl (discoverRing_waiting (hother q hq) he)
  · exact Or.inr (discoverRing_keeps he)

/-! ### HELLO and CHALLENGE_RESP (R232, R233) -/

/-- The check of a HELLO looks at the states and identities of the cells, and at the keys. -/
theorem helloRefusal_of_same {o : Od} {ik : Option Bytes} {c : Nat} {b : Bytes} {d e : Dev} (hsec : d.sec = e.sec)
    (hcells : ∀ q, (getCell d q).state = (getCell e q).state ∧ (getCell d q).id = (getCell e q).id) :
    helloRefusal o ik c b d = helloRefusal o ik c b e := by
  have hany : ((List.range 128).any fun q => q != c && 2 ≤ (getCell d q).state.code && (getCell d q).id == slice b 0 16) =
      (List.range 128).any fun q => q != c && 2 ≤ (getCell e q).state.code && (getCell e q).id == slice b 0 16 := by
    congr 1
    funext q
    rw [(hcells q).1, (hcells q).2]
  unfold helloRefusal
  simp only [hany, hsec]

theorem onHello_admits {o : Od} {ik : Option Bytes} {c k : Nat} {b : Bytes} {d : Dev} (hc : c < 128) (h : helloRefusal o ik c b d = none) :
    (getCell (onHello o ik c k b d) c).state = .admitting ∧ (getCell (onHello o ik c k b d) c).id = slice b 0 16 ∧
    ((getCell (onHello o ik c k b d) c).control.map (·.mtype)) = [0x02] := by
  unfold onHello
  rw [h]
  extract_lets caps pool d1 nonce d2 d3
  have hd1 : (getCell d1 c).state = .admitting ∧ (getCell d1 c).control = [] := by
    rw [sessEnter_cell d hc]
    exact ⟨rfl, by simp [Cell.enters, SessState.awaitsResync, SessState.code]⟩
  have hd2 : (getCell d2 c).state = .admitting ∧ (getCell d2 c).id = slice b 0 16 ∧ (getCell d2 c).control = [] := by
    rw [getCell_modCell_same _ _ hc]
    exact ⟨hd1.1, rfl, hd1.2⟩
  have hd3 : (getCell d3 c).state = .admitting ∧ (getCell d3 c).id = slice b 0 16 ∧ (getCell d3 c).control = [] := by
    simp only [d3]
    split
    · obtain ⟨t, ht, -⟩ := partnerError_cell (o := o) 7 0x41 0 0 k d2 hc
      rw [ht]
      exact hd2
    · exact hd2
  obtain ⟨hst, hid, hcontrol⟩ := hd3
  rw [queueControl_cell d3 hc]
  exact ⟨hst, hid, by simp [hcontrol]⟩

theorem onChallengeResp_accepts {o : Od} {c k : Nat} {b : Bytes} {d : Dev} (hc : c < 128)
    (hnew : (getCell d c).control.any (·.mtype == 0x03) = false) (htime : ∀ w, (getCell d c).waitSince = some w → k ≤ w + lclPar o 2)
    (hkeys : d.sec.keysHidden = false) (hmac : b = macC (admissionKey d c) c (getCell d c)) :
    (getCell (onChallengeResp o c k b d) c).state = (getCell d c).state ∧ (getCell (onChallengeResp o c k b d) c).waitSince = none ∧
    ((getCell (onChallengeResp o c k b d) c).control.getLast?.map (·.mtype)) = some 0x03 := by
  unfold onChallengeResp
  simp only [hnew, hkeys, hmac, bne_self_eq_false, Bool.false_eq_true, if_false]
  rw [if_neg]
  · rw [queueControl_cell _ hc, getCell_modCell_same _ _ hc]
    exact ⟨rfl, rfl, by simp⟩
  · split
    next w hw => simpa using htime w hw
    next => exact Bool.false_ne_true

/-! ### Failures of admission (R234) -/

theorem admitFail_cell {o : Od} {c reason k : Nat} {id : Bytes} {d : Dev} (hc : c < 128) (hst : (getCell d c).state ≠ .discover) :
    (getCell (admitFail o c reason k id d) c).state = .discover ∧ (getCell (admitFail o c reason k id d) c).reason = 0x12 ∧
    (getCell (admitFail o c reason k id d) c).admitFails = satInc (getCell d c).admitFails := by
  unfold admitFail
  extract_lets x n back d1 d2
  have hd2 : (getCell d2 c).admitFails = satInc (getCell d c).admitFails := by
    simp only [d2, d1]
    rw [getCell_record, getCell_setCell_same _ _ hc]
  rw [if_neg (by simpa using hst), sessEnter_cell d2 hc]
  exact ⟨rfl, rfl, hd2⟩

/-! ### The rows -/

/-- The instant the row of the end of a backoff waits for. -/
def backoffDue (c : Nat) (o : Od) (d : Dev) : Option Instant := (getCell d c).backoffFrom.map (fun t => .device (t + msT (lclPar o 4)))

/-- A control message is taken in the state in which its slot is taken and has gone back. -/
theorem control_slot {mtype : Nat} {m : CellMsg} {s : State} {f : Flight} (hslot : slotOffered s.od s.dev m = some f) (hkind : m.kind = 0)
    (hok : cellMsgOk (getCell s.dev (cellOf m)).txn.isOpen (readMsg mtype m) = true) :
    messageRow mtype m s.od s.dev = rxControl s.od (ikInForce s.dev) (cellOf m) f.period (readMsg mtype m) (slotBack (cellOf m) (slotTaken m f s.dev)) := by
  have hkind0 : (readMsg mtype m).kind = 0 := by simp [readMsg, hkind]
  rw [messageRow_offered hslot]
  exact rxMessage_control hkind0 hok

/-- A slot that goes back changes nothing of any cell but its transactions. -/
theorem slotBack_cells {c : Nat} (m : CellMsg) (f : Flight) (d : Dev) (hc : c < 128) (q : Nat) :
    ∃ t, getCell (slotBack c (slotTaken m f d)) q = { getCell d q with txn := t } := by
  by_cases hq : c = q
  · subst hq
    exact ⟨_, slotBack_cell (slotTaken m f d) hc⟩
  · exact ⟨(getCell d q).txn, getCell_modCell_other _ _ hq⟩

/-- Settles O29: discovery, the two messages of an admission, and its failures. -/
theorem admissionProceeds : Obligations.AdmissionProceeds := by
  unfold Obligations.AdmissionProceeds
  refine ⟨fun s r p => ?_, fun m s f => ?_, fun m s f => ?_, fun c s w hwait hover hst => ?_, fun c s hback hcount => ?_⟩
  · intro c hlink hrun hk hactive hp hsmall hst hback
    obtain ⟨hstate, hhead, -⟩ := discoverRings_discovers hlink hrun hk hactive r.isLt hp hsmall ⟨hst, hback⟩
    exact completes_drives (f := discoverRings) rfl ⟨hstate, hhead, rfl⟩
  · intro c hslot hkind hlen hst hrefusal
    have hc : c < 128 := cellOf_lt m
    have hcells (q : Nat) : (getCell (slotBack c (slotTaken m f s.dev)) q).state = (getCell s.dev q).state ∧
        (getCell (slotBack c (slotTaken m f s.dev)) q).id = (getCell s.dev q).id := by
      obtain ⟨t, ht⟩ := slotBack_cells m f s.dev hc q
      rw [ht]
      exact ⟨rfl, rfl⟩
    have hhello : messageRow 0x41 m s.od s.dev = onHello s.od (ikInForce s.dev) c f.period m.body (slotBack c (slotTaken m f s.dev)) := by
      rw [control_slot hslot hkind (by simp [cellMsgOk, readMsg, hlen, hkind])]
      unfold rxControl
      simp [readMsg, (hcells c).1, hst, c, legalFromCell]
    obtain ⟨hstate, hid, hmsg⟩ := onHello_admits (o := s.od) (ik := ikInForce s.dev) (k := f.period) (b := m.body)
      (d := slotBack c (slotTaken m f s.dev)) hc
      ((helloRefusal_of_same (d := slotBack c (slotTaken m f s.dev)) (e := s.dev) rfl hcells).trans hrefusal)
    refine completes_drives (f := messageRow 0x41 m) rfl ?_
    dsimp only
    rw [hhello]
    exact ⟨hstate, hid, hmsg, rfl⟩
  · intro c hslot hkind hlen hst hnew htime hkeys hmac
    have hc : c < 128 := cellOf_lt m
    obtain ⟨t, ht⟩ := slotBack_cells m f s.dev hc c
    have hrow : messageRow 0x42 m s.od s.dev = onChallengeResp s.od c f.period m.body (slotBack c (slotTaken m f s.dev)) := by
      rw [control_slot hslot hkind (by simp [cellMsgOk, readMsg, hlen, hkind])]
      unfold rxControl
      simp [readMsg, ht, hst, c, legalFromCell]
    have hkey : admissionKey (slotBack c (slotTaken m f s.dev)) c = admissionKey s.dev c := by
      unfold admissionKey
      rw [ht]
      rfl
    obtain ⟨hstate, hwait, hmsg⟩ := onChallengeResp_accepts (o := s.od) (k := f.period) (b := m.body) (d := slotBack c (slotTaken m f s.dev)) hc
      (by rw [ht]; exact hnew) (by rw [ht]; exact htime) hkeys (by rw [hkey, ht]; exact hmac)
    refine completes_drives (f := messageRow 0x42 m) rfl ?_
    dsimp only
    rw [hrow]
    exact ⟨hstate.trans (by rw [ht]; exact hst), hwait, hmsg, rfl⟩
  · obtain ⟨hstate, hreason, hfails⟩ := admitFail_cell (o := s.od) (reason := 1) (k := s.dev.sched.count - 1) (id := (getCell s.dev c.val).id)
      (d := s.dev) c.isLt (by rcases hst with h | ⟨h, -⟩ <;> simp [h])
    have hwaiting : ((getCell s.dev c.val).state == .admitting || ((getCell s.dev c.val).state == .fawn && (getCell s.dev c.val).fawnUnseen)) =
        true := by
      rcases hst with h | ⟨h, hunseen⟩
      · simp [h]
      · simp [h, hunseen]
    have hrow : admitTimeout c.val s.od s.dev = admitFail s.od c.val 1 (s.dev.sched.count - 1) (getCell s.dev c.val).id s.dev := by
      unfold admitTimeout
      simp only [hwait, hwaiting, hover, decide_true, Bool.and_self, if_true]
    refine completes_drives (f := admitTimeout c.val) rfl ?_
    dsimp only
    rw [hrow]
    exact ⟨hstate, hreason, hfails, rfl⟩
  · obtain ⟨t, ht⟩ := Option.isSome_iff_exists.1 hback
    have hl : (s.upTo (backoffDue c.val)).dev.lcl = s.dev.lcl := upTo_lcl ..
    have hdt : t + msT (lclPar s.od 4) ≤ (s.upTo (backoffDue c.val)).dev.clk.dt := le_dt_upTo (by rw [backoffDue, ht]; rfl) hcount
    refine completes_timed (due := backoffDue c.val) (f := backoffEnd c.val) rfl ?_
    have hrow : backoffEnd c.val s.od (s.upTo (backoffDue c.val)).dev =
        modCell c.val (fun x => { x with backoffFrom := none, fails := 0 }) (s.upTo (backoffDue c.val)).dev := by
      unfold backoffEnd
      simp only [getCell_of_lcl hl, ht, hdt, if_true]
    dsimp only
    rw [hrow, getCell_modCell_same _ _ c.isLt]
    exact ⟨rfl, rfl, rfl⟩

end Sys2Proof.Machine
end

section
/-! The safety island: demands, comparisons, test pulses, Safe Stop 1 and the check value (O53). -/
namespace Sys2Proof.Machine

/-! ### What a demand changes of the island (R476, R478) -/

/-- The island without its pairs and speed monitors. -/
def Island.rest (i : Island) : Island := { i with pairs := Vector.replicate 4 {}, speed := Vector.replicate 4 {} }

theorem record_isl (o : Od) (code source : Nat) (data : Bytes) (d : Dev) : (record o code source data d).isl = d.isl :=
  record_leaves (p := .isl) (by decide) ..

theorem pronghorn_isl (o : Od) (d : Dev) : (pronghorn o d).isl = d.isl := pronghorn_leaves (p := .isl) (by decide) ..

theorem axisSto_isl (o : Od) (n : Nat) (d : Dev) : (axisSto o n d).isl = d.isl := axisSto_leaves (p := .isl) (by decide) ..

theorem onPair_rest (n : Nat) (f : StoPair → StoPair) (d : Dev) : (onPair n f d).isl.rest = d.isl.rest := rfl

theorem onPair_speed (n : Nat) (f : StoPair → StoPair) (d : Dev) : (onPair n f d).isl.speed = d.isl.speed := rfl

theorem ss1End_rest (o : Od) (n how : Nat) (d : Dev) : (ss1End o n how d).isl.rest = d.isl.rest := by
  unfold ss1End
  dsimp only
  split
  · rfl
  · rw [record_isl]
    rfl

/-- The end of SS1 leaves the axis without one. -/
theorem ss1End_ends {o : Od} {n how : Nat} {d : Dev} (hn : n < 4) : (vget (ss1End o n how d).isl.speed n).ss1 = none := by
  unfold ss1End
  dsimp only
  split
  next h => exact h
  · rw [record_isl]
    exact congrArg SpeedMon.ss1 (vget_vset_same _ _ _ hn)

/-- The last steps of a demand, which act beside the island. -/
theorem demandTail_isl (o : Od) (l : List Nat) (d : Dev) : (pronghorn o (forEach l (fun n => axisSto o n) d)).isl = d.isl :=
  (pronghorn_isl ..).trans (forEach_eq Dev.isl d fun n e => axisSto_isl o n e)

theorem stoDemand_rest (o : Od) (cause mask : Nat) (d : Dev) : (stoDemand o cause mask d).isl.rest = d.isl.rest := by
  unfold stoDemand
  extract_lets ns t hit discarded d1 d2 d3
  have hd1 : d1.isl.rest = d.isl.rest := forEach_eq (fun e => e.isl.rest) d fun n e => onPair_rest ..
  have hd2 : d2.isl.rest = d.isl.rest := (congrArg Island.rest (record_isl ..)).trans hd1
  have hd3 : d3.isl.rest = d.isl.rest := by
    simp only [d3]
    split
    · exact hd2
    · exact (forEach_eq (fun e => e.isl.rest) d2 fun n e => ss1End_rest ..).trans hd2
  split
  · rfl
  · exact (congrArg Island.rest (demandTail_isl ..)).trans hd3

/-- A demand of cause 0x02 or 0x03 comes from the speed monitors, and leaves them. -/
theorem stoDemand_speed {o : Od} {cause mask : Nat} {d : Dev} (h : cause = 2 ∨ cause = 3) : (stoDemand o cause mask d).isl.speed = d.isl.speed := by
  unfold stoDemand
  extract_lets ns t hit discarded d1 d2 d3
  have hd1 : d1.isl.speed = d.isl.speed := forEach_eq (fun e => e.isl.speed) d fun n e => onPair_speed ..
  have hd3 : d3.isl.speed = d.isl.speed := by
    simp only [d3]
    rw [if_pos h]
    exact (congrArg Island.speed (record_isl ..)).trans hd1
  split
  · rfl
  · exact (congrArg Island.speed (demandTail_isl ..)).trans hd3

/-- A pair in state `st` with both outputs low. -/
def StoPair.LowIn (st : StoState) (p : StoPair) : Prop := p.state = st ∧ p.a.level = false ∧ p.b.level = false

/-- The state that a demand leaves a pair in. -/
def StoState.demanded (st : StoState) : StoState := if st == .permit then .off else st

theorem demanded_ne_permit (st : StoState) : st.demanded ≠ .permit := by cases st <;> decide

theorem demanded_idem (st : StoState) : st.demanded.demanded = st.demanded := by cases st <;> rfl

/-- Changes of pairs one after another, each of which lowers its pair. -/
theorem forEach_lowers {f : Nat → StoPair → StoPair} (hf : ∀ n p, (f n p).LowIn p.state.demanded) {l : List Nat} {n : Nat} (hn : n < 4) (hl : n ∈ l)
    (d : Dev) : (vget (forEach l (fun n => onPair n (f n)) d).isl.pairs n).LowIn (vget d.isl.pairs n).state.demanded := by
  have hlow (m : Nat) (e : Dev) (h : (vget e.isl.pairs n).LowIn (vget d.isl.pairs n).state.demanded) :
      (vget (onPair m (f m) e).isl.pairs n).LowIn (vget d.isl.pairs n).state.demanded :=
    vget_vmod_keeps (P := fun p : StoPair => p.LowIn (vget d.isl.pairs n).state.demanded) _ _ _ _
      (fun hp => by have := hf m (vget e.isl.pairs m); rwa [hp.1, demanded_idem] at this) h
  have hown (e : Dev) (h : vget e.isl.pairs n = vget d.isl.pairs n) :
      (vget (onPair n (f n) e).isl.pairs n).LowIn (vget d.isl.pairs n).state.demanded := by
    rw [onPair_isl, vget_vmod_same _ _ _ hn, h]
    exact hf n _
  refine forEach_establishes (P := fun e => vget e.isl.pairs n = vget d.isl.pairs n ∨
      (vget e.isl.pairs n).LowIn (vget d.isl.pairs n).state.demanded) hl (fun m e he => ?_) hlow (fun e he => he.elim (hown e) (hlow n e)) (Or.inl rfl)
  rcases he with he | he
  · by_cases hm : m = n
    · subst hm
      exact Or.inr (hown e he)
    · exact Or.inl ((vget_vmod_other _ _ hm).trans he)
  · exact Or.inr (hlow m e he)

/-- A demand lowers each enabled pair that it names, and takes it out of PERMIT. -/
theorem stoDemand_lowers {o : Od} {cause mask n : Nat} {d : Dev} (hn : n < 4) (hmask : mask.testBit n = true) (hen : pairEnabled o n = true) :
    (vget (stoDemand o cause mask d).isl.pairs n).LowIn (vget d.isl.pairs n).state.demanded := by
  have hmem : n ∈ (setBits 4 mask).filter (pairEnabled o) := List.mem_filter.2 ⟨(mem_setBits _ _ _).2 ⟨hn, hmask⟩, hen⟩
  unfold stoDemand
  extract_lets ns t hit discarded d1 d2 d3
  have hd1 : (vget d1.isl.pairs n).LowIn (vget d.isl.pairs n).state.demanded :=
    forEach_lowers (fun m p => ⟨rfl, drive_level .., drive_level ..⟩) hn hmem d
  have hd3 : d3.isl.pairs = d1.isl.pairs := by
    have hd2 : d2.isl.pairs = d1.isl.pairs := congrArg Island.pairs (record_isl ..)
    simp only [d3]
    split
    · exact hd2
    · exact (forEach_ss1End_pairs ..).trans hd2
  rw [if_neg (fun h => List.ne_nil_of_mem hmem (List.isEmpty_iff.1 h)), demandTail_isl, hd3]
  exact hd1

/-- A demand leaves the pairs that it does not name. -/
theorem stoDemand_other {o : Od} {cause n m : Nat} {d : Dev} (h : m ≠ n) :
    vget (stoDemand o cause (2 ^ m) d).isl.pairs n = vget d.isl.pairs n := by
  unfold stoDemand
  extract_lets ns t hit discarded d1 d2 d3
  have hnot : n ∉ ns := fun hin => by
    have hbit := ((mem_setBits _ _ _).1 (List.mem_filter.1 hin).1).2
    rw [Nat.testBit_two_pow] at hbit
    exact h (by simpa using hbit)
  have hd1 : vget d1.isl.pairs n = vget d.isl.pairs n :=
    forEach_keeps (P := fun e => vget e.isl.pairs n = vget d.isl.pairs n)
      (fun k hk e he => (vget_vmod_other _ _ (ne_of_mem_of_not_mem hk hnot)).trans he) rfl
  have hd3 : d3.isl.pairs = d1.isl.pairs := by
    have hd2 : d2.isl.pairs = d1.isl.pairs := congrArg Island.pairs (record_isl ..)
    simp only [d3]
    split
    · exact hd2
    · exact (forEach_ss1End_pairs ..).trans hd2
  split
  · rfl
  · rw [demandTail_isl, hd3]
    exact hd1

/-! ### Comparisons (R475, R477) -/

/-- The third unequal comparison of a pair's output A, or one within a test pulse, is due. -/
def UnequalA (o : Od) (fbA n run : Nat) (p : StoPair) : Prop := p.a.changed + fbDelay o ≤ run ∧ fbA.testBit n ≠ p.a.level ∧ p.a.unequal = 2

theorem compareOut_third {o : Od} {t : Nat} {fb : Bool} {x : StoOut} (ht : x.changed + fbDelay o ≤ t) (hfb : fb ≠ x.level) (hun : x.unequal = 2) :
    (compareOut o t fb x).2 = true := by
  unfold compareOut
  rw [if_neg (by omega), if_neg (by simpa using hfb)]
  simp [hun]

/-- A pair that its feedback faults is in FAULT with both outputs low. -/
theorem pairFault_lowers {o : Od} {n : Nat} {isB fb : Bool} {d : Dev} (hn : n < 4) (hen : pairEnabled o n = true)
    (hst : (vget d.isl.pairs n).state ≠ .fault) : (vget (pairFault o n isB fb d).isl.pairs n).LowIn .fault := by
  unfold pairFault
  extract_lets p x kind d1
  have hd1 : (vget d1.isl.pairs n).state = .fault := by
    refine (congrArg (fun i : Island => (vget i.pairs n).state) (record_isl ..)).trans ?_
    exact congrArg StoPair.state (vget_vmod_same _ _ _ hn)
  have hlow := stoDemand_lowers (o := o) (cause := 7) (d := d1) hn (Nat.testBit_two_pow_self (n := n)) hen
  rw [hd1] at hlow
  rw [if_neg (by simpa using hst)]
  exact hlow

theorem pairFault_other {o : Od} {n m : Nat} {isB fb : Bool} {d : Dev} (h : m ≠ n) :
    vget (pairFault o m isB fb d).isl.pairs n = vget d.isl.pairs n := by
  unfold pairFault
  extract_lets p x kind d1
  split
  · rfl
  · refine (stoDemand_other h).trans ?_
    exact (congrArg (fun i : Island => vget i.pairs n) (record_isl ..)).trans (vget_vmod_other _ _ h)

/-- What the comparison does with one pair. -/
def compareStep (o : Od) (fbA fbB n : Nat) (d : Dev) : Dev :=
  let p := vget d.isl.pairs n
  let t := d.clk.run
  let (a1, fa) := compareOut o t (fbA.testBit n) p.a
  let (b1, fb) := compareOut o t (fbB.testBit n) p.b
  let d1 := onPair n (fun p => { p with a := a1, b := b1 }) d
  if fa then pairFault o n false (fbA.testBit n) d1
  else if fb then pairFault o n true (fbB.testBit n) d1
  else
    let (a2, pa) := judgePulse o t a1
    let (b2, pb) := judgePulse o t b1
    onPair n (fun p => { p with
      a := a2, b := b2, passed := (p.passed + (if pa then 1 else 0) + (if pb then 1 else 0)) % 2 ^ 32 }) d1

theorem compareStep_other {o : Od} {fbA fbB m n : Nat} {d : Dev} (h : m ≠ n) :
    vget (compareStep o fbA fbB m d).isl.pairs n = vget d.isl.pairs n := by
  unfold compareStep
  dsimp only
  split
  · exact (pairFault_other h).trans (vget_vmod_other _ _ h)
  · split
    · exact (pairFault_other h).trans (vget_vmod_other _ _ h)
    · exact (vget_vmod_other _ _ h).trans (vget_vmod_other _ _ h)

theorem compareStep_clk (o : Od) (fbA fbB m : Nat) (d : Dev) : (compareStep o fbA fbB m d).clk = d.clk := by
  unfold compareStep
  dsimp only
  split
  · exact pairFault_leaves (p := .clk) (by decide) ..
  · split
    · exact pairFault_leaves (p := .clk) (by decide) ..
    · rfl

theorem compareStep_faults {o : Od} {fbA fbB n : Nat} {d : Dev} (hn : n < 4) (hen : pairEnabled o n = true)
    (hun : UnequalA o fbA n d.clk.run (vget d.isl.pairs n)) (hst : (vget d.isl.pairs n).state ≠ .fault) :
    (vget (compareStep o fbA fbB n d).isl.pairs n).LowIn .fault := by
  obtain ⟨ht, hfb, hthird⟩ := hun
  unfold compareStep
  dsimp only
  rw [if_pos (compareOut_third ht hfb hthird)]
  refine pairFault_lowers hn hen ?_
  rw [onPair_isl, vget_vmod_same _ _ _ hn]
  exact hst

theorem feedbackCheck_faults {o : Od} {fbA fbB n : Nat} {d : Dev} (hn : n < 4) (hen : pairEnabled o n = true)
    (hun : UnequalA o fbA n d.clk.run (vget d.isl.pairs n)) (hst : (vget d.isl.pairs n).state ≠ .fault) :
    (vget (feedbackCheck o fbA fbB d).isl.pairs n).LowIn .fault := by
  have hmem : n ∈ (List.range 4).filter (pairEnabled o) := List.mem_filter.2 ⟨List.mem_range.2 hn, hen⟩
  have hnodup : ((List.range 4).filter (pairEnabled o)).Nodup := List.nodup_range.filter _
  obtain ⟨front, back, hsplit⟩ := List.append_of_mem hmem
  have hapart : n ∉ front ∧ n ∉ back := by
    rw [hsplit] at hnodup
    have hcons := List.nodup_append.1 hnodup
    exact ⟨fun h => hcons.2.2 n h n (List.mem_cons_self ..) rfl, (List.nodup_cons.1 hcons.2.1).1⟩
  have hfront : (forEach front (compareStep o fbA fbB) d).clk = d.clk ∧
      vget (forEach front (compareStep o fbA fbB) d).isl.pairs n = vget d.isl.pairs n :=
    forEach_keeps (P := fun e => e.clk = d.clk ∧ vget e.isl.pairs n = vget d.isl.pairs n)
      (fun m hm e ⟨hclk, hpair⟩ => ⟨(compareStep_clk ..).trans hclk, (compareStep_other (ne_of_mem_of_not_mem hm hapart.1)).trans hpair⟩) ⟨rfl, rfl⟩
  have hown : (vget (compareStep o fbA fbB n (forEach front (compareStep o fbA fbB) d)).isl.pairs n).LowIn .fault :=
    compareStep_faults hn hen (by rw [hfront.1, hfront.2]; exact hun) (by rw [hfront.2]; exact hst)
  have hback : (vget (forEach back (compareStep o fbA fbB) (compareStep o fbA fbB n (forEach front (compareStep o fbA fbB) d))).isl.pairs n).LowIn .fault :=
    forEach_keeps (P := fun e => (vget e.isl.pairs n).LowIn .fault)
      (fun m hm e he => by rwa [compareStep_other (ne_of_mem_of_not_mem hm hapart.2)]) hown
  have hall : feedbackCheck o fbA fbB d = forEach ((List.range 4).filter (pairEnabled o)) (compareStep o fbA fbB) d := rfl
  rw [hall, hsplit]
  simpa [forEach] using hback

/-! ### The rows -/

theorem whileSafe_on {f : Od → Dev → Dev} {o : Od} {d : Dev} (h : d.isOn .safe = true) : whileSafe f o d = f o d := if_pos h

theorem completes_whileSafe {c : Instr} {f : Od → Dev → Dev} {s : State} {P : State → Prop} (hexec : exec c s = drives (whileSafe f) s)
    (hon : s.dev.isOn .safe = true) (h : P { s with dev := f s.od s.dev }) : Completes c s P :=
  completes_drives hexec (by rwa [whileSafe_on hon])

theorem completes_timedSafe {c : Instr} {due : Od → Dev → Option Instant} {f : Od → Dev → Dev} {s : State} {P : State → Prop}
    (hexec : exec c s = timed due (whileSafe f) s) (hon : s.dev.isOn .safe = true)
    (h : P { od := s.od, dev := f s.od (s.upTo due).dev, pending := s.pending }) : Completes c s P :=
  completes_timed hexec (by rwa [whileSafe_on ((upTo_isOn due s .safe).trans hon)])

theorem upTo_isl (due : Od → Dev → Option Instant) (s : State) : (s.upTo due).dev.isl = s.dev.isl := upTo_part due s (p := .isl) (by decide)

end Sys2Proof.Machine
end

section
/-! The rows of the safety island's pairs, speed monitors and check value (O53). -/
namespace Sys2Proof.Machine

theorem speedWindow_ss1 (o : Od) (n : Nat) (samples : List (Int × Int)) (m : SpeedMon) : (speedWindow o n samples m).ss1 = m.ss1 := rfl

/-- A speed window without a running SS1 leaves what it says of the speed. -/
theorem speedWindowEnd_judges {o : Od} {n : Nat} {samples : List (Int × Int)} {d : Dev} (hn : n < 4) (h : (vget d.isl.speed n).ss1 = none) :
    let m := speedWindow o n samples (vget d.isl.speed n)
    (vget (speedWindowEnd o n samples d).isl.speed n).valid = m.valid ∧ (m.valid = true →
      (vget (speedWindowEnd o n samples d).isl.speed n).speed = m.speed ∧
      (vget (speedWindowEnd o n samples d).isl.speed n).lastValid = some (d.clk.run, m.speed)) := by
  intro m
  have hm : (speedWindow o n samples (vget d.isl.speed n)) = m := rfl
  unfold speedWindowEnd
  rw [hm]
  have hss1 : m.ss1 = none := (speedWindow_ss1 ..).trans h
  cases hvalid : m.valid
  · simp only [hvalid, Bool.false_eq_true, if_false, hss1, vget_vset_same _ _ _ hn, false_implies, and_self]
  · simp only [hvalid, if_true, hss1, vget_vset_same _ _ _ hn, and_self, implies_true]

theorem ss1End_pair (o : Od) (n how : Nat) (d : Dev) : (ss1End o n how d).isl.pairs = d.isl.pairs := ss1End_pairs ..

/-- R485: the time of an SS1 is over: it ends, and the pair leaves PERMIT with both outputs low. -/
theorem ss1TimeLimit_ends {o : Od} {n ts : Nat} {v : Option Rat} {d : Dev} (hn : n < 4) (h : (vget d.isl.speed n).ss1 = some (ts, v))
    (ht : ts + msT (odU o (0x5020 + n) 7) ≤ d.clk.run) :
    (vget (ss1TimeLimit o n d).isl.speed n).ss1 = none ∧ (pairEnabled o n = true → (vget (ss1TimeLimit o n d).isl.pairs n).state ≠ .permit ∧
      (vget (ss1TimeLimit o n d).isl.pairs n).a.level = false ∧ (vget (ss1TimeLimit o n d).isl.pairs n).b.level = false) := by
  have hrow : ss1TimeLimit o n d = stoDemand o 2 (2 ^ n) (ss1End o n 2 d) := by
    unfold ss1TimeLimit
    simp only [h, if_neg (Nat.not_lt.2 ht)]
  rw [hrow]
  refine ⟨?_, fun hen => ?_⟩
  · rw [stoDemand_speed (Or.inl rfl)]
    exact ss1End_ends hn
  · obtain ⟨hst, ha, hb⟩ := stoDemand_lowers (o := o) (cause := 2) (d := ss1End o n 2 d) hn Nat.testBit_two_pow_self hen
    exact ⟨hst ▸ demanded_ne_permit _, ha, hb⟩

/-! ### Test pulses (R477) -/

/-- The output A or B of a pair. -/
def StoPair.out (isB : Bool) (p : StoPair) : StoOut := if isB then p.b else p.a

/-- A pair with one of its outputs changed. -/
def StoPair.setOut (isB : Bool) (x : StoOut) (p : StoPair) : StoPair := if isB then { p with b := x } else { p with a := x }

@[simp] theorem setOut_out_same (isB : Bool) (x : StoOut) (p : StoPair) : (p.setOut isB x).out isB = x := by cases isB <;> rfl

@[simp] theorem setOut_out_other (isB : Bool) (x : StoOut) (p : StoPair) : (p.setOut isB x).out (!isB) = p.out (!isB) := by cases isB <;> rfl

@[simp] theorem setOut_state (isB : Bool) (x : StoOut) (p : StoPair) : (p.setOut isB x).state = p.state := by cases isB <;> rfl

/-- A test pulse that is due begins, where the other output has none in progress. -/
theorem pulseStart_begins {o : Od} {n : Nat} {isB : Bool} {d : Dev} (hn : n < 4) (hst : (vget d.isl.pairs n).state = .permit)
    (hdue : pulseDue o (vget d.isl.pairs n) isB ≤ d.clk.run) (hquiet : ((vget d.isl.pairs n).out (!isB)).quiet = true) :
    vget (pulseStart o n isB d).isl.pairs n = (vget d.isl.pairs n).setOut isB { drive d.clk.run false ((vget d.isl.pairs n).out isB) with
      pulse := some (d.clk.run, none), pulses := ((vget d.isl.pairs n).out isB).pulses + 1 } := by
  have hother : (if isB then (vget d.isl.pairs n).a else (vget d.isl.pairs n).b) = (vget d.isl.pairs n).out (!isB) := by cases isB <;> rfl
  unfold pulseStart
  dsimp only
  rw [hother, if_neg]
  · rw [onPair_isl, vget_vmod_same _ _ _ hn]
    cases isB <;> rfl
  · unfold StoOut.quiet at hquiet
    split at hquiet
    · exact absurd hquiet Bool.false_ne_true
    next hnone =>
      simp only [hst]
      simp [hdue]

/-- The end of a test pulse whose width is over: its output is high again. -/
theorem pulseEnd_ends {o : Od} {n t : Nat} {isB : Bool} {d : Dev} (hn : n < 4) (hpulse : ((vget d.isl.pairs n).out isB).pulse = some (t, none))
    (ht : t + usT (odU o 0x5000 7) ≤ d.clk.run) :
    vget (pulseEnd o n isB d).isl.pairs n = (vget d.isl.pairs n).setOut isB { drive d.clk.run true ((vget d.isl.pairs n).out isB) with
      pulse := some (t, some d.clk.run) } := by
  have hout : (if isB then (vget d.isl.pairs n).b else (vget d.isl.pairs n).a).pulse = some (t, none) := hpulse
  unfold pulseEnd
  simp only [hout, if_neg (Nat.not_lt.2 ht)]
  rw [onPair_isl, vget_vmod_same _ _ _ hn]
  cases isB <;> rfl

/-! ### The check value (R489, R490) -/

/-- A check value that is taken is the island's, and its state follows. -/
theorem ccvTake_takes (o : Od) (ccv : Nat) (d : Dev) :
    (ccvTake o ccv d).isl.ccv = ccv ∧ (ccvTake o ccv d).isl.state = islandStateOf o (ccvTake o ccv d).isl ∧
    (ccvTake o ccv d).isl.failHold = d.isl.failHold := by
  unfold ccvTake
  extract_lets same src i d1 d2
  have hd1 : d1.isl.ccv = ccv ∧ d1.isl.state = islandStateOf o d1.isl ∧ d1.isl.failHold = d.isl.failHold := ⟨rfl, rfl, rfl⟩
  have hsame (e : Dev) (he : e.isl.rest = d1.isl.rest) :
      e.isl.ccv = ccv ∧ e.isl.state = islandStateOf o e.isl ∧ e.isl.failHold = d.isl.failHold := by
    have hccv : e.isl.ccv = d1.isl.ccv := (congrArg Island.ccv he :)
    have hstate : e.isl.state = d1.isl.state := (congrArg Island.state he :)
    have hhold : e.isl.failHold = d1.isl.failHold := (congrArg Island.failHold he :)
    exact ⟨hccv.trans hd1.1, by rw [hstate, hd1.2.1, islandStateOf, islandStateOf, hccv, hhold], hhold.trans hd1.2.2⟩
  have hd2 : d2.isl.rest = d1.isl.rest := congrArg Island.rest (record_isl ..)
  split
  · exact hd1
  · split
    · exact hsame _ hd2
    · exact hsame _ ((stoDemand_rest ..).trans hd2)

/-! ### The rows -/

theorem speedWindowEnd_completes {n : Fin 4} {samples : List (Int × Int)} {s : State} (hsafe : s.dev.isOn .safe = true)
    (h : (vget s.dev.isl.speed n.val).ss1 = none) : let m := speedWindow s.od n.val samples (vget s.dev.isl.speed n.val)
    Completes (.speedWindowEnd n samples) s (fun u => (vget u.dev.isl.speed n.val).valid = m.valid ∧
      (m.valid = true → (vget u.dev.isl.speed n.val).speed = m.speed ∧
        (vget u.dev.isl.speed n.val).lastValid = some (s.dev.clk.run, m.speed)) ∧ u.od = s.od) := by
  obtain ⟨hvalid, hspeed⟩ := speedWindowEnd_judges (o := s.od) (samples := samples) n.isLt h
  exact completes_whileSafe (f := (speedWindowEnd · n.val samples)) rfl hsafe ⟨hvalid, hspeed, rfl⟩

/-- The instant the row of an SS1 limit waits for. -/
def ss1Due (n : Nat) (o : Od) (d : Dev) : Option Instant := (vget d.isl.speed n).ss1.map (fun x => .aon (x.1 + msT (odU o (0x5020 + n) 7)))

theorem ss1TimeLimit_completes {n : Fin 4} {s : State} (hsafe : s.dev.isOn .safe = true) (h : (vget s.dev.isl.speed n.val).ss1.isSome = true) :
    Completes (.ss1TimeLimit n) s (fun u => (vget u.dev.isl.speed n.val).ss1 = none ∧ u.od = s.od ∧
      (pairEnabled s.od n.val = true → (vget u.dev.isl.pairs n.val).state ≠ .permit ∧
        (vget u.dev.isl.pairs n.val).a.level = false ∧ (vget u.dev.isl.pairs n.val).b.level = false)) := by
  obtain ⟨⟨ts, v⟩, hss1⟩ := Option.isSome_iff_exists.1 h
  have hrun : ts + msT (odU s.od (0x5020 + n.val) 7) ≤ (s.upTo (ss1Due n.val)).dev.clk.run := le_run_upTo (by rw [ss1Due, hss1]; rfl)
  obtain ⟨hnone, hlow⟩ := ss1TimeLimit_ends (o := s.od) n.isLt (by rw [upTo_isl]; exact hss1) hrun
  exact completes_timedSafe (due := ss1Due n.val) (f := (ss1TimeLimit · n.val)) rfl hsafe ⟨hnone, rfl, hlow⟩

/-- The instant the row of a test pulse waits for. -/
def pulseStartDue (n : Nat) (b : Bool) (o : Od) (d : Dev) : Option Instant :=
  let p := vget d.isl.pairs n
  instantIf (p.state == .permit) (.aon (pulseDue o p b))

theorem testPulseStart_completes {n : Fin 4} {b : Bool} {s : State} (hsafe : s.dev.isOn .safe = true)
    (hst : (vget s.dev.isl.pairs n.val).state = .permit) (hquiet : ((vget s.dev.isl.pairs n.val).out (!b)).quiet = true) :
    Completes (.testPulseStart n b) s (fun u => ((vget u.dev.isl.pairs n.val).out b).level = false ∧
      ((vget u.dev.isl.pairs n.val).out b).pulse = some (u.dev.clk.run, none) ∧
      (vget u.dev.isl.pairs n.val).out (!b) = (vget s.dev.isl.pairs n.val).out (!b) ∧ (vget u.dev.isl.pairs n.val).state = .permit ∧
      u.od = s.od) := by
  have hrun : pulseDue s.od (vget s.dev.isl.pairs n.val) b ≤ (s.upTo (pulseStartDue n.val b)).dev.clk.run :=
    le_run_upTo (by simp only [pulseStartDue, instantIf, hst, beq_self_eq_true, if_true])
  have hbegins := pulseStart_begins (o := s.od) (isB := b) (d := (s.upTo (pulseStartDue n.val b)).dev) n.isLt (by rw [upTo_isl]; exact hst)
    (by rw [upTo_isl]; exact hrun) (by rw [upTo_isl]; exact hquiet)
  have hclk : (pulseStart s.od n.val b (s.upTo (pulseStartDue n.val b)).dev).clk = (s.upTo (pulseStartDue n.val b)).dev.clk :=
    pulseStart_leaves (p := .clk) (by decide) ..
  refine completes_timedSafe (due := pulseStartDue n.val b) (f := (pulseStart · n.val b)) rfl hsafe ?_
  dsimp only
  rw [hbegins, hclk, setOut_out_same, setOut_out_other, setOut_state, upTo_isl]
  exact ⟨drive_level .., rfl, rfl, hst, rfl⟩

theorem testPulseEnd_completes {n : Fin 4} {b : Bool} {s : State} {t : Nat} (hsafe : s.dev.isOn .safe = true)
    (hpulse : ((vget s.dev.isl.pairs n.val).out b).pulse = some (t, none)) :
    Completes (.testPulseEnd n b) s (fun u => ((vget u.dev.isl.pairs n.val).out b).level = true ∧
      ((vget u.dev.isl.pairs n.val).out b).pulse = some (t, some u.dev.clk.run) ∧ t + usT (odU s.od 0x5000 7) ≤ u.dev.clk.run ∧ u.od = s.od) := by
  have hrun : t + usT (odU s.od 0x5000 7) ≤ (s.upTo (pulseEndDue n.val b)).dev.clk.run := by
    have hout : (if b then (vget s.dev.isl.pairs n.val).b else (vget s.dev.isl.pairs n.val).a).pulse = some (t, none) := hpulse
    exact le_run_upTo (by simp only [pulseEndDue, hout])
  have hends := pulseEnd_ends (o := s.od) (isB := b) (d := (s.upTo (pulseEndDue n.val b)).dev) n.isLt (by rw [upTo_isl]; exact hpulse) hrun
  have hclk : (pulseEnd s.od n.val b (s.upTo (pulseEndDue n.val b)).dev).clk = (s.upTo (pulseEndDue n.val b)).dev.clk :=
    pulseEnd_leaves (p := .clk) (by decide) ..
  refine completes_timedSafe (due := pulseEndDue n.val b) (f := (pulseEnd · n.val b)) rfl hsafe ?_
  dsimp only
  rw [hends, hclk, setOut_out_same]
  exact ⟨drive_level .., rfl, hrun, rfl⟩

theorem writeEffect_pairClrf (n : Fin 4) (b : Bytes) (session : Option Nat) (s : State) :
    writeEffect session (0x5010 + n.val) 3 b s = stoClrfWrite session n.val s := by
  fin_cases n <;> rfl

/-- The device once a "clrf" of a faulted pair is accepted. -/
def pairCleared (n : Nat) (o : Od) (d : Dev) : Dev := pronghorn o (record o 0x5005 (0x500 + n) [b8 n] (onPair n (fun p => { p with state := .off }) d))

theorem pairCleared_off {n : Nat} {o : Od} {d : Dev} (hn : n < 4) : (vget (pairCleared n o d).isl.pairs n).state = .off := by
  rw [pairCleared, pronghorn_isl, record_isl, onPair_isl, vget_vmod_same _ _ _ hn]

theorem pairClrf_completes {via : Via} {n : Fin 4} {s : State} (h : accepted via (0x5010 + n.val) 3 (toLE 4 0x66726C63) s = true) :
    Completes (.pairClrf via n) s (fun u => (vget u.dev.isl.pairs n.val).state = .off ∧ u.od = s.od) := by
  refine completes_of_write rfl ⟨by omega, by decide, by simp, by omega, by omega⟩ h fun k t u v ho => ?_
  have heff := writeEffect_pairClrf n (toLE 4 0x66726C63) (some k) t
  refine ⟨?_, ho.od_kept (by rw [heff]; simp)⟩
  rw [ho.effect, stoClrfWrite] at heff
  split at heff
  · cases heff
  · split at heff
    · cases heff
    · obtain rfl := congrArg Prod.snd heff
      have hisl : v.dev.isl = (pairCleared n.val t.od t.dev).isl := ho.part (p := .isl) (by decide)
      rw [hisl, pairCleared_off n.isLt]

/-- The state once a new CCV_CONFIRMED is accepted. -/
def ccvConfirmed (b : Bytes) (s : State) : State := (put 0x5000 3 b s).act (fun o d => ccvTake o d.isl.ccv d)

theorem ccvConfirmed_dev (b : Bytes) (s : State) : (ccvConfirmed b s).dev = ccvTake (odSet s.od 0x5000 3 b) s.dev.isl.ccv s.dev := by
  simp only [ccvConfirmed, State.act, put]

theorem ccvConfirmedWrite_completes {via : Via} {w : BitVec 32} {s : State} (h : accepted via 0x5000 3 (toLE 4 w.toNat) s = true) :
    Completes (.ccvConfirmedWrite via w) s (fun u => odU u.od 0x5000 3 = w.toNat ∧ u.dev.isl.ccv = w.toNat ∧
      (s.dev.isl.failHold = false → u.dev.isl.state = .operational)) := by
  refine completes_of_write rfl ⟨by decide, by decide, by simp, by decide, by decide⟩ h fun k t u v ho => ?_
  have heff : writeEffect (some k) 0x5000 3 (toLE 4 w.toNat) t = ccvWrite (toLE 4 w.toNat) t := rfl
  rw [ho.effect, ccvWrite] at heff
  split at heff
  · cases heff
  next hsame =>
    obtain rfl := congrArg Prod.snd heff
    have hread : odU (odSet t.od 0x5000 3 (toLE 4 w.toNat)) 0x5000 3 = w.toNat := odU_odSet_toLE _ (by decide) (by decide) w.isLt
    have hvalue : t.dev.isl.ccv = w.toNat := by
      rw [← not_ne_iff.1 hsame]
      exact leNat_toLE_of_lt w.isLt
    obtain ⟨hccv, hstate, hhold⟩ := ccvTake_takes (odSet t.od 0x5000 3 (toLE 4 w.toNat)) t.dev.isl.ccv t.dev
    have hisl : v.dev.isl = (ccvTake (odSet t.od 0x5000 3 (toLE 4 w.toNat)) t.dev.isl.ccv t.dev).isl := by
      rw [← ccvConfirmed_dev]
      exact ho.part (p := .isl) (by decide)
    have hbefore : t.dev.isl = s.dev.isl := ho.seen.part (p := .isl) (by decide)
    have hod : v.od = odSet t.od 0x5000 3 (toLE 4 w.toNat) := ho.od.trans (by simp only [wrote, State.act, put])
    refine ⟨by rw [hod, hread], by rw [hisl, hccv, hvalue], fun hfail => ?_⟩
    rw [hisl, hstate, islandStateOf, hccv, hhold, hvalue, hread, hbefore, hfail]
    simp

/-- Settles O53: each row by the rule of the island's operation it runs. -/
theorem safetyPairsAreWatched : Obligations.SafetyPairsAreWatched := by
  unfold Obligations.SafetyPairsAreWatched
  refine ⟨fun n samples s => speedWindowEnd_completes, fun n s => ss1TimeLimit_completes, fun fbA fbB n s => ?_, fun n b s => ?_, fun n b s t => ?_,
    fun via n s => pairClrf_completes, fun via v s => ccvConfirmedWrite_completes, fun s hsafe => ?_⟩
  · intro p hsafe hen ht hfb hun hst
    obtain ⟨hfault, ha, hb⟩ := feedbackCheck_faults (o := s.od) (fbB := fbB.toNat) n.isLt hen ⟨ht, hfb, hun⟩ hst
    exact completes_whileSafe (f := (feedbackCheck · fbA.toNat fbB.toNat)) rfl hsafe ⟨hfault, ha, hb, rfl⟩
  · intro p hsafe hst hquiet
    cases b
    · exact testPulseStart_completes hsafe hst hquiet
    · exact testPulseStart_completes hsafe hst hquiet
  · exact testPulseEnd_completes
  · obtain ⟨hccv, hstate, -⟩ := ccvTake_takes s.od (ccvOf s.od) s.dev
    exact completes_whileSafe (f := fun o => ccvTake o (ccvOf o)) rfl hsafe ⟨hccv, hstate, rfl⟩

end Sys2Proof.Machine
end

section
/-! The safety connections (O52): a copy on a network whose pads have no supply. -/
namespace Sys2Proof.Machine

/-- SAFE is ON, and VIO33, which the CAN pads need (R83), is absent. -/
def islandWithoutCan : State := { dev := { doms := Vector.replicate 8 { state := .on } } }

theorem islandWithoutCan_line : islandWithoutCan.dev.isOn .safe = true ∧ canLine islandWithoutCan.dev = false := by decide +kernel

/-- A copy on CAN does not arrive where the pads have no supply: nothing is counted of it. -/
theorem copy_without_line_uncounted :
    ∃ t, exec (.safetyCopyArrival false 0 0 [] []) islandWithoutCan = .next t ∧ (vget t.dev.isl.conns 0).crcErrors = 0 := by
  refine ⟨_, rfl, ?_⟩
  decide +kernel

/-- Refutes O52: a copy of a pair that fails a check is not counted where the pads of its network have no supply. -/
theorem not_safetyConnectionsAct : ¬ Obligations.SafetyConnectionsAct := by
  rintro ⟨hcopy, -⟩
  obtain ⟨t, ht, hcount⟩ := copy_without_line_uncounted
  obtain ⟨u, hu, herrors, -⟩ := hcopy false 0 0 [] [] islandWithoutCan islandWithoutCan_line.1 (by decide +kernel) (by decide)
  obtain rfl : t = u := Host.Outcome.next.inj (ht.symm.trans hu)
  exact absurd (hcount.symm.trans herrors) (by decide +kernel)

end Sys2Proof.Machine
end

section
/-! The temperature supervision (O44). -/
namespace Sys2Proof.Machine

/-! ### Sensors (R380) -/

/-- Sensor `i` of a device. -/
def sensorOf (i : Nat) (d : Dev) : Sensor := vget d.meas.sensors i

theorem sensorOf_of_meas {d e : Dev} (h : d.meas = e.meas) (i : Nat) : sensorOf i d = sensorOf i e := by
  rw [sensorOf, sensorOf, h]

theorem record_meas (o : Od) (code source : Nat) (data : Bytes) (d : Dev) : (record o code source data d).meas = d.meas :=
  record_leaves (p := .meas) (by decide) ..

theorem sensorOf_modSensor_other {s i : Nat} (f : Sensor → Sensor) (d : Dev) (h : s ≠ i) : sensorOf i (modSensor s f d) = sensorOf i d :=
  vget_vmod_other _ _ h

/-- Sensors changed one after another, each once: a sensor is as before, or changed once. -/
theorem forEach_modSensor_once {f : Nat × Nat → Sensor → Sensor} {i : Nat} {l : List (Nat × Nat)} (hl : (l.map Prod.fst).Nodup) (d : Dev) :
    sensorOf i (forEach l (fun x => modSensor x.1 (f x)) d) = sensorOf i d ∨
      ∃ x ∈ l, x.1 = i ∧ sensorOf i (forEach l (fun x => modSensor x.1 (f x)) d) = f x (sensorOf i d) := by
  unfold forEach
  induction l generalizing d with
  | nil => exact Or.inl rfl
  | cons x l ih =>
    rw [List.map_cons, List.nodup_cons] at hl
    simp only [List.foldl_cons]
    by_cases hx : x.1 = i
    · have hrest : sensorOf i (l.foldl (fun d a => modSensor a.1 (f a) d) (modSensor x.1 (f x) d)) = sensorOf i (modSensor x.1 (f x) d) := by
        rcases ih hl.2 (modSensor x.1 (f x) d) with h | ⟨y, hy, hyi, -⟩
        · exact h
        · exact absurd (List.mem_map_of_mem (f := Prod.fst) hy) (by rw [hyi, ← hx]; exact hl.1)
      by_cases hi : i < 12
      · refine Or.inr ⟨x, List.mem_cons_self .., hx, hrest.trans ?_⟩
        rw [hx]
        exact vget_vmod_same _ _ _ hi
      · refine Or.inl (hrest.trans ?_)
        rw [sensorOf, modSensor, vmod, vset_beyond _ _ _ (by omega)]
        rfl
    · rcases ih hl.2 (modSensor x.1 (f x) d) with h | ⟨y, hy, hyi, h⟩
      · exact Or.inl (h.trans (sensorOf_modSensor_other _ _ hx))
      · exact Or.inr ⟨y, List.mem_cons_of_mem _ hy, hyi, by rw [h, sensorOf_modSensor_other _ _ hx]⟩

theorem dieSensors_nodup (die : Nat) : (dieSensors die).Nodup := by
  unfold dieSensors
  split
  · decide
  · split <;> decide

theorem healthySet_nodup (d : Dev) (die : Nat) : (healthySet d die).Nodup := (dieSensors_nodup die).filter _

theorem mem_dieSensors_of_healthy {d : Dev} {die i : Nat} (h : i ∈ healthySet d die) : i ∈ dieSensors die := (List.mem_filter.1 h).1

/-- What a sensing of a die leaves, where no sensor of it is near its fault. -/
structure Sensed (die : Nat) (d e : Dev) : Prop where
  reading : ∀ i, (sensorOf i e).reading = (sensorOf i d).reading
  healthy : ∀ i, (sensorOf i e).healthy = (sensorOf i d).healthy
  other : ∀ i, i ∉ dieSensors die → sensorOf i e = sensorOf i d
  lastCycle : e.meas.lastCycle = d.meas.lastCycle
  clk : e.clk = d.clk

theorem Sensed.of_sensors {die : Nat} {d e g : Dev} (h : Sensed die d e) (hs : g.meas.sensors = e.meas.sensors)
    (hl : g.meas.lastCycle = e.meas.lastCycle) (hc : g.clk = e.clk) : Sensed die d g := by
  have hsensor (i : Nat) : sensorOf i g = sensorOf i e := by rw [sensorOf, sensorOf, hs]
  exact ⟨fun i => by rw [hsensor, h.reading], fun i => by rw [hsensor, h.healthy], fun i hi => by rw [hsensor, h.other i hi],
    hl.trans h.lastCycle, hc.trans h.clk⟩

theorem senseDie_sensed {o : Od} {die : Nat} {d : Dev} (h : ∀ i ∈ healthySet d die, (sensorOf i d).bad < 7) : Sensed die d (senseDie o die d) := by
  unfold senseDie
  extract_lets hset tests d1 due dev
  have htests : (tests.map Prod.fst).Nodup := by
    have hfst : tests.map Prod.fst = hset := by simp [tests, Function.comp_def]
    rw [hfst]
    exact healthySet_nodup d die
  have honce (i : Nat) := forEach_modSensor_once (f := fun x s => { s with bad := if x.2 = 0 then 0 else s.bad + 1 }) (i := i) htests d
  have hmem {x : Nat × Nat} (hx : x ∈ tests) : x.1 ∈ healthySet d die := by
    obtain ⟨i, hi, rfl⟩ := List.mem_map.1 hx
    exact hi
  have hd1 : Sensed die d d1 := by
    refine ⟨fun i => ?_, fun i => ?_, fun i hi => ?_, forEach_eq (fun e => e.meas.lastCycle) d fun _ _ => rfl, forEach_eq Dev.clk d fun _ _ => rfl⟩
    · rcases honce i with h | ⟨x, -, -, h⟩
      · exact congrArg Sensor.reading h
      · exact (congrArg Sensor.reading h :)
    · rcases honce i with h | ⟨x, -, -, h⟩
      · exact congrArg Sensor.healthy h
      · exact (congrArg Sensor.healthy h :)
    · rcases honce i with h | ⟨x, hx, hxi, -⟩
      · exact h
      · exact absurd (hxi ▸ mem_dieSensors_of_healthy (hmem hx)) hi
  have hfew (i : Nat) (hi : i ∈ healthySet d die) : (sensorOf i d1).bad < 8 := by
    have hold := h i hi
    rcases honce i with hsame | ⟨x, -, -, hnew⟩
    · have hbad : (sensorOf i d1).bad = (sensorOf i d).bad := congrArg Sensor.bad hsame
      omega
    · have hbad : (sensorOf i d1).bad = if x.2 = 0 then 0 else (sensorOf i d).bad + 1 := congrArg Sensor.bad hnew
      split at hbad <;> omega
  have hdue : due = [] := by
    refine List.filter_eq_nil_iff.2 fun x hx => ?_
    have := hfew x.1 (hmem hx)
    simpa [sensorOf] using this
  clear_value due hset
  subst hdue
  dsimp only
  split
  · split
    · exact hd1.of_sensors ((congrArg Meas.sensors (record_meas ..)).trans rfl) ((congrArg Meas.lastCycle (record_meas ..)).trans rfl)
        ((record_leaves (p := .clk) (by decide) ..).trans rfl)
    · exact hd1.of_sensors rfl rfl rfl
  · exact hd1

/-! ### Dies (R381, R382) -/

/-- The temperature of a die: the highest reading of its healthy sensors. -/
def hottest (d : Dev) (l : List Nat) : Int := l.foldl (fun a s => if a < readingOf d s then readingOf d s else a) (-32768)

theorem hottest_eq_max (d : Dev) (l : List Nat) : hottest d l = l.foldl (fun a s => max a (readingOf d s)) (-32768) := by
  unfold hottest
  congr 1
  funext a s
  split <;> omega

theorem hottest_lt {d : Dev} {l : List Nat} (h : ∀ s ∈ l, readingOf d s < 1650) : hottest d l < 1650 := by
  unfold hottest
  refine List.foldlRecOn (motive := fun a : Int => a < 1650) l _ (by decide) fun a ha s hs => ?_
  split
  · exact h s hs
  · exact ha

/-- A cycle of a die with two healthy sensors and no reading at shutdown takes its temperature, and does not shut it down. -/
theorem dieCycle_takes {die : Nat} {d : Dev} (hdie : die < 3) (hcount : 2 ≤ (healthySet d die).length)
    (hcold : ∀ s ∈ healthySet d die, readingOf d s < 1650) :
    (dieCycle die d).1 = none ∧ (vget (dieCycle die d).2.meas.dies die).temp = hottest d (healthySet d die) ∧
    (∀ k, k ≠ die → vget (dieCycle die d).2.meas.dies k = vget d.meas.dies k) ∧ (dieCycle die d).2.meas.sensors = d.meas.sensors ∧
    (dieCycle die d).2.meas.lastCycle = d.meas.lastCycle ∧ (dieCycle die d).2.clk = d.clk := by
  have hlow : ¬ 1650 ≤ hottest d (healthySet d die) := not_le.2 (hottest_lt hcold)
  have hne : (healthySet d die).isEmpty = false := by
    rw [List.isEmpty_eq_false_iff]
    exact List.ne_nil_of_length_pos (by omega)
  unfold dieCycle
  extract_lets h temp x hot cool d1 why
  have hhot : hot = 0 := if_neg fun hc => hlow hc.1
  have hwhy : why = none := by
    simp only [why]
    rw [if_neg (by simp only [h]; omega), if_neg (by rw [hhot]; decide)]
  refine ⟨?_, ?_, fun k hk => vget_vmod_other _ _ (Ne.symm hk), rfl, rfl, rfl⟩
  · rw [hwhy, ite_self]
  · refine (congrArg Die.temp (vget_vmod_same _ _ _ hdie)).trans ?_
    simp only [h, hne, Bool.false_eq_true, if_false]
    rfl

/-! ### One cycle of the supervision -/

/-- A device whose sensors hold the readings of a cycle that began at `w`, and are healthy as they were there. -/
structure Holds (readings : List Int) (w d : Dev) : Prop where
  reading : ∀ i, i < 12 → (sensorOf i d).reading = readings.getD i 0
  healthy : ∀ i, (sensorOf i d).healthy = (sensorOf i w).healthy
  lastCycle : d.meas.lastCycle = w.clk.dt
  clk : d.clk = w.clk

theorem Holds.healthySet {readings : List Int} {w d : Dev} (h : Holds readings w d) (die : Nat) : healthySet d die = healthySet w die :=
  List.filter_congr fun i _ => h.healthy i

theorem lt_of_mem_dieSensors {die i : Nat} (h : i ∈ dieSensors die) : i < 12 := by
  unfold dieSensors at h
  split at h
  · simp at h; omega
  · split at h
    · simp at h; omega
    · simp at h; omega

theorem Holds.reading_healthy {readings : List Int} {w d : Dev} (h : Holds readings w d) {die i : Nat} (hi : i ∈ Machine.healthySet d die) :
    readingOf d i = readings.getD i 0 := h.reading i (lt_of_mem_dieSensors (mem_dieSensors_of_healthy hi))

/-- The readings of a cycle are taken into the twelve sensors. -/
def takeReadings (readings : List Int) (d : Dev) : Dev :=
  forEach (([0, 1, 2] : List Nat).flatMap dieSensors) (fun i d => modSensor i (fun x => { x with reading := readings.getD i 0 }) d)
    { d with meas := { d.meas with lastCycle := d.clk.dt } }

theorem takeReadings_holds (readings : List Int) (d : Dev) :
    Holds readings d (takeReadings readings d) ∧ ∀ i, (sensorOf i (takeReadings readings d)).bad = (sensorOf i d).bad := by
  have hkeep {P : Sensor → Prop} {i j : Nat} {e : Dev} (hP : ∀ x : Sensor, P x → P { x with reading := readings.getD j 0 }) (h : P (sensorOf i e)) :
      P (sensorOf i (modSensor j (fun x => { x with reading := readings.getD j 0 }) e)) := vget_vmod_keeps (P := P) _ _ _ _ (fun hj => hP _ hj) h
  have hrest {P : Sensor → Prop} (i : Nat) (hP : ∀ (x : Sensor) (r : Int), P x → P { x with reading := r }) (h : P (sensorOf i d)) :
      P (sensorOf i (takeReadings readings d)) := forEach_keeps (P := fun e => P (sensorOf i e)) (fun j _ e he => hkeep (fun x => hP x _) he) h
  refine ⟨⟨fun i hi => ?_, fun i => hrest (P := fun x => x.healthy = (sensorOf i d).healthy) i (fun _ _ hx => hx) rfl, ?_, ?_⟩,
    fun i => hrest (P := fun x => x.bad = (sensorOf i d).bad) i (fun _ _ hx => hx) rfl⟩
  · have hmem : i ∈ ([0, 1, 2] : List Nat).flatMap dieSensors := by
      have hall : ([0, 1, 2] : List Nat).flatMap dieSensors = List.range 12 := by decide
      rw [hall]
      exact List.mem_range.2 hi
    refine forEach_establishes (P := fun _ => True) (Q := fun e => (sensorOf i e).reading = readings.getD i 0) hmem (fun _ _ _ => trivial)
      (fun j e he => ?_) (fun e _ => congrArg Sensor.reading (vget_vmod_same _ _ _ hi)) trivial
    by_cases hj : j = i
    · subst hj
      exact congrArg Sensor.reading (vget_vmod_same _ _ _ hi)
    · rwa [sensorOf_modSensor_other _ _ hj]
  · exact forEach_eq (fun e => e.meas.lastCycle) _ fun _ _ => rfl
  · exact forEach_eq Dev.clk _ fun _ _ => rfl

/-- The sensing of a die keeps what a cycle holds. -/
theorem Holds.senseDie {readings : List Int} {w d : Dev} {o : Od} {die : Nat} (h : Holds readings w d)
    (hbad : ∀ i ∈ Machine.healthySet d die, (sensorOf i d).bad < 7) : Holds readings w (senseDie o die d) := by
  have hs := senseDie_sensed (o := o) hbad
  exact ⟨fun i hi => (hs.reading i).trans (h.reading i hi), fun i => (hs.healthy i).trans (h.healthy i), hs.lastCycle.trans h.lastCycle,
    hs.clk.trans h.clk⟩

theorem not_mem_dieSensors_of_ne {j k i : Nat} (hj : j < 3) (hk : k < 3) (h : j ≠ k) (hi : i ∈ dieSensors j) : i ∉ dieSensors k := by
  have hj' : j = 0 ∨ j = 1 ∨ j = 2 := by omega
  have hk' : k = 0 ∨ k = 1 ∨ k = 2 := by omega
  rcases hj' with rfl | rfl | rfl <;> rcases hk' with rfl | rfl | rfl <;> simp [dieSensors] at h hi ⊢ <;> omega

theorem forEach_three {α : Type} (f : α → Dev → Dev) (a b c : α) (d : Dev) : forEach [a, b, c] f d = f c (f b (f a d)) := rfl

/-- The three dies are sensed one after another, no sensor near its fault. -/
theorem sensed_holds {readings : List Int} {w : Dev} {o : Od} (hbad : ∀ i, i < 12 → (sensorOf i w).bad < 7) :
    Holds readings w (forEach [0, 1, 2] (senseDie o) (takeReadings readings w)) := by
  obtain ⟨htaken, hbads⟩ := takeReadings_holds readings w
  have hnear (d : Dev) (die : Nat) (hd : ∀ i ∈ dieSensors die, sensorOf i d = sensorOf i (takeReadings readings w)) :
      ∀ i ∈ healthySet d die, (sensorOf i d).bad < 7 := fun i hi => by
    have him := mem_dieSensors_of_healthy hi
    rw [hd i him, hbads]
    exact hbad i (lt_of_mem_dieSensors him)
  have h0 := hnear (takeReadings readings w) 0 fun _ _ => rfl
  have hs0 := senseDie_sensed (o := o) h0
  have h1 := hnear (senseDie o 0 (takeReadings readings w)) 1 fun i hi =>
    hs0.other i (not_mem_dieSensors_of_ne (by decide) (by decide) (by decide) hi)
  have hs1 := senseDie_sensed (o := o) h1
  have h2 := hnear (senseDie o 1 (senseDie o 0 (takeReadings readings w))) 2 fun i hi =>
    (hs1.other i (not_mem_dieSensors_of_ne (by decide) (by decide) (by decide) hi)).trans
      (hs0.other i (not_mem_dieSensors_of_ne (by decide) (by decide) (by decide) hi))
  rw [forEach_three]
  exact ((htaken.senseDie h0).senseDie h1).senseDie h2

/-- The cycle of a die keeps what a cycle holds, takes the die's temperature, and shuts nothing down. -/
theorem Holds.dieCycle {readings : List Int} {w d : Dev} {die : Nat} (h : Holds readings w d) (hdie : die < 3)
    (hcount : 2 ≤ (Machine.healthySet w die).length) (hcold : ∀ i, i < 12 → readings.getD i 0 < 1650) :
    Holds readings w (dieCycle die d).2 ∧ (dieCycle die d).1 = none ∧
    (vget (Machine.dieCycle die d).2.meas.dies die).temp = (Machine.healthySet w die).foldl (fun a i => max a (readings.getD i 0)) (-32768) ∧
    ∀ k, k ≠ die → vget (Machine.dieCycle die d).2.meas.dies k = vget d.meas.dies k := by
  have hset := h.healthySet die
  obtain ⟨hwhy, htemp, hother, hsensors, hlast, hclk⟩ := dieCycle_takes hdie (by rw [hset]; exact hcount) fun i hi => by
    rw [h.reading_healthy hi]
    exact hcold i (lt_of_mem_dieSensors (mem_dieSensors_of_healthy hi))
  have hsensor (i : Nat) : sensorOf i (Machine.dieCycle die d).2 = sensorOf i d := by rw [sensorOf, sensorOf, hsensors]
  refine ⟨⟨fun i hi => by rw [hsensor, h.reading i hi], fun i => by rw [hsensor, h.healthy], hlast.trans h.lastCycle, hclk.trans h.clk⟩, hwhy, ?_, hother⟩
  rw [htemp, hottest_eq_max, ← hset]
  refine List.foldl_ext _ _ _ fun a i hi => ?_
  rw [h.reading_healthy hi]

/-- One die's part in a cycle: the dies that shut down so far, and the device. -/
def dieStep (acc : List (Nat × Nat) × Dev) (k : Nat) : List (Nat × Nat) × Dev :=
  let (why, d) := dieCycle k acc.2
  match why with
  | some c => (acc.1 ++ [(k, c)], d)
  | none => (acc.1, d)

theorem dieStep_none {l : List (Nat × Nat)} {d : Dev} {k : Nat} (h : (dieCycle k d).1 = none) :
    dieStep (l, d) k = (l, (dieCycle k d).2) := by
  unfold dieStep
  dsimp only
  rw [h]

/-- The three dies' cycles on a device that holds the readings: none shuts down, and each has its temperature. -/
theorem dies_cycle {readings : List Int} {w d : Dev} (h : Holds readings w d) (hcount : ∀ die : Fin 3, 2 ≤ (healthySet w die.val).length)
    (hcold : ∀ i, i < 12 → readings.getD i 0 < 1650) :
    (([0, 1, 2] : List Nat).foldl dieStep ([], d)).1 = [] ∧ Holds readings w (([0, 1, 2] : List Nat).foldl dieStep ([], d)).2 ∧
    ∀ die : Fin 3, (vget (([0, 1, 2] : List Nat).foldl dieStep ([], d)).2.meas.dies die.val).temp =
      (healthySet w die.val).foldl (fun a i => max a (readings.getD i 0)) (-32768) := by
  obtain ⟨h0, hwhy0, htemp0, hkeep0⟩ := h.dieCycle (die := 0) (by decide) (hcount 0) hcold
  obtain ⟨h1, hwhy1, htemp1, hkeep1⟩ := h0.dieCycle (die := 1) (by decide) (hcount 1) hcold
  obtain ⟨h2, hwhy2, htemp2, hkeep2⟩ := h1.dieCycle (die := 2) (by decide) (hcount 2) hcold
  have hfold : ([0, 1, 2] : List Nat).foldl dieStep ([], d) = ([], (dieCycle 2 (dieCycle 1 (dieCycle 0 d).2).2).2) := by
    simp only [List.foldl_cons, List.foldl_nil, dieStep_none hwhy0, dieStep_none hwhy1, dieStep_none hwhy2]
  rw [hfold]
  refine ⟨rfl, h2, fun die => ?_⟩
  have hdie : die = 0 ∨ die = 1 ∨ die = 2 := by omega
  rcases hdie with rfl | rfl | rfl
  · rw [hkeep2 _ (by decide), hkeep1 _ (by decide)]
    exact htemp0
  · rw [hkeep2 _ (by decide)]
    exact htemp1
  · exact htemp2

/-- What a cycle hands to the capture sets of a die. -/
def handDie (o : Od) (k : Nat) (d : Dev) : Dev :=
  handTo o 4 (0x10 + k) (vget d.meas.dies k).temp (forEach (dieSensors k) (fun i d => handTo o 4 i (readingOf d i) d) d)

theorem handTo_meas (o : Od) (kind arg : Nat) (v : Int) (d : Dev) : (handTo o kind arg v d).meas = d.meas := handTo_leaves (p := .meas) (by decide) ..

theorem handTo_clk (o : Od) (kind arg : Nat) (v : Int) (d : Dev) : (handTo o kind arg v d).clk = d.clk := handTo_leaves (p := .clk) (by decide) ..

theorem handDie_meas (o : Od) (k : Nat) (d : Dev) : (handDie o k d).meas = d.meas :=
  (handTo_meas ..).trans (forEach_eq Dev.meas d fun _ _ => handTo_meas ..)

theorem handDie_clk (o : Od) (k : Nat) (d : Dev) : (handDie o k d).clk = d.clk :=
  (handTo_clk ..).trans (forEach_eq Dev.clk d fun _ _ => handTo_clk ..)

/-- A cycle on the dies that can be read: the dies that shut down, and the device. -/
def cycleOn (o : Od) (readings : List Int) (dies : List Nat) (d : Dev) : List (Nat × Nat) × Dev :=
  dies.foldl dieStep ([], forEach dies (senseDie o)
    (forEach (dies.flatMap dieSensors) (fun i d => modSensor i (fun x => { x with reading := readings.getD i 0 }) d)
      { d with meas := { d.meas with lastCycle := d.clk.dt } }))

theorem cycleOn_dies (o : Od) (readings : List Int) (d : Dev) :
    cycleOn o readings [0, 1, 2] d = ([0, 1, 2] : List Nat).foldl dieStep ([], forEach [0, 1, 2] (senseDie o) (takeReadings readings d)) := rfl

/-- A cycle whose instant has come. -/
theorem temperatureCycle_due {readings : List Int} {s : State} (hmeas : s.dev.isOn .meas = true) (hlen : readings.length = 12)
    (hdt : s.dev.meas.lastCycle + usT 100 ≤ s.dev.clk.dt) (hcount : s.dev.clk.counting = true) :
    temperatureCycle readings s = (cycleOn s.od readings ([0, 1, 2].filter (dieReadable s.dev)) s.dev).1.foldl (fun s p => thermalShutdown p.1 p.2 s)
      { s with dev := forEach ([0, 1, 2].filter (dieReadable s.dev)) (handDie s.od)
                        (cycleOn s.od readings ([0, 1, 2].filter (dieReadable s.dev)) s.dev).2 } := by
  unfold temperatureCycle
  extract_lets d
  rw [if_neg (by simp [d, hmeas, hlen, hcount, hdt])]
  rfl

/-- A cycle in which all dies are readable and none shuts down sets the device only. -/
theorem temperatureCycle_quiet {readings : List Int} {s : State} (hmeas : s.dev.isOn .meas = true) (hlen : readings.length = 12)
    (hdt : s.dev.meas.lastCycle + usT 100 ≤ s.dev.clk.dt) (hcount : s.dev.clk.counting = true) (hread : ∀ die : Fin 3, dieReadable s.dev die.val = true)
    (hquiet : (cycleOn s.od readings [0, 1, 2] s.dev).1 = []) :
    temperatureCycle readings s = { s with dev := forEach [0, 1, 2] (handDie s.od) (cycleOn s.od readings [0, 1, 2] s.dev).2 } := by
  have hdies : [0, 1, 2].filter (dieReadable s.dev) = [0, 1, 2] := by
    simp [show dieReadable s.dev 0 = true from hread 0, show dieReadable s.dev 1 = true from hread 1, show dieReadable s.dev 2 = true from hread 2]
  rw [temperatureCycle_due hmeas hlen hdt hcount, hdies, hquiet, List.foldl_nil]

/-- What a cycle leaves of the device: its instant, the readings, and the temperatures of the dies. -/
structure CycleTaken (readings : List Int) (w d : Dev) : Prop where
  lastCycle : d.meas.lastCycle = d.clk.dt
  reading : ∀ i : Fin 12, (vget d.meas.sensors i.val).reading = readings.getD i.val 0
  temp : ∀ die : Fin 3, (vget d.meas.dies die.val).temp = (healthySet w die.val).foldl (fun a i => max a (readings.getD i 0)) (-32768)

theorem handDies_taken {readings : List Int} {w d : Dev} (o : Od) (h : Holds readings w d)
    (htemp : ∀ die : Fin 3, (vget d.meas.dies die.val).temp = (healthySet w die.val).foldl (fun a i => max a (readings.getD i 0)) (-32768)) :
    CycleTaken readings w (forEach [0, 1, 2] (handDie o) d) := by
  have hmeas : (forEach [0, 1, 2] (handDie o) d).meas = d.meas := forEach_eq Dev.meas d fun _ _ => handDie_meas ..
  have hclk : (forEach [0, 1, 2] (handDie o) d).clk = d.clk := forEach_eq Dev.clk d fun _ _ => handDie_clk ..
  exact ⟨by rw [hmeas, hclk, h.lastCycle, h.clk], fun i => by rw [hmeas]; exact h.reading i.val i.isLt, fun die => by rw [hmeas]; exact htemp die⟩

/-- A cycle of twelve readings below shutdown takes them and shuts no die down. -/
theorem temperatureCycle_takes {readings : List Int} {s : State} (hmeas : s.dev.isOn .meas = true) (hlen : readings.length = 12)
    (hdt : s.dev.meas.lastCycle + usT 100 ≤ s.dev.clk.dt) (hcount : s.dev.clk.counting = true)
    (hdies : ∀ die : Fin 3, 2 ≤ (healthySet s.dev die.val).length ∧ dieReadable s.dev die.val = true) (hcold : ∀ i, i < 12 → readings.getD i 0 < 1650)
    (hbad : ∀ i, i < 12 → (sensorOf i s.dev).bad < 7) :
    (temperatureCycle readings s).od = s.od ∧ CycleTaken readings s.dev (temperatureCycle readings s).dev := by
  obtain ⟨hquiet, hholds, htemps⟩ := dies_cycle (sensed_holds (readings := readings) (o := s.od) hbad) (fun die => (hdies die).1) hcold
  rw [← cycleOn_dies] at hquiet hholds htemps
  rw [temperatureCycle_quiet hmeas hlen hdt hcount (fun die => (hdies die).2) hquiet]
  have htaken := handDies_taken s.od hholds htemps
  dsimp only
  exact ⟨rfl, htaken⟩

/-! ### The rows -/

/-- The instant the row of a temperature cycle waits for. -/
def cycleDue (_ : Od) (d : Dev) : Option Instant := instantIf (d.isOn .meas) (.device (d.meas.lastCycle + usT 100))

/-- A command that comes at an instant of its own and acts on the whole state. -/
theorem completes_timedAct {c : Instr} {due : Od → Dev → Option Instant} {f : State → State} {s : State} {P : State → Prop}
    (hexec : exec c s = timedAct due f s) (h : P { f (s.upTo due) with pending := (s.upTo due).pending }) : Completes c s P := ⟨_, hexec, h⟩

theorem temperatureCycle_completes {readings : List Int} {s : State} (hmeas : s.dev.isOn .meas = true) (hcount : s.dev.clk.counting = true)
    (hlen : readings.length = 12) (hrange : ∀ r ∈ readings, -550 ≤ r ∧ r < 1650)
    (hdies : ∀ die : Fin 3, 2 ≤ (healthySet s.dev die.val).length ∧ dieReadable s.dev die.val = true)
    (hbad : ∀ i : Fin 12, (vget s.dev.meas.sensors i.val).bad < 7) :
    Completes (.temperatureCycle readings) s (fun u => u.od = s.od ∧ u.dev.meas.lastCycle = u.dev.clk.dt ∧
      (∀ i : Fin 12, (vget u.dev.meas.sensors i.val).reading = readings.getD i.val 0) ∧
      ∀ die : Fin 3, (vget u.dev.meas.dies die.val).temp =
        (healthySet s.dev die.val).foldl (fun a i => max a (readings.getD i 0)) (-32768)) := by
  have hm : (s.upTo cycleDue).dev.meas = s.dev.meas := upTo_part cycleDue s (p := .meas) (by decide)
  have hrails : (s.upTo cycleDue).dev.rails = s.dev.rails := upTo_part cycleDue s (p := .rails) (by decide)
  have hdt : s.dev.meas.lastCycle + usT 100 ≤ (s.upTo cycleDue).dev.clk.dt :=
    le_dt_upTo (by simp only [cycleDue, hmeas, instantIf, if_true]) hcount
  have hhealthy (die : Nat) : healthySet (s.upTo cycleDue).dev die = healthySet s.dev die := by simp only [healthySet, hm]
  have hreadable (die : Nat) : dieReadable (s.upTo cycleDue).dev die = dieReadable s.dev die := by simp only [dieReadable, hrails]
  have hcold (i : Nat) (hi : i < 12) : readings.getD i 0 < 1650 := by
    rw [List.getD_eq_getElem _ _ (by omega)]
    exact (hrange _ (List.getElem_mem _)).2
  obtain ⟨hod, htaken⟩ := temperatureCycle_takes (readings := readings) (s := s.upTo cycleDue) (by rw [upTo_isOn]; exact hmeas) hlen
    (by rw [hm]; exact hdt) (by rw [upTo_counting]; exact hcount) (fun die => by rw [hhealthy, hreadable]; exact hdies die) hcold
    (fun i hi => by rw [sensorOf, hm]; exact hbad ⟨i, hi⟩)
  refine completes_timedAct (due := cycleDue) (f := temperatureCycle readings) rfl
    ⟨hod.trans (upTo_od ..), htaken.lastCycle, htaken.reading, fun die => ?_⟩
  rw [← hhealthy]
  exact htaken.temp die

/-- R381: a latch whose release is due clears. -/
theorem thermalRelease_clears {o : Od} {die : Nat} {d : Dev} (hdie : die < 3) (h : thermalClears d die = true) :
    (vget (thermalRelease o die d).meas.dies die).latched = false := by
  unfold thermalRelease
  rw [if_neg (by simp [h])]
  extract_lets taken d1
  have hd1 : (vget d1.meas.dies die).latched = false :=
    (congrArg (fun m : Meas => (vget m.dies die).latched) (record_meas ..)).trans (congrArg Die.latched (vget_vmod_same _ _ _ hdie))
  split
  · exact hd1
  · split
    · exact hd1
    · exact (congrArg (fun m : Meas => (vget m.dies die).latched) (startWake_leaves (p := .meas) (by decide) ..)).trans hd1

theorem tsClear_heals {o : Od} {i : Nat} {d : Dev} (hi : i < 12) : (sensorOf i (tsClear o i d)).healthy = true := by
  unfold tsClear
  split
  next h => exact h
  · refine (congrArg Sensor.healthy (sensorOf_of_meas (record_meas ..) i)).trans ?_
    exact congrArg Sensor.healthy (vget_vmod_same _ _ _ hi)

/-- The value of a write that passes its checks is one that its object takes. -/
theorem valueCheck_of_writeCheck {s : State} {session : Option Nat} {ix sub : Nat} {b : Bytes} {r : OdRow} (hrow : odRow ix sub = some r)
    (h : writeCheck s session ix sub b = none) : valueCheck s.od r ix sub b = none := by
  simp only [writeCheck, hrow, Option.or_eq_none_iff] at h
  obtain ⟨-, h⟩ := h
  split at h
  · cases h
  · split at h
    · cases h
    · exact (Option.or_eq_none_iff.1 h).1

/-- The row of TS_CLEAR, which takes the number of one of the twelve sensors. -/
theorem tsClear_row : odRow 0x2661 2 = some ⟨0x2661, 1, 1, 0x02, 0x02, .u 1, .wo, .num 0, false, false, .codesUpTo 11⟩ := by decide +kernel

theorem tsClear_value {s : State} {session : Option Nat} {v : BitVec 8} (h : writeCheck s session 0x2661 2 [v] = none) : v.toNat < 12 := by
  have hvalue := valueCheck_of_writeCheck tsClear_row h
  simp only [valueCheck, Option.or_eq_none_iff] at hvalue
  obtain ⟨-, hrow, -⟩ := hvalue
  have hle : leNat [v] ≤ 11 := by simpa [rowCheck, require, badValue] using hrow
  rw [leNat_singleton] at hle
  omega

theorem tsClear_completes {via : Via} {v : BitVec 8} {s : State} (h : accepted via 0x2661 2 [v] s = true) :
    Completes (.tsClear via v) s (fun u => (vget u.dev.meas.sensors v.toNat).healthy = true ∧ u.od = s.od) := by
  refine completes_of_write rfl ⟨by decide, by decide, by simp, by decide, by decide⟩ h fun n t u w ho => ?_
  have heff : writeEffect (some n) 0x2661 2 [v] t = wrote (t.act (tsClear · v.toNat)) := by rw [← leNat_singleton]; rfl
  have hv : v.toNat < 12 := tsClear_value ho.check
  refine ⟨?_, ho.od_kept (by rw [heff]; simp [wrote])⟩
  obtain rfl := congrArg Prod.snd (heff.symm.trans ho.effect)
  have hmeas : w.dev.meas = (tsClear t.od v.toNat t.dev).meas := ho.part (p := .meas) (by decide)
  exact (congrArg (fun m : Meas => (vget m.sensors v.toNat).healthy) hmeas).trans (tsClear_heals hv)

/-- Settles O44: the cycle holds its readings through sensing and dies; a release and a clear each act once. -/
theorem temperatureIsWatched : Obligations.TemperatureIsWatched := by
  unfold Obligations.TemperatureIsWatched
  refine ⟨fun readings s => temperatureCycle_completes, fun die s h => ?_, fun via v s => tsClear_completes⟩
  refine completes_timed (due := releaseInstant die.val) (f := (thermalRelease · die.val)) rfl ⟨?_, rfl⟩
  exact thermalRelease_clears die.isLt h

end Sys2Proof.Machine
end

section
/-! The streams (O45): a bad descriptor whose index was completed already. -/
namespace Sys2Proof.Machine

/-- Stream 0 is enabled with one descriptor posted, which counts as completed already, and a later TAIL; the link is ready. -/
def streamWithDoubleIndex : State := {
  dev := {
    doms := Vector.replicate 8 { state := .on }
    acq := {
      pcie := { perst := false, up := true, busMaster := true }
      streams := Vector.replicate 32 { enabled := true, posted := 1, tail := 5, ended := [0] } } } }

/-- The 32 bytes of a bad descriptor: its LENGTH is 0. -/
def zeroDescriptor : Bytes := List.replicate 32 0

theorem streamWithDoubleIndex_fetching :
    let x := getStream streamWithDoubleIndex.dev 0
    x.enabled = true ∧ x.down = false ∧ x.paused = false ∧ linkReady streamWithDoubleIndex.dev = true ∧ x.fetched ≠ x.posted := by
  decide +kernel

/-- The descriptor breach disables the stream, whose fetch index then goes on to its TAIL. -/
theorem fetch_of_ended_index_jumps :
    ∃ t, exec (.descriptorFetchComplete 0 zeroDescriptor) streamWithDoubleIndex = .next t ∧ (getStream t.dev 0).fetched = 5 := by
  refine ⟨_, rfl, ?_⟩
  decide +kernel

/-- Refutes O45: the fetch of a bad descriptor whose index was completed already is a breach (R66), which disables the stream and takes
FETCHED to TAIL, so FETCHED does not go on by one. -/
theorem not_streamsRun : ¬ Obligations.StreamsRun := by
  rintro ⟨-, -, -, -, -, hfetch, -⟩
  obtain ⟨henabled, hdown, hpaused, hready, hposted⟩ := streamWithDoubleIndex_fetching
  obtain ⟨t, ht, hjumped⟩ := fetch_of_ended_index_jumps
  obtain ⟨u, hu, -, hnext, -⟩ := hfetch 0 zeroDescriptor streamWithDoubleIndex henabled hdown hpaused hready hposted rfl
  obtain rfl : t = u := Host.Outcome.next.inj (ht.symm.trans hu)
  exact absurd (hjumped.symm.trans hnext) (by decide +kernel)

end Sys2Proof.Machine
end

section
/-! The PCIe endpoint (O46): reset, link, power state, configuration space, TIME_LO, MSI-X. -/
namespace Sys2Proof.Machine

/-! ### Following the channels and recording leave the endpoint and the streams -/

theorem followChannels_acq (o : Od) (d : Dev) : (followChannels o d).acq = d.acq := followChannels_leaves (p := .acq) (by decide) o d

theorem record_acq (o code source data) (d : Dev) : (record o code source data d).acq = d.acq := by
  simp only [record_frame]

/-! ### The link -/

/-- Every stream that is enabled is down. -/
theorem streamsDown_down (d : Dev) (n : Fin 32) (h : (getStream d n.val).enabled = true) :
    (getStream (streamsDown d) n.val).down = true := by
  unfold getStream vget at h ⊢
  simp only [streamsDown, n.isLt, getElem?_pos, Option.getD_some, Vector.getElem_map] at h ⊢
  split
  · rfl
  next hnot => simpa [h] using hnot

theorem streamsDown_pcie (d : Dev) : (streamsDown d).acq.pcie = d.acq.pcie := rfl

/-- The link going down takes every enabled stream down. -/
theorem linkDown_streams (o : Od) (cause : Nat) (d : Dev) (hup : d.acq.pcie.up = true) :
    (linkDown o cause d).acq.streams = (streamsDown d).acq.streams := by
  simp only [linkDown, hup, Bool.not_true, Bool.false_eq_true, if_false, followChannels_acq, record_acq, onPcie]

theorem linkDown_pcie_gone (o : Od) (d : Dev) (hup : d.acq.pcie.up = true) :
    (linkDown o 2 d).acq.pcie = { d.acq.pcie with up := false, busMaster := false, d3hot := false, parked := [] } := by
  simp [linkDown, hup, followChannels_acq, onPcie, streamsDown]

/-- A link that is down by its pin or its partner is no longer up, and masters no longer. -/
theorem down_of_linkDown (o : Od) (cause : Nat) (d : Dev) (hup : d.acq.pcie.up = true) (n : Fin 32)
    (h : (getStream d n.val).enabled = true) : (getStream (linkDown o cause d) n.val).down = true := by
  have hdown := streamsDown_down d n h
  unfold getStream at hdown ⊢
  rw [linkDown_streams o cause d hup]
  exact hdown

/-! ### The configuration space -/

/-- The Command register written with Bus Master Enable clear clears it. -/
theorem configWrite_command_clears (o : Od) (v : Nat) (d : Dev) (hv : v.testBit 2 = false) :
    (configWrite o 4 v d).acq.pcie.busMaster = false := by
  simp only [configWrite, hv, Bool.not_false, Bool.and_true]
  split <;> simp only [followChannels_acq, onPcie]

theorem configWrite_upperBar (o : Od) (v : Nat) (d : Dev) :
    configWrite o 0x14 v d = onPcie (fun p => { p with bar := v % 2 ^ 32 * 2 ^ 32 + p.bar % 2 ^ 32 }) d := rfl

/-! ### Requests at the BARs -/

/-- While NET is ON no access waits. -/
theorem barWaits_of_on {d : Dev} (hon : d.isOn .net = true) : barWaits d = false := by
  have hstate : (getDom d .net).state = .on := by simpa [Dev.isOn, Dev.domState, getDom] using hon
  simp [barWaits, hstate]

theorem barAccess_of_on {s : State} (a : BarAccess) (hon : s.dev.isOn .net = true) : barAccess a s = barServe s a := by
  rw [barAccess, if_neg (by simp [barWaits_of_on hon])]

/-- A read of TIME_LO keeps the upper half for TIME_HI. -/
theorem timeLoRead_served {d : Dev} (hon : d.isOn .net = true) (hup : d.acq.pcie.up = true) (hmemory : d.acq.pcie.memory = true)
    (hd0 : d.acq.pcie.d3hot = false) :
    (timeLoRead d).acq.pcie.timeHi = d.clk.dt / 2 ^ 32 % 2 ^ 32 ∧
      (timeLoRead d).out = d.out ++ [.pcieCompletion false (d.clk.dt % 2 ^ 32)] := by
  simp [timeLoRead, hon, hup, hmemory, hd0, onPcie]

/-- A vector that is not masked signals over a ready link. -/
theorem raiseVector_sent {v : Nat} {d : Dev} (hready : linkReady d = true) (hmask : d.acq.pcie.masked.testBit v = false) :
    raiseVector v d = { d with out := d.out ++ [.msix v] } := by
  simp [raiseVector, hready, hmask]

/-- A vector that is unmasked is not masked, and where it was pending over a ready link it is sent. -/
theorem msixUnmask_unmasks {v : Nat} {d : Dev} (hon : d.isOn .net = true) :
    (msixUnmask v d).acq.pcie.masked.testBit v = false ∧
      (d.acq.pcie.pending.testBit v = true → linkReady d = true →
        (msixUnmask v d).acq.pcie.pending.testBit v = false ∧ (msixUnmask v d).out = d.out ++ [.msix v]) := by
  have hmask := clrBit_testBit_self d.acq.pcie.masked v
  simp only [msixUnmask, hon, Bool.not_true, Bool.false_eq_true, if_false]
  split
  next hsend =>
    have hready : linkReady d = true := (Bool.and_eq_true_iff.mp hsend).2
    rw [raiseVector_sent (d := onPcie (fun p => { p with pending := clrBit p.pending v }) (onPcie (fun p => { p with masked := clrBit p.masked v }) d))
      hready hmask]
    exact ⟨hmask, fun _ _ => ⟨clrBit_testBit_self _ _, rfl⟩⟩
  next hkeep => exact ⟨hmask, fun hpending hready => absurd (by rw [hpending, hready]; rfl) hkeep⟩

/-- Settles O46: the reset pin, the link, D3hot, the configuration space, TIME_LO and MSI-X each act as R120, R395 to R397 and R403 say. -/
theorem pcieEndpointActs : Obligations.PcieEndpointActs := by
  unfold Obligations.PcieEndpointActs
  refine ⟨fun s => ?_, fun s => ?_, fun speed width s hdown hperst h3 h4 hon hspeed hwidth => ?_, fun s hup => ?_, fun s hup hd0 => ?_,
    fun s hon => ?_, fun reg v s hperst hon => ?_, fun v s hperst hon => ?_, fun w reg v s hperst hoff => ?_,
    fun s hon hup hmemory hd0 => ?_, fun v s hon => ?_⟩
  · refine completes_drives (f := perstAssert) rfl ⟨?_, rfl⟩
    simp only [perstAssert, followChannels_acq, onPcie]
  · exact completes_drives (f := fun _ => onPcie fun p => { p with perst := false }) rfl ⟨rfl, rfl⟩
  · refine completes_drives (f := fun o => linkUp o speed.val width.val) rfl ?_
    simp [linkUp, hdown, hperst, h3, h4, hon, hspeed, hwidth, followChannels_acq, onPcie]
  · refine completes_drives (f := (linkDown · 2)) rfl ⟨?_, ?_, rfl, down_of_linkDown _ _ _ hup⟩
    · exact congrArg Pcie.up (linkDown_pcie_gone s.od s.dev hup)
    · exact congrArg Pcie.busMaster (linkDown_pcie_gone s.od s.dev hup)
  · refine completes_drives (f := d3hotEntry) rfl ?_
    simp only [d3hotEntry, hup, hd0, Bool.not_false, Bool.and_self, if_true]
    exact ⟨rfl, trivial, down_of_linkDown _ _ _ hup⟩
  · refine completes_drives (f := fun o d => if d.isOn .net then configWrite o 4 (bitIf 1 d.acq.pcie.memory) d else d) rfl ⟨?_, rfl⟩
    simp only [hon, if_true]
    exact configWrite_command_clears _ _ _ (by cases s.dev.acq.pcie.memory <;> decide)
  · refine completes_drives (f := fun o => configRequest o false reg.toNat v.toNat) rfl ⟨?_, rfl⟩
    simp [configRequest, hperst, hon]
  · refine completes_drives (f := fun o => configRequest o true 0x14 v.toNat) rfl ?_
    have hv := v.isLt
    simp only [configRequest, hperst, hon, configWrite_upperBar, onPcie, Bool.not_true, Bool.false_eq_true, if_false, if_true]
    exact ⟨by omega, by omega, trivial⟩
  · refine completes_drives (f := fun o => configRequest o w reg.toNat v.toNat) rfl ⟨?_, rfl⟩
    simp [configRequest, hperst, hoff]
  · refine ⟨_, rfl, ?_⟩
    rw [barAccess_of_on _ hon]
    obtain ⟨hlatch, hout⟩ := timeLoRead_served hon hup hmemory hd0
    exact ⟨hlatch, hout, rfl⟩
  · refine ⟨_, rfl, ?_⟩
    rw [barAccess_of_on _ hon]
    obtain ⟨hmask, hsent⟩ := msixUnmask_unmasks (v := v.val) hon
    exact ⟨hmask, rfl, hsent⟩

end Sys2Proof.Machine
end

section
/-! The sequencer's window and the credit breach (O8); the ledger's gaps, checkpoints and resets (O9). -/
namespace Sys2Proof.Machine

/-! ### The window (R67) -/

theorem foldl_number_held (o : Od) (l : List Event) (d : Dev) :
    (l.foldl (fun d e => number o false e d) d).seqr.held = d.seqr.held := by
  induction l generalizing d with
  | nil => rfl
  | cons e l ih => exact ih _

/-- What a release leaves held is what is not due. -/
theorem releaseDue_held (o : Od) (d : Dev) :
    (releaseDue o d).seqr.held = d.seqr.held.filter (fun e => !decide (e.time + 2 * period o ≤ d.clk.dt)) :=
  foldl_number_held ..

theorem mem_releaseDue_held {o : Od} {d : Dev} {e : Event} :
    e ∈ (releaseDue o d).seqr.held ↔ e ∈ d.seqr.held ∧ d.clk.dt < e.time + 2 * period o := by
  simp [releaseDue_held]

theorem windowClose_completes {s : State} {e : Event} {rest : List Event} (hsec : s.dev.isOn .sec = true)
    (hcounting : s.dev.clk.counting = true) (hheld : s.dev.seqr.held = e :: rest) :
    e ∉ (releaseDue s.od (s.upTo windowDue).dev).seqr.held ∧
      Completes .sequencerWindowClose s (fun u => u.od = s.od ∧
        u.dev = stageAllEvents s.od (firstFault s.od (releaseDue s.od (s.upTo windowDue).dev))) := by
  have hdue : windowDue s.od s.dev = some (.device (e.time + 2 * period s.od)) := by simp [windowDue, hheld, instantIf, hsec]
  refine ⟨fun hmem => ?_, completes_timed (f := windowClose) rfl ⟨rfl, ?_⟩⟩
  · exact absurd (mem_releaseDue_held.mp hmem).2 (Nat.not_lt.mpr (le_dt_upTo hdue hcounting))
  · simp only [windowClose, upTo_isOn, hsec, if_true]

theorem held_within_window {o : Od} {d : Dev} {e : Event} (h : e ∈ (releaseDue o d).seqr.held) : d.clk.dt < e.time + 2 * period o :=
  (mem_releaseDue_held.mp h).2

/-! ### A credit breach (R63) -/

/-- Recording may change of the breach registers only the number of the last breach's record. -/
def SameBreachCounts (a b : Dev) : Prop := a.breach.summary = b.breach.summary ∧ a.breach.credit = b.breach.credit

theorem SameBreachCounts.trans {a b c : Dev} (h : SameBreachCounts a b) (k : SameBreachCounts b c) : SameBreachCounts a c :=
  ⟨h.1.trans k.1, h.2.trans k.2⟩

theorem number_breachCounts (o : Od) (late : Bool) (e : Event) (d : Dev) : SameBreachCounts (number o late e d) d := by
  unfold SameBreachCounts number
  dsimp only
  split <;> exact ⟨rfl, rfl⟩

theorem releaseDue_breachCounts (o : Od) (d : Dev) : SameBreachCounts (releaseDue o d) d := by
  have hfold : ∀ (l : List Event) (d : Dev), SameBreachCounts (l.foldl (fun d e => number o false e d) d) d := by
    intro l
    induction l with
    | nil => exact fun d => ⟨rfl, rfl⟩
    | cons e l ih => exact fun d => (ih _).trans (number_breachCounts ..)
  exact hfold _ { d with seqr := _ }

theorem record_breachCounts (o : Od) (code source : Nat) (data : Bytes) (d : Dev) : SameBreachCounts (record o code source data d) d := by
  unfold record recordAt arrive aonKeep
  dsimp only
  split
  · split
    · exact number_breachCounts ..
    · split
      · exact (number_breachCounts ..).trans (releaseDue_breachCounts ..)
      · split
        · exact ⟨rfl, rfl⟩
        · exact number_breachCounts ..
  · split
    · split <;> exact ⟨rfl, rfl⟩
    · exact ⟨rfl, rfl⟩

theorem closeEpoch_breachCounts (o : Od) (c : Nat) (d : Dev) : SameBreachCounts (closeEpoch o c d) d := by
  unfold closeEpoch
  dsimp only
  split
  · exact ⟨rfl, rfl⟩
  · exact record_breachCounts ..

theorem creditBreach_breaches {c : Fin 128} {o : Od} {d : Dev} (hlink : d.isOn .link = true) (hopen : (getCell d c.val).txn.isOpen = true) :
    (creditBreach c.val o d).breach.summary.testBit 2 = true ∧ (getCell (creditBreach c.val o d) c.val).txn.isOpen = false ∧
      (creditBreach c.val o d).breach.credit = satInc d.breach.credit := by
  unfold creditBreach
  dsimp only
  rw [if_pos (by simp [hlink, hopen])]
  have hcounts := (record_breachCounts o 0x0510 (srcCell c.val) ((getCell d c.val).txn.terms ++ toLE 2 (getCell d c.val).txn.epoch)
    (closeEpoch o c.val d)).trans (closeEpoch_breachCounts o c.val d)
  refine ⟨?_, ?_, congrArg satInc hcounts.2⟩
  · exact setBit_testBit_self _ 2
  · rw [getCell_modCell_same _ _ c.isLt, queueControl_cell _ c.isLt]
    have hcell := (getCell_record (o := o) (code := 0x0510) (source := srcCell c.val)
      (data := (getCell d c.val).txn.terms ++ toLE 2 (getCell d c.val).txn.epoch) (d := closeEpoch o c.val d) (c := c.val)).trans
      (closeEpoch_cell d c.isLt)
    exact (congrArg (fun x => x.txn.isOpen) hcell).trans (shut_isOpen _)

/-- Settles O8: at the end of its window the head of the queue is due, and a release leaves held what is not; a breach closes the epoch. -/
theorem sequencerAndCreditAct : Obligations.SequencerAndCreditAct := by
  unfold Obligations.SequencerAndCreditAct
  refine ⟨fun s e rest hsec hcounting hheld => ?_, fun c s hlink hopen => ?_⟩
  · obtain ⟨hgone, hcompletes⟩ := windowClose_completes hsec hcounting hheld
    exact ⟨fun x hx => held_within_window hx, hgone, hcompletes⟩
  · exact completes_drives (f := creditBreach c.val) rfl (creditBreach_breaches hlink hopen)

/-! ### Gaps (R74) -/

/-- An event of an instant of its own, recorded while SEC is ON, has reached the sequencer. -/
theorem recordAt_recorded {o : Od} {time code source : Nat} {data : Bytes} {d : Dev} (h : d.isOn .sec = true) :
    recorded code time source (padTo 16 data) (recordAt o time code source data d) := by
  unfold recorded recordAt
  simp only [h, if_true]
  obtain hheld | ⟨r, hlog, hr⟩ := arrive_keeps_event o { time := time, code := code, source := source, data := padTo 16 data } d
  · exact .inl ⟨_, hheld, rfl, rfl, rfl, rfl⟩
  · exact .inr ⟨r, hlog, by simp [hr]⟩

/-- A whole second of a gap counts in the gap, and the first in the intervals. -/
theorem ledgerSecond_counts {o : Od} {i : Fin 133} {d : Dev} {start cause len secs : Nat} (hctrl : d.isOn .ctrl = true)
    (hgap : (vget d.ledger.accounts i.val).gap = some (start, cause, len, secs)) (hlen : secT (secs + 1) ≤ len) :
    vget (ledgerSecond o i.val d).ledger.accounts i.val = { vget d.ledger.accounts i.val with
      gap := some (start, cause, len, secs + 1)
      intervals := if secs = 0 then satInc (vget d.ledger.accounts i.val).intervals else (vget d.ledger.accounts i.val).intervals } := by
  unfold ledgerSecond
  simp only [hgap, hctrl, Bool.not_true, Bool.false_or, decide_eq_true_eq, if_neg (Nat.not_lt.mpr hlen)]
  have hleft := recordAt_leaves (p := .ledger) (by decide) o start 0x0520 (accountSrc i.val)
    (toLE 2 (accountSel i.val) ++ [b8 cause, 0, 0, 0, 0, 0] ++ toLE 8 (secT (secs + 1)))
  exact (congrArg (fun l : Ledger => vget l.accounts i.val) (hleft _)).trans (vget_vset_same _ _ _ i.isLt)

/-- The event of the second stands at the start of the gap, with the length up to that second. -/
theorem ledgerSecond_recorded {o : Od} {i : Fin 133} {d : Dev} {start cause len secs : Nat} (hctrl : d.isOn .ctrl = true)
    (hgap : (vget d.ledger.accounts i.val).gap = some (start, cause, len, secs)) (hlen : secT (secs + 1) ≤ len) (hsec : d.isOn .sec = true) :
    recorded 0x0520 start (accountSrc i.val)
      (padTo 16 (toLE 2 (accountSel i.val) ++ [b8 cause, 0, 0, 0, 0, 0] ++ toLE 8 (secT (secs + 1)))) (ledgerSecond o i.val d) := by
  unfold ledgerSecond
  simp only [hgap, hctrl, Bool.not_true, Bool.false_or, decide_eq_true_eq, if_neg (Nat.not_lt.mpr hlen)]
  exact recordAt_recorded hsec

/-! ### Checkpoints (R75) -/

theorem checkpointNow_slot (d : Dev) : (checkpointNow d).2 < 16 := by
  unfold checkpointNow
  cases currentSlot d with
  | none => exact Nat.zero_lt_succ _
  | some i => exact Nat.mod_lt _ (by decide)

/-- A checkpoint starts with the accounts as they are, in a slot that is not valid until it is done. -/
theorem checkpointStart_begins {d : Dev} (hfree : d.ledger.writing = none) (hruns : (d.ledger.resume != .no) = false) :
    (checkpointStart d).ledger = { d.ledger with writing := some (checkpointNow d) } ∧
      (vget (checkpointStart d).mram (checkpointNow d).2).valid = false := by
  unfold checkpointStart
  rw [if_neg (by simp [hfree, hruns])]
  refine ⟨rfl, ?_⟩
  exact congrArg Checkpoint.valid (vget_vmod_same _ _ _ (checkpointNow_slot d))

/-- The checkpoint of a device is that of its ledger and its MRAM. -/
theorem checkpointNow_congr {a b : Dev} (hmram : a.mram = b.mram) (hledger : a.ledger = b.ledger) : checkpointNow a = checkpointNow b := by
  unfold checkpointNow currentSlot
  rw [hmram, hledger]

/-- At its interval a checkpoint is begun, and the interval begins again. -/
theorem checkpointInterval_begins {o : Od} {d : Dev} (hctrl : d.isOn .ctrl = true) (hover : d.ledger.timer + secT (odU o 0x2540 1) ≤ d.clk.dt)
    (hfree : d.ledger.writing = none) (hruns : (d.ledger.resume != .no) = false) :
    (checkpointInterval o d).ledger = { d.ledger with timer := d.clk.dt, writing := some (checkpointNow d) } ∧
      (vget (checkpointInterval o d).mram (checkpointNow d).2).valid = false := by
  unfold checkpointInterval
  rw [if_neg (by simp [hctrl, hover, hruns])]
  exact checkpointStart_begins (d := onLedger (fun l => { l with timer := d.clk.dt }) d) hfree hruns

theorem checkpointInterval_completes {s : State} (hctrl : s.dev.isOn .ctrl = true) (hcounting : s.dev.clk.counting = true)
    (hruns : (s.dev.ledger.resume == .no) = true) (hfree : s.dev.ledger.writing = none) :
    Completes .ledgerCheckpointInterval s (fun u => u.dev.ledger.timer = u.dev.clk.dt ∧
      s.dev.ledger.timer + secT (odU s.od 0x2540 1) ≤ u.dev.clk.dt ∧ u.od = s.od ∧
      u.dev.ledger.writing = some (checkpointNow s.dev) ∧ (vget u.dev.mram (checkpointNow s.dev).2).valid = false) := by
  have hdue : checkpointDue s.od s.dev = some (.device (s.dev.ledger.timer + secT (odU s.od 0x2540 1))) := by
    simp [checkpointDue, instantIf, hctrl, hruns]
  have hover := le_dt_upTo hdue hcounting
  have hledger : (s.upTo checkpointDue).dev.ledger = s.dev.ledger := upTo_part _ s (p := .ledger) (by decide)
  have hmram : (s.upTo checkpointDue).dev.mram = s.dev.mram := upTo_part _ s (p := .mram) (by decide)
  have hon : (s.upTo checkpointDue).dev.isOn .ctrl = true := (upTo_isOn ..).trans hctrl
  obtain ⟨hbegun, hinvalid⟩ := checkpointInterval_begins (o := s.od) (d := (s.upTo checkpointDue).dev) hon (by rw [hledger]; exact hover)
    (by rw [hledger]; exact hfree) (by rw [hledger, bne, hruns]; rfl)
  rw [checkpointNow_congr hmram hledger] at hbegun hinvalid
  have hclk : (checkpointInterval s.od (s.upTo checkpointDue).dev).clk = (s.upTo checkpointDue).dev.clk :=
    checkpointInterval_leaves (p := .clk) (by decide) s.od _
  refine completes_timed (due := checkpointDue) (f := fun o d => if d.isOn .ctrl then checkpointInterval o d else d) rfl ?_
  simp only [hon, if_true, hbegun, hclk]
  exact ⟨trivial, hover, trivial, trivial, hinvalid⟩

/-- A checkpoint is being written after a start. -/
theorem checkpointStart_writes {d : Dev} (hruns : (d.ledger.resume != .no) = false) : (checkpointStart d).ledger.writing.isSome = true := by
  cases hwriting : d.ledger.writing with
  | none => rw [(checkpointStart_begins hwriting hruns).1]; rfl
  | some c => simp [checkpointStart, hwriting]

theorem checkpointDone_current {d : Dev} {c : Checkpoint} {slot : Nat} (hwriting : d.ledger.writing = some (c, slot)) (hslot : slot < 16) :
    (checkpointDone d).ledger.writing = none ∧ vget (checkpointDone d).mram slot = c ∧
      (checkpointDone d).ledger.lastCheckpoint = c.periodEnd := by
  simp [checkpointDone, hwriting, hslot]

/-! ### Resets of accounts (R77) -/

theorem accountIx_lt {sel i : Nat} (h : accountIx sel = some i) : i < 133 := by
  unfold accountIx at h
  by_cases hcell : sel < 128
  · rw [if_pos hcell] at h
    exact Option.some.inj h ▸ Nat.lt_trans hcell (by decide)
  rw [if_neg hcell] at h
  by_cases hstack : 0x100 ≤ sel ∧ sel ≤ 0x103
  · rw [if_pos hstack] at h
    have hi := Option.some.inj h
    omega
  rw [if_neg hstack] at h
  by_cases hbus : sel = 0x200
  · rw [if_pos hbus] at h
    exact Option.some.inj h ▸ by decide
  · rw [if_neg hbus] at h
    cases h

theorem accountReset_opens {o : Od} {sel i : Nat} (d : Dev) (h : accountIx sel = some i) :
    vget (accountReset o sel d).ledger.accounts i = { opened := (gapEnd o i d).ledger.last } := by
  simp only [accountReset, h, setAccount, record_frame]
  exact vget_vset_same _ _ _ (accountIx_lt h)

/-- Settles O9: seconds of a gap, checkpoints and resets each change the accounts as R74, R75 and R77 say. -/
theorem ledgerKeepsItsAccounts : Obligations.LedgerKeepsItsAccounts := by
  unfold Obligations.LedgerKeepsItsAccounts
  refine ⟨fun i s start cause len secs hctrl hgap hlen => ?_, fun s hctrl hcounting hruns hfree => ?_, fun via s h hruns => ?_,
    fun s c slot hwriting hslot => ?_, fun via sel s i h hi => ?_⟩
  · refine completes_drives (f := fun o d => if d.isOn .ctrl then ledgerSecond o i.val d else d) rfl ?_
    simp only [hctrl, if_true, ledgerSecond_counts hctrl hgap hlen]
    exact ⟨trivial, trivial, trivial, trivial, ledgerSecond_recorded hctrl hgap hlen⟩
  · exact checkpointInterval_completes hctrl hcounting (by rw [hruns]; rfl) hfree
  · refine completes_of_write rfl ⟨by omega, by decide, by simp, by omega, by omega⟩ h fun n t u v ho => ?_
    have hledger : t.dev.ledger = s.dev.ledger := ho.seen.part (p := .ledger) (by decide)
    have heffect : u = devTo checkpointStart t := (congrArg Prod.snd ho.effect).symm
    rw [show v.dev.ledger = u.dev.ledger from ho.part (p := .ledger) (by decide), heffect]
    exact checkpointStart_writes (by rw [hledger, hruns]; rfl)
  · exact completes_drives (f := fun _ => checkpointDone) rfl (checkpointDone_current hwriting hslot)
  · refine completes_of_write rfl ⟨by omega, by decide, by simp, by omega, by omega⟩ h fun n t u v ho => ?_
    have heffect : u = t.act (accountReset · (leNat (toLE 2 sel.toNat))) := (congrArg Prod.snd ho.effect).symm
    rw [show v.dev.ledger = u.dev.ledger from ho.part (p := .ledger) (by decide), heffect, leNat_toLE_of_lt sel.isLt]
    rw [State.act_dev, accountReset_opens t.dev hi]
    exact ⟨rfl, rfl⟩

end Sys2Proof.Machine
end

section
/-! What a reset does to AON's reset controller and to the rails, and the loss of domains: the layer under the rails (O10) and the
resets (O11, O12). -/
namespace Sys2Proof.Machine

/-! ### Leaving ON and losing contents -/

/-- What a state transformer keeps of the device, a fold of it keeps. -/
theorem foldl_state_eq {α β : Type} (g : Dev → β) {f : State → α → State} (hf : ∀ a s, g (f s a).dev = g s.dev) (l : List α) (s : State) :
    g (l.foldl f s).dev = g s.dev := by
  induction l generalizing s with
  | nil => rfl
  | cons a l ih => exact (ih _).trans (hf a s)

theorem leaveEffects_reset (requested wasOn : Bool) (m : Domain) (target : DomState) (o : Od) (d : Dev) :
    (leaveEffects requested wasOn m target o d).aon.reset = d.aon.reset := by
  show (Part.aon.of (leaveEffects requested wasOn m target o d)).reset = (Part.aon.of d).reset
  unfold leaveEffects
  split
  · split <;> simp
  · split
    case h_6 =>
      extract_lets d1 d2 d3
      show (Part.aon.of d3).reset = _
      simp [d3, d2, d1]
    all_goals simp

/-- What a domain forgets is none of AON's, the rails' and the domains' states. -/
theorem dropDomain_keeps (requested : Bool) (m : Domain) (s : State) :
    (dropDomain requested m s).dev.aon = s.dev.aon ∧ (dropDomain requested m s).dev.rails = s.dev.rails ∧
      (dropDomain requested m s).dev.doms = s.dev.doms := by
  cases m <;> exact ⟨rfl, rfl, rfl⟩

theorem dropAfterLeaving_reset (m : Domain) (wasOn : Bool) (target : DomState) (s : State) :
    (dropDomain false m (s.act (leaveEffects false wasOn m target))).dev.aon.reset = s.dev.aon.reset :=
  (congrArg Aon.reset (dropDomain_keeps ..).1).trans (leaveEffects_reset ..)

theorem dropAfterLeaving_rails (m : Domain) (wasOn : Bool) (target : DomState) (s : State) :
    (dropDomain false m (s.act (leaveEffects false wasOn m target))).dev.rails = s.dev.rails :=
  (dropDomain_keeps ..).2.1.trans (leaveEffects_leaves (p := .rails) (by decide) ..)

theorem dropAfterLeaving_doms (m : Domain) (wasOn : Bool) (target : DomState) (s : State) :
    (dropDomain false m (s.act (leaveEffects false wasOn m target))).dev.doms = s.dev.doms :=
  (dropDomain_keeps ..).2.2.trans (leaveEffects_leaves (p := .doms) (by decide) ..)

/-! ### Resets -/

/-- A reset's controller after the domains are reset: RST_OUT_N is low, and a whole-device reset has not seen SEC. -/
theorem resetDomains_reset (whole : Bool) (s : State) : (resetDomains whole s).dev.aon.reset =
    { s.dev.aon.reset with rstOut := false, secSeen := if whole then false else s.dev.aon.reset.secSeen } := by
  unfold resetDomains
  extract_lets s0 olds s1 s2 s3 s4 src s5
  have h1 : s1.dev.aon = s.dev.aon := by
    show Part.aon.of s1.dev = Part.aon.of s.dev
    simp [s1, s0]
  have h2 : s2.dev.aon = s.dev.aon := by
    rw [← h1]
    show Part.aon.of s2.dev = Part.aon.of s1.dev
    simp [s2]
  have h3 : s3.dev.aon.reset = s.dev.aon.reset := by
    rw [← h2]
    refine foldl_state_eq (fun d => d.aon.reset) (fun p s => ?_) olds s2
    split
    · rfl
    · exact dropAfterLeaving_reset ..
  have h5 : s5.dev.aon.reset = { s.dev.aon.reset with rstOut := false } := by
    rw [← h3]
    rfl
  clear_value s5
  cases whole with
  | false =>
    rw [if_neg (by decide), h5]
    rfl
  | true =>
    rw [if_pos rfl]
    exact congrArg (fun r : ResetCtl => { r with secSeen := false }) h5

theorem resetDomains_rails (whole : Bool) (s : State) : (resetDomains whole s).dev.rails = s.dev.rails := by
  unfold resetDomains
  extract_lets s0 olds s1 s2 s3 s4 src s5
  have h2 : s2.dev.rails = s.dev.rails := by
    show Part.rails.of s2.dev = Part.rails.of s.dev
    simp [s2, s1, s0]
  have h3 : s3.dev.rails = s.dev.rails := by
    rw [← h2]
    refine foldl_state_eq Dev.rails (fun p s => ?_) olds s2
    split
    · rfl
    · exact dropAfterLeaving_rails ..
  clear_value s3
  have h5 : s5.dev.rails = s.dev.rails := h3
  clear_value s5
  cases whole <;> exact h5

theorem record_rails (o : Od) (code source : Nat) (data : Bytes) (d : Dev) : (record o code source data d).rails = d.rails := by
  simp only [record_frame]

theorem record_aon (o : Od) (code source : Nat) (data : Bytes) (d : Dev) : (record o code source data d).aon = d.aon := by
  simp only [record_frame]

theorem acceptReset_rails (code : Nat) (s : State) : (acceptReset code s).dev.rails = s.dev.rails := by
  unfold acceptReset
  extract_lets r whole hold pinless merge s1 d1 s2
  have h1 : s1.dev.rails = s.dev.rails := resetDomains_rails ..
  have h2 : s2.dev.rails = s.dev.rails := by
    unfold s2
    split
    · exact resetDomains_rails ..
    · rfl
  clear_value s1 s2
  split
  · exact (record_rails ..).trans h1
  · exact h2

/-- A reset that begins where none is in progress: its scope and its cause, and what stands of the controller. -/
theorem acceptReset_begins {code : Nat} {s : State} (h : s.dev.aon.reset.scope = .none) :
    (acceptReset code s).dev.aon.reset.scope = (if code = 2 then .whole else .warm) ∧ (acceptReset code s).dev.aon.reset.cause = code ∧
      (acceptReset code s).dev.aon.reset.supEn = s.dev.aon.reset.supEn := by
  unfold acceptReset
  extract_lets r whole hold pinless merge s1 d1 s2
  have hkept := resetDomains_reset whole s
  have hd1 : d1.aon.reset.scope = (if code = 2 then .whole else .warm) ∧ d1.aon.reset.cause = code ∧ d1.aon.reset.supEn = s.dev.aon.reset.supEn :=
    ⟨by simp only [d1, modReset, modAon, whole], rfl, (congrArg ResetCtl.supEn hkept :)⟩
  rw [if_pos (by simp [r, h])]
  dsimp only
  rw [record_aon]
  exact hd1

theorem debugWithdraw_keysHidden (o : Od) (d : Dev) : (debugWithdraw o d).sec.keysHidden = d.sec.keysHidden := by
  unfold debugWithdraw
  split
  · exact congrArg Sec.keysHidden (islandRequester_leaves (p := .sec) (by decide) ..)
  · rfl

/-- The release of a reset that nothing holds, as far as the withdrawal of debug. -/
theorem tryRelease_body {s : State} (hscope : s.dev.aon.reset.scope ≠ .none) (hporst : s.dev.aon.reset.porst = false)
    (hpin : s.dev.aon.reset.byPin = false) (hpinless : s.dev.aon.reset.pinless = none) :
    ∃ a : Aon → Aon, (∀ x, (a x).reset = x.reset) ∧ (tryRelease s).dev = modAon a (debugWithdraw s.od (onSec (fun x => { x with keysHidden := false })
      (modReset (fun r => { r with scope := .none, supEn := true }) s.dev))) := by
  unfold tryRelease
  dsimp only
  rw [if_neg (by simp [hscope, hporst, hpin, hpinless])]
  simp only [State.act_dev]
  refine ⟨_, ?_, rfl⟩
  exact fun _ => rfl

/-- A release ends the reset where nothing holds it. -/
theorem tryRelease_ends {s : State} (hscope : s.dev.aon.reset.scope ≠ .none) (hporst : s.dev.aon.reset.porst = false)
    (hpin : s.dev.aon.reset.byPin = false) (hpinless : s.dev.aon.reset.pinless = none) :
    (tryRelease s).dev.aon.reset = { s.dev.aon.reset with scope := .none, supEn := true } ∧ (tryRelease s).dev.sec.keysHidden = false := by
  obtain ⟨a, hkeeps, hbody⟩ := tryRelease_body hscope hporst hpin hpinless
  rw [hbody]
  exact ⟨(hkeeps _).trans (congrArg Aon.reset (debugWithdraw_leaves (p := .aon) (by decide) s.od _) :), debugWithdraw_keysHidden ..⟩

/-- A release changes of the controller at most the scope and SUP_EN. -/
theorem tryRelease_keeps (s : State) : (tryRelease s).dev.aon.reset = { s.dev.aon.reset with
    scope := (tryRelease s).dev.aon.reset.scope, supEn := (tryRelease s).dev.aon.reset.supEn } := by
  by_cases hheld : s.dev.aon.reset.scope == .none || s.dev.aon.reset.porst || s.dev.aon.reset.byPin || s.dev.aon.reset.pinless.isSome
  · have hstays : tryRelease s = s := if_pos hheld
    rw [hstays]
  · simp only [Bool.or_eq_true, not_or, beq_iff_eq, Bool.not_eq_true, Option.isSome_eq_false_iff, Option.isNone_iff_eq_none] at hheld
    obtain ⟨⟨⟨hscope, hporst⟩, hpin⟩, hpinless⟩ := hheld
    rw [(tryRelease_ends hscope hporst hpin hpinless).1]

end Sys2Proof.Machine
end

section
/-! The rails (O10). -/
namespace Sys2Proof.Machine

/-! ### Domains that lose a supply -/

theorem foldl_act_eq {α β : Type} (g : Dev → β) {f : α → Od → Dev → Dev} (hf : ∀ a o d, g (f a o d) = g d) (l : List α) (s : State) :
    g (l.foldl (fun s a => s.act (f a)) s).dev = g s.dev :=
  foldl_state_eq g (fun a s => hf a s.od s.dev) l s

/-- Whether a domain with a controller of its own is ON, its controller says. -/
theorem isOn_of_doms {m : Domain} (hm : m ≠ .aon) (d : Dev) : d.isOn m = ((getDom d m).state == .on) := by
  cases m with
  | aon => exact absurd rfl hm
  | _ => rfl

/-- A domain that is ON is OFF after it is lost. -/
theorem loseDomains_off {ms : List Domain} {m : Domain} (cause : Nat) {s : State} (hm : m ∈ ms) (haon : m ≠ .aon)
    (hon : s.dev.isOn m = true) : (getDom (loseDomains ms cause s).dev m).state = .off := by
  unfold loseDomains
  extract_lets hit olds s0 s1 s2 s3
  have hstate : (getDom s.dev m).state = .on := by simpa [isOn_of_doms haon] using hon
  have hhit : m ∈ hit := List.mem_filter.mpr ⟨hm, by rw [hstate]; rfl⟩
  have h1 : (getDom s1.dev m).state = .off := by
    have hset : ∀ e, (getDom (modDom m (fun c => { c with state := .off, since := e.clk.run, idle := none }) e) m).state = .off := fun e => by
      rw [getDom, modDom_doms, vget_vmod_same _ _ _ (by cases m <;> decide)]
    have hkeep : ∀ k e, (getDom e m).state = .off →
        (getDom (modDom k (fun c => { c with state := .off, since := e.clk.run, idle := none }) e) m).state = .off := fun k e he =>
      vget_vmod_keeps (P := fun c : DomainCtl => c.state = .off) _ _ _ _ (fun _ => rfl) he
    exact forEach_establishes (P := fun _ => True) hhit (fun _ _ h => h) hkeep (fun e _ => hset e) trivial
  have h2 : s2.dev.doms = s1.dev.doms := by
    show Part.doms.of s2.dev = Part.doms.of s1.dev
    simp [s2]
  have h3 : s3.dev.doms = s2.dev.doms := foldl_state_eq Dev.doms (fun p s => dropAfterLeaving_doms ..) olds s2
  have hfinal := foldl_act_eq Dev.doms (f := fun (p : Domain × DomState × Bool) o d => domainChanged o p.1 p.2.1 .off cause d)
    (fun p o d => domainChanged_leaves (p := .doms) (by decide) o p.1 p.2.1 .off cause d) olds s3
  have hdoms := hfinal.trans (h3.trans h2)
  rw [getDom] at h1 ⊢
  rw [hdoms]
  exact h1

theorem loseDomains_rails (ms : List Domain) (cause : Nat) (s : State) : (loseDomains ms cause s).dev.rails = s.dev.rails := by
  unfold loseDomains
  extract_lets hit olds s0 s1 s2 s3
  have h2 : s2.dev.rails = s.dev.rails := by
    show Part.rails.of s2.dev = Part.rails.of s.dev
    simp [s2, s1, s0]
  have h3 : s3.dev.rails = s2.dev.rails := foldl_state_eq Dev.rails (fun p s => dropAfterLeaving_rails ..) olds s2
  have hfinal := foldl_act_eq Dev.rails (f := fun (p : Domain × DomState × Bool) o d => domainChanged o p.1 p.2.1 .off cause d)
    (fun p o d => domainChanged_leaves (p := .rails) (by decide) o p.1 p.2.1 .off cause d) olds s3
  exact hfinal.trans (h3.trans h2)

/-- The standby check leaves which rails are in range. -/
theorem standbyCheck_ok (d : Dev) : (standbyCheck d).rails.ok = d.rails.ok := by
  unfold standbyCheck
  dsimp only
  split <;> rfl

@[simp] theorem tapDown_leaves {p : Part} (h : p ≠ .seqr ∧ p ≠ .breach ∧ p ≠ .sec ∧ p ≠ .prot ∧ p ≠ .pwm ∧ p ≠ .axes ∧ p ≠ .ladder ∧ p ≠ .isl)
    (o : Od) (d : Dev) : p.of (railLost.tapDown o d) = p.of d := by simp [railLost.tapDown, h]

section
variable {r : Nat} {s : State} (hr : r ≠ 0) (hok : vget s.dev.rails.ok r = true)
include hr hok

/-- Of the rails in range, a lost rail takes itself away. -/
theorem railLost_ok : (railLost r s).dev.rails.ok = vset s.dev.rails.ok r false := by
  unfold railLost
  rw [if_neg (by simp [hok]), if_neg hr]
  extract_lets early confirmed d0 src s1 ms data s2 s3 s4 s5 s6
  have h1 : s1.dev.rails.ok = vset s.dev.rails.ok r false := rfl
  have h2 : s2.dev.rails = s1.dev.rails := by
    show Part.rails.of s2.dev = Part.rails.of s1.dev
    simp [s2]
  have h3 : s3.dev.rails = s2.dev.rails := loseDomains_rails ..
  clear_value s3 s1
  have h4 : s4.dev.rails = s3.dev.rails := by
    show Part.rails.of s4.dev = Part.rails.of s3.dev
    simp [s4]
  clear_value s4
  have h6 : s6.dev.rails = s4.dev.rails := by
    show Part.rails.of s6.dev = Part.rails.of s4.dev
    simp +contextual [s6, s5]
  exact (standbyCheck_ok _).trans (congrArg Rails.ok (h6.trans (h4.trans (h3.trans h2))) |>.trans h1)

/-- A domain that the lost rail feeds is OFF. -/
theorem railLost_off {m : Domain} (hm : m ∈ railDomains r) (haon : m ≠ .aon) (hon : s.dev.isOn m = true) :
    (getDom (railLost r s).dev m).state = .off := by
  unfold railLost
  rw [if_neg (by simp [hok]), if_neg hr]
  extract_lets early confirmed d0 src s1 ms data s2 s3 s4 s5 s6
  have h2 : s2.dev.doms = s.dev.doms := by
    show Part.doms.of s2.dev = Part.doms.of s.dev
    simp [s2, s1, d0, setRail]
  have h3 : (getDom s3.dev m).state = .off :=
    loseDomains_off 6 hm haon (by rw [isOn_of_doms haon, getDom, h2]; exact (isOn_of_doms haon s.dev).symm.trans hon)
  clear_value s3 s1
  have h4 : s4.dev.doms = s3.dev.doms := by
    show Part.doms.of s4.dev = Part.doms.of s3.dev
    simp [s4]
  clear_value s4
  have h6 : s6.dev.doms = s4.dev.doms := by
    show Part.doms.of s6.dev = Part.doms.of s4.dev
    simp +contextual [s6, s5]
  have hfinal : (standbyCheck s6.dev).doms = s3.dev.doms :=
    (standbyCheck_leaves (p := .doms) (by decide) s6.dev).trans (h6.trans h4)
  rw [getDom] at h3 ⊢
  dsimp only
  rw [hfinal]
  exact h3

end

/-- A rail in range after a loss was in range before it, and is not the one lost. -/
theorem railLost_inRange {r x : Nat} {s : State} (h : vget (railLost r s).dev.rails.ok x = true) : vget s.dev.rails.ok x = true ∧ x ≠ r := by
  by_cases hok : vget s.dev.rails.ok r = true
  · by_cases hr : r = 0
    · have hgone : (railLost r s).dev.rails.ok = Vector.replicate 9 false := by
        unfold railLost
        rw [if_neg (by simp [hok]), if_pos hr]
        rfl
      rw [hgone, vget, Vector.getElem?_replicate] at h
      split at h <;> simp at h
    · rw [railLost_ok hr hok] at h
      by_cases hx : x = r
      · subst hx
        by_cases hlt : x < 9
        · simp [hlt] at h
        · rw [vset_beyond _ _ _ (by omega)] at h
          simp [vget, hlt] at hok
      · rw [vget_vset_other _ _ (Ne.symm hx)] at h
        exact ⟨h, hx⟩
  · have hsame : railLost r s = s := by
      unfold railLost
      rw [if_pos (by simpa using hok)]
    rw [hsame] at h
    exact ⟨h, fun hx => hok (hx ▸ h)⟩

theorem foldl_railLost_inRange {l : List Nat} {x : Nat} {s : State} (h : vget (l.foldl (fun s r => railLost r s) s).dev.rails.ok x = true) :
    vget s.dev.rails.ok x = true ∧ x ∉ l := by
  induction l generalizing s with
  | nil => exact ⟨h, List.not_mem_nil⟩
  | cons r l ih =>
    obtain ⟨hok, hx⟩ := ih h
    obtain ⟨hbefore, hne⟩ := railLost_inRange hok
    exact ⟨hbefore, List.not_mem_cons_of_ne_of_not_mem hne hx⟩

/-- Rails that are lost in one AON cycle read absent. -/
theorem railsLost_absent {l : List (Fin 9)} {x : Fin 9} (hx : x ∈ l) (s : State) : vget (railsLost l s).dev.rails.ok x.val = false := by
  by_contra hok
  obtain ⟨hbefore, hnot⟩ := foldl_railLost_inRange (Bool.not_eq_false _ ▸ hok)
  refine hnot (List.mem_filter.mpr ⟨List.mem_range.mpr x.isLt, ?_⟩)
  simp only [hbefore, Bool.and_true, List.any_eq_true, beq_iff_eq]
  exact ⟨x, hx, rfl⟩

theorem cycleWakes_rails (seen : Option WakeSeen) (preempts : Bool) (s : State) : (cycleWakes seen preempts s).dev.rails = s.dev.rails := by
  cases seen with
  | none => rfl
  | some w => exact (wakeAccept_leaves (p := .rails) (by decide) ..).trans (wakeSees_leaves (p := .rails) (by decide) ..)

/-- An AON cycle in which no request is served leaves the rails as the losses do. -/
theorem aonCycle_rails {c : AonCycle} (hasks : c.asks = []) (hstep : c.step = false) (hidle : c.idle = []) (s : State) :
    (aonCycle c s).dev.rails = (railsLost c.lost s).dev.rails := by
  have hitems : ∀ d, cycleItems c d = [] := fun d => by simp [cycleItems, hasks, hstep, hidle, sortBy]
  unfold aonCycle
  simp only [hitems, List.foldl_nil]
  split <;> exact cycleWakes_rails ..

/-- A loss of one rail and nothing else is that loss. -/
theorem supplyLost_doms (r : Fin 9) (s : State) (hok : vget s.dev.rails.ok r.val = true) :
    (aonCycle { lost := [r] } s).dev.doms = (railLost r.val s).dev.doms := by
  have hids : (List.range 9).filter (fun x => [r].any (fun y => y.val == x) && vget s.dev.rails.ok x) = [r.val] := by
    have hfilter : ∀ x ∈ List.range 9, ([r].any (fun y => y.val == x) && vget s.dev.rails.ok x) = (r.val == x) := fun x _ => by
      by_cases hx : r.val = x
      · subst hx
        simp [hok]
      · simp [hx]
    rw [List.filter_congr hfilter]
    clear hfilter hok
    revert r
    decide
  have hlost : (railsLost [r] s).dev.doms = (railLost r.val s).dev.doms := by
    unfold railsLost
    rw [hids]
    rfl
  unfold aonCycle
  simp only [show ∀ d, cycleItems { lost := [r] } d = [] from fun _ => rfl, List.foldl_nil]
  split <;> exact hlost

/-! ### Rails that return -/

theorem orderBroken_ok (r f : Nat) (d : Dev) (o : Od) : (orderBroken r f d o).rails.ok = d.rails.ok ∧ (orderBroken r f d o).rails.lost = d.rails.lost := by
  unfold orderBroken
  split
  · exact ⟨rfl, rfl⟩
  · rw [violation, record_rails]
    exact ⟨rfl, rfl⟩

theorem railRestored_returns {r : Fin 9} {s : State} (hr : r.val ≠ 0) (h0 : vget s.dev.rails.ok 0 = true) (hok : vget s.dev.rails.ok r.val = false) :
    vget (railRestored r.val s).dev.rails.ok r.val = true ∧ vget (railRestored r.val s).dev.rails.lost r.val = false := by
  unfold railRestored
  rw [if_neg (by simp [hok, hr]), if_neg (by simp [h0])]
  extract_lets was d0 d0' src d1 d2 srcLcl srcIsl d3 d4 s1
  have h1 : vget d1.rails.ok r.val = true ∧ vget d1.rails.lost r.val = false :=
    ⟨vget_vset_same _ _ _ r.isLt, vget_vset_same _ _ _ r.isLt⟩
  clear_value d1
  have h2 : d2.rails = d1.rails := by
    show Part.rails.of d2 = Part.rails.of d1
    simp [d2]
  clear_value d2
  have h3 : d3.rails = d2.rails := by
    show Part.rails.of d3 = Part.rails.of d2
    simp [d3]
  clear_value d3
  have h4 : d4.rails = d3.rails := by
    show Part.rails.of d4 = Part.rails.of d3
    simp [d4]
  clear_value d4
  have h5 : s1.dev.rails = d4.rails := by
    show Part.rails.of s1.dev = Part.rails.of d4
    simp [s1]
  clear_value s1
  have hs1 : s1.dev.rails = d1.rails := h5.trans (h4.trans (h3.trans h2))
  rw [← hs1] at h1
  split
  · rw [acceptReset_rails]
    exact h1
  · exact h1

/-! ### Sequencing and the lock filters -/

theorem orderBroken_notes {r f : Nat} {d : Dev} (o : Od) (hfollow : mustFollow r f = true) (hok : vget d.rails.ok f = false)
    (hrecords : aonRecords d = true) : (r, f) ∈ (orderBroken r f d o).rails.early := by
  unfold orderBroken
  by_cases hknown : d.rails.early.contains (r, f) = true
  · rw [if_pos (by simp only [hknown, Bool.or_true])]
    exact List.contains_iff_mem.mp hknown
  · rw [if_neg (by simp only [hfollow, hok, hrecords, hknown]; decide), violation, record_rails]
    exact List.mem_append_right _ (List.mem_singleton_self _)

theorem filterCheck_time {o : Od} {tauTb tauCas : Nat} {d : Dev} (hmeas : d.isOn .meas = true) (hopen : d.time.tb.checked = false) :
    (filterCheck o tauTb tauCas d).time = { d.time with
      tb := { d.time.tb with checked := true, tau := tauTb, marked := decide (tauTb < 3000 ∨ 7000 < tauTb) }
      cas := { d.time.cas with checked := true, tau := tauCas, marked := decide (tauCas < 3000 ∨ 7000 < tauCas) } } := by
  unfold filterCheck
  rw [if_neg (by simp [hmeas, hopen])]
  extract_lets bad d1 note
  have hnote : ∀ pin tau e, (note pin tau e).time = e.time := by
    intro pin tau e
    simp only [note]
    split
    · simp only [record_frame]
    · rfl
  rw [hnote, hnote]
  rfl

/-! ### VAON -/

theorem forEach_violation_keeps (o : Od) (l : List Nat) (d : Dev) :
    (forEach l (fun i d => violation o i 0 d) d).rails = d.rails ∧ (forEach l (fun i d => violation o i 0 d) d).aon = d.aon :=
  ⟨forEach_eq Dev.rails d fun _ _ => record_rails .., forEach_eq Dev.aon d fun _ _ => record_aon ..⟩

theorem vaonPowerOn_resets {s : State} (h : vget s.dev.rails.ok 0 = false) :
    vget (vaonPowerOn s).dev.rails.ok 0 = true ∧ (vaonPowerOn s).od = [] ∧ (vaonPowerOn s).dev.aon.reset.scope = .whole ∧
      (vaonPowerOn s).dev.aon.reset.cause = 1 ∧ (vaonPowerOn s).dev.aon.reset.porst = true := by
  unfold vaonPowerOn
  rw [if_neg (by simp [h])]
  extract_lets s1 r up src d1 d2
  obtain ⟨hrails, haon⟩ := forEach_violation_keeps s1.od ((List.range 9).filter (fun i => i != 0 && vget up i)) d2
  dsimp only
  rw [hrails, haon, show d2.rails = d1.rails from record_rails .., show d2.aon = d1.aon from record_aon ..]
  exact ⟨vget_vset_same _ _ _ (by decide), rfl, rfl, rfl, rfl⟩

/-- Settles O10: rails are lost and return, the orders of their rising are watched, and the lock filters are checked. -/
theorem railsComeAndGo : Obligations.RailsComeAndGo := by
  unfold Obligations.RailsComeAndGo
  refine ⟨fun s h => ⟨_, rfl, vaonPowerOn_resets h⟩, fun r y s hasks hstep hidle => ⟨_, rfl, fun x hx => ?_⟩,
    fun m r s hon hr hok hm => ⟨_, rfl, ?_⟩, fun r s hr h0 hok => ⟨_, rfl, railRestored_returns hr h0 hok⟩,
    fun r f s hfollow hok hrecords => ?_, fun tauTb tauCas s hmeas hopen => ⟨_, rfl, ?_⟩⟩
  · dsimp only
    rw [aonCycle_rails (c := { y with lost := r :: y.lost }) hasks hstep hidle]
    exact railsLost_absent hx s
  · have haon : m ≠ .aon := by
      rintro rfl
      exact (show ∀ r : Fin 9, r.val ≠ 0 → Domain.aon ∉ railDomains r.val from by decide) r hr hm
    dsimp only
    rw [isOn_of_doms haon, getDom, supplyLost_doms r s hok]
    exact (congrArg (· == DomState.on) (railLost_off hr hok hm haon hon)).trans rfl
  · exact completes_drives (f := fun o d => orderBroken r.val f.val d o) rfl ⟨orderBroken_notes _ hfollow hok hrecords, rfl⟩
  · have htime : (readyCheck s.od (filterCheck s.od tauTb.toNat tauCas.toNat s.dev)).time = _ :=
      (readyCheck_leaves (p := .time) (by decide) ..).trans (filterCheck_time hmeas hopen)
    simp only [State.act_dev, State.act_od, htime]
    simp

end Sys2Proof.Machine
end

section
/-! Requests of hosts: what is left of the state by a request that writes, and by its answer. The layer under the statements of the
communication chapter. -/
namespace Sys2Proof.Machine

/-! ### Answers leave of the communication all but the sessions and the slots -/

/-- `x` differs from `w` by an answer at most: in the sessions, the mailbox slots, what goes out, the pending interrupts, and what a store
in progress notes of the request it answers. -/
structure Replied (w x : State) : Prop where
  od : x.od = w.od
  agrees : agreeButCom x.dev w.dev
  com : { x.dev.com with sessions := w.dev.com.sessions, slots := w.dev.com.slots, store := w.dev.com.store } = w.dev.com
  bank : x.dev.com.store.map StoreOp.bank = w.dev.com.store.map StoreOp.bank

theorem Replied.refl (w : State) : Replied w w := ⟨rfl, rfl, rfl, rfl⟩

theorem Replied.trans {w x y : State} (h : Replied w x) (k : Replied x y) : Replied w y where
  od := k.od.trans h.od
  agrees := agreeButCom_trans k.agrees h.agrees
  com := by
    have hk := congrArg (fun c : Com => { c with sessions := w.dev.com.sessions, slots := w.dev.com.slots, store := w.dev.com.store }) k.com
    exact hk.trans h.com
  bank := k.bank.trans h.bank

/-- A change of the device that leaves the communication beside the sessions and the slots. -/
theorem replied_devTo {f : Dev → Dev} {w : State} (hagrees : agreeButCom (f w.dev) w.dev)
    (hcom : ∃ a b, (f w.dev).com = { w.dev.com with sessions := a, slots := b }) : Replied w (devTo f w) := by
  obtain ⟨a, b, hab⟩ := hcom
  refine ⟨rfl, hagrees, ?_, ?_⟩ <;> rw [devTo_dev, hab]

theorem recordAbort_replied (n ix sub : Nat) (a : Abort) (w : State) : Replied w (devTo (recordAbort n ix sub a) w) := by
  refine replied_devTo (recordAbort_agrees ..) ?_
  unfold recordAbort
  split
  · exact ⟨_, _, rfl⟩
  · exact ⟨_, _, rfl⟩

theorem emit_replied (n : Nat) (x : Output) (w : State) : Replied w (devTo (emit n x) w) := by
  refine replied_devTo (emit_agrees ..) ?_
  unfold emit
  split
  · exact ⟨_, _, rfl⟩
  · exact ⟨_, _, rfl⟩

theorem mailboxAnswer_replied (slot : Nat) (b : Bytes) (w : State) : Replied w (devTo (mailboxAnswer slot b) w) := by
  refine replied_devTo (mailboxAnswer_agrees ..) ?_
  unfold mailboxAnswer
  extract_lets x d2
  rw [raiseVector_com]
  simp only [d2]
  split
  · exact ⟨_, _, rfl⟩
  · exact ⟨_, _, rfl⟩

theorem modSession_replied (n : Nat) (f : Session → Session) (w : State) : Replied w (devTo (modSession n f) w) :=
  replied_devTo (modSession_agrees ..) ⟨_, _, rfl⟩

theorem arpAsk_replied (mac ip : Nat) (w : State) : Replied w (devTo (arpAsk mac ip) w) :=
  replied_devTo (arpAsk_agrees ..) ⟨_, _, by rw [arpAsk_com]⟩

theorem sendResponse_replied (n seq : Nat) (b : Bytes) (w : State) : Replied w (devTo (sendResponse n seq b) w) := by
  by_cases hslot : n < 12
  · have hsend : devTo (sendResponse n seq b) w = devTo (mailboxAnswer (n - 8) b) w := by simp only [devTo, sendResponse, hslot, if_true]
    rw [hsend]
    exact mailboxAnswer_replied ..
  · have hsend : devTo (sendResponse n seq b) w = devTo (emit n (.datagram (getSession w.dev n).mac (getSession w.dev n).ip (getSession w.dev n).port b))
        (devTo (modSession n (fun s => if s.lastSeq == some seq then { s with lastResponse := b } else s))
          (devTo (arpAsk (getSession w.dev n).mac (getSession w.dev n).ip) w)) := by
      simp only [devTo, sendResponse, hslot, if_false]
    rw [hsend]
    exact ((arpAsk_replied ..).trans (modSession_replied ..)).trans (emit_replied ..)

/-! ### What follows the execution of a request -/

/-- A request began a store: its response is owed. -/
def beganStore (before : State) (r : Answer × State) : Bool :=
  before.dev.com.store.isNone && r.2.dev.com.store.isSome && r.1.abort.isNone

/-- The answer to a message that does not close its session: nothing but the answer, where a store began, else the answer and what comes
after it. -/
theorem finish_replies (n service seq : Nat) (m : OdMsg) (before : State) {r : Answer × State} (hclose : r.1.close = false) :
    ∃ x, Replied r.2 x ∧ finish n service seq m before r = if beganStore before r then x else afterAnswer r.1 x := by
  obtain ⟨a, w⟩ := r
  dsimp only at hclose ⊢
  by_cases hstored : beganStore before (a, w) = true
  · refine ⟨finish n service seq m before (a, w), ?_, by rw [if_pos hstored]⟩
    unfold finish
    dsimp only
    rw [if_pos (show (before.dev.com.store.isNone && w.dev.com.store.isSome && a.abort.isNone) = true from hstored)]
    refine ⟨rfl, rfl, rfl, ?_⟩
    simp only [devTo_dev, modSession_com, Option.map_map]
    rfl
  · have habort : Replied w (match a.abort with
        | some x => devTo (recordAbort n m.index.toNat m.sub.toNat x) w
        | none => w) := by
      split
      · exact recordAbort_replied ..
      · exact Replied.refl w
    refine ⟨_, habort.trans (sendResponse_replied n seq (responseBytes service seq m a) _), ?_⟩
    rw [if_neg hstored]
    unfold finish
    dsimp only
    rw [if_neg (show ¬ (before.dev.com.store.isNone && w.dev.com.store.isSome && a.abort.isNone) = true from hstored)]
    simp only [hclose, Bool.not_false, if_true] <;> rfl

/-- The answer of a write by SDO. -/
theorem sdoFinish_replies (n ix sub : Nat) (before : State) (r : Answer × State) :
    ∃ x, Replied r.2 x ∧ sdoFinish n ix sub before r = if beganStore before r then x else afterAnswer r.1 x := by
  obtain ⟨a, w⟩ := r
  by_cases hstored : beganStore before (a, w) = true
  · refine ⟨_, modSession_replied n (fun x => { x with owed := true }) w, ?_⟩
    rw [if_pos hstored]
    exact if_pos hstored
  · have habort : Replied w (match a.abort with
        | some x => devTo (recordAbort n ix sub x) w
        | none => w) := by
      split
      · exact recordAbort_replied ..
      · exact Replied.refl w
    refine ⟨_, habort.trans (emit_replied n (.sdo n ix sub a.abort a.payload) _), ?_⟩
    rw [if_neg hstored]
    exact if_neg hstored

/-! ### Writes -/

theorem beganStore_congr {s t : State} {r : Answer × State} (h : t.dev.com.store = s.dev.com.store) : beganStore s r = beganStore t r := by
  rw [beganStore, beganStore, h]

theorem abandon_store (n : Nat) (s : State) : (abandon n s).dev.com.store = s.dev.com.store := by
  unfold abandon
  split
  · rw [devTo_dev]
    unfold recordAbort
    split <;> rfl
  · rfl

/-- A request that writes a whole value and continues no transfer: the write, and its answer. -/
theorem request_writes {wr : Writer} {whole : Bool} {via : Via} {n : Nat} {m : OdMsg} {s t : State}
    (h : requestSeen whole via 2 m s = some (n, t)) (htotal : m.total.toNat = m.payload.length) :
    ∃ x, Replied (writeWhole wr n m.index.toNat m.sub.toNat 0 m.total.toNat m.payload t).2 x ∧ request wr whole via 2 m s =
      if beganStore t (writeWhole wr n m.index.toNat m.sub.toNat 0 m.total.toNat m.payload t) then x
      else afterAnswer (writeWhole wr n m.index.toNat m.sub.toNat 0 m.total.toNat m.payload t).1 x := by
  unfold requestSeen at h
  unfold request
  generalize admission whole via 2 m s = answer at h ⊢
  have hserved : ∀ k u, (if ((getSession u.dev k).transfer.filter (continues 2 m.index.toNat m.sub.toNat)).isNone &&
      (whole || (messageCheck 2 m none).isNone) then some (k, abandon k u) else none) = some (n, t) →
      ∃ x, Replied (writeWhole wr n m.index.toNat m.sub.toNat 0 m.total.toNat m.payload t).2 x ∧
        serveAdmitted wr whole 2 (viaSeq via) m (.served k u) =
          if beganStore t (writeWhole wr n m.index.toNat m.sub.toNat 0 m.total.toNat m.payload t) then x
          else afterAnswer (writeWhole wr n m.index.toNat m.sub.toNat 0 m.total.toNat m.payload t).1 x := by
    intro k u hseen
    split at hseen
    next hfree =>
      cases hseen
      obtain ⟨hnone, hcheck⟩ := Bool.and_eq_true_iff.mp hfree
      have hnone := Option.isNone_iff_eq_none.mp hnone
      have hmsg : (if whole = true then none else messageCheck 2 m none) = none := by
        cases whole with
        | true => rfl
        | false => simpa using hcheck
      have hserve : serveMessage wr whole n 2 m u = writeWhole wr n m.index.toNat m.sub.toNat 0 m.total.toNat m.payload (abandon n u) := by
        simp only [serveMessage, hnone, hmsg]
        exact if_pos htotal.symm
      obtain ⟨x, hx, hfinish⟩ := finish_replies n 2 (viaSeq via) m u
        (writeWhole_close wr n m.index.toNat m.sub.toNat 0 m.total.toNat m.payload (abandon n u))
      refine ⟨x, hx, ?_⟩
      rw [serveAdmitted, hserve, hfinish, beganStore_congr (abandon_store n u)]
    next => cases hseen
  cases answer with
  | dropped u => cases via <;> cases h
  | turnedAway k a u => cases via <;> cases h
  | served k u =>
    cases via with
    | can c j =>
      obtain ⟨rfl, rfl⟩ := Prod.mk.inj (Option.some.inj (h : some (k, u) = some (n, t)))
      rw [canServe_write, sdoWrite, ← htotal]
      exact sdoFinish_replies ..
    | udp mac ip port seq => exact hserved k u h
    | mailbox slot => exact hserved k u h

/-- A row that is a host's write, where it is executed: the write, and its answer. -/
theorem hostWrite_writes {via : Via} {ix sub n : Nat} {b : Bytes} {s t : State} (hix : ix < 2 ^ 16) (hsub : sub < 2 ^ 8)
    (hb : b.length < 2 ^ 32) (h : writeSeen via ix sub b s = some (n, t)) :
    ∃ x, Replied (writeObject (some n) ix sub b t).2 x ∧ hostWrite via ix sub b s =
      if beganStore t (writeWhole writeObject n ix sub 0 b.length b t) then x
      else afterAnswer (writeWhole writeObject n ix sub 0 b.length b t).1 x := by
  have eix : (writeMsg ix sub b).index.toNat = ix := Nat.mod_eq_of_lt hix
  have esub : (writeMsg ix sub b).sub.toNat = sub := Nat.mod_eq_of_lt hsub
  have elen : (writeMsg ix sub b).total.toNat = b.length := Nat.mod_eq_of_lt hb
  have hwrites := request_writes (wr := writeObject) h elen
  rwa [eix, esub, elen, show (writeMsg ix sub b).payload = b from rfl, writeWhole_state] at hwrites

/-- The outcome of an accepted write of a plain row, with what the answer leaves of the communication. -/
theorem hostWrite_replied {via : Via} {ix sub : Nat} {b : Bytes} {s : State} (hrow : PlainRow ix sub b) (h : accepted via ix sub b s = true) :
    ∃ n t u, WriteOutcome ix sub b s n t u (hostWrite via ix sub b s) ∧ Replied u (hostWrite via ix sub b s) := by
  unfold accepted at h
  split at h
  next n t hseen =>
    obtain ⟨x, hx, hwrite⟩ := hostWrite_writes hrow.index hrow.subindex hrow.length hseen
    rw [afterAnswer_plain _ _ (writeWhole_reset _ _ _ _ _ _ _ _ hrow.noReset) (writeWhole_leaves _ _ _ _ _ _ _ _ hrow.noNet), ite_self] at hwrite
    rw [hwrite]
    have hnone : (writeObject (some n) ix sub b t).1 = none := by simpa using h
    generalize hu : (writeObject (some n) ix sub b t).2 = u at hx
    have hobject : writeObject (some n) ix sub b t = (none, u) := Prod.ext hnone hu
    unfold writeObject at hobject
    split at hobject
    next => cases hobject
    next hcheck => exact ⟨n, t, u, ⟨writeSeen_executesFrom hseen, hcheck, hobject, hx.od, hx.agrees⟩, hx⟩
  next => cases h

/-- What every state satisfies that the accepted write can leave, answer and all, the row completes with. -/
theorem completes_of_writeReply {c : Instr} {via : Via} {ix sub : Nat} {b : Bytes} {s : State} {P : State → Prop}
    (hexec : exec c s = acts (hostWrite via ix sub b) s) (hrow : PlainRow ix sub b) (h : accepted via ix sub b s = true)
    (hP : ∀ n t u v, WriteOutcome ix sub b s n t u v → Replied u v → P v) : Completes c s P := by
  obtain ⟨n, t, u, hout, hreplied⟩ := hostWrite_replied hrow h
  exact ⟨_, hexec, hP n t u _ ⟨hout.seen, hout.check, hout.effect, hout.od, hout.agrees⟩ ⟨hreplied.od, hreplied.agrees, hreplied.com, hreplied.bank⟩⟩

end Sys2Proof.Machine
end

section
/-! The resets with a pin (O11) and without one (O12). -/
namespace Sys2Proof.Machine

/-! ### PORST_N and RESET_N -/

theorem porstAssert_resets {s : State} (h0 : vget s.dev.rails.ok 0 = true) (hporst : s.dev.aon.reset.porst = false)
    (hscope : s.dev.aon.reset.scope = .none) : (porstAssert s).dev.aon.reset.scope = .whole ∧ (porstAssert s).dev.aon.reset.cause = 2 ∧
      (porstAssert s).dev.aon.reset.supEn = true := by
  unfold porstAssert
  rw [if_neg (by simp [h0, hporst])]
  exact acceptReset_begins (code := 2) (s := { s with dev := modReset (fun r => { r with porst := true, supEn := true }) s.dev }) hscope

theorem porstRelease_ends {s : State} (h0 : vget s.dev.rails.ok 0 = true) (hporst : s.dev.aon.reset.porst = true)
    (hscope : s.dev.aon.reset.scope ≠ .none) (hpin : s.dev.aon.reset.byPin = false) (hpinless : s.dev.aon.reset.pinless = none) :
    (porstRelease s).dev.aon.reset.porst = false ∧ (porstRelease s).dev.aon.reset.scope = .none ∧
      (porstRelease s).dev.aon.reset.supEn = true := by
  unfold porstRelease
  rw [if_neg (by simp [h0, hporst])]
  rw [(tryRelease_ends (s := { s with dev := modReset (fun r => { r with porst := false, pinSince := s.dev.clk.run }) s.dev })
    hscope rfl hpin hpinless).1]
  exact ⟨rfl, rfl, rfl⟩

theorem resetNAssert_resets {s : State} (h0 : vget s.dev.rails.ok 0 = true) (hporst : s.dev.aon.reset.porst = false)
    (hpin : s.dev.aon.reset.resetN = false) (hmasked : s.dev.aon.reset.masked = false) (hscope : s.dev.aon.reset.scope = .none) :
    (resetNAssert s).dev.aon.reset.byPin = true ∧ (resetNAssert s).dev.aon.reset.scope = .warm ∧ (resetNAssert s).dev.aon.reset.cause = 3 := by
  unfold resetNAssert
  extract_lets r s1 s2
  rw [if_neg (by simp [r, h0, hporst, hpin]), if_neg (by simp [r, hmasked])]
  obtain ⟨hscope2, hcause2, -⟩ := acceptReset_begins (code := 3) (s := s1) hscope
  exact ⟨rfl, hscope2, hcause2⟩

/-- RESET_N that rises no longer holds the device; the marks of its limit and the cause stay. -/
theorem resetNRelease_clears {s : State} (h0 : vget s.dev.rails.ok 0 = true) (hporst : s.dev.aon.reset.porst = false)
    (hpin : s.dev.aon.reset.resetN = true) : (resetNRelease s).dev.aon.reset.resetN = false ∧ (resetNRelease s).dev.aon.reset.byPin = false ∧
      (resetNRelease s).dev.aon.reset.stuck = s.dev.aon.reset.stuck ∧ (resetNRelease s).dev.aon.reset.cause = s.dev.aon.reset.cause := by
  unfold resetNRelease
  extract_lets r
  rw [if_neg (by simp [r, h0, hporst, hpin]), tryRelease_keeps]
  exact ⟨rfl, rfl, rfl, rfl⟩

theorem amendReset_reset (d : Dev) : (amendReset d).aon.reset = { d.aon.reset with cause := winner d.aon.reset.causes } := rfl

/-- At its limit RESET_N is stuck, and unless the mode is 1 it is masked. -/
theorem resetNStuck_marks {s : State} (hpin : s.dev.aon.reset.resetN = true) (hby : s.dev.aon.reset.byPin = true)
    (hporst : s.dev.aon.reset.porst = false) (hopen : s.dev.aon.reset.limitDone = false)
    (hover : s.dev.aon.reset.pinSince + msT (odU s.od 0x2201 4) ≤ s.dev.clk.run) :
    (resetNStuck s).dev.aon.reset.stuck = true ∧ (resetNStuck s).dev.aon.reset.limitDone = true ∧
      (odU s.od 0x2201 3 ≠ 1 → (resetNStuck s).dev.aon.reset.masked = true ∧ (resetNStuck s).dev.aon.reset.byPin = false) := by
  unfold resetNStuck
  extract_lets r limit mode stuck
  rw [if_neg (by simp [r, limit, hpin, hby, hporst, hopen, hover])]
  have hstuck : stuck.dev.aon.reset = { s.dev.aon.reset with stuck := true, limitDone := true } := by
    simp only [stuck, State.act_dev, record_frame]
    rfl
  by_cases hmode : mode = 1
  · rw [if_pos hmode, hstuck]
    exact ⟨rfl, rfl, fun h => absurd hmode h⟩
  · rw [if_neg hmode, tryRelease_keeps, amendReset_reset, modReset_aon, hstuck]
    exact ⟨rfl, rfl, fun _ => ⟨rfl, rfl⟩⟩

theorem resetNLimitExpiry_completes {s : State} (hpin : s.dev.aon.reset.resetN = true) (hby : s.dev.aon.reset.byPin = true)
    (hporst : s.dev.aon.reset.porst = false) (hopen : s.dev.aon.reset.limitDone = false) :
    Completes (.resetNLimitExpiry false) s (fun u => u.dev.aon.reset.stuck = true ∧ u.dev.aon.reset.limitDone = true ∧
      (odU s.od 0x2201 3 ≠ 1 → u.dev.aon.reset.masked = true ∧ u.dev.aon.reset.byPin = false)) := by
  have hdue : limitDue s.od s.dev = some (.aon (s.dev.aon.reset.pinSince + msT (odU s.od 0x2201 4))) := by
    simp [limitDue, instantIf, hpin, hby, hporst, hopen]
  have hover := le_run_upTo hdue
  have haon : (s.upTo limitDue).dev.aon = s.dev.aon := upTo_part _ s (p := .aon) (by decide)
  have hod : (s.upTo limitDue).od = s.od := upTo_od ..
  refine completes_timedAct (due := limitDue) (f := resetNLimit false) rfl ?_
  rw [← hod]
  rw [← haon] at hpin hby hporst hopen
  rw [← haon, ← hod] at hover
  exact resetNStuck_marks hpin hby hporst hopen hover

theorem resetNRearmed_completes {s : State} (hmasked : s.dev.aon.reset.masked = true) (hpin : s.dev.aon.reset.resetN = false)
    (hporst : s.dev.aon.reset.porst = false) : Completes .resetNRearmed s (fun u => u.dev.aon.reset.masked = false ∧ u.od = s.od) := by
  have hdue : rearmDue s.od s.dev = some (.aon (s.dev.aon.reset.pinSince + msT (odU s.od 0x2201 5))) := by
    simp [rearmDue, instantIf, hmasked, hpin, hporst]
  have hover := le_run_upTo hdue
  have haon : (s.upTo rearmDue).dev.aon = s.dev.aon := upTo_part _ s (p := .aon) (by decide)
  refine completes_timed (due := rearmDue) (f := resetNRearm) rfl ⟨?_, rfl⟩
  unfold resetNRearm
  extract_lets r
  rw [if_neg (by simp [r, haon, hmasked, hpin, hporst, hover]), record_aon]
  rfl

/-- A powered output of a device in reset has its reset level. -/
theorem pinLevel_of_reset {s : State} {p : Pin} (hscope : s.dev.aon.reset.scope ≠ .none) (h0 : vget s.dev.rails.ok 0 = true)
    (hrail : vget s.dev.rails.ok p.rail = true) : pinLevel s.od s.dev p = p.resetLevel s.dev := by
  unfold pinLevel
  rw [if_neg (by simp [h0, hrail]), if_pos (by simpa using hscope)]

/-- Settles O11: each pin begins and ends its reset, the limit and the rearming mark RESET_N, and in a reset the outputs rest. -/
theorem resetPinsAct : Obligations.ResetPinsAct := by
  unfold Obligations.ResetPinsAct
  refine ⟨fun s h0 hporst hscope => ⟨_, rfl, porstAssert_resets h0 hporst hscope⟩,
    fun s h0 hporst hscope hpin hpinless => ⟨_, rfl, porstRelease_ends h0 hporst hscope hpin hpinless⟩,
    fun s h0 hporst hpin hmasked hscope => ⟨_, rfl, resetNAssert_resets h0 hporst hpin hmasked hscope⟩, fun s h0 hporst hpin => ?_,
    fun s h0 hporst hpin => ?_, fun s hpin hby hporst hopen => resetNLimitExpiry_completes hpin hby hporst hopen,
    fun s hmasked hpin hporst => resetNRearmed_completes hmasked hpin hporst, fun s p hscope h0 hrail => pinLevel_of_reset hscope h0 hrail⟩
  · obtain ⟨hclear, hby, -, -⟩ := resetNRelease_clears h0 hporst hpin
    exact ⟨_, rfl, hclear, hby⟩
  · have haon : (s.upTo limitDue).dev.aon = s.dev.aon := upTo_part _ s (p := .aon) (by decide)
    have hrails : (s.upTo limitDue).dev.rails = s.dev.rails := upTo_part _ s (p := .rails) (by decide)
    refine completes_timedAct (due := limitDue) (f := resetNLimit true) rfl ?_
    rw [← haon]
    exact resetNRelease_clears (hrails ▸ h0) (haon ▸ hporst) (haon ▸ hpin)

/-! ### Resets without a pin -/

/-- A wait leaves since when each domain has its state. -/
theorem upTo_since (due : Od → Dev → Option Instant) (s : State) (m : Domain) : (getDom (s.upTo due).dev m).since = (getDom s.dev m).since := by
  unfold State.upTo
  split
  · unfold passTicks
    split
    · rfl
    · exact forEach_keeps (P := fun e => (getDom e m).since = (getDom s.dev m).since)
        (fun _ _ e he => vget_vmod_keeps (P := fun c : DomainCtl => c.since = (getDom s.dev m).since) e.doms _ _ _ id he) rfl
  · rfl

theorem watchdog_completes {core : Fin 4} {s : State} (hon : s.dev.isOn (domainOfCore core.val) = true)
    (hscope : s.dev.aon.reset.scope = .none) :
    Completes (.watchdog core) s (fun u => u.dev.aon.reset.scope = .warm ∧ u.dev.aon.reset.cause = 6) := by
  have hdue : watchdogDue core.val s.od s.dev = some (.aon ((getDom s.dev (domainOfCore core.val)).since + msT 50)) := by
    simp [watchdogDue, instantIf, hon]
  have hover := le_run_upTo hdue
  have hsince : (getDom (s.upTo (watchdogDue core.val)).dev (domainOfCore core.val)).since = (getDom s.dev (domainOfCore core.val)).since := upTo_since ..
  have haon : (s.upTo (watchdogDue core.val)).dev.aon = s.dev.aon := upTo_part _ s (p := .aon) (by decide)
  obtain ⟨hwarm, hcause, -⟩ := acceptReset_begins (code := 6) (s := s.upTo (watchdogDue core.val)) (haon ▸ hscope)
  refine completes_timedAct (due := watchdogDue core.val) (f := watchdog core.val) rfl ?_
  unfold watchdog
  dsimp only
  rw [if_neg (by simp [upTo_isOn, hon, hsince, hover]), State.act_dev, record_aon]
  exact ⟨hwarm, hcause⟩

theorem deviceReset_completes {via : Via} {s : State} (h : accepted via 0x2202 1 (toLE 4 0x74657372) s = true)
    (hscope : s.dev.aon.reset.scope = .none) :
    Completes (.deviceReset via) s (fun u => u.dev.aon.reset.scope = .warm ∧ u.dev.aon.reset.cause = 5) := by
  unfold accepted at h
  split at h
  next n t hseen =>
    have hobject : writeObject (some n) 0x2202 1 (toLE 4 0x74657372) t = (none, t) := by
      unfold writeObject at h ⊢
      split at h
      next => cases h
      next hcheck =>
        have heffect : writeEffect (some n) 0x2202 1 (toLE 4 0x74657372) t = unlessRefused (deviceResetRefusal t.dev) t t := rfl
        rw [heffect] at h ⊢
        cases hrefusal : deviceResetRefusal t.dev with
        | none => rfl
        | some code => rw [hrefusal] at h; cases h
    have hwhole : writeWhole writeObject n 0x2202 1 0 (toLE 4 0x74657372).length (toLE 4 0x74657372) t =
        ({ last := true, total := (toLE 4 0x74657372).length, reset := true }, t) := by simp [writeWhole, hobject]
    have hnostore : beganStore t (writeWhole writeObject n 0x2202 1 0 (toLE 4 0x74657372).length (toLE 4 0x74657372) t) = false := by
      rw [hwhole]
      cases hstore : t.dev.com.store <;> simp [beganStore, hstore]
    obtain ⟨x, hx, hwrite⟩ := hostWrite_writes (by decide) (by decide) (by simp) hseen
    rw [hnostore, hwhole] at hwrite
    rw [hobject] at hx
    have haon : x.dev.aon = s.dev.aon := (agreeButCom_part hx.agrees (p := .aon) (by decide)).trans
      ((writeSeen_executesFrom hseen).part (p := .aon) (by decide))
    obtain ⟨hwarm, hcause, -⟩ := acceptReset_begins (code := 5) (s := x) (haon ▸ hscope)
    have hanswer : hostWrite via 0x2202 1 (toLE 4 0x74657372) s = acceptReset 5 x := hwrite
    refine ⟨_, rfl, ?_⟩
    dsimp only
    rw [hanswer]
    exact ⟨hwarm, hcause⟩
  next => cases h

theorem pinlessOver_ends {s : State} {t : Nat} (hpinless : s.dev.aon.reset.pinless = some t) (hover : t ≤ s.dev.clk.run)
    (h1 : vget s.dev.rails.ok 1 = true) (h2 : vget s.dev.rails.ok 2 = true) :
    (pinlessOver s).dev.aon.reset.pinless = none ∧ (s.dev.aon.reset.scope ≠ .none → s.dev.aon.reset.porst = false →
      s.dev.aon.reset.byPin = false → (pinlessOver s).dev.aon.reset.scope = .none ∧ (pinlessOver s).dev.sec.keysHidden = false) := by
  unfold pinlessOver
  simp only [hpinless]
  rw [if_neg (by simp [h1, h2, hover])]
  refine ⟨by rw [tryRelease_keeps]; rfl, fun hscope hporst hpin => ?_⟩
  obtain ⟨hreset, hkeys⟩ := tryRelease_ends (s := { s with dev := modReset (fun r => { r with pinless := none }) s.dev }) hscope hporst hpin rfl
  rw [hreset]
  exact ⟨rfl, hkeys⟩

/-- Settles O12: watchdog, DEVICE_RESET and debug each begin a warm reset of their cause, which ends when its hold is over. -/
theorem pinlessResetsAct : Obligations.PinlessResetsAct := by
  unfold Obligations.PinlessResetsAct
  refine ⟨fun core s hon hscope => watchdog_completes hon hscope, fun via s h hscope => deviceReset_completes h hscope,
    fun s hsec hdebug hlife hscope => ⟨_, rfl, ?_⟩, fun s t hpinless h1 h2 => ?_⟩
  · obtain ⟨hwarm, hcause, -⟩ := acceptReset_begins (code := 7) hscope
    dsimp only [debugReset]
    rw [if_pos (by simp [hsec, hdebug, hlife])]
    exact ⟨hwarm, hcause⟩
  · have hover := le_run_upTo (due := fun _ d => d.aon.reset.pinless.map Instant.aon) (s := s) (t := t) (by simp [hpinless])
    have haon : (s.upTo fun _ d => d.aon.reset.pinless.map Instant.aon).dev.aon = s.dev.aon := upTo_part _ s (p := .aon) (by decide)
    have hrails : (s.upTo fun _ d => d.aon.reset.pinless.map Instant.aon).dev.rails = s.dev.rails := upTo_part _ s (p := .rails) (by decide)
    refine completes_timedAct (due := fun _ d => d.aon.reset.pinless.map Instant.aon) (f := pinlessOver) rfl ?_
    rw [← haon]
    exact pinlessOver_ends (haon ▸ hpinless) hover (hrails ▸ h1) (hrails ▸ h2)

end Sys2Proof.Machine
end

section
/-! Domain requests (O14): an idle policy in the AON cycle of a wake. -/
namespace Sys2Proof.Machine

/-- DRV is ON and idle with a policy of RETENTION, in the AON cycle of a wake whose sequence has not begun its first domain. -/
def idleAtWake : State := {
  od := odSet [] 0x2115 1 [1]
  dev := {
    doms := Vector.replicate 8 { state := .on, idle := some 0 }
    aon := { waking := true, seq := some { boot := false, todo := [.sec], mask := 0, waitRails := false } } } }

/-- The sequence is fresh, so it is no reason for DRV to stay; and none of the other reasons of R130 applies. -/
theorem idleAtWake_free :
    odU idleAtWake.od (0x2110 + Domain.drv.num) 1 ≠ 0 ∧ (getDom idleAtWake.dev .drv).idle.isSome = true ∧
      idleHolds idleAtWake.od (idleAtWake.upTo (idleDue .drv)).dev .drv = true ∧ idleHolds idleAtWake.od idleAtWake.dev .drv = true ∧
      leaveBusy idleAtWake.dev = false ∧
      stateRefusal (idleAtWake.upTo (idleDue .drv)).od (idleAtWake.upTo (idleDue .drv)).dev .drv
        (if odU idleAtWake.od (0x2110 + Domain.drv.num) 1 = 1 then .retention else .off) = none := by
  decide +kernel

/-- The next AON cycle is not that of the wake any more: the sequence is busy, and DRV stays ON. -/
theorem idle_after_wake_stays :
    ∃ t, exec (.idleTimeExpiry 5 {}) idleAtWake = .next t ∧ (getDom t.dev .drv).state = .on := by
  refine ⟨_, rfl, ?_⟩
  decide +kernel

/-- Refutes O14: where the state stands in the cycle of a wake, its sequence does not keep a domain ON (R138), but the policy's time ends in
a later cycle, in which it does. -/
theorem not_domainsChangeState : ¬ Obligations.DomainsChangeState := by
  rintro ⟨-, -, -, -, hidle, -⟩
  obtain ⟨hpolicy, hsince, hlater, hnow, hfree, hrefusal⟩ := idleAtWake_free
  obtain ⟨t, ht, hstays⟩ := idle_after_wake_stays
  obtain ⟨u, hu, hleaves, -, -⟩ := hidle 5 idleAtWake (by decide) (by decide) hpolicy hsince hlater hnow rfl hfree rfl hrefusal
  obtain rfl : t = u := Host.Outcome.next.inj (ht.symm.trans hu)
  exact absurd (hstays.symm.trans hleaves) (by decide)

end Sys2Proof.Machine
end

section
/-! The boot sequence (O13). -/
namespace Sys2Proof.Machine

/-! ### The sequencer (R118) -/

/-- A transition to ON begins: the controller of the domain says so, and of AON only READY and the boot times may change. -/
theorem beginTransition_on (m : Domain) (cause : Nat) (s : State) :
    (getDom (beginTransition m .on cause s).dev m).state = .transition ∧ (getDom (beginTransition m .on cause s).dev m).target = .on ∧
      (beginTransition m .on cause s).dev.aon.seq = s.dev.aon.seq := by
  unfold beginTransition
  extract_lets old s1 s2 s3
  have hdoms : (s3.act readyCheck).dev.doms = s3.dev.doms := readyCheck_leaves (p := .doms) (by decide) ..
  have hm : m.num < 8 := by cases m <;> decide
  have hctl : getDom s3.dev m = { getDom s.dev m with state := .transition, left := old, target := .on, cause := cause, since := s.dev.clk.run, idle := none } :=
    vget_vmod_same _ _ _ hm
  have hseq : (readyCheck s3.od s3.dev).aon.seq = s3.dev.aon.seq := by
    unfold readyCheck
    split
    · rfl
    · split
      · rfl
      · rw [record_aon]
        rfl
  rw [getDom, hdoms]
  rw [getDom] at hctl
  rw [hctl]
  exact ⟨rfl, rfl, hseq⟩

theorem takeBootDomains_waitRails (o : Od) (q : SeqCtl) (w : Bool) :
    (takeBootDomains o { q with waitRails := w }).todo = (takeBootDomains o q).todo := by
  unfold takeBootDomains
  split <;> rfl

/-- The next domain of the sequence is requested where it is eligible. -/
theorem seqNext_requests {s : State} {q : SeqCtl} {m : Domain} {todo : List Domain} (hseq : s.dev.aon.seq = some q) (hcurrent : q.current = none)
    (hrails : q.waitRails = true → switchedReady s.dev = true) (hscope : s.dev.aon.reset.scope = .none)
    (hpick : seqPick s.dev (takeBootDomains s.od q).todo = (.request m, todo)) :
    (getDom (seqNext s).dev m).state = .transition ∧ (getDom (seqNext s).dev m).target = .on ∧
      ∃ q', (seqNext s).dev.aon.seq = some q' ∧ q'.current = some m ∧ q'.todo = todo := by
  have hkept : seqFailed s = s := by simp only [seqFailed, hseq, hcurrent]
  have hwait : (q.waitRails && !switchedReady s.dev) = false := by
    cases hw : q.waitRails with
    | false => rfl
    | true => rw [hrails hw]; rfl
  have hpick' : seqPick s.dev (takeBootDomains s.od { q with waitRails := false }).todo = (.request m, todo) := by
    rw [takeBootDomains_waitRails]
    exact hpick
  have hrun : ∃ (q' : SeqCtl) (cause : Nat), q'.current = some m ∧ q'.todo = todo ∧
      seqNext s = beginTransition m .on cause { s with dev := modAon (fun a => { a with seq := some q' }) s.dev } := by
    unfold seqNext
    simp only [hcurrent] at hpick'
    simp only [hkept, hseq, hcurrent, hwait, hscope]
    rw [if_neg (by decide)]
    simp only [hpick']
    exact ⟨_, _, rfl, rfl, rfl⟩
  obtain ⟨q', cause, hm, htodo, heq⟩ := hrun
  rw [heq]
  obtain ⟨hstate, htarget, hkeep⟩ := beginTransition_on m cause { s with dev := modAon (fun a => { a with seq := some q' }) s.dev }
  exact ⟨hstate, htarget, q', hkeep, hm, htodo⟩

theorem standbyCheck_seq (d : Dev) : (standbyCheck d).aon.seq = d.aon.seq := by
  unfold standbyCheck
  dsimp only
  split <;> rfl

/-- A domain that has not reached ON in its time is passed over. -/
theorem seqTimeout_passes {s : State} {q : SeqCtl} {m : Domain} (hseq : s.dev.aon.seq = some q) (hcurrent : q.current = some m)
    (hoff : s.dev.isOn m = false) (hover : q.requested + msT 50 ≤ s.dev.clk.run) :
    (seqTimeout s).dev.aon.seq = some { q with current := none } := by
  unfold seqTimeout
  simp only [hseq, hcurrent]
  rw [if_neg (by simp [hoff, hover])]
  dsimp only
  rw [standbyCheck_seq, record_aon]
  rfl

theorem bootDomainFailed_completes {s : State} {q : SeqCtl} {m : Domain} (hseq : s.dev.aon.seq = some q) (hcurrent : q.current = some m)
    (hoff : s.dev.isOn m = false) :
    Completes .bootDomainFailed s (fun u => u.od = s.od ∧ ∃ q', u.dev.aon.seq = some q' ∧ q'.current = none ∧ q'.todo = q.todo) := by
  have hdue : bootDue s.od s.dev = some (.aon (q.requested + msT 50)) := by simp [bootDue, hseq, hcurrent, instantIf, hoff]
  have hover := le_run_upTo hdue
  have haon : (s.upTo bootDue).dev.aon = s.dev.aon := upTo_part _ s (p := .aon) (by decide)
  have hpassed := seqTimeout_passes (s := s.upTo bootDue) (haon ▸ hseq) hcurrent ((upTo_isOn ..).trans hoff) hover
  exact completes_timedAct (due := bootDue) (f := seqTimeout) rfl ⟨(seqTimeout_od _).trans (upTo_od ..), _, hpassed, rfl, rfl⟩

/-! ### The declare timeout (R119) -/

/-- A sequence without the domains that wait for TBLOCK; one that has nothing left ends. -/
def tbCut (q : SeqCtl) : Option SeqCtl :=
  let left := q.todo.filter (fun m => !(m == .ctrl || m == .link || m == .drv))
  if left.isEmpty && q.current.isNone && q.taken then none else some { q with todo := left }

/-- AON's part of the timeout: the sequence is cut, and a boot has ended. -/
def tbEnded (d : Dev) : Dev := modAon (fun a => { a with seq := a.seq.bind tbCut, bootOpen := false }) d

/-- What the timeout does where a sequence or a boot waits for TBLOCK. -/
theorem tbTimeout_over {s : State} (hwaits : s.dev.aon.bootOpen = true ∧ (getDom s.dev .meas).cause = 5 ∨
    ∃ q, s.dev.aon.seq = some q ∧ q.todo.any (fun m => m == .ctrl || m == .link || m == .drv) = true)
    (hmeas : s.dev.isOn .meas = true) (hlock : s.dev.time.tb.declared = false)
    (hover : (getDom s.dev .meas).since + msT 100 ≤ s.dev.clk.run) :
    (tbTimeout s).dev = if s.dev.aon.bootOpen && (getDom s.dev .meas).cause == 5 then
      record s.od 0x0209 0 ([0, b8 (domainsOn (tbEnded s.dev)), if s.dev.aon.calForced then 1 else 0, 0] ++ toLE 4 s.dev.aon.bootTime)
        (tbEnded s.dev)
    else tbEnded s.dev := by
  unfold tbTimeout
  extract_lets d gated boot waits cut d1
  have hgo : (boot || waits) = true := by
    rcases hwaits with ⟨hopen, hcause⟩ | ⟨q, hseq, hany⟩
    · simp [boot, d, hopen, hcause]
    · simp only [waits, d, hseq, gated, hany, Bool.or_true]
  rw [if_neg (by simp [hgo, d, hmeas, hlock, hover])]
  rfl

/-- An event recorded while SEC is ON stands at the present stamp. -/
theorem record_recorded {o : Od} {code source : Nat} {data : Bytes} {d : Dev} (h : d.isOn .sec = true) :
    recorded code (record o code source data d).clk.stamp source (padTo 16 data) (record o code source data d) := by
  rw [show (record o code source data d).clk = d.clk by simp only [record_frame]]
  exact recordAt_recorded h

theorem tbCut_gated {q q' : SeqCtl} (h : tbCut q = some q') : q'.todo.any (fun m => m == .ctrl || m == .link || m == .drv) = false := by
  unfold tbCut at h
  dsimp only at h
  split at h
  · cases h
  · cases h
    simp [List.any_eq_false]

section
variable {s : State} (hmeas : s.dev.isOn .meas = true) (hlock : s.dev.time.tb.declared = false)
  (hover : (getDom s.dev .meas).since + msT 100 ≤ s.dev.clk.run)
include hmeas hlock hover

/-- The domains that wait for TBLOCK leave the list. -/
theorem tbTimeout_cuts {q : SeqCtl} (hseq : s.dev.aon.seq = some q)
    (hany : q.todo.any (fun m => m == .ctrl || m == .link || m == .drv) = true) {q' : SeqCtl} (hq' : (tbTimeout s).dev.aon.seq = some q') :
    q'.todo.any (fun m => m == .ctrl || m == .link || m == .drv) = false := by
  have hdev := tbTimeout_over (Or.inr ⟨q, hseq, hany⟩) hmeas hlock hover
  have haon : (tbTimeout s).dev.aon = (tbEnded s.dev).aon := by
    rw [hdev]
    split
    · exact record_aon ..
    · rfl
  rw [haon] at hq'
  have hcut : tbCut q = some q' := (show (tbEnded s.dev).aon.seq = tbCut q by simp only [tbEnded, modAon_aon, hseq, Option.bind_some]).symm.trans hq'
  exact tbCut_gated hcut

/-- A boot that has not ended records that it ends without READY. -/
theorem tbTimeout_recordsBoot (hopen : s.dev.aon.bootOpen = true) (hcause : (getDom s.dev .meas).cause = 5) :
    (tbTimeout s).dev.aon.bootOpen = false ∧ (s.dev.isOn .sec = true →
      ∃ b, recorded 0x0209 (tbTimeout s).dev.clk.stamp 0 b (tbTimeout s).dev ∧ leAt b 0 1 = 0) := by
  have hdev := tbTimeout_over (Or.inl ⟨hopen, hcause⟩) hmeas hlock hover
  rw [if_pos (by simp [hopen, hcause])] at hdev
  rw [hdev]
  exact ⟨by rw [record_aon]; rfl, fun hsec => ⟨_, record_recorded hsec, rfl⟩⟩

end

theorem tblock_over {s : State} (hwaits : s.dev.aon.bootOpen = true ∨ s.dev.aon.seq.isSome = true) (hmeas : s.dev.isOn .meas = true)
    (hlock : s.dev.time.tb.declared = false) :
    (getDom (s.upTo tblockDue).dev .meas).since + msT 100 ≤ (s.upTo tblockDue).dev.clk.run := by
  have hdue : tblockDue s.od s.dev = some (.aon ((getDom s.dev .meas).since + msT 100)) := by
    rcases hwaits with h | h <;> simp [tblockDue, instantIf, h, hmeas, hlock]
  rw [upTo_since]
  exact le_run_upTo hdue

/-- A wait leaves the cause of each domain's state. -/
theorem upTo_cause (due : Od → Dev → Option Instant) (s : State) (m : Domain) : (getDom (s.upTo due).dev m).cause = (getDom s.dev m).cause := by
  unfold State.upTo
  split
  · unfold passTicks
    split
    · rfl
    · exact forEach_keeps (P := fun e => (getDom e m).cause = (getDom s.dev m).cause)
        (fun _ _ e he => vget_vmod_keeps (P := fun c : DomainCtl => c.cause = (getDom s.dev m).cause) e.doms _ _ _ id he) rfl
  · rfl

/-! ### The trial image (R116) -/

theorem bootConfirm_ends {s t : State} (hrun : trialRunning s.dev = true) (h : bootConfirm s = (none, t)) :
    t.dev.nv.boot.trial = false ∧ t.od = s.od := by
  unfold bootConfirm at h
  split at h
  · cases h
  · cases h
    simp only [devTo_dev, hrun, if_true, onNv_nv, boot_setBoot]
    exact ⟨trivial, rfl⟩

/-- Settles O13: the sequence requests, passes over and is cut, and the confirmation ends the trial. -/
theorem bootSequenceActs : Obligations.BootSequenceActs := by
  unfold Obligations.BootSequenceActs
  refine ⟨fun s q m todo hseq hcurrent hrails hscope hpick => ⟨_, rfl, seqNext_requests hseq hcurrent hrails hscope hpick⟩,
    fun s q m hseq hcurrent hoff => bootDomainFailed_completes hseq hcurrent hoff, fun s q hseq hmeas hlock hany => ?_,
    fun s hopen hcause hmeas hlock => ?_, fun via s h hrun => ?_⟩
  · have haon : (s.upTo tblockDue).dev.aon = s.dev.aon := upTo_part _ s (p := .aon) (by decide)
    have htime : (s.upTo tblockDue).dev.time = s.dev.time := upTo_part _ s (p := .time) (by decide)
    refine completes_timedAct (due := tblockDue) (f := tbTimeout) rfl ⟨(tbTimeout_od _).trans (upTo_od ..), fun q' hq' => ?_⟩
    exact tbTimeout_cuts ((upTo_isOn ..).trans hmeas) (htime ▸ hlock) (tblock_over (Or.inr (by rw [hseq]; rfl)) hmeas hlock) (haon ▸ hseq) hany hq'
  · have haon : (s.upTo tblockDue).dev.aon = s.dev.aon := upTo_part _ s (p := .aon) (by decide)
    have htime : (s.upTo tblockDue).dev.time = s.dev.time := upTo_part _ s (p := .time) (by decide)
    obtain ⟨hended, hrecorded⟩ := tbTimeout_recordsBoot (s := s.upTo tblockDue) ((upTo_isOn ..).trans hmeas) (htime ▸ hlock)
      (tblock_over (Or.inl hopen) hmeas hlock) (haon ▸ hopen) ((upTo_cause ..).trans hcause)
    exact completes_timedAct (due := tblockDue) (f := tbTimeout) rfl
      ⟨(tbTimeout_od _).trans (upTo_od ..), hended, fun hsec => hrecorded ((upTo_isOn ..).trans hsec)⟩
  · refine completes_of_write rfl ⟨by omega, by decide, by simp, by omega, by omega⟩ h fun n t u v ho => ?_
    have hsec : t.dev.sec = s.dev.sec := ho.seen.part (p := .sec) (by decide)
    have hnv : t.dev.nv = s.dev.nv := ho.seen.part (p := .nv) (by decide)
    have heffect : bootConfirm t = (none, u) := ho.effect
    obtain ⟨htrial, hod⟩ := bootConfirm_ends (by rw [trialRunning, hsec, hnv]; exact hrun) heffect
    refine ⟨?_, ho.od.trans (hod.trans ho.seen.od)⟩
    rw [show v.dev.nv = u.dev.nv from ho.part (p := .nv) (by decide)]
    exact htrial

end Sys2Proof.Machine
end

section
/-! The wakes and the alarm (O15). -/
namespace Sys2Proof.Machine

/-! ### Sources -/

/-- The bits of a list of numbers are the numbers. -/
theorem testBit_foldl_or (l : List Nat) (v b : Nat) : (l.foldl (fun n b => n ||| 2 ^ b) v).testBit b = (v.testBit b || decide (b ∈ l)) := by
  induction l generalizing v with
  | nil => simp
  | cons a l ih =>
    rw [List.foldl_cons, ih, Nat.testBit_or, Nat.testBit_two_pow, Bool.or_assoc]
    congr 1
    by_cases h : a = b
    · simp [h]
    · simp [h, Ne.symm h]

/-- Between cycles no wake has been accepted and no domain is lost now. -/
def outOfCycle (d : Dev) : Dev := modAon (fun a => { a with waking := false, lostNow := 0 }) d

theorem railsLost_nil (s : State) : railsLost [] s = { s with dev := outOfCycle s.dev } := by
  have hids : (List.range 9).filter (fun r => ([] : List (Fin 9)).any (fun x => x.val == r) && vget s.dev.rails.ok r) = [] := by simp
  unfold railsLost
  rw [hids]
  rfl

/-- What the wake inputs show does not depend on the cycle. -/
theorem wakeSees_outOfCycle (o : Od) (w : WakeSeen) (d : Dev) :
    (wakeSees o w (outOfCycle d)).1 = (wakeSees o w d).1 ∧ (wakeSees o w (outOfCycle d)).2 = outOfCycle (wakeSees o w d).2 := by
  unfold wakeSees
  extract_lets filter held open_ ok levels edges d1 ok' levels' edges' d1'
  refine ⟨rfl, ?_⟩
  dsimp only
  split <;> rfl

theorem wakeSources_outOfCycle (o : Od) (edges : Nat) (d : Dev) : wakeSources o edges (outOfCycle d) = wakeSources o edges d := rfl

theorem mem_wakeSources_pin {o : Od} {edges : Nat} {d : Dev} {b : Fin 4} (henabled : (odU o 0x2103 1).testBit b.val = true)
    (hlevel : pinByLevel o b.val = true) (hactive : pinActive o b.val d.aon.wakeLevels = true) (hnew : d.aon.woken.testBit b.val = false)
    (hfrom : vget d.aon.wakeFrom b.val ≤ d.clk.run) : b.val ∈ wakeSources o edges d := by
  have hlt := b.isLt
  refine List.mem_filter.mpr ⟨List.mem_range.mpr (by omega), ?_⟩
  have havailable : wakeAvailable o d b.val = true := by
    unfold wakeAvailable
    rw [if_pos (by omega)]
  have hholds : wakeHolds o d b.val = true := by
    unfold wakeHolds
    rw [if_pos (by omega), hlevel, hactive]
    rfl
  simp [henabled, havailable, hholds, hnew, hfrom]

/-! ### A wake is accepted (R136) -/

theorem groupEnd_frame (o : Od) (byWake : Bool) (d : Dev) :
    (groupEnd o none byWake d).clk = d.clk := groupEnd_leaves (p := .clk) (by decide) ..

/-- The wake of the sources drives SUP_EN, begins a sequence, and is stamped with them. -/
theorem startWake_starts (o : Od) (sources primary route : Nat) (preempts : Bool) (d : Dev) :
    (startWake o sources primary route preempts d).aon.reset.supEn = true ∧
      (startWake o sources primary route preempts d).aon.seq.isSome = true ∧
      (startWake o sources primary route preempts d).aon.wakeAt = some d.clk.run ∧
      (startWake o sources primary route preempts d).aon.wakeSources = sources := by
  unfold startWake
  extract_lets low flags wanted d1 busy seq d2
  rw [record_aon]
  exact ⟨rfl, rfl, rfl, rfl⟩

/-- A wake whose sources are `l`, in the device `d`, has been accepted. -/
structure Woken (l : List Nat) (d e : Dev) : Prop where
  supEn : e.aon.reset.supEn = true
  seq : e.aon.seq.isSome = true
  wakeAt : e.aon.wakeAt = some d.clk.run
  sources : e.aon.wakeSources = l.foldl (fun n b => n ||| 2 ^ b) 0

theorem wakeAccept_wakes {o : Od} {edges : Nat} (preempts : Bool) {d : Dev} (hsources : wakeSources o edges d ≠ [])
    (hscope : d.aon.reset.scope = .none) (hvaon : vget d.rails.ok 0 = true) :
    Woken (wakeSources o edges d) d (wakeAccept o edges preempts d) := by
  unfold wakeAccept
  extract_lets srcs m took
  rw [if_neg (by simp [srcs, hsources, hscope, hvaon])]
  obtain ⟨hsup, hseq, hat, hsrc⟩ := startWake_starts o m (lowestBit 11 m) (srcs.foldl (fun n b => n ||| wakeRoute o b) 0) preempts (took m)
  exact ⟨hsup, hseq, hat, hsrc⟩

/-- What the wake inputs show leaves the clock, the rails and the reset controller. -/
theorem wakeSees_frame (o : Od) (w : WakeSeen) (d : Dev) : (wakeSees o w d).2.clk = d.clk ∧ (wakeSees o w d).2.rails = d.rails ∧
    (wakeSees o w d).2.aon.reset = d.aon.reset := by
  unfold wakeSees
  extract_lets filter held open_ ok levels edges d1
  dsimp only
  split <;> exact ⟨rfl, rfl, rfl⟩

/-- An AON cycle with nothing but a wake that is accepted is that wake. -/
theorem aonCycle_wakes {seen : WakeSeen} {s : State}
    (hsources : wakeSources s.od (wakeSees s.od seen s.dev).1 (wakeSees s.od seen s.dev).2 ≠ [])
    (hscope : s.dev.aon.reset.scope = .none) (hvaon : vget s.dev.rails.ok 0 = true) :
    Woken (wakeSources s.od (wakeSees s.od seen s.dev).1 (wakeSees s.od seen s.dev).2) s.dev (aonCycle { seen := some seen } s).dev ∧
      (aonCycle { seen := some seen } s).od = s.od := by
  obtain ⟨hedges, hafter⟩ := wakeSees_outOfCycle s.od seen s.dev
  obtain ⟨hclk, hrails, hreset⟩ := wakeSees_frame s.od seen s.dev
  have hwoken (preempts : Bool) : Woken (wakeSources s.od (wakeSees s.od seen s.dev).1 (wakeSees s.od seen s.dev).2) s.dev
      (cycleWakes (some seen) preempts { s with dev := outOfCycle s.dev }).dev := by
    have h := wakeAccept_wakes (o := s.od) (edges := (wakeSees s.od seen s.dev).1) preempts (d := outOfCycle (wakeSees s.od seen s.dev).2)
      hsources ((congrArg ResetCtl.scope hreset).trans hscope) ((congrArg (fun r : Rails => vget r.ok 0) hrails).trans hvaon)
    have heq : (cycleWakes (some seen) preempts { s with dev := outOfCycle s.dev }).dev =
        wakeAccept s.od (wakeSees s.od seen s.dev).1 preempts (outOfCycle (wakeSees s.od seen s.dev).2) := by
      rw [← hedges, ← hafter]
      rfl
    rw [heq]
    exact ⟨h.supEn, h.seq, h.wakeAt.trans (congrArg (fun c : Clock => some c.run) hclk :), h.sources⟩
  unfold aonCycle
  simp only [railsLost_nil, show ∀ d, cycleItems { seen := some seen } d = [] from fun _ => rfl, List.foldl_nil]
  split
  · exact ⟨⟨(hwoken true).supEn, (hwoken true).seq, (hwoken true).wakeAt, (hwoken true).sources⟩, cycleWakes_od ..⟩
  · exact ⟨⟨(hwoken false).supEn, (hwoken false).seq, (hwoken false).wakeAt, (hwoken false).sources⟩, cycleWakes_od ..⟩

/-- A pin of LEVEL type that has been active through the filter is a source. -/
theorem pin_isSource {seen : WakeSeen} {b : Fin 4} {s : State} (hheld : odU s.od 0x2105 5 ≤ seen.held.toNat)
    (hlevel : pinByLevel s.od b.val = true) (hactive : pinActive s.od b.val seen.pins.toNat = true)
    (henabled : (odU s.od 0x2103 1).testBit b.val = true) (hnew : s.dev.aon.woken.testBit b.val = false)
    (hfrom : vget s.dev.aon.wakeFrom b.val ≤ s.dev.clk.run) :
    b.val ∈ wakeSources s.od (wakeSees s.od seen s.dev).1 (wakeSees s.od seen s.dev).2 := by
  have hpassed : (wakeSees s.od seen s.dev).2.aon.wakeLevels = seen.pins.toNat ∧
      (wakeSees s.od seen s.dev).2.aon.woken = s.dev.aon.woken ∧ (wakeSees s.od seen s.dev).2.aon.wakeFrom = s.dev.aon.wakeFrom := by
    unfold wakeSees
    extract_lets filter held open_ ok levels edges d1
    have hok : ok = true := by simp [ok, filter, held, hheld]
    have hlevels : levels = seen.pins.toNat := by simp only [levels, hok, if_true]
    dsimp only
    split <;> exact ⟨hlevels, rfl, rfl⟩
  obtain ⟨hlevels, hwoken, hsince⟩ := hpassed
  refine mem_wakeSources_pin henabled hlevel (hlevels ▸ hactive) (hwoken ▸ hnew) ?_
  rw [hsince, (wakeSees_frame ..).1]
  exact hfrom

/-! ### The alarm (R142) -/

/-- Ticks enough for `a` units of the RTC, whatever fraction of one has passed. -/
theorem units_of_ticks (a fraction unit : Nat) (hunit : 0 < unit) :
    a ≤ (fraction + 32768 * max 1 ((a * unit - fraction + 32767) / 32768)) / unit := by
  refine (Nat.le_div_iff_mul_le hunit).mpr ?_
  generalize a * unit = need
  omega

theorem trackIdle_rtcRuns (o : Od) (d : Dev) : rtcRuns (trackIdle o d) = rtcRuns d := by
  have haon : (trackIdle o d).aon = d.aon := forEach_eq Dev.aon d fun _ _ => rfl
  rw [rtcRuns, rtcRuns, trackIdle_clk, haon]

/-- The RTC after ticks while it runs. -/
theorem passTicks_rtc {k : Nat} {s : State} (hk : k ≠ 0) (hruns : rtcRuns s.dev = true) :
    (passTicks k s).dev.clk.rtc = s.dev.clk.rtc + (s.dev.clk.rtcFrac + 32768 * k) / rtcUnit := by
  unfold passTicks
  rw [if_neg hk]
  dsimp only
  rw [trackIdle_rtcRuns, hruns, trackIdle_clk]
  rfl

theorem le_rtc_passTicks (k : Nat) (s : State) : s.dev.clk.rtc ≤ (passTicks k s).dev.clk.rtc := by
  unfold passTicks
  split
  · exact le_refl _
  · dsimp only
    rw [trackIdle_clk]
    exact Nat.le_add_right _ _

/-- A wait for a value of the RTC, which runs, reaches it. -/
theorem le_rtc_upTo {due : Od → Dev → Option Instant} {s : State} {n : Nat} (hdue : due s.od s.dev = some (.rtc n))
    (hruns : rtcRuns s.dev = true) : n ≤ (s.upTo due).dev.clk.rtc := by
  simp only [State.upTo, hdue]
  by_cases hbefore : s.dev.clk.rtc < n
  · have hticks : ticksTo s.dev (.rtc n) = max 1 (((n - s.dev.clk.rtc) * rtcUnit - s.dev.clk.rtcFrac + 32767) / 32768) := by
      rw [ticksTo, if_pos ⟨hruns, hbefore⟩]
    have hpos : ticksTo s.dev (.rtc n) ≠ 0 := by
      rw [hticks]
      exact Nat.one_le_iff_ne_zero.mp (le_max_left ..)
    have hunits := units_of_ticks (n - s.dev.clk.rtc) s.dev.clk.rtcFrac rtcUnit (by decide)
    rw [← hticks] at hunits
    rw [passTicks_rtc hpos hruns]
    exact Nat.sub_le_iff_le_add'.mp hunits
  · exact (Nat.not_lt.mp hbefore).trans (le_rtc_passTicks ..)

theorem groupEnd_pending (o : Od) (refused : Option Domain) (byWake : Bool) (d : Dev) :
    (groupEnd o refused byWake d).aon.wakePending = d.aon.wakePending := by
  unfold groupEnd
  split
  · rfl
  · dsimp only
    rw [record_aon]
    rfl

theorem wakeAccept_pending (o : Od) (edges : Nat) (preempts : Bool) (d : Dev) :
    (wakeAccept o edges preempts d).aon.wakePending = d.aon.wakePending := by
  unfold wakeAccept
  extract_lets srcs m took
  split
  · rfl
  · unfold startWake
    extract_lets low flags wanted d1 busy seq d2
    rw [record_aon]
    exact groupEnd_pending ..

theorem rtcAlarm_pends {o : Od} {d : Dev} (henabled : odU o 0x2106 3 ≠ 0) (hnew : d.aon.wakePending.testBit 5 = false)
    (hreached : odU o 0x2106 3 ≤ d.clk.rtc) : (rtcAlarm o d).aon.wakePending.testBit 5 = true ∧ (rtcAlarm o d).clk = d.clk := by
  have hclk : (rtcAlarm o d).clk = d.clk := rtcAlarm_leaves (p := .clk) (by decide) o d
  refine ⟨?_, hclk⟩
  unfold rtcAlarm
  extract_lets due
  rw [if_pos (by simp [due, henabled, hnew, hreached])]
  have hpending := wakeAccept_pending o 0 false (modAon (fun a => { a with wakePending := setBit a.wakePending 5 }) d)
  exact (congrArg (fun v : Nat => v.testBit 5) hpending).trans (setBit_testBit_self _ _)

/-- Settles O15: a wake that is accepted starts its route, a pin through the filter is accepted, and the alarm pends from its instant. -/
theorem wakesStartTheirRoute : Obligations.WakesStartTheirRoute := by
  unfold Obligations.WakesStartTheirRoute
  refine ⟨fun seen s => ?_, fun seen b s hscope hvaon hheld hlevel hactive henabled hnew hfrom => ?_, fun s henabled hruns hnew => ?_⟩
  · intro hsources hscope hvaon
    obtain ⟨hwoken, hod⟩ := aonCycle_wakes hsources hscope hvaon
    exact ⟨_, rfl, hwoken.supEn, hwoken.seq, hwoken.wakeAt, hwoken.sources, hod⟩
  · have hmem := pin_isSource hheld hlevel hactive henabled hnew hfrom
    obtain ⟨hwoken, hod⟩ := aonCycle_wakes (List.ne_nil_of_mem hmem) hscope hvaon
    refine ⟨_, rfl, ?_, hwoken.wakeAt, hod⟩
    dsimp only
    rw [hwoken.sources, testBit_foldl_or]
    simp [hmem]
  · have hdue : instantIf (odU s.od 0x2106 3 != 0 && !s.dev.aon.wakePending.testBit 5) (.rtc (odU s.od 0x2106 3)) =
        some (.rtc (odU s.od 0x2106 3)) := by simp [instantIf, henabled, hnew]
    have hreached := le_rtc_upTo (due := fun o d => instantIf (odU o 0x2106 3 != 0 && !d.aon.wakePending.testBit 5) (.rtc (odU o 0x2106 3)))
      hdue hruns
    have haon := upTo_part (fun o d => instantIf (odU o 0x2106 3 != 0 && !d.aon.wakePending.testBit 5) (.rtc (odU o 0x2106 3))) s
      (p := .aon) (by decide)
    obtain ⟨hpends, hclk⟩ := rtcAlarm_pends (o := s.od) henabled ((congrArg (fun a : Aon => a.wakePending.testBit 5) haon).trans hnew) hreached
    refine completes_timed (f := rtcAlarm) rfl ⟨hpends, ?_, rfl⟩
    exact (congrArg Clock.rtc hclk).symm ▸ hreached

end Sys2Proof.Machine
end

section
/-! The PTP port (O23) and the Ethernet interfaces (O24). -/
namespace Sys2Proof.Machine

/-! ### The rate, TIME_LOCKED and the loss of the master -/

theorem record_time' (o : Od) (code source : Nat) (data : Bytes) (d : Dev) : (record o code source data d).time = d.time := by
  simp only [record_frame]

theorem timeUnlock_time (o : Od) (cause : Nat) (d : Dev) : (timeUnlock o cause d).time = { d.time with timeLocked := false, lockRun := 0 } := by
  unfold timeUnlock
  extract_lets d1
  split
  · exact record_time' ..
  · rfl

/-- The servo's call for a rate changes the rate, its target and the instant of its last step. -/
theorem servoRate_time (o : Od) (r : Int) (d : Dev) :
    ∃ rate target at_, (servoRate o r d).time = { d.time with rate := rate, rateTarget := target, rateAt := at_ } := by
  unfold servoRate callRate
  split
  · extract_lets slewing d1
    split
    · exact ⟨d.time.rate, limitRate o r, d.time.rateAt, rfl⟩
    · exact ⟨_, limitRate o r, d.clk.dt, rfl⟩
  · exact ⟨d.time.rate, limitRate o r, d.time.rateAt, rfl⟩

/-- A port that loses its master is in holdover, and not locked to it; its links stand. -/
theorem masterLost_time {o : Od} {cause : Nat} {d : Dev} (h : d.time.master.isSome = true) :
    (masterLost o cause d).time.master = none ∧ (masterLost o cause d).time.holdover = true ∧ (masterLost o cause d).time.timeLocked = false := by
  obtain ⟨m, hm⟩ := Option.isSome_iff_exists.mp h
  unfold masterLost
  simp only [hm]
  rw [timeUnlock_time, record_time']
  obtain ⟨rate, target, at_, hrate⟩ := servoRate_time o (pptOf d.time.integ)
    (onTime (fun t => { t with master := none, holdover := true, twoStep := none, lastDiff := none, delaySent := none }) d)
  rw [hrate]
  exact ⟨rfl, rfl, rfl⟩

theorem masterLost_links (o : Od) (cause : Nat) (d : Dev) : (masterLost o cause d).time.links = d.time.links := by
  unfold masterLost
  split
  · rfl
  · dsimp only
    rw [timeUnlock_time, record_time']
    obtain ⟨rate, target, at_, hrate⟩ := servoRate_time o (pptOf d.time.integ)
      (onTime (fun t => { t with master := none, holdover := true, twoStep := none, lastDiff := none, delaySent := none }) d)
    rw [hrate]
    rfl

/-! ### Messages of the master (R187, R190) -/

section
variable {o : Od} {mac domain source seq : Nat} {udp : Bool} {d : Dev} {m : Master} (htakes : ptpTakes o mac udp domain d = true)
include htakes

/-- A Sync of the master at an interval that the port takes. -/
theorem ptpSync_takes (hmaster : d.time.master = some m) (hparent : m.parent = source) {logInterval : Int} (hlow : -5 ≤ logInterval)
    (hhigh : logInterval ≤ 4) (twoStep : Bool) (origin : Nat) (correction : Rat) :
    ptpSync o mac udp domain source seq logInterval twoStep origin correction d =
      if twoStep then onTime (fun t => { t with
        twoStep := some { seq := seq, t2 := rxNs o mac d, correction := correction }
        master := some { m with logSync := logInterval, syncAt := d.clk.dt } }) d
      else syncComplete o { m with logSync := logInterval } (rxNs o mac d) origin correction d := by
  unfold ptpSync
  simp only [htakes, hmaster, hparent]
  rw [if_neg (by simp), if_neg (by simp [hlow, hhigh])]

theorem ptpFollowUp_completes (hmaster : d.time.master = some m) (hparent : m.parent = source) {x : SyncTimes}
    (htwo : d.time.twoStep = some x) (hseq : x.seq = seq) (origin : Nat) (correction : Rat) :
    ptpFollowUp o mac udp domain source seq origin correction d =
      syncComplete o m x.t2 origin (x.correction + correction) (onTime (fun t => { t with twoStep := none }) d) := by
  unfold ptpFollowUp
  simp only [htakes, hmaster, htwo, hparent, hseq]
  rw [if_neg (by simp), if_neg (by simp)]

theorem ptpDelayResp_measures (hmaster : d.time.master = some m) (hparent : m.parent = source) (hseq : d.time.delaySeq = seq) {q diff : Rat}
    (hsent : d.time.delaySent = some q) (hdiff : d.time.lastDiff = some diff) (hmode : odU o 0x2440 1 ≠ 2) (received sent : Nat) (correction : Rat) :
    ptpDelayResp o mac udp domain source seq received sent correction d =
      onTime (fun t => { t with pathDelay := (diff + ((received : Rat) - q) - correction) / 2, delaySent := none }) d := by
  unfold ptpDelayResp
  simp only [htakes, hmaster, hsent, hdiff, hparent, hseq]
  rw [if_neg (by simp), if_neg hmode, if_neg (by simp)]

/-- An Announce gives a port without a master its master. -/
theorem ptpAnnounce_selects (hnone : d.time.master = none) (a : Master) :
    (ptpAnnounce o mac udp domain a d).time.master = some { a with announceAt := d.clk.dt, syncAt := d.clk.dt, synced := false } ∧
      (ptpAnnounce o mac udp domain a d).time.lastGm = a.gm ∧ (ptpAnnounce o mac udp domain a d).time.timeLocked = false := by
  unfold ptpAnnounce
  extract_lets now fresh another select
  simp only [htakes, hnone]
  rw [if_neg (by simp)]
  simp only [select]
  rw [timeUnlock_time, record_time', if_neg (by simp [another, hnone])]
  exact ⟨rfl, rfl, rfl⟩

end

/-- The master that an Announce describes. -/
def announced (p : PtpHead) (a : AnnounceBody) : Master := {
  parent := p.source.toNat, gm := a.gm.toNat, priority1 := a.priority1.toNat, clockClass := a.clockClass.toNat
  accuracy := a.accuracy.toNat, variance := a.variance.toNat, priority2 := a.priority2.toNat, steps := a.steps.toNat
  utcOffset := a.utcOffset, logAnnounce := a.logAnnounce, logSync := a.logSync }

/-- The next request leaves at its interval, with the next number. -/
theorem ptpDelayTimer_sends {o : Od} {d : Dev} (hport : ptpPort o (odU o 0x2440 2) d = true)
    (hmode : odU o 0x2440 1 = 2 ∨ d.time.master.isSome = true) (hover : d.time.delayAt + logTicks (odI o 8 0x2440 5) ≤ d.clk.dt) :
    ptpDelayTimer o d = { d with
      time := { d.time with delaySeq := (d.time.delaySeq + 1) % 65536, delaySent := some (txNs o (odU o 0x2440 2) d), delayAt := d.clk.dt }
      out := d.out ++ [.ptp (odU o 0x2440 2) (if odU o 0x2440 1 = 2 then 2 else 1) (toBE 2 ((d.time.delaySeq + 1) % 65536))] } := by
  have hpartner : (!(odU o 0x2440 1 == 2) && d.time.master.isNone) = false := by
    rcases hmode with h | h
    · simp [h]
    · rw [Option.isNone_eq_false_iff.mpr h, Bool.and_false]
  unfold ptpDelayTimer
  extract_lets mac p2p seq
  rw [if_neg (by simp [mac, p2p, hport, hpartner, hover])]
  simp only [p2p, beq_iff_eq]
  rfl

/-- When the next request is due. -/
def delayReqDue (o : Od) (d : Dev) : Option Instant :=
  instantIf (ptpPort o (odU o 0x2440 2) d && (odU o 0x2440 1 == 2 || d.time.master.isSome)) (.device (d.time.delayAt + logTicks (odI o 8 0x2440 5)))

/-- When the master is lost, by the timeout of its Announce or of its Sync. -/
def masterLostDue (announce : Bool) (o : Od) (d : Dev) : Option Instant :=
  d.time.master.map fun m => .device (masterDue o (if announce then 2 else 1) m)

theorem ptpPort_upTo (due : Od → Dev → Option Instant) (o : Od) (mac : Nat) (s : State) : ptpPort o mac (s.upTo due).dev = ptpPort o mac s.dev := by
  have htime : (s.upTo due).dev.time = s.dev.time := upTo_part _ s (p := .time) (by decide)
  simp only [ptpPort, upTo_isOn, upTo_counting, htime]

theorem ptpDelayReqTimer_completes {s : State} (hport : ptpPort s.od (odU s.od 0x2440 2) s.dev = true)
    (hmode : odU s.od 0x2440 1 = 2 ∨ s.dev.time.master.isSome = true) :
    Completes .ptpDelayReqTimer s (fun u => u.dev.time.delaySeq = (s.dev.time.delaySeq + 1) % 65536 ∧
      u.dev.time.delayAt = u.dev.clk.dt ∧ u.dev.time.delaySent = some (txNs s.od (odU s.od 0x2440 2) u.dev) ∧
      Output.ptp (odU s.od 0x2440 2) (if odU s.od 0x2440 1 = 2 then 2 else 1) (toBE 2 ((s.dev.time.delaySeq + 1) % 65536)) ∈ u.dev.out) := by
  have hcounting : s.dev.clk.counting = true := by
    simp only [ptpPort, Bool.and_eq_true] at hport
    obtain ⟨⟨-, hcounting⟩, -⟩ := hport
    exact hcounting
  have hmodeBool : (odU s.od 0x2440 1 == 2 || s.dev.time.master.isSome) = true := by
    rcases hmode with h | h <;> simp [h]
  have hover := le_dt_upTo (due := delayReqDue) (s := s) (t := s.dev.time.delayAt + logTicks (odI s.od 8 0x2440 5))
    (by simp [delayReqDue, instantIf, hport, hmodeBool]) hcounting
  have htime : (s.upTo delayReqDue).dev.time = s.dev.time := upTo_part _ s (p := .time) (by decide)
  have hsent := ptpDelayTimer_sends (o := s.od) (d := (s.upTo delayReqDue).dev) ((ptpPort_upTo ..).trans hport) (htime ▸ hmode) (htime ▸ hover)
  refine completes_timed (due := delayReqDue) (f := ptpDelayTimer) rfl ?_
  dsimp only
  rw [hsent, htime]
  exact ⟨rfl, rfl, rfl, List.mem_append_right _ (List.mem_singleton_self _)⟩

theorem ptpMasterLost_completes {announce : Bool} {s : State} (hmaster : s.dev.time.master.isSome = true) (hcounting : s.dev.clk.counting = true) :
    Completes (.ptpMasterLost announce) s (fun u => u.dev.time.master = none ∧ u.dev.time.holdover = true ∧ u.dev.time.timeLocked = false) := by
  obtain ⟨m, hm⟩ := Option.isSome_iff_exists.mp hmaster
  have hover := le_dt_upTo (due := masterLostDue announce) (s := s) (t := masterDue s.od (if announce then 2 else 1) m)
    (by simp [masterLostDue, hm]) hcounting
  have htime : (s.upTo (masterLostDue announce)).dev.time = s.dev.time := upTo_part _ s (p := .time) (by decide)
  refine completes_timed (due := masterLostDue announce) (f := fun o d => masterTimeout o (if announce then 2 else 1) d) rfl ?_
  have hlost : masterTimeout s.od (if announce then 2 else 1) (s.upTo (masterLostDue announce)).dev =
      masterLost s.od (if announce then 2 else 1) (s.upTo (masterLostDue announce)).dev := by
    unfold masterTimeout
    simp only [htime, hm]
    exact if_neg (Nat.not_lt.mpr hover)
  dsimp only
  rw [hlost]
  exact masterLost_time (htime ▸ hmaster)

/-- Settles O23: each message of the master, each timer and each loss changes the port as R183 to R190 say. -/
theorem ptpPortFollowsMaster : Obligations.PtpPortFollowsMaster := by
  unfold Obligations.PtpPortFollowsMaster
  refine ⟨fun p logInterval correction origin s m htakes hmaster hparent hlow hhigh => ?_,
    fun p logInterval correction origin s m htakes hmaster hparent hlow hhigh => ?_,
    fun p correction origin s m x htakes hmaster hparent htwo hseq => ?_,
    fun p received sent correction s q diff m hmaster hparent htakes hseq hsent hdiff hmode => ?_,
    fun s hport hmode => ptpDelayReqTimer_completes hport hmode, fun p s htakes hmode => ?_, fun p a s htakes hnone => ?_,
    fun announce s hmaster hcounting => ?_⟩
  · refine completes_drives (f := fun o d => ptpSync o p.mac.val p.udp p.domain.toNat p.source.toNat p.seq.toNat logInterval true (ptpNs origin)
      (ptpCorrection correction) d) rfl ⟨rfl, ?_⟩
    dsimp only
    rw [ptpSync_takes htakes hmaster hparent hlow hhigh, if_pos rfl]
    rfl
  · refine completes_drives (f := fun o d => ptpSync o p.mac.val p.udp p.domain.toNat p.source.toNat p.seq.toNat logInterval false (ptpNs origin)
      (ptpCorrection correction) d) rfl ⟨rfl, ?_⟩
    dsimp only
    rw [ptpSync_takes htakes hmaster hparent hlow hhigh, if_neg (by decide)]
  · refine completes_drives (f := fun o d => ptpFollowUp o p.mac.val p.udp p.domain.toNat p.source.toNat p.seq.toNat (ptpNs origin)
      (ptpCorrection correction) d) rfl ⟨rfl, ?_⟩
    exact ptpFollowUp_completes htakes hmaster hparent htwo hseq _ _
  · refine completes_drives (f := fun o d => ptpDelayResp o p.mac.val p.udp p.domain.toNat p.source.toNat p.seq.toNat (ptpNs received) (ptpNs sent)
      (ptpCorrection correction) d) rfl ?_
    dsimp only
    rw [ptpDelayResp_measures htakes hmaster hparent hseq hsent hdiff hmode]
    exact ⟨rfl, rfl⟩
  · refine completes_drives (f := fun o d => pdelayReq o p.mac.val p.domain.toNat p.source.toNat p.seq.toNat d) rfl ?_
    simp [pdelayReq, htakes, hmode]
  · refine completes_drives (f := fun o d => ptpAnnounce o p.mac.val p.udp p.domain.toNat (announced p a) d) rfl ?_
    obtain ⟨hselected, hgm, hunlocked⟩ := ptpAnnounce_selects htakes hnone (announced p a)
    exact ⟨_, hselected, rfl, rfl, hgm, hunlocked⟩
  · exact ptpMasterLost_completes hmaster hcounting

/-! ### The interfaces (R191) -/

theorem linkChange_follows {o : Od} {mac : Fin 2} {up : Bool} {d : Dev} (hnet : d.isOn .net = true) (hline : up = true → ethLine d = true) :
    (linkChange o mac.val up d).time.links.testBit mac.val = up := by
  unfold linkChange
  by_cases hsame : d.time.links.testBit mac.val = up
  · rw [if_pos (by simp [hsame])]
    exact hsame
  · rw [if_neg (by cases up <;> simp_all)]
    extract_lets d1
    have hd1 : d1.time.links.testBit mac.val = up := by
      cases up with
      | true => exact setBit_testBit_self _ _
      | false => exact clrBit_testBit_self _ _
    split
    · rw [masterLost_links]
      exact hd1
    · exact hd1

theorem any_session {d : Dev} {f : Session → Bool} {n : Fin 64} (h : f (getSession d n.val) = true) : d.com.sessions.toList.any f = true := by
  refine List.any_eq_true.mpr ⟨getSession d n.val, ?_, h⟩
  have hget : getSession d n.val = d.com.sessions[n.val] := by simp [getSession, vget]
  rw [hget, Vector.mem_toList_iff]
  exact Vector.getElem_mem n.isLt

/-- Settles O24: a link change, an ARP message and an echo request each do what R191 says. -/
theorem macsAnswer : Obligations.MacsAnswer := by
  unfold Obligations.MacsAnswer
  refine ⟨fun mac up s hnet hline => completes_drives (f := (linkChange · mac.val up)) rfl ⟨linkChange_follows hnet hline, rfl⟩,
    fun mac ip target hw s hnet hlink htarget => ⟨?_, fun hknown => ?_⟩, fun mac source target body s hnet hlink htarget => ?_⟩
  · refine completes_drives (f := fun _ => arpReceived mac.val false ip.toNat hw.toNat target.toNat) rfl ⟨rfl, ?_⟩
    simp [arpReceived, hnet, hlink, htarget]
  · refine completes_drives (f := fun _ => arpReceived mac.val true ip.toNat hw.toNat target.toNat) rfl ⟨rfl, ?_⟩
    have hreply : (decide (beNat (odGet s.dev.com.iface (0x2450 + mac.val) 4) = ip.toNat) ||
        s.dev.com.sessions.toList.any (fun x => x.kind == .udp && x.mac == mac.val && x.ip == ip.toNat)) = true := by
      rcases hknown with hgateway | ⟨n, hkind, hmac, hip⟩
      · simp [hgateway]
      · rw [any_session (n := n) (by simp [hkind, hmac, hip]), Bool.or_true]
    unfold arpReceived
    extract_lets own client before rest
    rw [if_neg (by simp [own, hnet, hlink, htarget]), if_pos rfl, if_pos hreply]
    exact mem_insertBy _ _ _
  · refine completes_drives (f := fun _ => icmpEcho mac.val source.toNat target.toNat body) rfl ⟨?_, rfl⟩
    simp [icmpEcho, hnet, hlink, htarget]

end Sys2Proof.Machine
end

section
/-! The debug port (O18) and the test access port (O19). -/
namespace Sys2Proof.Machine

/-! ### What of SEC the port's operations change -/

theorem record_sec (o : Od) (code source : Nat) (data : Bytes) (d : Dev) : (record o code source data d).sec = d.sec :=
  record_leaves (p := .sec) (by decide) ..

theorem islandRequester_sec (o : Od) (d : Dev) : (islandRequester o d).sec = d.sec := islandRequester_leaves (p := .sec) (by decide) ..

theorem islandRequester_isl (o : Od) (d : Dev) : (islandRequester o d).isl = d.isl := islandRequester_leaves (p := .isl) (by decide) ..

theorem debugWithdraw_sec (o : Od) (d : Dev) : (debugWithdraw o d).sec = d.sec := debugWithdraw_leaves (p := .sec) (by decide) ..

theorem stoDemand_sec (o : Od) (cause mask : Nat) (d : Dev) : (stoDemand o cause mask d).sec = d.sec := stoDemand_leaves (p := .sec) (by decide) ..

theorem commEnd_sec (o : Od) (reason : Nat) (d : Dev) : ∃ proof, (commEnd o reason d).sec = { d.sec with holder := none, proof := proof } := by
  unfold commEnd
  split
  next h =>
    refine ⟨d.sec.proof, ?_⟩
    rw [← h]
  · exact ⟨[], record_sec ..⟩

/-- The end of a takeover leaves SEC but for its mark. -/
theorem scanEnd_sec (o : Od) (d : Dev) : (scanEnd o d).sec = { d.sec with scan := false } := by
  unfold scanEnd
  split
  next h =>
    rw [Bool.not_eq_true'] at h
    rw [← h]
  · rw [islandRequester_sec]
    exact congrArg (fun s : Sec => { s with scan := false }) (record_sec ..)

theorem scanEnd_releases {o : Od} {d : Dev} (h : d.sec.scan = true) : (scanEnd o d).isl.scanHold = false := by
  unfold scanEnd
  rw [if_neg (by simp [h]), islandRequester_isl]

theorem scanStart_sec (o : Od) (instr : Nat) (d : Dev) : (scanStart o instr d).sec = { d.sec with scan := true, instr := instr } := by
  unfold scanStart
  extract_lets d1 src d2
  have hd2 : d2.sec = { d.sec with scan := true, instr := instr } := record_sec ..
  split
  · rw [islandRequester_sec, stoDemand_sec, hd2]
  · exact hd2

/-- The takeover holds the island, whatever the demand changes of its pairs. -/
theorem scanStart_holds (o : Od) (instr : Nat) (d : Dev) : (scanStart o instr d).isl.scanHold = true := by
  unfold scanStart
  extract_lets d1 src d2
  split
  · rw [islandRequester_isl]
    exact congrArg Island.scanHold (stoDemand_rest ..)
  · rfl

theorem debugAttach_sec (o : Od) (d : Dev) : ∃ proof, (debugAttach o d).sec =
    { d.sec with keysHidden := true, debug := .attached, nonce := none, holder := none, proof := proof } := by
  unfold debugAttach
  extract_lets d1 d2
  obtain ⟨proof, hend⟩ := commEnd_sec o 3 d1
  have hd2 : d2.sec = (commEnd o 3 d1).sec := (record_sec ..).trans (debugStrobe_leaves (p := .sec) (by decide) ..)
  refine ⟨proof, (forEach_eq Dev.sec (yieldTo o 1 5 8 0x0301 0 d2) fun c e => ?_).trans ?_⟩
  · dsimp only
    split
    · exact admitFail_leaves (p := .sec) (by decide) ..
    · rfl
  · exact (yieldTo_leaves (p := .sec) (by decide) ..).trans (hd2.trans hend)

/-- A detached debugger leaves SEC but for the state of the port and its nonce. -/
theorem debugDetach_sec (o : Od) (reason : Nat) (d : Dev) : (debugDetach o reason d).sec =
    { d.sec with debug := if d.sec.debug == .lockout then .lockout else .detached, nonce := none } := by
  unfold debugDetach
  extract_lets was d1
  split
  · exact (debugWithdraw_sec ..).trans (record_sec ..)
  · rfl

theorem tapReset_sec (o : Od) (reason : Nat) (d : Dev) : (tapReset o reason d).sec =
    { d.sec with scan := false, debug := if d.sec.debug == .lockout then .lockout else .detached, nonce := none, instr := 1 } := by
  have h := debugDetach_sec o reason (scanEnd o d)
  rw [scanEnd_sec] at h
  exact congrArg (fun s : Sec => { s with instr := 1 }) h

/-! ### Update-IR -/

/-- An instruction that is no scan, and does not attach, becomes the instruction; a takeover under another one ends. -/
theorem updateIr_other {o : Od} {instr : Nat} {d : Dev} (hworks : tapWorks d = true) (hscan : isScan instr = false)
    (hattach : ¬(instr = 0x12 ∧ d.sec.lifecycle = 0 ∧ d.sec.debug = .detached)) :
    updateIr o instr d = onSec (fun s => { s with instr := instr }) (if d.sec.scan && instr ≠ d.sec.instr then scanEnd o d else d) := by
  unfold updateIr
  rw [if_neg (by simp [hworks])]
  extract_lets d1 d2
  have hd1 : d1.sec.lifecycle = d.sec.lifecycle ∧ d1.sec.debug = d.sec.debug := by
    simp only [d1]
    split
    · rw [scanEnd_sec]
      exact ⟨rfl, rfl⟩
    · exact ⟨rfl, rfl⟩
  have hd2 : d2 = onSec (fun s => { s with instr := instr }) d1 := by
    simp only [d2]
    rw [if_neg (by simp [hscan])]
  rw [if_neg, hd2]
  rw [hd2]
  exact fun h => hattach ⟨h.1, hd1.1 ▸ h.2.1, hd1.2 ▸ h.2.2⟩

/-- What an instruction that is no scan, and does not attach, leaves of SEC. -/
theorem updateIr_sec {o : Od} {instr : Nat} {d : Dev} (hworks : tapWorks d = true) (hscan : isScan instr = false)
    (hattach : ¬(instr = 0x12 ∧ d.sec.lifecycle = 0 ∧ d.sec.debug = .detached)) :
    ∃ scan, (updateIr o instr d).sec = { d.sec with scan := scan, instr := instr } := by
  rw [updateIr_other hworks hscan hattach]
  split
  · exact ⟨false, congrArg (fun s : Sec => { s with instr := instr }) (scanEnd_sec o d)⟩
  · exact ⟨d.sec.scan, rfl⟩

/-- The instruction that attaches in OPEN. -/
theorem updateIr_attaches {o : Od} {d : Dev} (hworks : tapWorks d = true) (hopen : d.sec.lifecycle = 0) (hdet : d.sec.debug = .detached) :
    (updateIr o 0x12 d).sec.debug = .attached ∧ (updateIr o 0x12 d).sec.keysHidden = true ∧ (updateIr o 0x12 d).sec.holder = none := by
  unfold updateIr
  rw [if_neg (by simp [hworks])]
  extract_lets d1 d2
  have hd1 : d1.sec.lifecycle = 0 ∧ d1.sec.debug = .detached := by
    simp only [d1]
    split
    · rw [scanEnd_sec]
      exact ⟨hopen, hdet⟩
    · exact ⟨hopen, hdet⟩
  obtain ⟨proof, hsec⟩ := debugAttach_sec o d2
  rw [if_pos ⟨rfl, hd1⟩, hsec]
  exact ⟨rfl, rfl, rfl⟩

/-- A scan instruction without a takeover starts one. -/
theorem updateIr_starts {o : Od} {instr : Nat} {d : Dev} (hworks : tapWorks d = true) (hscan : isScan instr = true) (hnone : d.sec.scan = false) :
    updateIr o instr d = scanStart o instr d := by
  have hne : instr ≠ 0x12 := by
    rintro rfl
    revert hscan
    decide
  unfold updateIr
  simp [hworks, hscan, hnone, hne]

/-! ### The unlock (R159) -/

theorem unlockOpen_works {d : Dev} (h : unlockOpen d = true) : tapWorks d = true := by
  unfold unlockOpen at h
  simp only [Bool.and_eq_true] at h
  exact h.1.1

/-- A challenge stores a fresh nonce with DK, and shifts it out with the serial number. -/
theorem dbgChallenge_issues {o : Od} {d : Dev} (h : unlockOpen d = true) : (dbgChallenge o d).sec.debug = .challenge ∧
    ∃ n, (dbgChallenge o d).sec.nonce = some (n, (dbgChallenge o d).clk.run, keyOf d 2) ∧
      Output.tapCapture (n ++ serialBytes) ∈ (dbgChallenge o d).out := by
  have hnv : (updateIr o 0x10 d).nv = d.nv := updateIr_leaves (p := .nv) (by decide) ..
  unfold dbgChallenge
  rw [if_neg (by simp [h])]
  extract_lets d1 n d2
  refine ⟨rfl, n, congrArg (fun k => some (n, d1.clk.run, k)) ?_, List.mem_append_right _ (List.mem_singleton_self _)⟩
  exact congrArg (fun v : Nv => vget v.keys 2) hnv

/-- SEC and the AON unit before a response is judged. -/
theorem responseIr_keeps {o : Od} {d : Dev} (h : unlockOpen d = true) :
    (updateIr o 0x11 d).sec.nonce = d.sec.nonce ∧ (updateIr o 0x11 d).aon = d.aon ∧ (updateIr o 0x11 d).clk = d.clk := by
  obtain ⟨scan, hsec⟩ := updateIr_sec (o := o) (instr := 0x11) (unlockOpen_works h) rfl (fun h => absurd h.1 (by decide))
  exact ⟨(congrArg Sec.nonce hsec :), updateIr_leaves (p := .aon) (by decide) .., updateIr_leaves (p := .clk) (by decide) ..⟩

theorem dbgResponse_attaches {o : Od} {response nonce dk : Bytes} {at_ : Nat} {d : Dev} (h : unlockOpen d = true)
    (hnonce : d.sec.nonce = some (nonce, at_, some dk))
    (hmac : response = (hmac dk (ascii ['W', 'D', 'B', '1'] ++ serialBytes ++ nonce)).take 16) :
    (dbgResponse o response d).sec.debug = .attached := by
  obtain ⟨hkeep, -, -⟩ := responseIr_keeps (o := o) h
  unfold dbgResponse
  rw [if_neg (by simp [h])]
  extract_lets d1 good
  have hgood : good = true := by
    simp only [good, d1, hkeep, hnonce, hmac, beq_self_eq_true]
  obtain ⟨proof, hsec⟩ := debugAttach_sec o { d1 with aon := { d1.aon with debugFails := 0 } }
  rw [if_pos hgood, hsec]

/-- What a response that does not verify does. -/
def failedResponse (o : Od) (d1 : Dev) : Dev :=
  let n := d1.aon.debugFails + 1
  let d2 := record o 0x0303 0 [b8 n, if d1.sec.nonce.isSome then 0 else 1]
    (onSec (fun s => { s with debug := .detached, nonce := none }) { d1 with aon := { d1.aon with debugFails := n } })
  if n < 3 then d2
  else record o 0x0304 0 ([0, 0, 0, 0] ++ toLE 4 60000)
    (onSec (fun s => { s with debug := .lockout }) { d2 with aon := { d2.aon with debugLockout := some (d2.clk.run + secT 60) } })

/-- A response without a nonce does not verify. -/
theorem dbgResponse_without_nonce {o : Od} {response : Bytes} {d : Dev} (h : unlockOpen d = true) (hnonce : d.sec.nonce = none) :
    dbgResponse o response d = failedResponse o (updateIr o 0x11 d) := by
  obtain ⟨hkeep, -, -⟩ := responseIr_keeps (o := o) h
  unfold dbgResponse
  rw [if_neg (by simp [h])]
  extract_lets d1 good
  have hgood : ¬good = true := by simp only [good, d1, hkeep, hnonce, Bool.false_eq_true, not_false_eq_true]
  rw [if_neg hgood]
  rfl

/-- A failure is counted; the third begins the lockout. -/
theorem failedResponse_counts {o : Od} {d : Dev} {n : Nat} (hn : d.aon.debugFails + 1 = n) : (failedResponse o d).aon.debugFails = n ∧
    (failedResponse o d).sec.debug = (if n < 3 then .detached else .lockout) ∧
    (3 ≤ n → (failedResponse o d).aon.debugLockout = some (d.clk.run + secT 60)) := by
  have haon (c r : Nat) (b : Bytes) (e : Dev) : (record o c r b e).aon = e.aon := record_leaves (p := .aon) (by decide) ..
  have hclk (c r : Nat) (b : Bytes) (e : Dev) : (record o c r b e).clk = e.clk := record_leaves (p := .clk) (by decide) ..
  unfold failedResponse
  simp only [hn]
  split
  next hlt =>
    simp only [haon, record_sec]
    exact ⟨rfl, rfl, fun hge => absurd hlt (by omega)⟩
  next hge =>
    simp only [haon, record_sec, hclk]
    exact ⟨rfl, rfl, fun _ => rfl⟩

/-- A response without a nonce is a failure. -/
theorem dbgResponse_fails {o : Od} {response : Bytes} {d : Dev} (h : unlockOpen d = true) (hnonce : d.sec.nonce = none) :
    (dbgResponse o response d).aon.debugFails = d.aon.debugFails + 1 ∧
    (dbgResponse o response d).sec.debug = (if d.aon.debugFails + 1 < 3 then .detached else .lockout) ∧
    (3 ≤ d.aon.debugFails + 1 → (dbgResponse o response d).aon.debugLockout = some (d.clk.run + secT 60)) := by
  obtain ⟨-, haon, hclk⟩ := responseIr_keeps (o := o) h
  rw [dbgResponse_without_nonce h hnonce, ← hclk]
  exact failedResponse_counts (congrArg (fun a : Aon => a.debugFails + 1) haon)

/-- The end of the lockout, which clears the failures. -/
theorem debugLockoutEnd_clears {o : Od} {t : Nat} {d : Dev} (hsome : d.aon.debugLockout = some t) (hover : t ≤ d.clk.run) :
    (debugLockoutEnd o d).aon.debugLockout = none ∧ (debugLockoutEnd o d).aon.debugFails = 0 ∧ (debugLockoutEnd o d).sec.debug ≠ .lockout := by
  unfold debugLockoutEnd
  simp only [hsome]
  rw [if_neg (by omega)]
  have haon (e : Dev) : (debugWithdraw o e).aon = e.aon := debugWithdraw_leaves (p := .aon) (by decide) ..
  rw [haon, debugWithdraw_sec]
  refine ⟨rfl, rfl, ?_⟩
  show (if d.sec.debug == .lockout then DebugState.detached else d.sec.debug) ≠ .lockout
  split
  · decide
  next h => simpa using h

theorem debugNonceExpiry_completes {s : State} (h : s.dev.sec.nonce.isSome = true) :
    Completes .debugNonceExpiry s (fun u => u.dev.sec.nonce = none ∧ u.od = s.od) := by
  obtain ⟨⟨n, t, k⟩, hn⟩ := Option.isSome_iff_exists.mp h
  refine completes_timed (due := fun _ d => d.sec.nonce.map (fun n => .aon (n.2.1 + secT 10))) (f := fun _ => nonceExpiry) rfl ⟨?_, rfl⟩
  have hsec : (s.upTo (fun _ d => d.sec.nonce.map (fun n => Instant.aon (n.2.1 + secT 10)))).dev.sec = s.dev.sec :=
    upTo_part _ s (p := .sec) (by decide)
  have hover := le_run_upTo (due := fun _ d => d.sec.nonce.map (fun n => Instant.aon (n.2.1 + secT 10))) (s := s) (t := t + secT 10) (by simp [hn])
  unfold nonceExpiry
  simp only [hsec, hn]
  rw [if_neg (by omega)]
  rfl

theorem debugLockoutEnd_completes {s : State} (h : s.dev.aon.debugLockout.isSome = true) :
    Completes .debugLockoutEnd s (fun u => u.dev.aon.debugLockout = none ∧ u.dev.aon.debugFails = 0 ∧ u.dev.sec.debug ≠ .lockout) := by
  obtain ⟨t, ht⟩ := Option.isSome_iff_exists.mp h
  refine completes_timed (due := fun _ d => d.aon.debugLockout.map Instant.aon) (f := debugLockoutEnd) rfl ?_
  have haon : (s.upTo (fun _ d => d.aon.debugLockout.map Instant.aon)).dev.aon = s.dev.aon := upTo_part _ s (p := .aon) (by decide)
  exact debugLockoutEnd_clears (haon ▸ ht) (le_run_upTo (due := fun _ d => d.aon.debugLockout.map Instant.aon) (by simp [ht]))

/-- Settles O18: what the port's operations leave of SEC and of the AON unit, where they are open. -/
theorem debugAttachesAndLocksOut : Obligations.DebugAttachesAndLocksOut := by
  unfold Obligations.DebugAttachesAndLocksOut
  refine ⟨fun s hworks hopen hdet => completes_drives (f := fun o d => if d.sec.lifecycle = 0 && d.sec.debug == .detached then updateIr o 0x12 d else d) rfl ?_,
    fun s hopen => completes_drives (f := dbgChallenge) rfl (dbgChallenge_issues hopen),
    fun s nonce dk response at_ hopen hnonce hmac => completes_drives (f := (dbgResponse · response)) rfl (dbgResponse_attaches hopen hnonce hmac),
    fun s response hopen hnonce => completes_drives (f := (dbgResponse · response)) rfl (dbgResponse_fails hopen hnonce),
    fun s h => debugNonceExpiry_completes h, fun s h => debugLockoutEnd_completes h⟩
  simp only [hopen, hdet, beq_self_eq_true, decide_true, Bool.and_self, if_true]
  exact updateIr_attaches hworks hopen hdet

/-! ### The test access port -/

/-- The boundary register is taken, and under SAMPLE/PRELOAD and EXTEST the pins are shifted out. -/
theorem boundaryUpdate_captures {data : Bytes} {o : Od} {d : Dev} (hworks : tapWorks d = true) (hinstr : d.sec.instr = 2 ∨ d.sec.instr = 3) :
    (boundaryUpdate data o d).sec.boundary = data ∧ (boundaryUpdate data o d).out = d.out ++ [Output.tapCapture (boundaryCapture o d)] := by
  have hmem : [2, 3, 5].contains d.sec.instr = true := by rcases hinstr with h | h <;> rw [h] <;> rfl
  have hne : d.sec.instr ≠ 5 := by omega
  unfold boundaryUpdate
  simp only [hworks, hmem, hne, Bool.not_true, Bool.or_self, if_false, Bool.false_eq_true]
  exact ⟨rfl, rfl⟩

section
variable {o : Od} {d : Dev} {p : Pin} (h0 : vget d.rails.ok 0 = true) (hrail : vget d.rails.ok p.rail = true) (hscope : d.aon.reset.scope = .none)
include h0 hrail hscope

/-- In a takeover a pin other than TDO has what the scan gives it. -/
theorem pinLevel_scanned (hscan : d.sec.scan = true) (hp : p ≠ .tdo) : pinLevel o d p = p.scanned d := by
  unfold pinLevel
  rw [if_neg (by simp [h0, hrail]), if_neg (by simp [hscope]), if_pos (by simp [hscan, hp])]

/-- Without one a pin of a domain that is not ON has its reset level. -/
theorem pinLevel_unowned {m : Domain} (hscan : d.sec.scan = false) (howner : p.owner = some m) (hoff : d.isOn m = false) :
    pinLevel o d p = p.resetLevel d := by
  unfold pinLevel
  rw [if_neg (by simp [h0, hrail]), if_neg (by simp [hscope]), if_neg (by simp [hscan])]
  simp [howner, hoff]

end

/-- Settles O19: the TAP's operations act on SEC and on the island's hold as they say; the levels are the branches of `pinLevel`. -/
theorem tapActs : Obligations.TapActs := by
  unfold Obligations.TapActs
  refine ⟨fun s hworks => ?_, fun i s hworks hscan hnone => ?_, fun i s hworks hscan hne hon hother => ?_, fun data s hworks hinstr => ?_,
    fun s p h0 hrail hscope => ⟨fun hscan hinstr hheld => ?_, fun hscan hinstr hp => ?_,
      fun m hscan howner hoff => pinLevel_unowned h0 hrail hscope hscan howner hoff⟩⟩
  · refine completes_drives (f := fun o d => if tapWorks d then tapReset o 0 d else d) rfl ?_
    simp only [hworks, if_true, tapReset_sec]
    refine ⟨trivial, trivial, ?_⟩
    split <;> decide
  · refine completes_drives (f := fun o d => if isScan i.toNat then updateIr o i.toNat d else d) rfl ?_
    simp only [hscan, if_true, updateIr_starts hworks hscan hnone, scanStart_sec, scanStart_holds, and_self]
  · refine completes_drives (f := fun o d => if d.sec.scan then updateIr o i.toNat d else d) rfl ?_
    have hne' : i.toNat ≠ 0x12 := fun h => hne (BitVec.eq_of_toNat_eq h)
    have hends : (s.dev.sec.scan && decide (i.toNat ≠ s.dev.sec.instr)) = true := by simp [hon, Ne.symm hother]
    simp only [hon, if_true]
    rw [updateIr_other hworks hscan (fun h => hne' h.1), if_pos hends]
    exact ⟨congrArg Sec.scan (scanEnd_sec s.od s.dev), rfl, scanEnd_releases hon⟩
  · obtain ⟨hdata, hout⟩ := boundaryUpdate_captures (data := data) (o := s.od) hworks hinstr
    exact completes_drives (f := boundaryUpdate data) rfl ⟨hdata, hout, rfl⟩
  · have hp : p ≠ .tdo := by
      rintro rfl
      cases hheld
    have hne : s.dev.sec.instr ≠ 4 := by omega
    rw [pinLevel_scanned h0 hrail hscope hscan hp, Pin.scanned, if_neg hne, if_pos hheld]
  · rw [pinLevel_scanned h0 hrail hscope hscan hp, Pin.scanned, if_pos hinstr]

end Sys2Proof.Machine
end

section
/-! The lock detectors, the locks and the watch of the timebase (O21). -/
namespace Sys2Proof.Machine

/-! ### The detector (R171) -/

theorem compare_within {x : Detector} {n : Nat} {err : Int} (hn : 4096 ≤ n) (herr : err.natAbs ≤ 500) : (x.compare n err).locked = true := by
  have hgood : min 4096 (x.good + n) = 4096 := by omega
  unfold Detector.compare
  rw [if_neg (by omega)]
  simp [herr, hgood]

theorem compare_beyond {x : Detector} {n : Nat} {err : Int} (hn : 4 ≤ n) (herr : 2000 < err.natAbs) : (x.compare n err).locked = false := by
  have hbad : min 4 (x.bad + n) = 4 := by omega
  have hnot : ¬err.natAbs ≤ 500 := by omega
  unfold Detector.compare
  rw [if_neg (by omega)]
  simp [herr, hbad, hnot]

theorem compare_between {x : Detector} {n : Nat} {err : Int} (hlow : 500 < err.natAbs) (hhigh : err.natAbs ≤ 2000) :
    (x.compare n err).locked = x.locked := by
  unfold Detector.compare
  by_cases hn : n = 0
  · rw [if_pos hn]
  · rw [if_neg hn, if_neg (Nat.not_le.2 hlow), if_neg (Nat.not_lt.2 hhigh)]
    simp

/-! ### What the operations leave of the clocks' unit -/

theorem requesterSet_time (o : Od) (bit : Nat) (d : Dev) : (requesterSet o bit d).time = d.time :=
  requesterSet_leaves (p := .time) (by decide) ..

theorem requesterClear_time (o : Od) (bit : Nat) (d : Dev) : (requesterClear o bit d).time = d.time :=
  requesterClear_leaves (p := .time) (by decide) ..

theorem readyCheck_time (o : Od) (d : Dev) : (readyCheck o d).time = d.time := readyCheck_leaves (p := .time) (by decide) ..

theorem bootCalibration_time (o : Od) (d : Dev) : (bootCalibration o d).time = d.time := bootCalibration_leaves (p := .time) (by decide) ..

/-- The start of the timebase leaves TBLOCK. -/
theorem timebaseStarts_tb (o : Od) (d : Dev) : (timebaseStarts o d).time.tb = d.time.tb := by
  unfold timebaseStarts
  split
  · rfl
  · dsimp only
    split
    · rfl
    · split
      · exact (congrArg Time.tb (record_time' ..)).trans rfl
      · rfl

/-- The comparisons of a synthesiser act on its detector. -/
theorem compared_eq (on : Bool) (runs : PhaseRuns) (y : Synth) : ∃ det, y.compared on runs = { y with det := det } := by
  unfold Synth.compared
  split
  · exact ⟨_, rfl⟩
  · exact ⟨y.det, rfl⟩

theorem compared_on (runs : PhaseRuns) (y : Synth) : y.compared true runs = { y with det := y.det.after runs } := rfl

/-! ### TBLOCK (R172, R173) -/

theorem tbDeclared_declares {o : Od} {mv : Nat} {d : Dev} (hmeas : d.isOn .meas = true) (hnot : d.time.tb.declared = false)
    (hchecked : d.time.tb.checked = true) (hmarked : d.time.tb.marked = false) (hlocked : d.time.tb.det.locked = true) (hmv : 1000 ≤ mv) :
    (tbDeclared o mv d).time.tb.declared = true ∧ (tbDeclared o mv d).time.tb.mv = mv := by
  unfold tbDeclared
  simp only [hmeas, hnot, hchecked, hmarked, hlocked, Nat.not_lt.2 hmv, Bool.not_true, Bool.or_self, Bool.false_eq_true, if_false, decide_false]
  rw [requesterClear_time, record_time', timebaseStarts_tb]
  exact ⟨rfl, rfl⟩

/-- The loss of CASLOCK leaves TBLOCK, and CASLOCK not declared. -/
theorem casLost_time (o : Od) (cause : Nat) (d : Dev) :
    (casLost o cause d).time.tb = d.time.tb ∧ (casLost o cause d).time.cas.declared = false := by
  unfold casLost
  split
  next h => exact ⟨rfl, by simpa using h⟩
  · extract_lets c d1 d2
    have hd1 : d1.time.tb = d.time.tb ∧ d1.time.cas.declared = false := by
      simp only [d1, record_time']
      exact ⟨rfl, rfl⟩
    have hd2 : d2.time = d1.time := by
      simp only [d2]
      split
      · rfl
      · exact record_time' ..
    rw [← hd2] at hd1
    split
    · rw [requesterSet_time]
      exact hd1
    · exact hd1

/-- A declared CASLOCK that is lost ends the profile run, and blocks the carrier where stacks run. -/
theorem casLost_ends {o : Od} {cause : Nat} {d : Dev} (h : d.time.cas.declared = true) :
    (casLost o cause d).time.profileRun = 0xFF ∧ (d.stack.state.runs = true → (casLost o cause d).time.casBlock = true) := by
  unfold casLost
  rw [if_neg (by simp [h])]
  extract_lets c d1 d2
  have hd1 : d1.time.profileRun = 0xFF := by
    simp only [d1, record_time']
    rfl
  have hd2 : d2.time.profileRun = 0xFF := by
    rw [← hd1]
    simp only [d2]
    split
    · rfl
    · exact congrArg Time.profileRun (record_time' ..)
  split
  · rw [requesterSet_time]
    exact ⟨hd2, fun _ => rfl⟩
  next hruns => exact ⟨hd2, fun h => absurd h hruns⟩

theorem tbLost_loses {o : Od} {cause mv : Nat} {d : Dev} (h : d.time.tb.declared = true) : (tbLost o cause mv d).time.tb.declared = false ∧
    (tbLost o cause mv d).time.cas.declared = false ∧ (tbLost o cause mv d).time.tb.losses = satInc d.time.tb.losses := by
  unfold tbLost
  rw [if_neg (by simp [h])]
  extract_lets d1
  obtain ⟨htb, hcas⟩ := casLost_time o 4 (requesterSet o 2 (timeUnlock o 3 d1))
  have hd1 : (requesterSet o 2 (timeUnlock o 3 d1)).time.tb = { d.time.tb with
      declared := false, mv := mv, mvAt := aonMs d, losses := satInc d.time.tb.losses } := by
    rw [requesterSet_time, timeUnlock_time]
    simp only [d1, record_time']
    rfl
  rw [htb, hd1]
  exact ⟨rfl, hcas, rfl⟩

/-! ### CASLOCK (R174) -/

theorem casDeclared_declares {o : Od} {mv : Nat} {d : Dev} (hmeas : d.isOn .meas = true) (htb : d.time.tb.declared = true)
    (hnot : d.time.cas.declared = false) (hchecked : d.time.cas.checked = true) (hmarked : d.time.cas.marked = false)
    (hlocked : d.time.cas.det.locked = true) (hmv : 1000 ≤ mv) :
    (casDeclared o mv d).time.cas.declared = true ∧ (casDeclared o mv d).time.casBlock = false := by
  unfold casDeclared
  simp only [hmeas, htb, hnot, hchecked, hmarked, hlocked, Nat.not_lt.2 hmv, Bool.not_true, Bool.or_self, Bool.false_eq_true, if_false, decide_false]
  rw [requesterClear_time, record_time']
  exact ⟨rfl, rfl⟩

theorem casCompared_declared (runs : PhaseRuns) (d : Dev) : (casCompared runs d).time.cas.declared = d.time.cas.declared := by
  obtain ⟨det, h⟩ := compared_eq (d.isOn .meas) runs d.time.cas
  exact (congrArg Synth.declared h :)

/-- A supervision of CASLOCK that finds it lost. -/
theorem casSupervised_loses {o : Od} {found : CasSupervision} {d : Dev} (h : d.time.cas.declared = true)
    (hlost : match found with
      | .pin _ mv => mv.toNat < 700
      | .advance counted => advanceOff o d counted = true) :
    (casSupervised o found d).time.cas.declared = false ∧ (casSupervised o found d).time.profileRun = 0xFF ∧
      (d.stack.state.runs = true → (casSupervised o found d).time.casBlock = true) := by
  unfold casSupervised
  cases found with
  | pin runs mv =>
    dsimp only at hlost ⊢
    rw [if_neg (by omega), if_pos h]
    obtain ⟨hends, hblock⟩ := casLost_ends (o := o) (cause := if (casCompared runs d).time.cas.det.locked then 2 else 1)
      ((casCompared_declared runs d).trans h)
    exact ⟨(casLost_time ..).2, hends, hblock⟩
  | advance counted =>
    dsimp only at hlost ⊢
    rw [if_pos hlost]
    obtain ⟨hends, hblock⟩ := casLost_ends (o := o) (cause := 3) h
    exact ⟨(casLost_time ..).2, hends, hblock⟩

/-! ### The island's watch (R21) -/

section
variable {o : Od} {ppb : Int} {d : Dev} (hsafe : d.isOn .safe = true) (hover : d.isl.windowAt + islandWindow ≤ d.clk.run)
include hsafe hover

/-- A window that deviates holds the island for ten windows. -/
theorem timebaseWindow_deviates (hppb : 10000000 < ppb.natAbs) : (timebaseWindow ppb o d).isl.timebaseHold = 10 ∧
    (timebaseWindow ppb o d).isl.windowAt = d.isl.windowAt + islandWindow := by
  unfold timebaseWindow
  extract_lets src e
  rw [if_neg (by simp [hsafe, hover]), if_pos hppb, record_isl, islandRequester_isl]
  have hrest := stoDemand_rest o 8 15 { e with isl := { e.isl with timebaseHold := 10 } }
  exact ⟨(congrArg Island.timebaseHold hrest :), (congrArg Island.windowAt hrest :)⟩

/-- A good window takes one off the hold. -/
theorem timebaseWindow_holds (hppb : ppb.natAbs ≤ 10000000) : (timebaseWindow ppb o d).isl.timebaseHold = d.isl.timebaseHold - 1 ∧
    (timebaseWindow ppb o d).isl.windowAt = d.isl.windowAt + islandWindow ∧ (timebaseWindow ppb o d).clk.run = d.clk.run := by
  unfold timebaseWindow
  extract_lets src e
  rw [if_neg (by simp [hsafe, hover]), if_neg (by omega)]
  split
  next hzero => exact ⟨by rw [hzero], rfl, rfl⟩
  · have hclk (d : Dev) : (islandRequester o d).clk = d.clk := islandRequester_leaves (p := .clk) (by decide) ..
    split
    · rw [islandRequester_isl, hclk]
      exact ⟨rfl, rfl, rfl⟩
    · exact ⟨rfl, rfl, rfl⟩

end

/-- The instant of the island's next window. -/
def islandWindowDue (_ : Od) (d : Dev) : Option Instant := instantIf (d.isOn .safe) (.aon (d.isl.windowAt + islandWindow))

/-- At the end of a window the island judges it, by what it held before. -/
theorem timebaseCheckWindow_completes {ppb : Int} {s : State} {P : State → Prop} (hsafe : s.dev.isOn .safe = true)
    (h : ∀ w : Dev, w.isOn .safe = true → w.isl = s.dev.isl → w.isl.windowAt + islandWindow ≤ w.clk.run →
      P { od := s.od, dev := timebaseWindow ppb s.od w, pending := s.pending }) : Completes (.timebaseCheckWindow ppb) s P := by
  refine completes_timed (due := islandWindowDue) (f := timebaseWindow ppb) rfl (h _ ?_ (upTo_isl islandWindowDue s) ?_)
  · rw [upTo_isOn]
    exact hsafe
  · rw [upTo_isl islandWindowDue s]
    exact le_run_upTo (by simp [islandWindowDue, instantIf, hsafe])

/-! ### The obligation -/

/-- Settles O21: the detector's rule, the branches of the lock pins, and each operation by what it leaves of the clocks' unit. -/
theorem locksAreDeclaredAndLost : Obligations.LocksAreDeclaredAndLost := by
  unfold Obligations.LocksAreDeclaredAndLost
  refine ⟨fun x n err => ⟨compare_within, compare_beyond, compare_between⟩, fun s y => ⟨fun hon => ?_, fun hret => ?_, fun hoff => ?_⟩,
    fun mv runs s hmeas hnot hchecked hmarked hlocked hmv => ?_, fun mv runs s hdecl hmv => ?_, fun mv runs s hmv => ?_,
    fun mv runs s hmeas htb hnot hchecked hmarked hlocked hmv => ?_, fun found s hdecl hlost => ?_,
    fun ppb s hsafe hppb => timebaseCheckWindow_completes hsafe fun w hw hisl hover => ?_,
    fun ppb s hsafe hppb => timebaseCheckWindow_completes hsafe fun w hw hisl hover => ?_⟩
  · have hstate : (vget s.dev.doms Domain.meas.num).state = .on := by simpa [Dev.isOn, Dev.domState] using hon
    simp [lockPin, hstate]
  · have hstate : (vget s.dev.doms Domain.meas.num).state = .retention := hret
    simp [lockPin, hstate]
  · have hstate : (vget s.dev.doms Domain.meas.num).state = .off := hoff
    simp [lockPin, hstate]
  · refine completes_drives (f := fun o d => readyCheck o (bootCalibration o (tbDeclared o mv.toNat (tbCompared runs d)))) rfl ?_
    have htb : (tbCompared runs s.dev).time.tb = { s.dev.time.tb with det := s.dev.time.tb.det.after runs } := by
      simp only [tbCompared, onTime, hmeas, compared_on]
    simp only [readyCheck_time, bootCalibration_time]
    refine tbDeclared_declares hmeas ?_ ?_ ?_ ?_ hmv <;> rw [htb] <;> assumption
  · refine completes_drives (f := fun o d => readyCheck o (tbSupervised o mv.toNat (tbCompared runs d))) rfl ?_
    obtain ⟨det, htb⟩ := compared_eq (s.dev.isOn .meas) runs s.dev.time.tb
    have htb : (tbCompared runs s.dev).time.tb = { s.dev.time.tb with det := det } := htb
    have hlosses : (tbCompared runs s.dev).time.tb.losses = s.dev.time.tb.losses := (congrArg Synth.losses htb :)
    simp only [readyCheck_time, tbSupervised]
    rw [if_neg (by omega), ← hlosses]
    exact tbLost_loses ((congrArg Synth.declared htb :).trans hdecl)
  · refine completes_drives (f := fun o d => readyCheck o (tbSupervised o mv.toNat (tbCompared runs d))) rfl ?_
    obtain ⟨det, htb⟩ := compared_eq (s.dev.isOn .meas) runs s.dev.time.tb
    have htb : (tbCompared runs s.dev).time.tb = { s.dev.time.tb with det := det } := htb
    simp only [readyCheck_time, tbSupervised]
    rw [if_pos hmv, htb]
    exact ⟨rfl, rfl, trivial⟩
  · refine completes_drives (f := fun o d => readyCheck o (casDeclared o mv.toNat (casCompared runs d))) rfl ?_
    have hcas : (casCompared runs s.dev).time.cas = { s.dev.time.cas with det := s.dev.time.cas.det.after runs } := by
      simp only [casCompared, onTime, hmeas, compared_on]
    simp only [readyCheck_time]
    refine casDeclared_declares hmeas htb ?_ ?_ ?_ ?_ hmv <;> rw [hcas] <;> assumption
  · refine completes_drives (f := fun o d => readyCheck o (casSupervised o found d)) rfl ?_
    simp only [readyCheck_time]
    exact casSupervised_loses hdecl hlost
  · obtain ⟨hhold, hat⟩ := timebaseWindow_deviates (o := s.od) hw hover hppb
    rw [hisl] at hat
    exact ⟨hhold, hat⟩
  · obtain ⟨hhold, hat, hrun⟩ := timebaseWindow_holds (o := s.od) hw hover hppb
    rw [hisl] at hhold hat hover
    exact ⟨hhold, hat, hrun ▸ hover⟩

end Sys2Proof.Machine
end

section
/-! Stores and restores of the configuration (O7). -/
namespace Sys2Proof.Machine

/-! ### A store begins -/

/-- A store is in progress to a bank that is not current and not valid. -/
def StoreBegun (d : Dev) : Prop :=
  ∃ op, d.com.store = some op ∧ some op.bank ≠ d.sec.bank ∧ (vget d.nv.banks op.bank).valid = false

theorem storeWrite_begins {session : Option Nat} {restore : Bool} {sub : Nat} {s u : State}
    (h : storeWrite session restore sub s = (none, u)) : u.od = s.od ∧ StoreBegun u.dev := by
  unfold storeWrite at h
  split at h
  · exact absurd (congrArg Prod.fst h) (by simp [refuse])
  · extract_lets d bank counter op src d1 at h
    obtain rfl := congrArg Prod.snd h
    have hbank : bank < 2 ∧ some bank ≠ d.sec.bank := by
      simp only [bank]
      split
      next b hb =>
        rw [hb]
        exact ⟨by omega, by rw [Ne, Option.some.injEq]; omega⟩
      next hnone =>
        rw [hnone]
        exact ⟨by decide, by decide⟩
    exact ⟨rfl, op, rfl, hbank.2, congrArg Bank.valid (vget_vmod_same _ _ _ hbank.1)⟩

/-- What an answer leaves, a store in progress among it. -/
theorem Replied.storeBegun {w x : State} (h : Replied w x) (hbegun : StoreBegun w.dev) : StoreBegun x.dev := by
  obtain ⟨op, hop, hcurrent, hvalid⟩ := hbegun
  have hbank := h.bank
  rw [hop, Option.map_some] at hbank
  obtain ⟨op', hop', hsame⟩ := Option.map_eq_some_iff.mp hbank
  have hsec : x.dev.sec = w.dev.sec := agreeButCom_part h.agrees (p := .sec) (by decide)
  have hnv : x.dev.nv = w.dev.nv := agreeButCom_part h.agrees (p := .nv) (by decide)
  exact ⟨op', hop', by rwa [hsame, hsec], by rwa [hsame, hnv]⟩

/-- A row that writes the signature of a store, or a restore, begins it. -/
theorem begins_of_write {c : Instr} {via : Via} {ix sub : Nat} {b : Bytes} {s : State} (restore : Bool)
    (hexec : exec c s = acts (hostWrite via ix sub b) s) (hrow : PlainRow ix sub b)
    (heffect : ∀ session t, writeEffect session ix sub b t = storeWrite session restore sub t) (h : accepted via ix sub b s = true) :
    Completes c s (fun u => u.od = s.od ∧ StoreBegun u.dev) := by
  refine completes_of_writeReply hexec hrow h fun n t u v ho hreplied => ?_
  obtain ⟨hod, hbegun⟩ := storeWrite_begins ((heffect (some n) t).symm.trans ho.effect)
  exact ⟨hreplied.od.trans (hod.trans ho.seen.od), hreplied.storeBegun hbegun⟩

/-! ### A store ends -/

/-- What the end of a store decides: the current bank, and that no store is in progress. -/
def storeView (d : Dev) : Option Nat × Option StoreOp := (d.sec.bank, d.com.store)

theorem modSession_storeView (n : Nat) (f : Session → Session) (d : Dev) : storeView (modSession n f d) = storeView d := rfl

theorem storeView_congr {d e : Dev} (hsec : d.sec = e.sec) (hcom : d.com = e.com) : storeView d = storeView e := by
  rw [storeView, hsec, hcom, storeView]

theorem recordAbort_storeView (n ix sub : Nat) (a : Abort) (d : Dev) : storeView (recordAbort n ix sub a d) = storeView d := by
  unfold recordAbort
  split <;> rfl

theorem emit_storeView (n : Nat) (x : Output) (d : Dev) : storeView (emit n x d) = storeView d := by
  unfold emit
  split <;> rfl

theorem mailboxAnswer_storeView (slot : Nat) (b : Bytes) (d : Dev) : storeView (mailboxAnswer slot b d) = storeView d := by
  refine Prod.ext (congrArg Sec.bank (mailboxAnswer_leaves (p := .sec) (by decide) ..)) ?_
  show (mailboxAnswer slot b d).com.store = d.com.store
  unfold mailboxAnswer
  dsimp only
  rw [raiseVector_com]
  split <;> rfl

theorem sendResponse_storeView (n seq : Nat) (b : Bytes) (d : Dev) : storeView (sendResponse n seq b d) = storeView d := by
  unfold sendResponse
  split
  · exact mailboxAnswer_storeView ..
  · exact (emit_storeView ..).trans ((modSession_storeView ..).trans (storeView_congr (arpAsk_leaves (p := .sec) (by decide) ..) (arpAsk_com ..)))

theorem commEnd_storeView (o : Od) (reason : Nat) (d : Dev) : storeView (commEnd o reason d) = storeView d := by
  obtain ⟨proof, hsec⟩ := commEnd_sec o reason d
  rw [storeView, hsec, show (commEnd o reason d).com = d.com from commEnd_leaves (p := .com) (by decide) .., storeView]

theorem sessionEnds_storeView (o : Od) (n : Nat) (d : Dev) : storeView (sessionEnds o n d) = storeView d := by
  unfold sessionEnds
  extract_lets d1
  have hd1 : storeView d1 = storeView d := by
    simp only [d1]
    split
    · exact commEnd_storeView ..
    · rfl
  exact hd1

theorem portInForce_storeView (o : Od) (d : Dev) : storeView (portInForce o d) = storeView d := by
  unfold portInForce
  split <;> rfl

theorem closeNow_storeView (o : Od) (n : Nat) (d : Dev) : storeView (closeNow o n d) = storeView d := by
  unfold closeNow closeSession
  split
  · exact sessionEnds_storeView ..
  · split
    · rfl
    · rw [portInForce_storeView, modSession_storeView, sessionEnds_storeView]

theorem storeAnswer_storeView (op : StoreOp) (ok : Bool) (o : Od) (d : Dev) : storeView (storeAnswer op ok o d) = storeView d := by
  unfold storeAnswer
  extract_lets n x a d1 d2 m b d3 d4
  have hd2 : storeView d2 = storeView d := by
    simp only [d2]
    clear_value a
    cases a with
    | none => rfl
    | some a => exact recordAbort_storeView ..
  have hd4 : storeView d4 = storeView d := by
    rw [← hd2]
    show storeView d3 = storeView d2
    simp only [d3]
    split
    · rfl
    · exact sendResponse_storeView ..
  split
  · rfl
  · split
    · exact (closeNow_storeView ..).trans hd4
    · exact hd4

/-- The device that a store leaves before it is answered. -/
def storedDev (op : StoreOp) (ok : Bool) (d : Dev) : Dev :=
  let d1 := { d with com := { d.com with store := none } }
  if ok then
    writeShadow (onSec (fun x => { x with bank := some op.bank })
      (onNv (fun v => { v with banks := vset v.banks op.bank { counter := op.counter, valid := true, contents := op.contents } }) d1))
  else d1

theorem storeComplete_dev {ok : Bool} {s : State} {op : StoreOp} (h : s.dev.com.store = some op) :
    (storeComplete ok s).dev = storeAnswer op ok s.od (storedDev op ok s.dev) := by
  unfold storeComplete
  rw [h]
  rfl

/-- The end of a store that succeeded makes its bank current; one that failed leaves the current bank. -/
theorem storeComplete_ends {ok : Bool} {s : State} {op : StoreOp} (h : s.dev.com.store = some op) (hbank : op.bank < 2) :
    (storeComplete ok s).dev.com.store = none ∧
    (ok = true → (storeComplete ok s).dev.sec.bank = some op.bank ∧ (vget (storeComplete ok s).dev.nv.banks op.bank).contents = op.contents ∧
      (vget (storeComplete ok s).dev.nv.banks op.bank).valid = true) ∧
    (ok = false → (storeComplete ok s).dev.sec.bank = s.dev.sec.bank) := by
  have hview := storeAnswer_storeView op ok s.od (storedDev op ok s.dev)
  have hcom := congrArg Prod.snd hview
  have hsec := congrArg Prod.fst hview
  have hnv : (storeAnswer op ok s.od (storedDev op ok s.dev)).nv = (storedDev op ok s.dev).nv := storeAnswer_leaves (p := .nv) (by decide) ..
  simp only [storeView] at hcom hsec
  rw [storeComplete_dev h, hcom, hsec, hnv]
  cases ok with
  | true =>
    have hwritten : vget (storedDev op true s.dev).nv.banks op.bank = { counter := op.counter, valid := true, contents := op.contents } :=
      vget_vset_same _ _ _ hbank
    rw [hwritten]
    exact ⟨rfl, fun _ => ⟨rfl, rfl, rfl⟩, fun hok => nomatch hok⟩
  | false => exact ⟨rfl, fun hok => (nomatch hok), fun _ => rfl⟩

/-- Settles O7: the write begins the store, which its answer leaves, and the end of the store leaves its bank as it says. -/
theorem storesBeginAndComplete : Obligations.StoresBeginAndComplete := by
  unfold Obligations.StoresBeginAndComplete
  refine ⟨fun via g s h => begins_of_write false rfl ⟨by decide, by omega, by simp, by omega, by omega⟩ (fun _ _ => rfl) h,
    fun via g s h => begins_of_write true rfl ⟨by decide, by omega, by simp, by omega, by omega⟩ (fun _ _ => rfl) h, fun ok s op hop hbank => ?_⟩
  obtain ⟨hstore, hok, hfail⟩ := storeComplete_ends (ok := ok) hop hbank
  exact ⟨_, rfl, hstore, storeComplete_od ok s, hok, hfail⟩

end Sys2Proof.Machine
end

section
/-! The rows that are writes of one object (O58). -/
namespace Sys2Proof.Machine

/-! ### A refused write, whatever its length -/

/-- A first message of a write that the checks refuse: it changes the communication at most, and nothing follows its answer. -/
theorem writeFirst_refused {n ix sub total : Nat} {b : Bytes} {t : State} {a : Abort} (h : writeCheck t (some n) ix sub b = some a) :
    ∃ r, writeFirst writeObject n ix sub total b t = r ∧ r.1.close = false ∧ r.1.reset = false ∧ r.1.leaves = none ∧
      r.2.od = t.od ∧ agreeButCom r.2.dev t.dev := by
  have hwrite : writeObject (some n) ix sub b t = (some a, t) := by simp only [writeObject, h]
  refine ⟨_, rfl, ?_⟩
  unfold writeFirst
  split
  · rw [writeWhole_refused hwrite]
    exact ⟨rfl, rfl, rfl, rfl, rfl⟩
  · unfold beginTransfer
    by_cases hfull : 65536 < total ∨ 8 ≤ transfersOpen t.dev
    · simp [hfull]
    · simp only [if_neg hfull]
      exact ⟨trivial, trivial, trivial, rfl, rfl⟩

/-- A row that is a host's write, where the checks refuse it: it changes nothing but the communication. -/
theorem hostWrite_unlawful {via : Via} {ix sub n : Nat} {b : Bytes} {s t : State} {a : Abort} (hix : ix < 2 ^ 16) (hsub : sub < 2 ^ 8)
    (h : writeSeen via ix sub b s = some (n, t)) (hcheck : writeCheck t (some n) ix sub b = some a) :
    (hostWrite via ix sub b s).od = t.od ∧ agreeButCom (hostWrite via ix sub b s).dev t.dev := by
  have eix : (writeMsg ix sub b).index.toNat = ix := Nat.mod_eq_of_lt hix
  have esub : (writeMsg ix sub b).sub.toNat = sub := Nat.mod_eq_of_lt hsub
  have hwrite : writeObject (some n) ix sub b t = (some a, t) := by simp only [writeObject, hcheck]
  have hserve (hv : ∀ c k, via ≠ .can c k) : (hostWrite via ix sub b s).od = t.od ∧ agreeButCom (hostWrite via ix sub b s).dev t.dev := by
    obtain ⟨u, hadmit, hnone, rfl⟩ := requestSeen_message hv (by decide) h
    rw [eix, esub] at hnone
    have hmsg : serveMessage writeObject true n 2 (writeMsg ix sub b) u =
        writeFirst writeObject n ix sub (writeMsg ix sub b).total.toNat b (abandon n u) := by
      simp only [serveMessage, if_true, eix, esub, Option.isNone_iff_eq_none.1 hnone]
      rfl
    obtain ⟨r, hr, hclose, hreset, hleaves, hod, hdev⟩ := writeFirst_refused (total := (writeMsg ix sub b).total.toNat) hcheck
    obtain ⟨hod', hdev'⟩ := finish_agrees n 2 (viaSeq via) (writeMsg ix sub b) u r hclose hreset hleaves
    rw [hostWrite, request_message hv, hadmit, serveAdmitted, hmsg, hr]
    exact ⟨hod'.trans hod, agreeButCom_trans hdev' hdev⟩
  cases via with
  | can c k =>
    have hsdo : hostWrite (.can c k) ix sub b s = sdoFinish n ix sub t ({ abort := some a }, t) := by
      rw [hostWrite, request, requestSeen_can h, canServe_write, eix, esub, sdoWrite, show (writeMsg ix sub b).payload = b from rfl, writeWhole_refused hwrite]
    rw [hsdo]
    exact sdoFinish_agrees n ix sub t ({ abort := some a }, t) rfl rfl
  | udp mac ip port seq => exact hserve (fun _ _ h => nomatch h)
  | mailbox slot => exact hserve (fun _ _ h => nomatch h)

/-- What a host's write leaves, accepted or refused by the checks; a value too long for a message is refused. -/
theorem hostWrite_leavesWrite {via : Via} {ix sub n : Nat} {b : Bytes} {s t : State} (hix : ix < 2 ^ 16) (hsub : sub < 2 ^ 8)
    (hlong : 2 ^ 32 ≤ b.length → ∀ session t, writeCheck t session ix sub b ≠ none) (hr : ix ≠ 0x2202) (hl : ¬(ix = 0x2100 ∧ sub = 3))
    (h : writeSeen via ix sub b s = some (n, t)) :
    (hostWrite via ix sub b s).od = (writeObject (some n) ix sub b t).2.od ∧
      agreeButCom (hostWrite via ix sub b s).dev (writeObject (some n) ix sub b t).2.dev := by
  by_cases hb : b.length < 2 ^ 32
  · exact hostWrite_seen hix hsub hb (fun h => hr h.1) hl h
  · obtain ⟨a, hcheck⟩ := Option.ne_none_iff_exists'.mp (hlong (by omega) (some n) t)
    rw [show writeObject (some n) ix sub b t = (some a, t) by simp only [writeObject, hcheck]]
    exact hostWrite_unlawful hix hsub h hcheck

/-! ### The rows -/

/-- A row of the table: what it executes, and that its operands are those of a message. -/
structure NamedRow (c : Instr) (via : Via) (ix sub : Nat) (b : Bytes) : Prop where
  exec : (∀ s, Machine.exec c s = acts (hostWrite via ix sub b) s) ∨
    ∃ m code, c = .domainStateWrite via m code {} ∧ ix = 0x2100 ∧ sub = m.val + 1 ∧ b = [code]
  index : ix < 2 ^ 16
  subindex : sub < 2 ^ 8
  noReset : ix ≠ 0x2202
  length : b.length < 2 ^ 32 ∨ (ix = 0x2330 ∧ ∃ k : Fin 3, sub = k.val + 2) ∨ (ix = 0x2340 ∧ sub = 2)

theorem namedWrite_row {c : Instr} {via : Via} {ix sub : Nat} {b : Bytes} (h : namedWrite c = some (via, ix, sub, b)) :
    NamedRow c via ix sub b := by
  unfold namedWrite at h
  split at h
  case h_11 m code y =>
    split at h
    next hy =>
      subst hy
      cases h
      exact ⟨Or.inr ⟨m, code, rfl, rfl, rfl, rfl⟩, by omega, by omega, by omega, Or.inl (by simp)⟩
    next => cases h
  case h_13 k key =>
    cases h
    exact ⟨Or.inl fun s => rfl, by omega, by omega, by omega, Or.inr (Or.inl ⟨rfl, k, rfl⟩)⟩
  case h_15 chunk =>
    cases h
    exact ⟨Or.inl fun s => rfl, by omega, by omega, by omega, Or.inr (Or.inr ⟨rfl, rfl⟩)⟩
  case h_69 => cases h
  all_goals
    cases h
    exact ⟨Or.inl fun s => rfl, by grind [ceIx, adcIx, setIx, streamIx, axisIx], by omega,
      by grind [ceIx, adcIx, setIx, streamIx, axisIx], Or.inl (by simp)⟩

theorem lengthOk_of_writeCheck {t : State} {session : Option Nat} {ix sub : Nat} {b : Bytes} {r : OdRow} (hrow : odRow ix sub = some r)
    (h : writeCheck t session ix sub b = none) : lengthOk t.od r ix sub b.length = true := by
  by_contra hlen
  simp only [writeCheck, hrow, Option.or_eq_none_iff, Bool.not_eq_true] at h hlen
  obtain ⟨-, h⟩ := h
  split at h
  · cases h
  · simp [hlen] at h

/-- A key has 32 bytes, and a chunk of an image at most 65,536. -/
theorem namedWrite_long {ix sub : Nat} {b : Bytes} (h : b.length < 2 ^ 32 ∨ (ix = 0x2330 ∧ ∃ k : Fin 3, sub = k.val + 2) ∨ (ix = 0x2340 ∧ sub = 2))
    (hlong : 2 ^ 32 ≤ b.length) (session : Option Nat) (t : State) : writeCheck t session ix sub b ≠ none := by
  intro hcheck
  rcases h with h | ⟨rfl, k, rfl⟩ | ⟨rfl, rfl⟩
  · omega
  · have hlen := lengthOk_of_writeCheck (keySlot_row k) hcheck
    have hlen : b.length = 32 := by simpa [lengthOk, OdType.size] using hlen
    omega
  · have hlen := lengthOk_of_writeCheck (r := ⟨0x2340, 1, 1, 0x02, 0x02, .dom, .wo, .zeros 0, false, false, .len 1 65536 1⟩) rfl hcheck
    have hlen : 1 ≤ b.length ∧ b.length ≤ 65536 := by simpa [lengthOk, Nat.mod_one] using hlen
    omega

/-! ### The write of a domain's state, in an AON cycle of its own -/

/-- What of AON marks the cycle of a wake or of a loss of rails. -/
def cycleView (d : Dev) : Bool × Nat := (d.aon.waking, d.aon.lostNow)

theorem outOfCycle_of_view {d : Dev} (h : cycleView d = (false, 0)) : outOfCycle d = d := by
  have hwaking : d.aon.waking = false := congrArg Prod.fst h
  have hlost : d.aon.lostNow = 0 := congrArg Prod.snd h
  unfold outOfCycle modAon
  rw [← hwaking, ← hlost]

theorem cycleView_congr {d e : Dev} (h : d.aon = e.aon) : cycleView d = cycleView e := by rw [cycleView, h, cycleView]

theorem leaveEffects_cycleView (requested wasOn : Bool) (m : Domain) (target : DomState) (o : Od) (d : Dev) :
    cycleView (leaveEffects requested wasOn m target o d) = cycleView d := by
  have hwaking : (Part.aon.of (leaveEffects requested wasOn m target o d)).waking = (Part.aon.of d).waking ∧
      (Part.aon.of (leaveEffects requested wasOn m target o d)).lostNow = (Part.aon.of d).lostNow := by
    unfold leaveEffects
    split
    · split <;> simp
    · split
      case h_6 =>
        extract_lets d1 d2 d3
        show (Part.aon.of d3).waking = _ ∧ (Part.aon.of d3).lostNow = _
        simp [d3, d2, d1]
      all_goals simp
  exact Prod.ext hwaking.1 hwaking.2

theorem readyCheck_cycleView (o : Od) (d : Dev) : cycleView (readyCheck o d) = cycleView d := by
  unfold readyCheck
  split
  · rfl
  · split
    · rfl
    · exact (cycleView_congr (record_aon ..)).trans rfl

theorem beginTransition_cycleView (m : Domain) (target : DomState) (cause : Nat) (s : State) :
    cycleView (beginTransition m target cause s).dev = cycleView s.dev := by
  unfold beginTransition
  extract_lets old s1 s2 s3
  have h1 : cycleView s1.dev = cycleView s.dev := by
    simp only [s1]
    split
    · rfl
    · split
      · rfl
      · exact leaveEffects_cycleView ..
  have h3 : cycleView s3.dev = cycleView s2.dev := by
    simp only [s3]
    split
    · exact leaveEffects_cycleView ..
    · rfl
  exact (readyCheck_cycleView ..).trans (h3.trans h1)

/-- Outside the cycle of a wake a domain request marks none. -/
theorem domainRequest_cycleView {m : Domain} {target : DomState} {s : State} (h : cycleView s.dev = (false, 0)) :
    cycleView (domainRequest m target s).2.dev = (false, 0) := by
  have hwaking : s.dev.aon.waking = false := congrArg Prod.fst h
  have hrefused (x : Nat) : cycleView (s.act (domainRefused · m target 1 x)).dev = (false, 0) :=
    (cycleView_congr (record_aon ..)).trans h
  unfold domainRequest
  extract_lets d st leaving busy x
  split
  · exact hrefused _
  split
  · exact h
  split
  · exact h
  split
  · exact h
  split
  · exact h
  split
  · exact hrefused _
  rw [if_neg (by simp [d, hwaking])]
  split
  · exact h
  · exact (beginTransition_cycleView ..).trans h

/-- A write of a domain's state, alone in its AON cycle, is that write. -/
theorem domainStateWrite_alone (via : Via) (m : Fin 8) (code : BitVec 8) {s : State} (h : cycleView s.dev = (false, 0)) :
    exec (.domainStateWrite via m code {}) s = acts (fun s => { hostWrite via 0x2100 (m.val + 1) [code] s with
      dev := outOfCycle (hostWrite via 0x2100 (m.val + 1) [code] s).dev }) s := by
  have hs : { s with dev := outOfCycle s.dev } = s := by rw [outOfCycle_of_view h]
  show acts (aonCycle _) s = _
  unfold acts
  congr 1
  unfold aonCycle
  have hserve (preempts : Bool) : List.foldl serveItem (cycleWakes none preempts s)
      (cycleItems { asks := [{ via := via, domain := m, state := code }] } s.dev) = hostWrite via 0x2100 (m.val + 1) [code] s := rfl
  simp only [railsLost_nil, hs, hserve, ite_self]
  rfl

theorem agreeButCom_outOfCycle {d e : Dev} (h : agreeButCom d e) : agreeButCom (outOfCycle d) (outOfCycle e) := by
  unfold agreeButCom at h ⊢
  rw [← h]
  rfl

/-- The write of a domain's state leaves the state of an AON cycle as it is. -/
theorem writeObject_domain_cycleView {session : Option Nat} {sub : Nat} {b : Bytes} {t : State} (h : cycleView t.dev = (false, 0)) :
    cycleView (writeObject session 0x2100 sub b t).2.dev = (false, 0) := by
  unfold writeObject
  split
  · exact h
  · exact domainRequest_cycleView h

/-! ### The obligation -/

/-- Each named row, executed, leaves what the write of its object leaves. -/
theorem namedWrite_completes {c : Instr} {via : Via} {ix sub n : Nat} {b : Bytes} {s t : State} (hnamed : namedWrite c = some (via, ix, sub, b))
    (hseen : writeSeen via ix sub b s = some (n, t)) (hcycle : ix = 0x2100 → sub ≠ 3 ∧ s.dev.aon.waking = false ∧ s.dev.aon.lostNow = 0) :
    Completes c s (fun r => r.od = (writeObject (some n) ix sub b t).2.od ∧ agreeButCom r.dev (writeObject (some n) ix sub b t).2.dev) := by
  have hrow := namedWrite_row hnamed
  have hwrite := hostWrite_leavesWrite hrow.index hrow.subindex (namedWrite_long hrow.length) hrow.noReset (fun h => (hcycle h.1).1 h.2) hseen
  rcases hrow.exec with hexec | ⟨m, code, rfl, rfl, rfl, rfl⟩
  · exact ⟨_, hexec s, hwrite⟩
  · obtain ⟨-, hwaking, hlost⟩ := hcycle rfl
    have hview : cycleView s.dev = (false, 0) := Prod.ext hwaking hlost
    have hview' : cycleView t.dev = (false, 0) := (cycleView_congr ((writeSeen_executesFrom hseen).part (p := .aon) (by decide))).trans hview
    refine ⟨_, domainStateWrite_alone via m code hview, hwrite.1, ?_⟩
    have hagree := agreeButCom_outOfCycle hwrite.2
    rwa [outOfCycle_of_view (writeObject_domain_cycleView hview')] at hagree

/-- Settles O58: each row of the table leaves what the write leaves, and a write that the checks refuse leaves the state. -/
theorem namedRowsAreWrites : Obligations.NamedRowsAreWrites := by
  unfold Obligations.NamedRowsAreWrites
  intro c via ix sub n b s t hnamed hseen hcycle
  have h := namedWrite_completes hnamed hseen hcycle
  refine ⟨fun u hu => ?_, fun a ha => ?_⟩
  · rwa [hu] at h
  · rwa [show writeObject (some n) ix sub b t = (some a, t) by simp only [writeObject, ha]] at h

end Sys2Proof.Machine
end

section
/-! Accepted writes have their effect (O2). -/
namespace Sys2Proof.Machine

/-! ### Answers by SDO -/

/-- What goes out on CAN FD for a session that a store does not keep waiting. -/
theorem mem_emit_sdo {n ix sub : Nat} {a : Option Abort} {b : Bytes} {d : Dev} (howed : (getSession d n).owed = false) (hline : canLine d = true) :
    Output.sdo n ix sub a b ∈ (emit n (.sdo n ix sub a b) d).out := by
  unfold emit
  rw [if_neg (by simp [howed])]
  refine List.mem_append_right _ (List.mem_filter.mpr ⟨List.mem_singleton_self _, ?_⟩)
  exact hline

/-- An answer without an abort, which nothing follows, goes out. -/
theorem sdoAnswer_answers {n ix sub : Nat} {b : Bytes} {s : State} (howed : (getSession s.dev n).owed = false) (hline : canLine s.dev = true) :
    (sdoAnswer n ix sub { payload := b } s).od = s.od ∧ Output.sdo n ix sub none b ∈ (sdoAnswer n ix sub { payload := b } s).dev.out :=
  ⟨rfl, mem_emit_sdo howed hline⟩

/-- An answer leaves the transfers. -/
theorem emit_transfer (n k : Nat) (x : Output) (d : Dev) : (getSession (emit n x d) k).transfer = (getSession d k).transfer := by
  unfold emit
  split
  · exact getSession_modSession_keeps (P := fun y => y.transfer = (getSession d k).transfer) (fun _ h => h) rfl
  · rfl

theorem sdoAnswer_transfer (n ix sub k : Nat) (b : Bytes) (s : State) :
    (getSession (sdoAnswer n ix sub { payload := b } s).dev k).transfer = (getSession s.dev k).transfer := emit_transfer ..

theorem setTransfer_sets {n : Nat} (hn : n < 64) (t : Option Transfer) (s : State) : (getSession (setTransfer n t s).dev n).transfer = t :=
  congrArg Session.transfer (getSession_modSession_same _ _ hn)

theorem sdoTouch_run (n : Nat) (s : State) : (sdoTouch n s).dev.clk.run = s.dev.clk.run := rfl

theorem modSession_owed {f : Session → Session} (hf : ∀ y, (f y).owed = y.owed) (n k : Nat) (d : Dev) :
    (getSession (modSession n f d) k).owed = (getSession d k).owed :=
  getSession_modSession_keeps (P := fun y => y.owed = (getSession d k).owed) (fun y h => (hf y).trans h) rfl

theorem recordAbort_owed (n ix sub k : Nat) (a : Abort) (d : Dev) : (getSession (recordAbort n ix sub a d) k).owed = (getSession d k).owed := by
  unfold recordAbort
  split
  · rfl
  · exact modSession_owed (f := fun x => { x with abort := { detail := a.2, code := a.1, object := ix * 65536 + sub * 256, time := d.clk.stamp } })
      (fun _ => rfl) ..

/-- To give up a transfer leaves which sessions are owed an answer. -/
theorem abandon_owed (n k : Nat) (s : State) : (getSession (abandon n s).dev k).owed = (getSession s.dev k).owed := by
  unfold abandon
  split
  · rw [devTo_dev, recordAbort_owed]
    exact modSession_owed (f := fun x => { x with transfer := none }) (fun _ => rfl) ..
  · rfl

theorem sdoTouch_owed (n k : Nat) (s : State) : (getSession (sdoTouch n s).dev k).owed = (getSession s.dev k).owed :=
  getSession_modSession_keeps (P := fun y => y.owed = (getSession s.dev k).owed) (fun _ h => h) rfl

theorem sdoTouch_transfer (n k : Nat) (s : State) : (getSession (sdoTouch n s).dev k).transfer = (getSession s.dev k).transfer :=
  getSession_modSession_keeps (P := fun y => y.transfer = (getSession s.dev k).transfer) (fun _ h => h) rfl

/-- The state in which an exchange of CAN FD is executed has the supplies of the state before it. -/
theorem sdoStart_line (n : Nat) (s : State) : canLine (abandon n (sdoTouch n s)).dev = canLine s.dev := by
  have hrails : (abandon n (sdoTouch n s)).dev.rails = s.dev.rails := abandon_leaves (p := .rails) (by decide) ..
  rw [canLine, hrails, canLine]

theorem sdoServes_line {d : Dev} {ctl ch : Nat} (h : sdoServes d ctl ch = true) : canLine d = true := by
  unfold sdoServes at h
  simp only [Bool.and_eq_true] at h
  obtain ⟨⟨⟨⟨-, hline⟩, -⟩, -⟩, -⟩ := h
  exact hline

/-! ### The messages of a write -/

/-- A write of a whole value by a message of Table 2.7 or an exchange of CAN FD. -/
theorem odWrite_leavesWrite {via : Via} {m : OdMsg} {s t : State} {n : Nat} (h : requestSeen false via 2 m s = some (n, t))
    (htotal : m.total.toNat = m.payload.length) (hr : m.index ≠ 0x2202) (hl : (m.index, m.sub) ≠ (0x2100, 3)) :
    Completes (.odWrite via m) s (fun r => r.od = (writeObject (some n) m.index.toNat m.sub.toNat m.payload t).2.od ∧
      agreeButCom r.dev (writeObject (some n) m.index.toNat m.sub.toNat m.payload t).2.dev) := by
  have hr' : ¬(m.index.toNat = 0x2202 ∧ m.sub.toNat = 1) := fun h => hr (BitVec.eq_of_toNat_eq h.1)
  have hl' : ¬(m.index.toNat = 0x2100 ∧ m.sub.toNat = 3) := fun h => hl (Prod.ext (BitVec.eq_of_toNat_eq h.1) (BitVec.eq_of_toNat_eq h.2))
  obtain ⟨x, hx, hrequest⟩ := request_writes (wr := writeObject) h htotal
  rw [afterAnswer_plain _ _ (writeWhole_reset _ _ _ _ _ _ _ _ hr') (writeWhole_leaves _ _ _ _ _ _ _ _ hl'), ite_self] at hrequest
  rw [writeWhole_state] at hx
  rw [← hrequest] at hx
  exact ⟨_, rfl, hx.od, hx.agrees⟩

section
variable {c : Fin 2} {k : Fin 4} {s : State} (hserves : sdoServes s.dev c.val k.val = true)
include hserves

/-- An expedited download executes the write after the transfer in progress is given up. -/
theorem sdoDownload_expedited (index : BitVec 16) (sub : BitVec 8) (b : Bytes) : sdoDownload c.val k.val (.expedited index sub b) s =
    sdoWrite writeObject (4 * c.val + k.val) index.toNat sub.toNat b (abandon (4 * c.val + k.val) (sdoTouch (4 * c.val + k.val) s)) := by
  unfold sdoDownload
  dsimp only
  rw [if_neg (by simp [hserves])]
  rfl

/-- An initiate opens a transfer, where one may be opened. -/
theorem sdoDownload_initiate {index : BitVec 16} {sub : BitVec 8} {total : BitVec 32} (htotal : total.toNat ≤ 65536)
    (hopen : transfersOpen (abandon (4 * c.val + k.val) (sdoTouch (4 * c.val + k.val) s)).dev < 8) :
    Completes (.sdoDownload c k (.initiate index sub total)) s (fun u => u.od = s.od ∧
      ∃ x, (getSession u.dev (4 * c.val + k.val)).transfer = some x ∧
        x.write = true ∧ x.ix = index.toNat ∧ x.sub = sub.toNat ∧ x.total = total.toNat ∧ x.data = [] ∧ x.last = s.dev.clk.run) := by
  have hn : 4 * c.val + k.val < 64 := by omega
  refine ⟨_, rfl, ?_⟩
  unfold sdoDownload beginTransfer
  dsimp only
  rw [if_neg (by simp [hserves])]
  simp only [if_neg (show ¬(65536 < total.toNat ∨ 8 ≤ transfersOpen (abandon (4 * c.val + k.val) (sdoTouch (4 * c.val + k.val) s)).dev) by omega)]
  refine ⟨abandon_od .., _, (sdoAnswer_transfer ..).trans (setTransfer_sets hn ..), rfl, rfl, rfl, rfl, rfl, rfl⟩

/-- A segment that is not the last is added to its transfer. -/
theorem sdoDownload_segment {toggle : Bool} {b : Bytes} {x : Transfer} (hx : (getSession s.dev (4 * c.val + k.val)).transfer = some x)
    (hwrite : x.write = true) (htoggle : x.toggle = toggle) (hlen : b.length ≤ 7) (htotal : (x.data ++ b).length ≤ x.total) :
    Completes (.sdoDownload c k (.segment toggle false b)) s (fun u => u.od = s.od ∧ (getSession u.dev (4 * c.val + k.val)).transfer =
      some { x with data := x.data ++ b, pos := (x.data ++ b).length, toggle := !x.toggle, last := s.dev.clk.run }) := by
  have hn : 4 * c.val + k.val < 64 := by omega
  have hx' : (getSession (sdoTouch (4 * c.val + k.val) s).dev (4 * c.val + k.val)).transfer = some x := (sdoTouch_transfer ..).trans hx
  refine ⟨_, rfl, ?_⟩
  unfold sdoDownload
  dsimp only
  rw [if_neg (by simp [hserves])]
  simp only [hx', hwrite, htoggle]
  rw [if_neg (by simp), if_neg (by simp), if_neg (by simp at htotal ⊢; omega), if_neg (by simp)]
  exact ⟨rfl, (sdoAnswer_transfer ..).trans (setTransfer_sets hn ..)⟩

/-- The last segment executes the write of the whole value. -/
theorem sdoDownload_last {b : Bytes} {x : Transfer} (hx : (getSession s.dev (4 * c.val + k.val)).transfer = some x)
    (hwrite : x.write = true) (hlen : b.length ≤ 7) (htotal : (x.data ++ b).length = x.total) :
    sdoDownload c.val k.val (.segment x.toggle true b) s = sdoWrite writeObject (4 * c.val + k.val) x.ix x.sub (x.data ++ b)
      (setTransfer (4 * c.val + k.val) none (sdoTouch (4 * c.val + k.val) s)) := by
  have hx' : (getSession (sdoTouch (4 * c.val + k.val) s).dev (4 * c.val + k.val)).transfer = some x := (sdoTouch_transfer ..).trans hx
  unfold sdoDownload sdoWrite
  dsimp only
  rw [if_neg (by simp [hserves]), htotal]
  simp only [hx', hwrite, htotal]
  rw [if_neg (by simp), if_neg (by simp), if_neg (by simp; omega), if_pos trivial]

end

/-- A write by SDO that neither resets the device nor takes NET out of ON leaves what the write leaves. -/
theorem sdoWrite_leavesWrite {n ix sub : Nat} {b : Bytes} {t u : State} (hr : ix ≠ 0x2202) (hl : (ix, sub) ≠ (0x2100, 3))
    (h : writeObject (some n) ix sub b t = (none, u)) :
    (sdoWrite writeObject n ix sub b t).od = u.od ∧ agreeButCom (sdoWrite writeObject n ix sub b t).dev u.dev := by
  have key := sdoFinish_agrees n ix sub t (writeWhole writeObject n ix sub 0 b.length b t)
    (writeWhole_reset _ _ _ _ _ _ _ _ (fun h => hr h.1)) (writeWhole_leaves _ _ _ _ _ _ _ _ (fun h => hl (Prod.ext h.1 h.2)))
  rwa [writeWhole_state, h] at key

/-! ### The objects 0x3400 to 0x347F, which only hold their value -/

theorem writeObject_plain {session : Option Nat} {ix sub : Nat} {b : Bytes} {t : State} (hlow : 0x3400 ≤ ix) (hhigh : ix < 0x3480)
    (hcheck : writeCheck t session ix sub b = none) : writeObject session ix sub b t = (none, put ix sub b t) := by
  unfold writeObject writeEffect
  simp only [hcheck]
  repeat rw [if_neg (by omega)]
  rfl

/-- An accepted write of such an object by SDO is answered at once. -/
theorem sdoWrite_plain {n ix sub : Nat} {b : Bytes} {w : State} (hlow : 0x3400 ≤ ix) (hhigh : ix < 0x3480)
    (hcheck : writeCheck w (some n) ix sub b = none) :
    sdoWrite writeObject n ix sub b w = sdoAnswer n ix sub { last := true, total := b.length } (put ix sub b w) := by
  have hreset : (ix == 0x2202 && sub == 1) = false := by
    rw [Bool.and_eq_false_iff, beq_eq_false_iff_ne]
    exact Or.inl (by omega)
  have hwhole : writeWhole writeObject n ix sub 0 b.length b w = ({ last := true, total := b.length }, put ix sub b w) := by
    simp only [writeWhole, writeObject_plain hlow hhigh hcheck, hreset]
    rw [if_neg (by omega)]
  unfold sdoWrite sdoFinish
  rw [hwhole]
  refine if_neg ?_
  show ¬(w.dev.com.store.isNone && w.dev.com.store.isSome && true) = true
  cases w.dev.com.store <;> simp

theorem sdoDownload_plain {c : Fin 2} {k : Fin 4} {index : BitVec 16} {sub : BitVec 8} {b : Bytes} {s : State}
    (hserves : sdoServes s.dev c.val k.val = true) (hlow : 0x3400 ≤ index.toNat) (hhigh : index.toNat < 0x3480)
    (hcheck : writeCheck (abandon (4 * c.val + k.val) (sdoTouch (4 * c.val + k.val) s)) (some (4 * c.val + k.val)) index.toNat sub.toNat b = none) :
    Completes (.sdoDownload c k (.expedited index sub b)) s (fun u => u.od = odSet s.od index.toNat sub.toNat b ∧
      agreeButCom u.dev (abandon (4 * c.val + k.val) (sdoTouch (4 * c.val + k.val) s)).dev ∧
      (b ≠ [] → odGet u.od index.toNat sub.toNat = b) ∧
      ((getSession s.dev (4 * c.val + k.val)).owed = false → Output.sdo (4 * c.val + k.val) index.toNat sub.toNat none [] ∈ u.dev.out)) := by
  have hexec := sdoDownload_expedited hserves index sub b
  generalize 4 * c.val + k.val = n at hexec hcheck ⊢
  have hod : (abandon n (sdoTouch n s)).od = s.od := abandon_od ..
  have howed : (getSession (abandon n (sdoTouch n s)).dev n).owed = (getSession s.dev n).owed := (abandon_owed ..).trans (sdoTouch_owed ..)
  have hline : canLine (abandon n (sdoTouch n s)).dev = true := (sdoStart_line n s).trans (sdoServes_line hserves)
  generalize abandon n (sdoTouch n s) = w at hexec hcheck hod howed hline ⊢
  rw [sdoWrite_plain hlow hhigh hcheck] at hexec
  obtain ⟨hod', hdev'⟩ := sdoAnswer_agrees n index.toNat sub.toNat { last := true, total := b.length } (put index.toNat sub.toNat b w) rfl rfl
  rw [← hexec] at hod' hdev'
  have hvalue := hod'.trans (congrArg (odSet · index.toNat sub.toNat b) hod)
  refine ⟨_, rfl, hvalue, hdev', fun hb => ?_, fun h => ?_⟩
  · exact (congrArg (odGet · index.toNat sub.toNat) hvalue).trans (odGet_odSet_same _ (by omega) hb)
  · show _ ∈ (sdoDownload c.val k.val (.expedited index sub b) s).dev.out
    rw [hexec]
    exact mem_emit_sdo (howed.trans h) hline

/-- Settles O2: each way of a write comes to the write of the object, and the objects 0x3400 to 0x347F only hold their value. -/
theorem writeTakesEffect : Obligations.WriteTakesEffect := by
  unfold Obligations.WriteTakesEffect
  refine ⟨fun via m s t n hseen htotal hlow hhigh hcheck => ?_,
    fun c k index sub b s hserves hlow hhigh hcheck => sdoDownload_plain hserves hlow hhigh hcheck,
    fun c k index sub total s hserves htotal hopen => sdoDownload_initiate hserves htotal hopen,
    fun c k toggle b s x hserves hx hwrite htoggle hlen htotal => sdoDownload_segment hserves hx hwrite htoggle hlen htotal,
    fun via m s t u n hseen htotal hr hl hu => ?_, fun c k index sub b s u hserves hr hl hu => ?_,
    fun c k toggle b s u x hserves hr hl hx hwrite htoggle hlen htotal hu => ?_⟩
  · have hr : m.index ≠ 0x2202 := fun h => by simp [h] at hlow
    have hl : (m.index, m.sub) ≠ (0x2100, 3) := fun h => by simp [(Prod.mk.inj h).1] at hlow
    obtain ⟨r, hexec, hod, hdev⟩ := odWrite_leavesWrite hseen htotal hr hl
    rw [writeObject_plain hlow hhigh hcheck] at hod hdev
    refine ⟨r, hexec, ?_, hdev, fun hb => ?_⟩
    · rw [hod, put, (requestSeen_executesFrom hseen).od]
    · rw [hod, put]
      exact odGet_odSet_same _ (by omega) hb
  · have h := odWrite_leavesWrite hseen htotal hr hl
    rwa [hu] at h
  · have h := sdoWrite_leavesWrite (fun h => hr (BitVec.eq_of_toNat_eq h)) (fun h => hl ?_) hu
    · rw [← sdoDownload_expedited hserves] at h
      exact ⟨_, rfl, h⟩
    · obtain ⟨hix, hsub⟩ := Prod.mk.inj h
      exact Prod.ext (BitVec.eq_of_toNat_eq hix) (BitVec.eq_of_toNat_eq hsub)
  · subst htoggle
    have h := sdoWrite_leavesWrite hr hl hu
    rw [← sdoDownload_last hserves hx hwrite hlen htotal] at h
    exact ⟨_, rfl, h⟩

end Sys2Proof.Machine
end

section
/-! Requests are answered on the transport they came by, and reads with the value of the object (O1). -/
namespace Sys2Proof.Machine

/-! ### The way back to the host -/

/-- Where a session answers on the network. -/
def Session.address (x : Session) : Nat × Nat × Nat := (x.mac, x.ip, x.port)

/-- What session `n` answers reaches the host that asked by `via`: the transport has its supplies, the session has the host's address,
and the slot was not written while the device had it. -/
def Reaches (via : Via) (n : Nat) (d : Dev) : Prop :=
  match via with
  | .udp mac ip port _ => 12 ≤ n ∧ ethLine d = true ∧ (getSession d n).address = (mac.val, ip.toNat, port.toNat)
  | .mailbox slot => n = 8 + slot.val ∧ (vget d.com.slots slot.val).torn = false
  | .can _ _ => canLine d = true

theorem Reaches.keeps {via : Via} {n : Nat} {d e : Dev} (h : Reaches via n d) (hrails : e.rails = d.rails) (hslots : e.com.slots = d.com.slots)
    (haddress : (getSession e n).address = (getSession d n).address) : Reaches via n e := by
  cases via with
  | udp mac ip port seq =>
    obtain ⟨hn, hline, hsession⟩ := h
    exact ⟨hn, by rwa [ethLine, hrails], haddress.trans hsession⟩
  | mailbox slot =>
    obtain ⟨hn, htorn⟩ := h
    exact ⟨hn, by rwa [hslots]⟩
  | can c k =>
    have hline : canLine d = true := h
    exact (by rwa [canLine, hrails] : canLine e = true)

theorem modSession_address {f : Session → Session} (hf : ∀ y, (f y).address = y.address) (n k : Nat) (d : Dev) :
    (getSession (modSession n f d) k).address = (getSession d k).address :=
  getSession_modSession_keeps (P := fun y => y.address = (getSession d k).address) (fun y h => (hf y).trans h) rfl

theorem recordAbort_address (n ix sub k : Nat) (a : Abort) (d : Dev) :
    (getSession (recordAbort n ix sub a d) k).address = (getSession d k).address := by
  unfold recordAbort
  split
  · rfl
  · exact modSession_address (f := fun x => { x with abort := { detail := a.2, code := a.1, object := ix * 65536 + sub * 256, time := d.clk.stamp } })
      (fun _ => rfl) ..

theorem abandon_address (n k : Nat) (s : State) : (getSession (abandon n s).dev k).address = (getSession s.dev k).address := by
  unfold abandon
  split
  · rw [devTo_dev, recordAbort_address]
    exact modSession_address (f := fun x => { x with transfer := none }) (fun _ => rfl) ..
  · rfl

theorem abandon_slots (n : Nat) (s : State) : (abandon n s).dev.com.slots = s.dev.com.slots := by
  unfold abandon recordAbort
  split
  · rw [devTo_dev]
    split <;> rfl
  · rfl

theorem Reaches.abandoned {via : Via} {n : Nat} {s : State} (h : Reaches via n s.dev) : Reaches via n (abandon n s).dev :=
  h.keeps (abandon_leaves (p := .rails) (by decide) ..) (abandon_slots ..) (abandon_address ..)

/-- The session of a datagram has its sender's address, or is free. -/
theorem udpSession_address {d : Dev} {mac ip port n : Nat} (h : udpSession d mac ip port = some n) :
    12 ≤ n ∧ (udpEntry (getSession d n) mac ip port).address = (mac, ip, port) := by
  have hlow {k : Nat} (hk : k ∈ (List.range 52).map (· + 12)) : 12 ≤ k := by
    obtain ⟨j, -, rfl⟩ := List.mem_map.mp hk
    omega
  unfold udpSession at h
  dsimp only at h
  split at h
  next k hfind =>
    cases h
    have hpred := List.find?_some hfind
    simp only [Bool.and_eq_true, beq_iff_eq] at hpred
    obtain ⟨⟨⟨hkind, hmac⟩, hip⟩, hport⟩ := hpred
    refine ⟨hlow (List.mem_of_find?_eq_some hfind), ?_⟩
    rw [udpEntry, if_neg (by simp [hkind]), Session.address, hmac, hip, hport]
  next =>
    have hfree := List.find?_some h
    refine ⟨hlow (List.mem_of_find?_eq_some h), ?_⟩
    rw [udpEntry, if_pos hfree]
    rfl

theorem udpAdmit_reaches {mac : Fin 2} {ip : BitVec 32} {port seq : BitVec 16} {q service n : Nat} {m : OdMsg} {s t : State}
    (hline : ethLine s.dev = true) (h : udpAdmit mac.val ip.toNat port.toNat q service m s = .served n t) :
    Reaches (.udp mac ip port seq) n t.dev := by
  unfold udpAdmit at h
  dsimp only at h
  split at h
  · cases h
  split at h
  · cases h
  next k hk =>
    obtain ⟨hlow, haddress⟩ := udpSession_address hk
    have hopen (x : Session) (hx : x.address = (mac.val, ip.toNat, port.toNat)) :
        Reaches (.udp mac ip port seq) k (devTo (modSession k (fun _ => x)) (devTo netBusy s)).dev := by
      refine ⟨hlow, hline, ?_⟩
      rw [devTo_dev, getSession_modSession_same _ _ (udpSession_lt hk)]
      exact hx
    rw [← udpEntry] at h
    generalize udpEntry (getSession (devTo netBusy s).dev k) mac.val ip.toNat port.toNat = x at h haddress
    split at h
    · split at h <;> cases h
    split at h
    · split at h
      · cases h
        exact hopen _ haddress
      · cases h
    · cases h
      exact hopen _ haddress

theorem mailboxAdmit_reaches {whole : Bool} {slot : Fin 4} {len n : Nat} {b : Bytes} {m : OdMsg} {s t : State}
    (h : mailboxAdmit whole slot.val len b m s = .served n t) : Reaches (.mailbox slot) n t.dev := by
  unfold mailboxAdmit at h
  dsimp only at h
  repeat split at h; cases h
  cases h
  exact ⟨rfl, congrArg Slot.torn (vget_vset_same _ _ _ slot.isLt)⟩

theorem admission_reaches {whole : Bool} {via : Via} {service n : Nat} {m : OdMsg} {s t : State}
    (h : admission whole via service m s = .served n t) : Reaches via n t.dev := by
  unfold admission at h
  split at h
  · cases h
  cases via with
  | udp mac ip port seq =>
    dsimp only at h
    split at h
    · cases h
    next hline => exact udpAdmit_reaches (by simpa using hline) h
  | mailbox slot => exact mailboxAdmit_reaches h
  | can ctl ch =>
    dsimp only [canAdmit] at h
    split at h
    next hserves =>
      cases h
      rw [Bool.and_eq_true] at hserves
      exact (sdoStart_line ..).trans (sdoServes_line hserves.1)
    · cases h

/-! ### Answers -/

/-- A response to a slot that was not torn is what the slot then holds, and goes out. -/
theorem mailboxAnswer_answers {slot : Nat} {b : Bytes} {d : Dev} (htorn : (vget d.com.slots slot).torn = false) :
    (mailboxAnswer slot b d).com.slots = vset d.com.slots slot { msgLen := b.length, message := b } ∧
      Output.mailbox slot b ∈ (mailboxAnswer slot b d).out := by
  unfold mailboxAnswer
  simp only [htorn, Bool.false_eq_true, if_false]
  rw [raiseVector_com]
  refine ⟨rfl, ?_⟩
  unfold raiseVector
  split
  · exact List.mem_append_right _ (List.mem_singleton_self _)
  split
  · exact List.mem_append_right _ (List.mem_singleton_self _)
  · exact List.mem_append_left _ (List.mem_append_right _ (List.mem_singleton_self _))

/-- A message's response reaches the host, where no store keeps the session waiting. -/
theorem sendResponse_answers {via : Via} {n service : Nat} {m : OdMsg} {a : Answer} {d : Dev} (hv : ∀ c k, via ≠ .can c k)
    (hreach : Reaches via n d) (howed : (getSession d n).owed = false) :
    answerOf via n service m a ∈ (sendResponse n (viaSeq via) (responseBytes service (viaSeq via) m a) d).out := by
  cases via with
  | can c k => exact absurd rfl (hv c k)
  | mailbox slot =>
    obtain ⟨rfl, htorn⟩ := hreach
    have hslot := slot.isLt
    have hsub : 8 + slot.val - 8 = slot.val := by omega
    unfold sendResponse
    rw [if_pos (by omega), hsub]
    exact (mailboxAnswer_answers htorn).2
  | udp mac ip port seq =>
    obtain ⟨hn, hline, haddress⟩ := hreach
    obtain ⟨hmac, haddress⟩ := Prod.mk.inj haddress
    obtain ⟨hip, hport⟩ := Prod.mk.inj haddress
    have hlow : ¬n < 12 := by omega
    simp only [sendResponse, hlow, if_false, hmac, hip, hport]
    generalize hw : modSession n _ (arpAsk mac.val ip.toNat d) = w
    have howed' : (getSession w n).owed = false := by
      rw [← hw, modSession_owed, getSession, arpAsk_com]
      · exact howed
      · intro y
        split <;> rfl
    have hline' : ethLine w = true := by
      have hrails : w.rails = d.rails := by
        rw [← hw]
        exact arpAsk_leaves (p := .rails) (by decide) ..
      rwa [ethLine, hrails]
    unfold emit
    rw [if_neg (by simp [howed'])]
    exact List.mem_append_right _ (List.mem_filter.mpr ⟨List.mem_singleton_self _, hline'⟩)

/-- A message executed without a store, an abort, a close, a reset or NET's leaving, is answered, and the objects are as it left them. -/
theorem finish_answers {via : Via} {n service : Nat} {m : OdMsg} {a : Answer} {before w : State} (hv : ∀ c k, via ≠ .can c k)
    (hreach : Reaches via n w.dev) (howed : (getSession w.dev n).owed = false) (hstore : w.dev.com.store = before.dev.com.store)
    (habort : a.abort = none) (hclose : a.close = false) (hreset : a.reset = false) (hleaves : a.leaves = none) :
    (finish n service (viaSeq via) m before (a, w)).od = w.od ∧
      answerOf via n service m a ∈ (finish n service (viaSeq via) m before (a, w)).dev.out := by
  have hnone : ¬(before.dev.com.store.isNone && w.dev.com.store.isSome && a.abort.isNone) = true := by
    rw [hstore]
    cases before.dev.com.store <;> simp
  refine ⟨(finish_agrees n service (viaSeq via) m before (a, w) hclose hreset hleaves).1, ?_⟩
  unfold finish
  dsimp only
  rw [if_neg hnone, afterAnswer_plain _ _ hreset hleaves]
  simp only [habort, hclose, Bool.not_false, if_true]
  exact sendResponse_answers hv hreach howed

/-! ### Messages that are executed -/

/-- A message that is executed, and the state it is executed in. -/
theorem request_served {via : Via} {service n : Nat} {m : OdMsg} {s t : State} (hv : ∀ c k, via ≠ .can c k)
    (h : requestSeen false via service m s = some (n, t)) :
    ∃ u, request writeObject false via service m s = finish n service (viaSeq via) m u (serveMessage writeObject false n service m u) ∧
      (getSession u.dev n).transfer.filter (continues service m.index.toNat m.sub.toNat) = none ∧ messageCheck service m none = none ∧
      t = (if service = 3 ∨ service = 4 then u else abandon n u) ∧ u.dev.com.store = t.dev.com.store ∧ Reaches via n t.dev := by
  unfold requestSeen at h
  split at h
  · exact absurd rfl (hv _ _)
  next k u _ hadmit =>
    dsimp only at h
    split at h
    next hfree =>
      obtain ⟨rfl, rfl⟩ := Prod.mk.inj (Option.some.inj h)
      obtain ⟨hnone, hcheck⟩ := Bool.and_eq_true_iff.mp hfree
      refine ⟨u, by rw [request_message hv, hadmit, serveAdmitted], Option.isNone_iff_eq_none.mp hnone, by simpa using hcheck, rfl, ?_, ?_⟩
      · split
        · rfl
        · exact (abandon_store ..).symm
      · split
        · exact admission_reaches hadmit
        · exact (admission_reaches hadmit).abandoned
    · cases h
  · cases h

/-! ### Reads (R41) -/

theorem setTransfer_owed (n k : Nat) (x : Option Transfer) (s : State) :
    (getSession (setTransfer n x s).dev k).owed = (getSession s.dev k).owed :=
  modSession_owed (f := fun y => { y with transfer := x }) (fun _ => rfl) ..

theorem setTransfer_line (n : Nat) (x : Option Transfer) (s : State) : canLine (setTransfer n x (sdoTouch n s)).dev = canLine s.dev := rfl

/-- The first message of a read that the checks admit, where the value fits it. -/
theorem readFirst_answers {n ix sub : Nat} {t : State} (hcheck : readCheck t (some n) ix sub = none) (hnonce : ¬(ix = 0x2320 ∧ sub = 1))
    (hfits : (readValue t (some n) ix sub).length ≤ 1024) : readFirst n ix sub t =
      ({ last := true, total := (readValue t (some n) ix sub).length, payload := readValue t (some n) ix sub }, t) := by
  simp only [readFirst, hcheck, fetchValue, if_neg hnonce, hfits, if_true]

theorem canServe_read (wr : Writer) (m : OdMsg) (n : Nat) (s : State) :
    canServe wr 1 m (.served n s) = sdoRead n m.index.toNat m.sub.toNat s := rfl

theorem odRead_completes {via : Via} {m : OdMsg} {s t : State} {n : Nat} (hseen : requestSeen false via 1 m s = some (n, t))
    (howed : (getSession t.dev n).owed = false) (hnonce : (m.index, m.sub) ≠ (0x2320, 1))
    (hcheck : readCheck t (some n) m.index.toNat m.sub.toNat = none) (hfits : (readValue t (some n) m.index.toNat m.sub.toNat).length ≤ 1024) :
    Completes (.odRead via m) s (fun u => u.od = s.od ∧
      answerOf via n 1 m { last := true, total := (readValue t (some n) m.index.toNat m.sub.toNat).length
                           payload := readValue t (some n) m.index.toNat m.sub.toNat } ∈ u.dev.out) := by
  have hnonce' : ¬(m.index.toNat = 0x2320 ∧ m.sub.toNat = 1) :=
    fun h => hnonce (Prod.ext (BitVec.eq_of_toNat_eq h.1) (BitVec.eq_of_toNat_eq h.2))
  have hod := (requestSeen_executesFrom hseen).od
  refine ⟨_, rfl, ?_⟩
  show (request writeObject false via 1 m s).od = s.od ∧ _ ∈ (request writeObject false via 1 m s).dev.out
  have hmessage (hv : ∀ c k, via ≠ .can c k) : (request writeObject false via 1 m s).od = s.od ∧
      answerOf via n 1 m { last := true, total := (readValue t (some n) m.index.toNat m.sub.toNat).length
                           payload := readValue t (some n) m.index.toNat m.sub.toNat } ∈ (request writeObject false via 1 m s).dev.out := by
    obtain ⟨u, hrequest, hmine, hmsg, ht, hstore, hreach⟩ := request_served hv hseen
    rw [if_neg (by decide)] at ht
    have hserve : serveMessage writeObject false n 1 m u = readFirst n m.index.toNat m.sub.toNat t := by
      simp [serveMessage, hmine, hmsg, ht]
    rw [hrequest, hserve, readFirst_answers hcheck hnonce' hfits, ← hod]
    exact finish_answers hv hreach howed hstore.symm rfl rfl rfl rfl
  cases via with
  | udp mac ip port seq => exact hmessage (fun _ _ h => nomatch h)
  | mailbox slot => exact hmessage (fun _ _ h => nomatch h)
  | can c k =>
    have hadmit := requestSeen_can hseen
    have hread : request writeObject false (.can c k) 1 m s =
        sdoAnswer n m.index.toNat m.sub.toNat { payload := readValue t (some n) m.index.toNat m.sub.toNat } t := by
      simp only [request, hadmit, canServe_read, sdoRead, hcheck, fetchValue, if_neg hnonce']
    rw [hread, ← hod]
    exact sdoAnswer_answers howed (admission_reaches hadmit)

/-- Settles O1: an admitted read comes to the value of the object, and a response reaches the host. -/
theorem readAnswersValue : Obligations.ReadAnswersValue := by
  unfold Obligations.ReadAnswersValue
  refine ⟨fun via m s t n hseen howed hnonce hcheck hfits => odRead_completes hseen howed hnonce hcheck hfits,
    fun c k index sub s hserves howed hnonce hcheck hfits => ?_, fun c k toggle s x hserves howed hx hread htoggle => ?_⟩
  · have hnonce' : ¬(index.toNat = 0x2320 ∧ sub.toNat = 1) :=
      fun h => hnonce (Prod.ext (BitVec.eq_of_toNat_eq h.1) (BitVec.eq_of_toNat_eq h.2))
    refine ⟨_, rfl, ?_⟩
    show (sdoUpload c.val k.val (.initiate index sub) s).od = s.od ∧ _ ∈ (sdoUpload c.val k.val (.initiate index sub) s).dev.out
    unfold sdoUpload
    dsimp only
    rw [if_neg (by simp [hserves])]
    simp only [hcheck, fetchValue, if_neg hnonce', hfits, if_true]
    obtain ⟨hod, hout⟩ := sdoAnswer_answers (ix := index.toNat) (sub := sub.toNat)
      (b := readValue (abandon (4 * c.val + k.val) (sdoTouch (4 * c.val + k.val) s)) (some (4 * c.val + k.val)) index.toNat sub.toNat)
      howed ((sdoStart_line ..).trans (sdoServes_line hserves))
    exact ⟨hod.trans (abandon_od ..), hout⟩
  · have hx' : (getSession (sdoTouch (4 * c.val + k.val) s).dev (4 * c.val + k.val)).transfer = some x := (sdoTouch_transfer ..).trans hx
    refine ⟨_, rfl, ?_⟩
    show (sdoUpload c.val k.val (.segment toggle) s).od = s.od ∧ _ ∈ (sdoUpload c.val k.val (.segment toggle) s).dev.out
    unfold sdoUpload
    dsimp only
    rw [if_neg (by simp [hserves])]
    simp only [hx', hread, htoggle, ne_eq, not_true_eq_false, if_false, Bool.false_eq_true]
    exact sdoAnswer_answers ((setTransfer_owed ..).trans ((sdoTouch_owed ..).trans howed)) ((setTransfer_line ..).trans (sdoServes_line hserves))

end Sys2Proof.Machine
end

section
/-! Sessions are kept alive, closed and idled out, transfers time out, and a mailbox slot is answered (O3). -/
namespace Sys2Proof.Machine

/-! ### KEEPALIVE and CLOSE (R40) -/

/-- A service without an object that is executed: its message, where none of its session's transfers is continued. -/
theorem keepalive_served {n : Nat} {m : OdMsg} {u : State} (hmine : (getSession u.dev n).transfer.filter (continues 3 m.index.toNat m.sub.toNat) = none)
    (hmsg : messageCheck 3 m none = none) : serveMessage writeObject false n 3 m u = ({}, u) := by
  simp [serveMessage, hmine, hmsg]

theorem close_served {n : Nat} {m : OdMsg} {u : State} (hmine : (getSession u.dev n).transfer.filter (continues 4 m.index.toNat m.sub.toNat) = none)
    (hmsg : messageCheck 4 m none = none) : serveMessage writeObject false n 4 m u = ({ close := true }, u) := by
  simp [serveMessage, hmine, hmsg]

theorem keepalive_completes {via : Via} {s t : State} {n : Nat} (hseen : requestSeen false via 3 (serviceMsg []) s = some (n, t))
    (howed : (getSession t.dev n).owed = false) (hv : ∀ c k, via ≠ .can c k) :
    Completes (.keepalive via) s (fun u => answerOf via n 3 (serviceMsg []) {} ∈ u.dev.out ∧ u.od = s.od) := by
  obtain ⟨u, hrequest, hmine, hmsg, ht, hstore, hreach⟩ := request_served hv hseen
  rw [if_pos (Or.inl rfl)] at ht
  subst ht
  rw [keepalive_served hmine hmsg] at hrequest
  obtain ⟨hod, hout⟩ := finish_answers (service := 3) (m := serviceMsg []) (a := {}) hv hreach howed hstore.symm rfl rfl rfl rfl
  rw [← hrequest] at hod hout
  exact ⟨_, rfl, hout, hod.trans (requestSeen_executesFrom hseen).od⟩

/-- A response leaves which sessions are owed an answer. -/
theorem sendResponse_owed (n seq k : Nat) (b : Bytes) (d : Dev) :
    (getSession (sendResponse n seq b d) k).owed = (getSession d k).owed := by
  unfold sendResponse
  split
  · rw [getSession, mailboxAnswer_sessions, getSession]
  · have hask : (getSession (modSession n (fun s => if s.lastSeq == some seq then { s with lastResponse := b } else s)
        (arpAsk (getSession d n).mac (getSession d n).ip d)) k).owed = (getSession d k).owed := by
      rw [modSession_owed, getSession, arpAsk_com, getSession]
      intro y
      split <;> rfl
    dsimp only
    unfold emit
    split
    · exact (modSession_owed (f := fun s => { s with behind := s.behind ++ _ }) (fun _ => rfl) ..).trans hask
    · exact hask

/-- A CLOSE that is executed acts after its response, where no store keeps the session waiting. -/
theorem close_closes {via : Via} {s t : State} {n : Nat} (hv : ∀ c k, via ≠ .can c k)
    (hseen : requestSeen false via 4 (serviceMsg []) s = some (n, t)) (howed : (getSession t.dev n).owed = false) :
    ∃ w : State, (getSession w.dev n).owed = false ∧ request writeObject false via 4 (serviceMsg []) s = w.act (fun o d => closeNow o n d) := by
  obtain ⟨u, hrequest, hmine, hmsg, ht, -, -⟩ := request_served hv hseen
  rw [if_pos (Or.inr rfl)] at ht
  subst ht
  have hsent := (sendResponse_owed n (viaSeq via) n (responseBytes 4 (viaSeq via) (serviceMsg []) { close := true }) t.dev).trans howed
  refine ⟨devTo (sendResponse n (viaSeq via) (responseBytes 4 (viaSeq via) (serviceMsg []) { close := true })) t, hsent, ?_⟩
  have hnone : ¬(t.dev.com.store.isNone && t.dev.com.store.isSome && (none : Option Abort).isNone) = true := by
    cases t.dev.com.store <;> simp
  rw [hrequest, close_served hmine hmsg]
  unfold finish
  dsimp only
  rw [if_neg hnone]
  simp only [devTo_dev, hsent, Bool.not_true, Bool.false_eq_true, if_false]
  exact afterAnswer_plain { close := true } _ rfl rfl

/-- A UDP session that is closed is free. -/
theorem closeSession_frees (o : Od) {n : Nat} (hn : n < 64) (d : Dev) : (getSession (closeSession o n d) n).kind = .free := by
  unfold closeSession
  split
  next h => simpa using h
  · have hfree : (getSession (modSession n (fun _ => {}) (sessionEnds o n d)) n).kind = .free :=
      congrArg Session.kind (getSession_modSession_same _ _ hn)
    unfold portInForce
    split <;> exact hfree

/-- The end of a session's work: its transfer is given up, and it holds no commissioning. -/
theorem sessionEnds_ends (o : Od) {n : Nat} (hn : n < 64) (d : Dev) :
    (getSession (sessionEnds o n d) n).transfer = none ∧ (sessionEnds o n d).sec.holder ≠ some n := by
  unfold sessionEnds
  extract_lets d1
  have hholder : d1.sec.holder ≠ some n := by
    simp only [d1]
    split
    · obtain ⟨proof, hsec⟩ := commEnd_sec o 4 d
      rw [hsec]
      simp
    next h => exact h
  exact ⟨congrArg Session.transfer (getSession_modSession_same (fun s => { s with transfer := none, abort := {} }) d1 hn), hholder⟩

/-! ### Times (R40, R43, R44) -/

theorem udpSessionIdle_completes {n : Fin 64} {s : State} (hkind : (getSession s.dev n.val).kind = .udp) :
    Completes (.udpSessionIdleTimeout n) s (fun u => (getSession u.dev n.val).kind = .free) := by
  refine completes_timed (due := sessionDue n.val) (f := idleSession n.val) rfl ?_
  have hcom : (s.upTo (sessionDue n.val)).dev.com = s.dev.com := upTo_part _ s (p := .com) (by decide)
  have hsession : getSession (s.upTo (sessionDue n.val)).dev n.val = getSession s.dev n.val := by rw [getSession, hcom, getSession]
  have hover := le_run_upTo (due := sessionDue n.val) (s := s) (t := (getSession s.dev n.val).lastRequest + secT 10)
    (by simp [sessionDue, instantIf, hkind])
  unfold idleSession
  simp only [hsession, hkind, beq_self_eq_true, hover, decide_true, Bool.and_self, if_true]
  exact closeSession_frees _ n.isLt _

theorem recordAbort_transfer (n ix sub k : Nat) (a : Abort) (d : Dev) :
    (getSession (recordAbort n ix sub a d) k).transfer = (getSession d k).transfer := by
  unfold recordAbort
  split
  · rfl
  · exact getSession_modSession_keeps (P := fun y => y.transfer = (getSession d k).transfer) (fun _ h => h) rfl

theorem sdoAnswer_transferAny (n ix sub k : Nat) {a : Answer} (hreset : a.reset = false) (hleaves : a.leaves = none) (s : State) :
    (getSession (sdoAnswer n ix sub a s).dev k).transfer = (getSession s.dev k).transfer := by
  unfold sdoAnswer
  dsimp only
  rw [afterAnswer_plain _ _ hreset hleaves, devTo_dev, emit_transfer]
  split
  · exact recordAbort_transfer ..
  · rfl

theorem transferTimeout_ends {n : Nat} (hn : n < 64) {s : State} {x : Transfer} (hx : (getSession s.dev n).transfer = some x)
    (hover : x.last + secT 1 + 1 ≤ s.dev.clk.run) : (getSession (transferTimeout n s).dev n).transfer = none := by
  unfold transferTimeout
  simp only [hx]
  rw [if_neg (by omega)]
  split
  · exact (sdoAnswer_transferAny _ _ _ _ rfl rfl _).trans (setTransfer_sets hn ..)
  · exact (recordAbort_transfer ..).trans (setTransfer_sets hn ..)

theorem transferTimeout_leaves_od (n : Nat) (s : State) : (transferTimeout n s).od = s.od := by
  unfold transferTimeout
  split
  · split
    · rfl
    · dsimp only
      split <;> rfl
  · rfl

theorem transferTimeout_completes {n : Fin 64} {s : State} (h : (getSession s.dev n.val).transfer.isSome = true) :
    Completes (.transferTimeout n) s (fun u => (getSession u.dev n.val).transfer = none ∧ u.od = s.od) := by
  obtain ⟨x, hx⟩ := Option.isSome_iff_exists.mp h
  refine completes_timedAct (due := transferDue n.val) (f := transferTimeout n.val) rfl ?_
  have hcom : (s.upTo (transferDue n.val)).dev.com = s.dev.com := upTo_part _ s (p := .com) (by decide)
  have hx' : (getSession (s.upTo (transferDue n.val)).dev n.val).transfer = some x := by rwa [getSession, hcom]
  exact ⟨transferTimeout_ends n.isLt hx' (le_run_upTo (by simp [transferDue, hx])), (transferTimeout_leaves_od ..).trans (upTo_od ..)⟩

/-! ### A mailbox slot (R50) -/

/-- The KEEPALIVE message of a slot. -/
def keepaliveBytes : Bytes := messageBytes 3 0 0 0 0 0 0 []

theorem keepaliveBytes_message : messageOf 20 (padTo 20 keepaliveBytes) = serviceMsg [] := by decide +kernel

/-- A slot with a message of 20 bytes that is handed over is admitted. -/
theorem mailboxAdmit_serves {slot : Nat} {b : Bytes} {s : State} (hkind : (getSession s.dev (8 + slot)).kind = .mailbox)
    (howner : (vget s.dev.com.slots slot).owner = false) : ∃ t, mailboxAdmit false slot 20 b (serviceMsg []) s = .served (8 + slot) t := by
  have hkind' : ((getSession (netBusy s.dev) (8 + slot)).kind != .mailbox) = false := by
    rw [bne_eq_false_iff_eq]
    exact hkind
  have howner' : (vget (netBusy s.dev).com.slots slot).owner = false := howner
  unfold mailboxAdmit
  simp only [devTo_dev, hkind', howner', Bool.false_eq_true, if_false]
  exact ⟨_, rfl⟩

/-- The slot holds the response, and is the host's. -/
theorem ownerSet_keepalive {slot : Nat} {s : State} (hslot : slot < 4) (hon : s.dev.isOn .net = true)
    (hkind : (getSession s.dev (8 + slot)).kind = .mailbox) (howner : (vget s.dev.com.slots slot).owner = false) :
    (vget (ownerSet slot 20 keepaliveBytes s).dev.com.slots slot).owner = false ∧
      (vget (ownerSet slot 20 keepaliveBytes s).dev.com.slots slot).message = messageBytes 0x83 0 0 0 0 0 0 [] := by
  obtain ⟨t, hadmit⟩ := mailboxAdmit_serves (b := padTo 20 keepaliveBytes) hkind howner
  obtain ⟨-, htorn⟩ := mailboxAdmit_reaches (slot := ⟨slot, hslot⟩) hadmit
  have hmine : (getSession t.dev (8 + slot)).transfer.filter (continues 3 0 0) = none := by
    cases (getSession t.dev (8 + slot)).transfer with
    | none => rfl
    | some x => rfl
  have hserve : serveMessage writeObject false (8 + slot) 3 (serviceMsg []) t = ({}, t) := keepalive_served hmine (by decide)
  have hanswer : ownerSet slot 20 keepaliveBytes s = finish (8 + slot) 3 0 (serviceMsg []) t ({}, t) := by
    unfold ownerSet
    rw [if_neg (by simp [hon])]
    show serveAdmitted writeObject false (leAt (padTo 20 keepaliveBytes) 1 1) (leAt (padTo 20 keepaliveBytes) 2 2)
      (messageOf 20 (padTo 20 keepaliveBytes)) (mailboxAdmit false slot 20 (padTo 20 keepaliveBytes) (messageOf 20 (padTo 20 keepaliveBytes)) s) = _
    rw [keepaliveBytes_message, hadmit, show leAt (padTo 20 keepaliveBytes) 1 1 = 3 by decide +kernel,
      show leAt (padTo 20 keepaliveBytes) 2 2 = 0 by decide +kernel, serveAdmitted, hserve]
  have hslots : (finish (8 + slot) 3 0 (serviceMsg []) t ({}, t)).dev.com.slots =
      vset t.dev.com.slots slot { msgLen := 20, message := messageBytes 0x83 0 0 0 0 0 0 [] } := by
    have hnone : ¬(t.dev.com.store.isNone && t.dev.com.store.isSome && (none : Option Abort).isNone) = true := by
      cases t.dev.com.store <;> simp
    unfold finish
    dsimp only
    rw [if_neg hnone, afterAnswer_plain {} _ rfl rfl]
    show (sendResponse (8 + slot) 0 (responseBytes 3 0 (serviceMsg []) {}) t.dev).com.slots = _
    unfold sendResponse
    rw [if_pos (by omega), show 8 + slot - 8 = slot by omega]
    exact (mailboxAnswer_answers htorn).1
  rw [hanswer, hslots, vget_vset_same _ _ _ hslot]
  exact ⟨rfl, rfl⟩

/-! ### The obligation -/

/-- Settles O3: a KEEPALIVE is answered, a CLOSE acts after its response, and the times end what they limit. -/
theorem sessionsLiveAndEnd : Obligations.SessionsLiveAndEnd := by
  unfold Obligations.SessionsLiveAndEnd
  refine ⟨fun via s t n hseen howed hv => keepalive_completes hseen howed hv, fun mac ip port seq s t n hseen howed => ?_,
    fun slot s t n hseen howed => ?_, fun n s hkind => udpSessionIdle_completes hkind, fun n s h => transferTimeout_completes h,
    fun slot s message hon hkind howner _ hmessage => ?_⟩
  · obtain ⟨-, -, -, -, -, -, hn, -⟩ := request_served (via := .udp mac ip port seq) (fun _ _ h => nomatch h) hseen
    obtain ⟨w, -, hclose⟩ := close_closes (via := .udp mac ip port seq) (fun _ _ h => nomatch h) hseen howed
    have hlt := lt_of_session_open (requestSeen_executesFrom hseen).isOpen
    refine ⟨_, rfl, ?_⟩
    show (getSession (request writeObject false (.udp mac ip port seq) 4 (serviceMsg []) s).dev n).kind = .free
    rw [hclose]
    show (getSession (closeNow w.od n w.dev) n).kind = .free
    rw [closeNow, if_neg (by omega)]
    exact closeSession_frees _ hlt _
  · obtain ⟨-, -, -, -, -, -, hn, -⟩ := request_served (via := .mailbox slot) (fun _ _ h => nomatch h) hseen
    obtain ⟨w, -, hclose⟩ := close_closes (via := .mailbox slot) (fun _ _ h => nomatch h) hseen howed
    refine ⟨_, rfl, ?_⟩
    show (getSession (request writeObject false (.mailbox slot) 4 (serviceMsg []) s).dev n).transfer = none ∧
      (request writeObject false (.mailbox slot) 4 (serviceMsg []) s).dev.sec.holder ≠ some n
    rw [hclose]
    show (getSession (closeNow w.od n w.dev) n).transfer = none ∧ (closeNow w.od n w.dev).sec.holder ≠ some n
    rw [closeNow, if_pos (by omega)]
    exact sessionEnds_ends _ (by omega) _
  · subst hmessage
    refine ⟨_, rfl, ?_⟩
    show (vget (barAccess (.mailbox slot.val 20 keepaliveBytes) s).dev.com.slots slot.val).owner = false ∧
      (vget (barAccess (.mailbox slot.val 20 keepaliveBytes) s).dev.com.slots slot.val).message = messageBytes 0x83 0 0 0 0 0 0 []
    rw [barAccess_of_on _ hon]
    exact ownerSet_keepalive slot.isLt hon hkind howner

end Sys2Proof.Machine
end

section
/-! The exchange that authorises a session (O20). -/
namespace Sys2Proof.Machine

/-! ### The services of commissioning, as messages and as exchanges of CAN FD -/

/-- Nothing follows the answer. -/
def Answer.Plain (a : Answer) : Prop := a.close = false ∧ a.reset = false ∧ a.leaves = none

/-- A service of commissioning that is executed as a message. -/
theorem commService_served {n service : Nat} {m : OdMsg} {u : State} (hservice : service = 0x10 ∨ service = 0x11 ∨ service = 0x12 ∨ service = 0x13)
    (hmine : (getSession u.dev n).transfer.filter (continues service m.index.toNat m.sub.toNat) = none)
    (hmsg : messageCheck service m none = none) : serveMessage writeObject false n service m u = commService n service m (abandon n u) := by
  rcases hservice with rfl | rfl | rfl | rfl <;> simp [serveMessage, hmine, hmsg]

/-- A service of commissioning leaves what its message leaves, or its exchange of CAN FD. -/
theorem hostService_leaves {via : Via} {service n : Nat} {b : Bytes} {s t w : State}
    (hservice : service = 0x10 ∨ service = 0x11 ∨ service = 0x12 ∨ service = 0x13)
    (hseen : requestSeen false via service (serviceMsg b) s = some (n, t))
    (hmessage : ∃ a, commService n service (serviceMsg b) t = (a, w) ∧ a.Plain)
    (hcan : (canServe writeObject service (serviceMsg b) (.served n t)).od = w.od ∧
      agreeButCom (canServe writeObject service (serviceMsg b) (.served n t)).dev w.dev) :
    (hostService via service b s).od = w.od ∧ agreeButCom (hostService via service b s).dev w.dev := by
  have hserve (hv : ∀ c k, via ≠ .can c k) : (hostService via service b s).od = w.od ∧ agreeButCom (hostService via service b s).dev w.dev := by
    obtain ⟨u, hrequest, hmine, hmsg, ht, -, -⟩ := request_served hv hseen
    rw [if_neg (by omega)] at ht
    obtain ⟨a, ha, hclose, hreset, hleaves⟩ := hmessage
    rw [commService_served hservice hmine hmsg, ← ht, ha] at hrequest
    rw [show hostService via service b s = request writeObject false via service (serviceMsg b) s from rfl, hrequest]
    exact finish_agrees n service (viaSeq via) (serviceMsg b) u (a, w) hclose hreset hleaves
  cases via with
  | udp mac ip port seq => exact hserve (fun _ _ h => nomatch h)
  | mailbox slot => exact hserve (fun _ _ h => nomatch h)
  | can c k =>
    have hexchange : hostService (.can c k) service b s = canServe writeObject service (serviceMsg b) (.served n t) := by
      rw [← requestSeen_can hseen]
      rfl
    rw [hexchange]
    exact hcan

/-- A row that is such a service: what it leaves of the security unit and of AON. -/
theorem hostService_completes {c : Instr} {via : Via} {service n : Nat} {b : Bytes} {s t w : State} {P : Sec → Aon → Prop}
    (hexec : exec c s = acts (hostService via service b) s) (hservice : service = 0x10 ∨ service = 0x11 ∨ service = 0x12 ∨ service = 0x13)
    (hseen : requestSeen false via service (serviceMsg b) s = some (n, t))
    (hmessage : ∃ a, commService n service (serviceMsg b) t = (a, w) ∧ a.Plain)
    (hcan : (canServe writeObject service (serviceMsg b) (.served n t)).od = w.od ∧
      agreeButCom (canServe writeObject service (serviceMsg b) (.served n t)).dev w.dev)
    (hod : w.od = t.od) (hP : P w.dev.sec w.dev.aon) : Completes c s (fun u => u.od = s.od ∧ P u.dev.sec u.dev.aon) := by
  obtain ⟨hodu, hdev⟩ := hostService_leaves hservice hseen hmessage hcan
  have hsec : (hostService via service b s).dev.sec = w.dev.sec := agreeButCom_part hdev (p := .sec) (by decide)
  have haon : (hostService via service b s).dev.aon = w.dev.aon := agreeButCom_part hdev (p := .aon) (by decide)
  refine ⟨_, hexec, hodu.trans (hod.trans (requestSeen_executesFrom hseen).od), ?_⟩
  show P (hostService via service b s).dev.sec (hostService via service b s).dev.aon
  rw [hsec, haon]
  exact hP

/-- A write of an object of commissioning by SDO, which the checks admit. -/
theorem sdoWrite_commissioning {n sub : Nat} {b : Bytes} {t : State} {r : Wrote} (hcheck : writeCheck t (some n) 0x2320 sub b = none)
    (heffect : writeEffect (some n) 0x2320 sub b t = r) :
    (sdoWrite writeObject n 0x2320 sub b t).od = r.2.od ∧ agreeButCom (sdoWrite writeObject n 0x2320 sub b t).dev r.2.dev := by
  have key := sdoFinish_agrees n 0x2320 sub t (writeWhole writeObject n 0x2320 sub 0 b.length b t)
    (writeWhole_reset _ _ _ _ _ _ _ _ (by omega)) (writeWhole_leaves _ _ _ _ _ _ _ _ (by omega))
  rwa [writeWhole_state, show writeObject (some n) 0x2320 sub b t = r by simp only [writeObject, hcheck, heffect]] at key

/-! ### The exchange (R160, R161) -/

/-- The state after a challenge. -/
def challenged (n : Nat) (t : State) : State := { t with dev := (commChallenge n t.dev).2 }

theorem commService_challenge {n : Nat} {t : State} (hhold : t.dev.sec.hold = false) :
    ∃ a, commService n 0x10 (serviceMsg []) t = (a, challenged n t) ∧ a.Plain := by
  refine ⟨{ last := true, total := (commChallenge n t.dev).1.length, payload := (commChallenge n t.dev).1 }, ?_, rfl, rfl, rfl⟩
  simp [commService, serviceMsg, hhold, challenged]

theorem commChallenge_completes {via : Via} {s t : State} {n : Nat} (hseen : requestSeen false via 0x10 (serviceMsg []) s = some (n, t))
    (hn : n < 64) (hhold : s.dev.sec.hold = false) (hcheck : readCheck t (some n) 0x2320 1 = none) :
    Completes (.commChallenge via) s (fun u => u.od = s.od ∧ ∃ nonce, vget u.dev.sec.nonces n = some (nonce, s.dev.clk.run, keyOf s.dev 0)) := by
  have hfrom := requestSeen_executesFrom hseen
  have hsec : t.dev.sec = s.dev.sec := hfrom.part (p := .sec) (by decide)
  have hnv : t.dev.nv = s.dev.nv := hfrom.part (p := .nv) (by decide)
  have hclk : t.dev.clk = s.dev.clk := hfrom.part (p := .clk) (by decide)
  refine hostService_completes (w := challenged n t) (P := fun sec _ => ∃ nonce, vget sec.nonces n = some (nonce, s.dev.clk.run, keyOf s.dev 0))
    rfl (Or.inl rfl) hseen (commService_challenge (hsec ▸ hhold)) ?_ rfl ?_
  · have hread : canServe writeObject 0x10 (serviceMsg []) (.served n t) =
        sdoAnswer n 0x2320 1 { payload := (commChallenge n t.dev).1 } (challenged n t) := by
      show sdoRead n 0x2320 1 t = _
      simp only [sdoRead, hcheck]
      rfl
    rw [hread]
    exact sdoAnswer_agrees _ _ _ _ _ rfl rfl
  · refine ⟨toLE 16 (Config.random16 t.dev.free).toNat, ?_⟩
    rw [← hclk, keyOf, ← hnv]
    exact vget_vset_same _ _ _ hn

section
variable {o : Od} {n at_ : Nat} {nonce mac issued ck : Bytes} {d : Dev} (hnonce : vget d.sec.nonces n = some (issued, at_, some ck))
include hnonce

/-- A response with the right code makes the session the holder. -/
theorem commResponse_good (hmac : mac = commMac ck issued nonce n) :
    (commResponse o n nonce mac d).1 = true ∧ (commResponse o n nonce mac d).2.sec.holder = some n ∧
      (commResponse o n nonce mac d).2.aon.authFails = 0 := by
  unfold commResponse
  simp only [hnonce, hmac, beq_self_eq_true, if_true]
  refine ⟨trivial, ?_, ?_⟩
  · rw [record_sec]
    rfl
  · rw [record_aon]
    rfl

/-- A response with another is a failure. -/
theorem commResponse_bad (hmac : mac ≠ commMac ck issued nonce n) :
    (commResponse o n nonce mac d).1 = false ∧ (commResponse o n nonce mac d).2.sec.holder = d.sec.holder ∧
      (commResponse o n nonce mac d).2.aon.authFails = d.aon.authFails + 1 := by
  have hbad : (mac == commMac ck issued nonce n) = false := by simpa using hmac
  unfold commResponse
  simp only [hnonce, hbad, Bool.false_eq_true, if_false]
  refine ⟨trivial, ?_, ?_⟩
  · rw [record_sec]
    rfl
  · rw [record_aon]
    rfl

end

/-- The state after a response is judged. -/
def responded (n : Nat) (nonce mac : Bytes) (t : State) : State := { t with dev := (commResponse t.od n nonce mac t.dev).2 }

/-- A response is judged on its nonce and its code. -/
theorem commResponseWrite_judges {n : Nat} {nonce mac : Bytes} {t : State} (hnonce : nonce.length = 16) (hmac : mac.length = 32)
    (hrefusal : commRefusal n t.dev = none) :
    ∃ x, commResponseWrite (some n) (nonce ++ mac) t = (x, responded n nonce mac t) := by
  have hfirst : slice (nonce ++ mac) 0 16 = nonce := by simp [slice, ← hnonce]
  have hsecond : slice (nonce ++ mac) 16 32 = mac := by simp [slice, ← hnonce, ← hmac]
  unfold commResponseWrite
  simp only [Option.getD_some, hrefusal, hfirst, hsecond]
  exact ⟨_, rfl⟩

theorem commResponse_completes {via : Via} {nonce mac : Bytes} {s t : State} {n : Nat} {P : Sec → Aon → Prop} (hnonce : nonce.length = 16)
    (hmac : mac.length = 32) (hseen : requestSeen false via 0x11 (serviceMsg (nonce ++ mac)) s = some (n, t)) (hhold : s.dev.sec.hold = false)
    (hcheck : writeCheck t (some n) 0x2320 2 (nonce ++ mac) = none) (hrefusal : commRefusal n t.dev = none)
    (hP : P (responded n nonce mac t).dev.sec (responded n nonce mac t).dev.aon) :
    Completes (.commResponse via nonce mac) s (fun u => u.od = s.od ∧ P u.dev.sec u.dev.aon) := by
  have hsec : t.dev.sec = s.dev.sec := (requestSeen_executesFrom hseen).part (p := .sec) (by decide)
  obtain ⟨x, hx⟩ := commResponseWrite_judges hnonce hmac hrefusal
  refine hostService_completes (w := responded n nonce mac t) rfl (Or.inr (Or.inl rfl)) hseen ?_ ?_ rfl hP
  · have hlen : (serviceMsg (nonce ++ mac)).payload.length = 48 := by simp [serviceMsg, hnonce, hmac]
    have hhold' : t.dev.sec.hold = false := hsec ▸ hhold
    have hpayload : (serviceMsg (nonce ++ mac)).payload = nonce ++ mac := rfl
    have hservice : ∃ a, commService n 0x11 (serviceMsg (nonce ++ mac)) t = (a, responded n nonce mac t) ∧ a.Plain := by
      unfold commService
      rw [if_neg (by simp [serviceMsg]), if_neg (by simp [hlen]), if_neg (by simp [hhold'])]
      simp only [hpayload, hx]
      cases x with
      | none => exact ⟨_, rfl, rfl, rfl, rfl⟩
      | some a => exact ⟨_, rfl, rfl, rfl, rfl⟩
    exact hservice
  · have h := sdoWrite_commissioning hcheck (show writeEffect (some n) 0x2320 2 (nonce ++ mac) t = (x, responded n nonce mac t) from hx)
    exact h

theorem commEnd_completes {via : Via} {s t : State} {n : Nat} (hseen : requestSeen false via 0x12 (serviceMsg []) s = some (n, t))
    (hhold : s.dev.sec.hold = false) (hcheck : writeCheck t (some n) 0x2320 4 [1] = none) (hholder : s.dev.sec.holder = some n) :
    Completes (.commEnd via) s (fun u => u.dev.sec.holder = none ∧ u.od = s.od) := by
  have hsec : t.dev.sec = s.dev.sec := (requestSeen_executesFrom hseen).part (p := .sec) (by decide)
  have hwrite : commEndWrite (some n) t = (none, t.act (commEnd · 1)) := by
    unfold commEndWrite
    rw [if_pos (by simp [hsec, hholder])]
    rfl
  obtain ⟨proof, hends⟩ := commEnd_sec t.od 1 t.dev
  obtain ⟨r, hexec, hod, hnone⟩ := hostService_completes (c := .commEnd via) (w := t.act (commEnd · 1)) (P := fun sec _ => sec.holder = none)
    rfl (Or.inr (Or.inr (Or.inl rfl))) hseen
    ⟨_, by simp [commService, serviceMsg, hsec, hhold, hwrite]; rfl, rfl, rfl, rfl⟩
    (sdoWrite_commissioning hcheck (show writeEffect (some n) 0x2320 4 [1] t = (none, t.act (commEnd · 1)) from hwrite)) rfl
    (congrArg Sec.holder hends)
  exact ⟨r, hexec, hnone, hod⟩

/-! ### The status -/

theorem commStatus_message {via : Via} {s t : State} {n : Nat} (hseen : requestSeen false via 0x13 (serviceMsg []) s = some (n, t))
    (hhold : s.dev.sec.hold = false) (howed : (getSession t.dev n).owed = false) (hv : ∀ c k, via ≠ .can c k) :
    Completes (.commStatus via) s (fun u => u.od = s.od ∧
      answerOf via n 0x13 (serviceMsg []) { last := true, total := 2, payload := toLE 2 (commStatus t.dev) } ∈ u.dev.out) := by
  have hfrom := requestSeen_executesFrom hseen
  have hsec : t.dev.sec = s.dev.sec := hfrom.part (p := .sec) (by decide)
  obtain ⟨u, hrequest, hmine, hmsg, ht, hstore, hreach⟩ := request_served hv hseen
  rw [if_neg (by decide)] at ht
  have hserve : commService n 0x13 (serviceMsg []) t = ({ last := true, total := 2, payload := toLE 2 (commStatus t.dev) }, t) := by
    simp [commService, serviceMsg, hsec, hhold]
  rw [commService_served (by decide) hmine hmsg, ← ht, hserve] at hrequest
  obtain ⟨hod, hout⟩ := finish_answers (service := 0x13) (m := serviceMsg []) (a := { last := true, total := 2, payload := toLE 2 (commStatus t.dev) })
    hv hreach howed hstore.symm rfl rfl rfl rfl
  rw [← hrequest] at hod hout
  exact ⟨_, rfl, hod.trans hfrom.od, hout⟩

theorem commStatus_can {c : Fin 2} {k : Fin 4} {s t : State} {n : Nat} (hseen : requestSeen false (.can c k) 0x13 (serviceMsg []) s = some (n, t))
    (howed : (getSession t.dev n).owed = false) (hcheck : readCheck t (some n) 0x2320 5 = none) :
    Completes (.commStatus (.can c k)) s (fun u => u.od = s.od ∧ Output.sdo n 0x2320 5 none (toLE 2 (commStatus t.dev)) ∈ u.dev.out) := by
  have hread : hostService (.can c k) 0x13 [] s = sdoAnswer n 0x2320 5 { payload := toLE 2 (commStatus t.dev) } t := by
    show canServe writeObject 0x13 (serviceMsg []) (admission false (.can c k) 0x13 (serviceMsg []) s) = _
    rw [requestSeen_can hseen]
    show sdoRead n 0x2320 5 t = _
    simp only [sdoRead, hcheck]
    rfl
  obtain ⟨hod, hout⟩ := sdoAnswer_answers (ix := 0x2320) (sub := 5) (b := toLE 2 (commStatus t.dev)) howed
    (admission_reaches (via := .can c k) (requestSeen_can hseen))
  rw [← hread] at hod hout
  exact ⟨_, rfl, hod.trans (requestSeen_executesFrom hseen).od, hout⟩

/-! ### Times (R160 to R162) -/

/-- The end of a holder's time. -/
def holderDue (o : Od) (d : Dev) : Option Instant := d.sec.holder.map (fun n => .aon ((getSession d n).lastRequest + secT (odU o 0x2320 6)))

theorem commTimeout_completes {s : State} (h : s.dev.sec.holder.isSome = true) :
    Completes .commTimeout s (fun u => u.dev.sec.holder = none ∧ u.od = s.od) := by
  obtain ⟨n, hn⟩ := Option.isSome_iff_exists.mp h
  refine completes_timed (due := holderDue) (f := commTimeout) rfl ⟨?_, rfl⟩
  have hcom : (s.upTo holderDue).dev.com = s.dev.com := upTo_part _ s (p := .com) (by decide)
  have hsec : (s.upTo holderDue).dev.sec = s.dev.sec := upTo_part _ s (p := .sec) (by decide)
  have hover := le_run_upTo (due := holderDue) (s := s) (t := (getSession s.dev n).lastRequest + secT (odU s.od 0x2320 6)) (by simp [holderDue, hn])
  have hsession : getSession (s.upTo holderDue).dev n = getSession s.dev n := by rw [getSession, hcom, getSession]
  unfold commTimeout
  simp only [hsec, hn, hsession]
  rw [if_neg (by omega)]
  obtain ⟨proof, hends⟩ := commEnd_sec s.od 2 (s.upTo holderDue).dev
  exact congrArg Sec.holder hends

/-- The end of a nonce's time. -/
def nonceDue (n : Nat) (_ : Od) (d : Dev) : Option Instant := (vget d.sec.nonces n).map (fun x => .aon (x.2.1 + secT 10))

theorem commNonceExpiry_completes {n : Fin 64} {s : State} (h : (vget s.dev.sec.nonces n.val).isSome = true) :
    Completes (.commNonceExpiry n) s (fun u => vget u.dev.sec.nonces n.val = none ∧ u.od = s.od) := by
  obtain ⟨⟨issued, t, k⟩, hn⟩ := Option.isSome_iff_exists.mp h
  refine completes_timed (due := nonceDue n.val) (f := fun _ => commNonceExpiry n.val) rfl ⟨?_, rfl⟩
  have hsec : (s.upTo (nonceDue n.val)).dev.sec = s.dev.sec := upTo_part _ s (p := .sec) (by decide)
  have hover := le_run_upTo (due := nonceDue n.val) (s := s) (t := t + secT 10) (by simp [nonceDue, hn])
  unfold commNonceExpiry
  simp only [hsec, hn]
  rw [if_neg (by omega)]
  exact vget_vset_same _ _ _ n.isLt

theorem commLockoutEnd_completes {s : State} (h : s.dev.aon.authLockout.isSome = true) :
    Completes .commLockoutEnd s (fun u => u.dev.aon.authLockout = none ∧ u.dev.aon.authFails = 0 ∧ u.od = s.od) := by
  obtain ⟨t, ht⟩ := Option.isSome_iff_exists.mp h
  refine completes_timed (due := fun _ d => d.aon.authLockout.map Instant.aon) (f := fun _ => commLockoutEnd) rfl ?_
  have haon : (s.upTo (fun _ d => d.aon.authLockout.map Instant.aon)).dev.aon = s.dev.aon := upTo_part _ s (p := .aon) (by decide)
  have hover := le_run_upTo (due := fun _ d => d.aon.authLockout.map Instant.aon) (s := s) (t := t) (by simp [ht])
  unfold commLockoutEnd
  simp only [haon, ht]
  rw [if_neg (by omega)]
  exact ⟨rfl, rfl, trivial⟩

/-- Settles O20: each service by what its message or its exchange leaves of the security unit, and the times by their ends. -/
theorem commissioningExchange : Obligations.CommissioningExchange := by
  unfold Obligations.CommissioningExchange
  refine ⟨fun via s t n hseen hn hhold hcheck => commChallenge_completes hseen hn hhold hcheck,
    fun via nonce mac issued ck at_ s t n hnonce hmac hseen hhold hcheck hrefusal hissued hgood => ?_,
    fun via nonce mac issued ck at_ s t n hnonce hmac hseen hhold hcheck hrefusal hissued hbad => ?_,
    fun via s t n hseen hhold hcheck hholder => commEnd_completes hseen hhold hcheck hholder,
    fun via s t n hseen hhold howed hv => commStatus_message hseen hhold howed hv,
    fun c k s t n hseen howed hcheck => commStatus_can hseen howed hcheck, fun s h => commTimeout_completes h,
    fun n s h => commNonceExpiry_completes h, fun s h => commLockoutEnd_completes h⟩
  · obtain ⟨-, hholder, hfails⟩ := commResponse_good (o := t.od) hissued hgood
    exact commResponse_completes (P := fun sec aon => sec.holder = some n ∧ aon.authFails = 0) hnonce hmac hseen hhold hcheck hrefusal
      ⟨hholder, hfails⟩
  · obtain ⟨-, hholder, hfails⟩ := commResponse_bad (o := t.od) hissued hbad
    have hsec : t.dev.sec = s.dev.sec := (requestSeen_executesFrom hseen).part (p := .sec) (by decide)
    have haon : t.dev.aon = s.dev.aon := (requestSeen_executesFrom hseen).part (p := .aon) (by decide)
    exact commResponse_completes (P := fun sec aon => sec.holder = s.dev.sec.holder ∧ aon.authFails = s.dev.aon.authFails + 1) hnonce hmac hseen hhold
      hcheck hrefusal ⟨hsec ▸ hholder, haon ▸ hfails⟩

end Sys2Proof.Machine
end

section
/-! The NMT commands (O4). -/
namespace Sys2Proof.Machine

/-! ### The state and the node-ID through the end of sessions -/

/-- What a command sets: the NMT state and the node-ID in force. -/
def nmtView (d : Dev) : NmtState × Nat := (d.com.nmt, d.com.nodeId)

theorem nmtView_congr {d e : Dev} (h : d.com = e.com) : nmtView d = nmtView e := by rw [nmtView, h, nmtView]

theorem modSession_nmtView (n : Nat) (f : Session → Session) (d : Dev) : nmtView (modSession n f d) = nmtView d := rfl

theorem sessionEnds_nmtView (o : Od) (n : Nat) (d : Dev) : nmtView (sessionEnds o n d) = nmtView d := by
  unfold sessionEnds
  extract_lets d1
  have hd1 : nmtView d1 = nmtView d := by
    simp only [d1]
    split
    · exact nmtView_congr (commEnd_leaves (p := .com) (by decide) ..)
    · rfl
  exact hd1

theorem portInForce_nmtView (o : Od) (d : Dev) : nmtView (portInForce o d) = nmtView d := by
  unfold portInForce
  split <;> rfl

theorem closeSession_nmtView (o : Od) (n : Nat) (d : Dev) : nmtView (closeSession o n d) = nmtView d := by
  unfold closeSession
  split
  · rfl
  · rw [portInForce_nmtView, modSession_nmtView, sessionEnds_nmtView]

theorem followChannels_nmtView (o : Od) (d : Dev) : nmtView (followChannels o d) = nmtView d := by
  unfold followChannels
  extract_lets d1 mail
  have hd1 : nmtView d1 = nmtView d := forEach_eq nmtView d fun n e => by
    dsimp only
    split
    · rfl
    split
    · exact closeSession_nmtView ..
    · rfl
  refine (forEach_eq nmtView d1 fun n e => ?_).trans hd1
  dsimp only
  split
  · rfl
  split
  · exact closeSession_nmtView ..
  · rfl

/-- The communication as a reset leaves it, but for the sessions. -/
def rejoined (o : Od) (d : Dev) : Dev := { d with com := { d.com with
  nmt := .preOperational, nodeId := odU o 0x2002 1, iface := ifaceOf o
  rpdos := d.com.rpdos.map (fun r => { r with held := none, status := 0, lastReceived := d.clk.run })
  tpdos := Vector.replicate 32 { lastSent := d.clk.run }
  heartbeatLast := d.clk.run } }

theorem rejoined_nmtView (o : Od) (d : Dev) : nmtView (rejoined o d) = (.preOperational, odU o 0x2002 1) := rfl

theorem nmtReset_rejoins (s : State) : ∃ s2 : State, nmtReset s = s2.act (fun o d => followChannels o (rejoined o d)) := ⟨_, rfl⟩

/-- A reset of the node or of its communication: pre-operational, with the node-ID of the object. -/
theorem nmtReset_sets (s : State) : (nmtReset s).dev.com.nmt = .preOperational ∧ (nmtReset s).dev.com.nodeId = odU (nmtReset s).od 0x2002 1 := by
  obtain ⟨s2, h⟩ := nmtReset_rejoins s
  have hview := (followChannels_nmtView s2.od (rejoined s2.od s2.dev)).trans (rejoined_nmtView s2.od s2.dev)
  rw [h, State.act_dev]
  exact ⟨congrArg Prod.fst hview, congrArg Prod.snd hview⟩

theorem nmtCommand_resets {code : Nat} (h : code = 0x81 ∨ code = 0x82) (s : State) : nmtCommand code s = nmtReset s := by
  rcases h with rfl | rfl <;> rfl

/-- The state that a command without a reset enters. -/
theorem nmtCommand_enters {code : Nat} {n : NmtState}
    (h : (code = 0x01 ∧ n = .operational) ∨ (code = 0x02 ∧ n = .stopped) ∨ (code = 0x80 ∧ n = .preOperational)) (s : State) :
    nmtCommand code s = devTo (nmtTo n) s := by
  rcases h with ⟨rfl, rfl⟩ | ⟨rfl, rfl⟩ | ⟨rfl, rfl⟩ <;> rfl

theorem writeEffect_nmt (session : Option Nat) (b : Bytes) (s : State) :
    writeEffect session 0x2002 3 b s = (none, nmtCommand (leNat b) s) := rfl

/-! ### A command, by either way -/

/-- A command that reaches this node. -/
def NmtReaches (code : Nat) (s : State) : NmtSrc → Prop
  | .bus _ node => s.dev.isOn .net = true ∧ canLine s.dev = true ∧ (node = 0 ∨ node.toNat = s.dev.com.nodeId)
  | .host via => accepted via 0x2002 3 [BitVec.ofNat 8 code] s = true

/-- A command that reaches this node has its effect, on the bus or as a write. -/
theorem nmtRow_completes {c : Instr} {code : Nat} {src : NmtSrc} {s : State} {P : NmtState → Nat → Od → Prop}
    (hexec : exec c s = acts (nmtRow code src) s) (hcode : code < 256) (hreach : NmtReaches code s src)
    (hP : ∀ t : State, t.od = s.od → P (nmtCommand code t).dev.com.nmt (nmtCommand code t).dev.com.nodeId (nmtCommand code t).od) :
    Completes c s (fun u => P u.dev.com.nmt u.dev.com.nodeId u.od) := by
  cases src with
  | bus k node =>
    obtain ⟨hon, hline, hnode⟩ := hreach
    have hnode' : (node.toNat == 0 || node.toNat == s.dev.com.nodeId) = true := by
      rcases hnode with rfl | hnode
      · rfl
      · simp [hnode]
    have hbus : nmtRow code (.bus k node) s = nmtCommand code (devTo netBusy s) := by
      show nmtBus node.toNat code s = _
      unfold nmtBus
      rw [if_pos (by simp [hon, hline, hnode'])]
    refine ⟨_, hexec, ?_⟩
    show P (nmtRow code (.bus k node) s).dev.com.nmt (nmtRow code (.bus k node) s).dev.com.nodeId (nmtRow code (.bus k node) s).od
    rw [hbus]
    exact hP _ rfl
  | host via =>
    refine completes_of_writeReply (via := via) (ix := 0x2002) (sub := 3) (b := [b8 code]) hexec ⟨by decide, by decide, by simp, by omega, by omega⟩
      hreach fun n t u v ho hreplied => ?_
    have hvalue : leNat [b8 code] = code := by
      rw [leNat_singleton]
      exact Nat.mod_eq_of_lt hcode
    have heffect := ho.effect.symm.trans (writeEffect_nmt (some n) [b8 code] t)
    rw [hvalue] at heffect
    obtain rfl : u = nmtCommand code t := congrArg Prod.snd heffect
    have hnmt := congrArg Com.nmt hreplied.com
    have hnode := congrArg Com.nodeId hreplied.com
    dsimp only at hnmt hnode
    rw [hnmt, hnode, hreplied.od]
    exact hP t ho.seen.od

/-- Settles O4: a command that reaches the node sets the state, and a reset takes the node-ID of the object. -/
theorem nmtCommandsSetState : Obligations.NmtCommandsSetState := by
  unfold Obligations.NmtCommandsSetState
  intro s src hsrc
  have hreach (code : Nat) (hcode : code ∈ [0x01, 0x02, 0x80, 0x81, 0x82]) : NmtReaches code s src := by
    have h := hsrc code hcode
    cases src <;> exact h
  have henters {c : Instr} {code : Nat} {n : NmtState} (hexec : exec c s = acts (nmtRow code src) s)
      (hcode : (code = 0x01 ∧ n = .operational) ∨ (code = 0x02 ∧ n = .stopped) ∨ (code = 0x80 ∧ n = .preOperational)) :
      Completes c s (fun u => u.dev.com.nmt = n ∧ u.od = s.od) := by
    refine nmtRow_completes (P := fun nmt _ o => nmt = n ∧ o = s.od) hexec (by omega) (hreach code (by simp; omega)) fun t ht => ?_
    rw [nmtCommand_enters hcode]
    exact ⟨rfl, ht⟩
  have hresets {c : Instr} {code : Nat} (hexec : exec c s = acts (nmtRow code src) s) (hcode : code = 0x81 ∨ code = 0x82) :
      Completes c s (fun u => u.dev.com.nmt = .preOperational ∧ u.dev.com.nodeId = odU u.od 0x2002 1) := by
    refine nmtRow_completes (P := fun nmt node o => nmt = .preOperational ∧ node = odU o 0x2002 1) hexec (by omega)
      (hreach code (by simp; omega)) fun t _ => ?_
    rw [nmtCommand_resets hcode]
    exact nmtReset_sets t
  exact ⟨henters (code := 0x01) rfl (by simp), henters (code := 0x02) rfl (by simp), henters (code := 0x80) rfl (by simp),
    hresets (code := 0x81) rfl (by simp), hresets (code := 0x82) rfl (by simp)⟩

end Sys2Proof.Machine
end

section
/-! Process data objects received and sent, the heartbeat and EMCY (O5, O6). -/
namespace Sys2Proof.Machine

/-! ### Reception (R52, R53) -/

/-- RPDO `n` as the frame that it takes leaves it; `held` is what it then holds for the period start. -/
def rpdoNoted (n : Nat) (held : Option Bytes) (d : Dev) : Dev :=
  { d with com := { d.com with rpdos := vmod d.com.rpdos n (fun r => { r with lastReceived := d.clk.run, held := held }) } }

section
variable {src : PdoSrc} {data b : Bytes} {s : State} {n : Nat} (hruns : pdoRuns s.dev = true) (hheard : pdoHeard src s.dev = true)
  (htargets : pdoTargets s.od src data = ([n], b))
include hruns hheard htargets

theorem rpdoReceived_takes : rpdoReceived src data s = rpdoTake n b (devTo netBusy s) := by
  unfold rpdoReceived
  rw [if_neg (by simp [hruns, hheard])]
  simp only [htargets, List.isEmpty_cons, Bool.false_eq_true, if_false, rpdosTake, List.foldl_cons, List.foldl_nil]

/-- A synchronous RPDO holds the frame. -/
theorem rpdoReceived_holds (hn : n < 32) (hlow : 1 ≤ transmissionType s.od (0x1400 + n)) (hhigh : transmissionType s.od (0x1400 + n) ≤ 240) :
    Completes (.rpdoReceived src data) s (fun u => (vget u.dev.com.rpdos n).held = some b ∧
      (vget u.dev.com.rpdos n).lastReceived = s.dev.clk.run ∧ u.od = s.od) := by
  have hsync : (decide (1 ≤ transmissionType (devTo netBusy s).od (0x1400 + n)) && decide (transmissionType (devTo netBusy s).od (0x1400 + n) ≤ 240)) = true := by
    simp only [devTo_od, hlow, hhigh, decide_true, Bool.and_self]
  have htake : rpdoReceived src data s = devTo (rpdoNoted n (some b)) (devTo netBusy s) := by
    rw [rpdoReceived_takes hruns hheard htargets, rpdoTake]
    simp only [hsync, if_true]
    rfl
  refine ⟨_, rfl, ?_⟩
  show (vget (rpdoReceived src data s).dev.com.rpdos n).held = some b ∧ (vget (rpdoReceived src data s).dev.com.rpdos n).lastReceived = s.dev.clk.run ∧
    (rpdoReceived src data s).od = s.od
  rw [htake]
  have hrpdo : vget (rpdoNoted n (some b) (netBusy s.dev)).com.rpdos n =
      { vget s.dev.com.rpdos n with lastReceived := s.dev.clk.run, held := some b } := vget_vmod_same _ _ _ hn
  rw [devTo_dev, devTo_dev, hrpdo]
  exact ⟨rfl, rfl, rfl⟩

/-- An event-driven RPDO writes its objects at once, where none of the writes is refused. -/
theorem rpdoReceived_applies {r : State} (htype : 240 < transmissionType s.od (0x1400 + n))
    (hr : writeMapped (mapped s.od (0x1600 + n)) b (devTo (fun d => { netBusy d with com := { d.com with
        rpdos := vmod d.com.rpdos n (fun x => { x with lastReceived := d.clk.run }) } }) s) = some r) :
    Completes (.rpdoReceived src data) s (fun u => u.od = r.od ∧ u.dev = r.dev) := by
  have hsync : (decide (1 ≤ transmissionType (devTo netBusy s).od (0x1400 + n)) && decide (transmissionType (devTo netBusy s).od (0x1400 + n) ≤ 240)) = false := by
    rw [devTo_od, Bool.and_eq_false_iff]
    exact Or.inr (decide_eq_false (by omega))
  have hreceived : rpdoReceived src data s = r := by
    rw [rpdoReceived_takes hruns hheard htargets, rpdoTake]
    simp only [hsync, Bool.false_eq_true, if_false]
    refine Eq.trans ?_ (show rpdoApply n b (devTo (fun d => { netBusy d with com := { d.com with
        rpdos := vmod d.com.rpdos n (fun x => { x with lastReceived := d.clk.run }) } }) s) = r by rw [rpdoApply, devTo_od, hr])
    rfl
  refine ⟨_, rfl, ?_⟩
  show (rpdoReceived src data s).od = r.od ∧ (rpdoReceived src data s).dev = r.dev
  rw [hreceived]
  exact ⟨rfl, rfl⟩

end

/-- The transfer of process data does not change as time passes. -/
theorem upTo_pdoRuns (due : Od → Dev → Option Instant) (s : State) : pdoRuns (s.upTo due).dev = pdoRuns s.dev := by
  have hcom : (s.upTo due).dev.com = s.dev.com := upTo_part due s (p := .com) (by decide)
  have hsec : (s.upTo due).dev.sec = s.dev.sec := upTo_part due s (p := .sec) (by decide)
  rw [pdoRuns, upTo_isOn, hcom, hsec, pdoRuns]

theorem rpdoTimeout_marks {n : Fin 32} {s : State} (hruns : pdoRuns s.dev = true) (hvalid : pdoValid s.od (0x1400 + n.val) = true)
    (htimer : odU s.od (0x1400 + n.val) 5 ≠ 0) :
    Completes (.rpdoTimeout n) s (fun u => (vget u.dev.com.rpdos n.val).status.testBit 15 = true ∧ u.od = s.od) := by
  refine completes_timed (due := rpdoDue n.val) (f := rpdoTimeout n.val) rfl ⟨?_, rfl⟩
  have hcom : (s.upTo (rpdoDue n.val)).dev.com = s.dev.com := upTo_part _ s (p := .com) (by decide)
  have hruns' := (upTo_pdoRuns (rpdoDue n.val) s).trans hruns
  have hover := le_run_upTo (due := rpdoDue n.val) (s := s) (t := (vget s.dev.com.rpdos n.val).lastReceived + msT (odU s.od (0x1400 + n.val) 5) + 1)
    (by simp [rpdoDue, instantIf, hruns, hvalid, htimer])
  unfold rpdoTimeout
  dsimp only
  rw [if_pos (by simp [hruns', hvalid, htimer, hcom]; omega)]
  rw [show vget _ n.val = _ from vget_vset_same _ _ _ n.isLt]
  exact setBit_testBit_self _ _

/-- Settles O5: a frame for one RPDO is held or applied by its type, and the event timer marks its RPDO. -/
theorem rpdosTakeFramesAndTimeOut : Obligations.RpdosTakeFramesAndTimeOut := by
  unfold Obligations.RpdosTakeFramesAndTimeOut
  exact ⟨fun src data b s n hn hruns hheard htargets hlow hhigh => rpdoReceived_holds hruns hheard htargets hn hlow hhigh,
    fun src data b s r n _ hruns hheard htargets htype hr => rpdoReceived_applies hruns hheard htargets htype hr,
    fun n s hruns hvalid htimer => rpdoTimeout_marks hruns hvalid htimer⟩

/-! ### Transmission (R52, R54) -/

/-- `u` is `w` after TPDO `n` was sent with its data. -/
structure TpdoSent (n : Nat) (w u : State) : Prop where
  od : u.od = w.od
  data : (vget u.dev.com.tpdos n).lastData = tpdoData n w
  sent : (vget u.dev.com.tpdos n).lastSent = w.dev.clk.run
  can : tpdoTransport w.od n ≤ 1 → canLine w.dev = true →
    u.dev.out = w.dev.out ++ [Output.can (tpdoTransport w.od n) (odU w.od (0x1800 + n) 1 % 2 ^ 29) (tpdoData n w)]
  eth : ∀ m : Fin 2, tpdoTransport w.od n = 0x10 + m.val → ethLine w.dev = true →
    u.dev.out = w.dev.out ++ [Output.eth m.val (odGet w.od 0x1FE2 1)
      (pdoFrame (odU w.od (0x1800 + n) 1) (vget w.dev.com.tpdos n).count w.dev.clk.dt (tpdoData n w))]

theorem tpdoSend_can {n tr : Nat} {b : Bytes} {s : State} (htr : tpdoTransport s.od n = tr) (hcan : tr ≤ 1) (hline : canLine s.dev = true) :
    (tpdoSend n b s).dev.out = s.dev.out ++ [Output.can tr (odU s.od (0x1800 + n) 1 % 2 ^ 29) b] := by
  unfold tpdoSend
  simp only [htr]
  have hwired (c : Nat) : wired [Output.can c (odU s.od (0x1800 + n) 1 % 2 ^ 29) b] s.dev = [Output.can c (odU s.od (0x1800 + n) 1 % 2 ^ 29) b] := by
    simp [wired, hline]
  obtain rfl | rfl : tr = 0 ∨ tr = 1 := by omega
  · exact congrArg (s.dev.out ++ ·) (hwired 0)
  · exact congrArg (s.dev.out ++ ·) (hwired 1)

theorem tpdoSend_eth {n : Nat} {m : Fin 2} {b : Bytes} {s : State} (htr : tpdoTransport s.od n = 0x10 + m.val) (hline : ethLine s.dev = true) :
    (tpdoSend n b s).dev.out = s.dev.out ++ [Output.eth m.val (odGet s.od 0x1FE2 1)
      (pdoFrame (odU s.od (0x1800 + n) 1) (vget s.dev.com.tpdos n).count s.dev.clk.dt b)] := by
  have hwired (k : Nat) (f : Bytes) : wired [Output.eth k (odGet s.od 0x1FE2 1) f] s.dev = [Output.eth k (odGet s.od 0x1FE2 1) f] := by
    simp [wired, hline]
  unfold tpdoSend
  simp only [htr]
  obtain rfl | rfl : m = 0 ∨ m = 1 := by omega
  · exact congrArg (s.dev.out ++ ·) (hwired 0 _)
  · exact congrArg (s.dev.out ++ ·) (hwired 1 _)

theorem tpdoSend_sent {n : Nat} (hn : n < 32) (w : State) : TpdoSent n w (tpdoSend n (tpdoData n w) w) where
  od := rfl
  data := congrArg Tpdo.lastData (vget_vset_same _ _ _ hn)
  sent := congrArg Tpdo.lastSent (vget_vset_same _ _ _ hn)
  can := fun htr hline => tpdoSend_can rfl htr hline
  eth := fun _ htr hline => tpdoSend_eth htr hline

/-- A TPDO that may be sent at the end of a wait, where it could before. -/
theorem tpdoOf_upTo {n type : Nat} {s : State} (due : Od → Dev → Option Instant) (h : tpdoOf n type s = true) : tpdoOf n type (s.upTo due) = true := by
  rwa [tpdoOf, upTo_pdoRuns, upTo_od]

theorem tpdoDue_reached {n type span : Nat} {s : State} (h : tpdoOf n type s = true) :
    (vget (s.upTo (tpdoDue n type span)).dev.com.tpdos n).lastSent + span ≤ (s.upTo (tpdoDue n type span)).dev.clk.run := by
  have hcom : (s.upTo (tpdoDue n type span)).dev.com = s.dev.com := upTo_part _ s (p := .com) (by decide)
  rw [hcom]
  refine le_run_upTo ?_
  unfold tpdoOf at h
  simp only [tpdoDue, instantIf, h, if_true]

theorem tpdoChange_sends {n : Fin 32} {s : State} (h : tpdoOf n.val 0xFE s = true)
    (hdata : tpdoData n.val (s.upTo (tpdoDue n.val 0xFE (usT (100 * odU s.od (0x1800 + n.val) 3)))) ≠ (vget s.dev.com.tpdos n.val).lastData) :
    Completes (.tpdoChangeTransmit n) s (fun u => TpdoSent n.val (s.upTo (tpdoDue n.val 0xFE (usT (100 * odU s.od (0x1800 + n.val) 3)))) u) := by
  have hdue : s.upTo (fun o => tpdoDue n.val 0xFE (usT (100 * odU o (0x1800 + n.val) 3)) o) =
      s.upTo (tpdoDue n.val 0xFE (usT (100 * odU s.od (0x1800 + n.val) 3))) := rfl
  refine completes_timedAct (due := fun o => tpdoDue n.val 0xFE (usT (100 * odU o (0x1800 + n.val) 3)) o) (f := tpdoChange n.val) rfl ?_
  rw [hdue]
  have hof := tpdoOf_upTo (tpdoDue n.val 0xFE (usT (100 * odU s.od (0x1800 + n.val) 3))) h
  have hover := tpdoDue_reached (span := usT (100 * odU s.od (0x1800 + n.val) 3)) h
  have hcom : (s.upTo (tpdoDue n.val 0xFE (usT (100 * odU s.od (0x1800 + n.val) 3)))).dev.com = s.dev.com := upTo_part _ s (p := .com) (by decide)
  have hod := upTo_od (tpdoDue n.val 0xFE (usT (100 * odU s.od (0x1800 + n.val) 3))) s
  rw [← hcom] at hdata
  generalize s.upTo (tpdoDue n.val 0xFE (usT (100 * odU s.od (0x1800 + n.val) 3))) = w at hof hover hdata hod ⊢
  rw [← hod] at hover
  have hchange : tpdoChange n.val w = tpdoSend n.val (tpdoData n.val w) w := by
    unfold tpdoChange
    rw [if_pos (by simp [hof, hdata, hover])]
  rw [hchange]
  have hsent := tpdoSend_sent n.isLt w
  exact ⟨hsent.od, hsent.data, hsent.sent, hsent.can, hsent.eth⟩

theorem tpdoTimer_sends {n : Fin 32} {s : State} (h : tpdoOf n.val 0xFF s = true) (htimer : odU s.od (0x1800 + n.val) 5 ≠ 0) :
    Completes (.tpdoEventTimer n) s (fun u => TpdoSent n.val (s.upTo (tpdoDue n.val 0xFF (msT (odU s.od (0x1800 + n.val) 5)))) u) := by
  have hdue : s.upTo (fun o => tpdoDue n.val 0xFF (msT (odU o (0x1800 + n.val) 5)) o) =
      s.upTo (tpdoDue n.val 0xFF (msT (odU s.od (0x1800 + n.val) 5))) := rfl
  refine completes_timedAct (due := fun o => tpdoDue n.val 0xFF (msT (odU o (0x1800 + n.val) 5)) o) (f := tpdoTimer n.val) rfl ?_
  rw [hdue]
  have hof := tpdoOf_upTo (tpdoDue n.val 0xFF (msT (odU s.od (0x1800 + n.val) 5))) h
  have hover := tpdoDue_reached (span := msT (odU s.od (0x1800 + n.val) 5)) h
  have hod := upTo_od (tpdoDue n.val 0xFF (msT (odU s.od (0x1800 + n.val) 5))) s
  generalize s.upTo (tpdoDue n.val 0xFF (msT (odU s.od (0x1800 + n.val) 5))) = w at hof hover hod ⊢
  rw [← hod] at hover htimer
  have hchange : tpdoTimer n.val w = tpdoSend n.val (tpdoData n.val w) w := by
    unfold tpdoTimer
    rw [if_pos (by simp [hof, htimer, hover])]
  rw [hchange]
  have hsent := tpdoSend_sent n.isLt w
  exact ⟨hsent.od, hsent.data, hsent.sent, hsent.can, hsent.eth⟩

/-! ### The heartbeat and EMCY (R45, R46) -/

theorem heartbeat_sends {s : State} (hon : s.dev.isOn .net = true) (hline : canLine s.dev = true) (htime : odU s.od 0x1017 0 ≠ 0) :
    Completes .heartbeatProducerTimer s (fun u => u.dev.com.heartbeatLast = u.dev.clk.run ∧
      Output.can 0 (0x700 + s.dev.com.nodeId) [b8 s.dev.com.nmt.code] ∈ u.dev.out ∧
      Output.can 1 (0x700 + s.dev.com.nodeId) [b8 s.dev.com.nmt.code] ∈ u.dev.out) := by
  refine completes_timed (due := heartbeatDue) (f := heartbeat) rfl ?_
  have hcom : (s.upTo heartbeatDue).dev.com = s.dev.com := upTo_part _ s (p := .com) (by decide)
  have hrails : (s.upTo heartbeatDue).dev.rails = s.dev.rails := upTo_part _ s (p := .rails) (by decide)
  have hon' := (upTo_isOn heartbeatDue s .net).trans hon
  have hline' : canLine (s.upTo heartbeatDue).dev = true := by rwa [canLine, hrails]
  have hover := le_run_upTo (due := heartbeatDue) (s := s) (t := s.dev.com.heartbeatLast + msT (odU s.od 0x1017 0))
    (by simp [heartbeatDue, instantIf, hon, htime])
  rw [← hcom] at hover ⊢
  generalize (s.upTo heartbeatDue).dev = w at hon' hline' hover ⊢
  have hwired (l : List Nat) (b : Bytes) : wired (l.map (fun c => Output.can c (0x700 + w.com.nodeId) b)) w =
      l.map (fun c => Output.can c (0x700 + w.com.nodeId) b) := by
    simp [wired, hline']
  unfold heartbeat
  dsimp only
  rw [if_neg (by simp [hon', htime, hover]), hwired]
  exact ⟨rfl, List.mem_append_right _ (List.mem_cons_self ..), List.mem_append_right _ (List.mem_cons_of_mem _ (List.mem_cons_self ..))⟩

theorem emcySend_sends {s : State} {r : Record} {rest : List Record} (hon : s.dev.isOn .net = true) (hline : canLine s.dev = true)
    (hnmt : s.dev.com.nmt ≠ .stopped) (hqueue : s.dev.seqr.emcy = r :: rest) :
    Completes .emcySend s (fun u => u.dev.seqr.emcy = rest ∧ u.od = s.od ∧
      ∀ c ∈ setBits 2 (odU s.od 0x1FE4 2), Output.can c (0x080 + s.dev.com.nodeId)
        ([0x00, 0xFF, b8 (errorReg s.dev)] ++ List.replicate 13 0 ++ padTo 32 (eventBytes r)) ∈ u.dev.out) := by
  refine completes_drives (f := emcySend) rfl ?_
  have hwired (l : List Nat) (b : Bytes) : wired (l.map (fun c => Output.can c (0x080 + s.dev.com.nodeId) b)) s.dev =
      l.map (fun c => Output.can c (0x080 + s.dev.com.nodeId) b) := by
    simp [wired, hline]
  unfold emcySend
  rw [if_neg (by simp [hon, hnmt])]
  simp only [hqueue, hwired]
  exact ⟨trivial, trivial, fun c hc => List.mem_append_right _ (List.mem_map_of_mem hc)⟩

/-- Settles O6: each of the four by the state at its instant, in which what it needs is as before. -/
theorem deviceSendsOnCan : Obligations.DeviceSendsOnCan := by
  unfold Obligations.DeviceSendsOnCan
  refine ⟨fun n s h hdata => ?_, fun n s h htimer => ?_, fun s hon hline htime => heartbeat_sends hon hline htime,
    fun s r rest hon hline hnmt hqueue => emcySend_sends hon hline hnmt hqueue⟩
  · obtain ⟨u, hexec, hsent⟩ := tpdoChange_sends h hdata
    exact ⟨u, hexec, hsent.od, hsent.data, hsent.sent, hsent.can, hsent.eth⟩
  · obtain ⟨u, hexec, hsent⟩ := tpdoTimer_sends h htimer
    exact ⟨u, hexec, hsent.od, hsent.data, hsent.sent, hsent.can, hsent.eth⟩

end Sys2Proof.Machine
end
